-- ==== Sys2Proof/Word.lean ====
section
/-! DEFINITION. The word types of the E9 (R4, R8) and the names that every layer shares. -/

namespace Sys2Proof

/-- A 64-bit register, token payload or memory word. -/
abbrev Word := BitVec 64
/-- One byte of memory. -/
abbrev Byte := BitVec 8
/-- A vector register: 16 lanes of 32 bits, lane k in bits [32k+31:32k] (R4, R8). -/
abbrev Vec := BitVec 512
/-- A facet number, 0 to 3. -/
abbrev Facet := Fin 4
/-- A region number, 0 to 31 (R165). -/
abbrev RegionId := Fin 32
/-- An exposed die number, 0 to 7 (R3). -/
abbrev DieId := Fin 8

/-- A tile in logical coordinates (R3): x = 0 to 127 from the west, y = 0 to 31 from the south. -/
structure Tile where
  x : Nat
  y : Nat
  deriving DecidableEq, Repr

/-- A compute tile: x + y is even (R3). -/
def Tile.isCT (t : Tile) : Bool := (t.x + t.y) % 2 == 0
/-- The tile lies in the 128 by 32 fabric (R2, R3). -/
def Tile.inFabric (t : Tile) : Bool := t.x < 128 && t.y < 32
/-- One number for each tile, by which the tile maps are kept in order. -/
def Tile.key (t : Tile) : Nat := 32 * t.x + t.y
/-- The other tile of the pair: (x XOR 1, y) (R151). -/
def Tile.pair (t : Tile) : Tile := ⟨if t.x % 2 == 0 then t.x + 1 else t.x - 1, t.y⟩
/-- The exposed die of a tile: x = 16d to 16d + 15 (R3). -/
def Tile.die (t : Tile) : DieId := Fin.ofNat 8 (t.x / 16)

end Sys2Proof
end

