-- ==== Sys2Proof/Config.lean ====
section
/-! DEFINITION. What the spec leaves open: free values without a body (log 6, 9, 10, 12), and the constants that the model
names. Nothing can evaluate an opaque constant here, so a claim holds whatever its value. -/

namespace Sys2Proof.Config

/-- Which of several things the spec leaves unordered comes next (R312, R313, R314, R463): applied to State.free. -/
opaque freePick : Nat → Nat
/-- The fixed mapping of HBM physical address bits [35:11] to a bank, bank group and row, which software does not see (R212): the bank. -/
opaque hbmBank : Nat → Nat
/-- A word that the spec leaves open: applied to State.free. -/
opaque freeWord : Nat → Word
/-- What a small immediate becomes in a floating-point format that does not hold its value (R49): of the format's code and the immediate
(log 17). -/
opaque inexactImm : Nat → BitVec 6 → Nat
/-- The ECDSA P-384 signature or certificate bytes of an SPDM answer (R455), as a function of the request's bytes. -/
opaque spdmBytes : List Byte → List Byte
/-- The fused hashes of the two keys (R453). -/
opaque fusedKeyHashes : List Byte
/-- The boot ROM's bytes (R455, measurement 1). -/
opaque bootRom : List Byte

end Sys2Proof.Config
end

