-- ==== Sys2Proof/Syntax.lean ====
section
/-! DEFINITION. The syntax: the operand specifiers and the five formats of an instruction word (R41 to R49), the arguments of
the other agents' steps, and the ONE inductive Instr with a constructor for each row of the table of operations and events. -/

namespace Sys2Proof

/-- An operand specifier (R48). rsv keeps the bits of a reserved specifier, which R57 traps on in a used field. -/
inductive Spec where
  | g (n : BitVec 6)
  | v (n : BitVec 5)
  | inp (n : BitVec 4)
  | peek (n : BitVec 4)
  | outp (n : BitVec 4)
  | p (n : BitVec 3)
  | vz
  | lid
  | imm (n : BitVec 6)
  | rsv (bits : Byte)
  deriving DecidableEq, Repr

/-- The predicate match field pm (R41). -/
inductive Match where
  | always | predTrue | predFalse | nullSkip
  deriving DecidableEq, Repr

/-- The rounding field rnd (R42). -/
inductive Rnd where
  | dyn | rsv1 | rsv2 | rsv3 | rn | rz | ru | rd
  deriving DecidableEq, Repr

/-- The element-size field esz (R42). -/
inductive Esz where
  | dflt | e8 | e16 | e32 | e64 | e4 | rsv6 | rsv7
  deriving DecidableEq, Repr

/-- The size field of format M (R45). -/
inductive Size where
  | b | h | w | d | v | rsv5 | rsv6 | rsv7
  deriving DecidableEq, Repr

/-- The scope field (R45, R238). -/
inductive Scope where
  | act | elem | pair | region | die | device | system | rsv
  deriving DecidableEq, Repr

/-- The condition codes of R44. -/
inductive Cond where
  | always | eq | ne | lt | ge | ltu | geu | ps | pc | er | nl | tp | rsvC | rsvD | rsvE | rsvF
  deriving DecidableEq, Repr

/-- Guard and predicate match, common to all formats (R41). -/
structure Head where
  gn : Bool
  gp : BitVec 3
  pm : Match
  deriving DecidableEq, Repr

/-- Format R (R42). -/
structure RForm where
  head : Head
  d : Spec
  a : Spec
  b : Spec
  c : Spec
  rnd : Rnd
  esz : Esz
  fn : BitVec 12
  deriving DecidableEq, Repr

/-- Format I (R43). -/
structure IForm where
  head : Head
  d : Spec
  a : Spec
  imm : BitVec 34
  deriving DecidableEq, Repr

/-- Format B (R44). -/
structure BForm where
  head : Head
  d : Spec
  a : Spec
  b : Spec
  cond : Cond
  zero : BitVec 11
  tgt : BitVec 11
  deriving DecidableEq, Repr

/-- Format M (R45). -/
structure MForm where
  head : Head
  d : Spec
  a : Spec
  b : Spec
  size : Size
  scope : Scope
  disp : BitVec 20
  deriving DecidableEq, Repr

/-- Format E (R46). -/
structure EForm where
  head : Head
  d : Spec
  a : Spec
  b : Spec
  c : Spec
  mod : BitVec 18
  deriving DecidableEq, Repr

/-- The window and handler-control registers that the supervisor writes in an element (R12, R40). -/
inductive WinReg where
  | actbase | actlim | isbase | islim | rmode | masks
  deriving DecidableEq, Repr

/-- A broadcast bus of a die: 32 row buses and 16 column buses (R159). -/
inductive BusId where
  | row (y : Fin 32)
  | col (c : Fin 16)
  deriving DecidableEq, Repr

/-- Ingress or egress port (R167). -/
inductive PortDir where
  | ingress | egress
  deriving DecidableEq, Repr

/-- The notice FIFO of a region or of a die (R365). -/
inductive NoticeFifo where
  | region (r : RegionId)
  | die (d : DieId)
  deriving DecidableEq, Repr

/-- The path by which a host or peer reaches device memory (R429, R431), BAR0 with the registers (R5), or BAR4 with the MSI-X table. -/
inductive HostPath where
  | pcie | cxlMem | bar0 | bar4
  deriving DecidableEq, Repr

/-- A host write of a doorbell (R190): where it begins, counted from LQDOOR, and how many bytes it has. -/
structure DoorWrite where
  off : Nat
  bytes : Nat
  deriving DecidableEq, Repr

/-- A frame that an Ethernet port received (R436): port, arrival time in PHC nanoseconds, whether its FCS is good, bytes. -/
structure EthFrame where
  port : Fin 2
  time : Word
  fcsGood : Bool
  bytes : List Byte
  deriving DecidableEq, Repr

/-- The outcome of the three checks of one flash slot (R453), and the image's bytes. -/
structure SlotCheck where
  rsa : Bool
  slh : Bool
  svn : Bool
  image : List Byte
  deriving DecidableEq, Repr

/-- What a reset finds: both flash slots, the loader microcode and its check, and whether a thermal trip came before (R453,
R454, R457). -/
structure BootInputs where
  slotA : SlotCheck
  slotB : SlotCheck
  loaderOk : Bool
  loader : List Byte
  tripped : Bool
  deriving DecidableEq, Repr

/-- The registers whose write only stores their writable fields (R5); those whose write does more have rows of their own. -/
inductive PlainReg where
  | rgctl (r : RegionId)
  | rgstat (r : RegionId)
  | rgpgr (r : RegionId)
  | rgmlen (r : RegionId)
  | rgmbud (r : RegionId)
  | rgexq (r : RegionId)
  | rgctx (r : RegionId)
  | tidestat (r : RegionId)
  | prectl (r : RegionId)
  | rgnstat (r : RegionId)
  | lqstat (r : RegionId)
  | rghur (r : RegionId)
  | rghup (r : RegionId)
  | bucket (r : RegionId) (p : Fin 64)
  | seedd (r : RegionId) (p : Fin 64)
  | seedst (r : RegionId) (p : Fin 64)
  | swaptm (r : RegionId) (k : Fin 64)
  | swapfc (r : RegionId) (k : Fin 64)
  | slottb (r : RegionId) (j : Fin 64)
  | dwpctl (r : RegionId) (k : Fin 8)
  | dwpval (r : RegionId) (k : Fin 8)
  | dtbsel (r : RegionId) (j : Fin 4)
  | dtbord (r : RegionId) (j : Fin 4)
  | dtbcnt (r : RegionId) (j : Fin 4)
  | dtrig (r : RegionId)
  | dtwin (r : RegionId)
  | dcut (r : RegionId)
  | dbgadr (r : RegionId)
  | dbgdat (r : RegionId)
  | rgphs (r : RegionId)
  | rgphc (r : RegionId) (f : Facet) (q : Fin 4)
  | freest (d : DieId)
  | trcmd (d : DieId)
  | mccan (d : DieId)
  | mcpq (d : DieId)
  | dpwr (d : DieId)
  | dienstat (d : DieId)
  | hmon (d : DieId)
  | regcfg (d : DieId) (c : Fin 16)
  | strmap
  | bootstat
  | dtctl
  | dtstep
  | mbcmd
  | mbstat
  | mbdata (k : Fin 64)
  | haper (io : Fin 2)
  | lctl (io : Fin 2)
  | hlerr (io : Fin 2)
  | hdenyb (io : Fin 2)
  | syswin (io : Fin 2) (w : Fin 16) (word : Fin 2)
  | hring (io : Fin 2) (q : Fin 2) (word : Fin 2)
  | flow (io : Fin 2) (e : Fin 256)
  | template (io : Fin 2) (j : Fin 64) (word : Fin 4)
  | ttmap (io : Fin 2) (q : Fin 2048) (word : Fin 2)
  | ttself (io : Fin 2)
  | hstat (t : Tile) (f : Facet)
  | fenable (t : Tile)
  deriving DecidableEq, Repr

/-- One constructor for each row of the table of operations and events: the 160 opcodes with the fields of their format, and the
steps of the other agents with what they name. -/
inductive Instr where
  /-- ADD (R105). Adds a and b modulo 2^w and writes the result to d. -/
  | add (w : RForm)
  /-- ADDI (R106). Adds a and the sign-extended imm34 modulo 2^64. -/
  | addi (w : IForm)
  /-- SUB (R105). Subtracts b from a modulo 2^w. -/
  | sub (w : RForm)
  /-- MUL (R105). Multiplies a and b modulo 2^w. -/
  | mul (w : RForm)
  /-- MULI (R106). Multiplies a by the immediate modulo 2^64. -/
  | muli (w : IForm)
  /-- MULH (R105). Returns the high half of the exact signed product. -/
  | mulh (w : RForm)
  /-- MULHU (R105). Returns the high half of the exact unsigned product. -/
  | mulhu (w : RForm)
  /-- DIV (R100). Signed division truncating towards zero, holding issue for 18 or 34 cycles. -/
  | div (w : RForm)
  /-- DIVU (R100). Unsigned division. -/
  | divu (w : RForm)
  /-- REM (R100). Signed remainder with the sign of the dividend. -/
  | rem (w : RForm)
  /-- REMU (R100). Unsigned remainder. -/
  | remu (w : RForm)
  /-- AND (R105). Bitwise AND of a and b. -/
  | and (w : RForm)
  /-- ANDI (R106). Bitwise AND of a with the immediate. -/
  | andi (w : IForm)
  /-- OR (R105). Bitwise OR of a and b; NOP is its alias. -/
  | or (w : RForm)
  /-- ORI (R106). Bitwise OR of a with the immediate. -/
  | ori (w : IForm)
  /-- XOR (R105). Bitwise XOR of a and b. -/
  | xor (w : RForm)
  /-- XORI (R106). Bitwise XOR of a with the immediate. -/
  | xori (w : IForm)
  /-- ANDN (R105). Computes a AND NOT b. -/
  | andn (w : RForm)
  /-- SHL (R99). Shifts a left by b, giving 0 for amounts of w or more. -/
  | shl (w : RForm)
  /-- SHLI (R106). Shifts a left by an immediate of 0 to 63. -/
  | shli (w : IForm)
  /-- SHR (R99). Logical right shift of a by b. -/
  | shr (w : RForm)
  /-- SHRI (R106). Logical right shift of a by an immediate. -/
  | shri (w : IForm)
  /-- SRA (R99). Arithmetic right shift of a by b. -/
  | sra (w : RForm)
  /-- SRAI (R106). Arithmetic right shift of a by an immediate. -/
  | srai (w : IForm)
  /-- ROTL (R99). Rotates a left by b mod w. -/
  | rotl (w : RForm)
  /-- CLZ (R105). Counts the leading zero bits of a. -/
  | clz (w : RForm)
  /-- CTZ (R105). Counts the trailing zero bits of a. -/
  | ctz (w : RForm)
  /-- POPC (R105). Counts the one bits of a. -/
  | popc (w : RForm)
  /-- BSWAP (R105). Reverses the bytes of a. -/
  | bswap (w : RForm)
  /-- BEXT (R101). Extracts a bit field of a, zero-extended. -/
  | bext (w : RForm)
  /-- BINS (R101). Inserts the low bits of b into a bit field of a. -/
  | bins (w : RForm)
  /-- MIN (R105). Signed minimum of a and b. -/
  | min (w : RForm)
  /-- MAX (R105). Signed maximum of a and b. -/
  | max (w : RForm)
  /-- MINU (R105). Unsigned minimum of a and b. -/
  | minu (w : RForm)
  /-- MAXU (R105). Unsigned maximum of a and b. -/
  | maxu (w : RForm)
  /-- CMP (R102). Compares a and b under a condition and delivers the truth value to a g register, a p register or a port. -/
  | cmp (w : RForm)
  /-- CMPI (R106). Compares a with a 30-bit signed immediate and delivers the truth value by R102. -/
  | cmpi (w : IForm)
  /-- SEL (R103). Selects a or b by the condition c, consuming every port operand. -/
  | sel (w : RForm)
  /-- LIMM (R106). Loads the sign-extended imm34 into d. -/
  | limm (w : IForm)
  /-- LEA (R107). Computes a + b x S + disp without accessing memory. -/
  | lea (w : MForm)
  /-- CHASH (R104). Computes the four-round counter hash of a under the key b. -/
  | chash (w : RForm)
  /-- FADD (R109). Floating-point add, rounded once. -/
  | fadd (w : RForm)
  /-- FSUB (R109). Floating-point subtract, rounded once. -/
  | fsub (w : RForm)
  /-- FMUL (R109). Floating-point multiply, rounded once. -/
  | fmul (w : RForm)
  /-- FFMA (R109). Fused multiply-add with one rounding. -/
  | ffma (w : RForm)
  /-- FDIV (R109). Floating-point divide, holding issue for 8 or 13 cycles. -/
  | fdiv (w : RForm)
  /-- FSQRT (R109). Floating-point square root. -/
  | fsqrt (w : RForm)
  /-- FMIN (R109). Floating-point minimum by R83. -/
  | fmin (w : RForm)
  /-- FMAX (R109). Floating-point maximum by R83. -/
  | fmax (w : RForm)
  /-- FCMP (R110). Floating-point comparison delivering a truth value. -/
  | fcmp (w : RForm)
  /-- FCVT (R111). Converts a scalar between formats, plain or saturating. -/
  | fcvt (w : RForm)
  /-- FRSQE (R112). Table estimate of 1/sqrt(x) for FP32. -/
  | frsqe (w : RForm)
  /-- FRCPE (R112). Table estimate of 1/x for FP32. -/
  | frcpe (w : RForm)
  /-- VADD (R129). Element-wise floating-point add. -/
  | vadd (w : RForm)
  /-- VSUB (R129). Element-wise floating-point subtract. -/
  | vsub (w : RForm)
  /-- VMUL (R129). Element-wise floating-point multiply. -/
  | vmul (w : RForm)
  /-- VFMA (R129). Element-wise fused multiply-add. -/
  | vfma (w : RForm)
  /-- VMIN (R129). Element-wise floating-point minimum. -/
  | vmin (w : RForm)
  /-- VMAX (R129). Element-wise floating-point maximum. -/
  | vmax (w : RForm)
  /-- VABSMAX (R129). Element-wise maximum of magnitudes. -/
  | vabsmax (w : RForm)
  /-- VRED (R130). Reduces 16 lanes by a fixed tree to one scalar. -/
  | vred (w : RForm)
  /-- VSCAN (R131). Inclusive prefix over lanes from lane 0 upwards. -/
  | vscan (w : RForm)
  /-- VDOT (R132). Tree dot product of two vectors plus a scalar addend. -/
  | vdot (w : RForm)
  /-- VIADD (R133). Element-wise integer add, optionally saturating. -/
  | viadd (w : RForm)
  /-- VISUB (R133). Element-wise integer subtract. -/
  | visub (w : RForm)
  /-- VIMUL (R133). Element-wise integer multiply. -/
  | vimul (w : RForm)
  /-- VAND (R133). Vector bitwise AND. -/
  | vand (w : RForm)
  /-- VOR (R133). Vector bitwise OR. -/
  | vor (w : RForm)
  /-- VXOR (R133). Vector bitwise XOR. -/
  | vxor (w : RForm)
  /-- VSHL (R133). Element-wise left shift. -/
  | vshl (w : RForm)
  /-- VSHR (R133). Element-wise logical right shift. -/
  | vshr (w : RForm)
  /-- VSRA (R133). Element-wise arithmetic right shift. -/
  | vsra (w : RForm)
  /-- VPOPC (R133). Element-wise population count. -/
  | vpopc (w : RForm)
  /-- VCMP (R134). Element-wise floating-point compare into a vector or a lane mask. -/
  | vcmp (w : RForm)
  /-- VICMP (R134). Element-wise integer compare into a vector or a lane mask. -/
  | vicmp (w : RForm)
  /-- VSEL (R135). Selects lanes of a or b by a predicate mask. -/
  | vsel (w : RForm)
  /-- VSPLAT (R136). Copies a scalar into every element. -/
  | vsplat (w : RForm)
  /-- VPERM (R136). Permutes lanes of a by the indices in b. -/
  | vperm (w : RForm)
  /-- VEXTR (R136). Extracts one element of a to a scalar. -/
  | vextr (w : RForm)
  /-- VINS (R136). Inserts a scalar into one element. -/
  | vins (w : RForm)
  /-- VCVT (R137). Non-saturating element conversion of one part. -/
  | vcvt (w : RForm)
  /-- VCVTS (R137). Saturating element conversion of one part. -/
  | vcvts (w : RForm)
  /-- VPACK (R139). Narrows int32 lanes of a and b into 8- or 16-bit elements. -/
  | vpack (w : RForm)
  /-- VUNPK (R139). Widens one part of narrow elements to int32 lanes. -/
  | vunpk (w : RForm)
  /-- VRSQE (R140). Applies FRSQE to each FP32 lane. -/
  | vrsqe (w : RForm)
  /-- VRCPE (R140). Applies FRCPE to each FP32 lane. -/
  | vrcpe (w : RForm)
  /-- VCMUL (R141). Complex int16 Q15 multiply per lane. -/
  | vcmul (w : RForm)
  /-- VCMAC (R141). Complex int16 Q15 multiply-accumulate per lane. -/
  | vcmac (w : RForm)
  /-- VCONJ (R141). Complex conjugate per lane. -/
  | vconj (w : RForm)
  /-- VBFLY (R141). Radix-2 butterfly with a Q15 twiddle per lane. -/
  | vbfly (w : RForm)
  /-- LD (R143). Loads 1 to 8 bytes of local memory. -/
  | ld (w : MForm)
  /-- ST (R143). Buffers a local store of 1 to 8 bytes. -/
  | st (w : MForm)
  /-- LDV (R143). Loads 64 bytes of local memory into a vector. -/
  | ldv (w : MForm)
  /-- STV (R143). Buffers a masked 64-byte local store. -/
  | stv (w : MForm)
  /-- LDW (R143). Loads a local word that must be full, aborting and mooring otherwise. -/
  | ldw (w : MForm)
  /-- LDC (R143). Loads a full local word and buffers setting it empty. -/
  | ldc (w : MForm)
  /-- STF (R143). Buffers a store to an empty local word that sets it full. -/
  | stf (w : MForm)
  /-- STX (R143). Buffers an unconditional store that sets the tag full. -/
  | stx (w : MForm)
  /-- TAGE (R143). Buffers setting a local tag empty. -/
  | tage (w : MForm)
  /-- TAGQ (R143). Reads a local tag as a truth value. -/
  | tagq (w : MForm)
  /-- SEND (R147). Buffers a data token on an output port. -/
  | send (w : RForm)
  /-- SENDN (R147). Buffers a null token on an output port. -/
  | sendn (w : RForm)
  /-- SENDE (R147). Buffers an end-of-run token. -/
  | sende (w : RForm)
  /-- SENDH (R147). Buffers a burst head token, optionally also tail. -/
  | sendh (w : RForm)
  /-- SENDT (R147). Buffers a burst tail token. -/
  | sendt (w : RForm)
  /-- RECV (R149). Consumes a token and writes its payload. -/
  | recv (w : RForm)
  /-- PEEK (R149). Reads the next token's payload without consuming it. -/
  | peek (w : RForm)
  /-- TAGR (R149). Reads the next token's tag. -/
  | tagr (w : RForm)
  /-- DROP (R149). Consumes a token without reading it. -/
  | drop (w : RForm)
  /-- FWD (R149). Forwards a token with its tag unchanged. -/
  | fwd (w : RForm)
  /-- BR (R115). Unconditional branch. -/
  | br (w : BForm)
  /-- BRC (R115). Conditional branch on values, predicates or token kinds. -/
  | brc (w : BForm)
  /-- CALL (R116). Writes the link index and branches. -/
  | call (w : BForm)
  /-- RET (R116). Branches to the index held in a. -/
  | ret (w : RForm)
  /-- LOOP (R117). Decrements a counter and branches while it exceeds 1. -/
  | loop (w : BForm)
  /-- END (R118). Ends the activation and commits it. -/
  | endAct (w : RForm)
  /-- YIELD (R118). Aborts without touching the retry count. -/
  | yield (w : RForm)
  /-- ABORT (R118). Aborts and counts against the retry budget. -/
  | abort (w : RForm)
  /-- HALT (R118). Commits and halts the facet. -/
  | halt (w : RForm)
  /-- TRAP (R119). Raises program trap imm. -/
  | trap (w : IForm)
  /-- ARM (R120). Sets a handler's arm bit at commit. -/
  | arm (w : RForm)
  /-- MASK (R121). Updates MASKS under a mask and returns the old value. -/
  | mask (w : RForm)
  /-- MFS (R122). Reads a special register. -/
  | mfs (w : RForm)
  /-- MTS (R122). Writes a special register or traps on a privileged one. -/
  | mts (w : RForm)
  /-- FENCE (R244). Orders device accesses at a scope, waiting at issue and holding later requests at END. -/
  | fence (w : MForm)
  /-- ORDER (R124). Sends an arc token that leaves only after earlier accesses are performed at the scope. -/
  | order (w : MForm)
  /-- MLD (R232). Plain device load, holding issue until the reply. -/
  | mld (w : MForm)
  /-- MST (R232). Buffers a plain device store. -/
  | mst (w : MForm)
  /-- MLDW (R229). Waiting device load that needs the word full. -/
  | mldw (w : MForm)
  /-- MLDC (R230). Consuming device load that takes a hold. -/
  | mldc (w : MForm)
  /-- MSTF (R232). Buffers a filling device store. -/
  | mstf (w : MForm)
  /-- MSTX (R232). Buffers an unconditional filling device store. -/
  | mstx (w : MForm)
  /-- MTAGE (R232). Buffers a device tag-empty. -/
  | mtage (w : MForm)
  /-- MTAGQ (R232). Queries a device word's tag. -/
  | mtagq (w : MForm)
  /-- MATOM (R233). Atomic read-modify-write of device memory under a hold. -/
  | matom (w : RForm)
  /-- MCAS (R233). Atomic compare-and-swap of device memory under a hold. -/
  | mcas (w : RForm)
  /-- TLD (R232). Loads from the paired MT area over the pair path. -/
  | tld (w : MForm)
  /-- TST (R232). Buffers a store to the paired MT area. -/
  | tst (w : MForm)
  /-- SCOPY (R283). Sends a bulk-copy command token. -/
  | scopy (w : EForm)
  /-- SGATH (R283). Sends an indexed-gather command token. -/
  | sgath (w : EForm)
  /-- SSCAT (R283). Sends an indexed-scatter command token. -/
  | sscat (w : EForm)
  /-- SRED (R283). Sends an indexed-reduction command token. -/
  | sred (w : EForm)
  /-- SCOMP (R283). Sends a compression command token. -/
  | scomp (w : EForm)
  /-- SEXP (R283). Sends an expansion command token. -/
  | sexp (w : EForm)
  /-- AGSTART (R283). Sends a generator start command token. -/
  | agstart (w : EForm)
  /-- AGSTOP (R283). Sends a generator stop command token. -/
  | agstop (w : EForm)
  /-- AGQRY (R283). Sends a generator query command token. -/
  | agqry (w : EForm)
  /-- DARM (R283). Sends a dependence-node arm command token. -/
  | darm (w : EForm)
  /-- DPOST (R283). Sends a dependence-node post command token. -/
  | dpost (w : EForm)
  /-- WCVT (R283). Sends an accumulator conversion command token. -/
  | wcvt (w : EForm)
  /-- MMA (R330). Sends a matrix multiply-accumulate command token. -/
  | mma (w : EForm)
  /-- MLDB (R330). Sends a stationary-buffer load command token. -/
  | mldb (w : EForm)
  /-- MSCALE (R330). Sends a scale-register write command token. -/
  | mscale (w : EForm)
  /-- MACLR (R330). Sends an accumulator-clear command token. -/
  | maclr (w : EForm)
  /-- MSTO (R330). Sends an accumulator-store command token. -/
  | msto (w : EForm)
  /-- MRDA (R330). Sends an accumulator-read command token. -/
  | mrda (w : EForm)
  /-- MSWAP (R330). Sends a map-toggle command token. -/
  | mswap (w : EForm)
  /-- MQRY (R330). Sends a matrix query command token. -/
  | mqry (w : EForm)
  /-- MSLOT (R330). Sends a slot-wait command token. -/
  | mslot (w : EForm)
  /-- MFENCE (R330). Sends a matrix fence command token. -/
  | mfence (w : EForm)
  /-- ILLEGAL_OPCODE (R60). An instruction word whose opcode is unassigned issues and raises the illegal-opcode trap. -/
  | illegalOpcode (w : Word)
  /-- HANDLER_DISPATCH (R24). An idle element selects a runnable handler by priority, aging and rotation and issues its first instruction. -/
  | handlerDispatch (t : Tile)
  /-- STALL_ABORT (R33). An instruction stalled on a port for 64 cycles aborts its activation when another handler is runnable or a mark waits. -/
  | stallAbort (t : Tile)
  /-- MARK_REMOVAL (R17). With no activation in progress, the port logic removes a mark at a queue head and acts on it. -/
  | markRemoval (t : Tile) (port : Fin 16) (f : Facet)
  /-- WINDOW_WRITE_APPLY (R40). A supervisor write of a window register applies once no activation of that facet is in progress. -/
  | windowWriteApply (t : Tile) (f : Facet) (reg : WinReg) (v : Word)
  /-- BOUNDARY_ARRIVAL (R157). A token accepted by a die-boundary hop is offered at the far switchbox L cycles later. -/
  | boundaryArrival (t : Tile) (entry : Fin 32)
  /-- CREDIT_RETURN (R157). A boundary credit returns L cycles after its token leaves the receiving side. -/
  | creditReturn (t : Tile) (entry : Fin 32)
  /-- BUS_DELIVERY (R159). A broadcast bus token is delivered to every matching port once all accept it. -/
  | busDelivery (d : DieId) (bus : BusId)
  /-- INGRESS_ACCEPT (R169). An ingress site with bucket credit accepts a track token, seed or upcall and stamps its facet. -/
  | ingressAccept (r : RegionId) (p : Fin 64)
  /-- FQUIET_SET (R163). A facet quiet for 32 consecutive cycles sets its FQUIET bit. -/
  | fquietSet (r : RegionId) (f : Facet)
  /-- SWAP_DUE (R172). The head swap entry falls due and is consumed, changing IFAC if its facet is loaded. -/
  | swapDue (r : RegionId)
  /-- SLOT_BOUNDARY (R173). Device time enters a new 1 us slot and the slot table grant changes. -/
  | slotBoundary (r : RegionId)
  /-- RESIZE_COMPLETE (R180). After the old facet becomes quiet, RGNEW is copied into RGGEOM and given-up tiles are freed. -/
  | resizeComplete (r : RegionId)
  /-- ENTRY_SELECT (R192). A region with no load selects its first eligible queue entry by priority and age. -/
  | entrySelect (r : RegionId)
  /-- LOAD_START (R194). The die loader takes a selected region by round-robin and clears facet t in its tiles. -/
  | loadStart (r : RegionId) (d : DieId)
  /-- LOAD_FRAME (R194). The loader takes one frame, checks it and writes it into facet t. -/
  | loadFrame (r : RegionId) (d : DieId)
  /-- WAVE_ARRIVAL (R196). The configuration-complete wave reaches a region column and enables facet t there. -/
  | waveArrival (r : RegionId) (col : Nat)
  /-- LOAD_PASS (R196). At cycle f FLOADED is set, LBUSY cleared and the ACT action applied. -/
  | loadPass (r : RegionId)
  /-- COMPLETION_WORD_STORE (R197). The loader stores the completion word, raising a notice if refused. -/
  | completionWordStore (r : RegionId)
  /-- FREEW_APPLY (R199). At its next idle cycle the loader writes or refuses the free-tile frame. -/
  | freewApply (d : DieId)
  /-- REQUEST_LEAVE (R241). A device request leaves the head of the facet's outbound queue when nothing holds it back. -/
  | requestLeave (t : Tile) (f : Facet)
  /-- BREAKWATER_ACCEPT (R378). A breakwater accepts a store, shadow, replay or quarantine entry if it has room. -/
  | breakwaterAccept (id : Nat)
  /-- LOCKSTEP_TIMEOUT (R388). A mirror item absent 64 cycles after the primary's raises lockstep-mismatch. -/
  | lockstepTimeout (r : RegionId)
  /-- HOME_ACCESS (R219). A request is performed or deferred at the word's home bank in the word's total order. -/
  | homeAccess (id : Nat)
  /-- REEXAMINATION (R220). After a tag change the bank re-examines deferred requests of the word in order. -/
  | reexamination (id : Nat)
  /-- MOORING_FORMAT_DONE (R221). Formatting ends and RDY is set. -/
  | mooringFormatDone (r : RegionId)
  /-- BUDGET_EXPIRY (R223). A deferred request whose budget runs out returns with device-retry-exhausted. -/
  | budgetExpiry (id : Nat)
  /-- REQUEST_REPLY (R228). A reply reaches the element, ending the load's held issue slot. -/
  | requestReply (id : Nat)
  /-- WATCH_WAKE (R229). A wake from the home clears the local mooring entry of the waiting handler. -/
  | watchWake (id : Nat)
  /-- ASYNC_TRAP (R228). A request returned with a cause after commit traps the facet asynchronously. -/
  | asyncTrap (id : Nat)
  /-- FIFO_PUSH (R210). A token on mi5 is written at WP of an empty FIFO word. -/
  | fifoPush (t : Tile) (f : Facet)
  /-- FIFO_POP (R210). A full word at RP is read, emptied and sent on mo5. -/
  | fifoPop (t : Tile) (f : Facet)
  /-- LINE_INPUT (R210). A token on mi5 is written at WP of a line buffer. -/
  | lineInput (t : Tile) (f : Facet)
  /-- REGULATOR_GRANT (R441). A class-c request waiting at its controller is charged and released. -/
  | regulatorGrant (d : DieId) (cls : Fin 16)
  /-- TABLE_WALK_COMPLETE (R262). A walk ends with a leaf, a refusal or a fault. -/
  | tableWalkComplete (id : Nat)
  /-- MIGRATION_TIMEOUT (R269). A walk held on MLOCK for 1,024 us raises migration-timeout and acts as a major fault. -/
  | migrationTimeout (id : Nat)
  /-- TRCMD_COMPLETE (R273). The translation command finishes on every die and BUSY clears. -/
  | trcmdComplete (d : DieId)
  /-- COMMAND_START (R287). A buffered command starts once its generators are free and checks them. -/
  | commandStart (t : Tile) (f : Facet) (k : Nat)
  /-- READ_WALK_ELEMENT (R294). A read walk emits its next element as tokens on mo(AG) or a bus. -/
  | readWalkElement (t : Tile) (f : Facet) (k : Nat)
  /-- WRITE_WALK_ELEMENT (R296). A write walk consumes one element of tokens and issues its writes. -/
  | writeWalkElement (t : Tile) (f : Facet) (k : Nat)
  /-- SPARSE_SLOT_ISSUE (R316). The sparse-update unit issues pending slots to banks or HBM. -/
  | sparseSlotIssue (t : Tile)
  /-- PERMIT_ARRIVAL (R301). A permit reaches a child generator, which runs or keeps it. -/
  | permitArrival (t : Tile) (f : Facet) (ag : Fin 4)
  /-- DONE_ARRIVAL (R301). A child's done reaches its parent, which may begin the next iteration. -/
  | doneArrival (t : Tile) (f : Facet) (ag : Fin 4)
  /-- COMMAND_COMPLETION (R289). A command's completion token leaves mo4 once its accesses are performed at its scope. -/
  | commandCompletion (t : Tile)
  /-- NODE_LAUNCH (R326). An armed node with count 0 launches its parked command or a compute token. -/
  | nodeLaunch (t : Tile) (node : Fin 32)
  /-- MATRIX_COMMAND_START (R333). A buffered matrix command starts once earlier commands sharing its resources have completed. -/
  | matrixCommandStart (t : Tile) (f : Facet) (k : Nat)
  /-- ROW_STAGE (R334). An A row is read from the area into staging. -/
  | rowStage (t : Tile) (f : Facet)
  /-- OPERAND_BURST_TAKE (R335). An A or B operand burst is taken from mi7 or mi8, ending the command on malformation. -/
  | operandBurstTake (t : Tile) (f : Facet) (isB : Bool)
  /-- ROW_FIRE (R337). A present, admitted A row fires through the array. -/
  | rowFire (t : Tile)
  /-- ROW_EFFECT (R338). A fired row's results enter the accumulator bank by cycle c + 11. -/
  | rowEffect (t : Tile)
  /-- RESULT_BURST (R338). A row's 32 results leave on mo7 as one burst. -/
  | resultBurst (t : Tile)
  /-- MATRIX_COMPLETION (R330). A matrix command's completion token leaves mo6 once its accesses are performed. -/
  | matrixCompletion (t : Tile)
  /-- ROLLBACK_RESTORE (R383). By t + 2,048 the region discards, undoes and restores snapshot CTIDE. -/
  | rollbackRestore (r : RegionId)
  /-- REPLAY_START (R383). Ingress sites replay their entries from mark CTIDE. -/
  | replayStart (r : RegionId)
  /-- TIDE_INJECT (R369). A due tide injects a mark at every site of each live facet. -/
  | tideInject (r : RegionId)
  /-- TIDE_TAKE (R371). A node with tide marks at every forward port takes a snapshot and passes the marks. -/
  | tideTake (t : Tile) (f : Facet)
  /-- DRAIN_TAKE (R390). A node takes a drain mark and stops dispatching the facet. -/
  | drainTake (t : Tile) (f : Facet)
  /-- REACH_CLOSE (R374). A reach closes once snapshots, marks and requests are complete. -/
  | reachClose (r : RegionId)
  /-- REACH_COMMIT (R374). 900 cycles after closing the reach commits and releases its breakwater and quarantine entries. -/
  | reachCommit (r : RegionId)
  /-- TIMED_COMMIT (R386). With TEN = 0 each breakwater entry commits 900 cycles after acceptance. -/
  | timedCommit (r : RegionId)
  /-- AUTO_SAVE_START (R389). A higher-priority entry blocked by a busy facet starts a save by itself. -/
  | autoSaveStart (r : RegionId)
  /-- SAVE_STOP (R390). Sites stop the facet and root generators finish their iteration. -/
  | saveStop (r : RegionId)
  /-- DRAIN_INJECT (R390). A drain mark is injected at every site of the facet. -/
  | drainInject (r : RegionId)
  /-- SAVE_IMAGE_WRITE (R390). The save overlay writes records and tokens to the context image. -/
  | saveImageWrite (r : RegionId)
  /-- SAVE_COMMIT (R390). When the forced tide commits the facet is reset and DONE set. -/
  | saveCommit (r : RegionId)
  /-- FREEZE_STOP (R396). 16 cycles after a freeze trigger the region's clocks are gated. -/
  | freezeStop (r : RegionId)
  /-- POWER_MESSAGE_RECEIPT (R426). A die receives granted units and adds them to HOLD. -/
  | powerMessageReceipt (k : Nat)
  /-- POWER_RESEND (R426). An unacknowledged power message is resent after 1 us. -/
  | powerResend (k : Nat)
  /-- TT_SEND (R439). Committed egress tokens are packed into transport data frames. -/
  | ttSend (io : Fin 2) (q : Fin 2048)
  /-- TT_RETRANSMIT (R439). 50 us after the oldest unacknowledged frame the sender goes back N. -/
  | ttRetransmit (io : Fin 2) (q : Fin 2048)
  /-- FRONTHAUL_EGRESS (R438). A committed fronthaul burst leaves with its template and eCPRI header. -/
  | fronthaulEgress (io : Fin 2) (r : RegionId) (p : Fin 64)
  /-- TX_COMPLETE (R436). A transmitted frame completes and TXCONS advances. -/
  | txComplete (io : Fin 2) (q : Fin 2)
  /-- TRIGGER_EVAL (R447). The debug trigger evaluates matches reaching it and may act. -/
  | triggerEval (r : RegionId)
  /-- CUT_HELD (R448). The cut's marks have reached every egress and node, and the facet is held. -/
  | cutHeld (r : RegionId)
  /-- MCCAN_COMPLETE (R224). A cancel ends when no deferred request of the page remains, and MCCAN.BUSY clears. -/
  | mccanComplete (d : DieId)
  /-- PIN_QUERY_COMPLETE (R274). A pin query ends, sets PINNED from its sample and clears MCPQ.BUSY. -/
  | pinQueryComplete (d : DieId)
  /-- DEBUG_ACCESS_COMPLETE (R451). A DBGADR access ends, delivering or writing DBGDAT, and BUSY clears. -/
  | debugAccessComplete (r : RegionId)
  /-- DELAY_LINE_ARRIVAL (R387). A token accepted at a site of a lockstep facet enters the mirror's first route entry exactly 4 cycles later, by the delay line. -/
  | delayLineArrival (r : RegionId) (p : Fin 64)
  /-- MALFORMED_COMMAND_TOKEN (R286). A poisoned or malformed command token completes at once with status 1. -/
  | malformedCommandToken (t : Tile) (f : Facet)
  /-- NULL_COMMAND_TOKEN (R286). A null on mi4 is consumed and a null is sent on mo4. -/
  | nullCommandToken (t : Tile) (f : Facet)
  /-- SCOPY_COMMAND (R306). The MT takes a copy command into its buffer or parks it. -/
  | scopyCommand (t : Tile) (f : Facet)
  /-- SGATH_COMMAND (R312). The MT takes an indexed gather command. -/
  | sgathCommand (t : Tile) (f : Facet)
  /-- SSCAT_COMMAND (R313). The MT takes an indexed scatter command. -/
  | sscatCommand (t : Tile) (f : Facet)
  /-- SRED_COMMAND (R314). The MT takes an indexed reduction command. -/
  | sredCommand (t : Tile) (f : Facet)
  /-- SCOMP_COMMAND (R318). The MT takes a compression command. -/
  | scompCommand (t : Tile) (f : Facet)
  /-- SEXP_COMMAND (R319). The MT takes an expansion command. -/
  | sexpCommand (t : Tile) (f : Facet)
  /-- AGSTART_COMMAND (R302). The MT takes a generator start command. -/
  | agstartCommand (t : Tile) (f : Facet)
  /-- AGSTOP_COMMAND (R303). Stops a root generator at an iteration or element boundary. -/
  | agstopCommand (t : Tile) (f : Facet)
  /-- AGQRY_COMMAND (R304). Returns a generator's run state in a completion token. -/
  | agqryCommand (t : Tile) (f : Facet)
  /-- DARM_COMMAND (R324). Arms a dependence node with an expected count. -/
  | darmCommand (t : Tile) (f : Facet)
  /-- DPOST_COMMAND (R325). Lowers a dependence node's count. -/
  | dpostCommand (t : Tile) (f : Facet)
  /-- WCVT_COMMAND (R321). Converts an accumulator to FP32, optionally clearing it. -/
  | wcvtCommand (t : Tile) (f : Facet)
  /-- MALFORMED_MATRIX_TOKEN (R330). A poisoned or malformed matrix token completes at once with status 1. -/
  | malformedMatrixToken (t : Tile) (f : Facet)
  /-- NULL_MATRIX_TOKEN (R330). A null on mi6 is consumed and a null is sent on mo6. -/
  | nullMatrixToken (t : Tile) (f : Facet)
  /-- MMA_COMMAND (R333). Takes an MMA, resolving maps and capturing sigma. -/
  | mmaCommand (t : Tile) (f : Facet)
  /-- MLDB_COMMAND (R336). Takes a stationary-buffer load. -/
  | mldbCommand (t : Tile) (f : Facet)
  /-- MSCALE_COMMAND (R345). Writes a scale register. -/
  | mscaleCommand (t : Tile) (f : Facet)
  /-- MACLR_COMMAND (R345). Clears accumulator rows. -/
  | maclrCommand (t : Tile) (f : Facet)
  /-- MSTO_COMMAND (R340). Takes a store of accumulator rows to the MT area. -/
  | mstoCommand (t : Tile) (f : Facet)
  /-- MRDA_COMMAND (R343). Takes a read of accumulator rows onto mo7. -/
  | mrdaCommand (t : Tile) (f : Facet)
  /-- MSWAP_COMMAND (R345). Toggles AMAP and BMAP at take. -/
  | mswapCommand (t : Tile) (f : Facet)
  /-- MQRY_COMMAND (R345). Returns matrix state, a scale or the slot. -/
  | mqryCommand (t : Tile) (f : Facet)
  /-- MSLOT_COMMAND (R345). Takes a wait for an admitting slot. -/
  | mslotCommand (t : Tile) (f : Facet)
  /-- MFENCE_COMMAND (R345). Takes a fence on earlier matrix commands. -/
  | mfenceCommand (t : Tile) (f : Facet)
  /-- TRAPPED_CLEAR (R39). A supervisor write of 1 to HSTAT.TRAPPED clears it and HCAUSE.VALID and resets the retry count. -/
  | trappedClear (t : Tile) (f : Facet)
  /-- HALTED_CLEAR (R13). A supervisor write of 1 to HSTAT.HALTED lets the facet dispatch again. -/
  | haltedClear (t : Tile) (f : Facet)
  /-- FENABLE_CLEAR (R40). Clearing a FENABLE bit stops dispatch of that facet from the next cycle. -/
  | fenableClear (t : Tile) (f : Facet)
  /-- ROUTE_ADVANCE (R156). Each cycle the switchboxes settle acceptance from input ports backwards and move tokens along hops. -/
  | routeAdvance
  /-- RGGEOM_WRITE (R165). A geometry write is checked and either takes effect or sets GEOERR. -/
  | rggeomWrite (r : RegionId) (v : Word)
  /-- RGNEW_WRITE (R179). A write of the target rectangle starts a resize, or is refused with GEOERR. -/
  | rgnewWrite (r : RegionId) (v : Word)
  /-- PORT_REGISTER_WRITE (R167). An ingress or egress port write is checked and refused whole with GEOERR on an invalid site. -/
  | portRegisterWrite (r : RegionId) (dir : PortDir) (p : Fin 64) (v : Word)
  /-- RATE_UPDATE (R427). The die power controller sets RATE of ingress ports within CAP. -/
  | rateUpdate (r : RegionId) (p : Fin 64) (rate : BitVec 11)
  /-- LQDOOR_PUSH (R190). A 64-byte doorbell write adds a launch entry or sets BADW or QFULL. -/
  | lqdoorPush (r : RegionId) (w : DoorWrite) (data : BitVec 512)
  /-- LQCTL_CANCEL (R191). Cancels a waiting entry or a load in progress up to cycle e with code 14. -/
  | lqctlCancel (r : RegionId) (v : Word)
  /-- SEEDT_PUSH (R198). A write of SEEDT pushes one seed, or sets OVF or KERR. -/
  | seedtPush (r : RegionId) (p : Fin 64) (v : Word)
  /-- SEED_FLUSH (R198). A write of SEEDST.FLUSH discards every waiting seed. -/
  | seedFlush (r : RegionId) (p : Fin 64)
  /-- FREEW_WRITE (R199). The supervisor submits a free-tile switch frame. -/
  | freewWrite (d : DieId) (frame : BitVec 256)
  /-- RGMOOR_WRITE (R221). A write of VALID = 1 starts formatting the mooring list, ignored while in use. -/
  | rgmoorWrite (r : RegionId) (v : Word)
  /-- MCCAN_CANCEL (R224). Cancels every deferred request of a page with request-cancelled. -/
  | mccanCancel (d : DieId) (v : Word)
  /-- RGTRR_WRITE (R257). Sets the region's table root and ASID, ignored unless every facet is quiet. -/
  | rgtrrWrite (r : RegionId) (v : Word)
  /-- REARM (R271). A write to RGREARM lowers PENDCNT and resumes the region at zero. -/
  | rearm (r : RegionId)
  /-- TRCMD_INVALIDATE_RANGE (R273). Invalidates TLB entries and extents of an ASID over a range. -/
  | trcmdInvalidateRange (d : DieId) (v : Word)
  /-- TRCMD_INVALIDATE_ASID (R273). Invalidates every TLB entry of an ASID. -/
  | trcmdInvalidateAsid (d : DieId) (v : Word)
  /-- TRCMD_WAKE (R273). Wakes walks held on MLOCK for an ASID and VA, or all. -/
  | trcmdWake (d : DieId) (v : Word)
  /-- PIN_QUERY (R274). Samples whether a page holds a deferred request or hold. -/
  | pinQuery (d : DieId) (v : Word)
  /-- STRIKE_REPORT (R366). Sounding cells report a strike in a zone to the commit controllers. -/
  | strikeReport (die : Option DieId) (zone : Nat)
  /-- TIDE_CONTROL_WRITE (R368). A write setting or clearing TEN starts or ends tides and snapshots. -/
  | tideControlWrite (r : RegionId) (v : Word)
  /-- STOP_CLEAR (R385). Clearing STOP resets REPL and starts replay. -/
  | stopClear (r : RegionId)
  /-- PREEMPT_SAVE (R390). A GO with OP = 0 starts a save, waiting for the latest tide to commit. -/
  | preemptSave (r : RegionId) (v : Word)
  /-- PREEMPT_RESTORE (R394). A GO with OP = 1 loads the handle and writes back the saved records. -/
  | preemptRestore (r : RegionId) (v : Word)
  /-- FREEZE_RELEASE (R447). A write of DTRIG.REL resumes the clocks and latched reports act. -/
  | freezeRelease (r : RegionId)
  /-- NOTICE_READ (R365). A read of RGNOTE returns and removes the oldest notice. -/
  | noticeRead (fifo : NoticeFifo)
  /-- DEVTIME_BROADCAST (R423). Every 64 ns the selected PHC broadcasts device time to the dies. -/
  | devtimeBroadcast
  /-- DEVTIME_STEP (R424). A write of DTCTL.STEP adds DTSTEP to both PHCs at the next broadcast. -/
  | devtimeStep
  /-- POWER_EXCHANGE (R426). Every 1 us neighbouring dies ask, lend and repay budget units. -/
  | powerExchange
  /-- HOST_READ (R251). A host or peer read returns committed content or is refused. -/
  | hostRead (io : Fin 2) (path : HostPath) (pa : BitVec 52)
  /-- HOST_WRITE (R251). A host or peer write is performed at the home on arrival. -/
  | hostWrite (io : Fin 2) (path : HostPath) (pa : BitVec 52) (data : List Byte) (poison : Bool)
  /-- FRONTHAUL_FRAME_RECEIVE (R437). An eCPRI frame is classified and delivered as one burst, or dropped. -/
  | fronthaulFrameReceive (io : Fin 2) (frame : EthFrame)
  /-- TT_DATA_FRAME_RECEIVE (R439). A transport data frame is delivered or discarded and acknowledged. -/
  | ttDataFrameReceive (io : Fin 2) (frame : EthFrame)
  /-- TT_ACK_RECEIVE (R439). An acknowledgement frees or renumbers unacknowledged frames. -/
  | ttAckReceive (io : Fin 2) (frame : EthFrame)
  /-- HOST_RING_FRAME_RECEIVE (R436). An unclaimed frame passes whole to the port's receive ring. -/
  | hostRingFrameReceive (io : Fin 2) (frame : EthFrame)
  /-- TXDOOR_WRITE (R436). Queues n transmit slots for sending. -/
  | txdoorWrite (io : Fin 2) (q : Fin 2) (n : BitVec 16)
  /-- RGTEN_WRITE (R440). Sets a region's tenant and zeroes its counter bank. -/
  | rgtenWrite (r : RegionId) (v : Word)
  /-- MONITOR_SAMPLE (R457). Every 1 us the die monitor samples and may warn or trip. -/
  | monitorSample (d : DieId) (temp : BitVec 10) (vcore : BitVec 10)
  /-- DEVICE_RESET (R453). Reset boots the ROM, verifies Turox and the loader, or enters recovery. -/
  | deviceReset (flash : BootInputs)
  /-- SPDM_REQUEST (R455). Turox answers an SPDM request over DOE. -/
  | spdmRequest (req : List Byte)
  /-- RESYNC (R459). A mailbox GO with RESYNC starts the summary, or sets STATUS on refusal. -/
  | resync (v : Word)
  /-- RESYNC_COMPLETE (R459). The 512-byte summary is filled and DONE set. -/
  | resyncComplete
  /-- CUT_START (R448). A GO starts flooding a debug mark for a facet. -/
  | cutStart (r : RegionId) (v : Word)
  /-- CUT_RELEASE (R448). A write of REL resumes every site and node. -/
  | cutRelease (r : RegionId)
  /-- DEBUG_ACCESS (R451). A DBGADR GO reads or writes one item of facet state, or sets ERR. -/
  | debugAccess (r : RegionId) (v : Word)
  /-- REGISTER_WRITE (R5). A write to a register with no behaviour of its own stores its writable fields. -/
  | registerWrite (reg : PlainReg) (v : Word)
  /-- SUPPLY_DROOP (R421). A supply droop makes a die's adaptive clock stretch a cycle, which advances device time by its real length. -/
  | supplyDroop (d : DieId) (ns3 : Nat)
  /-- FREQUENCY_LOCK_CHANGE (R424). The selected PHC gains or loses frequency lock, and DTCTL.LOCKED changes. -/
  | frequencyLockChange (locked : Bool)
  deriving DecidableEq, Repr

end Sys2Proof
end

