-- ==== Sys2Proof/Machine/Bits.lean ====
section
/-! DEFINITION. Bit fields, sign extension and byte order (R4), and the codes of the fields of an instruction word (R41 to R48),
each with its inverse. -/

namespace Sys2Proof

/-- Bits [lo+n-1:lo] of w, as a number. -/
def fld {k : Nat} (w : BitVec k) (lo n : Nat) : Nat := w.toNat / 2 ^ lo % 2 ^ n
/-- w with bits [lo+n-1:lo] replaced by the low n bits of v. -/
def setFld {k : Nat} (w : BitVec k) (lo n v : Nat) : BitVec k :=
  w - BitVec.ofNat k (fld w lo n * 2 ^ lo) + BitVec.ofNat k (v % 2 ^ n * 2 ^ lo)
/-- Bit i of w. -/
def bit {k : Nat} (w : BitVec k) (i : Nat) : Bool := w.getLsbD i
/-- w with bit i set to b. -/
def setBit {k : Nat} (w : BitVec k) (i : Nat) (b : Bool) : BitVec k := setFld w i 1 (if b then 1 else 0)
/-- The number of one bits among the low n bits. -/
def popNat (n x : Nat) : Nat := (List.range n).foldl (fun c i => if x.testBit i then c + 1 else c) 0
/-- A signed field of n bits: bits [lo+n-1:lo] in two's complement. -/
def sfld {k : Nat} (w : BitVec k) (lo n : Nat) : Int :=
  let u := fld w lo n
  if n = 0 then 0 else if u < 2 ^ (n - 1) then (u : Int) else (u : Int) - (2 ^ n : Nat)
/-- The signed value of the low n bits of a number. -/
def signedOf (n u : Nat) : Int :=
  let u := u % 2 ^ n
  if n = 0 then 0 else if u < 2 ^ (n - 1) then (u : Int) else (u : Int) - (2 ^ n : Nat)
/-- The low n bits of an integer, in two's complement. -/
def wrapInt (n : Nat) (x : Int) : Nat := (x % ((2 ^ n : Nat) : Int)).toNat

/-- The little-endian bytes of a number (R4). -/
def bytesOf : Nat → Nat → List Byte
  | 0, _ => []
  | n + 1, x => BitVec.ofNat 8 x :: bytesOf n (x / 256)
/-- The number that little-endian bytes spell (R4). -/
def ofBytes : List Byte → Nat
  | [] => 0
  | b :: bs => b.toNat + 256 * ofBytes bs

/-- The bits of a specifier (R48). -/
def Spec.toBits : Spec → Byte
  | .g n => n.setWidth 8
  | .v n => 0x40#8 ||| n.setWidth 8
  | .inp n => 0x60#8 ||| n.setWidth 8
  | .peek n => 0x70#8 ||| n.setWidth 8
  | .outp n => 0x80#8 ||| n.setWidth 8
  | .p n => 0x90#8 ||| n.setWidth 8
  | .vz => 0x98#8
  | .lid => 0x99#8
  | .imm n => 0xC0#8 ||| n.setWidth 8
  | .rsv b => b

/-- The specifier that eight bits name (R48). -/
def Spec.ofBits (b : Byte) : Spec :=
  let u := b.toNat
  if u < 0x40 then .g (b.setWidth 6)
  else if u < 0x60 then .v (b.setWidth 5)
  else if u < 0x70 then .inp (b.setWidth 4)
  else if u < 0x80 then .peek (b.setWidth 4)
  else if u < 0x90 then .outp (b.setWidth 4)
  else if u < 0x98 then .p (b.setWidth 3)
  else if u = 0x98 then .vz
  else if u = 0x99 then .lid
  else if u < 0xC0 then .rsv b
  else .imm (b.setWidth 6)

def Match.toBits : Match → BitVec 2
  | .always => 0 | .predTrue => 1 | .predFalse => 2 | .nullSkip => 3
def Match.ofBits (b : BitVec 2) : Match :=
  if b = 0 then .always else if b = 1 then .predTrue else if b = 2 then .predFalse else .nullSkip

def Rnd.toBits : Rnd → BitVec 3
  | .dyn => 0 | .rsv1 => 1 | .rsv2 => 2 | .rsv3 => 3 | .rn => 4 | .rz => 5 | .ru => 6 | .rd => 7
def Rnd.ofBits (b : BitVec 3) : Rnd :=
  if b = 0 then .dyn else if b = 1 then .rsv1 else if b = 2 then .rsv2 else if b = 3 then .rsv3
  else if b = 4 then .rn else if b = 5 then .rz else if b = 6 then .ru else .rd

def Esz.toBits : Esz → BitVec 3
  | .dflt => 0 | .e8 => 1 | .e16 => 2 | .e32 => 3 | .e64 => 4 | .e4 => 5 | .rsv6 => 6 | .rsv7 => 7
def Esz.ofBits (b : BitVec 3) : Esz :=
  if b = 0 then .dflt else if b = 1 then .e8 else if b = 2 then .e16 else if b = 3 then .e32
  else if b = 4 then .e64 else if b = 5 then .e4 else if b = 6 then .rsv6 else .rsv7

def Size.toBits : Size → BitVec 3
  | .b => 0 | .h => 1 | .w => 2 | .d => 3 | .v => 4 | .rsv5 => 5 | .rsv6 => 6 | .rsv7 => 7
def Size.ofBits (b : BitVec 3) : Size :=
  if b = 0 then .b else if b = 1 then .h else if b = 2 then .w else if b = 3 then .d
  else if b = 4 then .v else if b = 5 then .rsv5 else if b = 6 then .rsv6 else .rsv7
/-- The bytes of an access (R45). -/
def Size.bytes : Size → Nat
  | .b => 1 | .h => 2 | .w => 4 | .d => 8 | .v => 64 | _ => 0

def Scope.toBits : Scope → BitVec 3
  | .act => 0 | .elem => 1 | .pair => 2 | .region => 3 | .die => 4 | .device => 5 | .system => 6 | .rsv => 7
def Scope.ofBits (b : BitVec 3) : Scope :=
  if b = 0 then .act else if b = 1 then .elem else if b = 2 then .pair else if b = 3 then .region
  else if b = 4 then .die else if b = 5 then .device else if b = 6 then .system else .rsv

def Cond.toBits : Cond → BitVec 4
  | .always => 0 | .eq => 1 | .ne => 2 | .lt => 3 | .ge => 4 | .ltu => 5 | .geu => 6 | .ps => 7 | .pc => 8
  | .er => 9 | .nl => 10 | .tp => 11 | .rsvC => 12 | .rsvD => 13 | .rsvE => 14 | .rsvF => 15
def Cond.ofBits (b : BitVec 4) : Cond :=
  if b = 0 then .always else if b = 1 then .eq else if b = 2 then .ne else if b = 3 then .lt
  else if b = 4 then .ge else if b = 5 then .ltu else if b = 6 then .geu else if b = 7 then .ps
  else if b = 8 then .pc else if b = 9 then .er else if b = 10 then .nl else if b = 11 then .tp
  else if b = 12 then .rsvC else if b = 13 then .rsvD else if b = 14 then .rsvE else .rsvF

/-- The specifier names an input port, in either form (R48). -/
def Spec.isPort : Spec → Bool
  | .inp _ | .peek _ => true
  | _ => false
def Spec.isInp : Spec → Bool
  | .inp _ => true
  | _ => false
def Spec.isOut : Spec → Bool
  | .outp _ => true
  | _ => false
def Spec.isP : Spec → Bool
  | .p _ => true
  | _ => false
def Spec.isG : Spec → Bool
  | .g _ => true
  | _ => false
def Spec.isV : Spec → Bool
  | .v _ => true
  | _ => false
def Spec.isRsv : Spec → Bool
  | .rsv _ => true
  | _ => false
/-- The output port that d names. -/
def Spec.outPort : Spec → Option (BitVec 4)
  | .outp n => some n
  | _ => none
/-- The specifier 0x00, which an unused operand field must hold (R47). -/
def Spec.isZero (s : Spec) : Bool := s == .g 0

end Sys2Proof
end

