-- ==== Sys2Proof/Machine/Float.lean ====
section
/-! DEFINITION. The number formats, rounding, flags and conversions of the arithmetic chapter (R75 to R90), the tree of sums
(R93), the wide accumulator (R91, R92) and the estimates (R112, R113). A finite value is held exactly, as m times a power of
two, and rounded once. -/

namespace Sys2Proof

/-- The sticky flags of HSTAT, NV in bit 0 to SAT in bit 5 (R13). -/
abbrev Flags := BitVec 6
def flNV : Flags := 0x01
def flDZ : Flags := 0x02
def flOF : Flags := 0x04
def flUF : Flags := 0x08
def flNX : Flags := 0x10
def flSAT : Flags := 0x20
/-- A flag, raised when the condition holds. -/
def flIf (c : Bool) (f : Flags) : Flags := if c then f else 0

/-- A floating-point datum: a NaN, an infinity, or exactly plus or minus m times 2^e. -/
inductive FVal where
  | nan (signalling : Bool)
  | inf (neg : Bool)
  | fin (neg : Bool) (m : Nat) (e : Int)
  deriving DecidableEq, Repr

/-- A zero. -/
def FVal.zero (neg : Bool) : FVal := .fin neg 0 0
def FVal.isNan : FVal → Bool
  | .nan _ => true
  | _ => false
def FVal.isSnan : FVal → Bool
  | .nan s => s
  | _ => false
def FVal.isInf : FVal → Bool
  | .inf _ => true
  | _ => false
def FVal.isZero : FVal → Bool
  | .fin _ 0 _ => true
  | _ => false
def FVal.isNeg : FVal → Bool
  | .nan _ => false
  | .inf n => n
  | .fin n _ _ => n
/-- The value with its sign changed; a NaN stays as it is. -/
def FVal.negate : FVal → FVal
  | .nan s => .nan s
  | .inf n => .inf (!n)
  | .fin n m e => .fin (!n) m e
/-- The magnitude. -/
def FVal.abs : FVal → FVal
  | .nan s => .nan s
  | .inf _ => .inf false
  | .fin _ m e => .fin false m e

/-- The number of mantissa bits of a format of R75, by its code of R79. -/
def fmtMant : Nat → Nat
  | 0 => 23 | 1 => 7 | 2 => 10 | 3 => 3 | 4 => 2 | 5 => 1 | _ => 0
/-- The number of exponent bits. -/
def fmtExp : Nat → Nat
  | 0 => 8 | 1 => 8 | 2 => 5 | 3 => 4 | 4 => 5 | 5 => 2 | _ => 8
/-- The bias (R75). -/
def fmtBias : Nat → Nat
  | 0 => 127 | 1 => 127 | 2 => 15 | 3 => 7 | 4 => 15 | 5 => 1 | _ => 127
/-- The largest finite encoding without its sign (R75). -/
def fmtMax : Nat → Nat
  | 0 => 0x7F7FFFFF | 1 => 0x7F7F | 2 => 0x7BFF | 3 => 0x7E | 4 => 0x7B | 5 => 0x7 | _ => 0xFE
/-- The canonical NaN (R75); E2M1 has none, and a NaN becomes 0x0 there (R86). -/
def fmtNaN : Nat → Nat
  | 0 => 0x7FC00000 | 1 => 0x7FC0 | 2 => 0x7E00 | 3 => 0x7F | 4 => 0x7E | 5 => 0x0 | _ => 0xFF
/-- The encoding of +infinity; E4M3 has none and takes its NaN (R81). -/
def fmtInf : Nat → Nat
  | 0 => 0x7F800000 | 1 => 0x7F80 | 2 => 0x7C00 | 3 => 0x7F | 4 => 0x7C | 5 => 0x7 | _ => 0xFF
/-- The width of a floating-point format. -/
def fmtWidth (f : Nat) : Nat := if f = 6 then 8 else 1 + fmtExp f + fmtMant f
/-- The format has infinities (R75). -/
def fmtHasInf (f : Nat) : Bool := f ≤ 2 || f == 4

/-- The datum that the low bits of x hold in format f (R75, R78). -/
def fdec (f x : Nat) : FVal :=
  if f = 6 then
    let c := x % 256
    if c = 255 then .nan false else .fin false 1 ((c : Int) - 127)
  else
    let mb := fmtMant f; let eb := fmtExp f
    let m := x % 2 ^ mb
    let e := x / 2 ^ mb % 2 ^ eb
    let s := x / 2 ^ (mb + eb) % 2 = 1
    let top := 2 ^ eb - 1
    if e = top ∧ fmtHasInf f then
      if m = 0 then .inf s else .nan (m / 2 ^ (mb - 1) % 2 = 0)
    else if f = 3 ∧ e = top ∧ m = 7 then .nan false
    else if e = 0 then .fin s m (1 - (fmtBias f : Int) - mb)
    else .fin s (2 ^ mb + m) ((e : Int) - fmtBias f - mb)

/-- The number of bits of x. -/
def bitLen (x : Nat) : Nat := if x = 0 then 0 else Nat.log2 x + 1

/-- m times 2^e divided by 2^q and rounded to a whole number: the result, and whether it differs from the exact value (R80).
The mode is 0 rn, 1 rz, 2 ru, 3 rd. -/
def roundAt (mode : Nat) (neg : Bool) (m : Nat) (e q : Int) : Nat × Bool :=
  if e ≥ q then (m * 2 ^ (e - q).toNat, false)
  else
    let s := (q - e).toNat
    let r := m / 2 ^ s
    let rem := m % 2 ^ s
    if rem = 0 then (r, false)
    else
      let up := match mode with
        | 0 => decide (2 * rem > 2 ^ s) || (2 * rem == 2 ^ s && r % 2 == 1)
        | 1 => false
        | 2 => !neg
        | _ => neg
      (if up then r + 1 else r, true)

/-- The exact value rounded into a format (R80, R81, R84, R86): the encoding and the flags. -/
def fround (f mode : Nat) (sat neg : Bool) (m : Nat) (e : Int) : Nat × Flags :=
  let mb := fmtMant f
  let w := fmtWidth f
  let sgn := if neg then 2 ^ (w - 1) else 0
  if m = 0 then (sgn, 0)
  else
    let emin : Int := 1 - (fmtBias f : Int)
    let ex : Int := e + (bitLen m : Int) - 1
    let q : Int := max ex emin - mb
    let (r, inex) := roundAt mode neg m e q
    -- the largest finite value in units of 2^q
    let mx := fmtMax f
    let maxSig := 2 ^ mb + mx % 2 ^ mb
    let maxExp : Int := ((mx / 2 ^ mb : Nat) : Int) - fmtBias f - mb
    let ovf : Bool :=
      if q ≥ maxExp then decide (r * 2 ^ (q - maxExp).toNat > maxSig)
      else decide (r > maxSig * 2 ^ (maxExp - q).toNat)
    if ovf then
      if sat then (sgn + mx, flSAT ||| flNX)
      else
        let toInf := match mode with
          | 0 => true
          | 1 => false
          | 2 => !neg
          | _ => neg
        let enc := if toInf then (if fmtHasInf f then sgn + fmtInf f else fmtNaN f) else sgn + mx
        (enc, flOF ||| flNX)
    else
      let (ru, _) := roundAt mode neg m e (ex - mb)
      -- rounded with unbounded exponent, below the smallest normal value (R84)
      let tiny : Bool := decide (ex < emin) && !(ex == emin - 1 && ru == 2 ^ (mb + 1))
      let enc := if r < 2 ^ mb then r
        else if r = 2 ^ (mb + 1) then ((q + 1 + mb + fmtBias f).toNat) * 2 ^ mb
        else ((q + mb + fmtBias f).toNat) * 2 ^ mb + (r - 2 ^ mb)
      (sgn + enc, flIf inex flNX ||| flIf (inex && tiny) flUF)

/-- A datum rounded into format f; an invalid operation has been marked before (R83, R86). -/
def fpack (f mode : Nat) (sat : Bool) : FVal → Nat × Flags
  | .nan _ => (fmtNaN f, 0)
  | .inf n =>
    if fmtHasInf f then ((if n then 2 ^ (fmtWidth f - 1) else 0) + fmtInf f, 0) else (fmtInf f, 0)
  | .fin n m e => fround f mode sat n m e

/-- NV of the signalling operands (R83). -/
def nvOf (l : List FVal) : Flags := flIf (l.any FVal.isSnan) flNV

/-- The exact sum; a zero sum takes its sign by R80. -/
def exAdd (mode : Nat) : FVal → FVal → FVal × Flags
  | .nan _, _ => (.nan false, 0)
  | _, .nan _ => (.nan false, 0)
  | .inf a, .inf b => if a = b then (.inf a, 0) else (.nan false, flNV)
  | .inf a, _ => (.inf a, 0)
  | _, .inf b => (.inf b, 0)
  | .fin na ma ea, .fin nb mb eb =>
    let e := min ea eb
    let a : Nat := ma * 2 ^ (ea - e).toNat
    let b : Nat := mb * 2 ^ (eb - e).toNat
    if na = nb then (.fin na (a + b) e, 0)
    else if a = b then (.fin (mode == 3) 0 0, 0)
    else if a > b then (.fin na (a - b) e, 0)
    else (.fin nb (b - a) e, 0)

/-- The exact product (R83). -/
def exMul : FVal → FVal → FVal × Flags
  | .nan _, _ => (.nan false, 0)
  | _, .nan _ => (.nan false, 0)
  | .inf a, y => if y.isZero then (.nan false, flNV) else (.inf (a != y.isNeg), 0)
  | x, .inf b => if x.isZero then (.nan false, flNV) else (.inf (x.isNeg != b), 0)
  | .fin na ma ea, .fin nb mb eb => (.fin (na != nb) (ma * mb) (ea + eb), 0)

/-- Addition, rounded once (R109, R129). -/
def fAdd (f mode x y : Nat) : Nat × Flags :=
  let a := fdec f x; let b := fdec f y
  let (v, fl) := exAdd mode a b
  let (r, fl') := fpack f mode false v
  (r, fl ||| fl' ||| nvOf [a, b])
def fSub (f mode x y : Nat) : Nat × Flags :=
  let a := fdec f x; let b := fdec f y
  let (v, fl) := exAdd mode a b.negate
  let (r, fl') := fpack f mode false v
  (r, fl ||| fl' ||| nvOf [a, b])
def fMul (f mode x y : Nat) : Nat × Flags :=
  let a := fdec f x; let b := fdec f y
  let (v, fl) := exMul a b
  let (r, fl') := fpack f mode false v
  (r, fl ||| fl' ||| nvOf [a, b])
/-- Fused multiply-add, one rounding; 0 times infinity raises NV whatever the addend is (R109). -/
def fFma (f mode x y z : Nat) : Nat × Flags :=
  let a := fdec f x; let b := fdec f y; let c := fdec f z
  let (p, fl) := exMul a b
  let (v, fl') := exAdd mode p c
  let (r, fl'') := fpack f mode false v
  (r, fl ||| fl' ||| fl'' ||| nvOf [a, b, c])

/-- Division (R83, R84, R109): enough quotient bits, and the remainder as a last bit. -/
def fDiv (f mode x y : Nat) : Nat × Flags :=
  let a := fdec f x; let b := fdec f y
  let nv := nvOf [a, b]
  match a, b with
  | .nan _, _ => (fmtNaN f, nv)
  | _, .nan _ => (fmtNaN f, nv)
  | .inf _, .inf _ => (fmtNaN f, flNV)
  | .inf n, .fin k _ _ => ((fpack f mode false (.inf (n != k))).1, 0)
  | .fin n _ _, .inf k => ((fpack f mode false (.fin (n != k) 0 0)).1, 0)
  | .fin n ma ea, .fin k mb eb =>
    if mb = 0 then
      if ma = 0 then (fmtNaN f, flNV) else ((fpack f mode false (.inf (n != k))).1, flDZ)
    else
      let sh := fmtMant f + 4 + bitLen mb
      let num := ma * 2 ^ sh
      let q := num / mb
      let m := 2 * q + (if num % mb = 0 then 0 else 1)
      fround f mode false (n != k) m (ea - eb - sh - 1)

/-- The whole square root of x, bit by bit from bit n - 1 down. -/
def isqrtGo : Nat → Nat → Nat → Nat
  | 0, _, r => r
  | n + 1, x, r => isqrtGo n x (if (r + 2 ^ n) * (r + 2 ^ n) ≤ x then r + 2 ^ n else r)
def isqrt (x : Nat) : Nat := isqrtGo ((bitLen x + 1) / 2) x 0

/-- Square root (R83, R109). -/
def fSqrt (f mode x : Nat) : Nat × Flags :=
  let a := fdec f x
  match a with
  | .nan s => (fmtNaN f, flIf s flNV)
  | .inf n => if n then (fmtNaN f, flNV) else ((fpack f mode false (.inf false)).1, 0)
  | .fin n m e =>
    if m = 0 then ((fpack f mode false (.fin n 0 0)).1, 0)
    else if n then (fmtNaN f, flNV)
    else
      let k := 2 * (fmtMant f + 4)
      let k := if (e - k) % 2 = 0 then k else k + 1
      let v := m * 2 ^ k
      let r := isqrt v
      fround f mode false false (2 * r + (if r * r = v then 0 else 1)) ((e - k) / 2 - 1)

/-- The order of two data that are no NaNs, -0 below +0 when zeros are told apart. -/
def flt (zeros : Bool) : FVal → FVal → Bool
  | .nan _, _ => false
  | _, .nan _ => false
  | .inf a, .inf b => a && !b
  | .inf a, .fin _ _ _ => a
  | .fin _ _ _, .inf b => !b
  | .fin na ma ea, .fin nb mb eb =>
    if ma = 0 ∧ mb = 0 then zeros && na && !nb
    else
      let e := min ea eb
      let a : Int := (if na then -1 else 1) * ((ma * 2 ^ (ea - e).toNat : Nat) : Int)
      let b : Int := (if nb then -1 else 1) * ((mb * 2 ^ (eb - e).toNat : Nat) : Int)
      decide (a < b)
def feq (a b : FVal) : Bool := !a.isNan && !b.isNan && !flt false a b && !flt false b a

/-- Minimum and maximum (R83). -/
def fMinMax (f : Nat) (isMax : Bool) (x y : Nat) : Nat × Flags :=
  let a := fdec f x; let b := fdec f y
  let w := fmtWidth f
  let r := if a.isNan then (if b.isNan then fmtNaN f else y % 2 ^ w)
    else if b.isNan then x % 2 ^ w
    else if isMax then (if flt true a b then y % 2 ^ w else x % 2 ^ w)
    else (if flt true b a then y % 2 ^ w else x % 2 ^ w)
  (r, nvOf [a, b])
def fMin (f x y : Nat) : Nat × Flags := fMinMax f false x y
def fMax (f x y : Nat) : Nat × Flags := fMinMax f true x y
/-- The encoding without its sign bit, a NaN as the canonical NaN. -/
def fMagnitude (f x : Nat) : Nat := x % 2 ^ (fmtWidth f - 1)
/-- The maximum of the magnitudes (R129); the sign of the result is 0. -/
def fAbsMax (f x y : Nat) : Nat × Flags := fMax f (fMagnitude f x) (fMagnitude f y)

/-- Comparison under a condition of R110: the truth value and the flags. -/
def fCmp (f c x y : Nat) : Bool × Flags :=
  let a := fdec f x; let b := fdec f y
  let un := a.isNan || b.isNan
  let t := match c with
    | 1 => feq a b
    | 2 => !feq a b
    | 3 => flt false a b
    | 4 => flt false a b || feq a b
    | 5 => flt false b a
    | 6 => flt false b a || feq a b
    | _ => un
  (t, nvOf [a, b] ||| flIf (un && decide (3 ≤ c) && decide (c ≤ 6)) flNV)

/-- Two's complement of an integer clamped to a range, with whether it was clamped. -/
def clampInt (lo hi x : Int) : Int × Bool := if x < lo then (lo, true) else if x > hi then (hi, true) else (x, false)
/-- Width of an integer format of R79. -/
def intWidth : Nat → Nat
  | 8 => 8 | 9 => 4 | 10 => 32 | _ => 64
def intLo (w : Nat) : Int := -((2 ^ (w - 1) : Nat) : Int)
def intHi (w : Nat) : Int := ((2 ^ (w - 1) : Nat) : Int) - 1

/-- A float rounded to an integer in the range of a format of width w (R88). -/
def floatToInt (w mode : Nat) : FVal → Int × Flags
  | .nan _ => (0, flNV)
  | .inf n => (if n then intLo w else intHi w, flNV)
  | .fin n m e =>
    let (r, inex) := roundAt mode n m e 0
    let v : Int := if n then -(r : Int) else r
    let (c, out) := clampInt (intLo w) (intHi w) v
    (c, if out then flNV else flIf inex flNX)

/-- The code of E8M0 for a float (R87). -/
def floatToE8 : FVal → Nat
  | .nan _ => 0xFF
  | .inf _ => 0xFF
  | .fin _ m e =>
    if m = 0 then 0
    else
      let ex : Int := e + (bitLen m : Int) - 1
      if ex < -126 then 0 else if ex > 127 then 0xFF else (ex + 127).toNat

/-- A float into another floating-point format other than E8M0 (R86). -/
def floatToFloat (f mode : Nat) (sat : Bool) (v : FVal) : Nat × Flags :=
  let sat := sat || f == 5
  match v with
  | .nan s => (fmtNaN f, flIf (s || f == 5) flNV)
  | .inf n =>
    if sat then ((if n then 2 ^ (fmtWidth f - 1) else 0) + fmtMax f, flSAT)
    else if fmtHasInf f then ((if n then 2 ^ (fmtWidth f - 1) else 0) + fmtInf f, 0)
    else (fmtNaN f, flNV)
  | .fin n m e => fround f mode sat n m e

/-- The conversions of R111: source code, destination code, saturating, mode and the source's bits give the low bits of the
result (an integer as a signed value of 64 bits) and the flags. -/
def convert (src dst : Nat) (sat : Bool) (mode x : Nat) : Nat × Flags :=
  if codeIsInt' src then
    let v := signedOf (intWidth src) x
    if codeIsInt' dst then
      let w := intWidth dst
      if sat then
        let (c, out) := clampInt (intLo w) (intHi w) v
        (wrapInt 64 c, flIf out flSAT)
      else (wrapInt 64 (signedOf w (wrapInt w v)), 0)
    else fround dst mode (sat || dst == 5) (decide (v < 0)) v.natAbs 0
  else
    let v := fdec src x
    if codeIsInt' dst then
      let (c, fl) := floatToInt (intWidth dst) mode v
      (wrapInt 64 c, fl)
    else if dst = 6 then (floatToE8 v, 0)
    else floatToFloat dst mode sat v
where codeIsInt' (c : Nat) : Bool := 8 ≤ c

/-- One node of the tree (R93): two exact data, added and rounded once into FP32. -/
def treeNode (mode : Nat) (a b : FVal) : FVal × Flags :=
  let (v, fl) := exAdd mode a b
  let (r, fl') := fpack 0 mode false v
  (fdec 0 r, fl ||| fl' ||| nvOf [a, b])
/-- One level of a tree over any node. -/
def treeLevel {α : Type} (node : α → α → α × Flags) : List α → List α × Flags
  | a :: b :: l =>
    let (v, fl) := node a b
    let (vs, fl') := treeLevel node l
    (v :: vs, fl ||| fl')
  | l => (l, 0)
/-- The levels of a tree, from n levels down to one value (R93). -/
def treeGo {α : Type} (node : α → α → α × Flags) : Nat → List α → List α × Flags
  | 0, l => (l, 0)
  | n + 1, l =>
    let (vs, fl) := treeLevel node l
    let (r, fl') := treeGo node n vs
    (r, fl ||| fl')
/-- The tree of R93 over 2^n leaves. -/
def treeOf {α : Type} (node : α → α → α × Flags) (n : Nat) (l : List α) (dflt : α) : α × Flags :=
  let (r, fl) := treeGo node n l
  (r.headD dflt, fl)
/-- The encoding of a datum that is an FP32 value already, a NaN as the canonical NaN. -/
def f32bits (v : FVal) : Nat := (fpack 0 0 false v).1
/-- The sum tree of R93: the FP32 result and the flags. -/
def sumTree (mode n : Nat) (leaves : List FVal) : Nat × Flags :=
  let (v, fl) := treeOf (treeNode mode) n leaves (FVal.zero false)
  (f32bits v, fl)

/-- The invalid state of a wide accumulator (R91). -/
def accInvalid : Nat := 2 ^ 383
/-- acc_add (R92): the accumulator as its 384 bits, and the FP32 value x. -/
def accAdd (acc x : Nat) : Nat :=
  match fdec 0 x with
  | .fin n m e =>
    if acc = accInvalid then accInvalid
    else
      let d : Int := ((m * 2 ^ (e + 149).toNat : Nat) : Int)
      let t := signedOf 384 acc + (if n then -d else d)
      if t ≤ -((2 ^ 383 : Nat) : Int) ∨ t ≥ ((2 ^ 383 : Nat) : Int) then accInvalid else wrapInt 384 t
  | _ => accInvalid
/-- The accumulator conversion (R92): one rounding to FP32 with rn. -/
def accToF32 (acc : Nat) : Nat :=
  if acc = accInvalid then fmtNaN 0
  else
    let v := signedOf 384 acc
    (fround 0 0 false (decide (v < 0)) v.natAbs (-149)).1

/-- Table T of R112. -/
def estT (i : Nat) : Nat := (2 ^ 23 + (64 + i)) / (2 * (64 + i))
/-- Table S of R112. -/
def estS (p i : Nat) : Nat := (isqrt (2 ^ 40 / (2 ^ p * (64 + i))) + 1) / 2
/-- The interpolation of R112 between two entries. -/
def estY (lo hi t : Nat) : Nat := lo - ((lo - hi) * t + 1024) / 2 ^ 11

/-- FRCPE on the bits of an FP32 value (R112, R113). -/
def fRcpE (x : Nat) : Nat × Flags :=
  match fdec 0 x with
  | .nan s => (fmtNaN 0, flIf s flNV)
  | .inf n => ((fpack 0 0 false (.fin n 0 0)).1, 0)
  | .fin n m e =>
    if m = 0 then ((fpack 0 0 false (.inf n)).1, flDZ)
    else
      let l := bitLen m
      let ex : Int := e + (l : Int) - 1
      let f := m * 2 ^ 23 / 2 ^ (l - 1) - 2 ^ 23
      let i := f / 2 ^ 17
      let t := f / 2 ^ 6 % 2 ^ 11
      ((fround 0 0 false n (estY (estT i) (estT (i + 1)) t) (-16 - ex)).1, 0)
/-- FRSQE on the bits of an FP32 value (R112, R113). -/
def fRsqE (x : Nat) : Nat × Flags :=
  match fdec 0 x with
  | .nan s => (fmtNaN 0, flIf s flNV)
  | .inf n => if n then (fmtNaN 0, flNV) else (0, 0)
  | .fin n m e =>
    if m = 0 then ((fpack 0 0 false (.inf n)).1, flDZ)
    else if n then (fmtNaN 0, flNV)
    else
      let l := bitLen m
      let ex : Int := e + (l : Int) - 1
      let f := m * 2 ^ 23 / 2 ^ (l - 1) - 2 ^ 23
      let i := f / 2 ^ 17
      let t := f / 2 ^ 6 % 2 ^ 11
      let p := (ex % 2).toNat
      let h := (ex - p) / 2
      ((fround 0 0 false false (estY (estS p i) (estS p (i + 1)) t) (-16 - h)).1, 0)

/-- sat16 of R90. -/
def sat16 (y : Int) : Int × Flags :=
  let (c, out) := clampInt (-32768) 32767 y
  (c, flIf out flSAT)
/-- cq of R90; the shift is arithmetic. -/
def cq (y : Int) : Int × Flags := sat16 ((y + 0x4000) / 32768)

end Sys2Proof
end

