-- ==== Sys2Proof/Machine/Checks.lean ====
section
/-! DEFINITION. What each instruction's description accepts in its fields and operand positions (R47, R48, R50): the decode
checks of R57 after the opcode, as tables. -/

namespace Sys2Proof

/-- The four causes of decoding, in the order of R57. -/
inductive DecodeCause where
  | illegalOpcode | reservedField | reservedOperand | operandClass
  deriving DecidableEq, Repr

/-- The classes of operand a position accepts (R50), and unused for a field the description does not use. -/
inductive Cls where
  | unused
  | scalarSrc   -- g, input port in either form, p, small immediate (R96)
  | scalarDst   -- g, p, output port (R96)
  | gpDst       -- g or p (R149)
  | vecSrc      -- v, vz, lid, small immediate (R127)
  | vecDst      -- v (R127)
  | vpDst       -- v or p (R134)
  | outPort
  | consPort    -- input port, consuming form only (R149)
  | anyPort     -- input port, either form
  | pReg
  | gReg
  | gReg1       -- g1 to g63 (R117)
  deriving DecidableEq, Repr

def Cls.accepts : Cls → Spec → Bool
  | .unused, s => s.isZero
  | .scalarSrc, .g _ | .scalarSrc, .inp _ | .scalarSrc, .peek _ | .scalarSrc, .p _ | .scalarSrc, .imm _ => true
  | .scalarDst, .g _ | .scalarDst, .p _ | .scalarDst, .outp _ => true
  | .gpDst, .g _ | .gpDst, .p _ => true
  | .vecSrc, .v _ | .vecSrc, .vz | .vecSrc, .lid | .vecSrc, .imm _ => true
  | .vecDst, .v _ => true
  | .vpDst, .v _ | .vpDst, .p _ => true
  | .outPort, .outp _ => true
  | .consPort, .inp _ => true
  | .anyPort, .inp _ | .anyPort, .peek _ => true
  | .pReg, .p _ => true
  | .gReg, .g _ => true
  | .gReg1, .g n => n != 0
  | _, _ => false

/-- The decode checks that do not need the opcode: fields first, then reserved specifiers, then classes (R57). -/
def checkFields (fieldsOk : Bool) (ops : List (Cls × Spec)) : Option DecodeCause :=
  if !(fieldsOk && ops.all (fun o => o.1 != .unused || o.2.isZero)) then some .reservedField
  else if ops.any (fun o => o.1 != .unused && o.2.isRsv) then some .reservedOperand
  else if !(ops.all (fun o => o.1.accepts o.2)) then some .operandClass
  else none

/-- pm other than 0b00 needs an operand that names an input port (R47). -/
def Head.pmOk (h : Head) (operands : List Spec) : Bool := h.pm == .always || operands.any Spec.isPort

/-- What a format-R instruction accepts. -/
structure RShape where
  d : Cls := .scalarDst
  a : Cls := .scalarSrc
  b : Cls := .scalarSrc
  c : Cls := .unused
  rnd : Bool := false          -- any rnd code that is not reserved; otherwise only 0b000
  esz : List Esz := [.dflt]
  fn : Bool := true            -- the instruction's own test of fn, already made

def Rnd.isRsv : Rnd → Bool
  | .rsv1 | .rsv2 | .rsv3 => true
  | _ => false

def RForm.check (w : RForm) (s : RShape) : Option DecodeCause :=
  checkFields (w.head.pmOk [w.d, w.a, w.b, w.c] && (if s.rnd then !w.rnd.isRsv else w.rnd == .dyn) && s.esz.contains w.esz && s.fn)
    [(s.d, w.d), (s.a, w.a), (s.b, w.b), (s.c, w.c)]

def esz6432 : List Esz := [.dflt, .e64, .e32]
def esz64 : List Esz := [.dflt, .e64]
def eszVec : List Esz := [.dflt, .e32, .e8, .e16]

/-- Integer forms with two sources (R98, R105). -/
def RForm.checkInt2 (w : RForm) : Option DecodeCause := w.check { esz := esz6432, fn := w.fn == 0 }
/-- Integer forms with one source (R98, R105). -/
def RForm.checkInt1 (w : RForm) : Option DecodeCause := w.check { b := .unused, esz := esz6432, fn := w.fn == 0 }

/-- A format code that the arithmetic forms accept: FP32, BF16, FP16 (R108, R129). -/
def fmtArith (fn : BitVec 12) : Bool := fld fn 0 4 ≤ 2
/-- A code of R79 that FCVT accepts (R111). -/
def fcvtCode (c : Nat) : Bool := c ≤ 6 || (8 ≤ c && c ≤ 11)
/-- A code of R79 that VCVT accepts (R137). -/
def vcvtCode (c : Nat) : Bool := c ≤ 6 || (8 ≤ c && c ≤ 10)
def codeIsInt (c : Nat) : Bool := 8 ≤ c
/-- The pairs of formats that R111 accepts, plain or saturating. E8M0 to E8M0 stands in two of its rows, of which one allows .sat and one
does not; it is refused (DESIGN CHOICE, log 64). -/
def cvtPairOk (src dst : Nat) (sat : Bool) : Bool :=
  if codeIsInt src then !(dst == 6)
  else if dst == 6 then !sat
  else if codeIsInt dst then !sat
  else true
/-- The width in bits of a format code (R75, R76). -/
def codeWidth : Nat → Nat
  | 0 => 32 | 1 => 16 | 2 => 16 | 3 => 8 | 4 => 8 | 5 => 4 | 6 => 8 | 8 => 8 | 9 => 4 | 10 => 32 | 11 => 64 | _ => 32

def RForm.checkFp (w : RForm) (b c : Cls) : Option DecodeCause :=
  w.check { b := b, c := c, rnd := true, fn := fmtArith w.fn && fld w.fn 4 8 == 0 }
def RForm.checkVfp (w : RForm) (c : Cls) : Option DecodeCause :=
  w.check { d := .vecDst, a := .vecSrc, b := .vecSrc, c := c, rnd := true, fn := fmtArith w.fn && fld w.fn 4 8 == 0 }
/-- R133: .sat in fn[0], .u in fn[1], .u only with .sat. -/
def satOk (fn : BitVec 12) : Bool := fld fn 2 10 == 0 && (!bit fn 1 || bit fn 0)
def RForm.checkVint (w : RForm) (b : Cls) (sat : Bool) (esz : List Esz) : Option DecodeCause :=
  w.check { d := .vecDst, a := .vecSrc, b := b, esz := esz, fn := if sat then satOk w.fn else w.fn == 0 }
/-- R130, R131: the operation in fn[3:0]; 0x3 to 0x7 require rnd 0b000. -/
def redFnOk (w : RForm) : Bool := fld w.fn 4 8 == 0 && fld w.fn 0 4 ≤ 7 && (fld w.fn 0 4 ≤ 2 || w.rnd == .dyn)
def RForm.checkVcvt (w : RForm) (sat : Bool) : Option DecodeCause :=
  let src := fld w.fn 0 4; let dst := fld w.fn 4 4; let part := fld w.fn 8 3
  let ws := codeWidth src; let wd := codeWidth dst
  w.check { d := .vecDst, a := .vecSrc, b := .unused, rnd := true,
            fn := vcvtCode src && vcvtCode dst && !bit w.fn 11 && cvtPairOk src dst sat && part * min ws wd < max ws wd }
/-- R147: pred in fn[1:0], .t in fn[2] of SENDH only. -/
def RForm.checkSend (w : RForm) (isH isN : Bool) : Option DecodeCause :=
  let pk := fld w.fn 0 2 == 3
  w.check { d := .outPort, a := if pk then .anyPort else if isN then .unused else .scalarSrc, b := .unused,
            c := if fld w.fn 0 2 == 2 then .pReg else .unused, fn := fld w.fn 3 9 == 0 && (isH || !bit w.fn 2) }
def RForm.checkTok (w : RForm) (d a : Cls) : Option DecodeCause :=
  w.check { d := d, a := a, b := .unused, fn := w.fn == 0 }
def RForm.checkBare (w : RForm) (d a b : Cls) : Option DecodeCause :=
  w.check { d := d, a := a, b := b, fn := w.fn == 0 }
def selectorOk (fn : BitVec 12) : Bool := 1 ≤ fld fn 0 8 && fld fn 0 8 ≤ 0x0D && fld fn 8 4 == 0
/-- R233: the function field of MATOM and MCAS. -/
def atomFnOk (fn : BitVec 12) (isCas : Bool) : Bool :=
  let op := fld fn 0 4; let sz := fld fn 4 2
  fld fn 10 2 == 0 && fld fn 6 3 != 7 && (sz == 2 || sz == 3) &&
  (if isCas then op == 0 else op ≤ 11 && (op ≤ 8 || sz == 2))

def IForm.check (w : IForm) (d a : Cls) (immOk : Bool) : Option DecodeCause :=
  checkFields (w.head.pmOk [w.d, w.a] && immOk) [(d, w.d), (a, w.a)]
def IForm.checkArith (w : IForm) : Option DecodeCause := w.check .scalarDst .scalarSrc true
def IForm.checkShift (w : IForm) : Option DecodeCause := w.check .scalarDst .scalarSrc (w.imm.toNat < 64)

def BForm.check (w : BForm) (d a b : Cls) (condOk : Bool) : Option DecodeCause :=
  checkFields (w.head.pmOk [w.d, w.a, w.b] && condOk && w.zero == 0) [(d, w.d), (a, w.a), (b, w.b)]
/-- R115: the classes of a and b for each condition. -/
def Cond.brcClasses : Cond → Option (Cls × Cls)
  | .eq | .ne | .lt | .ge | .ltu | .geu => some (.scalarSrc, .scalarSrc)
  | .ps | .pc => some (.pReg, .unused)
  | .er | .nl | .tp => some (.anyPort, .unused)
  | _ => none

def MForm.check (w : MForm) (d a b : Cls) (sizes : List Size) (scopeOk dispOk : Bool) : Option DecodeCause :=
  checkFields (w.head.pmOk [w.d, w.a, w.b] && sizes.contains w.size && scopeOk && dispOk) [(d, w.d), (a, w.a), (b, w.b)]
def MForm.checkLocal (w : MForm) (d b : Cls) (sizes : List Size) : Option DecodeCause :=
  w.check d .scalarSrc b sizes (w.scope == .act) true
def MForm.checkDev (w : MForm) (d b : Cls) (sizes : List Size) : Option DecodeCause :=
  w.check d .scalarSrc b sizes (w.scope != .rsv) true

def EForm.check (w : EForm) (a b : Cls) (modOk : Bool) : Option DecodeCause :=
  checkFields (w.head.pmOk [w.d, w.a, w.b, w.c] && modOk) [(.outPort, w.d), (a, w.a), (b, w.b), (.unused, w.c)]

/-- The bits of MOD outside the listed fields, given as (low bit, width), are 0 (R284, R344). -/
def modOnly (m : BitVec 18) (fields : List (Nat × Nat)) : Bool :=
  (List.range 18).all fun i => !bit m i || fields.any fun f => decide (f.1 ≤ i) && decide (i < f.1 + f.2)
def modScope (m : BitVec 18) : Bool := fld m 15 3 != 7

/-- The MOD codes of the twelve stream instructions (R284), by opcode; also the test of a command token (R286). -/
def engineModOk (op : Nat) (m : BitVec 18) : Bool :=
  match op with
  | 0xB0 => modOnly m [(0, 7), (15, 3)] && modScope m
  | 0xB1 | 0xB2 => modOnly m [(0, 14), (15, 3)] && modScope m && fld m 5 2 != 3 && fld m 8 2 != 3 && fld m 10 4 ≤ 12
  | 0xB3 => modOnly m [(0, 12), (15, 3)] && modScope m && fld m 5 2 != 3 && fld m 8 4 ≤ 11
  | 0xB4 => modOnly m [(0, 3), (15, 3)] && modScope m
  | 0xB5 => modOnly m [(0, 4), (15, 3)] && modScope m
  | 0xB6 => modOnly m [(0, 10), (15, 3)] && modScope m && fld m 5 4 ≤ 12
  | 0xB7 => modOnly m [(0, 3)]
  | 0xB8 => modOnly m [(0, 4)]
  | 0xB9 => modOnly m [(0, 1)]
  | 0xBA => m == 0
  | 0xBB => modOnly m [(0, 3), (15, 3)] && modScope m
  | _ => false

/-- A format code of the matrix unit (R344). -/
def mxFmtOk (c : Nat) : Bool := (1 ≤ c && c ≤ 5) || c == 8 || c == 9
/-- The MX bit fits the format: only E4M3, E5M2 and E2M1 take it, and E2M1 requires it (R344). -/
def mxBitOk (c : Nat) (mx : Bool) : Bool := (!mx || (3 ≤ c && c ≤ 5)) && (c != 5 || mx)
/-- The MOD codes of the ten matrix instructions (R344), by opcode. -/
def matrixModOk (op : Nat) (m : BitVec 18) : Bool :=
  match op with
  | 0xC0 => modOnly m [(0, 15)] && mxFmtOk (fld m 0 4) && mxBitOk (fld m 0 4) (bit m 9) &&
            !(bit m 8 && (bit m 7 || bit m 4)) && !(bit m 10 && bit m 6) && fld m 11 4 ≤ 12
  | 0xC1 => modOnly m [(0, 4), (5, 2), (9, 6)] && mxFmtOk (fld m 0 4) && mxBitOk (fld m 0 4) (bit m 9) &&
            !(bit m 10 && bit m 6) && fld m 11 4 ≤ 12
  | 0xC2 => m == 0
  | 0xC3 => modOnly m [(4, 1)]
  | 0xC4 => modOnly m [(0, 8), (11, 7)] && fld m 0 4 ≤ 7 && fld m 6 2 != 3 && fld m 11 4 ≤ 12 && modScope m
  | 0xC5 => modOnly m [(4, 2)]
  | 0xC6 => modOnly m [(0, 2)]
  | 0xC7 => modOnly m [(0, 2)] && fld m 0 2 != 3
  | 0xC8 => modOnly m [(0, 1)]
  | 0xC9 => modOnly m [(15, 3)] && modScope m
  | _ => false

/-- The decode checks of R57 that follow the opcode, instruction by instruction; the steps of the other agents have none. -/
def Instr.check : Instr → Option DecodeCause
  | .add w => w.checkInt2
  | .addi w => w.checkArith
  | .sub w => w.checkInt2
  | .mul w => w.checkInt2
  | .muli w => w.checkArith
  | .mulh w => w.checkInt2
  | .mulhu w => w.checkInt2
  | .div w => w.checkInt2
  | .divu w => w.checkInt2
  | .rem w => w.checkInt2
  | .remu w => w.checkInt2
  | .and w => w.checkInt2
  | .andi w => w.checkArith
  | .or w => w.checkInt2
  | .ori w => w.checkArith
  | .xor w => w.checkInt2
  | .xori w => w.checkArith
  | .andn w => w.checkInt2
  | .shl w => w.checkInt2
  | .shli w => w.checkShift
  | .shr w => w.checkInt2
  | .shri w => w.checkShift
  | .sra w => w.checkInt2
  | .srai w => w.checkShift
  | .rotl w => w.checkInt2
  | .clz w => w.checkInt1
  | .ctz w => w.checkInt1
  | .popc w => w.checkInt1
  | .bswap w => w.checkInt1
  | .bext w => w.check { b := .unused, esz := esz64 }
  | .bins w => w.check { esz := esz64 }
  | .min w => w.checkInt2
  | .max w => w.checkInt2
  | .minu w => w.checkInt2
  | .maxu w => w.checkInt2
  | .cmp w => w.check { esz := esz6432, fn := 1 ≤ fld w.fn 0 4 && fld w.fn 0 4 ≤ 6 && fld w.fn 4 8 == 0 }
  | .cmpi w => w.check .scalarDst .scalarSrc (1 ≤ fld w.imm 30 4 && fld w.imm 30 4 ≤ 6)
  | .sel w => w.check { c := .scalarSrc, esz := esz64, fn := w.fn == 0 }
  | .limm w => w.check .scalarDst .unused true
  | .lea w => w.check .scalarDst .scalarSrc .scalarSrc [.b, .h, .w, .d, .v] (w.scope == .act) true
  | .chash w => w.check { esz := esz64, fn := w.fn == 0 }
  | .fadd w => w.checkFp .scalarSrc .unused
  | .fsub w => w.checkFp .scalarSrc .unused
  | .fmul w => w.checkFp .scalarSrc .unused
  | .ffma w => w.checkFp .scalarSrc .scalarSrc
  | .fdiv w => w.checkFp .scalarSrc .unused
  | .fsqrt w => w.checkFp .unused .unused
  | .fmin w => w.checkFp .scalarSrc .unused
  | .fmax w => w.checkFp .scalarSrc .unused
  | .fcmp w => w.check { rnd := true, fn := fmtArith w.fn && 1 ≤ fld w.fn 4 4 && fld w.fn 4 4 ≤ 7 && fld w.fn 8 4 == 0 }
  | .fcvt w => w.check { b := .unused, rnd := true, fn := fcvtCode (fld w.fn 0 4) && fcvtCode (fld w.fn 4 4) && fld w.fn 9 3 == 0 && cvtPairOk (fld w.fn 0 4) (fld w.fn 4 4) (bit w.fn 8) }
  | .frsqe w => w.check { b := .unused, fn := w.fn == 0 }
  | .frcpe w => w.check { b := .unused, fn := w.fn == 0 }
  | .vadd w => w.checkVfp .unused
  | .vsub w => w.checkVfp .unused
  | .vmul w => w.checkVfp .unused
  | .vfma w => w.checkVfp .vecSrc
  | .vmin w => w.checkVfp .unused
  | .vmax w => w.checkVfp .unused
  | .vabsmax w => w.checkVfp .unused
  | .vred w => w.check { a := .vecSrc, b := .unused, rnd := true, fn := redFnOk w }
  | .vscan w => w.check { d := .vecDst, a := .vecSrc, b := .unused, rnd := true, fn := redFnOk w }
  | .vdot w => w.check { a := .vecSrc, b := .vecSrc, c := .scalarSrc, rnd := true, fn := fmtArith w.fn && fld w.fn 4 8 == 0 }
  | .viadd w => w.checkVint .vecSrc true eszVec
  | .visub w => w.checkVint .vecSrc true eszVec
  | .vimul w => w.checkVint .vecSrc true eszVec
  | .vand w => w.checkVint .vecSrc false [.dflt]
  | .vor w => w.checkVint .vecSrc false [.dflt]
  | .vxor w => w.checkVint .vecSrc false [.dflt]
  | .vshl w => w.checkVint .vecSrc false eszVec
  | .vshr w => w.checkVint .vecSrc false eszVec
  | .vsra w => w.checkVint .vecSrc false eszVec
  | .vpopc w => w.checkVint .unused false eszVec
  | .vcmp w => w.check { d := .vpDst, a := .vecSrc, b := .vecSrc, rnd := true, fn := fmtArith w.fn && 1 ≤ fld w.fn 4 4 && fld w.fn 4 4 ≤ 7 && fld w.fn 8 4 == 0 && (!w.d.isP || fld w.fn 0 4 == 0) }
  | .vicmp w => w.check { d := .vpDst, a := .vecSrc, b := .vecSrc, esz := eszVec, fn := fld w.fn 0 4 == 0 && 1 ≤ fld w.fn 4 4 && fld w.fn 4 4 ≤ 6 && fld w.fn 8 4 == 0 && (!w.d.isP || w.esz == .dflt || w.esz == .e32) }
  | .vsel w => w.check { d := .vecDst, a := .vecSrc, b := .vecSrc, c := .pReg, fn := w.fn == 0 }
  | .vsplat w => w.check { d := .vecDst, b := .unused, esz := eszVec, fn := w.fn == 0 }
  | .vperm w => w.check { d := .vecDst, a := .vecSrc, b := .vecSrc, fn := w.fn == 0 }
  | .vextr w => w.check { a := .vecSrc, esz := eszVec, fn := w.fn == 0 }
  | .vins w => w.check { d := .vecDst, a := .vecSrc, c := .scalarSrc, esz := eszVec, fn := w.fn == 0 }
  | .vcvt w => w.checkVcvt false
  | .vcvts w => w.checkVcvt true
  | .vpack w => w.check { d := .vecDst, a := .vecSrc, b := .vecSrc, esz := [.e8, .e16], fn := satOk w.fn }
  | .vunpk w => w.check { d := .vecDst, a := .vecSrc, b := .unused, esz := [.e4, .e8, .e16], fn := fld w.fn 4 8 == 0 && (w.esz == .e4 || fld w.fn 0 3 < (if w.esz == .e8 then 4 else 2)) }
  | .vrsqe w => w.check { d := .vecDst, a := .vecSrc, b := .unused, fn := w.fn == 0 }
  | .vrcpe w => w.check { d := .vecDst, a := .vecSrc, b := .unused, fn := w.fn == 0 }
  | .vcmul w => w.check { d := .vecDst, a := .vecSrc, b := .vecSrc, fn := fld w.fn 1 11 == 0 }
  | .vcmac w => w.check { d := .vecDst, a := .vecSrc, b := .vecSrc, c := .vecSrc, fn := fld w.fn 1 11 == 0 }
  | .vconj w => w.check { d := .vecDst, a := .vecSrc, b := .unused, fn := w.fn == 0 }
  | .vbfly w => w.check { d := .vecDst, a := .vecSrc, b := .vecSrc, c := .vecSrc, fn := fld w.fn 2 10 == 0 }
  | .ld w => w.checkLocal .scalarDst .unused [.b, .h, .w, .d]
  | .st w => w.checkLocal .unused .scalarSrc [.b, .h, .w, .d]
  | .ldv w => w.checkLocal .vecDst .unused [.v]
  | .stv w => w.checkLocal .unused .vecSrc [.v]
  | .ldw w => w.checkLocal .scalarDst .unused [.d]
  | .ldc w => w.checkLocal .scalarDst .unused [.d]
  | .stf w => w.checkLocal .unused .scalarSrc [.d]
  | .stx w => w.checkLocal .unused .scalarSrc [.d]
  | .tage w => w.checkLocal .unused .unused [.d]
  | .tagq w => w.checkLocal .scalarDst .unused [.d]
  | .send w => w.checkSend false false
  | .sendn w => w.checkSend false true
  | .sende w => w.checkSend false false
  | .sendh w => w.checkSend true false
  | .sendt w => w.checkSend false false
  | .recv w => w.checkTok .gpDst .consPort
  | .peek w => w.checkTok .gpDst .anyPort
  | .tagr w => w.checkTok .scalarDst .anyPort
  | .drop w => w.checkTok .unused .consPort
  | .fwd w => w.checkTok .outPort .anyPort
  | .br w => w.check .unused .unused .unused (w.cond == .always)
  | .brc w => match w.cond.brcClasses with
    | some cl => w.check .unused cl.1 cl.2 true
    | none => some .reservedField
  | .call w => w.check .gReg .unused .unused (w.cond == .always)
  | .ret w => w.checkBare .unused .scalarSrc .unused
  | .loop w => w.check .gReg1 .unused .unused (w.cond == .always)
  | .endAct w => w.checkBare .unused .unused .unused
  | .yield w => w.checkBare .unused .unused .unused
  | .abort w => w.checkBare .unused .unused .unused
  | .halt w => w.checkBare .unused .unused .unused
  | .trap w => w.check .unused .unused (w.imm.toNat < 16)
  | .arm w => w.checkBare .unused .scalarSrc .unused
  | .mask w => w.checkBare .scalarDst .scalarSrc .scalarSrc
  | .mfs w => w.check { a := .unused, b := .unused, fn := selectorOk w.fn }
  | .mts w => w.check { d := .unused, b := .unused, fn := selectorOk w.fn }
  | .fence w => w.check .unused .unused .unused [.b] (w.scope != .rsv) (w.disp == 0)
  | .order w => w.check .outPort .scalarSrc .unused [.b] (w.scope != .rsv) (w.disp == 0)
  | .mld w => w.checkDev (if w.size == .v then .vecDst else .scalarDst) .unused [.b, .h, .w, .d, .v]
  | .mst w => w.checkDev .unused (if w.size == .v then .vecSrc else .scalarSrc) [.b, .h, .w, .d, .v]
  | .mldw w => w.checkDev .scalarDst .unused [.d]
  | .mldc w => w.checkDev .scalarDst .unused [.d]
  | .mstf w => w.checkDev .unused .scalarSrc [.d]
  | .mstx w => w.checkDev .unused .scalarSrc [.d]
  | .mtage w => w.checkDev .unused .unused [.d]
  | .mtagq w => w.checkDev .scalarDst .unused [.d]
  | .matom w => w.check { fn := atomFnOk w.fn false }
  | .mcas w => w.check { c := .scalarSrc, fn := atomFnOk w.fn true }
  | .tld w => w.checkLocal (if w.size == .v then .vecDst else .scalarDst) .unused [.d, .v]
  | .tst w => w.checkLocal .unused (if w.size == .v then .vecSrc else .scalarSrc) [.d, .v]
  | .scopy w => w.check .scalarSrc .scalarSrc (engineModOk 0xB0 w.mod)
  | .sgath w => w.check .scalarSrc .scalarSrc (engineModOk 0xB1 w.mod)
  | .sscat w => w.check .scalarSrc .scalarSrc (engineModOk 0xB2 w.mod)
  | .sred w => w.check .scalarSrc .scalarSrc (engineModOk 0xB3 w.mod)
  | .scomp w => w.check .scalarSrc .scalarSrc (engineModOk 0xB4 w.mod)
  | .sexp w => w.check .scalarSrc .scalarSrc (engineModOk 0xB5 w.mod)
  | .agstart w => w.check .scalarSrc .unused (engineModOk 0xB6 w.mod)
  | .agstop w => w.check .unused .unused (engineModOk 0xB7 w.mod)
  | .agqry w => w.check .unused .scalarSrc (engineModOk 0xB8 w.mod)
  | .darm w => w.check .scalarSrc .scalarSrc (engineModOk 0xB9 w.mod)
  | .dpost w => w.check .scalarSrc .scalarSrc (engineModOk 0xBA w.mod)
  | .wcvt w => w.check .scalarSrc .unused (engineModOk 0xBB w.mod)
  | .mma w => w.check .scalarSrc .scalarSrc (matrixModOk 0xC0 w.mod)
  | .mldb w => w.check .scalarSrc .unused (matrixModOk 0xC1 w.mod)
  | .mscale w => w.check .scalarSrc .scalarSrc (matrixModOk 0xC2 w.mod)
  | .maclr w => w.check .scalarSrc .unused (matrixModOk 0xC3 w.mod)
  | .msto w => w.check .scalarSrc .unused (matrixModOk 0xC4 w.mod)
  | .mrda w => w.check .scalarSrc .unused (matrixModOk 0xC5 w.mod)
  | .mswap w => w.check .unused .unused (matrixModOk 0xC6 w.mod)
  | .mqry w => w.check .unused .scalarSrc (matrixModOk 0xC7 w.mod)
  | .mslot w => w.check .unused .unused (matrixModOk 0xC8 w.mod)
  | .mfence w => w.check .unused .unused (matrixModOk 0xC9 w.mod)
  | .handlerDispatch _ => none
  | .stallAbort _ => none
  | .markRemoval _ _ _ => none
  | .trappedClear _ _ => none
  | .haltedClear _ _ => none
  | .windowWriteApply _ _ _ _ => none
  | .fenableClear _ _ => none
  | .routeAdvance => none
  | .boundaryArrival _ _ => none
  | .creditReturn _ _ => none
  | .busDelivery _ _ => none
  | .ingressAccept _ _ => none
  | .fquietSet _ _ => none
  | .swapDue _ => none
  | .slotBoundary _ => none
  | .rggeomWrite _ _ => none
  | .rgnewWrite _ _ => none
  | .resizeComplete _ => none
  | .portRegisterWrite _ _ _ _ => none
  | .rateUpdate _ _ _ => none
  | .lqdoorPush _ _ _ => none
  | .lqctlCancel _ _ => none
  | .entrySelect _ => none
  | .loadStart _ _ => none
  | .loadFrame _ _ => none
  | .waveArrival _ _ => none
  | .loadPass _ => none
  | .completionWordStore _ => none
  | .seedtPush _ _ _ => none
  | .seedFlush _ _ => none
  | .freewWrite _ _ => none
  | .freewApply _ => none
  | .requestLeave _ _ => none
  | .breakwaterAccept _ => none
  | .lockstepTimeout _ => none
  | .homeAccess _ => none
  | .reexamination _ => none
  | .rgmoorWrite _ _ => none
  | .mooringFormatDone _ => none
  | .budgetExpiry _ => none
  | .mccanCancel _ _ => none
  | .requestReply _ => none
  | .watchWake _ => none
  | .asyncTrap _ => none
  | .fifoPush _ _ => none
  | .fifoPop _ _ => none
  | .lineInput _ _ => none
  | .regulatorGrant _ _ => none
  | .rgtrrWrite _ _ => none
  | .tableWalkComplete _ => none
  | .migrationTimeout _ => none
  | .rearm _ => none
  | .trcmdInvalidateRange _ _ => none
  | .trcmdInvalidateAsid _ _ => none
  | .trcmdWake _ _ => none
  | .trcmdComplete _ => none
  | .pinQuery _ _ => none
  | .malformedCommandToken _ _ => none
  | .nullCommandToken _ _ => none
  | .scopyCommand _ _ => none
  | .sgathCommand _ _ => none
  | .sscatCommand _ _ => none
  | .sredCommand _ _ => none
  | .scompCommand _ _ => none
  | .sexpCommand _ _ => none
  | .agstartCommand _ _ => none
  | .agstopCommand _ _ => none
  | .agqryCommand _ _ => none
  | .darmCommand _ _ => none
  | .dpostCommand _ _ => none
  | .wcvtCommand _ _ => none
  | .commandStart _ _ _ => none
  | .readWalkElement _ _ _ => none
  | .writeWalkElement _ _ _ => none
  | .sparseSlotIssue _ => none
  | .permitArrival _ _ _ => none
  | .doneArrival _ _ _ => none
  | .commandCompletion _ => none
  | .nodeLaunch _ _ => none
  | .malformedMatrixToken _ _ => none
  | .nullMatrixToken _ _ => none
  | .mmaCommand _ _ => none
  | .mldbCommand _ _ => none
  | .mscaleCommand _ _ => none
  | .maclrCommand _ _ => none
  | .mstoCommand _ _ => none
  | .mrdaCommand _ _ => none
  | .mswapCommand _ _ => none
  | .mqryCommand _ _ => none
  | .mslotCommand _ _ => none
  | .mfenceCommand _ _ => none
  | .matrixCommandStart _ _ _ => none
  | .rowStage _ _ => none
  | .operandBurstTake _ _ _ => none
  | .rowFire _ => none
  | .rowEffect _ => none
  | .resultBurst _ => none
  | .matrixCompletion _ => none
  | .strikeReport _ _ => none
  | .rollbackRestore _ => none
  | .replayStart _ => none
  | .tideInject _ => none
  | .tideTake _ _ => none
  | .drainTake _ _ => none
  | .reachClose _ => none
  | .reachCommit _ => none
  | .timedCommit _ => none
  | .tideControlWrite _ _ => none
  | .stopClear _ => none
  | .preemptSave _ _ => none
  | .autoSaveStart _ => none
  | .saveStop _ => none
  | .drainInject _ => none
  | .saveImageWrite _ => none
  | .saveCommit _ => none
  | .preemptRestore _ _ => none
  | .freezeStop _ => none
  | .freezeRelease _ => none
  | .noticeRead _ => none
  | .devtimeBroadcast => none
  | .devtimeStep => none
  | .powerExchange => none
  | .powerMessageReceipt _ => none
  | .powerResend _ => none
  | .hostRead _ _ _ => none
  | .hostWrite _ _ _ _ _ => none
  | .fronthaulFrameReceive _ _ => none
  | .ttDataFrameReceive _ _ => none
  | .ttAckReceive _ _ => none
  | .hostRingFrameReceive _ _ => none
  | .ttSend _ _ => none
  | .ttRetransmit _ _ => none
  | .fronthaulEgress _ _ _ => none
  | .txdoorWrite _ _ _ => none
  | .txComplete _ _ => none
  | .rgtenWrite _ _ => none
  | .monitorSample _ _ _ => none
  | .deviceReset _ => none
  | .spdmRequest _ => none
  | .resync _ => none
  | .resyncComplete => none
  | .triggerEval _ => none
  | .cutStart _ _ => none
  | .cutHeld _ => none
  | .cutRelease _ => none
  | .debugAccess _ _ => none
  | .registerWrite _ _ => none
  | .illegalOpcode _ => none
  | .supplyDroop _ _ => none
  | .frequencyLockChange _ => none
  | .mccanComplete _ => none
  | .pinQueryComplete _ => none
  | .debugAccessComplete _ => none
  | .delayLineArrival _ _ => none

/-- The tile that a step of another agent names lies in the fabric, and is of the kind that has the step (R3); the bytes of a
push and the rate of a bucket keep to their registers. -/
def Instr.argsOk : Instr → Bool
  | .add _ => true
  | .addi _ => true
  | .sub _ => true
  | .mul _ => true
  | .muli _ => true
  | .mulh _ => true
  | .mulhu _ => true
  | .div _ => true
  | .divu _ => true
  | .rem _ => true
  | .remu _ => true
  | .and _ => true
  | .andi _ => true
  | .or _ => true
  | .ori _ => true
  | .xor _ => true
  | .xori _ => true
  | .andn _ => true
  | .shl _ => true
  | .shli _ => true
  | .shr _ => true
  | .shri _ => true
  | .sra _ => true
  | .srai _ => true
  | .rotl _ => true
  | .clz _ => true
  | .ctz _ => true
  | .popc _ => true
  | .bswap _ => true
  | .bext _ => true
  | .bins _ => true
  | .min _ => true
  | .max _ => true
  | .minu _ => true
  | .maxu _ => true
  | .cmp _ => true
  | .cmpi _ => true
  | .sel _ => true
  | .limm _ => true
  | .lea _ => true
  | .chash _ => true
  | .fadd _ => true
  | .fsub _ => true
  | .fmul _ => true
  | .ffma _ => true
  | .fdiv _ => true
  | .fsqrt _ => true
  | .fmin _ => true
  | .fmax _ => true
  | .fcmp _ => true
  | .fcvt _ => true
  | .frsqe _ => true
  | .frcpe _ => true
  | .vadd _ => true
  | .vsub _ => true
  | .vmul _ => true
  | .vfma _ => true
  | .vmin _ => true
  | .vmax _ => true
  | .vabsmax _ => true
  | .vred _ => true
  | .vscan _ => true
  | .vdot _ => true
  | .viadd _ => true
  | .visub _ => true
  | .vimul _ => true
  | .vand _ => true
  | .vor _ => true
  | .vxor _ => true
  | .vshl _ => true
  | .vshr _ => true
  | .vsra _ => true
  | .vpopc _ => true
  | .vcmp _ => true
  | .vicmp _ => true
  | .vsel _ => true
  | .vsplat _ => true
  | .vperm _ => true
  | .vextr _ => true
  | .vins _ => true
  | .vcvt _ => true
  | .vcvts _ => true
  | .vpack _ => true
  | .vunpk _ => true
  | .vrsqe _ => true
  | .vrcpe _ => true
  | .vcmul _ => true
  | .vcmac _ => true
  | .vconj _ => true
  | .vbfly _ => true
  | .ld _ => true
  | .st _ => true
  | .ldv _ => true
  | .stv _ => true
  | .ldw _ => true
  | .ldc _ => true
  | .stf _ => true
  | .stx _ => true
  | .tage _ => true
  | .tagq _ => true
  | .send _ => true
  | .sendn _ => true
  | .sende _ => true
  | .sendh _ => true
  | .sendt _ => true
  | .recv _ => true
  | .peek _ => true
  | .tagr _ => true
  | .drop _ => true
  | .fwd _ => true
  | .br _ => true
  | .brc _ => true
  | .call _ => true
  | .ret _ => true
  | .loop _ => true
  | .endAct _ => true
  | .yield _ => true
  | .abort _ => true
  | .halt _ => true
  | .trap _ => true
  | .arm _ => true
  | .mask _ => true
  | .mfs _ => true
  | .mts _ => true
  | .fence _ => true
  | .order _ => true
  | .mld _ => true
  | .mst _ => true
  | .mldw _ => true
  | .mldc _ => true
  | .mstf _ => true
  | .mstx _ => true
  | .mtage _ => true
  | .mtagq _ => true
  | .matom _ => true
  | .mcas _ => true
  | .tld _ => true
  | .tst _ => true
  | .scopy _ => true
  | .sgath _ => true
  | .sscat _ => true
  | .sred _ => true
  | .scomp _ => true
  | .sexp _ => true
  | .agstart _ => true
  | .agstop _ => true
  | .agqry _ => true
  | .darm _ => true
  | .dpost _ => true
  | .wcvt _ => true
  | .mma _ => true
  | .mldb _ => true
  | .mscale _ => true
  | .maclr _ => true
  | .msto _ => true
  | .mrda _ => true
  | .mswap _ => true
  | .mqry _ => true
  | .mslot _ => true
  | .mfence _ => true
  | .handlerDispatch t => t.inFabric && t.isCT
  | .stallAbort t => t.inFabric && t.isCT
  | .markRemoval t _ _ => t.inFabric
  | .trappedClear t _ => t.inFabric && t.isCT
  | .haltedClear t _ => t.inFabric && t.isCT
  | .windowWriteApply t _ _ _ => t.inFabric && t.isCT
  | .fenableClear t _ => t.inFabric && t.isCT
  | .routeAdvance => true
  | .boundaryArrival t _ => t.inFabric
  | .creditReturn t _ => t.inFabric
  | .busDelivery _ _ => true
  | .ingressAccept _ _ => true
  | .fquietSet _ _ => true
  | .swapDue _ => true
  | .slotBoundary _ => true
  | .rggeomWrite _ _ => true
  | .rgnewWrite _ _ => true
  | .resizeComplete _ => true
  | .portRegisterWrite _ _ _ _ => true
  | .rateUpdate _ _ _ => true
  | .lqdoorPush _ _ _ => true
  | .lqctlCancel _ _ => true
  | .entrySelect _ => true
  | .loadStart _ _ => true
  | .loadFrame _ _ => true
  | .waveArrival _ _ => true
  | .loadPass _ => true
  | .completionWordStore _ => true
  | .seedtPush _ _ _ => true
  | .seedFlush _ _ => true
  | .freewWrite _ _ => true
  | .freewApply _ => true
  | .requestLeave t _ => t.inFabric && t.isCT
  | .breakwaterAccept _ => true
  | .lockstepTimeout _ => true
  | .homeAccess _ => true
  | .reexamination _ => true
  | .rgmoorWrite _ _ => true
  | .mooringFormatDone _ => true
  | .budgetExpiry _ => true
  | .mccanCancel _ _ => true
  | .requestReply _ => true
  | .watchWake _ => true
  | .asyncTrap _ => true
  | .fifoPush t _ => t.inFabric && !t.isCT
  | .fifoPop t _ => t.inFabric && !t.isCT
  | .lineInput t _ => t.inFabric && !t.isCT
  | .regulatorGrant _ _ => true
  | .rgtrrWrite _ _ => true
  | .tableWalkComplete _ => true
  | .migrationTimeout _ => true
  | .rearm _ => true
  | .trcmdInvalidateRange _ _ => true
  | .trcmdInvalidateAsid _ _ => true
  | .trcmdWake _ _ => true
  | .trcmdComplete _ => true
  | .pinQuery _ _ => true
  | .malformedCommandToken t _ => t.inFabric && !t.isCT
  | .nullCommandToken t _ => t.inFabric && !t.isCT
  | .scopyCommand t _ => t.inFabric && !t.isCT
  | .sgathCommand t _ => t.inFabric && !t.isCT
  | .sscatCommand t _ => t.inFabric && !t.isCT
  | .sredCommand t _ => t.inFabric && !t.isCT
  | .scompCommand t _ => t.inFabric && !t.isCT
  | .sexpCommand t _ => t.inFabric && !t.isCT
  | .agstartCommand t _ => t.inFabric && !t.isCT
  | .agstopCommand t _ => t.inFabric && !t.isCT
  | .agqryCommand t _ => t.inFabric && !t.isCT
  | .darmCommand t _ => t.inFabric && !t.isCT
  | .dpostCommand t _ => t.inFabric && !t.isCT
  | .wcvtCommand t _ => t.inFabric && !t.isCT
  | .commandStart t _ _ => t.inFabric && !t.isCT
  | .readWalkElement t _ _ => t.inFabric && !t.isCT
  | .writeWalkElement t _ _ => t.inFabric && !t.isCT
  | .sparseSlotIssue t => t.inFabric && !t.isCT
  | .permitArrival t _ _ => t.inFabric && !t.isCT
  | .doneArrival t _ _ => t.inFabric && !t.isCT
  | .commandCompletion t => t.inFabric && !t.isCT
  | .nodeLaunch t _ => t.inFabric && !t.isCT
  | .malformedMatrixToken t _ => t.inFabric && !t.isCT
  | .nullMatrixToken t _ => t.inFabric && !t.isCT
  | .mmaCommand t _ => t.inFabric && !t.isCT
  | .mldbCommand t _ => t.inFabric && !t.isCT
  | .mscaleCommand t _ => t.inFabric && !t.isCT
  | .maclrCommand t _ => t.inFabric && !t.isCT
  | .mstoCommand t _ => t.inFabric && !t.isCT
  | .mrdaCommand t _ => t.inFabric && !t.isCT
  | .mswapCommand t _ => t.inFabric && !t.isCT
  | .mqryCommand t _ => t.inFabric && !t.isCT
  | .mslotCommand t _ => t.inFabric && !t.isCT
  | .mfenceCommand t _ => t.inFabric && !t.isCT
  | .matrixCommandStart t _ _ => t.inFabric && !t.isCT
  | .rowStage t _ => t.inFabric && !t.isCT
  | .operandBurstTake t _ _ => t.inFabric && !t.isCT
  | .rowFire t => t.inFabric && !t.isCT
  | .rowEffect t => t.inFabric && !t.isCT
  | .resultBurst t => t.inFabric && !t.isCT
  | .matrixCompletion t => t.inFabric && !t.isCT
  | .strikeReport _ _ => true
  | .rollbackRestore _ => true
  | .replayStart _ => true
  | .tideInject _ => true
  | .tideTake t _ => t.inFabric
  | .drainTake t _ => t.inFabric
  | .reachClose _ => true
  | .reachCommit _ => true
  | .timedCommit _ => true
  | .tideControlWrite _ _ => true
  | .stopClear _ => true
  | .preemptSave _ _ => true
  | .autoSaveStart _ => true
  | .saveStop _ => true
  | .drainInject _ => true
  | .saveImageWrite _ => true
  | .saveCommit _ => true
  | .preemptRestore _ _ => true
  | .freezeStop _ => true
  | .freezeRelease _ => true
  | .noticeRead _ => true
  | .devtimeBroadcast => true
  | .devtimeStep => true
  | .powerExchange => true
  | .powerMessageReceipt _ => true
  | .powerResend _ => true
  | .hostRead _ _ _ => true
  | .hostWrite _ _ _ _ _ => true
  | .fronthaulFrameReceive _ _ => true
  | .ttDataFrameReceive _ _ => true
  | .ttAckReceive _ _ => true
  | .hostRingFrameReceive _ _ => true
  | .ttSend _ _ => true
  | .ttRetransmit _ _ => true
  | .fronthaulEgress _ _ _ => true
  | .txdoorWrite _ _ _ => true
  | .txComplete _ _ => true
  | .rgtenWrite _ _ => true
  | .monitorSample _ _ _ => true
  | .deviceReset _ => true
  | .spdmRequest _ => true
  | .resync _ => true
  | .resyncComplete => true
  | .triggerEval _ => true
  | .cutStart _ _ => true
  | .cutHeld _ => true
  | .cutRelease _ => true
  | .debugAccess _ _ => true
  | .registerWrite _ _ => true
  | .illegalOpcode _ => true
  | .supplyDroop _ _ => true
  | .frequencyLockChange _ => true
  | .mccanComplete _ => true
  | .pinQueryComplete _ => true
  | .debugAccessComplete _ => true
  | .delayLineArrival _ _ => true

end Sys2Proof
end

