-- ==== Sys2Proof/WellFormed.lean ====
section
/-! DEFINITION. When an instruction is well formed: its fields and operands pass the decode checks of R57, and what a step of
another agent names exists. -/

namespace Sys2Proof

/-- The opcode values that R58 assigns. -/
def opcodeAssigned (op : Nat) : Bool :=
  (0x01 ≤ op && op ≤ 0x0B) || (0x10 ≤ op && op ≤ 0x16) || (0x18 ≤ op && op ≤ 0x1E) || (0x20 ≤ op && op ≤ 0x2F) ||
  (0x30 ≤ op && op ≤ 0x3B) || (0x40 ≤ op && op ≤ 0x49) || (0x50 ≤ op && op ≤ 0x5B) || (0x60 ≤ op && op ≤ 0x6E) ||
  (0x70 ≤ op && op ≤ 0x79) || (0x80 ≤ op && op ≤ 0x89) || (0x90 ≤ op && op ≤ 0x9F) || (0xA0 ≤ op && op ≤ 0xAB) ||
  (0xB0 ≤ op && op ≤ 0xBB) || (0xC0 ≤ op && op ≤ 0xC9)

/-- The constructor that stands for an unassigned opcode holds a word whose opcode R58 does not assign (R60). -/
def Instr.opcodeOk : Instr → Bool
  | .illegalOpcode w => !opcodeAssigned (fld w 56 8)
  | _ => true

/-- A well-formed instruction. -/
def Instr.wf (i : Instr) : Bool := i.check.isNone && i.argsOk && i.opcodeOk

end Sys2Proof
end

