-- ==== Sys2Proof/Decode.lean ====
section
/-! DEFINITION. The decoder, total on any word: an unassigned opcode becomes the illegal-opcode instruction (R60), any other
word is split by its format (R41 to R46, R59) and refused by the cause of its first failed check (R57). After it the encoder,
from the same tables. -/

namespace Sys2Proof

/-- Bits [lo+n-1:lo] of a word as a field. -/
abbrev cut (w : Word) (lo n : Nat) : BitVec n := w.extractLsb' lo n

/-- Bits [55:50] (R41). -/
def Head.ofWord (w : Word) : Head := { gn := w.getLsbD 55, gp := cut w 52 3, pm := .ofBits (cut w 50 2) }
/-- Format R (R42). -/
def RForm.ofWord (w : Word) : RForm :=
  { head := .ofWord w, d := .ofBits (cut w 42 8), a := .ofBits (cut w 34 8), b := .ofBits (cut w 26 8), c := .ofBits (cut w 18 8),
    rnd := .ofBits (cut w 15 3), esz := .ofBits (cut w 12 3), fn := cut w 0 12 }
/-- Format I (R43). -/
def IForm.ofWord (w : Word) : IForm :=
  { head := .ofWord w, d := .ofBits (cut w 42 8), a := .ofBits (cut w 34 8), imm := cut w 0 34 }
/-- Format B (R44). -/
def BForm.ofWord (w : Word) : BForm :=
  { head := .ofWord w, d := .ofBits (cut w 42 8), a := .ofBits (cut w 34 8), b := .ofBits (cut w 26 8), cond := .ofBits (cut w 22 4),
    zero := cut w 11 11, tgt := cut w 0 11 }
/-- Format M (R45). -/
def MForm.ofWord (w : Word) : MForm :=
  { head := .ofWord w, d := .ofBits (cut w 42 8), a := .ofBits (cut w 34 8), b := .ofBits (cut w 26 8), size := .ofBits (cut w 23 3),
    scope := .ofBits (cut w 20 3), disp := cut w 0 20 }
/-- Format E (R46). -/
def EForm.ofWord (w : Word) : EForm :=
  { head := .ofWord w, d := .ofBits (cut w 42 8), a := .ofBits (cut w 34 8), b := .ofBits (cut w 26 8), c := .ofBits (cut w 18 8),
    mod := cut w 0 18 }

/-- The instruction that an opcode and its format give (R58, R59); an unassigned opcode gives illegalOpcode (R60). -/
def splitWord (w : Word) : Instr :=
  match (cut w 56 8).toNat with
  | 0x01 => .add (.ofWord w)
  | 0x02 => .addi (.ofWord w)
  | 0x03 => .sub (.ofWord w)
  | 0x04 => .mul (.ofWord w)
  | 0x05 => .muli (.ofWord w)
  | 0x06 => .mulh (.ofWord w)
  | 0x07 => .mulhu (.ofWord w)
  | 0x08 => .div (.ofWord w)
  | 0x09 => .divu (.ofWord w)
  | 0x0A => .rem (.ofWord w)
  | 0x0B => .remu (.ofWord w)
  | 0x10 => .and (.ofWord w)
  | 0x11 => .andi (.ofWord w)
  | 0x12 => .or (.ofWord w)
  | 0x13 => .ori (.ofWord w)
  | 0x14 => .xor (.ofWord w)
  | 0x15 => .xori (.ofWord w)
  | 0x16 => .andn (.ofWord w)
  | 0x18 => .shl (.ofWord w)
  | 0x19 => .shli (.ofWord w)
  | 0x1A => .shr (.ofWord w)
  | 0x1B => .shri (.ofWord w)
  | 0x1C => .sra (.ofWord w)
  | 0x1D => .srai (.ofWord w)
  | 0x1E => .rotl (.ofWord w)
  | 0x20 => .clz (.ofWord w)
  | 0x21 => .ctz (.ofWord w)
  | 0x22 => .popc (.ofWord w)
  | 0x23 => .bswap (.ofWord w)
  | 0x24 => .bext (.ofWord w)
  | 0x25 => .bins (.ofWord w)
  | 0x26 => .min (.ofWord w)
  | 0x27 => .max (.ofWord w)
  | 0x28 => .minu (.ofWord w)
  | 0x29 => .maxu (.ofWord w)
  | 0x2A => .cmp (.ofWord w)
  | 0x2B => .cmpi (.ofWord w)
  | 0x2C => .sel (.ofWord w)
  | 0x2D => .limm (.ofWord w)
  | 0x2E => .lea (.ofWord w)
  | 0x2F => .chash (.ofWord w)
  | 0x30 => .fadd (.ofWord w)
  | 0x31 => .fsub (.ofWord w)
  | 0x32 => .fmul (.ofWord w)
  | 0x33 => .ffma (.ofWord w)
  | 0x34 => .fdiv (.ofWord w)
  | 0x35 => .fsqrt (.ofWord w)
  | 0x36 => .fmin (.ofWord w)
  | 0x37 => .fmax (.ofWord w)
  | 0x38 => .fcmp (.ofWord w)
  | 0x39 => .fcvt (.ofWord w)
  | 0x3A => .frsqe (.ofWord w)
  | 0x3B => .frcpe (.ofWord w)
  | 0x40 => .vadd (.ofWord w)
  | 0x41 => .vsub (.ofWord w)
  | 0x42 => .vmul (.ofWord w)
  | 0x43 => .vfma (.ofWord w)
  | 0x44 => .vmin (.ofWord w)
  | 0x45 => .vmax (.ofWord w)
  | 0x46 => .vabsmax (.ofWord w)
  | 0x47 => .vred (.ofWord w)
  | 0x48 => .vscan (.ofWord w)
  | 0x49 => .vdot (.ofWord w)
  | 0x50 => .viadd (.ofWord w)
  | 0x51 => .visub (.ofWord w)
  | 0x52 => .vimul (.ofWord w)
  | 0x53 => .vand (.ofWord w)
  | 0x54 => .vor (.ofWord w)
  | 0x55 => .vxor (.ofWord w)
  | 0x56 => .vshl (.ofWord w)
  | 0x57 => .vshr (.ofWord w)
  | 0x58 => .vsra (.ofWord w)
  | 0x59 => .vcmp (.ofWord w)
  | 0x5A => .vicmp (.ofWord w)
  | 0x5B => .vsel (.ofWord w)
  | 0x60 => .vsplat (.ofWord w)
  | 0x61 => .vperm (.ofWord w)
  | 0x62 => .vextr (.ofWord w)
  | 0x63 => .vins (.ofWord w)
  | 0x64 => .vcvt (.ofWord w)
  | 0x65 => .vcvts (.ofWord w)
  | 0x66 => .vpack (.ofWord w)
  | 0x67 => .vunpk (.ofWord w)
  | 0x68 => .vrsqe (.ofWord w)
  | 0x69 => .vrcpe (.ofWord w)
  | 0x6A => .vcmul (.ofWord w)
  | 0x6B => .vcmac (.ofWord w)
  | 0x6C => .vconj (.ofWord w)
  | 0x6D => .vbfly (.ofWord w)
  | 0x6E => .vpopc (.ofWord w)
  | 0x70 => .ld (.ofWord w)
  | 0x71 => .st (.ofWord w)
  | 0x72 => .ldv (.ofWord w)
  | 0x73 => .stv (.ofWord w)
  | 0x74 => .ldw (.ofWord w)
  | 0x75 => .ldc (.ofWord w)
  | 0x76 => .stf (.ofWord w)
  | 0x77 => .stx (.ofWord w)
  | 0x78 => .tage (.ofWord w)
  | 0x79 => .tagq (.ofWord w)
  | 0x80 => .send (.ofWord w)
  | 0x81 => .sendn (.ofWord w)
  | 0x82 => .sende (.ofWord w)
  | 0x83 => .sendh (.ofWord w)
  | 0x84 => .sendt (.ofWord w)
  | 0x85 => .recv (.ofWord w)
  | 0x86 => .peek (.ofWord w)
  | 0x87 => .tagr (.ofWord w)
  | 0x88 => .drop (.ofWord w)
  | 0x89 => .fwd (.ofWord w)
  | 0x90 => .br (.ofWord w)
  | 0x91 => .brc (.ofWord w)
  | 0x92 => .call (.ofWord w)
  | 0x93 => .ret (.ofWord w)
  | 0x94 => .loop (.ofWord w)
  | 0x95 => .endAct (.ofWord w)
  | 0x96 => .yield (.ofWord w)
  | 0x97 => .abort (.ofWord w)
  | 0x98 => .halt (.ofWord w)
  | 0x99 => .trap (.ofWord w)
  | 0x9A => .arm (.ofWord w)
  | 0x9B => .mask (.ofWord w)
  | 0x9C => .mfs (.ofWord w)
  | 0x9D => .mts (.ofWord w)
  | 0x9E => .fence (.ofWord w)
  | 0x9F => .order (.ofWord w)
  | 0xA0 => .mld (.ofWord w)
  | 0xA1 => .mst (.ofWord w)
  | 0xA2 => .mldw (.ofWord w)
  | 0xA3 => .mldc (.ofWord w)
  | 0xA4 => .mstf (.ofWord w)
  | 0xA5 => .mstx (.ofWord w)
  | 0xA6 => .mtage (.ofWord w)
  | 0xA7 => .mtagq (.ofWord w)
  | 0xA8 => .matom (.ofWord w)
  | 0xA9 => .mcas (.ofWord w)
  | 0xAA => .tld (.ofWord w)
  | 0xAB => .tst (.ofWord w)
  | 0xB0 => .scopy (.ofWord w)
  | 0xB1 => .sgath (.ofWord w)
  | 0xB2 => .sscat (.ofWord w)
  | 0xB3 => .sred (.ofWord w)
  | 0xB4 => .scomp (.ofWord w)
  | 0xB5 => .sexp (.ofWord w)
  | 0xB6 => .agstart (.ofWord w)
  | 0xB7 => .agstop (.ofWord w)
  | 0xB8 => .agqry (.ofWord w)
  | 0xB9 => .darm (.ofWord w)
  | 0xBA => .dpost (.ofWord w)
  | 0xBB => .wcvt (.ofWord w)
  | 0xC0 => .mma (.ofWord w)
  | 0xC1 => .mldb (.ofWord w)
  | 0xC2 => .mscale (.ofWord w)
  | 0xC3 => .maclr (.ofWord w)
  | 0xC4 => .msto (.ofWord w)
  | 0xC5 => .mrda (.ofWord w)
  | 0xC6 => .mswap (.ofWord w)
  | 0xC7 => .mqry (.ofWord w)
  | 0xC8 => .mslot (.ofWord w)
  | 0xC9 => .mfence (.ofWord w)
  | _ => .illegalOpcode w

/-- Decoding of one word: the instruction, or the cause of the first check that it fails (R57). -/
def decode (w : Word) : Except DecodeCause Instr :=
  match (splitWord w).check with
  | some c => .error c
  | none => .ok (splitWord w)

/-- The word that eight bytes spell, the first at the lowest address (R4). -/
def wordOfBytes (bs : List Byte) : Word := BitVec.ofNat 64 (ofBytes (bs.take 8))
/-- Decoding of the bytes at an address: the instruction and the bytes after it; fewer than eight bytes hold none. -/
def decodeBytes (bs : List Byte) : Option (Except DecodeCause Instr × List Byte) :=
  if bs.length < 8 then none else some (decode (wordOfBytes bs), bs.drop 8)

/-- The instruction in a word of nbits bits whose upper bits are 0, laid out as bytes and decoded. -/
def decodeTableWord (nbits w : Nat) : Option Instr :=
  if nbits ≤ 64 then
    match decodeBytes (bytesOf 8 (w % 2 ^ nbits)) with
    | some (.ok i, _) => some i
    | _ => none
  else none

/-- Bits [63:34] of every format (R41). -/
def Head.toBits (h : Head) (op : BitVec 8) (d a : Spec) : BitVec 30 :=
  op ++ BitVec.ofBool h.gn ++ h.gp ++ h.pm.toBits ++ d.toBits ++ a.toBits
def RForm.toWord (op : BitVec 8) (w : RForm) : Word :=
  w.head.toBits op w.d w.a ++ w.b.toBits ++ w.c.toBits ++ w.rnd.toBits ++ w.esz.toBits ++ w.fn
def IForm.toWord (op : BitVec 8) (w : IForm) : Word := w.head.toBits op w.d w.a ++ w.imm
def BForm.toWord (op : BitVec 8) (w : BForm) : Word :=
  w.head.toBits op w.d w.a ++ w.b.toBits ++ w.cond.toBits ++ w.zero ++ w.tgt
def MForm.toWord (op : BitVec 8) (w : MForm) : Word :=
  w.head.toBits op w.d w.a ++ w.b.toBits ++ w.size.toBits ++ w.scope.toBits ++ w.disp
def EForm.toWord (op : BitVec 8) (w : EForm) : Word :=
  w.head.toBits op w.d w.a ++ w.b.toBits ++ w.c.toBits ++ w.mod

/-- The word of an instruction (R41 to R46, R58); the steps of the other agents have none. -/
def encode : Instr → Option Word
  | .add w => some (w.toWord 0x01#8)
  | .addi w => some (w.toWord 0x02#8)
  | .sub w => some (w.toWord 0x03#8)
  | .mul w => some (w.toWord 0x04#8)
  | .muli w => some (w.toWord 0x05#8)
  | .mulh w => some (w.toWord 0x06#8)
  | .mulhu w => some (w.toWord 0x07#8)
  | .div w => some (w.toWord 0x08#8)
  | .divu w => some (w.toWord 0x09#8)
  | .rem w => some (w.toWord 0x0A#8)
  | .remu w => some (w.toWord 0x0B#8)
  | .and w => some (w.toWord 0x10#8)
  | .andi w => some (w.toWord 0x11#8)
  | .or w => some (w.toWord 0x12#8)
  | .ori w => some (w.toWord 0x13#8)
  | .xor w => some (w.toWord 0x14#8)
  | .xori w => some (w.toWord 0x15#8)
  | .andn w => some (w.toWord 0x16#8)
  | .shl w => some (w.toWord 0x18#8)
  | .shli w => some (w.toWord 0x19#8)
  | .shr w => some (w.toWord 0x1A#8)
  | .shri w => some (w.toWord 0x1B#8)
  | .sra w => some (w.toWord 0x1C#8)
  | .srai w => some (w.toWord 0x1D#8)
  | .rotl w => some (w.toWord 0x1E#8)
  | .clz w => some (w.toWord 0x20#8)
  | .ctz w => some (w.toWord 0x21#8)
  | .popc w => some (w.toWord 0x22#8)
  | .bswap w => some (w.toWord 0x23#8)
  | .bext w => some (w.toWord 0x24#8)
  | .bins w => some (w.toWord 0x25#8)
  | .min w => some (w.toWord 0x26#8)
  | .max w => some (w.toWord 0x27#8)
  | .minu w => some (w.toWord 0x28#8)
  | .maxu w => some (w.toWord 0x29#8)
  | .cmp w => some (w.toWord 0x2A#8)
  | .cmpi w => some (w.toWord 0x2B#8)
  | .sel w => some (w.toWord 0x2C#8)
  | .limm w => some (w.toWord 0x2D#8)
  | .lea w => some (w.toWord 0x2E#8)
  | .chash w => some (w.toWord 0x2F#8)
  | .fadd w => some (w.toWord 0x30#8)
  | .fsub w => some (w.toWord 0x31#8)
  | .fmul w => some (w.toWord 0x32#8)
  | .ffma w => some (w.toWord 0x33#8)
  | .fdiv w => some (w.toWord 0x34#8)
  | .fsqrt w => some (w.toWord 0x35#8)
  | .fmin w => some (w.toWord 0x36#8)
  | .fmax w => some (w.toWord 0x37#8)
  | .fcmp w => some (w.toWord 0x38#8)
  | .fcvt w => some (w.toWord 0x39#8)
  | .frsqe w => some (w.toWord 0x3A#8)
  | .frcpe w => some (w.toWord 0x3B#8)
  | .vadd w => some (w.toWord 0x40#8)
  | .vsub w => some (w.toWord 0x41#8)
  | .vmul w => some (w.toWord 0x42#8)
  | .vfma w => some (w.toWord 0x43#8)
  | .vmin w => some (w.toWord 0x44#8)
  | .vmax w => some (w.toWord 0x45#8)
  | .vabsmax w => some (w.toWord 0x46#8)
  | .vred w => some (w.toWord 0x47#8)
  | .vscan w => some (w.toWord 0x48#8)
  | .vdot w => some (w.toWord 0x49#8)
  | .viadd w => some (w.toWord 0x50#8)
  | .visub w => some (w.toWord 0x51#8)
  | .vimul w => some (w.toWord 0x52#8)
  | .vand w => some (w.toWord 0x53#8)
  | .vor w => some (w.toWord 0x54#8)
  | .vxor w => some (w.toWord 0x55#8)
  | .vshl w => some (w.toWord 0x56#8)
  | .vshr w => some (w.toWord 0x57#8)
  | .vsra w => some (w.toWord 0x58#8)
  | .vcmp w => some (w.toWord 0x59#8)
  | .vicmp w => some (w.toWord 0x5A#8)
  | .vsel w => some (w.toWord 0x5B#8)
  | .vsplat w => some (w.toWord 0x60#8)
  | .vperm w => some (w.toWord 0x61#8)
  | .vextr w => some (w.toWord 0x62#8)
  | .vins w => some (w.toWord 0x63#8)
  | .vcvt w => some (w.toWord 0x64#8)
  | .vcvts w => some (w.toWord 0x65#8)
  | .vpack w => some (w.toWord 0x66#8)
  | .vunpk w => some (w.toWord 0x67#8)
  | .vrsqe w => some (w.toWord 0x68#8)
  | .vrcpe w => some (w.toWord 0x69#8)
  | .vcmul w => some (w.toWord 0x6A#8)
  | .vcmac w => some (w.toWord 0x6B#8)
  | .vconj w => some (w.toWord 0x6C#8)
  | .vbfly w => some (w.toWord 0x6D#8)
  | .vpopc w => some (w.toWord 0x6E#8)
  | .ld w => some (w.toWord 0x70#8)
  | .st w => some (w.toWord 0x71#8)
  | .ldv w => some (w.toWord 0x72#8)
  | .stv w => some (w.toWord 0x73#8)
  | .ldw w => some (w.toWord 0x74#8)
  | .ldc w => some (w.toWord 0x75#8)
  | .stf w => some (w.toWord 0x76#8)
  | .stx w => some (w.toWord 0x77#8)
  | .tage w => some (w.toWord 0x78#8)
  | .tagq w => some (w.toWord 0x79#8)
  | .send w => some (w.toWord 0x80#8)
  | .sendn w => some (w.toWord 0x81#8)
  | .sende w => some (w.toWord 0x82#8)
  | .sendh w => some (w.toWord 0x83#8)
  | .sendt w => some (w.toWord 0x84#8)
  | .recv w => some (w.toWord 0x85#8)
  | .peek w => some (w.toWord 0x86#8)
  | .tagr w => some (w.toWord 0x87#8)
  | .drop w => some (w.toWord 0x88#8)
  | .fwd w => some (w.toWord 0x89#8)
  | .br w => some (w.toWord 0x90#8)
  | .brc w => some (w.toWord 0x91#8)
  | .call w => some (w.toWord 0x92#8)
  | .ret w => some (w.toWord 0x93#8)
  | .loop w => some (w.toWord 0x94#8)
  | .endAct w => some (w.toWord 0x95#8)
  | .yield w => some (w.toWord 0x96#8)
  | .abort w => some (w.toWord 0x97#8)
  | .halt w => some (w.toWord 0x98#8)
  | .trap w => some (w.toWord 0x99#8)
  | .arm w => some (w.toWord 0x9A#8)
  | .mask w => some (w.toWord 0x9B#8)
  | .mfs w => some (w.toWord 0x9C#8)
  | .mts w => some (w.toWord 0x9D#8)
  | .fence w => some (w.toWord 0x9E#8)
  | .order w => some (w.toWord 0x9F#8)
  | .mld w => some (w.toWord 0xA0#8)
  | .mst w => some (w.toWord 0xA1#8)
  | .mldw w => some (w.toWord 0xA2#8)
  | .mldc w => some (w.toWord 0xA3#8)
  | .mstf w => some (w.toWord 0xA4#8)
  | .mstx w => some (w.toWord 0xA5#8)
  | .mtage w => some (w.toWord 0xA6#8)
  | .mtagq w => some (w.toWord 0xA7#8)
  | .matom w => some (w.toWord 0xA8#8)
  | .mcas w => some (w.toWord 0xA9#8)
  | .tld w => some (w.toWord 0xAA#8)
  | .tst w => some (w.toWord 0xAB#8)
  | .scopy w => some (w.toWord 0xB0#8)
  | .sgath w => some (w.toWord 0xB1#8)
  | .sscat w => some (w.toWord 0xB2#8)
  | .sred w => some (w.toWord 0xB3#8)
  | .scomp w => some (w.toWord 0xB4#8)
  | .sexp w => some (w.toWord 0xB5#8)
  | .agstart w => some (w.toWord 0xB6#8)
  | .agstop w => some (w.toWord 0xB7#8)
  | .agqry w => some (w.toWord 0xB8#8)
  | .darm w => some (w.toWord 0xB9#8)
  | .dpost w => some (w.toWord 0xBA#8)
  | .wcvt w => some (w.toWord 0xBB#8)
  | .mma w => some (w.toWord 0xC0#8)
  | .mldb w => some (w.toWord 0xC1#8)
  | .mscale w => some (w.toWord 0xC2#8)
  | .maclr w => some (w.toWord 0xC3#8)
  | .msto w => some (w.toWord 0xC4#8)
  | .mrda w => some (w.toWord 0xC5#8)
  | .mswap w => some (w.toWord 0xC6#8)
  | .mqry w => some (w.toWord 0xC7#8)
  | .mslot w => some (w.toWord 0xC8#8)
  | .mfence w => some (w.toWord 0xC9#8)
  | .illegalOpcode w => some w
  | .handlerDispatch _ => none
  | .stallAbort _ => none
  | .markRemoval _ _ _ => none
  | .trappedClear _ _ => none
  | .haltedClear _ _ => none
  | .windowWriteApply _ _ _ _ => none
  | .fenableClear _ _ => none
  | .routeAdvance => none
  | .boundaryArrival _ _ => none
  | .creditReturn _ _ => none
  | .busDelivery _ _ => none
  | .ingressAccept _ _ => none
  | .fquietSet _ _ => none
  | .swapDue _ => none
  | .slotBoundary _ => none
  | .rggeomWrite _ _ => none
  | .rgnewWrite _ _ => none
  | .resizeComplete _ => none
  | .portRegisterWrite _ _ _ _ => none
  | .rateUpdate _ _ _ => none
  | .lqdoorPush _ _ _ => none
  | .lqctlCancel _ _ => none
  | .entrySelect _ => none
  | .loadStart _ _ => none
  | .loadFrame _ _ => none
  | .waveArrival _ _ => none
  | .loadPass _ => none
  | .completionWordStore _ => none
  | .seedtPush _ _ _ => none
  | .seedFlush _ _ => none
  | .freewWrite _ _ => none
  | .freewApply _ => none
  | .requestLeave _ _ => none
  | .breakwaterAccept _ => none
  | .lockstepTimeout _ => none
  | .homeAccess _ => none
  | .reexamination _ => none
  | .rgmoorWrite _ _ => none
  | .mooringFormatDone _ => none
  | .budgetExpiry _ => none
  | .mccanCancel _ _ => none
  | .requestReply _ => none
  | .watchWake _ => none
  | .asyncTrap _ => none
  | .fifoPush _ _ => none
  | .fifoPop _ _ => none
  | .lineInput _ _ => none
  | .regulatorGrant _ _ => none
  | .rgtrrWrite _ _ => none
  | .tableWalkComplete _ => none
  | .migrationTimeout _ => none
  | .rearm _ => none
  | .trcmdInvalidateRange _ _ => none
  | .trcmdInvalidateAsid _ _ => none
  | .trcmdWake _ _ => none
  | .trcmdComplete _ => none
  | .pinQuery _ _ => none
  | .malformedCommandToken _ _ => none
  | .nullCommandToken _ _ => none
  | .scopyCommand _ _ => none
  | .sgathCommand _ _ => none
  | .sscatCommand _ _ => none
  | .sredCommand _ _ => none
  | .scompCommand _ _ => none
  | .sexpCommand _ _ => none
  | .agstartCommand _ _ => none
  | .agstopCommand _ _ => none
  | .agqryCommand _ _ => none
  | .darmCommand _ _ => none
  | .dpostCommand _ _ => none
  | .wcvtCommand _ _ => none
  | .commandStart _ _ _ => none
  | .readWalkElement _ _ _ => none
  | .writeWalkElement _ _ _ => none
  | .sparseSlotIssue _ => none
  | .permitArrival _ _ _ => none
  | .doneArrival _ _ _ => none
  | .commandCompletion _ => none
  | .nodeLaunch _ _ => none
  | .malformedMatrixToken _ _ => none
  | .nullMatrixToken _ _ => none
  | .mmaCommand _ _ => none
  | .mldbCommand _ _ => none
  | .mscaleCommand _ _ => none
  | .maclrCommand _ _ => none
  | .mstoCommand _ _ => none
  | .mrdaCommand _ _ => none
  | .mswapCommand _ _ => none
  | .mqryCommand _ _ => none
  | .mslotCommand _ _ => none
  | .mfenceCommand _ _ => none
  | .matrixCommandStart _ _ _ => none
  | .rowStage _ _ => none
  | .operandBurstTake _ _ _ => none
  | .rowFire _ => none
  | .rowEffect _ => none
  | .resultBurst _ => none
  | .matrixCompletion _ => none
  | .strikeReport _ _ => none
  | .rollbackRestore _ => none
  | .replayStart _ => none
  | .tideInject _ => none
  | .tideTake _ _ => none
  | .drainTake _ _ => none
  | .reachClose _ => none
  | .reachCommit _ => none
  | .timedCommit _ => none
  | .tideControlWrite _ _ => none
  | .stopClear _ => none
  | .preemptSave _ _ => none
  | .autoSaveStart _ => none
  | .saveStop _ => none
  | .drainInject _ => none
  | .saveImageWrite _ => none
  | .saveCommit _ => none
  | .preemptRestore _ _ => none
  | .freezeStop _ => none
  | .freezeRelease _ => none
  | .noticeRead _ => none
  | .devtimeBroadcast => none
  | .devtimeStep => none
  | .powerExchange => none
  | .powerMessageReceipt _ => none
  | .powerResend _ => none
  | .hostRead _ _ _ => none
  | .hostWrite _ _ _ _ _ => none
  | .fronthaulFrameReceive _ _ => none
  | .ttDataFrameReceive _ _ => none
  | .ttAckReceive _ _ => none
  | .hostRingFrameReceive _ _ => none
  | .ttSend _ _ => none
  | .ttRetransmit _ _ => none
  | .fronthaulEgress _ _ _ => none
  | .txdoorWrite _ _ _ => none
  | .txComplete _ _ => none
  | .rgtenWrite _ _ => none
  | .monitorSample _ _ _ => none
  | .deviceReset _ => none
  | .spdmRequest _ => none
  | .resync _ => none
  | .resyncComplete => none
  | .triggerEval _ => none
  | .cutStart _ _ => none
  | .cutHeld _ => none
  | .cutRelease _ => none
  | .debugAccess _ _ => none
  | .registerWrite _ _ => none
  | .supplyDroop _ _ => none
  | .frequencyLockChange _ => none
  | .mccanComplete _ => none
  | .pinQueryComplete _ => none
  | .debugAccessComplete _ => none
  | .delayLineArrival _ _ => none

/-- The instruction is an element's: it has a word. -/
def Instr.isWord (i : Instr) : Bool := (encode i).isSome

end Sys2Proof
end

