-- ==== Sys2Proof/Machine/State.lean ====
section
/-! DEFINITION. The state of the E9 as plain data: everything the spec gives the machine, and State.reset. Tiles, route entries and
register files of which most are at reset are kept as lists of (key, value) in rising order of key; a key that is not listed
reads as the reset value. Software-visible registers are words with the spec's bit layout; what lives only inside the machine
is typed data. -/

namespace Sys2Proof.Machine

/-- Why the machine stops with a fault. -/
inductive Fault where
  /-- The tile whose issue slot is worked is no compute tile of the fabric, so there is no element to execute the instruction
  (R3, R8). Raised by every meaning of an element's instruction; safe: no such tile exists. -/
  | noElement
  deriving DecidableEq, Repr

/-- Why the machine has no next state to give. -/
inductive Refusal where
  /-- The instruction has no meaning in the model. Raised by the arms of exec only; safe. -/
  | notModelled (mnemonic : String)
  /-- An element's instruction is executed where no activation is in progress (R26: only an activation issues instructions).
  Raised by every meaning of an element's instruction; safe: the hardware never does so. -/
  | noActivation
  deriving DecidableEq, Repr

/-- A list of (key, value) in rising order of key. -/
abbrev Tab (α : Type) := List (Nat × α)

/-! Tokens -/

/-- A token (R16): payload, and the tag with facet [7:6], kind [5:4], pred [3], head [2], tail [1], poison [0]. -/
structure Token where
  payload : Word
  tag : Byte
  deriving DecidableEq, Repr

/-- A token in a queue, with the cycle in which it entered: it is offered from the next cycle (R20, R156). A token that passed an egress
site before its reach has committed names its region and reach until another region accepts it (R380, R381). -/
structure QTok where
  tok : Token
  entered : Nat
  org : Option (Nat × Nat) := none
  deriving DecidableEq, Repr

/-- A token in an output queue: it leaves once every request named in wait is performed at the scope beside it (R124, R244). -/
structure OTok where
  tok : Token
  entered : Nat
  wait : List (Nat × Scope)
  deriving DecidableEq, Repr

/-! Memory -/

/-- All memory of the machine in one address space: physical addresses as R255 maps them (HBM, MT window), local data memories
from 2^52, host and peer memory from 2^56 (log 2). Bytes that are 0 are not listed (log 3). -/
structure Memory where
  cells : List Host.Cell      -- bytes, addresses strictly rising, none 0
  full : List Nat             -- words (byte address div 8) whose tag is full, strictly rising
  poison : List Nat           -- words that are poisoned (R208, R214, R382), strictly rising
  gl : Tab Nat                -- GL code of the bursts (byte address div 32) whose code is not 0b00 (R214)
  bad : Tab Nat               -- what is wrong with stored bits: the pattern of the flipped bits of each unit that has any (R214, R215)
  deriving DecidableEq, Repr

/-! Requests to device memory -/

/-- Who made a request. -/
inductive Source where
  | elem (t : Tile) (f : Facet) (h : Fin 64) (pc : Nat)      -- an element's activation (R228)
  | engine (t : Tile) (f : Facet) (cmd : Nat)                -- a command of a stream engine (R282)
  | sparse (t : Tile) (f : Facet) (cmd : Nat) (slot : Nat)   -- the sparse-update unit (R316)
  | matrix (t : Tile) (f : Facet) (cmd : Nat)                -- a command of a matrix unit (R328)
  | save (r : RegionId)                                      -- the save or restore of a context (R390)
  deriving DecidableEq, Repr

/-- What a home answers (R228 to R231). -/
inductive Reply where
  | data (v : Nat) (poison : Bool)      -- the value read, and whether it is poisoned
  | truth (b : Bool)                    -- a tag
  | wait (watch : Nat)                  -- need not met: a watch is placed (R229)
  | refused                             -- a held word or no free hold register (R230)
  | cause (code : Nat)                  -- returned with a cause (R364)
  deriving DecidableEq, Repr

/-- Where a request stands. -/
inductive Stage where
  | queued                              -- in the outbound queue of its facet (R241)
  | travelling                          -- on the request network
  | regulated                           -- waits at its controller (R441)
  | slot                                -- deferred in a slot of the home bank (R220)
  | listed                              -- deferred in the mooring list (R221)
  | accepted                            -- breakwater class: accepted by the breakwater (R239)
  | atHome                              -- performed at its home; its reach has not committed (R240)
  | replied (r : Reply)                 -- performed or refused; the reply is on its way
  deriving DecidableEq, Repr

/-- A request to device memory (R218, R228, R241). -/
structure Req where
  id : Nat
  src : Source
  form : Nat                            -- code of R218
  op : Nat := 0                         -- operation of MATOM (R233)
  cas : Bool := false
  confirm : Bool := false               -- the confirm of a hold (R230)
  loc : Word                            -- the location L or the offset, as HADDR holds it
  addr : Nat                            -- physical address of the first byte
  size : Nat
  data : Nat := 0                       -- store data, atomic operand or comparand
  data2 : Nat := 0                      -- second operand of MCAS
  tmode : Nat := 0                      -- tag mode of a copy write (R225)
  srcTag : Bool := false
  poison : Bool := false
  scope : Scope := .act
  region : Option RegionId
  die : DieId                           -- die of the issuer
  facet : Facet
  reach : Nat
  budget : Nat := 0                     -- retry budget in microseconds (R223)
  fe : Bool := true                     -- full/empty enforcement of the page (R218)
  sync : Bool := false                  -- synchronisation tracking (R259)
  qcls : Nat := 0
  gl : Nat := 0
  cls : Nat := 0                        -- regulator class REG (R441)
  wait : List (Nat × Scope) := []       -- FENCE and release conditions (R243, R244)
  overlay : List (Nat × Byte) := []     -- bytes of own buffered and queued stores, by offset (R228, R241)
  own : Option Bool := none             -- tag as the activation's own buffered changes leave it (R228)
  newTag : Option Bool := none          -- tag that a confirm leaves, when the form changes it (R230)
  released : Bool := false              -- a breakwater store that is written at its home after its reach's commit
  cover : Nat := 0xFF                   -- bytes of its word that a filling store writes (R313)
  pairPath : Bool := false              -- a TST, over the pair path (R232)
  timed : Bool := false                 -- accepted or performed while no tide ran (R386)
  granted : Bool := false               -- its regulator has charged it (R441)
  idx : Nat := 0                        -- index of its entry in the mooring list (R221)
  idx2 : Nat := 0                       -- index of the second, linked entry of an MCAS (R222)
  parked : Bool := false                -- it waits at its home for room for a shadow, and later requests wait behind it (R250)
  due : Nat := 0                        -- device time by which a return whose budget ran out is delivered (R223); 0: no bound
  arrived : Nat := 0                    -- device time of arrival at the home or the regulator; at the home, cycle of the access
  order : Nat := 0                      -- order in which it left its queue, or arrived at the home
  stage : Stage := .queued
  deriving DecidableEq, Repr

/-- A word held by an activation (R230). Memory keeps its pre-access content; the new one stands in the confirm request. -/
structure Hold where
  tile : Tile
  facet : Facet
  word : Nat
  deriving DecidableEq, Repr

/-! The element (chapter 1) -/

/-- A predicate register: scalar bit and lane mask (R8). -/
structure PReg where
  scalar : Bool
  mask : BitVec 16
  deriving DecidableEq, Repr

/-- One register bank (R8). -/
structure Bank where
  g : Vector Word 64
  v : Vector Vec 32
  p : Vector PReg 8
  deriving DecidableEq, Repr

def Bank.reset : Bank :=
  { g := Vector.replicate 64 0, v := Vector.replicate 32 0, p := Vector.replicate 8 ⟨false, 0⟩ }

/-- A handler-table entry and its run-time state (R22). -/
structure Handler where
  entry : BitVec 32
  arm : Bool
  retry : Nat
  moored : Bool
  age : Nat
  deriving DecidableEq, Repr

def Handler.reset : Handler := ⟨0, false, 0, false, 0⟩

/-- What a send buffers (R29): port, token, and what it waits for after the commit (R124, R244). -/
structure SendEnt where
  port : Fin 16
  tok : Token
  wait : List (Nat × Scope)
  deriving DecidableEq, Repr

/-- An entry of the store commit buffer (R30): a local store, a device request (R228), or a hold (R230). -/
inductive StoreEnt where
  | loc (cells : List Host.Cell) (tag : Option (Nat × Bool))   -- physical bytes written; word and its new tag
  | dev (r : Req)
  | hold (r : Req)
  deriving DecidableEq, Repr

/-- What the instruction in issue waits for beyond its ports. -/
inductive ActWait where
  | none
  | walk (id : Nat)                                                 -- a table walk (R266)
  | reply (id : Nat) (d : Spec) (mask : BitVec 16) (truth : Bool)   -- the reply of a load or tag query (R228)
  deriving DecidableEq, Repr

/-- The activation in progress (R27 to R33). -/
structure Act where
  facet : Facet
  handler : Fin 64
  pc : Word
  bank : Bank
  raised : BitVec 6                  -- sticky flags raised (R28)
  cleared : BitVec 6                 -- sticky flags that MTS cleared
  rmode : BitVec 2
  masks : Word
  prio : Option (BitVec 3)           -- written by MTS PRIO
  taken : Vector Nat 16              -- tokens consumed from each port
  sends : List SendEnt
  stores : List StoreEnt
  arms : List (BitVec 6)
  bursts : BitVec 16                 -- ports with an open burst (R148)
  fences : List (List Nat × Scope)   -- FENCEs so far, with the requests before each (R244)
  reqs : List Nat                    -- device requests so far
  stalled : Nat                      -- consecutive cycles without issue because of a port (R33)
  busy : Nat                         -- further cycles of the instruction in issue (R97)
  wait : ActWait
  deriving DecidableEq, Repr

/-- A local mooring entry (R35): address of a local or device word, facet, handler, awaited state; device entries name the watch. -/
structure Moor where
  word : Nat
  facet : Facet
  handler : Fin 64
  awaitFull : Bool
  watch : Option Nat
  deriving DecidableEq, Repr

/-- One entry of an undo log (R373): the word, its bytes, tag and poison before the first change of the reach. -/
structure Undo where
  facet : Facet
  reach : Nat
  word : Nat
  val : Nat
  full : Bool
  poison : Bool
  deriving DecidableEq, Repr

/-- Snapshot n of an element's facet (R372). -/
structure ElSnap where
  tide : Nat
  bank : Bank
  hstat : Word
  rmode : BitVec 2
  masks : Word
  handlers : Vector Handler 64
  moors : List Moor
  record : List (Nat × Token)         -- channel record: back port and token, oldest first (R371)
  deriving DecidableEq, Repr

/-- What an element holds for one facet (R8, R12, R20, R22). -/
structure FacetEl where
  bank : Bank
  hstat : Word
  hcause : Word
  haddr : Word
  actbase : BitVec 16
  actlim : BitVec 17
  isbase : BitVec 11
  islim : BitVec 12
  rmode : BitVec 2
  masks : Word
  handlers : Vector Handler 64
  inq : Vector (List QTok) 16
  outbound : List Nat                 -- requests in the outbound queue, oldest first (R241)
  writes : List (WinReg × Word)       -- supervisor writes that wait for the end of an activation (R40)
  fresh : Nat × BitVec 6              -- the cycle of the last commit, and the sticky flags that it raised (R85)
  snaps : List ElSnap                 -- committed and pending snapshot, oldest first (R372)
  recording : BitVec 16               -- back ports that are recorded for the newest snapshot (R371)
  reach : Nat                         -- the tide taken last: the reach that runs (R374)
  held : Bool                         -- a drain or a debug cut holds the facet (R390, R448)
  framed : Bool                       -- a window frame of the placement has come (R392)
  deriving DecidableEq, Repr

def FacetEl.reset : FacetEl :=
  { bank := Bank.reset, hstat := 0, hcause := 0, haddr := 0, actbase := 0, actlim := 0x10000, isbase := 0, islim := 0x800,
    rmode := 0, masks := 0, handlers := Vector.replicate 64 Handler.reset, inq := Vector.replicate 16 [], outbound := [],
    writes := [], fresh := (0, 0), snaps := [], recording := 0, reach := 0, held := false, framed := false }

/-- The processing element of a compute tile. -/
structure Element where
  fenable : BitVec 4
  curFacet : Facet                    -- special register FACET (R12)
  facets : Vector FacetEl 4
  istore : Tab Word                   -- words of the instruction store that are not 0
  rot : Vector (BitVec 8) 8           -- rotation pointers (R24)
  moors : List Moor                   -- local mooring list (R35)
  outq : Vector (List OTok) 16
  drained : Vector Nat 16             -- the cycle after the one in which each output queue last let a token go (R150)
  undo : List Undo                    -- undo log, newest first (R373)
  act : Option Act
  deriving DecidableEq, Repr

def Element.reset : Element :=
  { fenable := 0, curFacet := 0, facets := Vector.replicate 4 FacetEl.reset, istore := [], rot := Vector.replicate 8 0, moors := [],
    outq := Vector.replicate 16 [], drained := Vector.replicate 16 0, undo := [], act := none }

/-! The fabric (chapter 6) -/

/-- Where a token stands that may move in this cycle. -/
inductive Place where
  | hop (t : Tile) (e : Nat)
  | outq (t : Tile) (p : Fin 16)
  | site (r : RegionId) (p : Nat)      -- a token that a site itself holds: replay, mark, upcall, seed, or from an I/O die
  | egOut (r : RegionId) (p : Nat)     -- a released token at an egress site
  deriving DecidableEq, Repr

/-- Resources that serve one requester per cycle, and their requesters that wait, by numbers (R159, R208, R219): the resources used in
this cycle, the requesters that have waited since an earlier cycle, longest first, and those that have asked in vain in this one. -/
structure Turns where
  used : List Nat
  old : Tab (List Nat)
  asked : Tab (List Nat)
  deriving DecidableEq, Repr

/-- An error that storage takes: flipped bits of a unit of memory, an uncorrectable error of a structure of a tile's facet, or one
in a snapshot (R214, R215, R372, R382). -/
inductive Upset where
  | flips (unit : Nat) (pattern : Nat)
  | structure_ (t : Tile) (f : Facet) (code : BitVec 32)
  | snapshot (t : Tile) (f : Facet)
  deriving DecidableEq, Repr

/-- A hop: the tokens that it offers, in order, with the cycle in which each entered; on a die boundary also the tokens still on
the link with the cycle in which they arrive, and the cycles in which credits return (R156, R157). -/
structure Hop where
  buf : List QTok
  flight : List QTok
  returning : List Nat
  last : Nat                        -- the cycle after the one in which it last accepted a token (R152)
  deriving DecidableEq, Repr

def Hop.empty : Hop := ⟨[], [], [], 0⟩

/-- The switchbox of a tile: route entries of each facet, identifiers of each facet (none: logical x and y), hops of entries
0 to 31 (R153, R159). -/
structure Switchbox where
  routes : Vector (Tab (BitVec 16)) 4
  cidrid : Vector (Option (BitVec 16)) 4
  hops : Tab Hop
  deriving DecidableEq, Repr

def Switchbox.reset : Switchbox := { routes := Vector.replicate 4 [], cidrid := Vector.replicate 4 none, hops := [] }

/-- A token on a broadcast bus, or waiting for it (R159). -/
structure BusTok where
  tok : Token
  bid : Byte
  bmask : Byte
  at_ : Nat
  rg : Option Nat                   -- the region whose walk drives it (R295)
  deriving DecidableEq, Repr

/-! Configuration and launch (chapter 7) -/

/-- Where a load stands. -/
inductive LoadPhase where
  | frames                                    -- loaders take frames
  | wave (e : Nat)                            -- the wave runs since cycle e (R196)
  deriving DecidableEq, Repr

/-- What one die's loader has done of a load (R193). -/
structure DieLoad where
  die : DieId
  started : Bool
  frames : List (BitVec 256)       -- frames taken so far, oldest first
  passed : Bool
  deriving DecidableEq, Repr

/-- A completion word that a loader is to store (R197): address, word, target facet, and the cycle from which it is due. -/
structure CwStore where
  va : Nat
  word : Word
  facet : Facet
  due : Nat
  held : Option Nat := none        -- device time since which its walk holds on MLOCK (R269)
  deriving DecidableEq, Repr

/-- A load in progress (R194). -/
structure Load where
  entry : BitVec 512
  idx : Nat                        -- place of the entry in the queue
  facet : Facet
  dies : List DieLoad
  phase : LoadPhase
  restore : Bool                   -- made by a restore (R394)
  deriving DecidableEq, Repr

/-! Translation (chapter 11) -/

/-- A resident leaf as an edge TLB or an extent keeps it: the leaf word, its virtual base, and log2 of its size (R259). -/
structure Leaf where
  asid : Nat
  va : Nat
  bits : Nat
  word : Word
  deriving DecidableEq, Repr

/-- What a walk serves, to be retried when the walk ends. -/
inductive WalkFor where
  | elem (t : Tile)
  | gen (t : Tile) (f : Facet) (g : Fin 4)
  | engine (t : Tile) (f : Facet)
  deriving DecidableEq, Repr

/-- A table walk in progress or held on MLOCK (R262, R269). -/
structure Walk where
  id : Nat
  region : RegionId
  die : DieId
  facet : Facet
  va : Nat
  need : Nat                       -- permissions needed: bit 0 R, bit 1 W, bit 2 A (R260)
  for_ : WalkFor
  result : Option Nat              -- a refusal that its engine has not yet taken
  held : Option Nat                -- device time since which it holds on MLOCK
  deriving DecidableEq, Repr

/-- A page whose upcall is not delivered yet (R267, R270). -/
structure Upcall where
  vpn : Nat
  kind : Nat
  aff : Nat
  deriving DecidableEq, Repr

/-! Traps, tides and pre-emption (chapter 17) -/

/-- A notice (R365). -/
structure Notice where
  code : Nat
  facet : Facet
  x : Nat
  y : Nat
  region : Nat
  async : Bool
  detail : BitVec 32
  deriving DecidableEq, Repr

/-- What an entry of a breakwater holds (R378). -/
inductive BwKind where
  | store (req : Nat) (addr : Nat) (bytes : List Byte) (gl cls : Nat) (poison : Bool)  -- a breakwater-class store
  | launch (req : Nat) (off : Nat) (bytes : List Byte)                             -- a store to the launch page (R464)
  | sys (req : Nat) (addr : Nat) (bytes : List Byte) (poison : Bool)                 -- a write to host or peer memory (R252)
  | shadow (word : Nat) (val : Nat) (full : Bool) (poison : Bool)                  -- content before the reach's first access (R250)
  | replay (port : Nat) (tok : Token)                                              -- a replay token or mark of a site (R383)
  | egress (port : Nat) (tok : Token)                                              -- a quarantined token (R380)
  deriving DecidableEq, Repr

/-- An entry of a die's breakwater: region, reach, and the cycle in which it was accepted. -/
structure BwEntry where
  seq : Nat                             -- order of acceptance
  region : RegionId
  reach : Nat
  at_ : Nat
  units : Nat                           -- entries of 16 bytes that it takes
  timed : Bool                          -- accepted while no tide ran: it commits by R386
  going : Bool := false                 -- its reach has committed, and a held word keeps it from its home (R230, R249)
  kind : BwKind
  deriving DecidableEq, Repr

/-- A reach that has not committed (R374): its closing cycle, and its conservation sums by facet (R375). -/
structure Reach where
  n : Nat
  closed : Option Nat
  sums : Tab Int
  live : BitVec 4 := 0xF           -- the facets that were live when its tide was injected (R414)
  deriving DecidableEq, Repr

/-- What a rollback or a stop does and when it is done (R383, R385, R386). -/
structure Rollback where
  cycle : Nat                      -- trigger cycle
  stop : Bool
  restored : Bool                  -- step 2 is done
  deriving DecidableEq, Repr

/-- An item of a lockstep facet to be compared (R388): the primary's tile and facet, what it is, and the cycle in which it came.
A device request is its form, address, size and data; an egress token is kind 1, its port, tag and payload. -/
structure LockItem where
  tile : Nat
  facet : Facet
  kind : Nat
  code : Nat
  addr : Nat
  size : Nat
  data : Nat
  data2 : Nat := 0
  op : Nat := 0                    -- operation, order and scope of a request
  cycle : Nat
  deriving DecidableEq, Repr

/-- A wake, or a return with a cause, of a request that a primary has given up: the mirror receives it in cycle due (R388). -/
structure LockEvent where
  tile : Nat
  facet : Facet
  id : Nat                         -- the request, as a mooring entry names it
  cause : Option Nat               -- none for a wake
  handler : Nat
  pc : Nat
  loc : Word
  due : Nat
  deriving DecidableEq, Repr

/-- Steps of a save or a restore (R390, R394). -/
structure Preempt where
  restore : Bool
  facet : Facet
  started : Nat
  drained : List (Nat × Nat)       -- egress ports that have passed the drain
  blocks : List (DieId × Nat × List Byte × Bool)  -- image blocks still to be written: die, offset in the image, bytes, poison
  size : Nat                       -- bytes of the image
  saved : List (Tile × Nat × QTok) -- tokens moved to the image: tile, place of R393, token
  lastAt : Nat                     -- cycle in which the last image write was accepted
  forced : Option Nat              -- tide forced at the end (R390, step 5)
  deriving DecidableEq, Repr

/-- Control frames of a facet (R377). -/
structure TideCfg where
  lock : Bool
  consen : Bool
  tol : Nat
  backPorts : List (Nat × Nat)     -- tile (column and row of the region as key) and port mask
  weights : List (Nat × Int)       -- conservation: port 0 to 127, weight
  deriving DecidableEq, Repr

def TideCfg.none : TideCfg := ⟨false, false, 0, [], []⟩

/-! The memory tile (chapters 9, 13) -/

/-- The mode frame of an MT facet (R184, R209). -/
structure MtMode where
  mode : Nat
  nbuf : Nat
  mbase : Nat
  msize : Nat
  bufw : Nat
  deriving DecidableEq, Repr

/-- An extent of a generator (R263): first VA, length in bytes, and the leaf that gives its first PA and attributes. -/
structure Extent where
  va : Nat
  len : Nat
  pa : Nat
  word : Word
  deriving DecidableEq, Repr

/-- Run state of a generator (R299). -/
inductive GenRun where
  | idle | running | waiting | stopping
  deriving DecidableEq, Repr

/-- An address generator: the three frames (R186), extents (R263), run state (R299) and the permit exchange (R301). -/
structure Gen where
  cfg : Vector (Option (BitVec 192)) 3
  children : List (Nat × Nat)       -- tile key and generator of each child
  extents : List Extent
  slot : Nat                        -- extent slot replaced next (R264)
  run : GenRun
  wr : Bool
  spos : Nat
  outer : Nat                       -- first outer iteration still to be permitted to children
  permits : List Nat                -- permits kept, oldest first
  dones : List (Nat × Nat)          -- tile key and generator of a child with the dones it returned
  comingPermits : List (Nat × Nat)  -- permits under way: the cycle of arrival and the iteration
  comingDones : List (Nat × Nat × Nat) -- dones under way: the cycle of arrival, and the child
  paused : Bool                     -- an invalidation pauses it (R273)
  deriving DecidableEq, Repr

def Gen.reset : Gen :=
  { cfg := Vector.replicate 3 none, children := [], extents := [], slot := 0, run := .idle, wr := false, spos := 0, outer := 0,
    permits := [], dones := [], comingPermits := [], comingDones := [], paused := false }

/-- A slot of the sparse-update unit (R316): the row, or none for a row of nulls; the places of its indices in the index stream; the
values to write; and the reads that it waits for once issued. -/
structure Slot where
  row : Option Nat
  ords : List Nat
  vals : List Token
  issued : Bool
  reqs : List Nat
  deriving DecidableEq, Repr

/-- A command of a stream engine, buffered or running (R282, R287). -/
structure Cmd where
  id : Nat
  op : Nat
  mod : BitVec 18
  av : BitVec 32
  bv : BitVec 6
  node : Option (Fin 32)            -- the node it was parked in
  started : Bool
  pos : Nat                         -- ordinal of the next element, index or tile element
  posw : Nat                        -- one more than the buffer in use (R298), or tokens of the tile in work (R318, R319)
  last : Nat                        -- first ordinal past the end, or the stop point
  buf : List Token                  -- tokens taken and not yet used, or read and not yet sent
  reqs : List Nat                   -- requests issued and not yet settled
  reads : List Nat                  -- reads of the element in work, in word order
  cur : Option Word                 -- an index whose row is not yet entered (R310)
  slots : List Slot                 -- window (R316)
  cache : List (Nat × List Token)   -- row cache, newest first (R316)
  taken : Nat                       -- indices taken
  res : Nat                         -- RES
  status : Nat
  draining : Bool                   -- its input stream has ended, or it only drains it (R311, R320)
  done : Bool                       -- no further access is made
  deriving DecidableEq, Repr

/-- A completion token that waits for its accesses (R289). -/
structure Completion where
  facet : Facet
  tok : Token
  scope : Scope
  reqs : List Nat
  deriving DecidableEq, Repr

/-- A node of the dependence table (R322). -/
structure DepNode where
  count : Int
  armed : Bool
  compute : Bool
  failed : Bool
  parked : Option Token
  owner : Option Facet
  deriving DecidableEq, Repr

def DepNode.free : DepNode := ⟨0, false, false, false, none, none⟩

/-- A stationary buffer of a matrix unit (R329): 32 columns of bytes, scales, format code, MX bit, LOADED and poison. -/
structure BBuf where
  cols : List (Nat × Nat)           -- data of each column and its scale bytes
  fmt : Nat
  mx : Bool
  loaded : Bool
  poison : Bool
  deriving DecidableEq, Repr

def BBuf.empty : BBuf := ⟨[], 0, false, false, false⟩

/-- A row of an accumulator bank: 32 words of 32 bits and the poison bit (R329). -/
structure AccRow where
  words : BitVec 1024
  poison : Bool
  deriving DecidableEq, Repr

/-- A matrix command, buffered or running (R329, R333). -/
structure MxCmd where
  id : Nat
  op : Nat
  mod : BitVec 18
  av : BitVec 32
  bv : BitVec 6
  accPhys : Fin 2                   -- physical bank resolved at take
  bufPhys : Fin 2                   -- physical buffer resolved at take
  sigma : Nat                       -- captured at take; RES of an MSLOT
  taken : Nat                       -- microsecond of the take (R345)
  started : Bool
  phase : Nat                       -- 0 before its tag wait, 1 in it, 2 past it, 3 its release is issued (R334, R342)
  read : Nat                        -- rows or columns read
  fired : Nat
  effect : Nat                      -- rows in effect, or sent on mo7
  poisoned : Nat
  burst : List Token                -- tokens of an operand burst taken so far
  reqs : List Nat
  status : Nat
  done : Bool
  deriving DecidableEq, Repr

/-- An A row that is present (R334, R335), with its data, scale bytes and poison. -/
structure ARow where
  cmd : Nat
  k : Nat
  data : Nat
  scale : Nat
  poison : Bool
  deriving DecidableEq, Repr

/-- A fired row on its way through the array (R337, R338), and the cycle in which it fired. -/
structure FiredRow where
  facet : Facet
  row : ARow
  cycle : Nat
  deriving DecidableEq, Repr

/-- Matrix unit state of a facet (R329). -/
structure MxFacet where
  b : Vector BBuf 2
  acc : Vector (Tab AccRow) 2
  sc : Vector (BitVec 32) 8
  amap : Bool
  bmap : Bool
  cmds : List MxCmd
  staged : List ARow
  quick : List Token                -- commands taken in this cycle that act in the next (R331)
  dropA : Bool                      -- mi7 is discarded up to the next tail (R335)
  dropB : Bool                      -- mi8 is discarded up to the next tail
  deriving DecidableEq, Repr

def MxFacet.reset : MxFacet :=
  { b := Vector.replicate 2 BBuf.empty, acc := Vector.replicate 2 [], sc := Vector.replicate 8 0x3F800000, amap := false,
    bmap := false, cmds := [], staged := [], quick := [], dropA := false, dropB := false }

/-- Snapshot n of an MT's facet (R372). -/
structure MtSnap where
  tide : Nat
  gens : Vector Gen 4
  cmds : List Cmd
  nodes : List (Nat × DepNode)
  wp : Nat
  rp : Nat
  mx : MxFacet
  pending : List (Bool × Completion)
  quick : List Token
  record : List (Nat × Token)
  deriving DecidableEq, Repr

/-- What an MT holds for one facet. -/
structure MtFacet where
  mode : Option MtMode
  wp : Nat
  rp : Nat
  gens : Vector Gen 4
  inq : Vector (List QTok) 16
  cmds : List Cmd
  quick : List Token                  -- commands taken in this cycle that act in the next (R286)
  mx : MxFacet
  snaps : List MtSnap
  recording : BitVec 16
  reach : Nat
  held : Bool
  framed : Bool                       -- a frame of the placement has named the MT (R392)
  deriving DecidableEq, Repr

def MtFacet.reset : MtFacet :=
  { mode := none, wp := 0, rp := 0, gens := Vector.replicate 4 Gen.reset, inq := Vector.replicate 16 [], cmds := [], quick := [],
    mx := MxFacet.reset, snaps := [], recording := 0, reach := 0, held := false, framed := false }

/-- A memory tile: facets, output queues, completions on their way, dependence table, fired rows, undo log. -/
structure MemTile where
  facets : Vector MtFacet 4
  outq : Vector (List OTok) 16
  drained : Vector Nat 16             -- as in an element
  pend4 : List Completion
  pend6 : List Completion
  nodes : Vector DepNode 32
  fired : List FiredRow
  takePtr : Facet                   -- facet served first by the command unit (R286)
  mxTake : Facet                    -- facet whose matrix command is taken first (R333)
  mxPtr : Facet                     -- facet whose row fired last (R337)
  undo : List Undo
  deriving DecidableEq, Repr

def MemTile.reset : MemTile :=
  { facets := Vector.replicate 4 MtFacet.reset, outq := Vector.replicate 16 [], drained := Vector.replicate 16 0, pend4 := [], pend6 := [],
    nodes := Vector.replicate 32 DepNode.free, fired := [], takePtr := 0, mxTake := 0, mxPtr := 3, undo := [] }

/-! Debug (chapter 21) -/

/-- A match on its way to the trigger: DTRIG bit, and the cycle in which it arrives (R447). -/
structure DbgMatch where
  bitNo : Nat
  due : Nat
  deriving DecidableEq, Repr

/-! Regions -/

/-- Everything a region holds: register words as R165 to R444 lay them out, and what its controllers keep. -/
structure Region where
  geom : Word
  new_ : Word
  ctl : Word
  stat : Word
  ing : Tab Word
  egr : Tab Word
  bucket : Tab Word
  credit : Tab Nat                  -- bucket credit of each ingress port (R169)
  swaptm : Tab Word
  swapfc : Tab Word
  slottb : Tab Word
  swapped : List DieId              -- dies that have consumed the head swap entry already (R424)
  quiet : Vector Nat 4              -- cycles in which each facet has been quiet (R163)
  resize : Option Facet             -- the facet that a resize gives up (R180)
  queue : List (BitVec 512)         -- placement queue, oldest first (R190)
  lqstat : Word
  load : Option Load
  cw : List CwStore                 -- completion words not yet stored, oldest first
  handle : Tab (BitVec 512)         -- entry that loaded each facet (R389, R392)
  seeds : Tab (List Token)          -- seed FIFO of each port (R198)
  seedd : Tab Word
  seedst : Tab Word
  seedTurn : Tab Bool               -- the next token of the port is a seed (R198)
  since : Tab Nat                   -- the first cycle in which each site has offered what it itself offers now (R181)
  upcallQ : Tab (List Token)        -- upcall FIFO of each port (R270)
  moor : Word
  mlen : Word
  mbud : Word
  trr : Word
  pgr : Word
  upcalls : List Upcall             -- upcalls not delivered yet
  faulted : List Nat                -- pages that have faulted since the rollback began (R267)
  tide : Word
  tidestat : Word
  dueTide : Bool                    -- a tide is due and not injected (R369)
  reaches : List Reach              -- reaches not committed, oldest first
  siteMarks : Tab (List Token)      -- marks that enter at a site ahead of its next token (R369)
  egOut : Tab (List QTok)           -- released tokens that stand at an egress site towards a region (R380)
  marks : List (Nat × Nat × Nat)    -- facet, egress port and tide of the marks that have passed
  rollback : Option Rollback
  replay : Tab (List Token)         -- tokens that each port still replays (R383)
  hopSnap : List (Nat × Nat × QTok) -- tokens that a restore put into hops, as part of its snapshots: the last tide of these, the hop as
                                    -- 32 times the tile's key plus the entry, the token (R394)
  exq : Word
  ctx : Word
  prectl : Word
  preempt : Option Preempt
  tideCfg : Vector TideCfg 4
  delay : Tab (List QTok)           -- delay line of each port of a lockstep facet (R387)
  lockPrim : List LockItem          -- primary items that wait for their mirror item (R388)
  lockMirror : List LockItem        -- mirror items that wait for the primary's
  lockReplies : List (Nat × Facet × Reply × Nat)  -- replies of a primary tile, and the cycle in which the mirror receives them
  lockAsync : List LockEvent        -- wakes and returns on their way to mirrors
  notices : List Notice
  nstat : Word
  ten : Word
  hur : Word
  hup : Word
  counters : Vector Word 4          -- ingress tokens, egress tokens, reaches, rollbacks (R442)
  dwpctl : Tab Word
  dwpval : Tab Word
  dtbsel : Tab Word
  dtbord : Tab Word
  dtbcnt : Tab Word
  dtrig : Word
  dtwin : Word
  dcut : Word
  dbgadr : Word
  dbgdat : Word
  phs : Word
  phc : Tab Word
  matches_ : List DbgMatch
  freeze : Option Nat               -- trigger cycle of a freeze (R396)
  latched : List (Option DieId × Nat) -- reports latched during a freeze
  cutFac : Facet                    -- the facet that the cut in progress stops (R448)
  cutMarks : List Nat               -- egress ports that the debug mark has passed (R448)
  deriving DecidableEq, Repr

/-- A region after reset; RGCTL.FQUIET is 0xF, RGMBUD all ones, tide control REPMAX 3 and TNEXT 1. -/
def Region.reset : Region :=
  { geom := 0, new_ := 0, ctl := 0xF00, stat := 0, ing := [], egr := [], bucket := [], credit := [], swaptm := [], swapfc := [],
    slottb := [], swapped := [], quiet := Vector.replicate 4 32, resize := none, queue := [], lqstat := 0, load := none, cw := [], handle := [],
    seeds := [], seedd := [], seedst := [], seedTurn := [], since := [], upcallQ := [], moor := 0, mlen := 0, mbud := 0x0000FFFFFFFFFFFF,
    trr := 0, pgr := 0, upcalls := [], faulted := [], tide := 0x10060, tidestat := 0, dueTide := false,
    reaches := [⟨0, none, [], 0xF⟩], siteMarks := [], egOut := [], marks := [], rollback := none, replay := [], hopSnap := [], exq := 0, ctx := 0, prectl := 0,
    preempt := none, tideCfg := Vector.replicate 4 TideCfg.none, delay := [], lockPrim := [], lockMirror := [], lockReplies := [], lockAsync := [], notices := [], nstat := 0, ten := 0,
    hur := 0, hup := 0, counters := Vector.replicate 4 0, dwpctl := [], dwpval := [], dtbsel := [], dtbord := [], dtbcnt := [],
    dtrig := 0, dtwin := 0, dcut := 0, dbgadr := 0, dbgdat := 0, phs := 0, phc := [], matches_ := [], freeze := none,
    latched := [], cutFac := 0, cutMarks := [] }

/-! Dies and links (chapters 20, 22) -/

/-- A message of the power exchange (R426): number, sender, receiver, units, and the cycle in which it was sent. -/
structure PowerMsg where
  id : Nat
  src : DieId
  dst : DieId
  units : Nat
  sent : Nat
  repay : Bool                      -- it repays a loan
  received : Bool                   -- applied; the acknowledgement is awaited
  deriving DecidableEq, Repr

/-- A compute die. -/
structure Die where
  time : Nat                        -- device time in nanoseconds (R170)
  prev : Nat                        -- device time at the start of the cycle before
  slot : Nat                        -- the slot of R173 that the die is in
  frac : Nat                        -- what lies beyond it, as IoDie.phcFrac
  stretched : List Nat              -- cycles stretched of the last 1,024 (R421)
  stretch3 : Nat                    -- thirds of a nanosecond by which the present cycle is longer
  lag : Nat                         -- thirds of a nanosecond by which its cycles have slipped behind the nominal ones (R421)
  idle : Bool                       -- it has slipped a whole period: it has no cycle of its own in this one
  rowBus : Tab (List BusTok)
  colBus : Tab (List BusTok)
  freew : Option (BitVec 256)
  freest : Word
  loader : Option RegionId          -- region in service (R193)
  loadPtr : Nat                     -- region number served next
  tookAt : Nat                      -- one more than the cycle in which its loader last took a frame (R193)
  trcmd : Word
  mccan : Word
  mcpq : Word
  pinSample : Bool                  -- the sample of a pin query in progress (R274)
  notices : List Notice
  nstat : Word
  tlb : List Leaf                   -- edge TLB, most recently used first (R265)
  bw : List BwEntry                 -- breakwater, oldest first (R378)
  bwLow : Bool                      -- its free space has fallen below 1 MiB and has not been above it since (R378)
  regcfg : Tab Word
  regCredit : Tab Nat               -- credit missing of each class, in 1/1,000 bytes (R441)
  bytesRead : Tab Word
  bytesWritten : Tab Word
  waitNs : Tab Word
  corrected : Nat                   -- corrected errors (R216)
  dpwr : Word
  loans : List (DieId × Nat)        -- units owed to each lender, oldest first (R426)
  hmon : Word
  deriving DecidableEq, Repr

/-- A die after reset; DPWR as seeded at boot (R425): HOLD and SEED 532, FLOOR 400, LEND 1; TWARN 540 (R456). -/
def Die.reset : Die :=
  { time := 0, prev := 0, slot := 0, frac := 0, stretched := [], stretch3 := 0, lag := 0, idle := false, rowBus := [], colBus := [], freew := none, freest := 0, loader := none,
    loadPtr := 0, tookAt := 0, trcmd := 0, mccan := 0, mcpq := 0, pinSample := false, notices := [], nstat := 0, tlb := [], bw := [], bwLow := false, regcfg := [], regCredit := [],
    bytesRead := [], bytesWritten := [], waitNs := [], corrected := 0, dpwr := 0x1000190214214, loans := [],
    hmon := 0x21C0000000 }

/-- A frame of a transport stream that is not acknowledged: SEQ, tokens, and device time when it was sent (R439). -/
structure TtFrame where
  seq : Word
  toks : List Token
  sent : Nat
  port : Nat                        -- the egress port whose template it carries
  deriving DecidableEq, Repr

/-- The sender of one egress port (R439). -/
structure TtSend where
  next : Word
  unacked : List TtFrame
  rst : Bool
  deriving DecidableEq, Repr

/-- A frame that left a port of an I/O die, or an interrupt or a write that left a link. -/
inductive LinkOut where
  | frame (io : Fin 2) (port : Fin 2) (bytes : List Byte)
  | msix (link : Fin 2) (vector : Nat)
  | hostWrite (io : Fin 2) (addr : Word) (bytes : List Byte) (poison : Bool) (coherent relaxed : Bool)
  | spdm (bytes : List Byte)
  | completion (data : List Byte) (poison : Bool)
  | abort
  deriving DecidableEq, Repr

/-- An I/O die (0 west, 1 east). -/
structure IoDie where
  phc : Word                        -- the PTP hardware clock in nanoseconds (R423)
  phcFrac : Nat                     -- what lies beyond it, in units of 1 / 196,608,000,000 ns (log 13)
  bar4 : Tab Byte                   -- bytes of BAR4 that have been written (R429)
  haper : Word
  lctl : Word
  hlerr : Word
  hdenyb : Word
  syswin : Tab Word                 -- word k of window w at key 2w + k
  hring : Tab Word                  -- word k of port q at key 2q + k
  txq : Tab (List Nat)              -- transmit slots queued at port q (R436)
  txprod : Tab Nat                  -- the slot queued next, modulo the ring
  flow : Tab Word
  template : Tab Word               -- word k of template j at key 4j + k
  ttmap : Tab Word                  -- word k of entry q at key 2q + k
  ttself : Word
  tts : Tab TtSend                  -- senders of streams, by the number of the first egress port that serves them
  ttr : List (Nat × Nat × Nat × Nat × Word)  -- receivers: source device, DST, REGION, INGP, SEQ expected
  edge : Tab Hop                    -- edge hop of the link towards each ingress site, by 64 r + p (R152, R157, R420)
  inbox : Tab (List Token)          -- tokens that wait at ingress sites on the fabric edge, by 64 r + p (R437)
  outbox : Tab (List Token)         -- committed tokens of egress sites on the fabric edge, by 64 r + p (R438)
  deriving DecidableEq, Repr

def IoDie.reset : IoDie :=
  { phc := 0, phcFrac := 0, bar4 := [], haper := 0, lctl := 0, hlerr := 0, hdenyb := 0, syswin := [], hring := [], txq := [], txprod := [], flow := [],
    template := [], ttmap := [], ttself := 0, tts := [], ttr := [], edge := [], inbox := [], outbox := [] }

/-- The module: boot, mailbox, measurements (chapter 22). -/
structure Module where
  strmap : Word
  dtctl : Word
  dtstep : Word
  stepDue : Bool                    -- DTCTL.STEP has been written and no broadcast has come since (R424)
  lastCast : Nat                    -- the value of the last broadcast, in units of 64 ns (R423)
  bootstat : Word
  mbcmd : Word
  mbstat : Word
  mbdata : Tab Word                 -- 64 words
  resyncSeq : Word
  resyncAt : Option Nat             -- cycle in which the RESYNC in progress samples its first word
  measured : List (BitVec 384)      -- measurements 1 to 4 (R455)
  tripped : Bool                    -- a thermal trip has reset the module (R457)
  deriving DecidableEq, Repr

/-- The module as the fuses leave it: HPOS 8 and XBYP 0, SVN 0 (log 4); BOOTSTAT.SLOT is 0b11. -/
def Module.reset : Module :=
  { strmap := 8, dtctl := 0, dtstep := 0, stepDue := false, lastCast := 0, bootstat := 3, mbcmd := 0, mbstat := 0, mbdata := [], resyncSeq := 0, resyncAt := none,
    measured := [], tripped := false }

/-- A member of a clasp: region and reach (R381). -/
abbrev Clasp := List (Nat × Nat)

/-- Work still to be done in this cycle (log 1). -/
inductive Work where
  | issue (t : Tile)                -- the issue slot of an element
  | command (t : Tile) (f : Facet)  -- the head token of mi4 (R286)
  | matrix (t : Tile) (f : Facet)   -- the head token of mi6 (R330)
  | quick (t : Tile) (f : Facet)    -- a stream command that was taken in an earlier cycle and acts in this one (R286)
  | mxQuick (t : Tile) (f : Facet)  -- such a command of the matrix unit (R331)
  | event (i : Instr)
  deriving DecidableEq, Repr

/-- The E9. -/
structure State where
  elements : Tab Element            -- by Tile.key; a tile not listed is at reset
  switches : Tab Switchbox
  mts : Tab MemTile
  regions : Vector Region 32
  dies : Vector Die 8
  ios : Vector IoDie 2
  modul : Module
  clasps : List Clasp
  mem : Memory
  holds : List Hold
  reexam : List Nat                 -- words whose deferred requests are re-examined, rising (R220)
  reqs : List Req                   -- requests that are not yet performed everywhere, oldest first
  walks : List Walk
  power : List PowerMsg
  out : List LinkOut                -- what left the links, newest first
  answer : Word                     -- what the last register read returned
  moved : List Place                -- places that have let a token go, or accepted one, in this cycle (R156)
  turns : Turns                     -- banks, words and buses and those that wait for them (R159, R208, R219)
  upsets : List Upset               -- errors of storage not yet applied, from outside the machine
  cycle : Nat                       -- fabric cycles since reset
  agenda : List Work                -- work left in this cycle (log 1)
  inbox : List Instr                -- what the outside world does, not yet applied (log 1)
  cur : Tile                        -- the tile whose issue slot is worked (log 1)
  free : Nat                        -- counter behind the free values (log 6)
  nextId : Nat                      -- next request identifier
  deriving DecidableEq, Repr

def Memory.empty : Memory := ⟨[], [], [], [], []⟩

/-- The machine right after reset. -/
def State.reset : State :=
  { elements := [], switches := [], mts := [], regions := Vector.replicate 32 Region.reset, dies := Vector.replicate 8 Die.reset,
    ios := Vector.replicate 2 IoDie.reset, modul := Module.reset, clasps := [], mem := Memory.empty, holds := [], reexam := [], reqs := [],
    walks := [], power := [], out := [], answer := 0, moved := [], turns := ⟨[], [], []⟩, upsets := [], cycle := 0, agenda := [], inbox := [], cur := ⟨0, 0⟩, free := 0,
    nextId := 0 }

/-- What every meaning answers. -/
abbrev Out := Host.Outcome State Fault Refusal

end Sys2Proof.Machine
end

