-- ==== Sys2Proof/Machine/Ops.lean ====
section
/-! DEFINITION. The named operations over tables, memory, tokens and registers, the causes and notices (R363 to R365), and taking a
trap (R38), clearing it (R39), aborting (R32) and committing (R31) an activation. -/

namespace Sys2Proof.Machine

/-! Tables -/

/-- The value at a key, or the default. -/
def tget {α : Type} : Tab α → Nat → α → α
  | [], _, d => d
  | (k', v) :: m, k, d => if k' = k then v else tget m k d
/-- The table with a key set; the order of keys is kept. -/
def tset {α : Type} : Tab α → Nat → α → Tab α
  | [], k, v => [(k, v)]
  | (k', v') :: m, k, v =>
    if k < k' then (k, v) :: (k', v') :: m else if k = k' then (k, v) :: m else (k', v') :: tset m k v
/-- The table without a key. -/
def tdel {α : Type} : Tab α → Nat → Tab α
  | [], _ => []
  | (k', v') :: m, k => if k' = k then m else (k', v') :: tdel m k
/-- A key changed by a function. -/
def tmod {α : Type} (m : Tab α) (k : Nat) (d : α) (f : α → α) : Tab α := tset m k (f (tget m k d))
/-- A number added to a strictly rising list. -/
def sins : List Nat → Nat → List Nat
  | [], k => [k]
  | k' :: l, k => if k < k' then k :: k' :: l else if k = k' then k' :: l else k' :: sins l k
/-- A number removed from a list. -/
def sdel : List Nat → Nat → List Nat
  | [], _ => []
  | k' :: l, k => if k' = k then l else k' :: sdel l k
/-- A number is put in or taken out. -/
def sput (l : List Nat) (k : Nat) (b : Bool) : List Nat := if b then sins l k else sdel l k
/-- One component of a vector replaced. -/
def vset {α : Type} {n : Nat} (v : Vector α n) (i : Fin n) (x : α) : Vector α n := v.set i.val x i.isLt
def vmod {α : Type} {n : Nat} (v : Vector α n) (i : Fin n) (f : α → α) : Vector α n := vset v i (f (v.get i))

/-! Memory -/

/-- The byte at an address; an address that is not listed holds 0 (log 3). -/
def Memory.byte (m : Memory) (a : Nat) : Byte := tget m.cells a 0
/-- The canonical cells after one byte is written. -/
def putCell (c : List Host.Cell) (a : Nat) (b : Byte) : List Host.Cell := if b = 0 then tdel c a else tset c a b
def Memory.putByte (m : Memory) (a : Nat) (b : Byte) : Memory := { m with cells := putCell m.cells a b }
/-- Bytes written at consecutive addresses. -/
def Memory.putBytes (m : Memory) : Nat → List Byte → Memory
  | _, [] => m
  | a, b :: bs => (m.putByte a b).putBytes (a + 1) bs
/-- Bytes given with their own addresses. -/
def Memory.putCells (m : Memory) (l : List Host.Cell) : Memory := l.foldl (fun m c => m.putByte c.1 c.2) m
/-- n bytes from an address on. -/
def Memory.bytes (m : Memory) : Nat → Nat → List Byte
  | _, 0 => []
  | a, n + 1 => m.byte a :: m.bytes (a + 1) n
/-- n bytes as a little-endian number (R4). -/
def Memory.read (m : Memory) (a n : Nat) : Nat := ofBytes (m.bytes a n)
def Memory.write (m : Memory) (a n v : Nat) : Memory := m.putBytes a (bytesOf n v)
/-- The tag of the word that holds an address. -/
def Memory.isFull (m : Memory) (a : Nat) : Bool := m.full.contains (a / 8)
def Memory.setFull (m : Memory) (a : Nat) (b : Bool) : Memory := { m with full := sput m.full (a / 8) b }
/-- The units whose stored bits can flip: bursts of HBM by their number, and these, the check burst of a 256-byte granule (R215) and a
word of an MT or of local memory (R208, R382). -/
def checkUnit (pa : Nat) : Nat := 2 ^ 60 + pa / 256
def wordUnit (a : Nat) : Nat := 2 ^ 61 + a / 8
/-- How many of the low n bits of a pattern are 1. -/
def bitsSet (n p : Nat) : Nat := ((List.range n).filter fun i => p.testBit i).length
/-- SEC-DED does not correct a word of an MT or of local memory: two bits of its 74 have flipped (R208). -/
def Memory.lostWord (m : Memory) (a : Nat) : Bool := tget m.bad (wordUnit a) 0 != 0 && decide (2 ≤ bitsSet 74 (tget m.bad (wordUnit a) 0))
/-- A word reads as poisoned: its poison bit, or an uncorrectable error of an MT's or a local word (R208, R382; DEDUCED, log 58). -/
def Memory.isPoison (m : Memory) (a : Nat) : Bool := m.poison.contains (a / 8) || m.lostWord a
/-- The poison of a word as a write leaves it; its check bits are new. -/
def Memory.setPoison (m : Memory) (a : Nat) (b : Bool) : Memory :=
  { m with poison := sput m.poison (a / 8) b, bad := tdel m.bad (wordUnit a) }

/-- Keys strictly rising. -/
def risingKeys {α : Type} : Tab α → Bool
  | [] => true
  | [_] => true
  | (a, _) :: (b, y) :: m => decide (a < b) && risingKeys ((b, y) :: m)
/-- Numbers strictly rising. -/
def rising : List Nat → Bool
  | [] => true
  | [_] => true
  | a :: b :: l => decide (a < b) && rising (b :: l)
/-- The canonical form of a memory: addresses strictly rising, no byte 0 listed, tags and poison strictly rising. -/
def Memory.wf (m : Memory) : Bool :=
  risingKeys m.cells && m.cells.all (fun c => c.2 != 0) && rising m.full && rising m.poison

/-- Address of local byte 0 of a tile (log 2). -/
def localBase (t : Tile) : Nat := 2 ^ 52 + t.key * 0x10000
/-- Physical address of byte 0 of an MT's SRAM: the MT window of R255. -/
def mtBase (t : Tile) : Nat := 0x10000000000 + t.key * 0x100000
/-- Address of byte 0 of host memory behind an I/O die (log 2). -/
def hostBase (io : Fin 2) : Nat := 2 ^ 56 * (1 + io.val) * 2 ^ 12
/-- A physical address lies in HBM (R212, R255). -/
def isHbm (pa : Nat) : Bool := pa < 2 ^ 39
def isMt (pa : Nat) : Bool := decide (0x10000000000 ≤ pa) && decide (pa < 0x10000000000 + 0x100000000)
def isLaunch (pa : Nat) : Bool := decide (0x20000000000 ≤ pa) && decide (pa < 0x20000000000 + 0x10000)
def isSys (pa : Nat) : Bool := decide (2 ^ 51 ≤ pa) && decide (pa < 2 ^ 52)
/-- The tile of an address in the MT window. -/
def mtTile (pa : Nat) : Tile :=
  let k := (pa - 0x10000000000) / 0x100000
  ⟨k / 32, k % 32⟩
/-- The exposed die that owns a physical address: the stack of R212, or the die of an MT. -/
def dieOfPa (pa : Nat) : DieId := if isMt pa then (mtTile pa).die else Fin.ofNat 8 (pa / 2 ^ 36)

/-! Tokens -/

def kData : Nat := 0
def kNull : Nat := 1
def kMark : Nat := 2
def kEor : Nat := 3
def Token.facet (t : Token) : Facet := Fin.ofNat 4 (fld t.tag 6 2)
def Token.kind (t : Token) : Nat := fld t.tag 4 2
def Token.pred (t : Token) : Bool := bit t.tag 3
def Token.head (t : Token) : Bool := bit t.tag 2
def Token.tail (t : Token) : Bool := bit t.tag 1
def Token.poison (t : Token) : Bool := bit t.tag 0
def Token.isMark (t : Token) : Bool := t.kind == kMark
/-- The tag of R16. -/
def mkTag (f : Facet) (kind : Nat) (pred head tail poison : Bool) : Byte :=
  BitVec.ofNat 8 (f.val * 64 + kind % 4 * 16 + pred.toNat * 8 + head.toNat * 4 + tail.toNat * 2 + poison.toNat)
def mkTok (f : Facet) (kind : Nat) (pred head tail poison : Bool) (v : Nat) : Token :=
  ⟨BitVec.ofNat 64 v, mkTag f kind pred head tail poison⟩
/-- A token restamped with a facet (R167). -/
def Token.stamp (t : Token) (f : Facet) : Token := { t with tag := setFld t.tag 6 2 f.val }
/-- A null as a head token payload: what an instruction reads from a null (R17). -/
def Token.value (t : Token) : Word := if t.kind = kNull then 0 else t.payload

/-! Parts of the state -/

def State.el (s : State) (t : Tile) : Element := tget s.elements t.key Element.reset
def State.setEl (s : State) (t : Tile) (e : Element) : State := { s with elements := tset s.elements t.key e }
def State.modEl (s : State) (t : Tile) (f : Element → Element) : State := s.setEl t (f (s.el t))
def State.sw (s : State) (t : Tile) : Switchbox := tget s.switches t.key Switchbox.reset
def State.setSw (s : State) (t : Tile) (e : Switchbox) : State := { s with switches := tset s.switches t.key e }
def State.mt (s : State) (t : Tile) : MemTile := tget s.mts t.key MemTile.reset
def State.setMt (s : State) (t : Tile) (e : MemTile) : State := { s with mts := tset s.mts t.key e }
def State.modMt (s : State) (t : Tile) (f : MemTile → MemTile) : State := s.setMt t (f (s.mt t))
def State.rg (s : State) (r : RegionId) : Region := s.regions.get r
def State.setRg (s : State) (r : RegionId) (g : Region) : State := { s with regions := vset s.regions r g }
def State.modRg (s : State) (r : RegionId) (f : Region → Region) : State := s.setRg r (f (s.rg r))
def State.die (s : State) (d : DieId) : Die := s.dies.get d
def State.setDie (s : State) (d : DieId) (x : Die) : State := { s with dies := vset s.dies d x }
def State.modDie (s : State) (d : DieId) (f : Die → Die) : State := s.setDie d (f (s.die d))
def State.io (s : State) (i : Fin 2) : IoDie := s.ios.get i
def State.modIo (s : State) (i : Fin 2) (f : IoDie → IoDie) : State := { s with ios := vset s.ios i (f (s.io i)) }
def Element.fac (e : Element) (f : Facet) : FacetEl := e.facets.get f
def Element.modFac (e : Element) (f : Facet) (g : FacetEl → FacetEl) : Element := { e with facets := vmod e.facets f g }
def State.modFac (s : State) (t : Tile) (f : Facet) (g : FacetEl → FacetEl) : State := s.modEl t (·.modFac f g)
def MemTile.fac (m : MemTile) (f : Facet) : MtFacet := m.facets.get f
def MemTile.modFac (m : MemTile) (f : Facet) (g : MtFacet → MtFacet) : MemTile := { m with facets := vmod m.facets f g }
def State.modMtFac (s : State) (t : Tile) (f : Facet) (g : MtFacet → MtFacet) : State := s.modMt t (·.modFac f g)
/-- Device time at a tile, in nanoseconds (R170). -/
def State.time (s : State) (t : Tile) : Nat := (s.die t.die).time
/-- A fresh free value's number (log 6). -/
def State.pick (s : State) : Nat × State := (Config.freePick s.free, { s with free := s.free + 1 })

/-! Regions and their tiles -/

def Region.x0 (g : Region) : Nat := fld g.geom 0 7
def Region.y0 (g : Region) : Nat := fld g.geom 8 5
def Region.w (g : Region) : Nat := fld g.geom 16 8
def Region.h (g : Region) : Nat := fld g.geom 24 6
def Region.valid (g : Region) : Bool := bit g.geom 31
/-- A tile lies in the rectangle of a register laid out as RGGEOM (R165). -/
def inRect (w : Word) (t : Tile) : Bool :=
  bit w 31 && decide (fld w 0 7 ≤ t.x) && decide (t.x < fld w 0 7 + fld w 16 8) && decide (fld w 8 5 ≤ t.y) &&
  decide (t.y < fld w 8 5 + fld w 24 6)
/-- A tile belongs to a region: to its rectangle, or to the target of a resize (R165, R179). -/
def Region.has (g : Region) (t : Tile) : Bool := inRect g.geom t || inRect g.new_ t
/-- The region of a tile; none for a free tile. -/
def State.regionOf (s : State) (t : Tile) : Option RegionId := (List.finRange 32).find? (fun r => (s.rg r).has t)
/-- The tiles of a rectangle, column by column. -/
def rectTiles (w : Word) : List Tile :=
  if bit w 31 then
    (List.range (fld w 16 8)).flatMap fun i => (List.range (fld w 24 6)).map fun j => ⟨fld w 0 7 + i, fld w 8 5 + j⟩
  else []
/-- The tiles of a region, those of a resize target included. -/
def Region.tiles (g : Region) : List Tile := rectTiles g.geom ++ (rectTiles g.new_).filter (fun t => !inRect g.geom t)
/-- The south-west tile of a region. -/
def Region.corner (g : Region) : Tile := ⟨g.x0, g.y0⟩
def Region.en (g : Region) : Bool := bit g.ctl 0
def Region.ifac (g : Region) : Facet := Fin.ofNat 4 (fld g.ctl 1 2)
def Region.floaded (g : Region) (f : Facet) : Bool := bit g.ctl (4 + f.val)
def Region.fquiet (g : Region) (f : Facet) : Bool := bit g.ctl (8 + f.val)
def Region.tides (g : Region) : Bool := bit g.tide 4
def Region.stop (g : Region) : Bool := bit g.tidestat 35
def Region.ctide (g : Region) : Nat := fld g.tidestat 0 32
def Region.tnext (g : Region) : Nat := fld g.tide 16 32
def Region.pendcnt (g : Region) : Nat := fld g.pgr 16 8
/-- The region is frozen: 16 cycles have passed since the trigger cycle (R396). -/
def State.frozen (s : State) (r : RegionId) : Bool :=
  match (s.rg r).freeze with
  | some c => decide (c + 16 < s.cycle)
  | none => false
/-- No activation of the region is dispatched and no command starts: a stop, a rollback before its replay, or a freeze (R383, R385,
R396). -/
def State.halted (s : State) (r : RegionId) : Bool := (s.rg r).stop || (s.rg r).rollback.isSome || s.frozen r
def State.tileHalted (s : State) (t : Tile) : Bool :=
  match s.regionOf t with
  | some r => s.halted r
  | none => false
/-- Nothing moves at a tile in this cycle: its region is frozen (R396), or its die's clock has slipped (R421). -/
def State.tileFrozen (s : State) (t : Tile) : Bool :=
  (s.die t.die).idle || match s.regionOf t with
  | some r => s.frozen r
  | none => false

/-! Causes and notices (R363 to R365) -/

def causeIllegalOpcode : Nat := 0x001
def causeReservedField : Nat := 0x002
def causeReservedOperand : Nat := 0x003
def causeOperandClass : Nat := 0x004
def causeLocalAlignment : Nat := 0x005
def causeLocalBounds : Nat := 0x006
def causeFetchBounds : Nat := 0x007
def causePrivilegedWrite : Nat := 0x008
def causePoisonedOperand : Nat := 0x009
def causeOpenBurst : Nat := 0x00A
def causeSendOverflow : Nat := 0x00B
def causeStoreOverflow : Nat := 0x00C
def causeRetryExhausted : Nat := 0x00D
def causeLocalUncorrectable : Nat := 0x00E
def causeProgramTrap : Nat := 0x010
def causeUnroutedOut : Nat := 0x040
def causeUnroutedEdge : Nat := 0x050
def causeUnroutedRow : Nat := 0x054
def causeUnroutedCol : Nat := 0x055
def causeSwapUnloaded : Nat := 0x056
def causeConfigRejected : Nat := 0x057
def causeBackPort : Nat := 0x058
def causeUncorrectable : Nat := 0x080
def causeMemoryPoison : Nat := 0x081
def causeFeNotEnabled : Nat := 0x082
def causeMooringOverflow : Nat := 0x083
def causeRetryDevice : Nat := 0x084
def causeCancelled : Nat := 0x085
def causeAddressForm : Nat := 0x086
def causePairBounds : Nat := 0x087
def causeDeviceAlignment : Nat := 0x088
def causeUnmapped : Nat := 0x0C0
def causePermission : Nat := 0x0C1
def causeEntryInvalid : Nat := 0x0C2
def causeTableNode : Nat := 0x0C3
def causePageFault : Nat := 0x0C4
def causeMigration : Nat := 0x0C5
def causePagerMissing : Nat := 0x0C6
def causeConservation : Nat := 0x149
def causeLockstep : Nat := 0x14A
def causeState : Nat := 0x14B
def causeTideLog : Nat := 0x14C
def causeBreakwater : Nat := 0x14D
def causeReplayLimit : Nat := 0x14E
def causeSnapshot : Nat := 0x14F
def causePreemptFailed : Nat := 0x150
def causePoisonForward : Nat := 0x151
def causeWatchpoint : Nat := 0x160
def causeTokenBreak : Nat := 0x161
def causeCut : Nat := 0x162
def causeFreeze : Nat := 0x163

/-- A byte of BAR4 (R429). Entry v of the MSI-X table has 16 bytes, and bit 0 of its byte 12, which is 1 at reset, masks vector v (PRESUMED,
log 69: as PCIe lays the table out). -/
def IoDie.bar4Byte (x : IoDie) (i : Nat) : Byte := tget x.bar4 i (if i < 16 * 78 ∧ i % 16 = 12 then 1 else 0)
/-- The link on which a vector is sent (R435): link 0 where it is unmasked there, and otherwise link 1. -/
def State.msixLink (s : State) (v : Nat) : Fin 2 := if ((s.io 0).bar4Byte (16 * v + 12)).getLsbD 0 then 1 else 0
/-- An interrupt leaves a link (R435). -/
def State.msix (s : State) (v : Nat) : State := { s with out := .msix (s.msixLink v) v :: s.out }
/-- The status word of a notice FIFO after an entry is added to a FIFO of n entries, or lost (R365). -/
def nstatPush (w : Word) (n : Nat) : Word :=
  if n < 64 then setFld w 0 7 (n + 1) else setFld w 16 16 (min 0xFFFF (fld w 16 16 + 1))
/-- Appends a notice to the FIFO of a region, or of a die (R365), and interrupts when it was empty (R435). -/
def State.notify (s : State) (dst : NoticeFifo) (n : Notice) : State :=
  match dst with
  | .region r =>
    let g := s.rg r
    let len := g.notices.length
    let g' := { g with notices := if len < 64 then g.notices ++ [n] else g.notices, nstat := nstatPush g.nstat len }
    let s := s.setRg r g'
    if len = 0 then s.msix r.val else s
  | .die d =>
    let x := s.die d
    let len := x.notices.length
    let x' := { x with notices := if len < 64 then x.notices ++ [n] else x.notices, nstat := nstatPush x.nstat len }
    let s := s.setDie d x'
    if len = 0 then s.msix (32 + d.val) else s
/-- A cause raised by a tile: one notice, to its region's FIFO or, for a free tile, to its die's (R363, R365). -/
def State.cause (s : State) (t : Tile) (f : Facet) (code : Nat) (async : Bool) (detail : Nat) : State :=
  match s.regionOf t with
  | some r => s.notify (.region r) ⟨code, f, t.x, t.y, r.val, async, BitVec.ofNat 32 detail⟩
  | none => s.notify (.die t.die) ⟨code, f, t.x, t.y, 63, async, BitVec.ofNat 32 detail⟩
/-- A cause raised by a region as a whole takes its south-west tile (R365). -/
def State.causeRg (s : State) (r : RegionId) (f : Facet) (code : Nat) (detail : Nat) : State :=
  let c := (s.rg r).corner
  s.notify (.region r) ⟨code, f, c.x, c.y, r.val, false, BitVec.ofNat 32 detail⟩
/-- DETAIL of a tile (R365). -/
def tileDetail (t : Tile) : Nat := t.y + 32 * t.x

/-! Debug matches (R445, R447) -/

/-- The latency of the boundary between exposed dies d and d + 1 (R420). -/
def State.boundaryL (s : State) (d : Nat) : Nat :=
  let h := fld s.modul.strmap 0 4
  if 1 ≤ h ∧ h ≤ 7 ∧ h = d + 1 then 28 else 6
/-- The latency of an I/O die edge, west or east (R420). -/
def State.edgeL (s : State) (io : Fin 2) : Nat :=
  let h := fld s.modul.strmap 0 4
  let transit := if io = 0 then h == 0 else h == 8
  if transit then (if bit s.modul.strmap 4 then 12 else 28) else 6
/-- The sum of the latencies of the boundaries between two dies. -/
def State.diesL (s : State) (a b : DieId) : Nat :=
  let lo := min a.val b.val; let hi := max a.val b.val
  ((List.range 8).filter (fun d => decide (lo ≤ d) && decide (d < hi))).foldl (fun n d => n + s.boundaryL d) 0
/-- A comparator or link counter matches: its bit travels to the trigger (R447), and with NOTE it raises its cause. -/
def State.dbgMatch (s : State) (r : RegionId) (bitNo : Nat) (extra : Nat) (note : Bool) (code k : Nat) : State :=
  let s := s.modRg r fun g => { g with matches_ := g.matches_ ++ [⟨bitNo, s.cycle + 2 + extra⟩] }
  if note then s.causeRg r 0 code k else s
/-- Comparator k of a region watches an event of a type at a tile and a facet. -/
def Region.watches (g : Region) (k : Fin 8) (type : Nat) (t : Tile) (f : Facet) : Bool :=
  let c := tget g.dwpctl k.val 0
  fld c 0 3 == type && fld c 3 2 == f.val && fld c 5 7 + g.x0 == t.x && fld c 12 5 + g.y0 == t.y
/-- Every comparator of the tile's region that watches this type and accepts the operand matches (R445). -/
def State.dbgEvent (s : State) (t : Tile) (f : Facet) (type : Nat) (ok : Word → Bool) : State :=
  match s.regionOf t with
  | none => s
  | some r => (List.finRange 8).foldl (fun s k =>
      let g := s.rg r
      if g.watches k type t f && ok (tget g.dwpval k.val 0) then
        s.dbgMatch r k.val 0 (bit (tget g.dwpctl k.val 0) 17) causeWatchpoint k.val
      else s) s
/-- An instruction writes a register (type 011). -/
def State.dbgRegWrite (s : State) (t : Tile) (f : Facet) (d : Spec) : State :=
  let b := d.toBits.toNat
  if (1 ≤ b ∧ b ≤ 0x5F) ∨ (0x91 ≤ b ∧ b ≤ 0x97) then s.dbgEvent t f 3 (fun v => v.toNat == b) else s
/-- Does VAL of type 100 name this tag change? -/
def tagVal (v : Word) (space loc : Nat) (toFull : Bool) : Bool :=
  fld v 0 52 == loc && fld v 52 2 == space && fld v 56 8 == 0 && bit v (if toFull then 54 else 55)
/-- A tag of a local word or an MT word changes (type 100). -/
def State.dbgTag (s : State) (t : Tile) (f : Facet) (space loc : Nat) (toFull : Bool) : State :=
  s.dbgEvent t f 4 (fun v => tagVal v space loc toFull)

/-! Registers of an activation -/

/-- g register n; g0 reads as 0 (R8). -/
def Bank.rg (b : Bank) (n : BitVec 6) : Word := if n = 0 then 0 else b.g.get n.toFin
/-- A write to g0 is discarded (R8). -/
def Bank.wg (b : Bank) (n : BitVec 6) (x : Word) : Bank := if n = 0 then b else { b with g := vset b.g n.toFin x }
def Bank.rv (b : Bank) (n : BitVec 5) : Vec := b.v.get n.toFin
def Bank.wv (b : Bank) (n : BitVec 5) (x : Vec) : Bank := { b with v := vset b.v n.toFin x }
/-- p register n; p0 reads as scalar 1 and mask 0xFFFF (R8). -/
def Bank.rp (b : Bank) (n : BitVec 3) : PReg := if n = 0 then ⟨true, 0xFFFF⟩ else b.p.get n.toFin
def Bank.wp (b : Bank) (n : BitVec 3) (x : PReg) : Bank := if n = 0 then b else { b with p := vset b.p n.toFin x }
/-- A p register read as a value, and the value written to one (R53). -/
def PReg.toWord (p : PReg) : Word := BitVec.ofNat 64 (p.scalar.toNat * 0x10000 + p.mask.toNat)
def PReg.ofWord (w : Word) : PReg := ⟨bit w 16, w.setWidth 16⟩
/-- What CMP delivers to a p register (R102). -/
def PReg.ofTruth (t : Bool) : PReg := ⟨t, if t then 0xFFFF else 0⟩

def Act.wg (a : Act) (n : BitVec 6) (x : Word) : Act := { a with bank := a.bank.wg n x }
def Act.wv (a : Act) (n : BitVec 5) (x : Vec) : Act := { a with bank := a.bank.wv n x }
def Act.wp (a : Act) (n : BitVec 3) (x : PReg) : Act := { a with bank := a.bank.wp n x }
/-- Sticky flags raised by the activation (R28, R84). -/
def Act.raise (a : Act) (f : Flags) : Act := { a with raised := a.raised ||| f }
/-- HSTAT as the activation sees it (R28). -/
def Act.hstat (a : Act) (fe : FacetEl) : Word :=
  (fe.hstat &&& ~~~((a.cleared.setWidth 64) &&& ~~~(a.raised.setWidth 64))) ||| a.raised.setWidth 64

/-! Handlers and activations -/

def Handler.port (h : Handler) : Fin 16 := Fin.ofNat 16 (fld h.entry 11 4)
def Handler.trig (h : Handler) : Nat := fld h.entry 15 2
def Handler.pri (h : Handler) : Nat := fld h.entry 17 3
def Handler.rexp (h : Handler) : Nat := fld h.entry 20 4

/-- Tokens of a queue that are visible in a cycle: those that entered in an earlier one (R20). -/
def visible (q : List QTok) (cycle : Nat) : List QTok := q.takeWhile (fun x => decide (x.entered < cycle))
/-- Tokens that a queue offers: the visible ones before the first mark (R17). -/
def offered (q : List QTok) (cycle : Nat) : List Token :=
  ((visible q cycle).takeWhile (fun x => !x.tok.isMark)).map (·.tok)
/-- A mark stands at the head of a queue. -/
def markAtHead (q : List QTok) (cycle : Nat) : Bool :=
  match visible q cycle with
  | x :: _ => x.tok.isMark
  | [] => false

/-- Handler h of facet f is runnable (R23); the region runs and the facet is not held. -/
def State.runnable (s : State) (t : Tile) (f : Facet) (h : Fin 64) : Bool :=
  let e := s.el t
  let fe := e.fac f
  let hd := fe.handlers.get h
  bit e.fenable f.val && !bit fe.hstat 8 && !bit fe.hstat 9 && hd.trig != 0 && !bit fe.masks h.val && !hd.moored &&
  (hd.trig != 1 && hd.trig != 3 || ((visible (fe.inq.get hd.port) s.cycle).any (fun x => !x.tok.isMark) &&
    !(hd.trig == 1 && (List.finRange 64).any (fun h' => decide (h' < h) && (fe.handlers.get h').trig == 1 &&
      (fe.handlers.get h').port == hd.port)))) &&
  (hd.trig != 2 && hd.trig != 3 || hd.arm) && !fe.held && !s.tileHalted t
/-- The effective priority (R24). -/
def Handler.effPri (h : Handler) : Nat := if h.age ≥ 1024 then min 7 (h.pri + 1) else h.pri
/-- Every runnable handler of an element, as facet and index. -/
def State.runnables (s : State) (t : Tile) : List (Facet × Fin 64) :=
  (List.finRange 4).flatMap fun f =>
    if bit (s.el t).fenable f.val then ((List.finRange 64).filter (fun h => s.runnable t f h)).map (fun h => (f, h)) else []

/-- Ends the activation in progress without effect on anything else. -/
def State.dropAct (s : State) (t : Tile) : State := s.modEl t fun e => { e with act := none }
def State.setAct (s : State) (t : Tile) (a : Act) : State := s.modEl t fun e => { e with act := some a }

/-- Releases every hold of an activation (R230). -/
def State.releaseHolds (s : State) (t : Tile) (a : Act) : State :=
  let ws := a.stores.filterMap (fun x => match x with
    | .hold r => some (r.addr / 8)
    | _ => none)
  { s with holds := s.holds.filter (fun h => !(h.tile == t && ws.contains h.word)),
           reexam := ws.foldl (fun l w => if s.reqs.any (fun q => (q.stage == .slot || q.stage == .listed) && decide (q.addr / 8 ≤ w) &&
             decide (8 * w < q.addr + max 1 q.size)) then sins l w else l) s.reexam }

/-- An abort (R32): commit buffers are emptied, holds released, tokens stay, and nothing that the activation wrote remains. -/
def State.abort (s : State) (t : Tile) (a : Act) : State := (s.releaseHolds t a).dropAct t

/-- HCAUSE after a trap (R14, R38). -/
def hcauseOf (old : Word) (code hidx pcidx : Nat) : Word :=
  BitVec.ofNat 64 (code % 512 + hidx % 64 * 2 ^ 9 + 2 ^ 15 + pcidx % 2048 * 2 ^ 16 + min 255 (fld old 32 8 + 1) * 2 ^ 32)
/-- The registers that a trap writes: HCAUSE, HADDR, HSTAT.TRAPPED (R38). -/
def FacetEl.trapped (fe : FacetEl) (code hidx pcidx : Nat) (haddr : Word) : FacetEl :=
  { fe with hcause := hcauseOf fe.hcause code hidx pcidx, haddr := haddr, hstat := setBit fe.hstat 8 true }
/-- TAKING A TRAP (R38): the activation aborts, HCAUSE, HADDR and HSTAT.TRAPPED are written, and a notice goes to the
supervisor (R365). -/
def State.trap (s : State) (t : Tile) (a : Act) (code : Nat) (haddr : Word) : State :=
  let s := s.abort t a
  let s := s.modFac t a.facet (·.trapped code a.handler.val (a.pc.toNat % 2048) haddr)
  s.cause t a.facet code false haddr.toNat
/-- TAKING AN ASYNCHRONOUS TRAP (R228): as a trap, but nothing aborts. -/
def State.trapAsync (s : State) (t : Tile) (f : Facet) (code hidx pcidx : Nat) (haddr : Word) : State :=
  let s := s.modFac t f (·.trapped code hidx pcidx haddr)
  s.cause t f code true haddr.toNat
/-- CLEARING A TRAP (R39): HSTAT.TRAPPED and HCAUSE.VALID clear, and the retry counts of the facet's handlers become 0 (R37; DEDUCED,
log 63: of every handler, since a later asynchronous trap may have replaced the one that HCAUSE names). -/
def State.clearTrap (s : State) (t : Tile) (f : Facet) : State :=
  s.modFac t f fun fe =>
    { fe with hstat := setBit fe.hstat 8 false, hcause := setBit fe.hcause 15 false,
              handlers := fe.handlers.map (fun x => { x with retry := 0 }) }

/-- An abort that counts against the retry budget (R37): the retry-exhausted trap, or the count raised by one. -/
def State.abortCount (s : State) (t : Tile) (a : Act) (haddr : Word) : State × Bool :=
  let hd := ((s.el t).fac a.facet).handlers.get a.handler
  if hd.rexp = 15 then (s.abort t a, true)
  else if hd.retry + 1 = 2 ^ hd.rexp then (s.trap t a causeRetryExhausted haddr, false)
  else
    let s := s.abort t a
    (s.modFac t a.facet fun fe => { fe with handlers := vmod fe.handlers a.handler (fun x => { x with retry := x.retry + 1 }) }, true)
/-- A handler's moored bit is written. -/
def FacetEl.setMoored (fe : FacetEl) (h : Fin 64) (b : Bool) : FacetEl :=
  { fe with handlers := vmod fe.handlers h fun x => { x with moored := b } }
/-- An entry is put on the local mooring list (R35): it takes the place of the handler's old one, a handler holding at most one; when none
of the 16 is free no entry is made, and the handler's moored bit is 0. -/
def Element.moor (e : Element) (m : Moor) : Element :=
  let rest := e.moors.filter fun x => !(x.facet == m.facet && x.handler == m.handler)
  let fits := decide (rest.length < 16)
  { e with moors := if fits then rest ++ [m] else rest }.modFac m.facet (·.setMoored m.handler fits)
/-- A local mooring entry for a handler (R35). -/
def State.moorHandler (s : State) (t : Tile) (f : Facet) (h : Fin 64) (word : Nat) (awaitFull : Bool) (watch : Option Nat) : State :=
  s.modEl t (·.moor ⟨word, f, h, awaitFull, watch⟩)
/-- The abort of a waiting operation whose tag fails (R34, R35, R37). -/
def State.abortMoor (s : State) (t : Tile) (a : Act) (haddr : Word) (word : Nat) (awaitFull : Bool) (watch : Option Nat) : State :=
  let (s, moor) := s.abortCount t a haddr
  if moor then s.moorHandler t a.facet a.handler word awaitFull watch else s
/-- Clears the mooring entries for a word and a state, and their moored bits (R36). -/
def State.unmoor (s : State) (t : Tile) (word : Nat) (full : Bool) : State :=
  let e := s.el t
  let hit := e.moors.filter (fun m => m.word == word && m.awaitFull == full)
  let s := s.setEl t { e with moors := e.moors.filter (fun m => !(m.word == word && m.awaitFull == full)) }
  hit.foldl (fun s m => s.modFac t m.facet fun fe =>
    { fe with handlers := vmod fe.handlers m.handler (fun x => { x with moored := false }) }) s

/-! Undo logs (R373) -/

/-- Tides run in the tile's region, so that changes are logged. -/
def State.logs (s : State) (t : Tile) : Bool :=
  match s.regionOf t with
  | some r => (s.rg r).tides
  | none => false
/-- The undo entry of a word as it stands. -/
def State.undoOf (s : State) (f : Facet) (reach word : Nat) : Undo :=
  ⟨f, reach, word, s.mem.read (8 * word) 8, s.mem.isFull (8 * word), s.mem.isPoison (8 * word)⟩
/-- Logs a local word before a commit changes it. -/
def State.logLocal (s : State) (t : Tile) (f : Facet) (word : Nat) : State :=
  if s.logs t then s.modEl t fun e => { e with undo := s.undoOf f (e.fac f).reach word :: e.undo } else s
/-- Logs an area word before it changes. -/
def State.logMt (s : State) (t : Tile) (f : Facet) (word : Nat) : State :=
  if s.logs t then s.modMt t fun m => { m with undo := s.undoOf f (m.fac f).reach word :: m.undo } else s

end Sys2Proof.Machine
end

