-- ==== Sys2Proof/Machine/Operands.lean ====
section
/-! DEFINITION. Every operand form (R48 to R53), the stages of issue that all instructions share (R54 to R57), sends (R29, R147,
R148), and the shapes of the scalar and vector instructions. -/

namespace Sys2Proof.Machine

/-- What an instruction raises: a cause code and HADDR. -/
abbrev TrapInfo := Nat × Word

/-- Runs an element's instruction in the issue slot of the current tile: there must be an element, with an activation in
progress. -/
def withAct (s : State) (k : Tile → Act → State) : Out :=
  if s.cur.isCT && s.cur.inFabric then
    match (s.el s.cur).act with
    | none => .refused .noActivation
    | some a => .next (k s.cur a)
  else .fault .noElement

/-! Ports -/

/-- The next unconsumed token that a port offers the activation (R27). -/
def State.portTok (s : State) (t : Tile) (a : Act) (p : BitVec 4) : Option Token :=
  (offered (((s.el t).fac a.facet).inq.get p.toFin) s.cycle)[a.taken.get p.toFin]?
/-- A token is consumed tentatively (R27). -/
def Act.take (a : Act) (p : BitVec 4) : Act := { a with taken := vmod a.taken p.toFin (· + 1) }
/-- The token that an operand reads, in either form. -/
def State.specTok (s : State) (t : Tile) (a : Act) : Spec → Option Token
  | .inp p => s.portTok t a p
  | .peek p => s.portTok t a p
  | _ => none
/-- A consuming operand consumes its token, whatever becomes of the instruction (R55). -/
def Act.consume (a : Act) : Spec → Act
  | .inp p => a.take p
  | _ => a
/-- Every consuming port operand is consumed (R55, R56). -/
def Act.consumeAll (a : Act) (srcs : List Spec) : Act := srcs.foldl Act.consume a
/-- Every named input holds as many offered tokens as the reads need, in the order a, b, c (R51). -/
def State.portsReady (s : State) (t : Tile) (a : Act) : List Spec → Bool
  | [] => true
  | x :: l => (!x.isPort || (s.specTok t a x).isSome) && s.portsReady t (a.consume x) l
/-- The first channel source: the first port operand (R55). -/
def firstPort (srcs : List Spec) : Option Spec := srcs.find? Spec.isPort

/-- Sends that the activation holds for a port. -/
def Act.sendsTo (a : Act) (p : BitVec 4) : Nat := (a.sends.filter (fun e => e.port == p.toFin)).length
/-- Tokens in an output queue, marks apart (R370). -/
def outLen (q : List OTok) : Nat := (q.filter (fun x => !x.tok.isMark)).length
/-- Tokens in an output queue of the element at the start of the cycle: one that leaves in the cycle makes room for the next (R150). -/
def State.outHeld (s : State) (t : Tile) (p : Fin 16) : Nat :=
  outLen ((s.el t).outq.get p) + if (s.el t).drained.get p = s.cycle + 1 then 1 else 0
/-- Room for a send (R29): the free slots exceed the sends held. A 17th send has no room to wait for and traps instead. -/
def State.hasRoom (s : State) (t : Tile) (a : Act) : Option (BitVec 4) → Bool
  | none => true
  | some p => decide (16 - s.outHeld t p.toFin > a.sendsTo p) || decide (16 ≤ a.sendsTo p)

/-! Sources -/

/-- The value of a scalar source (R49, R53, R96); a poisoned payload traps (R18). -/
def State.rdScalar (s : State) (t : Tile) (a : Act) (sp : Spec) : Except TrapInfo (Word × Act) :=
  match sp with
  | .g n => .ok (a.bank.rg n, a)
  | .p n => .ok ((a.bank.rp n).toWord, a)
  | .imm n => .ok (n.signExtend 64, a)
  | .inp _ | .peek _ =>
    match s.specTok t a sp with
    | none => .ok (0, a)
    | some k => if k.poison then .error (causePoisonedOperand, sp.toBits.setWidth 64) else .ok (k.value, a.consume sp)
  | _ => .ok (0, a)

/-- A small immediate in a floating-point format, where the format holds it exactly. -/
def immExact (f : Nat) (v : Int) : Option Nat :=
  if f = 6 then if 0 < v ∧ 2 ^ Nat.log2 v.natAbs = v.natAbs then some (127 + Nat.log2 v.natAbs) else none
  else
    let r := fround f 0 false (decide (v < 0)) v.natAbs 0
    if r.2 = 0 then some r.1 else none
/-- The encoding of a small immediate in a floating-point format (R49): the conversion is exact; where the format has no such value,
the result is open (log 17). -/
def immFp (f : Nat) (n : BitVec 6) : Nat := (immExact f n.toInt).getD (Config.inexactImm f n % 2 ^ fmtWidth f)
/-- A scalar source of a floating-point operation in format f (R108). -/
def State.rdFp (s : State) (t : Tile) (a : Act) (f : Nat) (sp : Spec) : Except TrapInfo (Word × Act) :=
  match sp with
  | .imm n => .ok (BitVec.ofNat 64 (immFp f n), a)
  | _ => s.rdScalar t a sp

/-- A vector made of the elements of width w, the first lowest (R78). -/
def ofElems (w : Nat) : List Nat → Nat
  | [] => 0
  | x :: l => x % 2 ^ w + 2 ^ w * ofElems w l
/-- The elements of width w of a vector. -/
def elems (w : Nat) (v : Vec) : List Nat := (List.range (512 / w)).map fun j => fld v (w * j) w
def vecOf (w : Nat) (l : List Nat) : Vec := BitVec.ofNat 512 (ofElems w l)
/-- The lane-index vector (R48). -/
def lidVec : Vec := vecOf 32 (List.range 16)
/-- A vector source; a small immediate is converted and copied to every element (R49, R127). -/
def rdVec (a : Act) (w : Nat) (conv : BitVec 6 → Nat) : Spec → Vec
  | .v n => a.bank.rv n
  | .lid => lidVec
  | .imm n => vecOf w (List.replicate (512 / w) (conv n))
  | _ => 0
/-- A small immediate sign-extended to w bits (R49); in a source element of 4 bits one outside -8 to 7 keeps its low 4 bits (DESIGN CHOICE,
log 64). -/
def immInt (w : Nat) (n : BitVec 6) : Nat := wrapInt w n.toInt

/-- The write mask of a vector instruction (R54). -/
def Act.writeMask (a : Act) (h : Head) : BitVec 16 := (a.bank.rp h.gp).mask ^^^ (if h.gn then 0xFFFF else 0)
/-- Element j of width w is written under a mask: its lane is (w j) div 32 (R128). -/
def laneOn (mask : BitVec 16) (w j : Nat) : Bool := bit mask (w * j / 32)
/-- New elements under a mask, over the old vector (R128). -/
def mergeElems (w : Nat) (mask : BitVec 16) (old : Vec) (new_ : List Nat) : Vec :=
  vecOf w ((new_.zip (elems w old)).zipIdx.map fun x => if laneOn mask w x.2 then x.1.1 else x.1.2)
/-- The flags of the elements that are written (R84). -/
def maskFlags (w : Nat) (mask : BitVec 16) (fl : List Flags) : Flags :=
  fl.zipIdx.foldl (fun acc x => if laneOn mask w x.2 then acc ||| x.1 else acc) 0

/-- The rounding mode: the static code, or RMODE read at issue (R42, R80). -/
def Act.mode (a : Act) : Rnd → Nat
  | .rn => 0 | .rz => 1 | .ru => 2 | .rd => 3 | _ => a.rmode.toNat

/-! Sends -/

/-- What the sends after the FENCEs so far wait for (R244). -/
def Act.fenceWait (a : Act) : List (Nat × Scope) := a.fences.flatMap fun f => f.1.map fun i => (i, f.2)
/-- A send into the commit buffer (R29), with the burst rules (R19, R148). -/
def Act.send (a : Act) (p : BitVec 4) (tok : Token) (wait : List (Nat × Scope)) : Except TrapInfo Act :=
  let spec : Word := 0x80#64 ||| p.setWidth 64
  if 16 ≤ a.sendsTo p ∨ 32 ≤ a.sends.length then .error (causeSendOverflow, spec)
  else
    let isOpen := bit a.bursts p.toNat
    if tok.head && isOpen then .error (causeOpenBurst, spec)
    else if tok.tail && !tok.head && !isOpen then .error (causeOpenBurst, spec)
    else .ok { a with sends := a.sends ++ [⟨p.toFin, tok, a.fenceWait ++ wait⟩],
                      bursts := setBit a.bursts p.toNat ((isOpen || tok.head) && !tok.tail) }
/-- The null that a send form sends in place of its result (R56): pred and poison of the null read, head and tail of the form. -/
def Act.sendNull (a : Act) (p : BitVec 4) (k : Token) (head tail : Bool) (wait : List (Nat × Scope)) : Except TrapInfo Act :=
  a.send p (mkTok a.facet kNull k.pred head tail k.poison 0) wait

/-! Destinations -/

/-- Delivers a 64-bit result (R50, R52, R53, R96). -/
def Act.deliver (a : Act) (d : Spec) (x : Word) : Except TrapInfo Act :=
  match d with
  | .g n => .ok (a.wg n x)
  | .p n => .ok (a.wp n (PReg.ofWord x))
  | .outp n => a.send n (mkTok a.facet kData false false false false x.toNat) []
  | _ => .ok a
/-- Delivers a truth value (R102). -/
def Act.deliverTruth (a : Act) (d : Spec) (t : Bool) : Except TrapInfo Act :=
  match d with
  | .g n => .ok (a.wg n (if t then 1 else 0))
  | .p n => .ok (a.wp n (PReg.ofTruth t))
  | .outp n => a.send n (mkTok a.facet kData t false false false t.toNat) []
  | _ => .ok a

/-! Issue -/

/-- The instruction retires: the next one in order follows (R114). busy is the number of further cycles it holds the slot (R97). -/
def State.retire (s : State) (t : Tile) (a : Act) (busy : Nat) : State :=
  s.setAct t { a with pc := a.pc + 1, stalled := 0, busy := busy }
/-- The instruction does not issue in this cycle because of a port (R26, R33). -/
def State.portWait (s : State) (t : Tile) (a : Act) : State := s.setAct t { a with stalled := a.stalled + 1 }
/-- The instruction waits for something other than a port; the count of stalled cycles starts anew (R33). -/
def State.otherWait (s : State) (t : Tile) (a : Act) : State := s.setAct t { a with stalled := 0 }
/-- The end of an executed instruction: retirement with the debug match of a written register (R445), or its trap (R38). -/
def State.finish (s : State) (t : Tile) (a0 : Act) (d : Spec) (busy : Nat) : Except TrapInfo Act → State
  | .ok a => (s.dbgRegWrite t a.facet d).retire t a busy
  | .error (c, x) => s.trap t a0 c x
/-- As finish, for an instruction that sets the next index itself. -/
def State.finishJump (s : State) (t : Tile) (a0 : Act) (d : Spec) : Except TrapInfo Act → State
  | .ok a => (s.dbgRegWrite t a.facet d).setAct t { a with stalled := 0, busy := 0 }
  | .error (c, x) => s.trap t a0 c x

/-- The stages of issue after decoding (R57): guard, ports and room, predicate match, null-skip, execution. An instruction of several cycles
that a failed match or a null-skip leaves without effect takes one cycle, as R54 says of a false guard alone (DESIGN CHOICE, log 63). -/
def State.issue (s : State) (t : Tile) (a : Act) (h : Head) (srcs : List Spec) (out : Option (BitVec 4))
    (nul : Token → State) (body : State) : State :=
  if (a.bank.rp h.gp).scalar == h.gn then s.retire t a 0
  else if !(s.portsReady t a srcs && s.hasRoom t a out) then s.portWait t a
  else
    match h.pm, (firstPort srcs).bind (s.specTok t a) with
    | .predTrue, some k => if k.pred then body else s.retire t (a.consumeAll srcs) 0
    | .predFalse, some k => if k.pred then s.retire t (a.consumeAll srcs) 0 else body
    | .nullSkip, some k => if k.kind = kNull then nul k else body
    | _, _ => body

/-- What a null does to an instruction that is neither a send form nor a store (R56): nothing, or a null on its output port. -/
def State.nullPlain (s : State) (t : Tile) (a : Act) (srcs : List Spec) (d : Spec) (k : Token) : State :=
  match d with
  | .outp p =>
    match (a.consumeAll srcs).sendNull p k false false [] with
    | .ok a' => s.retire t a' 0
    | .error (c, x) => s.trap t a c x
  | _ => s.retire t (a.consumeAll srcs) 0

/-! Shapes of scalar instructions -/

/-- How a scalar result is delivered. -/
inductive Deliver where
  | value | truth
  deriving DecidableEq, Repr

def Act.deliverAs (a : Act) (k : Deliver) (d : Spec) (x : Word) : Except TrapInfo Act :=
  match k with
  | .value => a.deliver d x
  | .truth => a.deliverTruth d (x != 0)

/-- Reads a, b, c in order (R51); an unused field is g0. -/
def rd3 (a : Act) (rd : Act → Spec → Except TrapInfo (Word × Act)) (x y z : Spec) :
    Except TrapInfo (Word × Word × Word × Act) :=
  match rd a x with
  | .error e => .error e
  | .ok (u, a) =>
    match rd a y with
    | .error e => .error e
    | .ok (v, a) =>
      match rd a z with
      | .error e => .error e
      | .ok (w, a) => .ok (u, v, w, a)

/-- A format-R scalar instruction: sources read by rd, result and flags by f, which sees the activation at issue. -/
def State.scalarR (s : State) (w : RForm) (fp : Option Nat) (k : Deliver) (busy : Nat)
    (f : Act → Word → Word → Word → Word × Flags) : Out :=
  withAct s fun t a =>
    let srcs := [w.a, w.b, w.c]
    s.issue t a w.head srcs w.d.outPort (s.nullPlain t a srcs w.d) <|
      s.finish t a w.d busy <|
        match rd3 a (fun a sp => match fp with
            | some c => s.rdFp t a c sp
            | none => s.rdScalar t a sp) w.a w.b w.c with
        | .error e => .error e
        | .ok (x, y, z, a') =>
          let r := f a x y z
          (a'.raise r.2).deliverAs k w.d r.1
/-- A format-I scalar instruction over the value of a and the immediate. -/
def State.scalarI (s : State) (w : IForm) (k : Deliver) (f : Word → BitVec 34 → Word) : Out :=
  withAct s fun t a =>
    let srcs := [w.a]
    s.issue t a w.head srcs w.d.outPort (s.nullPlain t a srcs w.d) <|
      s.finish t a w.d 0 <|
        match s.rdScalar t a w.a with
        | .error e => .error e
        | .ok (x, a') => a'.deliverAs k w.d (f x w.imm)

/-! Shapes of vector instructions -/

/-- A vector result written to d under the write mask, with the flags of the written elements. -/
def Act.putVec (a : Act) (d : Spec) (w : Nat) (mask : BitVec 16) (r : List (Nat × Flags)) : Act :=
  match d with
  | .v n => (a.raise (maskFlags w mask (r.map (·.2)))).wv n (mergeElems w mask (a.bank.rv n) (r.map (·.1)))
  | _ => a
/-- An instruction whose operands are all vectors (R127): elements of width w, immediates by conv. -/
def State.vecR (s : State) (w : RForm) (width : Nat) (conv : BitVec 6 → Nat)
    (f : Act → Nat → Nat → Nat → Nat × Flags) : Out :=
  withAct s fun t a =>
    s.issue t a w.head [] none (fun _ => s) <|
      let xs := elems width (rdVec a width conv w.a)
      let ys := elems width (rdVec a width conv w.b)
      let zs := elems width (rdVec a width conv w.c)
      s.finish t a w.d 0 <|
        .ok (a.putVec w.d width (a.writeMask w.head) ((xs.zip (ys.zip zs)).map fun p => f a p.1 p.2.1 p.2.2))

/-- The element width that esz selects in the integer vector forms (R133). -/
def eszWidth : Esz → Nat
  | .e8 => 8 | .e16 => 16 | .e4 => 4 | .e64 => 64 | _ => 32
/-- The operand width of the scalar integer forms (R98). -/
def eszScalar : Esz → Nat
  | .e32 => 32 | _ => 64

end Sys2Proof.Machine
end

