-- ==== Sys2Proof/Machine/RegionOps.lean ====
section
/-! DEFINITION. Shared operations on regions: route entries and sites (R153, R167), the point at which an access is performed
(R240), debug phases (R452), and the trigger of a rollback or a stop (R383, R385, R386). -/

namespace Sys2Proof.Machine

/-! Routes and sites -/

/-- Route entry e of facet f (R153). -/
def Switchbox.entry (b : Switchbox) (f : Facet) (e : Nat) : BitVec 16 := tget (b.routes.get f) e 0x003F
def Switchbox.sel (b : Switchbox) (f : Facet) (e : Nat) : Nat := fld (b.entry f e) 0 6
def Switchbox.slots (b : Switchbox) (f : Facet) (e : Nat) : Nat := fld (b.entry f e) 6 4
/-- The entries of facet f, from lo on, that select a source. -/
def Switchbox.users (b : Switchbox) (f : Facet) (lo n src : Nat) : List Nat :=
  (List.range n).filterMap fun i => if b.sel f (lo + i) = src then some (lo + i) else none
/-- Input ports that have links in facet f. -/
def Switchbox.linkedIn (b : Switchbox) (f : Facet) : List (Fin 16) :=
  (List.finRange 16).filter fun p => b.sel f (32 + p.val) != 0x3F
/-- Output ports that have links in facet f. -/
def Switchbox.linkedOut (b : Switchbox) (f : Facet) : List (Fin 16) :=
  (List.finRange 16).filter fun p => !(b.users f 0 32 (0x20 + p.val)).isEmpty

/-- The tile of a key. -/
def keyTile (k : Nat) : Tile := ⟨k / 32, k % 32⟩
/-- Fields of a port register (R167). -/
def siteTile (w : Word) : Tile := ⟨fld w 0 7, fld w 7 5⟩
/-- The track of a site, as an incoming source of R154 or an outgoing entry of R153: 8 times the edge plus the track. -/
def siteTrack (w : Word) : Nat := fld w 12 2 * 8 + fld w 14 3
def siteEn (w : Word) : Bool := bit w 17
/-- IFAC as the sites of a die see it: a die that has consumed the head swap entry before the others stamps its facet (R424). -/
def Region.ifacAt (g : Region) (d : DieId) : Facet :=
  if g.swapped.contains d then Fin.ofNat 4 (fld (tget g.swapfc (fld g.ctl 12 6) 0) 0 2) else g.ifac
/-- The facet that an ingress site stamps. -/
def Region.stampOf (g : Region) (w : Word) : Facet := if fld w 18 2 = 1 then Fin.ofNat 4 (fld w 20 2) else g.ifacAt (siteTile w).die
def Region.ingOf (g : Region) (p : Nat) : Word := tget g.ing p 0
def Region.egrOf (g : Region) (p : Nat) : Word := tget g.egr p 0
/-- A save has stopped the sites of facet f (R390, step 2). -/
def Region.saveStops (g : Region) (f : Facet) : Bool :=
  match g.preempt with
  | some p => !p.restore && p.facet == f && decide (2 ≤ fld g.prectl 8 3)
  | none => false
/-- Some ingress site of the region stamps facet f (R163); nothing stamps a facet that is not loaded (R195, R403; DEDUCED, log 18). -/
def Region.stamps (g : Region) (f : Facet) : Bool :=
  g.en && g.floaded f && !g.saveStops f && g.ing.any (fun x => siteEn x.2 && g.stampOf x.2 == f)
/-- Enabled ingress ports that stamp facet f. -/
def Region.sitesOf (g : Region) (f : Facet) : List Nat :=
  g.ing.filterMap fun x => if siteEn x.2 && g.stampOf x.2 == f then some x.1 else none
/-- Enabled egress ports whose site facet f links. -/
def State.egressOf (s : State) (r : RegionId) (f : Facet) : List Nat :=
  (s.rg r).egr.filterMap fun x =>
    if siteEn x.2 && (s.sw (siteTile x.2)).sel f (siteTrack x.2) != 0x3F then some x.1 else none

/-! Performed accesses (R240) -/

/-- An access of an engine that changes HBM and returns a value (R218, R239). -/
def Req.takesValue (q : Req) : Bool :=
  isHbm q.addr && q.region.isSome && (q.form == 3 || q.form == 8 || q.form == 9) && (match q.src with
    | .elem _ _ _ _ => false
    | _ => true)
/-- An access is performed at a scope. A request that is no longer listed is performed everywhere. -/
def Req.performed (q : Req) (sc : Scope) : Bool :=
  match sc with
  | .act | .elem | .rsv => true
  | .pair | .region =>
    isSys q.addr || (match q.stage with
      | .accepted | .atHome | .replied _ => true
      | _ => false)
  | .die | .device =>
    isSys q.addr || (match q.stage with
      | .atHome | .replied _ => true
      | _ => false)
  | .system => (match q.stage with
      | .replied (.cause _) => true
      | .replied _ => !q.takesValue
      | _ => false)
def State.performed (s : State) (id : Nat) (sc : Scope) : Bool :=
  match s.reqs.find? (fun q => q.id == id) with
  | some q => q.performed sc
  | none => true
/-- Everything that a request, a token or a completion waits for is performed (R124, R243, R244). -/
def State.allPerformed (s : State) (l : List (Nat × Scope)) : Bool := l.all fun x => s.performed x.1 x.2

/-! Phases (R452) -/

def Region.phase (g : Region) (f : Facet) : Nat := fld g.phs (3 * f.val) 3
def Region.setPhase (g : Region) (f : Facet) (n : Nat) : Region := { g with phs := setFld g.phs (3 * f.val) 3 n }
/-- Phase 2 to 3: a token passes an egress site, or an activation or a command commits where there is no egress port. -/
def Region.phaseSteady (g : Region) (f : Facet) : Region := if g.phase f = 2 then g.setPhase f 3 else g
/-- Phases 2, 3 and 4 after a change of the region: no site stamps f any longer, or a site stamps f again. -/
def Region.phaseStamps (old g : Region) (f : Facet) : Region :=
  if (g.phase f = 2 ∨ g.phase f = 3) ∧ old.stamps f ∧ !g.stamps f then g.setPhase f 4
  else if g.phase f = 4 ∧ g.stamps f then g.setPhase f 3 else g
/-- A change of a region, with what it does to the phases. -/
def Region.restamp (old : Region) (h : Region → Region) : Region := (List.finRange 4).foldl (fun g f => old.phaseStamps g f) (h old)
/-- An activation of facet f commits, or a command of it completes (R452). -/
def State.phaseCommit (s : State) (t : Tile) (f : Facet) : State :=
  match s.regionOf t with
  | some r => if (s.rg r).phase f = 2 ∧ (s.egressOf r f).isEmpty then s.modRg r (·.phaseSteady f) else s
  | none => s

/-! Rollback and stop -/

/-- The activation of a tile, if one is in progress, aborts (R32, R383 step 1). -/
def State.abortTile (s : State) (t : Tile) : State :=
  match (s.el t).act with
  | some a => s.abort t a
  | none => s
/-- A rollback abandons a save in its steps 2 to 5: it waits for its restart at step 1, and the sites stamp its facet again (R391). -/
def Region.abandonSave (g : Region) : Region :=
  if g.preempt.any (fun p => !p.restore) then g.restamp fun g => { g with prectl := setFld g.prectl 8 3 1 } else g
/-- Step 1 of R383: the sites accept nothing, the activations abort, nothing is dispatched or started. A debug cut ends (R449). -/
def State.beginRollback (s : State) (r : RegionId) (stop : Bool) : State :=
  let s := (s.rg r).tiles.foldl State.abortTile s
  s.modRg r fun g =>
    ({ g with rollback := some ⟨s.cycle, stop, false⟩, faulted := [],
              tidestat := if stop then setBit g.tidestat 35 true else g.tidestat,
              dcut := if fld g.dcut 4 2 = 0 then g.dcut else setBit (setFld g.dcut 4 2 0) 6 true } : Region).abandonSave
/-- A region stops (R385): steps 1 and 2 of R383 without replay. -/
def State.stopRegion (s : State) (r : RegionId) : State :=
  if (s.rg r).stop then s else s.beginRollback r true
/-- One region rolls back, or stops where tides do not run (R386) or REPL would exceed REPMAX (R385). Triggers of one cycle are one
rollback (R397). -/
def State.rollbackOne (s : State) (r : RegionId) : State :=
  let g := s.rg r
  if g.stop then s
  else if (match g.rollback with
      | some rb => rb.cycle == s.cycle
      | none => false) then s
  else if !g.tides then s.beginRollback r true
  else
    let n := fld g.tidestat 32 3 + 1
    if n > max 1 (fld g.tide 5 3) then (s.causeRg r 0 causeReplayLimit g.ctide).beginRollback r true
    else (s.beginRollback r false).modRg r fun g =>
      { g with tidestat := setFld g.tidestat 32 3 n, counters := vmod g.counters 3 (· + 1) }
/-- Regions joined to a set of regions by clasps (R381). -/
def State.claspClosure (s : State) : Nat → List Nat → List Nat
  | 0, l => l
  | n + 1, l =>
    s.claspClosure n (s.clasps.foldl (fun l c =>
      if c.any (fun m => l.contains m.1) then (c.map (·.1)).foldl sins l else l) l)
/-- A rollback trigger (R383): the regions and every member of their clasps; the clasps end. A frozen region's trigger is latched
by the caller. -/
def State.rollback (s : State) (rs : List RegionId) : State :=
  let all := s.claspClosure 32 ((rs.map (·.val)).foldl sins [])
  let s := (List.finRange 32).foldl (fun s r => if all.contains r.val then s.rollbackOne r else s) s
  { s with clasps := s.clasps.filter (fun c => !c.any (fun m => all.contains m.1)) }
/-- A stop that a cause demands (R364): the members of its clasps roll back with it (R381). -/
def State.stopCause (s : State) (r : RegionId) : State :=
  let s := s.stopRegion r
  s.rollback [r]
/-- A cause of a tile whose effect is a stop. -/
def State.causeStop (s : State) (t : Tile) (f : Facet) (code detail : Nat) : State :=
  let s := s.cause t f code false detail
  match s.regionOf t with
  | some r => s.stopCause r
  | none => s

/-! Requests of an element -/

/-- A new request of an activation, with the facet's reach and the wait of earlier FENCEs (R244, R374). -/
def State.newReq (s : State) (t : Tile) (a : Act) (form : Nat) (loc : Word) (addr size : Nat) (sc : Scope) (leaf : Word) : Req :=
  let r := s.regionOf t
  let bud := match r with
    | some r => fld (s.rg r).mbud (12 * a.facet.val) 12 + 1
    | none => 4096
  { id := s.nextId, src := .elem t a.facet a.handler (a.pc.toNat % 2048), form := form, loc := loc, addr := addr, size := size,
    scope := sc, region := r, die := t.die, facet := a.facet, reach := ((s.el t).fac a.facet).reach, budget := bud,
    fe := bit leaf 9, sync := bit leaf 10, qcls := fld leaf 13 2, gl := fld leaf 7 2, cls := fld leaf 52 4, wait := a.fenceWait }
def State.bumpId (s : State) : State := { s with nextId := s.nextId + 1 }

end Sys2Proof.Machine
end

