-- ==== Sys2Proof/Machine/Mem.lean ====
section
/-! DEFINITION. Device memory at its homes: HBM granules, checks and layouts (R212 to R217), writes and tag changes with what they
wake (R218 to R220), the breakwater's view, shadows and clasps (R249, R250, R378, R381), deferral and mooring lists (R220 to R222),
and the access of a request at its home. -/

namespace Sys2Proof.Machine

/-! Words, banks and homes -/

/-- The words that an access touches. -/
def wordsAt (addr size : Nat) : List Nat :=
  (List.range (if size = 0 then 1 else (addr + size - 1) / 8 - addr / 8 + 1)).map (addr / 8 + ·)
def Req.words (q : Req) : List Nat := wordsAt q.addr q.size
/-- The home bank of a word (R208, R212, R219); the mapping of HBM rows to banks is fixed and not seen. -/
def bankOf (word : Nat) : Nat :=
  let pa := 8 * word
  if isMt pa then (mtTile pa).key * 16 + word % 16
  else 2 ^ 20 + (pa / 2 ^ 36 * 64 + pa / 32 % 64) * 2 ^ 26 + Config.hbmBank (pa / 2 ^ 11 % 2 ^ 25) % 2 ^ 26
/-- Two requests reach one home. -/
def Req.sameHome (q p : Req) : Bool := (q.words.map bankOf).any fun b => (p.words.map bankOf).contains b
def Req.sameWord (q p : Req) : Bool := q.words.any fun w => p.words.contains w
/-- The tile of a requester. -/
def Source.tile : Source → Option Tile
  | .elem t _ _ _ | .engine t _ _ | .sparse t _ _ _ | .matrix t _ _ => some t
  | .save _ => none
def Source.isElem : Source → Bool
  | .elem _ _ _ _ => true
  | _ => false
/-- A cause raised for a requester: at its tile, or by its region as a whole. -/
def State.causeReq (s : State) (q : Req) (code detail : Nat) : State :=
  match q.src.tile, q.region with
  | some t, _ => s.cause t q.facet code false detail
  | none, some r => s.causeRg r q.facet code detail
  | none, none => s
/-- The system window that holds an address, of either I/O die (R433): I/O die, host address, coherent path, relaxed ordering. -/
def State.sysTarget (s : State) (pa : Nat) : Option (Fin 2 × Nat × Bool × Bool) :=
  ((List.finRange 2).flatMap fun io => (List.range 16).filterMap fun w =>
    let a := tget (s.io io).syswin (2 * w) 0
    let base := fld a 20 32 * 2 ^ 20
    let lo := pa % 2 ^ 52
    if bit a 0 && decide (base ≤ lo) && decide (lo < base + 2 ^ (20 + fld a 1 5)) && decide (fld a 1 5 ≤ 24) then
      some (io, (tget (s.io io).syswin (2 * w + 1) 0).toNat + (lo - base), fld a 6 2 == 1, bit a 8) else none).head?
/-- Where the bytes of a physical address stand in the model's memory: system-window addresses stand behind their I/O die. -/
def State.place (s : State) (pa : Nat) : Nat :=
  if isSys pa then
    match s.sysTarget pa with
    | some (io, h, _, _) => hostBase io + h
    | none => pa
  else pa

/-! Turns (R159, R208, R219) -/

/-- A resource is free for a requester: nobody has used it in this cycle, and nobody else has waited for it since an earlier one. -/
def Turns.free (x : Turns) (who res : Nat) : Bool :=
  !x.used.contains res && (match tget x.old res [] with
    | [] => true
    | w :: _ => w == who)
/-- A requester uses resources in this cycle. -/
def Turns.take (x : Turns) (who : Nat) (rs : List Nat) : Turns :=
  { x with used := x.used ++ rs, old := rs.foldl (fun o r => tset o r ((tget o r []).filter (· != who))) x.old }
/-- A requester asks in vain. -/
def Turns.ask (x : Turns) (who : Nat) (rs : List Nat) : Turns :=
  { x with asked := rs.foldl (fun o r => if (tget o r []).contains who then o else tset o r (tget o r [] ++ [who])) x.asked }
/-- A new cycle: those that asked in vain wait, the longest first (round-robin, log 65). -/
def Turns.next (x : Turns) : Turns :=
  { used := [], asked := [],
    old := x.asked.map fun a =>
      let o := (tget x.old a.1 []).filter a.2.contains
      (a.1, o ++ a.2.filter fun w => !o.contains w) }
/-- A requester that finds all its resources free uses them and acts; otherwise it waits. -/
def State.inTurn (s : State) (who : Nat) (rs : List Nat) (act : State → State) : State :=
  if rs.all (s.turns.free who) then act { s with turns := s.turns.take who rs } else { s with turns := s.turns.ask who rs }
/-- What an access uses: a bank of an MT, a word of HBM. -/
def accessOf (words : List Nat) : List Nat :=
  (words.map fun w => if isMt (8 * w) then bankOf w else 2 ^ 70 + w).dedup
/-- Who asks: a request, a port of an MT, the pair path of an element, or an MT at a bus. -/
def reqTurn (id : Nat) : Nat := 2 * id
def portTurn (t : Tile) (k : Nat) : Nat := 2 * (256 * t.key + k) + 1
/-- A request has waited for its turn since an earlier cycle. -/
def State.waitsTurn (s : State) (id : Nat) : Bool := s.turns.old.any fun o => o.2.contains (reqTurn id)

/-! HBM granules -/

/-- Bytes of the granule with a GL code (R213). -/
def granBytes (gl : Nat) : Nat := 32 * 2 ^ gl
/-- The bursts of the aligned block of g bytes that holds an address. -/
def burstsOf (pa g : Nat) : List Nat := (List.range (g / 32)).map (pa / g * (g / 32) + ·)
/-- The aligned blocks of g bytes that an access touches. -/
def blocksOf (pa size g : Nat) : List Nat := (List.range ((pa + size - 1) / g - pa / g + 1)).map fun i => (pa / g + i) * g
def Memory.glAt (m : Memory) (pa : Nat) : Nat := tget m.gl (pa / 32) 0
def setTab0 (t : Tab Nat) (k v : Nat) : Tab Nat := if v = 0 then tdel t k else tset t k v
def wordsOfBlock (pa g : Nat) : List Nat := (List.range (g / 8)).map (pa / g * (g / 8) + ·)
/-- Sets or clears the poison of every word of a block (PSN, R214). -/
def Memory.poisonBlock (m : Memory) (pa g : Nat) (b : Bool) : Memory :=
  { m with poison := (wordsOfBlock pa g).foldl (fun l w => sput l w b) m.poison }
def Memory.blockPoison (m : Memory) (pa g : Nat) : Bool := (wordsOfBlock pa g).any fun w => m.poison.contains w

/-- One byte of a CRC-16 with polynomial 0x1021, the most significant bit first (the order of bits is a DESIGN CHOICE, log 58). -/
def crcByte (c : BitVec 16) (b : Byte) : BitVec 16 :=
  (List.range 8).foldl (fun c _ => if c.getLsbD 15 then (c <<< 1) ^^^ 0x1021 else c <<< 1) (c ^^^ (b.setWidth 16 <<< 8))
/-- The CRC-16 of R215: initial value 0xFFFF. -/
def crc16 (l : List Byte) : BitVec 16 := l.foldl crcByte 0xFFFF
/-- Metadata bits [7:0] of a burst: FE, PSN and GL (R214). -/
def Memory.metaLow (m : Memory) (b : Nat) : Nat :=
  (List.range 4).foldl (fun n j => n + (m.full.contains (4 * b + j)).toNat * 2 ^ j) 0 +
  (m.blockPoison (32 * b) (granBytes (m.glAt (32 * b)))).toNat * 16 + m.glAt (32 * b) * 32
/-- The 36 bytes of a burst of the 256 B layout as its last write stored them: data, metadata with the CRC (R215). -/
def Memory.burst (m : Memory) (b : Nat) : Nat :=
  let data := m.read (32 * b) 32
  let low := m.metaLow b
  data + 2 ^ 256 * (low + 256 * (crc16 (bytesOf 32 data ++ [BitVec.ofNat 8 low, 0])).toNat)
/-- The CRC of 36 bytes matches. -/
def crcHolds (x : Nat) : Bool :=
  let md := x / 2 ^ 256
  (crc16 (bytesOf 32 (x % 2 ^ 256) ++ [BitVec.ofNat 8 md, BitVec.ofNat 8 (md / 2 ^ 24)])).toNat == md / 256 % 65536
/-- The 36 bytes as they stand in the stack now, with the bits that have flipped. -/
def Memory.rawBurst (m : Memory) (b : Nat) : Nat := m.burst b ^^^ tget m.bad b 0
/-- The check burst of a granule as it stands: the XOR of the 8 bursts as written, with the bits that have flipped (R215). -/
def Memory.checkBurst (m : Memory) (pa : Nat) : Nat :=
  (burstsOf pa 256).foldl (fun x b => x ^^^ m.burst b) 0 ^^^ tget m.bad (checkUnit pa) 0
/-- A burst rebuilt from the other seven and the check burst (R215). -/
def Memory.rebuilt (m : Memory) (b : Nat) : Nat :=
  ((burstsOf (32 * b) 256).filter (· != b)).foldl (fun x c => x ^^^ m.rawBurst c) (m.checkBurst (32 * b))
/-- Some stored bit of the granule that holds an address has flipped. -/
def Memory.struck (m : Memory) (pa : Nat) : Bool :=
  !m.bad.isEmpty && ((burstsOf pa (granBytes (m.glAt pa))).any (fun b => tget m.bad b 0 != 0) ||
    (m.glAt pa == 3 && tget m.bad (checkUnit pa) 0 != 0))
/-- The check of the granule that holds an address, by the layout that wrote it (R214 to R216): 0 clean, 1 corrected, 2 uncorrectable
with the bursts that are lost. SEC-DED corrects one flipped bit of a burst and finds two. -/
def Memory.check (m : Memory) (pa : Nat) : Nat × List Nat :=
  if !m.struck pa then (0, [])
  else
    let bs := burstsOf pa (granBytes (m.glAt pa))
    if m.glAt pa = 3 then
      match bs.filter fun b => !crcHolds (m.rawBurst b) with
      | [] => (0, [])
      | [b] => if crcHolds (m.rebuilt b) then (1, []) else (2, [b])
      | l => (2, l)
    else
      match bs.filter fun b => decide (2 ≤ bitsSet 288 (tget m.bad b 0)) with
      | [] => (1, [])
      | l => (2, l)
/-- The bits in which a burst as it is read differs from the burst as it was written. -/
def Memory.readDiff (m : Memory) (b : Nat) : Nat :=
  if !m.struck (32 * b) then 0
  else if m.glAt (32 * b) = 3 then
    if crcHolds (m.rawBurst b) || (m.check (32 * b)).2.contains b then tget m.bad b 0 else m.rebuilt b ^^^ m.burst b
  else if (m.check (32 * b)).2.contains b then tget m.bad b 0 else 0
/-- A byte as a read returns it: with the flipped bits that its check does not correct (R216). -/
def Memory.seen (m : Memory) (a : Nat) : Byte :=
  if m.bad.isEmpty then m.byte a
  else if isHbm a then m.byte a ^^^ BitVec.ofNat 8 (m.readDiff (a / 32) / 2 ^ (8 * (a % 32)))
  else if m.lostWord a then m.byte a ^^^ BitVec.ofNat 8 (tget m.bad (wordUnit a) 0 / 2 ^ (8 * (a % 8))) else m.byte a
/-- n bytes as a read returns them. -/
def Memory.readSeen (m : Memory) (a n : Nat) : Nat :=
  if m.bad.isEmpty then m.read a n else ofBytes ((List.range n).map fun i => m.seen (a + i))
/-- Bursts are written anew as they are read: their check bits match again, and lost bytes stay as the read gave them. -/
def Memory.rewrite (m : Memory) (bs : List Nat) : Memory :=
  if m.bad.isEmpty then m
  else
    let cells := bs.flatMap fun b => if tget m.bad b 0 = 0 then [] else (List.range 32).map fun i => (32 * b + i, m.seen (32 * b + i))
    { m.putCells cells with bad := bs.foldl (fun t b => tdel (tdel t b) (checkUnit (32 * b))) m.bad }
/-- The unit of R217 that holds an address: the aligned block of the larger granule. -/
def Memory.unitOf (m : Memory) (pa gl : Nat) : Nat := max (granBytes (m.glAt pa)) (granBytes gl)
/-- A unit is rewritten in the page's layout when any burst of it stands in another (R217): content passes unchanged, and a burst that
is uncorrectable under its old layout is rewritten poisoned. -/
def Memory.convert (m : Memory) (pa gl : Nat) : Memory :=
  let u := m.unitOf pa gl
  let bs := burstsOf pa u
  if bs.all (fun b => tget m.gl b 0 == gl) then m
  else
    let lost := bs.filter fun b => (m.check (32 * b)).2.contains b
    let m1 := lost.foldl (fun m b => m.poisonBlock (32 * b) 32 true) (m.rewrite bs)
    let m2 := { m1 with gl := bs.foldl (fun t b => setTab0 t b gl) m1.gl }
    (blocksOf (pa / u * u) u (granBytes gl)).foldl (fun m p => if m.blockPoison p (granBytes gl) then m.poisonBlock p (granBytes gl) true else m) m2
/-- The granules, each in the layout that wrote it, that an access touches (R213). -/
def Memory.granules (m : Memory) (pa size : Nat) : List Nat :=
  ((blocksOf pa size 32).map fun p => p / granBytes (m.glAt p) * granBytes (m.glAt p)).dedup
/-- A read of HBM (R216): the memory after a conversion, how many corrected errors are counted, whether the data is lost, and the words
whose tag is unknown. -/
def Memory.readHbm (m : Memory) (pa size gl : Nat) : Memory × Nat × Bool × List Nat :=
  let checks := (m.granules pa size).map m.check
  let m' := (blocksOf pa size 32).foldl (fun m p => m.convert p gl) m
  (m', (checks.filter (fun c => c.1 == 1)).length, checks.any (fun c => c.1 == 2),
    checks.flatMap fun c => c.2.flatMap fun b => (List.range 4).map (4 * b + ·))
/-- A write to HBM (R213, R216): whole granules; PSN is set from the data, and what a partial write merges keeps its poison. -/
def Memory.writeHbm (m : Memory) (pa : Nat) (bs : List Byte) (gl : Nat) (poison : Bool) : Memory :=
  let g := granBytes gl
  let m0 := (blocksOf pa bs.length 32).foldl (fun m p => m.convert p gl) m
  let m1 := (blocksOf pa bs.length g).foldl (fun m p =>
    let part := !(decide (pa ≤ p) && decide (p + g ≤ pa + bs.length))
    let old := part && (m.blockPoison p g || (m.check p).1 == 2)
    let m := m.poisonBlock p g (poison || old)
    m.rewrite (burstsOf p g)) m0
  m1.putBytes pa bs
/-- The granules of which a write covers only a part, and which it reads first (R213). -/
def Memory.mergeReads (m : Memory) (pa n gl : Nat) : List Nat :=
  let part := (blocksOf pa n (granBytes gl)).filter fun p => !(decide (pa ≤ p) && decide (p + granBytes gl ≤ pa + n))
  (part.flatMap fun p => m.granules p (granBytes gl)).dedup
/-- A write to words of an MT, of local or of host memory: a word that is written in part keeps its poison. -/
def Memory.writeWords (m : Memory) (pa : Nat) (bs : List Byte) (poison : Bool) : Memory :=
  let m1 := (wordsAt pa bs.length).foldl (fun m w =>
    let part := !(decide (pa ≤ 8 * w) && decide (8 * w + 8 ≤ pa + bs.length))
    m.setPoison (8 * w) (poison || (part && m.isPoison (8 * w)))) m
  m1.putBytes pa bs
/-- Bytes written at their home. -/
def Memory.devWrite (m : Memory) (pa : Nat) (bs : List Byte) (gl : Nat) (poison : Bool) : Memory :=
  if isHbm pa then m.writeHbm pa bs gl poison else m.writeWords pa bs poison

/-! What a region sees (R241, R249) -/

/-- The byte of a pending store at an address. -/
def BwEntry.byteAt (e : BwEntry) (pa : Nat) : Option (Byte × Bool) :=
  match e.kind with
  | .store _ a bs _ _ p => if a ≤ pa then (bs[pa - a]?).map fun b => (b, p) else none
  | _ => none
/-- The newest pending store of a region that covers an address, over all breakwaters. -/
def State.pendingByte (s : State) (r : RegionId) (pa : Nat) : Option (Byte × Bool) :=
  ((List.finRange 8).foldl (fun (acc : Nat × Option (Byte × Bool)) d =>
    (s.die d).bw.foldl (fun acc e =>
      if e.region = r then
        match e.byteAt pa with
        | some x => if acc.1 ≤ e.seq then (e.seq, some x) else acc
        | none => acc
      else acc) acc) (0, none)).2
/-- The breakwaters hold a pending store of the region to a word (R241). -/
def State.hasPending (s : State) (r : RegionId) (word : Nat) : Bool :=
  (List.finRange 8).any fun d => (s.die d).bw.any fun e =>
    e.region == r && (match e.kind with
      | .store _ a bs _ _ _ => (wordsAt a bs.length).contains word
      | _ => false)
/-- A byte as a region's plain load sees it, with its poison. -/
def State.viewByte (s : State) (r : Option RegionId) (pa : Nat) : Byte × Bool :=
  match r.bind (fun r => s.pendingByte r pa) with
  | some x => x
  | none => (s.mem.seen (s.place pa), s.mem.isPoison (s.place pa))
/-- Bytes as a region's plain load sees them, under the requester's own stores (R228, R241). -/
def State.viewBytes (s : State) (q : Req) (overlay : List (Nat × Byte)) : List (Byte × Bool) :=
  (List.range q.size).map fun i =>
    match overlay.find? (fun x => x.1 == i) with
    | some x => (x.2, false)
    | none => s.viewByte q.region (q.addr + i)

/-! Breakwater room, shadows and clasps -/

/-- What a breakwater says to a new entry (R378). -/
inductive Room where
  | ok | wait | overflow
  deriving DecidableEq, Repr
def bwSize : Nat := 524288
/-- The reach is the region's oldest uncommitted one; without tides every entry counts as such (R386). -/
def Region.oldest (g : Region) (reach : Nat) : Bool := !g.tides || decide (reach ≤ g.ctide)
/-- Entries of 16 bytes in use. -/
def bwUsed (l : List BwEntry) : Nat := l.foldl (fun n e => n + e.units) 0
def State.bwRoom (s : State) (d : DieId) (r : RegionId) (reach n : Nat) : Room :=
  let free := bwSize - bwUsed (s.die d).bw
  let old := (s.rg r).oldest reach
  if decide (n ≤ free) && (!decide (free < 65536) || old) then .ok
  else if old && decide (free < n) then .overflow else .wait
/-- BWOCC follows the entries of the region on all dies (R376). -/
def State.syncOcc (s : State) (r : RegionId) : State :=
  let n := (List.finRange 8).foldl (fun n d => n + bwUsed ((s.die d).bw.filter (fun e => e.region == r))) 0
  s.modRg r fun g => { g with tidestat := setFld g.tidestat 40 24 n }
/-- A breakwater's free space, against 1 MiB: below it the mark is set, above it cleared (R378). -/
def Die.markLow (x : Die) : Die :=
  let free := bwSize - bwUsed x.bw
  { x with bwLow := decide (free < 65536) || (x.bwLow && free == 65536) }
/-- An entry is accepted by a die's breakwater. -/
def State.bwPut (s : State) (d : DieId) (r : RegionId) (reach units : Nat) (k : BwKind) : State :=
  let e : BwEntry := { seq := s.nextId, region := r, reach := reach, at_ := s.cycle, units := units, timed := !(s.rg r).tides, kind := k }
  (s.bumpId.modDie d fun x => { x with bw := x.bw ++ [e] }.markLow).syncOcc r
/-- breakwater-overflow: the region stops (R378, R364). -/
def State.bwOverflow (s : State) (d : DieId) (r : RegionId) (f : Facet) : State :=
  (s.causeRg r f causeBreakwater d.val).stopCause r
/-- Shadows of a word, oldest first: entry of the word's home die. -/
def State.shadowsOf (s : State) (word : Nat) : List BwEntry :=
  (s.die (dieOfPa (8 * word))).bw.filter fun e => match e.kind with
    | .shadow w _ _ _ => w == word
    | _ => false
/-- The reach has recorded a shadow of the word. -/
def State.hasShadow (s : State) (r : RegionId) (reach word : Nat) : Bool :=
  (s.shadowsOf word).any fun e => e.region == r && (if (s.rg r).tides then e.reach == reach && !e.timed else e.timed)
/-- Records the shadow of a word before the first home-class access of a reach (R250); HBM words only. -/
def State.addShadow (s : State) (r : RegionId) (reach word : Nat) : State :=
  if isHbm (8 * word) && !s.hasShadow r reach word then
    s.bwPut (dieOfPa (8 * word)) r reach 1 (.shadow word (s.mem.read (8 * word) 8) (s.mem.isFull (8 * word)) (s.mem.isPoison (8 * word)))
  else s
/-- Two pairs come to share a clasp; clasps that share a member merge (R381). -/
def joinClasp (cs : List Clasp) (a b : Nat × Nat) : List Clasp :=
  let hit := cs.filter fun c => c.contains a || c.contains b
  cs.filter (fun c => !(c.contains a || c.contains b)) ++ [(a :: b :: hit.flatten).dedup]
/-- The region of an access and the regions whose reaches shadow the word join clasps (R250, R381). Regions without tides have no
reach that commits, and join none. -/
def State.claspAccess (s : State) (r : RegionId) (reach word : Nat) : State :=
  { s with clasps := (s.shadowsOf word).foldl (fun cs e =>
      if e.region ≠ r ∧ (s.rg r).tides ∧ (s.rg e.region).tides then joinClasp cs (r.val, reach) (e.region.val, e.reach) else cs) s.clasps }

/-! Tags -/

/-- A request waits deferred at its home. -/
def Req.deferred (q : Req) : Bool := q.stage == .slot || q.stage == .listed
/-- Comparators of a region that watch an HBM word's tag, or an MT word's (R445); ΣL is added for an HBM home (R447). -/
def State.dbgHbmTag (s : State) (r : RegionId) (f : Facet) (pa : Nat) (toFull : Bool) : State :=
  (List.finRange 8).foldl (fun s k =>
    let g := s.rg r
    let c := tget g.dwpctl k.val 0
    if fld c 0 3 == 4 && fld c 3 2 == f.val && tagVal (tget g.dwpval k.val 0) 2 pa toFull then
      s.dbgMatch r k.val (s.diesL (dieOfPa pa) g.corner.die) (bit c 17) causeWatchpoint k.val
    else s) s
/-- The area of an MT facet: first byte, and the index in it of an SRAM word. -/
def State.mtMode (s : State) (t : Tile) (f : Facet) : Option MtMode := ((s.mt t).fac f).mode
/-- RP moves past a line that is released, and past the written lines after it whose last word is empty, since they were released
before it (R210; DEDUCED, log 57). -/
def State.passLines (s : State) (t : Tile) (m : MtMode) (wp : Nat) : Nat → Nat → Nat
  | 0, rp => rp
  | n + 1, rp =>
    let next := (rp + m.bufw) % m.msize
    if next = wp / m.bufw * m.bufw ∨ s.mem.isFull (mtBase t + 8 * (m.mbase + next + m.bufw - 1)) then next else s.passLines t m wp n next
/-- A line buffer's line is released when its last word's tag becomes empty: RP moves past it once it is the oldest (R210). -/
def State.lineRelease (s : State) (t : Tile) (w : Nat) : State :=
  (List.finRange 4).foldl (fun s f =>
    match s.mtMode t f with
    | some m =>
      let x := (s.mt t).fac f
      if m.mode = 2 ∧ 0 < m.bufw ∧ m.mbase ≤ w ∧ w < m.mbase + m.msize ∧ (w - m.mbase) % m.bufw = m.bufw - 1 ∧
          x.rp = (w - m.mbase) / m.bufw * m.bufw then
        s.modMtFac t f fun x => { x with rp := s.passLines t m x.wp (m.msize / m.bufw) x.rp }
      else s
    | none => s) s
/-- The tag of a device word becomes b (R219, R220): a change wakes deferred requests, and comparators see it. -/
def State.setTag (s : State) (word : Nat) (b : Bool) (f : Facet) (r : Option RegionId) : State :=
  if s.mem.isFull (8 * word) = b then s
  else
    let s := { s with mem := s.mem.setFull (8 * word) b,
                      reexam := if s.reqs.any (fun q => q.deferred && q.words.contains word) then sins s.reexam word else s.reexam }
    if isMt (8 * word) then
      let t := mtTile (8 * word)
      let w := (8 * word - mtBase t) / 8
      let s := s.dbgTag t f 1 w b
      if b then s else s.lineRelease t w
    else match r with
      | some r => s.dbgHbmTag r f (8 * word) b
      | none => s
/-- An engine, the matrix unit, TLD or TST accesses an area word at its bank, for reading, for writing or for both (type 001 of R445). -/
def State.dbgMt (s : State) (t : Tile) (f : Facet) (idx : Nat) (reads writes : Bool) : State :=
  s.dbgEvent t f 1 fun v =>
    decide (fld v 0 17 ≤ idx) && decide (idx ≤ fld v 17 17) && ((reads && bit v 34) || (writes && bit v 35)) && fld v 36 28 == 0
/-- Forms that read a word's data, and those that write it (R218). -/
def formReads (form : Nat) : Bool := form == 0 || form == 2 || form == 3 || form == 8 || form == 9
def formWrites (form : Nat) : Bool := form == 1 || form == 4 || form == 5 || form == 8 || form == 9 || form == 0xB

/-! Area words of an MT -/

/-- What the undo log says to a write that changes n words (R373). -/
def State.mtLogRoom (s : State) (t : Tile) (n : Nat) : Room :=
  let m := s.mt t
  if !s.logs t || decide (m.undo.length + n ≤ 8192) then .ok
  else if m.undo.all (fun u => u.reach == (m.fac u.facet).reach) then .overflow else .wait
/-- Bytes written to SRAM words of an MT, with the undo entries of the words. -/
def State.mtWrite (s : State) (t : Tile) (f : Facet) (off : Nat) (bs : List Byte) (poison : Bool) : State :=
  let pa := mtBase t + off
  let s := (wordsAt pa bs.length).foldl (fun s w => s.logMt t f w) s
  { s with mem := s.mem.writeWords pa bs poison }
/-- A write of an SRAM word with the tag that it leaves: one undo entry holds both (R373). -/
def State.mtFill (s : State) (t : Tile) (f : Facet) (off : Nat) (bs : List Byte) (poison b : Bool) : State :=
  (s.mtWrite t f off bs poison).setTag ((mtBase t + off) / 8) b f (s.regionOf t)
/-- The tag of an SRAM word, with its undo entry. -/
def State.mtTag (s : State) (t : Tile) (f : Facet) (w : Nat) (b : Bool) : State :=
  let word := (mtBase t) / 8 + w
  if s.mem.isFull (8 * word) = b then s else (s.logMt t f word).setTag word b f (s.regionOf t)

/-! Deferral (R220 to R222) -/

/-- Device time at a word's home. -/
def State.homeTime (s : State) (pa : Nat) : Nat := (s.die (dieOfPa pa)).time
/-- The tag that a form needs (R218); the model's form 0xC only waits for empty (R298). -/
def formNeeds (form : Nat) : Option Bool :=
  if form = 2 ∨ form = 3 ∨ form = 9 ∨ form = 10 then some true else if form = 4 ∨ form = 0xC then some false else none
/-- The four words of a mooring entry (R222). -/
def moorEntry (q : Req) (time next data : Nat) (form : Nat) : List Byte :=
  let size := if q.size = 1 then 0 else if q.size = 2 then 1 else if q.size = 4 then 2 else if q.size = 8 then 3 else 4
  bytesOf 8 (q.addr / 8 * 8 % 2 ^ 52 + form % 16 * 2 ^ 52 + size * 2 ^ 56) ++ bytesOf 8 data ++
  bytesOf 8 (q.id % 2 ^ 32 + (time + q.budget * 1000) / 2 ^ 10 % 2 ^ 32 * 2 ^ 32) ++ bytesOf 8 (next + time % 2 ^ 40 * 2 ^ 24)
/-- Entries that a request takes in a mooring list: an MCAS takes a second, linked one (R222). -/
def Req.moorLen (q : Req) : Nat := if q.cas then 2 else 1
/-- The last of them. -/
def Req.lastIdx (q : Req) : Nat := if q.cas then q.idx2 else q.idx
/-- The indices of a region's list that no request uses, lowest first. -/
def State.freeIdx (s : State) (r : RegionId) : List Nat :=
  let used := (s.reqs.filter (fun q => q.stage == .listed && q.region == some r)).flatMap fun q => if q.cas then [q.idx, q.idx2] else [q.idx]
  (List.range (used.length + 2)).filter fun i => !used.contains i
/-- The requests of a bank in a region's list, in arrival order: their entries form the chain (R221, R222). -/
def State.chain (s : State) (r : RegionId) (bank : Nat) : List Req :=
  s.reqs.filter fun p => p.stage == .listed && p.region == some r && bankOf (p.addr / 8) == bank
/-- NEXT of the last entry of a request. -/
def State.setNext (s : State) (r : RegionId) (p : Req) (next : Nat) : State :=
  { s with mem := s.mem.putBytes (fld (s.rg r).moor 12 40 * 2 ^ 12 + 32 * p.lastIdx + 24) (bytesOf 3 next) }
/-- A request is deferred at its home (R220): a free slot, or the mooring list of its region, or mooring-overflow. -/
def State.defer (s : State) (q : Req) : State × Option Nat :=
  let bank := bankOf (q.addr / 8)
  let mine := s.reqs.filter fun p => p.deferred && bankOf (p.addr / 8) == bank
  let now := s.homeTime q.addr
  let q := { q with arrived := now, order := s.nextId }
  let s := s.bumpId
  let put (s : State) (q : Req) : State := { s with reqs := s.reqs.filter (fun p => p.id != q.id) ++ [q] }
  if decide ((mine.filter (fun p => p.stage == .slot)).length < 16) && !mine.any (fun p => p.stage == .listed) then
    (put s { q with stage := .slot }, none)
  else match q.region with
    | none => (s, some causeMooringOverflow)
    | some r =>
      let g := s.rg r
      let len := fld g.mlen 0 24
      let used := fld g.mlen 24 24
      if !bit g.moor 0 || !bit g.moor 1 || decide (len < used + q.moorLen) then (s, some causeMooringOverflow)
      else
        let free := s.freeIdx r
        let idx := free.headD 0
        let idx2 := (free.drop 1).headD 0
        let base := fld g.moor 12 40 * 2 ^ 12
        let s := match (s.chain r bank).getLast? with
          | some p => s.setNext r p idx
          | none => s
        let s := put s { q with stage := .listed, idx := idx, idx2 := idx2 }
        let s := s.modRg r fun g => { g with mlen := setFld g.mlen 24 24 (used + q.moorLen) }
        let m := s.mem.putBytes (base + 32 * idx) (moorEntry q now (if q.cas then idx2 else 0xFFFFFF) q.data q.form)
        let m := if q.cas then m.putBytes (base + 32 * idx2) (moorEntry q now 0xFFFFFF q.data2 8) else m
        ({ s with mem := m }, none)
/-- A deferred request leaves its slot or its list: USED falls, and the chain closes over its entries (R221, R222). -/
def State.undefer (s : State) (q : Req) : State :=
  match q.stage, q.region with
  | .listed, some r =>
    let l := s.chain r (bankOf (q.addr / 8))
    let next := ((l.dropWhile fun p => p.id != q.id).drop 1).head?.map (·.idx)
    let s := match (l.takeWhile fun p => p.id != q.id).getLast? with
      | some p => s.setNext r p (next.getD 0xFFFFFF)
      | none => s
    s.modRg r fun g => { g with mlen := setFld g.mlen 24 24 (fld g.mlen 24 24 - q.moorLen) }
  | _, _ => s
/-- The deferred requests of a word in the order of re-examination (R220, R222). -/
def insertBy {α : Type} (key : α → Nat) (x : α) : List α → List α
  | [] => [x]
  | y :: l => if key x < key y then x :: y :: l else y :: insertBy key x l
def sortBy {α : Type} (key : α → Nat) (l : List α) : List α := l.foldl (fun acc x => insertBy key x acc) []
def State.deferredOf (s : State) (word : Nat) : List Req :=
  let l := s.reqs.filter fun q => q.deferred && q.words.contains word
  sortBy (·.order) (l.filter (fun q => q.stage == .slot)) ++ sortBy (fun q => q.arrived * 2 ^ 64 + q.order) (l.filter (fun q => q.stage == .listed))
/-- The word is held (R230). -/
def State.isHeld (s : State) (word : Nat) : Bool := s.holds.any fun h => h.word == word
/-- The need of a form is met by the tag, as the requester's own buffered changes show it (R218, R228). -/
def State.needMet (s : State) (q : Req) : Bool :=
  match formNeeds q.form with
  | some b => q.own.getD (s.mem.isFull (q.addr / 8 * 8)) == b
  | none => true

/-! The access of a request at its home -/

/-- f(op, x, y) of MATOM at a size in bytes (R233); for the engines also 12, an addition to an accumulator, and 13, zero (R314, R321). -/
def atomOp (op size x y : Nat) : Nat :=
  let w := 8 * size
  let sx := signedOf w x; let sy := signedOf w y
  if op = 0 then (x + y) % 2 ^ w
  else if op = 1 then x &&& y
  else if op = 2 then x ||| y
  else if op = 3 then x ^^^ y
  else if op = 4 then if sx ≤ sy then x else y
  else if op = 5 then if sx ≤ sy then y else x
  else if op = 6 then min x y
  else if op = 7 then max x y
  else if op = 8 then y
  else if op = 9 then (fAdd 0 0 x y).1
  else if op = 10 then (fMin 0 x y).1
  else if op = 11 then (fMax 0 x y).1
  else if op = 12 then accAdd x y
  else 0
/-- A form that changes its word and is not of the breakwater class (R239). -/
def Req.homeWrite (q : Req) : Bool :=
  q.confirm || (q.form == 3 && !q.src.isElem) || q.form == 4 || q.form == 5 || q.form == 6 || (q.form == 8 && !q.src.isElem) ||
  (q.form == 9 && !q.src.isElem) || q.form == 0xB
/-- Breakwater class (R239): plain stores to HBM, every store to the launch page, and writes to host memory, which wait in
quarantine (R252). -/
def Req.bwClass (q : Req) : Bool :=
  !q.released && q.region.isSome && !isMt q.addr && (q.form == 1 || (isSys q.addr && q.homeWrite))
/-- Corrected errors of a die are counted (R216). -/
def State.countCorrected (s : State) (pa n : Nat) : State :=
  if n = 0 then s else s.modDie (dieOfPa pa) fun x => { x with corrected := x.corrected + n }
/-- What the checks of granules do for a region that reads them by no request of its own (R216). -/
def State.noteAt (s : State) (r : RegionId) (f : Facet) (granules : List Nat) : State :=
  granules.foldl (fun s p =>
    let c := (s.mem.check p).1
    if c = 0 then s else if c = 1 then s.countCorrected p 1 else s.causeRg r f causeUncorrectable (p / 256 % 2 ^ 32)) s
/-- What the checks of the granules of a read do for its requester (R216). -/
def State.noteReads (s : State) (q : Req) (granules : List Nat) : State :=
  granules.foldl (fun s p =>
    let c := (s.mem.check p).1
    if c = 0 then s else if c = 1 then s.countCorrected p 1 else s.causeReq q causeUncorrectable (q.addr / 256 % 2 ^ 32)) s
/-- The MT words of an access with a corrected error, and those that are lost (R208, R216). -/
def State.noteWords (s : State) (q : Req) : State :=
  if s.mem.bad.isEmpty then s
  else
    let hit := q.words.filter fun w => tget s.mem.bad (wordUnit (8 * w)) 0 != 0
    let s := s.countCorrected q.addr (hit.filter fun w => !s.mem.lostWord (8 * w)).length
    if hit.any fun w => s.mem.lostWord (8 * w) then s.causeReq q causeUncorrectable (q.addr / 256 % 2 ^ 32) else s
/-- Bytes and poison as the access reads them; checks apply (R216). -/
def State.readReq (s : State) (q : Req) : State × Nat × Bool × List Nat :=
  if isHbm q.addr then
    let r := s.mem.readHbm q.addr (max 1 q.size) q.gl
    let v := s.viewBytes q q.overlay
    let s := s.noteReads q (s.mem.granules q.addr (max 1 q.size))
    ({ s with mem := r.1 }, ofBytes (v.map (·.1)), r.2.2.1 || v.any (·.2), r.2.2.2)
  else
    let v := s.viewBytes q q.overlay
    (if isMt q.addr then s.noteWords q else s, ofBytes (v.map (·.1)), v.any (·.2), [])
/-- Bytes written by an access, at an MT bank with undo entries; granules written in part are read first (R213). -/
def State.writeReq (s : State) (q : Req) (v : Nat) (poison : Bool) : State :=
  if q.size = 0 then s
  else if isMt q.addr then
    let t := mtTile q.addr
    s.mtWrite t q.facet (q.addr - mtBase t) (bytesOf q.size v) poison
  else
    let s := if isHbm q.addr then s.noteReads q (s.mem.mergeReads q.addr q.size q.gl) else s
    { s with mem := s.mem.devWrite (s.place q.addr) (bytesOf q.size v) q.gl poison }
/-- The tag left by an access, in the layout of the page (R217). -/
def State.tagReq (s : State) (q : Req) (b : Bool) : State :=
  if isMt q.addr then
    let t := mtTile q.addr
    s.mtTag t q.facet ((q.addr - mtBase t) / 8) b
  else
    let s := if isHbm q.addr then { s with mem := s.mem.convert q.addr q.gl } else s
    s.setTag (q.addr / 8) b q.facet q.region
/-- Bytes written by an access together with the tag that it leaves. -/
def State.fillReq (s : State) (q : Req) (v : Nat) (poison b : Bool) : State :=
  if isMt q.addr ∧ q.size ≠ 0 then
    let t := mtTile q.addr
    s.mtFill t q.facet (q.addr - mtBase t) (bytesOf q.size v) poison b
  else (s.writeReq q v poison).tagReq q b
/-- Controller counters (R442): the granule that a request moves, by class. -/
def State.countBytes (s : State) (pa gl cls : Nat) (write : Bool) : State :=
  if isHbm pa then
    s.modDie (dieOfPa pa) fun x =>
      let g : Word := BitVec.ofNat 64 (granBytes gl)
      if write then { x with bytesWritten := tmod x.bytesWritten cls 0 (· + g) }
      else { x with bytesRead := tmod x.bytesRead cls 0 (· + g) }
  else s
/-- A hold ends: requests deferred behind it are re-examined (R230). -/
def State.endHold (s : State) (word : Nat) : State :=
  { s with holds := s.holds.filter (fun h => h.word != word),
           reexam := if s.reqs.any (fun q => q.deferred && q.words.contains word) then sins s.reexam word else s.reexam }
/-- Shadow and clasps of an access to HBM words by a region (R250). -/
def State.beforeAccess (s : State) (q : Req) : State :=
  match q.region with
  | none => s
  | some r =>
    if isHbm q.addr then
      let s := if q.sync then q.words.foldl (fun s w => s.claspAccess r q.reach w) s else s
      if q.homeWrite then q.words.foldl (fun s w => s.addShadow r q.reach w) s else s
    else s
/-- The tag of the word that holds an address, as a read knows it: empty where the burst is lost (R216, R307). -/
def Memory.tagKnown (m : Memory) (pa : Nat) : Bool := m.isFull pa && !(isHbm pa && (m.check pa).2.contains (pa / 32))
/-- The bytes of a word that a mask covers come from new, the others from old. -/
def coverMix (mask old new : Nat) : Nat :=
  (List.range 8).foldl (fun n i => n + (if mask.testBit i then new else old) / 2 ^ (8 * i) % 256 * 2 ^ (8 * i)) 0
/-- A request is performed at its home, its need met (R218): the state after it and the reply. -/
def State.perform (s : State) (q : Req) : State × Reply :=
  let word := q.addr / 8
  let s := s.beforeAccess q
  let wr := q.homeWrite || q.form == 1
  let s := s.countBytes q.addr q.gl q.cls wr
  if q.confirm then
    let s := match q.newTag with
      | some b => s.fillReq q q.data q.poison b
      | none => s.writeReq q q.data q.poison
    (s.endHold word, .truth true)
  else if q.form = 0 ∨ q.form = 2 then
    let r := s.readReq q
    (r.1, .data r.2.1 r.2.2.1)
  else if q.form = 1 then (s.writeReq q q.data q.poison, .truth true)
  else if q.form = 3 ∨ q.form = 8 ∨ q.form = 9 then
    let r := s.readReq q
    match q.src with
    | .elem t f _ _ => ({ r.1 with holds := r.1.holds ++ [⟨t, f, word⟩] }, .data r.2.1 r.2.2.1)
    | _ =>
      let s := r.1
      if q.form = 3 then (s.tagReq q false, .data r.2.1 r.2.2.1)
      else (s.writeReq q (atomOp q.op q.size r.2.1 q.data) (r.2.2.1 || q.poison), .data r.2.1 r.2.2.1)
  else if q.form = 4 ∨ q.form = 5 then
    (if q.cover = 0xFF then s.fillReq q q.data q.poison true
     else s.fillReq q (coverMix q.cover (s.mem.readSeen q.addr 8) q.data) (q.poison || s.mem.isPoison q.addr) true, .truth true)
  else if q.form = 6 then (s.tagReq q false, .truth true)
  else if q.form = 7 then
    let r := s.readReq q
    (r.1, .truth (q.own.getD (s.mem.isFull (8 * word) && !r.2.2.2.contains word)))
  else if q.form = 0xB then
    let tag := if q.tmode = 0 ∨ q.tmode = 3 then q.srcTag else q.tmode == 1
    (if q.tmode = 3 then (if q.fe then s.tagReq q tag else s)
      else if q.fe then s.fillReq q q.data q.poison tag else s.writeReq q q.data q.poison, .truth true)
  else (s, .truth true)

end Sys2Proof.Machine
end

