-- ==== Sys2Proof/Machine/Translate.lean ====
section
/-! DEFINITION. Writes that leave on a host link (R252, R434), the walk of the translation tables (R255 to R262), edge TLBs (R265),
element addresses and their refusals (R227), and major faults with their upcalls (R267 to R271). -/

namespace Sys2Proof.Machine

/-! Host links -/

/-- A link event is counted and its address recorded (R432); vector 72 is sent (R435). lo is the count's lowest bit. -/
def State.hlerrCount (s : State) (io : Fin 2) (lo pa : Nat) : State :=
  (s.modIo io fun x => { x with hlerr := setFld (setFld x.hlerr lo 16 (min 0xFFFF (fld x.hlerr lo 16 + 1))) 32 32 (pa / 2 ^ 16) }).msix 72
/-- A device write to host or peer memory leaves on its link (R252, R433, R434); a poisoned one is dropped and stops its region when
the link does not forward poison. -/
def State.hostSend (s : State) (r : Option RegionId) (f : Facet) (pa : Nat) (bs : List Byte) (poison : Bool) : State :=
  match s.sysTarget pa with
  | none => s
  | some (io, h, coh, rlx) =>
    let s := if poison then s.hlerrCount io 16 pa else s
    if poison && !bit (s.io io).lctl 0 then
      match r with
      | some r => (s.causeRg r f causePoisonForward io.val).stopCause r
      | none => s
    else { s with out := .hostWrite io (BitVec.ofNat 64 h) bs poison coh rlx :: s.out,
                  mem := s.mem.writeWords (hostBase io + h) bs poison }

/-! Leaves and walks -/

def leafGl (w : Word) : Nat := fld w 7 2
def leafFe (w : Word) : Bool := bit w 9
def leafPa (w : Word) : Nat := fld w 16 36 * 2 ^ 16
/-- R, W and A of a leaf, as bits 0 to 2. -/
def leafPerm (w : Word) : Nat := fld w 4 3
/-- The permissions that a form needs (R260). -/
def formPerm (form : Nat) : Nat := if form = 0 ∨ form = 7 then 1 else if form = 1 then 2 else 7
def permOk (w : Word) (need : Nat) : Bool := leafPerm w &&& need == need
/-- A leaf may point at a page (R255): bits is log2 of its size. -/
def mappable (pa bits : Nat) : Bool :=
  decide (pa + 2 ^ bits ≤ 2 ^ 39) || (decide (2 ^ 51 ≤ pa) && decide (pa + 2 ^ bits ≤ 2 ^ 52)) || (pa == 0x20000000000 && bits == 16)
/-- How a walk ends (R262). -/
inductive WalkOut where
  | leaf (l : Leaf)
  | refuse (code : Nat)
  | node (bits : Nat)        -- table-node fault (R268): log2 of the entry's span
  | major (aff bits : Nat)   -- page fault (R267): log2 of the page's size
  | hold                     -- MLOCK (R269)
  deriving DecidableEq, Repr
/-- The entry of a node at level n that a virtual address selects, and its content as a read gives it (R216, R262). -/
def entryAt (node va n : Nat) : Nat := node + 8 * (va / 2 ^ (16 + 10 * n) % 1024)
def State.entry (s : State) (node va n : Nat) : Word := BitVec.ofNat 64 (s.mem.readSeen (entryAt node va n) 8)
/-- The walk from a node at level n - 1 down (R262); entries are read at their homes, so committed content only. -/
def State.walkFrom (s : State) (asid va : Nat) : Nat → Nat → WalkOut
  | 0, _ => .node 16
  | n + 1, node =>
    let e := s.entry node va n
    let bits := 16 + 10 * n
    if !bit e 0 && !bit e 1 then .node bits
    else if bit e 2 then .hold
    else if !bit e 1 then
      let next := fld e 13 39 * 2 ^ 13
      if fld e 3 10 ≠ 0 ∨ fld e 52 12 ≠ 0 ∨ !isHbm next then .node bits else s.walkFrom asid va n next
    else if n = 3 ∨ bit e 15 ∨ bit e 63 ∨ fld e 13 2 = 3 ∨ fld e 11 2 = 3 ∨ leafPa e % 2 ^ bits ≠ 0 ∨ !mappable (leafPa e) bits then
      .refuse causeEntryInvalid
    else if !bit e 0 then (if bit e 3 then .major (fld e 11 2) bits else .refuse causeUnmapped)
    else .leaf ⟨asid, va / 2 ^ bits * 2 ^ bits, bits, e⟩
/-- The addresses of the entries that a walk reads (R262). -/
def State.walkPath (s : State) (va : Nat) : Nat → Nat → List Nat
  | 0, _ => []
  | n + 1, node =>
    let e := s.entry node va n
    entryAt node va n :: (if bit e 0 && !bit e 1 && !bit e 2 && isHbm (fld e 13 39 * 2 ^ 13) then s.walkPath va n (fld e 13 39 * 2 ^ 13) else [])
/-- AFF of the leaf that a walk reaches, MLOCK apart, and log2 of its page's size; 0 and the span of the last entry where it reaches none
(R270). -/
def State.affFrom (s : State) (va : Nat) : Nat → Nat → Nat × Nat
  | 0, _ => (0, 16)
  | n + 1, node =>
    let e := s.entry node va n
    if bit e 1 then (fld e 11 2, 16 + 10 * n) else if bit e 0 then s.affFrom va n (fld e 13 39 * 2 ^ 13) else (0, 16 + 10 * n)
/-- A walk for a region (R257, R262). -/
def State.walk (s : State) (r : RegionId) (va : Nat) : WalkOut :=
  let t := (s.rg r).trr
  if bit t 0 then s.walkFrom (fld t 52 4) va 4 (fld t 13 39 * 2 ^ 13) else .refuse causeUnmapped
/-- The checks of the table entries that a walk reads: corrected errors are counted, and a lost entry raises its cause (R216). What is
read of a lost or poisoned entry is used as it stands (DESIGN CHOICE, log 67). -/
def State.noteWalk (s : State) (r : RegionId) (f : Facet) (va : Nat) : State :=
  let t := (s.rg r).trr
  if bit t 0 && !s.mem.bad.isEmpty then s.noteAt r f ((s.walkPath va 4 (fld t 13 39 * 2 ^ 13)).flatMap fun p => s.mem.granules p 8) else s
def Leaf.covers (l : Leaf) (asid va : Nat) : Bool := l.asid == asid && l.va / 2 ^ l.bits == va / 2 ^ l.bits
/-- The physical address of a virtual one (R256). -/
def Leaf.pa (l : Leaf) (va : Nat) : Nat := leafPa l.word + va % 2 ^ l.bits
/-- The set of an entry of the edge TLB: 256 sets of 8 ways (R265). -/
def Leaf.set (l : Leaf) : Nat := l.va / 2 ^ l.bits % 256
/-- A leaf enters the edge TLB; the least recently used way of its set leaves. -/
def tlbInsert (tlb : List Leaf) (l : Leaf) : List Leaf :=
  let others := tlb.filter (fun x => !(x.asid == l.asid && x.va == l.va && x.bits == l.bits))
  let same := others.filter (fun x => x.set == l.set)
  l :: (if same.length < 8 then others else match same.getLast? with
    | some v => others.filter (fun x => x != v)
    | none => others)
/-- A hit moves its entry to the front. -/
def tlbTouch (tlb : List Leaf) (l : Leaf) : List Leaf := l :: tlb.filter (fun x => x != l)
def State.tlbFind (s : State) (d : DieId) (asid va : Nat) : Option Leaf := (s.die d).tlb.find? (fun l => l.covers asid va)

/-! Element addresses (R227) -/

/-- Where a device location lies. -/
inductive Where where
  | here (pa : Nat) (leaf : Word)          -- physical address and the leaf that gives its attributes
  | miss (va : Nat)                        -- an edge TLB miss (R265)
  | bad (code : Nat) (haddr : Word)
  deriving DecidableEq, Repr
/-- The leaf word that stands for an MT word: every one is enforced (R218), in the 32-byte layout and class 0. -/
def pairLeaf : Word := 0x271
/-- The leaf's attributes as the form meets them (R259, R464): tag forms need enforcement, and the launch page takes plain stores only. -/
def formRefusal (form pa : Nat) (leaf : Word) : Option Nat :=
  let tagForm := form == 2 || form == 3 || form == 4 || form == 5 || form == 6 || form == 7 || form == 9
  if isMt pa then none
  else if tagForm && (!isHbm pa || !leafFe leaf) then some causeFeNotEnabled
  else if isLaunch pa && form != 1 then some causeAddressForm
  else none
/-- The checks of R227 for an access of n bytes at L, in their order; refusals of the page and of the system windows follow. -/
def State.elemWhere (s : State) (t : Tile) (f : Facet) (l : Word) (n form : Nat) : Where :=
  let top := fld l 56 8
  if top > 1 ∨ (top = 1 ∧ fld l 20 36 ≠ 0) then .bad causeAddressForm l
  else if l.toNat % n ≠ 0 then .bad causeDeviceAlignment l
  else if top = 1 then
    match s.mtMode t.pair f with
    | none => .bad causePairBounds l
    | some m =>
      let off := fld l 0 20
      if 8 * m.msize < off + n then .bad causePairBounds l else .here (mtBase t.pair + 8 * m.mbase + off) pairLeaf
  else
    let va := fld l 0 56
    match s.regionOf t with
    | none => .bad causeUnmapped (BitVec.ofNat 64 va)
    | some r =>
      let g := s.rg r
      if !bit g.trr 0 then .bad causeUnmapped (BitVec.ofNat 64 va)
      else match s.tlbFind t.die (fld g.trr 52 4) va with
        | none => .miss va
        | some leaf =>
          let pa := leaf.pa va
          if !permOk leaf.word (formPerm form) then .bad causePermission (BitVec.ofNat 64 va)
          else match formRefusal form pa leaf.word with
            | some c => .bad c l
            | none => if isSys pa && (s.sysTarget pa).isNone then .bad causeAddressForm l else .here pa leaf.word
/-- The edge TLB of a tile's die after a hit (R265). -/
def State.tlbHit (s : State) (t : Tile) (va : Nat) : State :=
  match s.regionOf t with
  | some r => (match s.tlbFind t.die (fld (s.rg r).trr 52 4) va with
    | some leaf => s.modDie t.die fun d => { d with tlb := tlbTouch d.tlb leaf }
    | none => s)
  | none => s
/-- The edge TLB after an element's hit (R265). -/
def State.elemTouch (s : State) (t : Tile) (l : Word) : State := if fld l 56 8 = 0 then s.tlbHit t (fld l 0 56) else s
/-- A walk begins. -/
def State.startWalk (s : State) (r : RegionId) (d : DieId) (f : Facet) (va need : Nat) (for_ : WalkFor) : State × Nat :=
  let id := s.nextId
  ({ s.bumpId with walks := s.walks ++ [⟨id, r, d, f, va, need, for_, none, none⟩] }, id)

/-! Major faults and upcalls -/

/-- The upcall token's payload (R270). -/
def upcallWord (vpn region kind aff seq : Nat) : Word :=
  BitVec.ofNat 64 (vpn % 2 ^ 40 + region * 2 ^ 40 + kind % 4 * 2 ^ 45 + aff % 4 * 2 ^ 47 + seq % 2 ^ 14 * 2 ^ 50)
/-- Delivers the oldest upcall of a region, if its target has room (R270, R435): SEQ increments first. -/
def State.deliverUpcall (s : State) (r : RegionId) : State :=
  let g := s.rg r
  match g.upcalls with
  | [] => s
  | u :: rest =>
    let mode := fld g.pgr 0 2
    let seq := (fld g.pgr 32 14 + 1) % 2 ^ 14
    let w := upcallWord u.vpn r.val u.kind u.aff seq
    let done (s : State) : State := s.modRg r fun g => { g with upcalls := rest, pgr := setFld g.pgr 32 14 seq }
    if mode = 1 ∧ fld g.pgr 2 5 ≠ r.val then
      let pr : RegionId := Fin.ofNat 32 (fld g.pgr 2 5)
      let port := fld g.pgr 7 6
      if (tget (s.rg pr).upcallQ port []).length < 16 then
        (done s).modRg pr fun x => { x with upcallQ := tmod x.upcallQ port [] (· ++ [⟨w, mkTag 0 kData false false false false⟩]) }
      else s
    else if mode = 2 then
      let n := 2 ^ fld g.hur 1 5
      let prod := fld g.hup 0 16; let cons := fld g.hup 32 16
      if bit g.hur 0 && decide ((prod + 2 ^ 16 - cons) % 2 ^ 16 < n) then
        let s := s.hostSend none 0 (fld g.hur 12 40 * 2 ^ 12 + 8 * (prod % n)) (bytesOf 8 w.toNat) false
        ((done s).modRg r fun g => { g with hup := setFld g.hup 0 16 (prod + 1) }).msix (40 + r.val)
      else s
    else (done s).causeRg r 0 causePagerMissing seq
/-- Delivers what can be delivered of every region's upcalls. -/
def State.flushUpcalls (s : State) : State := (List.finRange 32).foldl (fun s r => s.deliverUpcall r) s
/-- A major fault (R267 to R269) in a page, or an entry's span, of 2 ^ bits bytes: the region and its clasp roll back, and one upcall goes
out for each distinct page that faulted. It carries the page number of the access that faulted first (R270, R275). -/
def State.majorFault (s : State) (r : RegionId) (f : Facet) (va code kind aff bits : Nat) : State :=
  let vpn := va / 2 ^ 16
  let page := va / 2 ^ bits * 64 + bits
  let running := (match (s.rg r).rollback with
    | some rb => rb.cycle == s.cycle
    | none => true)
  if !running then s
  else
    let known := (s.rg r).faulted.contains page
    let s := s.causeRg r f code (va / 2 ^ 24 % 2 ^ 32)
    let old := (s.rg r).faulted
    let fresh := (s.rg r).rollback.isNone
    let s := if fresh then s.rollback [r] else s
    if known && !fresh then s
    else (s.modRg r fun g =>
      { g with faulted := sins (if fresh then [] else old) page, upcalls := g.upcalls ++ [⟨vpn, kind, aff⟩],
               pgr := setFld g.pgr 16 8 (fld g.pgr 16 8 + 1) }).deliverUpcall r
/-- A re-arm (R271): PENDCNT falls by 1. -/
def State.rearm (s : State) (r : RegionId) : State :=
  s.modRg r fun g => if g.pendcnt = 0 then g else { g with pgr := setFld g.pgr 16 8 (g.pendcnt - 1) }

end Sys2Proof.Machine
end

