-- ==== Sys2Proof/Machine/Snapshot.lean ====
section
/-! DEFINITION. Nodes of a facet, the marks at their ports, and what a node does when it takes a tide, a drain or a debug mark
(R370 to R372, R390, R448). -/

namespace Sys2Proof.Machine

def markTide : Nat := 1
def markDrain : Nat := 2
def markDebug : Nat := 3
/-- A mark token (R369): number in [31:0], type in [39:32]. -/
def markTok (f : Facet) (type n : Nat) : Token := mkTok f kMark false false false false (n % 2 ^ 32 + type * 2 ^ 32)
def Token.markType (k : Token) : Nat := fld k.payload 32 8
def Token.markNo (k : Token) : Nat := fld k.payload 0 32

/-- The input queue of a port, of an element or an MT. -/
def State.inq (s : State) (t : Tile) (f : Facet) (p : Fin 16) : List QTok :=
  if t.isCT then ((s.el t).fac f).inq.get p else ((s.mt t).fac f).inq.get p
def State.modInq (s : State) (t : Tile) (f : Facet) (p : Fin 16) (g : List QTok → List QTok) : State :=
  if t.isCT then s.modFac t f fun x => { x with inq := vmod x.inq p g } else s.modMtFac t f fun x => { x with inq := vmod x.inq p g }
/-- The output queue of a port. -/
def State.outq (s : State) (t : Tile) (p : Fin 16) : List OTok := if t.isCT then (s.el t).outq.get p else (s.mt t).outq.get p
def State.modOutq (s : State) (t : Tile) (p : Fin 16) (g : List OTok → List OTok) : State :=
  if t.isCT then s.modEl t fun e => { e with outq := vmod e.outq p g } else s.modMt t fun m => { m with outq := vmod m.outq p g }
/-- The mark that stands at the head of a port's queue. -/
def State.headMark (s : State) (t : Tile) (f : Facet) (p : Fin 16) : Option Token :=
  match visible (s.inq t f p) s.cycle with
  | x :: _ => if x.tok.isMark then some x.tok else none
  | [] => none

/-- The back-port mask of a tile in a facet (R377); a mirror has its primary's (R387). -/
def State.backMask (s : State) (t : Tile) (f : Facet) : Nat :=
  match s.regionOf t with
  | some r =>
    let g := s.rg r
    let x := if (g.tideCfg.get f).lock && decide (2 ≤ t.x % 4) then t.x - 2 else t.x
    (((g.tideCfg.get f).backPorts.filter (fun y => y.1 == (x - g.x0) * 32 + (t.y - g.y0))).foldl (fun n y => n ||| y.2) 0)
  | none => 0
def State.forwardPorts (s : State) (t : Tile) (f : Facet) : List (Fin 16) :=
  ((s.sw t).linkedIn f).filter fun p => !(s.backMask t f).testBit p.val
def State.backPorts (s : State) (t : Tile) (f : Facet) : List (Fin 16) :=
  ((s.sw t).linkedIn f).filter fun p => (s.backMask t f).testBit p.val
/-- The tile is a node of the facet: it has a link, a handler, an MT mode or a generator there (R371, R377). -/
def State.isNode (s : State) (t : Tile) (f : Facet) : Bool :=
  !((s.sw t).linkedIn f).isEmpty || !((s.sw t).linkedOut f).isEmpty ||
  (if t.isCT then (List.finRange 64).any fun h => (((s.el t).fac f).handlers.get h).trig != 0
   else (s.mtMode t f).isSome || (List.finRange 4).any fun g => ((((s.mt t).fac f).gens.get g).cfg.get 0).isSome)
def State.nodes (s : State) (r : RegionId) (f : Facet) : List Tile := (s.rg r).tiles.filter fun t => s.isNode t f
/-- The tide that a node took last. -/
def State.nodeReach (s : State) (t : Tile) (f : Facet) : Nat :=
  if t.isCT then ((s.el t).fac f).reach else ((s.mt t).fac f).reach
def State.nodeHeld (s : State) (t : Tile) (f : Facet) : Bool := if t.isCT then ((s.el t).fac f).held else ((s.mt t).fac f).held
def State.nodeRecording (s : State) (t : Tile) (f : Facet) : BitVec 16 :=
  if t.isCT then ((s.el t).fac f).recording else ((s.mt t).fac f).recording
def State.holdNode (s : State) (t : Tile) (f : Facet) (b : Bool) : State :=
  if t.isCT then s.modFac t f fun x => { x with held := b } else s.modMtFac t f fun x => { x with held := b }
/-- A live facet (R369). -/
def Region.live (g : Region) (f : Facet) : Bool := !g.fquiet f || (g.ifac == f && g.floaded f)

/-- The mark that stands at the head of every forward port of the node, if one does and the node can take it now: no activation is in
progress, and the mark positions of its linked output queues are free (R370, R371). -/
def State.nodeMark (s : State) (t : Tile) (f : Facet) : Option Token :=
  let ports := s.forwardPorts t f
  match ports.head?.bind (s.headMark t f) with
  | none => none
  | some k =>
    if ports.all (fun p => s.headMark t f p == some k) && (!t.isCT || (s.el t).act.isNone) &&

        ((s.sw t).linkedOut f).all (fun p => !(s.outq t p).any (fun x => x.tok.isMark)) then some k else none
/-- The heads of some queues of a node are removed. -/
def State.dropHeads (s : State) (t : Tile) (f : Facet) (ports : List (Fin 16)) : State :=
  ports.foldl (fun s p => s.modInq t f p (·.drop 1)) s
/-- A mark enters the output queue of every linked output port, behind the tokens committed there (R371). -/
def State.passMark (s : State) (t : Tile) (f : Facet) (k : Token) : State :=
  ((s.sw t).linkedOut f).foldl (fun s p => s.modOutq t p (· ++ [⟨k, s.cycle, []⟩])) s

/-- Snapshot n of an element's facet (R372). -/
def Element.snap (e : Element) (f : Facet) (n : Nat) : ElSnap :=
  let x := e.fac f
  { tide := n, bank := x.bank, hstat := x.hstat &&& 0x23F#64, rmode := x.rmode, masks := x.masks, handlers := x.handlers,
    moors := e.moors.filter (fun m => m.facet == f), record := [] }
/-- The rows that a snapshot keeps: staging is no part of it, and rows read from the area are read again; rows of mi7 that have fired and
are on their way through the array fire again (R372; DEDUCED, log 46). -/
def MemTile.rowsKept (m : MemTile) (f : Facet) : List ARow :=
  ((m.fired.filter fun y => y.facet == f).map (·.row)).filter fun y => (m.fac f).mx.cmds.any fun c => c.id == y.cmd && bit c.mod 6
/-- Snapshot n of an MT's facet (R372). -/
def MemTile.snap (m : MemTile) (f : Facet) (n : Nat) : MtSnap :=
  let x := m.fac f
  { tide := n, gens := x.gens, cmds := x.cmds,
    nodes := (List.finRange 32).filterMap (fun i => if (m.nodes.get i).owner = some f then some (i.val, m.nodes.get i) else none),
    wp := x.wp, rp := x.rp, mx := { x.mx with staged := m.rowsKept f },
    pending := ((m.pend4.filter (fun c => c.facet == f)).map (fun c => (false, c))) ++
      ((m.pend6.filter (fun c => c.facet == f)).map (fun c => (true, c))),
    quick := x.quick, record := [] }
/-- A node keeps the committed snapshot and at most one pending one (R372). -/
def keepTwo {α : Type} (l : List α) (x : α) : List α := (l.drop (l.length - 1)) ++ [x]
/-- The node's facet takes snapshot n and records the ports of a mask from here on. -/
def State.snapNode (s : State) (t : Tile) (f : Facet) (n : Nat) (rec_ : BitVec 16) : State :=
  if t.isCT then s.modEl t fun e => e.modFac f fun x => { x with snaps := keepTwo x.snaps (e.snap f n), recording := rec_, reach := n }
  else s.modMt t fun m => m.modFac f fun x => { x with snaps := keepTwo x.snaps (m.snap f n), recording := rec_, reach := n }
def portMask (l : List (Fin 16)) : BitVec 16 := l.foldl (fun m p => setBit m p.val true) 0
/-- A node takes tide n (R371): the marks of its forward ports go, and of back ports that have brought mark n already; the mark
passes on, and the other back ports are recorded. With tides off the mark passes on without a snapshot (R368). -/
def State.takeTide (s : State) (t : Tile) (f : Facet) (k : Token) (injected : Bool) : State :=
  let back := s.backPorts t f
  let early := back.filter fun p => s.headMark t f p == some k
  let s := s.dropHeads t f ((if injected then [] else s.forwardPorts t f) ++ early)
  let s := if s.logs t && decide (s.nodeReach t f < k.markNo) then s.snapNode t f k.markNo (portMask (back.filter (fun p => !early.contains p))) else s
  s.passMark t f k
/-- A node takes a drain or a debug mark: as a tide without a snapshot, and it is held from then on (R390, R448). -/
def State.takeHold (s : State) (t : Tile) (f : Facet) (k : Token) (injected : Bool) : State :=
  let early := (s.backPorts t f).filter fun p => s.headMark t f p == some k
  let s := s.dropHeads t f ((if injected then [] else s.forwardPorts t f) ++ early)
  (s.passMark t f k).holdNode t f true
/-- A mark arrives at a back port of a node that has taken it: its recording ends, and it is removed (R371). -/
def State.endBack (s : State) (t : Tile) (f : Facet) (p : Fin 16) (k : Token) : State :=
  let s := s.dropHeads t f [p]
  if k.markType = markTide then
    if t.isCT then s.modFac t f fun x => { x with recording := setBit x.recording p.val false }
    else s.modMtFac t f fun x => { x with recording := setBit x.recording p.val false }
  else s
/-- A debug mark of a cut that has ended (R448): it may still come to a back port. -/
def State.pastCut (s : State) (t : Tile) (k : Token) : Bool :=
  k.markType == markDebug && (match s.regionOf t with
    | some r => fld (s.rg r).dcut 4 2 == 0 || k.markNo != fld (s.rg r).dcut 8 32
    | none => true)
/-- The node has taken a mark already. -/
def State.hasTaken (s : State) (t : Tile) (f : Facet) (k : Token) : Bool :=
  if k.markType = markTide then decide (k.markNo ≤ s.nodeReach t f) else s.nodeHeld t f || s.pastCut t k

end Sys2Proof.Machine
end

