-- ==== Sys2Proof/Machine/ElementEvents.lean ====
section
/-! DEFINITION. Steps of the element's own logic: selection (R23 to R26), stall aborts (R33), removal of marks (R17), and the
supervisor's writes (R39, R40). -/

namespace Sys2Proof.Machine

/-- An event that is not enabled changes nothing. -/
def when_ (s : State) (c : Bool) (s' : State) : Out := .next (if c then s' else s)

/-! Selection -/

/-- The rotation index of a handler (R24). -/
def rotIndex (x : Facet × Fin 64) : Nat := 64 * x.1.val + x.2.val
/-- The first of the candidates at or after the pointer, counting cyclically (R24). -/
def pickRot (ptr : Nat) : List (Facet × Fin 64) → Option (Facet × Fin 64)
  | [] => none
  | x :: l =>
    match pickRot ptr l with
    | none => some x
    | some y => if (rotIndex x + 256 - ptr) % 256 ≤ (rotIndex y + 256 - ptr) % 256 then some x else some y
/-- The handler that selection takes among the runnable ones, with the level (R24). -/
def Element.select (e : Element) (l : List (Facet × Fin 64)) : Option ((Facet × Fin 64) × Fin 8) :=
  let pri (x : Facet × Fin 64) : Nat := ((e.fac x.1).handlers.get x.2).effPri
  let top := l.foldl (fun m x => max m (pri x)) 0
  let level : Fin 8 := Fin.ofNat 8 top
  (pickRot (e.rot.get level).toNat (l.filter (fun x => pri x == top))).map fun x => (x, level)
/-- The age counters of runnable handlers that are not chosen rise; the chosen one's is 0 (R25). -/
def Element.ageAll (e : Element) (l : List (Facet × Fin 64)) (chosen : Option (Facet × Fin 64)) : Element :=
  l.foldl (fun e x => e.modFac x.1 fun fe =>
    { fe with handlers := vmod fe.handlers x.2 fun h => { h with age := if chosen = some x then 0 else min 1024 (h.age + 1) } }) e
/-- A new activation of a handler (R24, R26). -/
def FacetEl.start (fe : FacetEl) (f : Facet) (h : Fin 64) : Act :=
  { facet := f, handler := h, pc := BitVec.ofNat 64 (fld (fe.handlers.get h).entry 0 11), bank := fe.bank, raised := 0, cleared := 0,
    rmode := fe.rmode, masks := fe.masks, prio := none, taken := Vector.replicate 16 0, sends := [], stores := [], arms := [],
    bursts := 0, fences := [], reqs := [], stalled := 0, busy := 0, wait := .none }
/-- The handlers that count as runnable in this cycle: the running one does not wait to be chosen. -/
def State.waiting (s : State) (t : Tile) : List (Facet × Fin 64) :=
  (s.runnables t).filter fun x => match (s.el t).act with
    | some a => !(a.facet == x.1 && a.handler == x.2)
    | none => true
/-- The element selects a handler when it is idle; its first instruction issues in the same cycle (R24, R26). In every cycle the
runnable handlers that are not chosen age (R25). -/
def State.dispatch (s : State) (t : Tile) : State :=
  let e := s.el t
  let l := s.waiting t
  match e.act, e.select l with
  | none, some (x, level) =>
    let e' := (e.ageAll l (some x)).modFac x.1 id
    let s := s.setEl t { e' with act := some ((e.fac x.1).start x.1 x.2), curFacet := x.1,
                                 rot := vset e.rot level (BitVec.ofNat 8 (rotIndex x + 1)) }
    { s with agenda := .issue t :: s.agenda }
  | _, _ => s.setEl t (e.ageAll l none)
/-- HANDLER_DISPATCH (R24). -/
def execHandlerDispatch (t : Tile) (s : State) : Out :=
  when_ s (t.isCT && t.inFabric && !(s.waiting t).isEmpty) (s.dispatch t)

/-! Stall aborts -/

/-- Tokens of a queue that the activation in progress has consumed tentatively (R27). -/
def Element.takenOf (e : Element) (f : Facet) (p : Fin 16) : Nat :=
  match e.act with
  | some a => if a.facet = f then a.taken.get p else 0
  | none => 0
/-- A mark waits at the head of an input queue of the element (R33): at the first place behind the tokens that the activation in progress
has consumed from the queue (R150). -/
def State.anyMark (s : State) (t : Tile) : Bool :=
  (List.finRange 4).any fun f => (List.finRange 16).any fun p =>
    markAtHead ((s.inq t f p).drop ((s.el t).takenOf f p)) s.cycle
/-- The activation holds a device word (R230). -/
def Act.holds (a : Act) : Bool := a.stores.any fun x => match x with
  | .hold _ => true
  | _ => false
/-- STALL_ABORT (R33, R230): the retry count is unchanged. -/
def execStallAbort (t : Tile) (s : State) : Out :=
  match (s.el t).act with
  | none => .next s
  | some a => when_ s (decide (64 ≤ a.stalled) && (!(s.waiting t).isEmpty || s.anyMark t || a.holds)) (s.abort t a)

/-! Marks -/

/-- MARK_REMOVAL (R17, R371, R448): with no activation in progress the port logic removes a mark that the node has taken at a back
port, or takes a debug mark that stands at every forward port. -/
def execMarkRemoval (t : Tile) (port : Fin 16) (f : Facet) (s : State) : Out :=
  if (t.isCT && (s.el t).act.isSome) || !t.inFabric then .next s
  else match s.headMark t f port with
    | none => .next s
    | some k =>
      if (s.backPorts t f).contains port then when_ s (s.hasTaken t f k) (s.endBack t f port k)
      else when_ s (k.markType == markDebug && s.nodeMark t f == some k) (s.takeHold t f k false)

/-! Supervisor writes -/

/-- The value of a window register as it is kept (R12). A value above the maximum that the table names for ACTLIM or ISLIM is kept as it is,
without the bits that the register does not have (DESIGN CHOICE, log 63: the spec does not say what such a write does). -/
def FacetEl.writeWin (fe : FacetEl) (reg : WinReg) (v : Word) : FacetEl :=
  match reg with
  | .actbase => { fe with actbase := v.setWidth 16 &&& 0xFFF8 }
  | .actlim => { fe with actlim := v.setWidth 17 &&& 0x1FFF8 }
  | .isbase => { fe with isbase := v.setWidth 11 }
  | .islim => { fe with islim := v.setWidth 12 }
  | .rmode => { fe with rmode := v.setWidth 2 }
  | .masks => { fe with masks := v }
/-- No activation of the facet is in progress in the element. -/
def State.facetIdle (s : State) (t : Tile) (f : Facet) : Bool :=
  match (s.el t).act with
  | some a => a.facet != f
  | none => true
/-- WINDOW_WRITE_APPLY (R40): a write that has arrived applies once no activation of the facet is in progress. -/
def execWindowWriteApply (t : Tile) (f : Facet) (reg : WinReg) (v : Word) (s : State) : Out :=
  when_ s (((s.el t).fac f).writes.contains (reg, v) && s.facetIdle t f)
    (s.modFac t f fun fe => { fe.writeWin reg v with writes := fe.writes.erase (reg, v) })
/-- TRAPPED_CLEAR (R39). -/
def execTrappedClear (t : Tile) (f : Facet) (s : State) : Out := when_ s (bit ((s.el t).fac f).hstat 8) (s.clearTrap t f)
/-- HALTED_CLEAR (R13). -/
def execHaltedClear (t : Tile) (f : Facet) (s : State) : Out :=
  .next (s.modFac t f fun fe => { fe with hstat := setBit fe.hstat 9 false })
/-- FENABLE_CLEAR (R40): an activation in progress runs to its end. -/
def execFenableClear (t : Tile) (f : Facet) (s : State) : Out :=
  .next (s.modEl t fun e => { e with fenable := setBit e.fenable f.val false })

end Sys2Proof.Machine
end

