-- ==== Sys2Proof/Machine/Fetch.lean ====
section
/-! DEFINITION. The issue slot of an element (R11, R26, R57, R97): what holds it, and the word that is fetched. -/

namespace Sys2Proof.Machine

/-- What an issue slot does in a cycle: an instruction to execute, or a state in which nothing more issues. -/
inductive Fetched where
  | run (i : Instr) (s : State)
  | done (s : State)
  deriving DecidableEq, Repr

/-- The cause code of a failed decode check (R57, R364). -/
def decodeCode : DecodeCause → Nat
  | .illegalOpcode => causeIllegalOpcode
  | .reservedField => causeReservedField
  | .reservedOperand => causeReservedOperand
  | .operandClass => causeOperandClass
/-- A fetch at an index is outside the facet's instruction window or the instruction store (R11). -/
def FacetEl.fetchOut (fe : FacetEl) (pc : Word) : Bool :=
  decide (fe.islim.toNat ≤ pc.toNat) || decide (2048 ≤ fe.isbase.toNat + pc.toNat)
/-- The instruction word at an index of a facet's window (R11). -/
def Element.fetch (e : Element) (f : Facet) (pc : Word) : Word := tget e.istore ((e.fac f).isbase.toNat + pc.toNat) 0
/-- The issue slot of a tile in this cycle. -/
def State.fetchSlot (s : State) (t : Tile) : Fetched :=
  let s := { s with cur := t }
  if !(t.isCT && t.inFabric) then .done s
  else match (s.el t).act with
    | none => .done s
    | some a =>
      if a.busy ≠ 0 then .done (s.setAct t { a with busy := a.busy - 1, stalled := 0 })
      else if a.wait ≠ .none then .done s
      else if ((s.el t).fac a.facet).fetchOut a.pc then .done (s.trap t a causeFetchBounds a.pc)
      else match decode ((s.el t).fetch a.facet a.pc) with
        | .error c => .done (s.trap t a (decodeCode c) 0)
        | .ok i => .run i s

/-- A word set in a table that lists no zero words. -/
def setTab0W (t : Tab Word) (k : Nat) (v : Word) : Tab Word := if v = 0 then tdel t k else tset t k v
/-- The bits above nbits are 0. -/
def tableWord (nbits w : Nat) : Word := BitVec.ofNat 64 (w % 2 ^ nbits)
/-- The activation whose instruction is fetched next at a tile: the one in progress, free of what holds its slot, or a new one. -/
def State.fetchAct (s : State) (t : Tile) : Act :=
  match (s.el t).act with
  | some a => { a with busy := 0, wait := .none }
  | none => ((s.el t).fac 0).start 0 0
/-- The tile whose instruction is fetched next. -/
def State.fetchTile (s : State) : Tile := if s.cur.isCT && s.cur.inFabric then s.cur else ⟨0, 0⟩
/-- A word is stored where the issue slot of the next step fetches it. -/
def State.placeWord (s : State) (w : Word) : State :=
  let t := s.fetchTile
  let a := s.fetchAct t
  let e := s.el t
  let inside := !(e.fac a.facet).fetchOut a.pc
  let a := if inside then a else { a with pc := 0 }
  let e := if inside then e else e.modFac a.facet fun fe => { fe with islim := 0x800 }
  let e := { e with act := some a, istore := setTab0W e.istore ((e.fac a.facet).isbase.toNat + a.pc.toNat) w }
  { s.setEl t e with cur := t, agenda := .issue t :: s.agenda }

end Sys2Proof.Machine
end

