-- ==== Sys2Proof/Machine/Control.lean ====
section
/-! DEFINITION. The commit of an activation (R31) and the control, handler and system instructions (R114 to R125, R244). -/

namespace Sys2Proof.Machine

/-! Committing (R31) -/

/-- Local words whose bytes or tag a list of store entries changes, each once, in rising order. -/
def wordsOf (l : List StoreEnt) : List Nat :=
  l.foldl (fun acc x => match x with
    | .loc cells tag =>
      let acc := cells.foldl (fun acc c => sins acc (c.1 / 8)) acc
      (match tag with
        | some (w, _) => sins acc w
        | none => acc)
    | _ => acc) []
/-- Words whose tag the entries write, each once. -/
def tagWords (l : List StoreEnt) : List Nat :=
  l.foldl (fun acc x => match x with
    | .loc _ (some (w, _)) => sins acc w
    | _ => acc) []
/-- Device requests of the store commit buffer, in program order, with the confirms of holds (R230, R241). -/
def devReqs (l : List StoreEnt) : List Req :=
  l.filterMap fun x => match x with
    | .dev r => some r
    | .hold r => some { r with confirm := true }
    | _ => none
/-- One store entry applied to local memory; a word whose eight bytes are written loses its poison (R144, R382). -/
def Memory.applyEnt (m : Memory) : StoreEnt → Memory
  | .loc cells tag =>
    let m' := m.putCells cells
    let whole := (wordsOf [.loc cells none]).filter (fun w => (cells.filter (fun c => c.1 / 8 == w)).length == 8)
    let m' := whole.foldl (fun m w => m.setPoison (8 * w) false) m'
    (match tag with
      | some (w, b) => m'.setFull (8 * w) b
      | none => m')
  | _ => m
/-- The first n tokens of a queue are removed. -/
def takeToks (q : List QTok) (n : Nat) : List Token := (q.take n).map (·.tok)
/-- The channel record of the newest snapshot after a commit (R371): the tokens consumed from recorded back ports. -/
def FacetEl.recordOf (fe : FacetEl) (taken : Vector Nat 16) : List (Nat × Token) :=
  (List.finRange 16).flatMap fun p =>
    if bit fe.recording p.val then (takeToks (fe.inq.get p) (taken.get p)).map (fun k => (p.val, k)) else []
/-- Length of the channel record that is being written. -/
def FacetEl.recordLen (fe : FacetEl) : Nat :=
  match fe.snaps.getLast? with
  | some x => x.record.length
  | none => 0
def FacetEl.addRecord (fe : FacetEl) (l : List (Nat × Token)) : FacetEl :=
  match fe.snaps.getLast? with
  | some x => { fe with snaps := fe.snaps.dropLast ++ [{ x with record := x.record ++ l }] }
  | none => fe
/-- Arm bits after a commit: the buffered ARMs, then the handler's own bit clears (R31, R120). Its retry count is 0, and PRI takes
what MTS PRIO wrote (R122). -/
def Act.handlersAfter (a : Act) (hs : Vector Handler 64) : Vector Handler 64 :=
  let hs := a.arms.foldl (fun hs n => vmod hs n.toFin (fun h => { h with arm := true })) hs
  vmod hs a.handler fun h =>
    { h with arm := false, retry := 0,
             entry := match a.prio with
               | some p => setFld h.entry 17 3 p.toNat
               | none => h.entry }
/-- The registers, flags and handlers of the facet after a commit in a cycle (R31). -/
def FacetEl.committed (fe : FacetEl) (a : Act) (halt : Bool) (ids : List Nat) (cycle : Nat) : FacetEl :=
  let h := a.hstat fe
  { fe with
    bank := a.bank, fresh := (cycle, a.raised), hstat := if halt then setBit h 9 true else h, rmode := a.rmode, masks := a.masks,
    handlers := a.handlersAfter fe.handlers,
    inq := Vector.ofFn fun p => (fe.inq.get p).drop (a.taken.get p),
    outbound := fe.outbound ++ ids }
/-- Sends enter their output queues in program order (R31). -/
def Element.emit (e : Element) (cycle : Nat) (l : List SendEnt) : Element :=
  l.foldl (fun e x => { e with outq := vmod e.outq x.port (· ++ [⟨x.tok, cycle, x.wait⟩]) }) e
/-- The tag of a local word changes: moored handlers wake (R36), and comparators see it (R445). -/
def State.localTagChange (s : State) (t : Tile) (f : Facet) (word : Nat) (full : Bool) : State :=
  (s.unmoor t word full).dbgTag t f 0 (8 * word - localBase t) full
/-- What stands in the way of a commit. -/
inductive CommitBlock where
  | go
  | wait            -- the outbound queue or the undo log has no room (R241, R373)
  | burst (p : Nat)
  | record (p : Nat)
  | log
  deriving DecidableEq, Repr
/-- The checks before a commit, in the order: open burst (R19), channel record (R371), outbound queue (R241), undo log (R373). -/
def State.commitBlock (s : State) (t : Tile) (a : Act) : CommitBlock :=
  let e := s.el t
  let fe := e.fac a.facet
  let rec_ := fe.recordOf a.taken
  match (List.range 16).find? (fun p => bit a.bursts p) with
  | some p => .burst p
  | none =>
    if 64 < fe.recordLen + rec_.length then .record ((rec_[64 - fe.recordLen]?.map (·.1)).getD 0)
    else if 32 < fe.outbound.length + (devReqs a.stores).length then .wait
    else if s.logs t && decide (512 < e.undo.length + (wordsOf a.stores).length) then
      if e.undo.all (fun u => u.reach == (e.fac u.facet).reach) then .log else .wait
    else .go
/-- The effects of a commit (R31). -/
def State.commitApply (s : State) (t : Tile) (a : Act) (halt : Bool) : State :=
  let fe0 := (s.el t).fac a.facet
  let reqs := (devReqs a.stores).map fun r => { r with reach := fe0.reach, stage := .queued }
  let words := tagWords a.stores
  let before := words.map fun w => (w, s.mem.isFull (8 * w))
  let s := (wordsOf a.stores).foldl (fun s w => s.logLocal t a.facet w) s
  let s := { s with mem := a.stores.foldl Memory.applyEnt s.mem, reqs := s.reqs ++ reqs }
  let s := s.modEl t fun e => ((e.modFac a.facet fun fe =>
    (fe.addRecord (fe.recordOf a.taken)).committed a halt (reqs.map (·.id)) s.cycle).emit s.cycle a.sends)
  let s := before.foldl (fun s x =>
    let now := s.mem.isFull (8 * x.1)
    if now = x.2 then s else s.localTagChange t a.facet x.1 now) s
  (s.phaseCommit t a.facet).dropAct t
/-- COMMITTING an activation (R31), as END and HALT do; an open burst traps (R19), a full record or log stops the region. -/
def State.commit (s : State) (t : Tile) (a : Act) (halt : Bool) : State :=
  match s.commitBlock t a with
  | .burst p => s.trap t a causeOpenBurst (BitVec.ofNat 64 (0x80 + p))
  | .record p => s.causeStop t a.facet causeBackPort p
  | .log => s.causeStop t a.facet causeTideLog (tileDetail t)
  | .wait => s.otherWait t a
  | .go => s.commitApply t a halt

/-! Branches -/

/-- The condition of a branch that compares two values (R44). -/
def condHolds (c : Cond) (x y : Word) : Bool :=
  match c with
  | .eq => x == y
  | .ne => x != y
  | .lt => decide (x.toInt < y.toInt)
  | .ge => decide (y.toInt ≤ x.toInt)
  | .ltu => decide (x.toNat < y.toNat)
  | .geu => decide (y.toNat ≤ x.toNat)
  | _ => true
/-- The condition of BRC, and the activation after its operands (R115): values, a predicate, or the tag of a token. -/
def State.brCond (s : State) (t : Tile) (a : Act) (w : BForm) : Except TrapInfo (Bool × Act) :=
  match w.cond with
  | .ps | .pc =>
    let b := match w.a with
      | .p n => (a.bank.rp n).scalar
      | _ => false
    .ok (b == (w.cond == .ps), a)
  | .er | .nl | .tp =>
    let b := match s.specTok t a w.a with
      | none => false
      | some k => if w.cond = .er then k.kind == kEor else if w.cond = .nl then k.kind == kNull else k.pred
    .ok (b, a.consume w.a)
  | c =>
    match s.rdScalar t a w.a with
    | .error e => .error e
    | .ok (x, a1) =>
      match s.rdScalar t a1 w.b with
      | .error e => .error e
      | .ok (y, a2) => .ok (condHolds c x y, a2)
/-- The next index. -/
def Act.jump (a : Act) (pc : Word) : Act := { a with pc := pc }
def Act.next (a : Act) : Act := { a with pc := a.pc + 1 }

/-- BR (R115). -/
def execBr (w : BForm) (s : State) : Out :=
  withAct s fun t a =>
    s.issue t a w.head [] none (fun _ => s) (s.finishJump t a w.d (.ok (a.jump (w.tgt.setWidth 64))))
/-- BRC (R115): a consuming port is consumed whether or not the branch is taken. -/
def execBrc (w : BForm) (s : State) : Out :=
  withAct s fun t a =>
    let srcs := [w.a, w.b]
    s.issue t a w.head srcs none (s.nullPlain t a srcs w.d) <|
      s.finishJump t a w.d <|
        match s.brCond t a w with
        | .error e => .error e
        | .ok (b, a') => .ok (if b then a'.jump (w.tgt.setWidth 64) else a'.next)
/-- CALL (R116): the link is the index of the CALL plus 1. -/
def execCall (w : BForm) (s : State) : Out :=
  withAct s fun t a =>
    s.issue t a w.head [] none (fun _ => s) <|
      match w.d with
      | .g n => s.finishJump t a w.d (.ok ((a.wg n (a.pc + 1)).jump (w.tgt.setWidth 64)))
      | _ => s.trap t a causeOperandClass 0
/-- RET (R116). -/
def execRet (w : RForm) (s : State) : Out :=
  withAct s fun t a =>
    s.issue t a w.head [w.a] none (s.nullPlain t a [w.a] w.d) <|
      s.finishJump t a w.d <|
        match s.rdScalar t a w.a with
        | .error e => .error e
        | .ok (x, a') => .ok (a'.jump x)
/-- LOOP (R117). -/
def execLoop (w : BForm) (s : State) : Out :=
  withAct s fun t a =>
    s.issue t a w.head [] none (fun _ => s) <|
      match w.d with
      | .g n =>
        let x := a.bank.rg n
        s.finishJump t a w.d <| .ok <|
          if 1 < x.toNat then (a.wg n (x - 1)).jump (w.tgt.setWidth 64) else (a.wg n 0).next
      | _ => s.trap t a causeOperandClass 0

/-! Ends of an activation -/

/-- END (R118). -/
def execEnd (w : RForm) (s : State) : Out :=
  withAct s fun t a => s.issue t a w.head [] none (fun _ => s) (s.commit t a false)
/-- YIELD (R118): aborts; the retry count is unchanged. -/
def execYield (w : RForm) (s : State) : Out :=
  withAct s fun t a => s.issue t a w.head [] none (fun _ => s) (s.abort t a)
/-- ABORT (R118): aborts and counts against the retry budget (R37). -/
def execAbort (w : RForm) (s : State) : Out :=
  withAct s fun t a => s.issue t a w.head [] none (fun _ => s) (s.abortCount t a 0).1
/-- HALT (R118): commits, and the facet halts. -/
def execHalt (w : RForm) (s : State) : Out :=
  withAct s fun t a => s.issue t a w.head [] none (fun _ => s) (s.commit t a true)
/-- TRAP (R119): program trap imm. -/
def execTrap (w : IForm) (s : State) : Out :=
  withAct s fun t a =>
    s.issue t a w.head [] none (fun _ => s) (s.trap t a (causeProgramTrap + w.imm.toNat % 16) 0)

/-! Handlers and special registers -/

/-- ARM (R120): buffered until the commit. -/
def execArm (w : RForm) (s : State) : Out :=
  withAct s fun t a =>
    s.issue t a w.head [w.a] none (s.nullPlain t a [w.a] w.d) <|
      s.finish t a w.d 0 <|
        match s.rdScalar t a w.a with
        | .error e => .error e
        | .ok (x, a') => .ok { a' with arms := a'.arms ++ [x.setWidth 6] }
/-- MASK (R121). -/
def execMask (w : RForm) (s : State) : Out :=
  withAct s fun t a =>
    let srcs := [w.a, w.b]
    s.issue t a w.head srcs w.d.outPort (s.nullPlain t a srcs w.d) <|
      s.finish t a w.d 0 <|
        match s.rdScalar t a w.a with
        | .error e => .error e
        | .ok (x, a1) =>
          match s.rdScalar t a1 w.b with
          | .error e => .error e
          | .ok (y, a2) => { a2 with masks := (a.masks &&& ~~~y) ||| (x &&& y) }.deliver w.d a.masks
/-- What MFS reads (R12, R122): the register as the activation sees it. -/
def State.special (s : State) (t : Tile) (a : Act) (sel : Nat) : Word :=
  let e := s.el t
  let fe := e.fac a.facet
  if sel = 1 then a.hstat fe
  else if sel = 2 then fe.hcause
  else if sel = 3 then fe.haddr
  else if sel = 4 then BitVec.ofNat 64 e.curFacet.val
  else if sel = 5 then fe.actbase.setWidth 64
  else if sel = 6 then fe.actlim.setWidth 64
  else if sel = 7 then fe.isbase.setWidth 64
  else if sel = 8 then fe.islim.setWidth 64
  else if sel = 9 then a.rmode.setWidth 64
  else if sel = 10 then (a.prio.getD (BitVec.ofNat 3 (fe.handlers.get a.handler).pri)).setWidth 64
  else if sel = 11 then a.masks
  else if sel = 12 then e.fenable.setWidth 64
  else if sel = 13 then BitVec.ofNat 64 (s.time t)
  else 0
/-- What MTS does (R122). -/
def Act.setSpecial (a : Act) (sel : Nat) (x : Word) : Except TrapInfo Act :=
  if sel = 1 then
    if bit x 8 || bit x 9 then .error (causePrivilegedWrite, 0)
    else .ok { a with raised := a.raised &&& ~~~(x.setWidth 6), cleared := a.cleared ||| x.setWidth 6 }
  else if sel = 9 then .ok { a with rmode := x.setWidth 2 }
  else if sel = 10 then .ok { a with prio := some (x.setWidth 3) }
  else if sel = 11 then .ok { a with masks := x }
  else .error (causePrivilegedWrite, 0)
/-- MFS (R122). -/
def execMfs (w : RForm) (s : State) : Out :=
  withAct s fun t a =>
    s.issue t a w.head [] w.d.outPort (fun _ => s) (s.finish t a w.d 0 (a.deliver w.d (s.special t a (fld w.fn 0 8))))
/-- MTS (R122): a write that the table does not permit raises privileged-write. -/
def execMts (w : RForm) (s : State) : Out :=
  withAct s fun t a =>
    s.issue t a w.head [w.a] none (s.nullPlain t a [w.a] w.d) <|
      s.finish t a w.d 0 <|
        match s.rdScalar t a w.a with
        | .error e => .error e
        | .ok (x, a') => a'.setSpecial (fld w.fn 0 8) x

/-! Order -/

/-- Scopes at which FENCE and ORDER act (R123, R124). -/
def Scope.orders : Scope → Bool
  | .act | .elem | .rsv => false
  | _ => true
/-- Every device request of the facet's earlier committed activations is performed at a scope (R244); watches are none. -/
def State.facetPerformed (s : State) (t : Tile) (f : Facet) (sc : Scope) : Bool :=
  s.reqs.all fun q => match q.src with
    | .elem t' f' _ _ => !(t' == t && f' == f && q.form != 0xA) || q.performed sc
    | _ => true
/-- FENCE (R123, R244): waits at issue for earlier activations, and orders what follows in this one. -/
def execFence (w : MForm) (s : State) : Out :=
  withAct s fun t a =>
    s.issue t a w.head [] none (fun _ => s) <|
      if Scope.orders w.scope then
        if s.facetPerformed t a.facet w.scope then s.retire t { a with fences := a.fences ++ [(a.reqs, w.scope)] } 0
        else s.otherWait t a
      else s.retire t a 0
/-- What the token of an ORDER waits for (R124, R245). -/
def Act.orderWait (a : Act) (sc : Scope) : List (Nat × Scope) :=
  if Scope.orders sc then a.reqs.map fun i => (i, sc) else []
/-- ORDER (R124): a data token that leaves only after the earlier accesses are performed at the scope. -/
def execOrder (w : MForm) (s : State) : Out :=
  withAct s fun t a =>
    match w.d with
    | .outp p =>
      let srcs := [w.a]
      s.issue t a w.head srcs (some p)
        (fun k => s.finish t a w.d 0 ((a.consumeAll srcs).sendNull p k false false (a.orderWait w.scope)))
        (s.finish t a w.d 0 <|
          match s.rdScalar t a w.a with
          | .error e => .error e
          | .ok (x, a') => a'.send p (mkTok a.facet kData false false false false x.toNat) (a'.orderWait w.scope))
    | _ => s.trap t a causeOperandClass 0

end Sys2Proof.Machine
end

