-- ==== Sys2Proof/Machine/LocalMem.lean ====
section
/-! DEFINITION. The local memory and tag instructions (R142 to R146): window checks (R9), the view through the store commit buffer
(R30, R144), and the waiting forms (R34 to R37). -/

namespace Sys2Proof.Machine

/-- The location of a format-M access: value of a plus the sign-extended displacement (R45, R142, R227). -/
def locOf (x : Word) (disp : BitVec 20) : Word := x + disp.signExtend 64

/-- The window checks of R9, alignment first and bounds second: the byte of local memory that an offset names. -/
def FacetEl.localByte (fe : FacetEl) (off : Word) (n : Nat) : Except TrapInfo Nat :=
  if off.toNat % n ≠ 0 then .error (causeLocalAlignment, off)
  else if fe.actlim.toNat < off.toNat + n ∨ 0x10000 < fe.actbase.toNat + off.toNat + n then .error (causeLocalBounds, off)
  else .ok (fe.actbase.toNat + off.toNat)

/-- The newest buffered local byte at an address (R30). -/
def Act.overlay (a : Act) (addr : Nat) : Option Byte :=
  a.stores.foldl (fun acc x => match x with
    | .loc cells _ => (match cells.find? (fun c => c.1 == addr) with
      | some c => some c.2
      | none => acc)
    | _ => acc) none
/-- The tag of a local word as the activation sees it (R30, R144). -/
def State.localTag (s : State) (a : Act) (addr : Nat) : Bool :=
  a.stores.foldl (fun acc x => match x with
    | .loc _ (some (w, b)) => if w = addr / 8 then b else acc
    | _ => acc) (s.mem.isFull addr)
/-- Bytes of local memory as the activation sees them. -/
def State.localBytes (s : State) (a : Act) (addr : Nat) : Nat → List Byte
  | 0 => []
  | n + 1 => (a.overlay addr).getD (s.mem.byte addr) :: s.localBytes a (addr + 1) n
/-- A byte that the load takes from memory lies in a word with an uncorrectable error (R382). -/
def State.localBad (s : State) (a : Act) (addr n : Nat) : Bool :=
  (List.range n).any fun i => (a.overlay (addr + i)).isNone && s.mem.isPoison (addr + i)
/-- A local load of n bytes at an address: the value, or local-uncorrectable. -/
def State.localLoad (s : State) (a : Act) (off : Word) (addr n : Nat) : Except TrapInfo Nat :=
  if s.localBad a addr n then .error (causeLocalUncorrectable, off) else .ok (ofBytes (s.localBytes a addr n))
/-- A store entry; a 17th raises store-overflow (R30). -/
def Act.addStore (a : Act) (e : StoreEnt) : Except TrapInfo Act :=
  if 16 ≤ a.stores.length then .error (causeStoreOverflow, 0) else .ok { a with stores := a.stores ++ [e] }
/-- Bytes with their addresses. -/
def cellsAt : Nat → List Byte → List Host.Cell
  | _, [] => []
  | a, b :: bs => (a, b) :: cellsAt (a + 1) bs

/-- The address operand of a local access after its checks: offset, address in memory, and the activation. -/
def State.localAddr (s : State) (t : Tile) (a : Act) (w : MForm) (n : Nat) : Except TrapInfo (Word × Nat × Act) :=
  match s.rdScalar t a w.a with
  | .error e => .error e
  | .ok (x, a') =>
    let off := locOf x w.disp
    match ((s.el t).fac a.facet).localByte off n with
    | .error e => .error e
    | .ok p => .ok (off, localBase t + p, a')
/-- Address and data operand of a local store, read in the order a, b (R51); the checks follow the reads. -/
def State.localStoreOps (s : State) (t : Tile) (a : Act) (w : MForm) (n : Nat) : Except TrapInfo (Word × Nat × Word × Act) :=
  match s.rdScalar t a w.a with
  | .error e => .error e
  | .ok (x, a') =>
    match s.rdScalar t a' w.b with
    | .error e => .error e
    | .ok (y, a'') =>
      let off := locOf x w.disp
      match ((s.el t).fac a.facet).localByte off n with
      | .error e => .error e
      | .ok p => .ok (off, localBase t + p, y, a'')

/-- The frame of every local access: guard, ports, room, match and null-skip (R145). -/
def State.localOp (s : State) (w : MForm) (body : Tile → Act → State) : Out :=
  withAct s fun t a =>
    let srcs := [w.a, w.b]
    s.issue t a w.head srcs w.d.outPort (s.nullPlain t a srcs w.d) (body t a)
/-- A waiting form whose tag fails: the activation aborts and the handler moors at the word (R34, R35). -/
def State.localFail (s : State) (t : Tile) (a : Act) (off : Word) (addr : Nat) (awaitFull : Bool) : State :=
  s.abortMoor t a off (addr / 8) awaitFull none

/-- LD (R143). -/
def execLd (w : MForm) (s : State) : Out :=
  s.localOp w fun t a => s.finish t a w.d 0 <|
    match s.localAddr t a w w.size.bytes with
    | .error e => .error e
    | .ok (off, p, a') =>
      match s.localLoad a off p w.size.bytes with
      | .error e => .error e
      | .ok v => a'.deliver w.d (BitVec.ofNat 64 v)
/-- ST (R143). -/
def execSt (w : MForm) (s : State) : Out :=
  s.localOp w fun t a => s.finish t a w.d 0 <|
    match s.localStoreOps t a w w.size.bytes with
    | .error e => .error e
    | .ok (_, p, y, a') => a'.addStore (.loc (cellsAt p (bytesOf w.size.bytes y.toNat)) none)
/-- LDV (R143): the lanes of the write mask. -/
def execLdv (w : MForm) (s : State) : Out :=
  s.localOp w fun t a => s.finish t a w.d 0 <|
    match s.localAddr t a w 64 with
    | .error e => .error e
    | .ok (off, p, a') =>
      match s.localLoad a off p 64 with
      | .error e => .error e
      | .ok v => .ok (a'.putVec w.d 32 (a.writeMask w.head) ((elems 32 (BitVec.ofNat 512 v)).map fun x => (x, 0)))
/-- STV (R143): the lanes of the write mask. -/
def execStv (w : MForm) (s : State) : Out :=
  s.localOp w fun t a => s.finish t a w.d 0 <|
    match s.localAddr t a w 64 with
    | .error e => .error e
    | .ok (_, p, a') =>
      let y := rdVec a 32 (immInt 32) w.b
      let cells := cellsAt p (bytesOf 64 y.toNat)
      a'.addStore (.loc (cells.zipIdx.filterMap fun x => if bit (a.writeMask w.head) (x.2 / 4) then some x.1 else none) none)
/-- LDW (R143): the tag stays full. -/
def execLdw (w : MForm) (s : State) : Out :=
  s.localOp w fun t a =>
    match s.localAddr t a w 8 with
    | .error (c, x) => s.trap t a c x
    | .ok (off, p, a') =>
      if !s.localTag a p then s.localFail t a off p true
      else s.finish t a w.d 0 <|
        match s.localLoad a off p 8 with
        | .error e => .error e
        | .ok v => a'.deliver w.d (BitVec.ofNat 64 v)
/-- LDC (R143): buffers the tag's change to empty. -/
def execLdc (w : MForm) (s : State) : Out :=
  s.localOp w fun t a =>
    match s.localAddr t a w 8 with
    | .error (c, x) => s.trap t a c x
    | .ok (off, p, a') =>
      if !s.localTag a p then s.localFail t a off p true
      else s.finish t a w.d 0 <|
        match s.localLoad a off p 8 with
        | .error e => .error e
        | .ok v =>
          match a'.addStore (.loc [] (some (p / 8, false))) with
          | .error e => .error e
          | .ok a'' => a''.deliver w.d (BitVec.ofNat 64 v)
/-- STF (R143): the word must be empty, and the tag becomes full. Address and tag are checked before the room for the store entry, an order
that the spec does not give (DESIGN CHOICE, log 64). -/
def execStf (w : MForm) (s : State) : Out :=
  s.localOp w fun t a =>
    match s.localStoreOps t a w 8 with
    | .error (c, x) => s.trap t a c x
    | .ok (off, p, y, a') =>
      if s.localTag a p then s.localFail t a off p false
      else s.finish t a w.d 0 (a'.addStore (.loc (cellsAt p (bytesOf 8 y.toNat)) (some (p / 8, true))))
/-- STX (R143). -/
def execStx (w : MForm) (s : State) : Out :=
  s.localOp w fun t a => s.finish t a w.d 0 <|
    match s.localStoreOps t a w 8 with
    | .error e => .error e
    | .ok (_, p, y, a') => a'.addStore (.loc (cellsAt p (bytesOf 8 y.toNat)) (some (p / 8, true)))
/-- TAGE (R143). -/
def execTage (w : MForm) (s : State) : Out :=
  s.localOp w fun t a => s.finish t a w.d 0 <|
    match s.localAddr t a w 8 with
    | .error e => .error e
    | .ok (_, p, a') => a'.addStore (.loc [] (some (p / 8, false)))
/-- TAGQ (R143): the tag as a truth value (R102). -/
def execTagq (w : MForm) (s : State) : Out :=
  s.localOp w fun t a => s.finish t a w.d 0 <|
    match s.localAddr t a w 8 with
    | .error e => .error e
    | .ok (_, p, a') => a'.deliverTruth w.d (s.localTag a p)

end Sys2Proof.Machine
end

