-- ==== Sys2Proof/Machine/Lockstep.lean ====
section
/-! DEFINITION. Requests by their identifiers, and delayed lockstep (R387, R388): what a mirror does in place of sending, and what it
receives. -/

namespace Sys2Proof.Machine

def State.findReq (s : State) (id : Nat) : Option Req := s.reqs.find? fun q => q.id == id
def State.setReq (s : State) (q : Req) : State := { s with reqs := s.reqs.map fun p => if p.id = q.id then q else p }
def State.delReq (s : State) (id : Nat) : State := { s with reqs := s.reqs.filter fun p => p.id != id }

/-- The facet of a region runs in delayed lockstep. -/
def State.locked (s : State) (t : Tile) (f : Facet) : Bool :=
  match s.regionOf t with
  | some r => ((s.rg r).tideCfg.get f).lock
  | none => false
/-- The tile is a mirror of a lockstep facet. -/
def State.isMirror (s : State) (t : Tile) (f : Facet) : Bool := s.locked t f && decide (2 ≤ t.x % 4)
def State.isPrimary (s : State) (t : Tile) (f : Facet) : Bool := s.locked t f && decide (t.x % 4 < 2)
/-- The key of the primary tile of an item. -/
def primKey (t : Tile) : Nat := if t.x % 4 < 2 then t.key else (⟨t.x - 2, t.y⟩ : Tile).key
/-- An item of a request, whose MT addresses count from its own tile's area. -/
def Req.lockItem (q : Req) (t : Tile) (cycle : Nat) : LockItem :=
  { tile := primKey t, facet := q.facet, kind := 0, code := q.form, addr := q.loc.toNat, size := q.size, data := q.data,
    data2 := q.data2, op := q.op + 16 * q.scope.toBits.toNat + 128 * q.cas.toNat + 256 * q.confirm.toNat, cycle := cycle }
def LockItem.same (a b : LockItem) : Bool :=
  a.kind == b.kind && a.code == b.code && a.addr == b.addr && a.size == b.size && a.data == b.data && a.data2 == b.data2 && a.op == b.op
/-- Items of one stream, which are compared in their order: the requests of an element's facet, or its tokens for one egress port. -/
def LockItem.mate (a b : LockItem) : Bool :=
  a.tile == b.tile && a.facet == b.facet && a.kind == b.kind && (a.kind == 0 || a.code == b.code)
/-- lockstep-mismatch (R388, R364): a rollback with the reach number. -/
def State.lockFail (s : State) (r : RegionId) (f : Facet) (reach : Nat) : State :=
  (s.causeRg r f causeLockstep reach).rollback [r]
/-- An item arrives and is compared with the first item that waits of the other side; without one it waits. -/
def State.lockCompare (s : State) (r : RegionId) (reach : Nat) (x : LockItem) (mirror : Bool) : State :=
  let g := s.rg r
  if mirror then
    match g.lockPrim.find? x.mate with
    | some y =>
      let s := s.modRg r fun g => { g with lockPrim := g.lockPrim.erase y }
      if y.same x then s else s.lockFail r x.facet reach
    | none => s.modRg r fun g => { g with lockMirror := g.lockMirror ++ [x] }
  else match g.lockMirror.find? x.mate with
    | some y =>
      let s := s.modRg r fun g => { g with lockMirror := g.lockMirror.erase y }
      if y.same x then s else s.lockFail r x.facet reach
    | none => s.modRg r fun g => { g with lockPrim := g.lockPrim ++ [x] }
/-- A request of the primary side still waits for its mirror item. -/
def State.lockWaits (s : State) (r : RegionId) (t : Tile) (q : Req) : Bool :=
  (s.rg r).lockPrim.any fun y => y.mate (q.lockItem t 0) && y.same (q.lockItem t 0)

/-- The request asks for a reply. -/
def Req.asks (q : Req) : Bool :=
  q.form == 0 || q.form == 2 || q.form == 7 || q.form == 0xA || q.form == 0xC ||
  (!q.confirm && (q.form == 3 || q.form == 8 || q.form == 9))
/-- A request sets out. A mirror's is compared and not sent, and it waits where it asks for a reply; a primary's is noted for the
comparison (R388). -/
def State.sendReq (s : State) (t : Tile) (q : Req) (asks : Bool) : State :=
  let q := { q with stage := .travelling, order := s.nextId }
  let s := s.bumpId
  match q.region with
  | some r =>
    if s.isMirror t q.facet then
      (if asks then s.setReq { q with stage := .queued } else s.delReq q.id).lockCompare r q.reach (q.lockItem t s.cycle) true
    else if s.isPrimary t q.facet then (s.setReq q).lockCompare r q.reach (q.lockItem t s.cycle) false
    else s.setReq q
  | none => s.setReq q
/-- A new request is listed and sets out. -/
def State.issueReq (s : State) (t : Tile) (q : Req) (asks : Bool) : State :=
  State.sendReq { s.bumpId with reqs := s.reqs ++ [q] } t q asks
/-- An engine has taken a reply: a home-class access stays listed until its reach commits (R240). -/
def State.settleTaken (s : State) (q : Req) : State :=
  match q.stage, q.region with
  | .replied (.data _ _), some r =>
    if q.takesValue && (q.timed || (s.rg r).reaches.any fun x => x.n == q.reach) then s.setReq { q with stage := .atHome } else s.delReq q.id
  | _, _ => s.delReq q.id
/-- The mirror of a primary that receives a reply receives it 4 cycles later (R388). -/
def State.noteReply (s : State) (t : Tile) (f : Facet) (r : Reply) : State :=
  match s.regionOf t with
  | some rg =>
    if s.isPrimary t f then s.modRg rg fun g => { g with lockReplies := g.lockReplies ++ [(t.key, f, r, s.cycle + 4)] } else s
  | none => s
/-- The reply that a mirror receives goes to its oldest request that waits. -/
def State.mirrorReply (s : State) (key : Nat) (f : Facet) (r : Reply) : State :=
  let m : Tile := ⟨key / 32 + 2, key % 32⟩
  match s.reqs.find? (fun q => decide (q.src.tile = some m) && q.facet == f && q.stage == .queued &&
      !((s.el m).fac f).outbound.contains q.id) with
  | some q => s.setReq { q with stage := .replied r }
  | none => s
/-- Clears the mooring entry that a watch names, with its moored bit (R36, R229). -/
def State.unmoorWatch (s : State) (t : Tile) (watch : Nat) : State :=
  let hit := (s.el t).moors.filter fun m => m.watch == some watch
  let s := s.modEl t fun e => { e with moors := e.moors.filter fun m => m.watch != some watch }
  hit.foldl (fun s m => s.modFac t m.facet (·.setMoored m.handler false)) s
/-- A wake, or a request's return with a cause, reaches an element: the mooring entry of a watch clears, and a cause is taken as an
asynchronous trap (R228, R229). -/
def State.takeAsync (s : State) (t : Tile) (f : Facet) (id : Nat) (cause : Option Nat) (h pc : Nat) (loc : Word) : State :=
  let s := s.unmoorWatch t id
  match cause with
  | some c => s.trapAsync t f c h pc loc
  | none => s
/-- The mirror of a primary that receives a wake or a return receives it 4 cycles later (R388). -/
def State.noteAsync (s : State) (t : Tile) (f : Facet) (id : Nat) (cause : Option Nat) (h pc : Nat) (loc : Word) : State :=
  match s.regionOf t with
  | some rg =>
    if s.isPrimary t f then s.modRg rg fun g => { g with lockAsync := g.lockAsync ++ [⟨t.key, f, id, cause, h, pc, loc, s.cycle + 4⟩] } else s
  | none => s
/-- Replies, wakes and returns that are due at the mirrors of a region. -/
def State.deliverMirrors (s : State) (r : RegionId) : State :=
  let g := s.rg r
  let due := g.lockReplies.filter fun x => decide (x.2.2.2 ≤ s.cycle)
  let s' := due.foldl (fun s x => s.mirrorReply x.1 x.2.1 x.2.2.1)
    (s.modRg r fun g => { g with lockReplies := g.lockReplies.filter fun x => !decide (x.2.2.2 ≤ s.cycle) })
  (g.lockAsync.filter fun x => decide (x.due ≤ s.cycle)).foldl
    (fun s x => s.takeAsync ⟨x.tile / 32 + 2, x.tile % 32⟩ x.facet x.id x.cause x.handler x.pc x.loc)
    (s'.modRg r fun g => { g with lockAsync := g.lockAsync.filter fun x => !decide (x.due ≤ s.cycle) })

end Sys2Proof.Machine
end

