-- ==== Sys2Proof/Machine/DeviceMem.lean ====
section
/-! DEFINITION. The instructions by which an element reaches device memory (R227 to R234): requests of loads at issue, buffered
stores, the activation's own view (R228, R241), and the replies that end a load (R229 to R231). -/

namespace Sys2Proof.Machine

/-- Bytes that a buffered or queued store writes, by address. A hold gives none: until its confirm is performed plain readers see the
pre-access content (R230, R243). -/
def Req.cells (q : Req) : List Host.Cell :=
  if !q.confirm && (q.form == 1 || q.form == 4 || q.form == 5) then cellsAt q.addr (bytesOf q.size q.data) else []
/-- The device requests that an activation holds, holds with the tag that they will leave. -/
def Act.devEnts (a : Act) : List Req :=
  a.stores.filterMap fun x => match x with
    | .dev r => some r
    | .hold r => some { r with confirm := true }
    | .loc _ _ => none
/-- Requests of an element that stand in its outbound queues, in commit order; late ones are those still on the way as well. -/
def State.ownQueued (s : State) (t : Tile) (late : Bool) : List Req :=
  s.reqs.filter fun q => match q.src with
    | .elem t' _ _ _ => t' == t && (q.stage == .queued || (late && (q.stage == .travelling || q.stage == .regulated)))
    | _ => false
/-- Bytes of an access that the requester's own stores supply, by offset, the newest (R228, R241). -/
def overlayOf (l : List Req) (pa n : Nat) : List (Nat × Byte) :=
  let cells := l.flatMap Req.cells
  (List.range n).filterMap fun i =>
    match (cells.filter (fun c => c.1 == pa + i)).getLast? with
    | some c => some (i, c.2)
    | none => none
/-- The tag of a device word as the activation's own buffered changes leave it (R228). -/
def Act.ownTag (a : Act) (word : Nat) : Option Bool :=
  a.devEnts.foldl (fun acc q =>
    if q.addr / 8 = word then
      if q.confirm then (match q.newTag with
        | some b => some b
        | none => acc)
      else if q.form = 4 ∨ q.form = 5 then some true
      else if q.form = 6 then some false else acc
    else acc) none

/-- A load, tag query or read-modify-write goes out as a request, and the instruction holds its slot until the reply (R228). -/
def State.devAsk (s : State) (t : Tile) (a a' : Act) (q : Req) (d : Spec) (mask : BitVec 16) (truth : Bool) : State :=
  let own := if q.form = 0 then s.ownQueued t false ++ a.devEnts else a.devEnts
  let q := { q with stage := .travelling, order := q.id, overlay := overlayOf own q.addr q.size,
                    own := if q.form = 0 then none else a.ownTag (q.addr / 8) }
  (s.setAct t { a' with stalled := 0, wait := .reply q.id d mask truth }).issueReq t q true
/-- The instruction waits for a table walk, and issues anew after it (R266). -/
def State.devWalk (s : State) (t : Tile) (a : Act) (va form : Nat) : State :=
  match s.regionOf t with
  | none => s
  | some r =>
    let x := s.startWalk r t.die a.facet va (formPerm form) (.elem t)
    x.1.setAct t { a with stalled := 0, wait := .walk x.2 }
/-- Under null-skip the data operand of a store is a null token: the store sends nothing (R234). -/
def State.nullData (s : State) (t : Tile) (a : Act) (w : MForm) : Bool :=
  w.head.pm == .nullSkip && (s.specTok t a w.b).any fun k => k.kind == kNull
/-- The frame of the device accesses in format M (R234). -/
def State.devOp (s : State) (w : MForm) (body : Tile → Act → State) : Out :=
  withAct s fun t a =>
    let srcs := [w.a, w.b]
    s.issue t a w.head srcs w.d.outPort (s.nullPlain t a srcs w.d)
      (if s.nullData t a w then s.retire t (a.consumeAll srcs) 0 else body t a)
/-- A load or a tag query in format M (R232). -/
def State.devLoad (s : State) (w : MForm) (form : Nat) (truth : Bool) : Out :=
  s.devOp w fun t a =>
    match s.rdScalar t a w.a with
    | .error (c, x) => s.trap t a c x
    | .ok (x, a') =>
      let l := locOf x w.disp
      match s.elemWhere t a.facet l w.size.bytes form with
      | .bad c h => s.trap t a c h
      | .miss va => s.devWalk t a va form
      | .here pa leaf =>
        if form = 3 ∧ 16 ≤ a.stores.length then s.trap t a causeStoreOverflow 0
        else (s.elemTouch t l).devAsk t a a' (s.newReq t a form l pa w.size.bytes w.scope leaf) w.d (a.writeMask w.head) truth
/-- A buffered store entry for the device, by its request. -/
def Act.addDev (a : Act) (q : Req) : Except TrapInfo Act :=
  match a.addStore (.dev q) with
  | .error e => .error e
  | .ok a' => .ok { a' with reqs := a'.reqs ++ [q.id] }
/-- The data operand of a store: a scalar, or a vector for 64 bytes. -/
def State.rdStoreData (s : State) (t : Tile) (a : Act) (w : MForm) : Except TrapInfo (Nat × Act) :=
  if w.size = .v then .ok ((rdVec a 32 (immInt 32) w.b).toNat, a)
  else match s.rdScalar t a w.b with
    | .error e => .error e
    | .ok (y, a') => .ok (y.toNat, a')
/-- A store, filling store or tag-empty in format M (R232): one entry of the store commit buffer. -/
def State.devStore (s : State) (w : MForm) (form : Nat) : Out :=
  s.devOp w fun t a =>
    match s.rdScalar t a w.a with
    | .error (c, x) => s.trap t a c x
    | .ok (x, a1) =>
      match s.rdStoreData t a1 w with
      | .error (c, x) => s.trap t a c x
      | .ok (y, a2) =>
        let l := locOf x w.disp
        match s.elemWhere t a.facet l w.size.bytes form with
        | .bad c h => s.trap t a c h
        | .miss va => s.devWalk t a va form
        | .here pa leaf =>
          let q := { s.newReq t a form l pa w.size.bytes w.scope leaf with data := y }
          ((s.elemTouch t l).bumpId).finish t a w.d 0 (a2.addDev q)

/-- MLD (R232). -/
def execMld (w : MForm) (s : State) : Out := s.devLoad w 0 false
/-- MST (R232). -/
def execMst (w : MForm) (s : State) : Out := s.devStore w 1
/-- MLDW (R229). -/
def execMldw (w : MForm) (s : State) : Out := s.devLoad w 2 false
/-- MLDC (R230). -/
def execMldc (w : MForm) (s : State) : Out := s.devLoad w 3 false
/-- MSTF (R232). -/
def execMstf (w : MForm) (s : State) : Out := s.devStore w 4
/-- MSTX (R232). -/
def execMstx (w : MForm) (s : State) : Out := s.devStore w 5
/-- MTAGE (R232). -/
def execMtage (w : MForm) (s : State) : Out := s.devStore w 6
/-- MTAGQ (R232). -/
def execMtagq (w : MForm) (s : State) : Out := s.devLoad w 7 true

/-- MATOM and MCAS (R233): the operands, then the request under a hold. -/
def State.devAtomic (s : State) (w : RForm) (cas : Bool) : Out :=
  withAct s fun t a =>
    let srcs := [w.a, w.b, w.c]
    s.issue t a w.head srcs w.d.outPort (s.nullPlain t a srcs w.d) <|
      match rd3 a (fun a sp => s.rdScalar t a sp) w.a w.b w.c with
      | .error (c, x) => s.trap t a c x
      | .ok (l, y, z, a') =>
        let n := if fld w.fn 4 2 = 2 then 4 else 8
        let form := if bit w.fn 9 then 9 else 8
        match s.elemWhere t a.facet l n form with
        | .bad c h => s.trap t a c h
        | .miss va => s.devWalk t a va form
        | .here pa leaf =>
          if 16 ≤ a.stores.length then s.trap t a causeStoreOverflow 0
          else
            let q := { s.newReq t a form l pa n (.ofBits (BitVec.ofNat 3 (fld w.fn 6 3))) leaf with
                       op := fld w.fn 0 4, cas := cas, data := y.toNat % 2 ^ (8 * n), data2 := z.toNat % 2 ^ (8 * n) }
            (s.elemTouch t l).devAsk t a a' q w.d 0xFFFF false
/-- MATOM (R233). -/
def execMatom (w : RForm) (s : State) : Out := s.devAtomic w false
/-- MCAS (R233). -/
def execMcas (w : RForm) (s : State) : Out := s.devAtomic w true

/-- The area of the paired MT: alignment, then bounds (R227, R232). -/
def State.pairAddr (s : State) (t : Tile) (f : Facet) (off : Word) (n : Nat) : Except TrapInfo Nat :=
  if off.toNat % n ≠ 0 then .error (causeDeviceAlignment, off)
  else match s.mtMode t.pair f with
    | none => .error (causePairBounds, off)
    | some m => if 8 * m.msize < off.toNat + n then .error (causePairBounds, off) else .ok (mtBase t.pair + 8 * m.mbase + off.toNat)
/-- A loaded value reaches its destination (R231, R232): poison traps in a register, and marks the token on a port. -/
def Act.deliverLoad (a : Act) (d : Spec) (mask : BitVec 16) (v : Nat) (poison : Bool) (l : Word) : Except TrapInfo Act :=
  match d with
  | .outp p => a.send p (mkTok a.facet kData false false false poison v) []
  | .v _ =>
    if poison then .error (causeMemoryPoison, l)
    else .ok (a.putVec d 32 mask ((elems 32 (BitVec.ofNat 512 v)).map fun x => (x, 0)))
  | _ => if poison then .error (causeMemoryPoison, l) else a.deliver d (BitVec.ofNat 64 v)
/-- TLD (R232): a load over the pair path, of 2 cycles, and a further one for each in which its bank serves another requester. -/
def execTld (w : MForm) (s : State) : Out :=
  s.devOp w fun t a =>
    match s.rdScalar t a w.a with
    | .error (c, x) => s.trap t a c x
    | .ok (x, a') =>
      let off := locOf x w.disp
      let n := w.size.bytes
      match s.pairAddr t a.facet off n with
      | .error (c, x) => s.trap t a c x
      | .ok pa =>
        let q := s.newReq t a 0 off pa n .act pairLeaf
        let turn := accessOf q.words
        if turn.all (s.turns.free (portTurn t 255)) then
          let s : State := { s with turns := s.turns.take (portTurn t 255) turn }
          let v := s.viewBytes q (overlayOf (s.ownQueued t true ++ a.devEnts) pa n)
          let s := (List.range (n / 8)).foldl (fun s i => s.dbgMt t.pair a.facet (off.toNat / 8 + i) true false) (s.noteWords q)
          s.finish t a w.d 1 (a'.deliverLoad w.d (a.writeMask w.head) (ofBytes (v.map (·.1))) (v.any (·.2)) off)
        else ({ s with turns := s.turns.ask (portTurn t 255) turn }).otherWait t a
/-- TST (R232): a buffered store over the pair path. -/
def execTst (w : MForm) (s : State) : Out :=
  s.devOp w fun t a =>
    match s.rdScalar t a w.a with
    | .error (c, x) => s.trap t a c x
    | .ok (x, a1) =>
      match s.rdStoreData t a1 w with
      | .error (c, x) => s.trap t a c x
      | .ok (y, a2) =>
        let off := locOf x w.disp
        match s.pairAddr t a.facet off w.size.bytes with
        | .error (c, x) => s.trap t a c x
        | .ok pa =>
          let q := { s.newReq t a 1 off pa w.size.bytes .act pairLeaf with data := y, pairPath := true }
          s.bumpId.finish t a w.d 0 (a2.addDev q)

/-! Replies -/

/-- The new content of a held word, as its confirm will write it (R230, R233). -/
def Req.confirmOf (q : Req) (x : Nat) : Req :=
  if q.form = 3 then { q with size := 0, newTag := some false, overlay := [] }
  else if q.cas then (if x = q.data then { q with data := q.data2, overlay := [] } else { q with size := 0, overlay := [] })
  else { q with data := atomOp q.op q.size x q.data, overlay := [] }
/-- A reply reaches the element that holds its issue slot for it (R228 to R231). -/
def State.takeReply (s : State) (t : Tile) (a : Act) (q : Req) (d : Spec) (mask : BitVec 16) (truth : Bool) (r : Reply) : State :=
  let a0 := { a with wait := .none }
  match r with
  | .truth b => s.finish t a0 d 0 (a0.deliverTruth d b)
  | .data v p =>
    if q.form = 3 ∨ q.form = 8 ∨ q.form = 9 then
      let c := { q.confirmOf v with id := s.nextId, poison := p && q.form != 3 && !q.cas }
      let a1 := { a0 with stores := a0.stores ++ [.hold c], reqs := a0.reqs ++ [c.id] }
      s.bumpId.finish t a1 d 0 (a1.deliverLoad d mask v p q.loc)
    else s.finish t a0 d 0 (if truth then a0.deliverTruth d (v != 0) else a0.deliverLoad d mask v p q.loc)
  | .wait watch => s.abortMoor t a0 q.loc (q.addr / 8) true (some watch)
  | .refused => (s.abortCount t a0 q.loc).1
  | .cause c => s.trap t a0 c q.loc

end Sys2Proof.Machine
end

