-- ==== Sys2Proof/Machine/LaunchOps.lean ====
section
/-! DEFINITION. Placement queues: pushes (R189, R190), and stores to the launch page (R464). -/

namespace Sys2Proof.Machine

/-- Word k of a descriptor (R189). -/
def descWord (e : BitVec 512) (k : Nat) : Word := BitVec.ofNat 64 (fld e (64 * k) 64)
def descImg (e : BitVec 512) : Nat := fld e 0 56
def descHash (e : BitVec 512) : Word := descWord e 1
def descPrio (e : BitVec 512) : Nat := fld e 128 3
def descTfac (e : BitVec 512) : Facet := Fin.ofNat 4 (fld e 134 2)
def descAny (e : BitVec 512) : Bool := bit e 136
def descAct (e : BitVec 512) : Nat := fld e 137 2
def descStag (e : BitVec 512) : Nat := fld e 144 8
def descCwva (e : BitVec 512) : Nat := fld e 192 64
/-- A push is malformed (R190). -/
def descBad (e : BitVec 512) : Bool :=
  fld e 56 8 != 0 || fld e 0 5 != 0 || fld e 131 3 != 0 || fld e 139 5 != 0 || fld e 152 40 != 0 || fld e 256 256 != 0 ||
  (descAny e && descTfac e != 0) || descAct e == 3 || descCwva e % 8 != 0
/-- BADW is set (R190). -/
def Region.badw (g : Region) : Region := { g with lqstat := setBit g.lqstat 5 true }
/-- COUNT follows the queue (R191). -/
def Region.syncCount (g : Region) : Region := { g with lqstat := setFld g.lqstat 0 4 g.queue.length }
/-- A push at a region's doorbell (R190). -/
def State.push (s : State) (r : RegionId) (e : BitVec 512) : State :=
  s.modRg r fun g =>
    if descBad e then g.badw
    else if 8 ≤ g.queue.length then { g with lqstat := setBit g.lqstat 4 true }
    else { g with queue := g.queue ++ [e] }.syncCount
/-- A store to the launch page acts (R464). -/
def State.launchStore (s : State) (off : Nat) (bs : List Byte) : State :=
  if off < 0x800 then
    let r : RegionId := Fin.ofNat 32 (off / 64)
    if bs.length = 64 ∧ off % 64 = 0 then s.push r (BitVec.ofNat 512 (ofBytes bs)) else s.modRg r Region.badw
  else if off < 0x900 then
    let r : RegionId := Fin.ofNat 32 ((off - 0x800) / 8)
    if bs.length = 8 ∧ off % 8 = 0 then s.rearm r else s.modRg r Region.badw
  else s

end Sys2Proof.Machine
end

