-- ==== Sys2Proof/Machine/Home.lean ====
section
/-! DEFINITION. Steps of requests to device memory: leaving the outbound queue (R241, R243), the breakwater (R378), the home (R219,
R220, R230), replies and their returns (R228, R229), regulators (R441), lockstep comparison (R388), and the FIFO and line ports of
an MT (R210). -/

namespace Sys2Proof.Machine

/-- LOCKSTEP_TIMEOUT (R388): a mirror item that has not arrived 64 cycles after the primary's. -/
def execLockstepTimeout (r : RegionId) (s : State) : Out :=
  match (s.rg r).lockPrim.find? (fun y => decide (y.cycle + 64 ≤ s.cycle)) with
  | some y => .next ((s.modRg r fun g => { g with lockPrim := [], lockMirror := [] }).lockFail r y.facet (s.rg r).ctide)
  | none => .next s

/-! Leaving the queue -/

/-- The requests of a facet before a request, watches apart (R243). -/
def State.earlier (s : State) (t : Tile) (f : Facet) (q : Req) : List Req :=
  s.reqs.filter fun p => match p.src with
    | .elem t' f' _ _ => t' == t && f' == f && decide (p.id < q.id) && p.form != 0xA
    | _ => false
/-- The scope at which a request is a release (R243). -/
def Req.release (q : Req) : Bool :=
  match q.scope with
  | .act | .elem | .rsv => false
  | _ => true
/-- Nothing holds back the head of a facet's outbound queue (R241, R243, R244), and the region neither rolls back nor stands (R383, R386). -/
def State.mayLeave (s : State) (t : Tile) (f : Facet) (q : Req) : Bool :=
  s.allPerformed q.wait && (!q.release || (s.earlier t f q).all (fun p => p.performed q.scope)) &&
  !(s.ownQueued t false).any (fun p => p.facet != f && decide (p.id < q.id) && p.sameWord q) && !s.tileHalted t
/-- REQUEST_LEAVE (R241). -/
def execRequestLeave (t : Tile) (f : Facet) (s : State) : Out :=
  match ((s.el t).fac f).outbound with
  | [] => .next s
  | id :: rest =>
    match s.findReq id with
    | none => .next (s.modFac t f fun x => { x with outbound := rest })
    | some q => when_ s (s.mayLeave t f q && q.stage == .queued) ((s.modFac t f fun x => { x with outbound := rest }).sendReq t q q.asks)

/-! The breakwater -/

/-- Earlier requests of one requester to one home that have left are performed first (R241, R287). -/
def State.inOrder (s : State) (q : Req) : Bool :=
  !s.reqs.any fun p => decide (p.src.tile = q.src.tile) && p.src.tile.isSome && decide (p.order < q.order) && p.id != q.id &&
    (p.stage == .travelling || p.stage == .regulated) && p.sameHome q
/-- A primary's home-class request waits until its mirror item has matched (R388). -/
def State.lockOk (s : State) (q : Req) : Bool :=
  match q.region, q.src.tile with
  | some r, some t => !(s.isPrimary t q.facet && s.lockWaits r t q)
  | _, _ => true
/-- BREAKWATER_ACCEPT (R378): a breakwater-class store enters the breakwater of its issuer's die; a device write on a class-01 page
leaves at once (R261). -/
def execBreakwaterAccept (id : Nat) (s : State) : Out :=
  match s.findReq id with
  | none => .next s
  | some q =>
    match q.region with
    | none => .next s
    | some r =>
      if !(q.stage == .travelling && q.bwClass && s.inOrder q) then .next s
      else
        let bs := bytesOf q.size q.data
        let n := q.words.length
        if isSys q.addr ∧ q.qcls = 1 then
          .next (((if q.confirm then s.endHold (q.addr / 8) else s).delReq id).hostSend (some r) q.facet q.addr bs q.poison)
        else match s.bwRoom q.die r q.reach n with
          | .wait => .next s
          | .overflow => .next (s.bwOverflow q.die r q.facet)
          | .ok =>
            let k := if isLaunch q.addr then BwKind.launch id (q.addr % 0x10000) bs
              else if isSys q.addr then .sys id q.addr bs q.poison else .store id q.addr bs q.gl q.cls q.poison
            let s := if q.confirm then s.endHold (q.addr / 8) else s
            .next ((s.setReq { q with stage := .accepted, arrived := s.cycle, timed := !(s.rg r).tides }).bwPut q.die r q.reach n k)

/-! The home -/

/-- The regulator of a request's class limits it (R441). -/
def regCfg (d : Die) (c : Nat) : Word := tget d.regcfg c 0x400000000
def State.regulates (s : State) (q : Req) : Bool :=
  isHbm q.addr && !q.granted && !q.released && bit (regCfg (s.die (dieOfPa q.addr)) q.cls) 0
/-- A form that changes its word. -/
def Req.changes (q : Req) : Bool := !(q.form == 0 || q.form == 2 || q.form == 7 || q.form == 0xA || q.form == 0xC)
/-- A request waits behind an earlier one of its own requester to the same word (R241, R247, R287, R297): an element's behind a deferred one
where it asks for a reply or could be performed before it, and a tag form or an atomic behind any that is not yet performed; a write of an
engine behind a deferred write. A confirm, whose hold others defer behind, does not wait for them. -/
def State.behindOwn (s : State) (q : Req) : Bool :=
  !q.confirm && s.reqs.any fun p => decide (p.src.tile = q.src.tile) && p.src.tile.isSome && decide (p.id < q.id) && p.form != 0xA && p.sameWord q &&
    (if q.src.isElem && p.src.isElem then
      (if p.deferred then q.asks || s.needMet q
       else q.form != 0 && q.form != 1 && (p.stage == .queued || p.stage == .travelling || p.stage == .regulated))
     else !q.src.isElem && !p.src.isElem && p.deferred && p.changes && q.changes && s.needMet q)
/-- An access that changes a word waits for the pending stores of its region to it, and an element's tag form for the element's own
(R241). -/
def State.behindPending (s : State) (q : Req) : Bool :=
  q.form != 0 && !q.released && !q.confirm && (match q.region with
    | some r => q.words.any fun w => s.hasPending r w &&
        (q.changes || s.reqs.any fun p => p.stage == .accepted && decide (p.src.tile = q.src.tile) && p.src.isElem && p.words.contains w)
    | none => false)
/-- An access for whose shadow or undo entry there is no room waits at the home, and later requests for the word behind it (R250). -/
def State.behindParked (s : State) (q : Req) : Bool := s.reqs.any fun p => p.parked && p.id != q.id && p.sameWord q
/-- Room for the shadow of a home-class access and for the undo entries of an MT write (R250, R373). -/
def State.homeRoom (s : State) (q : Req) : Room :=
  if isMt q.addr then
    if q.form = 0 ∨ q.form = 2 ∨ q.form = 7 then .ok else s.mtLogRoom (mtTile q.addr) q.words.length
  else match q.region with
    | none => .ok
    | some r =>
      if isHbm q.addr && q.homeWrite && !q.words.all (fun w => s.hasShadow r q.reach w) then
        s.bwRoom (dieOfPa q.addr) r q.reach q.words.length
      else .ok
/-- What finding no room at all does (R373, R378). -/
def State.homeOverflow (s : State) (q : Req) : State :=
  match q.region with
  | none => s
  | some r =>
    if isMt q.addr then s.causeStop (mtTile q.addr) q.facet causeTideLog (tileDetail (mtTile q.addr))
    else s.bwOverflow (dieOfPa q.addr) r q.facet
/-- An element's read-modify-write request under a hold. -/
def Req.takesHold (q : Req) : Bool := q.src.isElem && !q.confirm && (q.form == 3 || q.form == 8 || q.form == 9)
/-- An element tag form or RMW request that meets a held word, or a bank with no free hold register, is refused (R230); a tag-query reads
the committed tag (R237). -/
def State.homeRefuses (s : State) (q : Req) : Bool :=
  (q.takesHold || (q.src.isElem && q.form == 2)) && (q.words.any s.isHeld ||
    decide (4 ≤ (s.holds.filter (fun h => bankOf h.word == bankOf (q.addr / 8))).length))
/-- Engine and post-commit requests other than plain reads defer behind a hold (R230). -/
def State.behindHold (s : State) (q : Req) : Bool :=
  q.form != 0 && q.form != 7 && !q.confirm && !q.takesHold && q.words.any s.isHeld
/-- A reply is on its way: to an activation that waits, to an engine, or as the return of a posted request with a cause. -/
def State.answerReq (s : State) (q : Req) (r : Reply) : State := s.setReq { q with stage := .replied r }
/-- A request is performed, and goes on: a reply, a home-class write that is not yet committed (R240), or its end. -/
def State.finishAccess (s : State) (q : Req) : State :=
  let x := s.perform q
  let timed := match q.region with
    | some r => !(s.rg r).tides
    | none => false
  let q := { q with srcTag := if q.form = 0xB then q.srcTag else s.mem.tagKnown q.addr, parked := false, arrived := s.cycle, timed := timed }
  let s := if isMt q.addr && (q.pairPath || !q.src.isElem) then
      q.words.foldl (fun s w => match s.mtMode (mtTile q.addr) q.facet with
        | some m => s.dbgMt (mtTile q.addr) q.facet (w - mtBase (mtTile q.addr) / 8 - m.mbase) (formReads q.form) (formWrites q.form && q.size != 0)
        | none => s) x.1
    else x.1
  if q.asks then s.answerReq q x.2
  else match q.region with
    | some _ => if q.homeWrite && isHbm q.addr then s.setReq { q with stage := .atHome } else s.delReq q.id
    | none => s.delReq q.id
/-- A request that is not deferred for want of room returns with a cause (R221). -/
def State.deferOr (s : State) (q : Req) : State :=
  match s.defer q with
  | (s', none) => s'
  | (s', some c) => s'.answerReq q (.cause c)
/-- HOME_ACCESS (R219, R220, R230): a request that has arrived is charged, refused, deferred or performed. -/
def execHomeAccess (id : Nat) (s : State) : Out :=
  match s.findReq id with
  | none => .next s
  | some q =>
    if !(q.stage == .travelling && !q.bwClass && s.inOrder q && s.lockOk q) then .next s
    else if s.regulates q then .next (s.setReq { q with stage := .regulated, arrived := s.homeTime q.addr })
    else if s.behindOwn q || s.behindPending q || s.behindParked q || q.words.any (fun w => s.reexam.contains w) then .next s
    else if s.homeRefuses q then .next (s.answerReq q .refused)
    else if s.behindHold q then .next (s.deferOr q)
    else if !s.needMet q then
      if q.src.isElem && !q.confirm && q.form != 4 then
        let w := { q with id := s.nextId, form := 0xA, cas := false, own := none, overlay := [] }
        let s1 := s.bumpId
        match s1.defer w with
        | (s2, none) => .next (s2.answerReq q (.wait w.id))
        | (s2, some c) => .next (s2.answerReq q (.cause c))
      else .next (s.deferOr q)
    else match s.homeRoom q with
      | .wait => .next (s.setReq { q with parked := true })
      | .overflow => .next (s.homeOverflow q)
      | .ok => .next (s.inTurn (reqTurn id) (accessOf q.words) (·.finishAccess q))
/-- A word that no deferred request waits on leaves re-examination. -/
def State.trimReexam (s : State) (word : Nat) : State :=
  if (s.deferredOf word).isEmpty then { s with reexam := sdel s.reexam word } else s
/-- REEXAMINATION (R220): the first deferred request of a word under re-examination is performed if its need is met; otherwise the
examination stops. -/
def execReexamination (id : Nat) (s : State) : Out :=
  match s.findReq id with
  | none => .next s
  | some q =>
    match q.words.find? (fun w => s.reexam.contains w) with
    | none => .next s
    | some w =>
      if (s.deferredOf w).head?.map (·.id) ≠ some id then .next s
      else if (s.behindHold q && q.form != 0xA) || !s.needMet q then .next { s with reexam := sdel s.reexam w }
      else if s.behindPending q then .next s
      else match s.homeRoom q with
        | .wait => .next s
        | .overflow => .next (s.homeOverflow q)
        | .ok => .next (s.inTurn (reqTurn id) (accessOf q.words) fun s =>
            ((s.undefer q).finishAccess { q with stage := .travelling }).trimReexam w)
/-- BUDGET_EXPIRY (R223). -/
def execBudgetExpiry (id : Nat) (s : State) : Out :=
  match s.findReq id with
  | none => .next s
  | some q => when_ s (q.deferred && decide (q.arrived + q.budget * 1000 ≤ s.homeTime q.addr))
      ((s.undefer q).answerReq { q with due := q.arrived + q.budget * 1000 + 2000 } (.cause causeRetryDevice))

/-! Replies -/

/-- REQUEST_REPLY (R228): a reply reaches the element whose activation holds its slot for it. -/
def execRequestReply (id : Nat) (s : State) : Out :=
  match s.findReq id with
  | none => .next s
  | some q =>
    match q.stage, q.src with
    | .replied r, .elem t f _ _ =>
      (match (s.el t).act with
      | some a =>
        (match a.wait with
        | .reply i d mask truth => when_ s (i == id) (((s.delReq id).noteReply t f r).takeReply t a q d mask truth r)
        | _ => when_ s (q.asks && q.form != 0xA) (s.delReq id))
      | none => when_ s (q.asks && q.form != 0xA) (s.delReq id))
    | _, _ => .next s
/-- The element has not yet taken the reply that names a watch. -/
def State.waitPending (s : State) (watch : Nat) : Bool := s.reqs.any fun p => p.stage == .replied (.wait watch)
/-- WATCH_WAKE (R229): a wake clears the mooring entry of its handler; without an entry it is lost (R236, R237). -/
def execWatchWake (id : Nat) (s : State) : Out :=
  match s.findReq id with
  | none => .next s
  | some q =>
    match q.stage, q.src with
    | .replied (.truth _), .elem t f h pc => when_ s (q.form == 0xA && !s.waitPending id)
        (((s.delReq id).noteAsync t f id none h.val pc q.loc).takeAsync t f id none h.val pc q.loc)
    | _, _ => .next s
/-- A rollback or a stop is in its steps 1 and 2, in which replies are dropped (R383, R386). -/
def State.dropsReplies (s : State) (t : Tile) : Bool :=
  match s.regionOf t with
  | some r => (s.rg r).rollback.any fun x => !x.restored
  | none => false
/-- ASYNC_TRAP (R228): a request that returns with a cause after its commit, or a watch that does, traps its facet; nothing aborts. During
steps 1 and 2 of a rollback the return is dropped (R383). -/
def execAsyncTrap (id : Nat) (s : State) : Out :=
  match s.findReq id with
  | none => .next s
  | some q =>
    match q.stage, q.src with
    | .replied (.cause c), .elem t f h pc =>
      when_ s ((!q.asks || q.form == 0xA) && !s.waitPending id)
        (if s.dropsReplies t then (s.delReq id).unmoorWatch t id
         else ((s.delReq id).noteAsync t f id (some c) h.val pc q.loc).takeAsync t f id (some c) h.val pc q.loc)
    | _, _ => .next s

/-! Regulators -/

/-- Credit of a class in 1/1,000 bytes (R441): the allowance less what is missing. -/
def regBurst (c : Word) : Nat := max 256 (fld c 22 20) * 1000
/-- REGULATOR_GRANT (R441): the oldest waiting request of a class is charged and goes on. -/
def execRegulatorGrant (d : DieId) (cls : Fin 16) (s : State) : Out :=
  let waits := s.reqs.filter fun q => q.stage == .regulated && dieOfPa q.addr == d
  match waits.find? (fun q => q.cls == cls.val &&
      !waits.any (fun p => decide (p.src.tile = q.src.tile) && decide (p.order < q.order))) with
  | none => .next s
  | some q =>
    let x := s.die d
    let cost := granBytes q.gl * 1000
    let miss := tget x.regCredit cls.val 0
    when_ s (decide (miss + cost ≤ regBurst (regCfg x cls.val)) || !bit (regCfg x cls.val) 0)
      ((s.modDie d fun x => { x with regCredit := setTab0 x.regCredit cls.val (miss + cost),
                                     waitNs := tmod x.waitNs cls.val 0 (· + BitVec.ofNat 64 (x.time - q.arrived)) }).setReq
        { q with stage := .travelling, granted := true })
/-- MOORING_FORMAT_DONE (R221): RDY is set. -/
def execMooringFormatDone (r : RegionId) (s : State) : Out :=
  when_ s (bit (s.rg r).moor 0 && !bit (s.rg r).moor 1) (s.modRg r fun g => { g with moor := setBit g.moor 1 true })

/-! FIFO and line buffer (R210) -/

/-- The token at the head of an MT's port, if it is no mark. -/
def State.mtHead (s : State) (t : Tile) (f : Facet) (p : Fin 16) : Option Token :=
  (offered (((s.mt t).fac f).inq.get p) s.cycle).head?
/-- Tokens recorded for the newest snapshot of an MT's facet (R371). -/
def MtFacet.recordLen (x : MtFacet) : Nat :=
  match x.snaps.getLast? with
  | some y => y.record.length
  | none => 0
/-- A token is consumed from a port of an MT, and recorded from a back port. -/
def State.mtTake (s : State) (t : Tile) (f : Facet) (p : Fin 16) : State :=
  let x := (s.mt t).fac f
  match (offered (x.inq.get p) s.cycle).head? with
  | none => s
  | some k =>
    s.modMtFac t f fun x =>
      { x with inq := vmod x.inq p (·.drop 1),
               snaps := if bit x.recording p.val then
                   (match x.snaps.getLast? with
                   | some y => x.snaps.dropLast ++ [{ y with record := y.record ++ [(p.val, k)] }]
                   | none => x.snaps)
                 else x.snaps }
/-- A token is consumed and something follows; a 65th recorded token stops the region instead (R371). -/
def State.mtTaking (s : State) (t : Tile) (f : Facet) (p : Fin 16) (k : State → State) : State :=
  let x := (s.mt t).fac f
  if bit x.recording p.val ∧ 64 ≤ x.recordLen then s.causeStop t f causeBackPort p.val else k (s.mtTake t f p)
/-- Tokens in an output queue of an MT at the start of the cycle, as in an element (R150, R403), and those that entered in it. -/
def State.mtHeld (s : State) (t : Tile) (p : Fin 16) : Nat :=
  outLen ((s.mt t).outq.get p) + if (s.mt t).drained.get p = s.cycle + 1 then 1 else 0
/-- Room for n tokens in an output queue of an MT: 16 tokens, 32 on mo7 (R328). -/
def State.mtRoomN (s : State) (t : Tile) (p : Fin 16) (n : Nat) : Bool := decide (s.mtHeld t p + n ≤ if p = 7 then 32 else 16)
def State.mtRoom (s : State) (t : Tile) (p : Fin 16) : Bool := s.mtRoomN t p 1
def State.mtSend (s : State) (t : Tile) (p : Fin 16) (k : Token) (wait : List (Nat × Scope)) : State :=
  s.modMt t fun m => { m with outq := vmod m.outq p (· ++ [⟨k, s.cycle, wait⟩]) }
/-- The MT works: its region neither stands nor holds the facet (R383, R396, R448). -/
def State.mtRuns (s : State) (t : Tile) (f : Facet) : Bool :=
  !t.isCT && t.inFabric && !s.tileHalted t && !((s.mt t).fac f).held
/-- An SRAM word of an MT, by its index in the facet's area: the word's number in memory. -/
def areaWord (t : Tile) (m : MtMode) (i : Nat) : Nat := mtBase t / 8 + m.mbase + i
/-- FIFO_PUSH (R210). -/
def execFifoPush (t : Tile) (f : Facet) (s : State) : Out :=
  match s.mtMode t f, s.mtHead t f 5 with
  | some m, some k =>
    if !(m.mode == 1 && decide (0 < m.msize) && s.mtRuns t f) then .next s
    else if k.kind = kNull then .next (s.mtTaking t f 5 id)
    else
      let w := areaWord t m ((s.mt t).fac f).wp
      if s.mem.isFull (8 * w) || s.isHeld w then .next s
      else match s.mtLogRoom t 1 with
        | .wait => .next s
        | .overflow => .next (s.causeStop t f causeTideLog (tileDetail t))
        | .ok => .next <| s.inTurn (portTurn t f.val) (accessOf [w]) fun s => s.mtTaking t f 5 fun s =>
          (s.mtFill t f (8 * w - mtBase t) (bytesOf 8 k.payload.toNat) k.poison true).modMtFac t f fun x => { x with wp := (x.wp + 1) % m.msize }
  | _, _ => .next s
/-- FIFO_POP (R210). -/
def execFifoPop (t : Tile) (f : Facet) (s : State) : Out :=
  match s.mtMode t f with
  | none => .next s
  | some m =>
    let w := areaWord t m ((s.mt t).fac f).rp
    if !(m.mode == 1 && decide (0 < m.msize) && s.mtRuns t f && s.mem.isFull (8 * w) && !s.isHeld w && s.mtRoom t 5) then .next s
    else match s.mtLogRoom t 1 with
      | .wait => .next s
      | .overflow => .next (s.causeStop t f causeTideLog (tileDetail t))
      | .ok => .next <| s.inTurn (portTurn t (4 + f.val)) (accessOf [w]) fun s =>
        let s := s.mtSend t 5 (mkTok f kData false false false (s.mem.isPoison (8 * w)) (s.mem.read (8 * w) 8)) []
        let s := s.mtTag t f (w - mtBase t / 8) false
        s.modMtFac t f fun x => { x with rp := (x.rp + 1) % m.msize }
/-- LINE_INPUT (R210): a null token writes nothing for its word. -/
def execLineInput (t : Tile) (f : Facet) (s : State) : Out :=
  match s.mtMode t f, s.mtHead t f 5 with
  | some m, some k =>
    let wp := ((s.mt t).fac f).wp
    let last := areaWord t m (wp / max 1 m.bufw * m.bufw + m.bufw - 1)
    let w := areaWord t m wp
    if !(m.mode == 2 && decide (0 < m.bufw) && decide (0 < m.msize) && s.mtRuns t f && !s.mem.isFull (8 * last) && !s.isHeld w) then .next s
    else match s.mtLogRoom t 1 with
      | .wait => .next s
      | .overflow => .next (s.causeStop t f causeTideLog (tileDetail t))
      | .ok =>
        let step (s : State) : State := s.modMtFac t f fun x => { x with wp := (x.wp + 1) % m.msize }
        if k.kind = kNull then .next (s.mtTaking t f 5 step)
        else .next <| s.inTurn (portTurn t f.val) (accessOf [w]) fun s => s.mtTaking t f 5 fun s =>
          let off := 8 * w - mtBase t
          let bs := bytesOf 8 k.payload.toNat
          step (if w = last then s.mtFill t f off bs k.poison true else s.mtWrite t f off bs k.poison)
  | _, _ => .next s

end Sys2Proof.Machine
end

