-- ==== Sys2Proof/Machine/Commit.lean ====
section
/-! DEFINITION. Commits (R249, R374, R379, R381): what a reach's breakwater entries do when it commits, and the commit of a reach with its
clasp. -/

namespace Sys2Proof.Machine

/-- The key of an inbox or outbox of an I/O die (R437, R438). -/
def linkKey (r : RegionId) (p : Nat) : Nat := 64 * r.val + p
/-- The I/O die that an edge of the fabric faces. -/
def ioOf (t : Tile) (edge : Nat) : Option (Fin 2) :=
  if edge = 3 ∧ t.x = 0 then some 0 else if edge = 1 ∧ t.x = 127 then some 1 else none
/-- A pair (region, reach) has reached its commit cycle (R374). -/
def State.commitReady (s : State) (m : Nat × Nat) : Bool :=
  let r : RegionId := Fin.ofNat 32 m.1
  let g := s.rg r
  g.tides && !s.halted r && (match g.reaches with
    | x :: _ => x.n == m.2 && (match x.closed with
      | some z => decide (z + 900 ≤ s.cycle)
      | none => false)
    | [] => false)
/-- Charges a regulator for a store that is written at commit (R441). -/
def State.chargeStore (s : State) (pa gl cls : Nat) : State :=
  let s : State := s.countBytes pa gl cls true
  if isHbm pa && bit (regCfg (s.die (dieOfPa pa)) cls) 0 then
    s.modDie (dieOfPa pa) fun x => { x with regCredit := setTab0 x.regCredit cls (tget x.regCredit cls 0 + granBytes gl * 1000) }
  else s
/-- What an entry of a breakwater does when it leaves (R252, R379, R464). -/
def State.releaseEntry (s : State) (e : BwEntry) : State :=
  match e.kind with
  | .store id a bs gl cls p =>
    let s : State := s.chargeStore a gl cls
    let s : State := if isHbm a then s.noteAt e.region ((s.findReq id).elim 0 (·.facet)) (s.mem.mergeReads a bs.length gl) else s
    { s with mem := s.mem.devWrite a bs gl p, reqs := s.reqs.filter fun q => q.id != id }
  | .launch id off bs => (s.delReq id).launchStore off bs
  | .sys id a bs p => (s.delReq id).hostSend (some e.region) 0 a bs p
  | .shadow _ _ _ _ => s
  | .replay _ _ => s
  | .egress p k =>
    let w := (s.rg e.region).egrOf p
    match ioOf (siteTile w) (fld w 12 2) with
    | some io => s.modIo io fun x => { x with outbox := tmod x.outbox (linkKey e.region p) [] (· ++ [k]) }
    | none => s.modRg e.region fun g => { g with egOut := tmod g.egOut p [] (· ++ [{ tok := k, entered := s.cycle }]) }
/-- The entries of all breakwaters that a predicate names leave them, in the order of acceptance. -/
def State.takeEntries (s : State) (h : BwEntry → Bool) : List BwEntry × State :=
  let l := (List.finRange 8).flatMap fun d => (s.die d).bw.filter h
  (sortBy (·.seq) l, { s with dies := s.dies.map fun d => ({ d with bw := d.bw.filter fun e => !h e } : Die).markLow })
/-- The entry writes at a home or a launch page: its request's identifier. -/
def BwKind.write : BwKind → Option Nat
  | .store id _ _ _ _ _ => some id
  | .launch id _ _ => some id
  | .sys id _ _ _ => some id
  | _ => none
/-- Writes whose reach has committed act in the order of their acceptance; a store to a held word waits for the hold's end, and the
region's later ones behind it, while the region goes on seeing them (R230, R249; DEDUCED, log 21). -/
def State.flushGoing (s : State) (r : RegionId) : State :=
  let mine (e : BwEntry) : Bool := e.region == r && e.going
  let l := sortBy (·.seq) ((List.finRange 8).flatMap fun d => (s.die d).bw.filter mine)
  if l.isEmpty then s
  else
    let go := l.takeWhile fun e => match e.kind with
      | .store _ a bs _ _ _ => !(wordsAt a bs.length).any s.isHeld
      | _ => true
    let x := s.takeEntries fun e => mine e && go.any fun y => y.seq == e.seq
    (x.1.foldl State.releaseEntry x.2).syncOcc r
/-- The entries of a region that a predicate names commit (R379): its writes act as soon as they may, tokens are released, and shadows and
replay entries are dropped. -/
def State.commitEntries (s : State) (r : RegionId) (h : BwEntry → Bool) : State :=
  let hit (e : BwEntry) : Bool := e.region == r && h e
  let ids := (List.finRange 8).flatMap fun d => (s.die d).bw.filterMap fun e => if hit e then e.kind.write else none
  let s : State := { s with
    dies := s.dies.map fun d => { d with bw := d.bw.map fun e => if hit e ∧ e.kind.write.isSome then { e with going := true } else e }
    reqs := s.reqs.map fun q => if ids.contains q.id then { q with released := true } else q }
  let s : State := s.flushGoing r
  let x := s.takeEntries fun e => hit e && e.kind.write.isNone
  (x.1.foldl State.releaseEntry x.2).syncOcc r
/-- The nodes of a region drop snapshots and undo entries before tide n (R373, R374). -/
def State.freeBefore (s : State) (r : RegionId) (n : Nat) : State :=
  (s.rg r).tiles.foldl (fun s t =>
    if t.isCT then s.modEl t fun e =>
      { e with undo := e.undo.filter (fun u => decide (n ≤ u.reach)),
               facets := e.facets.map fun x => { x with snaps := x.snaps.filter fun y => decide (n ≤ y.tide) } }
    else s.modMt t fun m =>
      { m with undo := m.undo.filter (fun u => decide (n ≤ u.reach)),
               facets := m.facets.map fun x => { x with snaps := x.snaps.filter fun y => decide (n ≤ y.tide) } }) s
/-- A reach commits (R374, R379): CTIDE advances, its entries are released in order, and what it kept is freed. -/
def State.commitReach (s : State) (r : RegionId) (n : Nat) : State :=
  let s : State := s.commitEntries r fun e => !e.timed && decide (e.reach ≤ n)
  let s : State := { s with reqs := s.reqs.filter fun q => !(q.region == some r && !q.timed && decide (q.reach ≤ n) && q.stage == .atHome) }
  let s : State := s.modRg r fun g =>
    { g with tidestat := setFld (setFld g.tidestat 0 32 (n + 1)) 32 3 0, reaches := g.reaches.drop 1,
             hopSnap := g.hopSnap.filter (fun x => decide (n + 1 ≤ x.1)),
             marks := g.marks.filter (fun m => decide (n + 1 ≤ m.2.2)), counters := vmod g.counters 2 (· + 1) }
  s.freeBefore r (n + 1)
/-- Every pair that commits with a pair: the members of its clasp, or the pair alone (R381). -/
def State.commitSet (s : State) (m : Nat × Nat) : List (Nat × Nat) := (s.clasps.find? fun c => c.contains m).getD [m]
/-- The oldest reach of a region commits with its clasp where every member has reached its commit cycle (R374, R381). -/
def State.commitDue (s : State) (r : RegionId) : Option State :=
  match (s.rg r).reaches with
  | [] => none
  | x :: _ =>
    let ms := s.commitSet (r.val, x.n)
    if ms.all s.commitReady && s.commitReady (r.val, x.n) then
      let s : State := ms.foldl (fun s m => s.commitReach (Fin.ofNat 32 m.1) m.2) s
      some { s with clasps := s.clasps.filter fun c => !c.any fun m => ms.contains m }
    else none
/-- A commit that falls in the cycle of a major fault of its region is completed first (R276). -/
def State.commitFirst (s : State) (r : RegionId) : State := (s.commitDue r).getD s
/-- REACH_COMMIT (R374, R381): 900 cycles after its close, with every member of its clasp. -/
def execReachCommit (r : RegionId) (s : State) : Out := .next (s.commitFirst r)

end Sys2Proof.Machine
end

