-- ==== Sys2Proof/Machine/Fabric.lean ====
section
/-! DEFINITION. The fabric (R151 to R169): what moves in a cycle along hops, through sites and into queues, settled from the
input ports backwards; die boundaries (R157), buses (R159), ingress and egress sites (R167 to R169, R198, R380) and delay lines
(R387). -/

namespace Sys2Proof.Machine

/-! Places, edges and sites -/

/-- What an ingress site offers. -/
inductive Offer where
  | replay | mark | upcall | seed | link | track
  deriving DecidableEq, Repr

/-- What a move does, in order. -/
inductive Eff where
  | leave (p : Place) (o : Offer)
  | count (t : Tile) (f : Facet) (e : Nat) (k : Token)                          -- entry e accepts (R446)
  | hop (t : Tile) (e : Nat) (k : Token) (org : Option (Nat × Nat))
  | port (t : Tile) (p : Fin 16) (k : Token)
  | unrouted (t : Tile) (src : Nat) (k : Token)                                 -- R161
  | ingress (r : RegionId) (p : Nat) (k : Token) (o : Offer) (org : Option (Nat × Nat))
  | egMark (r : RegionId) (p : Nat) (k : Token)                                 -- R370
  | quarantine (r : RegionId) (p : Nat) (k : Token)                             -- R380
  | pass (r : RegionId) (p : Nat) (k : Token)                                   -- R380, PASS = 1
  | mirror (r : RegionId) (p : Nat) (t : Tile) (k : Token)                      -- R388
  | matched (r : RegionId) (p : Nat) (t : Tile) (k : Token)                     -- a primary's token meets its mirror item
  | overflow (r : RegionId) (t : Tile) (f : Facet)                              -- R378
  deriving DecidableEq, Repr

/-- The edge that an outgoing entry, or an incoming track, lies on: 0 north, 1 east, 2 south, 3 west (R153, R154). -/
def edgeOf (e : Nat) : Nat := e / 8 % 4
/-- The tile beyond an edge; none off the fabric. -/
def beyond (t : Tile) (edge : Nat) : Option Tile :=
  if edge = 0 then (if t.y + 1 < 32 then some ⟨t.x, t.y + 1⟩ else none)
  else if edge = 1 then (if t.x + 1 < 128 then some ⟨t.x + 1, t.y⟩ else none)
  else if edge = 2 then (if 0 < t.y then some ⟨t.x, t.y - 1⟩ else none)
  else if 0 < t.x then some ⟨t.x - 1, t.y⟩ else none
/-- The incoming track of the next tile that an outgoing entry feeds, and back: the opposite edge, the same track. -/
def opposite (e : Nat) : Nat := (edgeOf e + 2) % 4 * 8 + e % 8
/-- A hop crosses a UCIe link (R152, R157). -/
def crosses (t : Tile) (e : Nat) : Bool :=
  (edgeOf e == 1 && t.x % 16 == 15) || (edgeOf e == 3 && t.x % 16 == 0)
/-- Its latency (R420). -/
def State.hopL (s : State) (t : Tile) (e : Nat) : Nat :=
  if edgeOf e = 1 then (if t.x = 127 then s.edgeL 1 else s.boundaryL (t.x / 16))
  else if t.x = 0 then s.edgeL 0 else s.boundaryL (t.x / 16 - 1)
/-- The facet whose table routes a token in a tile: facet 0 in a free tile (R168). -/
def State.effFacet (s : State) (t : Tile) (k : Token) : Facet := if (s.regionOf t).isNone then 0 else k.facet
/-- The enabled egress port whose site is a tile's outgoing entry (R167). -/
def Region.egressAt (g : Region) (t : Tile) (e : Nat) : Option Nat :=
  (g.egr.find? fun x => siteEn x.2 && siteTile x.2 == t && siteTrack x.2 == e).map (·.1)
/-- The enabled ingress port whose site is a tile's incoming track. -/
def Region.ingressAt (g : Region) (t : Tile) (src : Nat) : Option Nat :=
  (g.ing.find? fun x => siteEn x.2 && siteTile x.2 == t && siteTrack x.2 == src).map (·.1)
/-- Tokens that count against slots: marks stand in their own position (R370). -/
def dataIn (q : List QTok) : List QTok := q.filter fun x => !x.tok.isMark
/-- The key of a hop in its switchbox, and the hop. -/
def State.hop (s : State) (t : Tile) (e : Nat) : Hop := tget (s.sw t).hops e Hop.empty
def State.modHop (s : State) (t : Tile) (e : Nat) (f : Hop → Hop) : State :=
  let b := s.sw t
  s.setSw t { b with hops := tset b.hops e (f (tget b.hops e Hop.empty)) }

/-! What sites offer -/

/-- The first tide mark of a facet among tokens. -/
def firstMark (f : Facet) (l : List Token) : Option Nat :=
  ((l.filter fun k => k.isMark && k.facet == f && k.markType == markTide).head?).map (·.markNo)
/-- The reach of the next token of facet f at an ingress site: the tide whose mark entered last (R369). -/
def Region.siteReach (g : Region) (p : Nat) (f : Facet) : Nat :=
  match firstMark f (tget g.replay p [] ++ tget g.siteMarks p []) with
  | some n => n - 1
  | none => g.tnext - 1
/-- The reach of the next token of facet f at an egress site. -/
def Region.egressReach (g : Region) (p : Nat) (f : Facet) : Nat :=
  g.marks.foldl (fun n m => if m.1 == f.val && m.2.1 == p then max n m.2.2 else n) g.ctide
/-- Tokens from an I/O die that have crossed the edge hop and are offered at a site on its edge (R152, R420). -/
def State.linkToks (s : State) (r : RegionId) (p : Nat) : List QTok :=
  let w := (s.rg r).ingOf p
  match ioOf (siteTile w) (fld w 12 2) with
  | some io => visible (tget (s.io io).edge (linkKey r p) Hop.empty).buf s.cycle
  | none => []
/-- SLOTS of the edge hop on the I/O die's side, which no configuration sets (DESIGN CHOICE, log 66). -/
def edgeSlots : Nat := 15
/-- A cycle of an edge hop (R157, R420): tokens that arrive are offered, credits return, and the first token that waits in the I/O die sets out
while a credit is left. -/
def Hop.edgeTick (h : Hop) (cycle l : Nat) (next : Option Token) : Hop × Bool :=
  let back := h.returning.filter fun c => decide (cycle < c)
  let here := h.flight.filter fun x => decide (x.entered ≤ cycle)
  let way := h.flight.filter fun x => decide (cycle < x.entered)
  let room := decide (h.buf.length + h.flight.length + back.length < l + edgeSlots)
  let h' : Hop := { h with buf := h.buf ++ here.map (fun x => { x with entered := cycle - 1 }), flight := way, returning := back }
  match next with
  | some k => if room then ({ h' with flight := way ++ [{ tok := k, entered := cycle + l }] }, true) else (h', false)
  | none => (h', false)
/-- The edge hops of an I/O die in a new cycle. -/
def IoDie.tickEdge (x : IoDie) (cycle l : Nat) : IoDie :=
  ((x.inbox.map (·.1) ++ x.edge.map (·.1)).dedup).foldl (fun x k =>
    let y := (tget x.edge k Hop.empty).edgeTick cycle l (tget x.inbox k []).head?
    { x with edge := if y.1 = Hop.empty then tdel x.edge k else tset x.edge k y.1,
             inbox := if y.2 then tmod x.inbox k [] (·.drop 1) else x.inbox }) x
/-- Frames of the transport that are kept until they are acknowledged, in bytes (R439). -/
def ttBytes (x : TtSend) : Nat := x.unacked.foldl (fun n y => n + 16 + 16 * y.toks.length) 0
/-- The number under which the stream of an egress port stands (R439): that of the first port that TTMAP maps to the same DST, REGION and
INGP (DESIGN CHOICE, log 15). -/
def IoDie.streamPort (x : IoDie) (q : Nat) : Nat :=
  ((x.ttmap.find? fun y => y.1 % 2 == 0 && bit y.2 0 && fld y.2 7 27 == fld (tget x.ttmap (2 * q) 0) 7 27).map (·.1 / 2)).getD q
/-- The transport back-pressures an egress site while its 64 KiB of unacknowledged frames are full (R439): a further frame of the tokens
that wait would not fit. -/
def State.ttFull (s : State) (t : Tile) (e : Nat) (r : RegionId) (p : Nat) : Bool :=
  match ioOf t (edgeOf e) with
  | some io =>
    let x := s.io io
    bit (tget x.ttmap (2 * linkKey r p) 0) 0 &&
      decide (65536 < ttBytes (tget x.tts (x.streamPort (linkKey r p)) ⟨0, [], true⟩) + 32 + 16 * (tget x.outbox (linkKey r p) []).length)
  | none => false
/-- A cut holds the tokens of facet f at the sites (R448). -/
def Region.cutStops (g : Region) (f : Facet) : Bool := fld g.dcut 4 2 != 0 && g.cutFac == f
/-- An upcall or a seed is offered at the site (R198, R270): only to a loaded facet, with EN = 1. -/
def Region.seedOffer (g : Region) (p : Nat) : Option (Offer × Token) :=
  if g.en && g.floaded (g.stampOf (g.ingOf p)) then
    match tget g.upcallQ p [], tget g.seeds p [] with
    | k :: _, _ => some (.upcall, k)
    | [], k :: _ => some (.seed, k)
    | [], [] => none
  else none

/-- The site offers something of its own that is no seed and no track token: replay first, then marks. -/
def Region.heldOffer (g : Region) (p : Nat) : Option (Offer × Token) :=
  match tget g.replay p [], tget g.siteMarks p [] with
  | k :: _, _ => some (.replay, k)
  | [], k :: _ => some (.mark, k)
  | [], [] => none
/-- What the site itself offers (R198, R383): replay first, then marks, then an upcall, a seed or a token from an I/O die in its turn. track
says that a token stands on its track. -/
def State.ownOffer (s : State) (r : RegionId) (p : Nat) (track : Bool) : Option (Offer × QTok) :=
  let g := s.rg r
  let at_ (k : Token) : QTok := { tok := k, entered := tget g.since p (s.cycle + 1) - 1 }
  let link := (s.linkToks r p).head?
  match g.heldOffer p with
  | some x => some (x.1, at_ x.2)
  | none =>
    match g.seedOffer p with
    | some x =>
      if tget g.seedTurn p false || !(track || link.isSome) then some (x.1, at_ (x.2.stamp (g.stampOf (g.ingOf p))))
      else link.map fun k => (.link, { k with tok := k.tok.stamp (g.stampOf (g.ingOf p)) })
    | none => link.map fun k => (.link, { k with tok := k.tok.stamp (g.stampOf (g.ingOf p)) })

/-! Settlement (R155, R156, R162, R181) -/

/-- The place has let a token go in this cycle already. -/
def State.hasMoved (s : State) (p : Place) : Bool := s.moved.contains p
/-- The tile where a hop offers its tokens: across a die boundary the far one (R157). -/
def offersAt (t : Tile) (e : Nat) : Tile := if crosses t e then (beyond t (edgeOf e)).getD t else t
/-- What a queue or a hop holds at its head in this cycle, with the cycle in which it entered and its origin. -/
def State.headOf (s : State) (p : Place) : Option QTok :=
  if s.hasMoved p then none
  else match p with
  | .hop t e => if s.tileFrozen (offersAt t e) then none else (visible (s.hop t e).buf s.cycle).head?
  | .outq t p =>
    if s.tileFrozen t then none
    else match s.outq t p with
      | x :: _ => if x.entered < s.cycle ∧ s.allPerformed x.wait then some { tok := x.tok, entered := x.entered } else none
      | [] => none
  | .egOut r p => ((visible (tget (s.rg r).egOut p []) s.cycle).head?).map fun x => { x with org := none }
  | .site _ _ => none
/-- Room in an input queue (R156): 8 tokens, 36 on mi7 and mi8 (R328); a mark has its own position (R370). -/
def inCap (t : Tile) (p : Fin 16) : Nat := if !t.isCT && (p.val == 7 || p.val == 8) then 36 else 8
def State.portRoom (s : State) (t : Tile) (p : Fin 16) (k : Token) : Bool :=
  let q := (s.inq t k.facet p).filter fun x => decide (x.entered < s.cycle)
  !s.tileFrozen t &&
  (if k.isMark then !q.any (fun x => x.tok.isMark) else decide ((dataIn q).length < inCap t p)) &&
  !(s.inq t k.facet p).any (fun x => decide (s.cycle ≤ x.entered))
/-- The ingress site on an incoming track of a tile: the track comes from outside the tile's region (R167). -/
def State.siteAt (s : State) (t : Tile) (src : Nat) : Option (RegionId × Nat) :=
  match s.regionOf t with
  | none => none
  | some r =>
    if 0x20 ≤ src || (beyond t (edgeOf src)).bind s.regionOf = some r then none
    else ((s.rg r).ingressAt t src).map fun p => (r, p)
/-- The places whose head is offered to a source of a tile in this cycle, through hops without slots and ingress sites, with the token as
it would enter the tile; what a site itself offers is one of them. -/
def State.feeders (s : State) : Nat → Tile → Nat → List (Place × QTok)
  | 0, _, _ => []
  | n + 1, t, src =>
    if 0x20 ≤ src then
      (if src < 0x30 then ((s.headOf (.outq t (Fin.ofNat 16 src))).map fun k => (.outq t (Fin.ofNat 16 src), k)).toList else [])
    else
      let far : List (Place × QTok) := match beyond t (edgeOf src) with
        | none => []
        | some u =>
          let e := opposite src
          let fs := if (s.regionOf u).isNone then [0] else List.finRange 4
          let thru : List (Place × QTok) :=
            if !(s.hop u e).buf.isEmpty then ((s.headOf (.hop u e)).map fun k => (.hop u e, k)).toList
            else fs.flatMap fun g =>
              let x := (s.sw u).sel g e
              if x = 0x3F ∨ (s.sw u).slots g e ≠ 0 then [] else (s.feeders n u x).filter fun k => s.effFacet u k.2.tok == g
          thru ++ (match s.regionOf u with
            | some r => (match (s.rg r).egressAt u e with
              | some p => ((s.headOf (.egOut r p)).map fun k => (.egOut r p, k)).toList
              | none => [])
            | none => [])
      match s.siteAt t src with
      | none => far
      | some (r, p) =>
        let g := s.rg r
        let near := if s.hasMoved (.site r p) then none else s.ownOffer r p (!far.isEmpty)
        (near.map fun x => (.site r p, x.2)).toList ++ far.map fun k => (k.1, { k.2 with tok := k.2.tok.stamp (g.stampOf (g.ingOf p)) })
/-- What a move must settle. -/
inductive Goal where
  | leave (p : Place)
  | into (p : Place) (t : Tile) (src : Nat) (k : QTok)
  | entry (p : Place) (t : Tile) (g : Facet) (e : Nat) (k : QTok)
  | after (p : Place) (t : Tile) (e : Nat) (k : QTok)
  | cross (p : Place) (t : Tile) (e : Nat) (k : QTok)
  deriving DecidableEq, Repr
/-- All of several parts, or nothing. -/
def allOf {α : Type} : List (Option (List α)) → Option (List α)
  | [] => some []
  | none :: _ => none
  | some x :: l => (allOf l).map (x ++ ·)
/-- The breakwater of a die admits ingress for a region: none, where the region has entries, from its free space falling below 1 MiB until
more than that is free again (R378). -/
def State.bwAdmits (s : State) (d : DieId) (r : RegionId) : Bool :=
  !(s.die d).bwLow || !(s.die d).bw.any (fun e => e.region == r)
/-- A load of facet f is in progress: no site stamps f on a token that has a way into the region (R164). -/
def State.loadStops (s : State) (r : RegionId) (p : Nat) (f : Facet) : Bool :=
  let w := (s.rg r).ingOf p
  (s.rg r).load.any (fun l => l.facet == f) && !((s.sw (siteTile w)).users f 0 48 (siteTrack w)).isEmpty
/-- An ingress site takes a token that is offered to it, its replay entry apart (R164, R169, R267, R378, R390, R448). -/
def State.siteTakes (s : State) (r : RegionId) (p : Nat) (o : Offer) (k : Token) : Bool :=
  let g := s.rg r
  let own := o == .replay || o == .mark
  let debug := k.isMark && k.markType == markDebug
  siteEn (g.ingOf p) && !s.halted r && !s.tileFrozen (siteTile (g.ingOf p)) && !s.hasMoved (.site r p) &&
  (own || (g.en && !g.saveStops k.facet && !s.loadStops r p k.facet)) && (debug || !g.cutStops k.facet) &&
  (k.isMark || decide (1024 ≤ tget g.credit p 0)) && (List.finRange 8).all (fun d => own || s.bwAdmits d r)
/-- Room for the replay entry of a token at a site (R378): replayed tokens and marks other than tides take none. -/
def State.siteRoom (s : State) (r : RegionId) (p : Nat) (o : Offer) (k : Token) : Room :=
  let g := s.rg r
  if o == .replay || !g.tides || (k.isMark && k.markType != markTide) then .ok
  else s.bwRoom (siteTile (g.ingOf p)).die r (if k.isMark then k.markNo else g.siteReach p k.facet) 1
/-- A token offered on the incoming track of a site has its turn (R198, R383). -/
def Region.trackTurn (g : Region) (p : Nat) : Bool :=
  (g.heldOffer p).isNone && ((g.seedOffer p).isNone || !tget g.seedTurn p false)
/-- A lockstep item of an egress token (R388). -/
def lockTok (t : Tile) (p : Nat) (k : Token) (cycle : Nat) : LockItem :=
  { tile := t.key, facet := k.facet, kind := 1, code := p, addr := k.tag.toNat, size := 0, data := k.payload.toNat, cycle := cycle }
/-- Priority at a contested hop (R181): the token that entered its place earlier, then the lower SEL. -/
def earlierAt (a : Nat × Nat) (b : Nat × Nat) : Bool := decide (a.1 < b.1) || (a.1 == b.1 && decide (a.2 < b.2))
/-- The room of a slotted hop (R156, R157): leaves is true when its own head leaves in this cycle. -/
def State.hopRoom (s : State) (t : Tile) (e k : Nat) (tok : Token) (leaves : Bool) : Bool :=
  let h := s.hop t e
  let all := h.buf ++ h.flight
  let gone (m : Bool) : Nat := match h.buf.head? with
    | some x => if leaves && x.tok.isMark == m then 1 else 0
    | none => 0
  if tok.isMark then decide ((all.filter (fun x => x.tok.isMark)).length ≤ gone true)
  else if crosses t e then decide ((dataIn all).length + h.returning.length < s.hopL t e + k)
  else decide ((dataIn all).length - gone false < k)
def Eff.isOverflow : Eff → Bool
  | .overflow _ _ _ => true
  | _ => false
/-- A move in which a breakwater overflows is that overflow alone (R378). -/
def sealed (l : List Eff) : List Eff := if l.any Eff.isOverflow then l.filter Eff.isOverflow else l
/-- A move takes a token over a hop. -/
def overHop (t : Tile) (e : Nat) (l : List Eff) : Bool := l.any fun x => match x with
  | .hop t' e' _ _ => t' == t && e' == e
  | _ => false
/-- A token enters a region at a site, with what follows in the region. -/
def State.enterSite (s : State) (r : RegionId) (p : Nat) (o : Offer) (k : QTok) (rest : Option (List Eff)) : Option (List Eff) :=
  if !s.siteTakes r p o k.tok then none
  else match s.siteRoom r p o k.tok with
    | .wait => none
    | .overflow => rest.map fun _ => [.overflow r (siteTile ((s.rg r).ingOf p)) k.tok.facet]
    | .ok => rest.map (.ingress r p k.tok o k.org :: ·)
/-- Settles a goal: the effects of the move, or nothing where it does not take place. Where a move needs the head of a full hop to leave,
that token's move is part of it. -/
def State.settle (s : State) : Nat → Goal → Option (List Eff)
  | 0, _ => none
  | n + 1, .leave p =>
    (match p with
      | .site r q =>
        let w := (s.rg r).ingOf q
        if s.hasMoved p then none
        else match s.ownOffer r q ((s.feeders n (siteTile w) (siteTrack w)).any fun x => x.1 != Place.site r q) with
          | none => none
          | some (o, k) =>
            (s.enterSite r q o k (if s.siteTakes r q o k.tok then s.settle n (.into p (siteTile w) (siteTrack w) { k with org := none }) else none)).map
              (Eff.leave p o :: ·)
      | _ => match s.headOf p with
        | none => none
        | some k => (match p with
          | .hop t e => s.settle n (.after p t e k)
          | .outq t q => s.settle n (.into p t (0x20 + q.val) k)
          | .egOut r q => s.settle n (.cross p (siteTile ((s.rg r).egrOf q)) (siteTrack ((s.rg r).egrOf q)) k)
          | .site _ _ => none).map (.leave p .track :: ·)).map sealed
  | n + 1, .into p t src k =>
    let g := s.effFacet t k.tok
    match (s.sw t).users g 0 48 src with
    | [] => some [.unrouted t src k.tok]
    | es => allOf (es.map fun e => s.settle n (.entry p t g e k))
  | n + 1, .entry p t g e k =>
    if 32 ≤ e then
      let q : Fin 16 := Fin.ofNat 16 (e - 32)
      if s.portRoom t q k.tok then some [.count t g e k.tok, .port t q k.tok] else none
    else if s.tileFrozen t || s.cycle < (s.hop t e).last then none
    else
      let mine := (k.entered, (s.sw t).sel g e)
      let rivals := ((List.finRange 4).filter (· != g)).flatMap fun g' =>
        let x := (s.sw t).sel g' e
        if x = 0x3F || (s.regionOf t).isNone then [] else (s.feeders n t x).filter fun q =>
          q.1 != p && s.effFacet t q.2.tok == g' && earlierAt (q.2.entered, x) mine
      if rivals.any (fun q => (s.settle n (.leave q.1)).any (overHop t e)) then none
      else
        let slots := (s.sw t).slots g e
        if slots = 0 then if !(s.hop t e).buf.isEmpty then none else (s.settle n (.after p t e k)).map (.count t g e k.tok :: .hop t e k.tok k.org :: ·)
        else
          if s.hopRoom t e slots k.tok false then some [.count t g e k.tok, .hop t e k.tok k.org]
          else if !(s.hop t e).buf.isEmpty && s.hopRoom t e slots k.tok true then
            (s.settle n (.leave (.hop t e))).map (· ++ [.count t g e k.tok, .hop t e k.tok k.org])
          else none
  | n + 1, .after p t e k =>
    match s.regionOf t with
    | none => s.settle n (.cross p t e k)
    | some r =>
      if (beyond t (edgeOf e)).bind s.regionOf = some r then s.settle n (.cross p t e k)
      else
        let g := s.rg r
        let f := k.tok.facet
        let prim : Tile := if s.isMirror t f then ⟨t.x - 2, t.y⟩ else t
        match g.egressAt prim e with
        | none => none
        | some q =>
          if s.halted r || s.ttFull t e r q then none
          else if prim ≠ t then some [.mirror r q prim k.tok]
          else if k.tok.isMark then some [.egMark r q k.tok]
          else
            let reach := g.egressReach q f
            let link := (ioOf t (edgeOf e)).isSome
            let matched := g.lockMirror.any (lockTok t q k.tok s.cycle).mate
            if s.isPrimary t f && !matched then none
            else
              let pre := if s.isPrimary t f then [.matched r q t k.tok] else []
              if link || !bit g.exq q then
                match s.bwRoom t.die r reach 1 with
                | .ok => some (pre ++ [.quarantine r q k.tok])
                | .wait => none
                | .overflow => some [.overflow r t f]
              else if !(tget g.egOut q []).isEmpty || (List.finRange 8).any (fun d => (s.die d).bw.any fun x =>
                  x.region == r && (match x.kind with
                    | .egress q' _ => q' == q
                    | _ => false)) then none
              else (s.settle n (.cross p t e { k with org := some (r.val, reach) })).map (pre ++ .pass r q k.tok :: ·)
  | n + 1, .cross p t e k =>
    match beyond t (edgeOf e) with
    | none => none
    | some u =>
      let src := opposite e
      match s.regionOf u with
      | some r =>
        if s.regionOf t = some r then s.settle n (.into p u src k)
        else
          let g := s.rg r
          (match g.ingressAt u src with
          | none => if ((s.sw u).users k.tok.facet 0 48 src).isEmpty then some [.unrouted u src k.tok] else none
          | some q =>
            let k' := { k with tok := k.tok.stamp (g.stampOf (g.ingOf q)) }
            if g.trackTurn q && s.siteTakes r q .track k'.tok then s.enterSite r q .track k' (s.settle n (.into p u src { k' with org := none }))
            else none)
      | none => s.settle n (.into p u src k)
/-- More than any chain of places is long. -/
def settleFuel : Nat := 65536
/-- The move of a place's head in this cycle. -/
def State.moveOf (s : State) (p : Place) : Option (List Eff) := s.settle settleFuel (.leave p)
/-- A move goes through an ingress site, which may overflow its breakwater. -/
def passesSite (l : List Eff) (r : RegionId) (p : Nat) : Bool := l.any fun x => match x with
  | .ingress r' p' _ _ _ => r' == r && p' == p
  | .overflow r' _ _ => r' == r
  | _ => false
def throughSite (l : List Eff) : Bool := l.any fun x => match x with
  | .ingress _ _ _ _ _ => true
  | _ => false

/-! Effects -/

/-- A link counter counts an accepted token (R446). -/
def State.countLink (s : State) (t : Tile) (f : Facet) (e : Nat) (k : Token) : State :=
  match s.regionOf t with
  | none => s
  | some r =>
    if k.isMark then s
    else (List.range 4).foldl (fun s j =>
      let g := s.rg r
      let c := tget g.dtbsel j 0
      if bit c 20 && fld c 0 6 == e && fld c 6 7 + g.x0 == t.x && fld c 13 5 + g.y0 == t.y && fld c 18 2 == f.val then
        let n := (fld (tget g.dtbcnt j 0) 0 48 + 1) % 2 ^ 48
        let s := s.modRg r fun g => { g with dtbcnt := tset g.dtbcnt j (BitVec.ofNat 64 n) }
        if n ≠ 0 ∧ n = fld (tget g.dtbord j 0) 0 48 then s.dbgMatch r (8 + j) 0 (bit c 21) causeTokenBreak j else s
      else s) s
/-- RGSTAT.UNROUTED and the cause of a discarded token (R161, R364). A mark vanishes without one. -/
def State.dropUnrouted (s : State) (t : Tile) (src : Nat) (k : Token) : State :=
  if k.isMark then s
  else
    let code := if src < 0x20 then causeUnroutedEdge + edgeOf src else if src < 0x30 then causeUnroutedOut + (src - 0x20)
      else if src = 0x30 then causeUnroutedRow else causeUnroutedCol
    let detail := k.tag.toNat + (if src < 0x20 then src % 8 * 256 else 0)
    let s := s.cause t k.facet code false detail
    match s.regionOf t with
    | some r => s.modRg r fun g => { g with stat := setBit g.stat 1 true }
    | none => s
/-- The conservation weight of a port of a facet (R377). -/
def Region.weight (g : Region) (f : Facet) (port : Nat) : Int :=
  (g.tideCfg.get f).weights.foldl (fun n x => if x.1 = port then n + x.2 else n) 0
/-- A token of a reach is counted for conservation (R375). -/
def Region.conserve (g : Region) (f : Facet) (port reach : Nat) : Region :=
  { g with reaches := g.reaches.map fun x => if x.n = reach then { x with sums := tmod x.sums f.val 0 (· + g.weight f port) } else x }
/-- An egress site is passed (R375, R442, R452). -/
def State.egressPassed (s : State) (r : RegionId) (p : Nat) (k : Token) : State :=
  s.modRg r fun g =>
    { (g.conserve k.facet (64 + p) (g.egressReach p k.facet)).phaseSteady k.facet with counters := vmod g.counters 1 (· + 1) }
/-- Nodes without a forward port take a mark in the cycle in which it enters (R371). -/
def State.rootsTake (s : State) (r : RegionId) (f : Facet) (k : Token) : State :=
  (s.nodes r f).foldl (fun s t =>
    if (s.forwardPorts t f).isEmpty && !s.hasTaken t f k then
      (if k.markType = markTide then s.takeTide t f k true else s.takeHold t f k true)
    else s) s
/-- An ingress site has accepted a token (R169, R375, R378, R387, R442). -/
def State.ingressDone (s : State) (r : RegionId) (p : Nat) (k : Token) (o : Offer) (org : Option (Nat × Nat)) : State :=
  let g := s.rg r
  let f := k.facet
  let reach := if k.isMark then k.markNo else if o = .replay then firstMark f (tget g.replay p []) |>.elim (g.siteReach p f) (· - 1)
    else g.siteReach p f
  let s := if k.isMark then s
    else s.modRg r fun g =>
      { g.conserve f p reach with credit := tset g.credit p (tget g.credit p 0 - 1024), counters := vmod g.counters 0 (· + 1) }
  let s := if g.tides && o != .replay && (!k.isMark || k.markType == markTide) then
      s.bwPut (siteTile (g.ingOf p)).die r reach 1 (.replay p k)
    else s
  let s := if (g.tideCfg.get f).lock then s.modRg r fun g =>
      { g with delay := tmod g.delay p [] (· ++ [{ tok := k, entered := s.cycle + 4 }]) } else s
  let s := match org with
    | some (y, b) =>
      if y ≠ r.val ∧ (s.rg r).tides ∧ (s.rg (Fin.ofNat 32 y)).reaches.any (fun x => x.n == b) ∧ (s.rg (Fin.ofNat 32 y)).tides then
        { s with clasps := joinClasp s.clasps (r.val, reach) (y, b) }
      else s
    | none => s
  let s : State := { s with moved := s.moved ++ [.site r p] }
  let s := if (o = .track ∨ o = .link) ∧ (g.seedOffer p).isSome then s.modRg r fun g => { g with seedTurn := tset g.seedTurn p true }
    else if o = .seed ∨ o = .upcall then s.modRg r fun g => { g with seedTurn := tset g.seedTurn p false } else s
  if k.isMark then s.rootsTake r f k else s
/-- A token leaves a place. -/
def State.leavePlace (s : State) (p : Place) (o : Offer) : State :=
  let s : State := { s with moved := s.moved ++ [p] }
  match p with
  | .hop t e => s.modHop t e fun h =>
      match h.buf with
      | [] => h
      | x :: l => { h with buf := l, returning := if crosses t e && !x.tok.isMark then h.returning ++ [s.cycle + s.hopL t e] else h.returning }
  | .outq t q =>
    let s := if (s.outq t q).head?.any (fun x => !x.tok.isMark) then
        (if t.isCT then s.modEl t fun e => { e with drained := vset e.drained q (s.cycle + 1) }
         else s.modMt t fun m => { m with drained := vset m.drained q (s.cycle + 1) })
      else s
    s.modOutq t q (·.drop 1)
  | .egOut r q => s.modRg r fun g => { g with egOut := tmod g.egOut q [] (·.drop 1) }
  | .site r q =>
    let s := s.modRg r fun g => { g with since := tdel g.since q }
    match o with
    | .replay => s.modRg r fun g => { g with replay := tmod g.replay q [] (·.drop 1) }
    | .mark => s.modRg r fun g => { g with siteMarks := tmod g.siteMarks q [] (·.drop 1) }
    | .upcall => s.modRg r fun g => { g with upcallQ := tmod g.upcallQ q [] (·.drop 1) }
    | .seed => s.modRg r fun g =>
        let l := (tget g.seeds q []).drop 1
        { g with seeds := tset g.seeds q l, seedst := tset g.seedst q (setFld (tget g.seedst q 0) 0 5 l.length) }
    | .link =>
      let w := (s.rg r).ingOf q
      (match ioOf (siteTile w) (fld w 12 2) with
      | some io => s.modIo io fun x =>
          { x with edge := tmod x.edge (linkKey r q) Hop.empty fun h =>
              { h with buf := h.buf.drop 1, returning := h.returning ++ [s.cycle + s.edgeL io] } }
      | none => s)
    | .track => s
/-- One effect of a move. -/
def State.applyEff (s : State) (x : Eff) : State :=
  match x with
  | .leave p o => s.leavePlace p o
  | .count t f e k => s.countLink t f e k
  | .hop t e k org =>
    let s := s.modHop t e fun h => { h with last := s.cycle + 1 }
    if (s.sw t).slots (s.effFacet t k) e = 0 then s
    else s.modHop t e fun h =>
      if crosses t e then { h with flight := h.flight ++ [{ tok := k, entered := s.cycle + s.hopL t e, org := org }] }
      else { h with buf := h.buf ++ [{ tok := k, entered := s.cycle, org := org }] }
  | .port t p k => s.modInq t k.facet p (· ++ [{ tok := k, entered := s.cycle }])
  | .unrouted t src k => s.dropUnrouted t src k
  | .ingress r p k o org => s.ingressDone r p k o org
  | .egMark r p k => s.modRg r fun g =>
      if k.markType = markTide then { g with marks := g.marks ++ [(k.facet.val, p, k.markNo)] }
      else if k.markType = markDebug then { g with cutMarks := sins g.cutMarks p }
      else { g with preempt := g.preempt.map fun x => { x with drained := x.drained ++ [(k.facet.val, p)] } }
  | .quarantine r p k =>
    let g := s.rg r
    (s.egressPassed r p k).bwPut (siteTile (g.egrOf p)).die r (g.egressReach p k.facet) 1 (.egress p k)
  | .pass r p k => s.egressPassed r p k
  | .mirror r p t k => if k.isMark then s else s.modRg r fun g => { g with lockMirror := g.lockMirror ++ [lockTok t p k s.cycle] }
  | .matched r p t k =>
    let x := lockTok t p k s.cycle
    let g := s.rg r
    (match g.lockMirror.find? x.mate with
    | some y =>
      let s := s.modRg r fun g =>
        { g with lockMirror := g.lockMirror.erase y, lockPrim := match g.lockPrim.find? x.mate with
          | some z => g.lockPrim.erase z
          | none => g.lockPrim }
      if y.same x then s else s.lockFail r k.facet (g.egressReach p k.facet)
    | none => s)
  | .overflow r t f => s.bwOverflow t.die r f
def State.applyEffs (s : State) (l : List Eff) : State := l.foldl State.applyEff s

/-! Steps -/

/-- Every place of the fabric that may hold a token, in the order of tiles. -/
def State.places (s : State) : List Place :=
  (s.switches.flatMap fun b => b.2.hops.map fun h => .hop ⟨b.1 / 32, b.1 % 32⟩ h.1) ++
  (s.elements.flatMap fun e => (List.finRange 16).filterMap fun p =>
    if (e.2.outq.get p).isEmpty then none else some (.outq ⟨e.1 / 32, e.1 % 32⟩ p)) ++
  (s.mts.flatMap fun m => (List.finRange 16).filterMap fun p =>
    if (m.2.outq.get p).isEmpty then none else some (.outq ⟨m.1 / 32, m.1 % 32⟩ p)) ++
  ((List.finRange 32).flatMap fun r => (s.rg r).egOut.map fun x => .egOut r x.1)
/-- A primary's egress token that finds no mirror item yet is noted once, for the timeout of R388. -/
def State.notePrimary (s : State) (p : Place) : State :=
  match p, s.headOf p with
  | .hop t e, some k =>
    (match s.regionOf t with
    | some r =>
      (match (s.rg r).egressAt t e with
      | some q =>
        let x := lockTok t q k.tok s.cycle
        if s.isPrimary t k.tok.facet && !k.tok.isMark && !(s.rg r).lockMirror.any x.mate && !(s.rg r).lockPrim.any x.mate then
          s.modRg r fun g => { g with lockPrim := g.lockPrim ++ [x] }
        else s
      | none => s)
    | none => s)
  | _, _ => s
/-- The head of a place moves, if it does in this cycle through no ingress site. -/
def State.advance (s : State) (p : Place) : State :=
  match s.moveOf p with
  | some l => if throughSite l then s else s.applyEffs l
  | none => s
/-- ROUTE_ADVANCE (R156): every move that passes no ingress site. A move brings with it those that it needs, and a place that has let a
token go and a hop or queue that has accepted one do so no second time, so that the order of the moves does not matter. -/
def execRouteAdvance (s : State) : Out :=
  .next (s.places.foldl State.notePrimary (s.places.foldl State.advance s))
/-- The move of a token that the site itself offers. -/
def State.ownMove (s : State) (r : RegionId) (p : Nat) : Option (List Eff) := s.moveOf (.site r p)
/-- The move of a track token that this site accepts. -/
def State.trackMove (s : State) (r : RegionId) (p : Nat) : Option (List Eff) :=
  let w := (s.rg r).ingOf p
  (s.feeders settleFuel (siteTile w) (siteTrack w)).findSome? fun q =>
    if q.1 = .site r p then none else (s.moveOf q.1).bind fun l => if passesSite l r p then some l else none
/-- INGRESS_ACCEPT (R169): the site accepts what it offers itself in its turn, or else the token on its track. -/
def execIngressAccept (r : RegionId) (p : Fin 64) (s : State) : Out :=
  if !siteEn ((s.rg r).ingOf p.val) then .next s
  else match s.ownMove r p.val with
    | some l => .next (s.applyEffs l)
    | none => match s.trackMove r p.val with
      | some l => .next (s.applyEffs l)
      | none => .next s
/-- BOUNDARY_ARRIVAL (R157): a token is offered at the far switchbox L cycles after the hop accepted it. -/
def execBoundaryArrival (t : Tile) (entry : Fin 32) (s : State) : Out :=
  match (s.hop t entry.val).flight with
  | [] => .next s
  | x :: l => when_ s (decide (x.entered ≤ s.cycle) && !s.tileFrozen (offersAt t entry.val))
      (s.modHop t entry.val fun h => { h with flight := l, buf := h.buf ++ [{ x with entered := s.cycle - 1 }] })
/-- CREDIT_RETURN (R157). -/
def execCreditReturn (t : Tile) (entry : Fin 32) (s : State) : Out :=
  match (s.hop t entry.val).returning with
  | [] => .next s
  | c :: l => when_ s (decide (c ≤ s.cycle)) (s.modHop t entry.val fun h => { h with returning := l })

/-! Buses (R159) -/

/-- The tiles that a bus of a die reaches. -/
def busTiles (d : DieId) : BusId → List Tile
  | .row y => (List.range 16).map fun c => ⟨16 * d.val + c, y.val⟩
  | .col c => (List.range 32).map fun y => ⟨16 * d.val + c.val, y⟩
/-- CID and RID of a tile in a facet: logical x and y unless configured. -/
def State.busId (s : State) (t : Tile) (f : Facet) (row : Bool) : Nat :=
  match (s.sw t).cidrid.get f with
  | some w => if row then fld w 0 8 else fld w 8 8
  | none => if row then t.x % 256 else t.y
def busIsRow : BusId → Bool
  | .row _ => true
  | .col _ => false
def State.busQueue (s : State) (d : DieId) : BusId → List BusTok
  | .row y => tget (s.die d).rowBus y.val []
  | .col c => tget (s.die d).colBus c.val []
def State.setBus (s : State) (d : DieId) (b : BusId) (l : List BusTok) : State :=
  match b with
  | .row y => s.modDie d fun x => { x with rowBus := if l.isEmpty then tdel x.rowBus y.val else tset x.rowBus y.val l }
  | .col c => s.modDie d fun x => { x with colBus := if l.isEmpty then tdel x.colBus c.val else tset x.colBus c.val l }
/-- A bus as a resource that serves one driver at a time (R159). -/
def busTurn (d : DieId) : BusId → Nat
  | .row y => 2 ^ 80 + 64 * d.val + y.val
  | .col c => 2 ^ 80 + 64 * d.val + 32 + c.val
/-- A tile takes a token of a bus when its identifier matches under the mask. -/
def State.busTakes (s : State) (b : BusId) (x : BusTok) (t : Tile) : Bool :=
  (BitVec.ofNat 8 (s.busId t (s.effFacet t x.tok) (busIsRow b)) ^^^ x.bid) &&& x.bmask == 0
/-- The copies of a bus token, one for each selecting input port; a taking tile without one discards it (R161). -/
def State.busCopies (s : State) (d : DieId) (b : BusId) (x : BusTok) : List Eff :=
  ((busTiles d b).filter (s.busTakes b x)).flatMap fun t =>
    let g := s.effFacet t x.tok
    let src := if (busIsRow b) then 0x30 else 0x31
    match (s.sw t).users g 32 16 src with
    | [] => [.unrouted t src x.tok]
    | es => es.flatMap fun e => [.count t g e x.tok, .port t (Fin.ofNat 16 (e - 32)) x.tok]
/-- BUS_DELIVERY (R159): all copies enter in the first cycle, from the second after acceptance on, in which every port accepts;
in a cycle in which the loader drives the bus it carries no token. -/
def execBusDelivery (d : DieId) (bus : BusId) (s : State) : Out :=
  match s.busQueue d bus with
  | [] => .next s
  | x :: l =>
    let effs := s.busCopies d bus x
    let room := effs.all fun y => match y with
      | .port t p k => s.portRoom t p k
      | _ => true
    when_ s (decide (x.at_ + 2 ≤ s.cycle) && room && !s.turns.used.contains (busTurn d bus))
      ((s.setBus d bus (l.map fun y => { y with at_ := s.cycle })).applyEffs effs)

/-! Delay lines (R387) -/

/-- DELAY_LINE_ARRIVAL: a token enters the mirror's first route entry. -/
def execDelayLineArrival (r : RegionId) (p : Fin 64) (s : State) : Out :=
  let g := s.rg r
  let w := g.ingOf p.val
  let t := siteTile w
  let m : Tile := ⟨t.x + 2, t.y⟩
  match tget g.delay p.val [] with
  | [] => .next s
  | x :: l =>
    if s.cycle < x.entered ∨ s.halted r ∨ s.tileFrozen m then .next s
    else match s.settle settleFuel (.into (.site r p.val) m (siteTrack w) { tok := x.tok, entered := 0 }) with
      | none => .next s
      | some effs => .next ((s.modRg r fun g => { g with delay := tset g.delay p.val l }).applyEffs effs)

/-! Quiet facets (R163) -/

/-- Facet f counts in a tile: tokens, commit buffers, runnable handlers, activations, requests and holds (R163, R235), commands and
owed writes (R282, R291, R329). -/
def State.tileBusy (s : State) (t : Tile) (f : Facet) : Bool :=
  (s.sw t).hops.any (fun h => (h.2.buf ++ h.2.flight).any fun x => x.tok.facet == f) ||
  (List.finRange 16).any (fun p => !(s.inq t f p).isEmpty || (s.outq t p).any fun x => x.tok.facet == f) ||
  (if t.isCT then
    let e := s.el t
    (match e.act with
    | some a => a.facet == f
    | none => false) ||
    (List.finRange 64).any (fun h => s.runnable t f h) || !(e.fac f).outbound.isEmpty ||
    s.holds.any (fun h => h.tile == t && h.facet == f) ||
    s.reqs.any (fun q => match q.src with
      | .elem t' f' _ _ => t' == t && f' == f && q.form != 0xA && (q.stage == .queued || q.stage == .travelling || q.stage == .regulated || q.deferred)
      | _ => false)
  else
    let x := (s.mt t).fac f
    !x.cmds.isEmpty || !x.quick.isEmpty || !x.mx.quick.isEmpty || !x.mx.cmds.isEmpty || !x.mx.staged.isEmpty ||
    (s.mt t).pend4.any (fun c => c.facet == f) || (s.mt t).pend6.any (fun c => c.facet == f) ||
    s.reqs.any (fun q => decide (q.src.tile = some t) && q.facet == f && q.form != 0 && q.form != 2 && q.form != 7 && q.form != 0xA &&
      (q.stage == .queued || q.stage == .travelling || q.stage == .regulated || q.deferred)))
/-- A bus holds a facet-f token for the region. -/
def State.busBusy (s : State) (r : RegionId) (f : Facet) : Bool :=
  (List.finRange 8).any fun d => ((s.die d).rowBus ++ (s.die d).colBus).any fun b => b.2.any fun x => x.rg == some r.val && x.tok.facet == f
/-- Replay entries and quarantined tokens of facet f of the reaches after CTIDE, marks apart (R413). -/
def State.keptBusy (s : State) (r : RegionId) (f : Facet) : Bool :=
  (List.finRange 8).any fun d => (s.die d).bw.any fun e => e.region == r && (match e.kind with
    | .replay _ k => !k.isMark && k.facet == f && decide ((s.rg r).ctide ≤ e.reach)
    | .egress _ k => k.facet == f && decide ((s.rg r).ctide ≤ e.reach)
    | _ => false)
/-- A save of facet f is in progress (R390), or a cut holds it (R448), or its sites still hold tokens of it. -/
def Region.facetKept (g : Region) (f : Facet) : Bool :=
  (match g.preempt with
  | some p => !p.restore && p.facet == f
  | none => false) || (g.cutStops f && fld g.dcut 4 2 == 2) ||
  g.delay.any (fun x => x.2.any fun k => k.tok.facet == f) || g.replay.any (fun x => x.2.any fun k => k.facet == f && !k.isMark) ||
  g.siteMarks.any (fun x => x.2.any fun k => k.facet == f)
/-- Facet f of a region is quiet (R163). -/
def State.quietNow (s : State) (r : RegionId) (f : Facet) : Bool :=
  let g := s.rg r
  !g.stamps f && !g.facetKept f && !s.busBusy r f && !s.keptBusy r f && g.tiles.all fun t => !s.tileBusy t f

end Sys2Proof.Machine
end

