-- ==== Sys2Proof/Machine/Tide.lean ====
section
/-! DEFINITION. Tides and reaches (R368 to R375, R414), commits (R379, R386), rollbacks, stops and replay (R383 to R386), strikes
(R366, R367), notices (R365) and freezes (R396). -/

namespace Sys2Proof.Machine

/-! Injection -/

/-- The sites at which a mark of facet f enters: those that stamp f, and every MODE 0b00 site (R412). -/
def Region.markSites (g : Region) (f : Facet) : List Nat :=
  g.ing.filterMap fun x => if siteEn x.2 && (fld x.2 18 2 != 1 || fld x.2 20 2 == f.val) then some x.1 else none
/-- A mark waits at some sites, ahead of the next token. -/
def Region.queueMark (g : Region) (ports : List Nat) (k : Token) : Region :=
  { g with siteMarks := ports.foldl (fun m p => tmod m p [] (· ++ [k])) g.siteMarks }
/-- The live facets as a mask. -/
def Region.liveFacets (g : Region) : BitVec 4 := (List.finRange 4).foldl (fun m f => setBit m f.val (g.live f)) 0
/-- Tide TNEXT is injected (R369, R371, R414): marks for live facets, snapshots of nodes without forward ports and of every node of
the other facets. What is injected while the region rolls back finds its nodes at the beginning of the replay (DEDUCED, log 29). -/
def State.injectTide (s : State) (r : RegionId) (late : Bool) : State :=
  let g := s.rg r
  let n := g.tnext
  let s : State := s.modRg r fun g =>
    { g with tide := setFld g.tide 16 32 (n + 1), reaches := g.reaches ++ [⟨n, none, [], g.liveFacets⟩], dueTide := false,
             tidestat := if late then setBit g.tidestat 36 true else g.tidestat }
  (List.finRange 4).foldl (fun s f =>
    if g.live f then
      let k := markTok f markTide n
      let s : State := s.modRg r fun g => g.queueMark (g.markSites f) k
      if g.rollback.isSome then s else s.rootsTake r f k
    else if g.rollback.isSome then s
    else (s.nodes r f).foldl (fun s t => s.snapNode t f n 0) s) s
/-- A save in progress suspends tides (R390): from the commit of the latest tide on. -/
def Region.tidesSuspended (g : Region) : Bool :=
  match g.preempt with
  | some p => !p.restore && (decide (2 ≤ fld g.prectl 8 3) || g.tnext == g.ctide + 1)
  | none => false
/-- The period of tides in nanoseconds (R368, R369). -/
def Region.tidePeriod (g : Region) : Nat := 1000 * 2 ^ fld g.tide 0 4
/-- Device time at a region: that of its south-west tile's die. -/
def State.rgTime (s : State) (r : RegionId) : Nat := (s.die (s.rg r).corner.die).time
def State.rgPrev (s : State) (r : RegionId) : Nat := (s.die (s.rg r).corner.die).prev
/-- An instant that is a multiple of a period has been reached in this cycle. -/
def State.instant (s : State) (r : RegionId) (period : Nat) : Bool := decide (s.rgPrev r / period < s.rgTime r / period)
/-- TIDE_INJECT (R369): on time in its due cycle, or late in the first cycle that allows it. While the region is stopped or frozen no tide
runs (R385, R396), and none is injected into a facet that a debug cut holds (R448). -/
def execTideInject (r : RegionId) (s : State) : Out :=
  let g := s.rg r
  when_ s (g.tides && g.dueTide && g.tnext == g.ctide + 1 && !g.tidesSuspended && !g.stop && !s.frozen r &&
      (fld g.dcut 4 2 == 0 || !g.live g.cutFac))
    (s.injectTide r (!s.instant r g.tidePeriod))
/-- TIDE_TAKE (R371). -/
def execTideTake (t : Tile) (f : Facet) (s : State) : Out :=
  match s.nodeMark t f with
  | some k => when_ s (k.markType == markTide && !s.tileHalted t) (s.takeTide t f k false)
  | none => .next s

/-! Closing and committing -/

/-- A request of a reach that is neither accepted by a breakwater nor performed at its home; watches are none (R374). -/
def Req.owes (q : Req) (r : RegionId) (n : Nat) : Bool :=
  q.region == some r && decide (q.reach ≤ n) && q.form != 0xA && !q.released &&
  (q.stage == .queued || q.stage == .travelling || q.stage == .regulated || q.deferred)
/-- Reach n of a region may close for facet f (R374). -/
def State.facetClosed (s : State) (r : RegionId) (f : Facet) (n : Nat) : Bool :=
  (s.nodes r f).all (fun t => decide (n + 1 ≤ s.nodeReach t f) && s.nodeRecording t f == 0) &&
  (s.egressOf r f).all fun p => (s.rg r).marks.any fun m => m.1 == f.val && m.2.1 == p && decide (n + 1 ≤ m.2.2)
/-- Conservation fails for a facet (R375). -/
def Region.unbalanced (g : Region) (x : Reach) (f : Facet) : Bool :=
  let c := g.tideCfg.get f
  c.consen && decide ((c.tol : Int) < (tget x.sums f.val 0).natAbs)
/-- REACH_CLOSE (R374, R375): the oldest reach closes, or raises conservation-imbalance in its closing cycle. -/
def execReachClose (r : RegionId) (s : State) : Out :=
  let g := s.rg r
  match g.reaches with
  | [] => .next s
  | x :: rest =>
    let ready := g.tides && !s.halted r && x.closed.isNone && decide (x.n + 1 < g.tnext) &&
      (List.finRange 4).all (fun f => !g.live f || s.facetClosed r f x.n) && !s.reqs.any (fun q => q.owes r x.n)
    when_ s ready <|
      let s : State := s.modRg r fun g => { g with reaches := { x with closed := some s.cycle } :: rest }
      match (List.finRange 4).find? (g.unbalanced x) with
      | some f => (s.causeRg r f causeConservation x.n).rollback [r]
      | none => s
/-- TIMED_COMMIT (R386): entries and writes at their homes commit 900 cycles after they were accepted. -/
def execTimedCommit (r : RegionId) (s : State) : Out :=
  let g := s.rg r
  let due (c : Nat) : Bool := decide (c + 900 ≤ s.cycle)
  when_ s (!s.frozen r) <|
    if !g.tides && g.rollback.isSome then s.flushGoing r
    else
    let s : State := (s.flushGoing r).commitEntries r fun e => e.timed && due e.at_
    let s : State := { s with reqs := s.reqs.filter fun q => !(q.region == some r && q.timed && q.stage == .atHome && due q.arrived) }
    s

/-! Rollback -/

/-- A command as it goes on after a rollback or a restore: reads that had not come back are made again, and writes that were issued before
the snapshot are not. -/
def Cmd.rewound (c : Cmd) : Cmd :=
  let gath := c.op == 0xB1
  { c with reads := [],
           slots := (c.slots.filter fun x => gath || !x.issued).map fun x => { x with issued := !x.vals.isEmpty && gath, reqs := [] } }
/-- A matrix command as it goes on: rows that had no effect are read and fired again, and a tag wait is made again. -/
def MxCmd.rewound (c : MxCmd) : MxCmd :=
  let c := if c.phase = 1 then { c with phase := 0, reqs := [] } else c
  if c.op = 0xC0 then { c with read := if bit c.mod 6 then c.read else c.effect, fired := c.effect, phase := min c.phase 2 } else c
/-- Tokens re-inserted at the heads of the queues that they were recorded from (R383). -/
def requeue (l : List (Nat × Token)) : Vector (List QTok) 16 :=
  Vector.ofFn fun p => (l.filter (fun x => x.1 == p.val)).map fun x => { tok := x.2, entered := 0 }
/-- A facet of an element returns to a snapshot (R383); HSTAT.TRAPPED, HCAUSE and HADDR stay (R384). -/
def FacetEl.restored (x : FacetEl) (y : ElSnap) : FacetEl :=
  { x with bank := y.bank, hstat := (x.hstat &&& ~~~0x23F#64) ||| y.hstat, rmode := y.rmode, masks := y.masks, handlers := y.handlers,
           inq := requeue y.record, outbound := [], recording := 0, reach := y.tide, held := false, snaps := [y] }
/-- A generator as a snapshot has it; extents stay (R384). -/
def Gen.restored (x y : Gen) : Gen := { y with extents := x.extents, slot := x.slot, paused := x.paused }
def MtFacet.restored (x : MtFacet) (y : MtSnap) : MtFacet :=
  { x with gens := Vector.ofFn fun i => (x.gens.get i).restored (y.gens.get i), cmds := y.cmds.map Cmd.rewound,
           wp := y.wp, rp := y.rp, mx := { y.mx with cmds := y.mx.cmds.map MxCmd.rewound },
           inq := requeue y.record, recording := 0, reach := y.tide, held := false, quick := y.quick, snaps := [y] }
/-- The nodes that a facet owns, as a snapshot has them. -/
def restoreNodes (v : Vector DepNode 32) (f : Facet) (l : List (Nat × DepNode)) : Vector DepNode 32 :=
  Vector.ofFn fun i => match l.find? (fun x => x.1 == i.val) with
    | some x => x.2
    | none => if (v.get i).owner = some f then DepNode.free else v.get i
/-- Snapshot CTIDE of a node's facet is restored. -/
def State.restoreNode (s : State) (t : Tile) (f : Facet) (n : Nat) : State :=
  if t.isCT then
    match ((s.el t).fac f).snaps.find? (fun y => y.tide == n) with
    | some y => s.modEl t fun e => y.moors.foldl Element.moor { e.modFac f (·.restored y) with moors := e.moors.filter fun m => m.facet != f }
    | none => s
  else match ((s.mt t).fac f).snaps.find? (fun y => y.tide == n) with
    | some y => s.modMt t fun m =>
        { m.modFac f (·.restored y) with
          nodes := restoreNodes m.nodes f y.nodes,
          pend4 := m.pend4.filter (fun c => c.facet != f) ++ (y.pending.filter (fun c => !c.1)).map (·.2),
          pend6 := m.pend6.filter (fun c => c.facet != f) ++ (y.pending.filter (·.1)).map (·.2) }
    | none => s
/-- The tokens of facet f leave a tile's hops and queues, and its requests their queue (R383). -/
def State.clearTokens (s : State) (t : Tile) (f : Facet) : State :=
  let keep (l : List QTok) : List QTok := l.filter fun x => x.tok.facet != f
  let b := s.sw t
  let s : State := if b.hops.isEmpty then s
    else s.setSw t { b with hops := b.hops.map fun h => (h.1, { h.2 with buf := keep h.2.buf, flight := keep h.2.flight }) }
  let out (q : List OTok) : List OTok := q.filter fun x => x.tok.facet != f
  if t.isCT then
    if (s.elements.any fun e => e.1 == t.key) then s.modEl t fun e =>
      { e.modFac f (fun x => { x with inq := Vector.replicate 16 [], outbound := [], held := false }) with outq := e.outq.map out }
    else s
  else if (s.mts.any fun m => m.1 == t.key) then s.modMt t fun m =>
    { m.modFac f (fun x => { x with inq := Vector.replicate 16 [], held := false, quick := [], mx := { x.mx with staged := [], quick := [] } }) with
      outq := m.outq.map out, fired := m.fired.filter (fun x => x.facet != f) }
  else s
/-- Undo entries applied in reverse (R373, R383). -/
def Memory.undoAll (m : Memory) (l : List Undo) : Memory :=
  l.foldl (fun m u => ((m.write (8 * u.word) 8 u.val).setFull (8 * u.word) u.full).setPoison (8 * u.word) u.poison) m
/-- The undo log of a tile is applied, newest first, and emptied; entries before reach n stay. -/
def State.undoTile (s : State) (t : Tile) (n : Nat) : State :=
  let log := if t.isCT then (s.el t).undo else (s.mt t).undo
  let back := log.filter fun u => decide (n ≤ u.reach)
  let keep := log.filter fun u => !decide (n ≤ u.reach)
  if back.isEmpty then s
  else
    let s : State := { s with mem := s.mem.undoAll back }
    if t.isCT then s.modEl t fun e => { e with undo := keep } else s.modMt t fun m => { m with undo := keep }
/-- The shadows that a region's rollback writes back (R383): of each word the oldest among the regions that roll back together, the latest
word first, so that PSN of a granule ends as it stood before the first of the accesses (R214). -/
def State.restoreShadows (s : State) (r : RegionId) : State :=
  let mates := (List.finRange 32).filter fun x => (s.rg x).rollback.any fun b => !b.restored && (s.rg r).rollback.any fun c => c.cycle == b.cycle
  let hit (e : BwEntry) : Bool := mates.contains e.region && (!(s.rg e.region).tides || !e.timed) && (match e.kind with
    | .shadow _ _ _ _ => true
    | _ => false)
  let all := sortBy (·.seq) ((List.finRange 8).flatMap fun d => (s.die d).bw.filter hit)
  let words := (all.filterMap fun e => match e.kind with
    | .shadow w _ _ _ => if e.region = r then some w else none
    | _ => none).dedup
  let s : State := words.foldr (fun w s =>
    match all.findSome? (fun e => match e.kind with
      | .shadow w' v b p => if w' = w then some (v, b, p) else none
      | _ => none) with
    | some (v, b, p) =>
      let gl := s.mem.glAt (8 * w)
      let s : State := { s with mem := (s.mem.devWrite (8 * w) (bytesOf 8 v) gl p).poisonBlock (8 * w) (granBytes gl) p }
      s.setTag w b 0 none
    | none => s) s
  (s.takeEntries fun e => hit e && (match e.kind with
    | .shadow w _ _ _ => words.contains w
    | _ => false)).2
/-- A request is discarded by a rollback to tide n, or by a stop while no tide runs (R383, R386). -/
def Req.discarded (q : Req) (r : RegionId) (tides : Bool) (n : Nat) : Bool :=
  q.region == some r && !q.released && (!tides || (decide (n ≤ q.reach) && !q.timed))
/-- Handlers moored on watches that no longer stand are released. -/
def State.unmoorLost (s : State) (t : Tile) : State :=
  ((s.el t).moors.filterMap (·.watch)).foldl (fun s w => if s.reqs.any (fun q => q.id == w) then s else s.unmoorWatch t w) s
/-- Tokens that a restored facet's snapshot has in hops return to them (R394). -/
def State.restoreHops (s : State) (r : RegionId) (n : Nat) : State :=
  (s.rg r).hopSnap.foldl (fun s x => if n ≤ x.1 then s.modHop (keyTile (x.2.1 / 32)) (x.2.1 % 32) fun h => { h with buf := h.buf ++ [x.2.2] } else s) s
/-- Step 2 of R383, or what R386 keeps of it. -/
def State.restoreRegion (s : State) (r : RegionId) : State :=
  let g := s.rg r
  let n := g.ctide
  let gone := s.reqs.filter fun q => q.discarded r g.tides n
  let s : State := gone.foldl (fun s q => s.undefer q) s
  let s : State := { s with reqs := s.reqs.filter fun q => !q.discarded r g.tides n,
                            walks := s.walks.filter fun w => !(w.region == r && w.result.isSome) }
  let s : State := { s with holds := s.holds.filter fun h => s.regionOf h.tile != some r }
  let s : State := s.restoreShadows r
  let s : State := (s.takeEntries fun e => e.region == r && (!g.tides || !e.timed) && !e.going && (match e.kind with
    | .replay _ _ => false
    | _ => true)).2
  let live := (List.finRange 4).filter g.live
  let s : State := live.foldl (fun s f => g.tiles.foldl (fun s t => s.clearTokens t f) s) s
  let s : State := { s with dies := s.dies.map fun d =>
    { d with rowBus := d.rowBus.map fun b => (b.1, b.2.filter fun x => !(live.contains x.tok.facet && x.rg == some r.val)),
             colBus := d.colBus.map fun b => (b.1, b.2.filter fun x => !(live.contains x.tok.facet && x.rg == some r.val)) } }
  let s : State := if g.tides then
      let s : State := g.tiles.foldl (fun s t => s.undoTile t n) s
      ((List.finRange 4).foldl (fun s f => (s.nodes r f).foldl (fun s t => s.restoreNode t f n) s) s).restoreHops r n
    else s
  let s : State := g.tiles.foldl (fun s t => if t.isCT then s.unmoorLost t else s) s
  (s.modRg r fun g =>
    { g with rollback := g.rollback.map fun x => { x with restored := true }, marks := [], delay := [], lockPrim := [], lockMirror := [],
             lockReplies := [], replay := [],
             reaches := g.reaches.map fun x => { x with closed := none, sums := [] },
             preempt := g.preempt.map fun x => { x with drained := [], blocks := [], saved := [], forced := none } }).syncOcc r
/-- ROLLBACK_RESTORE (R383, step 2): once the requests under way have reached their breakwaters or homes, and by t + 2,048. -/
def execRollbackRestore (r : RegionId) (s : State) : Out :=
  let g := s.rg r
  match g.rollback with
  | none => .next s
  | some b =>
    let way := s.reqs.any fun q => q.discarded r g.tides g.ctide && (q.stage == .travelling || q.stage == .regulated)
    when_ s (!b.restored && decide (b.cycle < s.cycle) && (!way || decide (b.cycle + 2048 ≤ s.cycle))) (s.restoreRegion r)
/-- The replay entries of a port, from mark CTIDE on, in order (R383). -/
def State.replayOf (s : State) (r : RegionId) (p : Nat) : List Token :=
  let n := (s.rg r).ctide
  (sortBy (·.seq) ((List.finRange 8).flatMap fun d => (s.die d).bw.filter fun e => e.region == r && decide (n ≤ e.reach))).filterMap fun e =>
    match e.kind with
    | .replay q k => if q = p then some k else none
    | _ => none
/-- A tide mark of a facet is among the tokens that sites replay. -/
def Region.replaysMark (g : Region) (f : Facet) (n : Nat) : Bool :=
  g.replay.any fun x => x.2.any fun k => k.isMark && k.facet == f && k.markType == markTide && k.markNo == n
/-- Nodes without a forward port pass mark CTIDE on, which the sites replay to the others (R371, R383). -/
def State.rootsPass (s : State) (r : RegionId) (f : Facet) (k : Token) : State :=
  (s.nodes r f).foldl (fun s t => if (s.forwardPorts t f).isEmpty then s.takeTide t f k true else s) s
/-- Step 3 of R383 begins: the sites replay. A tide that is injected already is taken anew: at once by the nodes that no site feeds, and,
in a facet that was not live at its injection, by every node as its snapshot (R371, R414). -/
def State.startReplay (s : State) (r : RegionId) : State :=
  let s : State := s.modRg r fun g =>
    { g with rollback := none,
             replay := g.ing.filterMap fun x => if (s.replayOf r x.1).isEmpty then none else some (x.1, s.replayOf r x.1) }
  let g := s.rg r
  let n := g.ctide
  if !g.tides then s
  else (List.finRange 4).foldl (fun s f =>
    let s : State := if g.replaysMark f n then s.rootsPass r f (markTok f markTide n) else s
    match g.reaches.find? (fun x => x.n == n + 1) with
    | some x =>
      if !x.live.getLsbD f.val then (s.nodes r f).foldl (fun s t => s.snapNode t f (n + 1) 0) s
      else if (g.markSites f).isEmpty then s.rootsTake r f (markTok f markTide (n + 1)) else s
    | none => s) s
/-- REPLAY_START (R383, step 3): the sites replay from t + 2,049, once PENDCNT is 0 and the region is not stopped; with TEN = 0 they accept
again as soon as STOP is cleared and the stop is done (R386). -/
def execReplayStart (r : RegionId) (s : State) : Out :=
  let g := s.rg r
  match g.rollback with
  | none => .next s
  | some b => when_ s (b.restored && !g.stop && g.pendcnt == 0 && (decide (b.cycle + 2048 ≤ s.cycle) || !g.tides) && !s.frozen r) (s.startReplay r)
/-- STOP_CLEAR (R385): REPL := 0, and step 3 of R383; with TEN = 0 the sites accept tokens again (R386), once PENDCNT is 0 (R267). -/
def State.clearStop (s : State) (r : RegionId) : State :=
  s.modRg r fun g =>
    { g with tidestat := setFld (setBit g.tidestat 35 false) 32 3 0,
             rollback := match g.rollback with
               | some b => if g.tides || !b.restored || 0 < g.pendcnt then some { b with stop := false } else none
               | none => none }
def execStopClear (r : RegionId) (s : State) : Out := when_ s ((s.rg r).stop) (s.clearStop r)

/-! Tide control -/

/-- Every node takes its state as snapshot n of every facet (R368). -/
def State.snapAll (s : State) (r : RegionId) (n : Nat) : State :=
  (List.finRange 4).foldl (fun s f => (s.nodes r f).foldl (fun s t =>
    if t.isCT then s.modEl t fun e => e.modFac f fun x => { x with snaps := [e.snap f n], recording := 0, reach := n }
    else s.modMt t fun m => m.modFac f fun x => { x with snaps := [m.snap f n], recording := 0, reach := n }) s) s
/-- Snapshots and undo logs of a region are freed. -/
def State.freeTides (s : State) (r : RegionId) : State :=
  (s.rg r).tiles.foldl (fun s t =>
    if t.isCT then s.modEl t fun e => { e with undo := [], facets := e.facets.map fun x => { x with snaps := [], recording := 0 } }
    else s.modMt t fun m => { m with undo := [], facets := m.facets.map fun x => { x with snaps := [], recording := 0 } }) s
/-- What a region has pending commits by R386 from now on, and the region leaves its clasps. -/
def State.allTimed (s : State) (r : RegionId) : State :=
  { s with
    dies := s.dies.map fun d => { d with bw := d.bw.map fun e => { e with timed := e.timed || e.region == r } }
    reqs := s.reqs.map fun q => { q with timed := q.timed || q.region == some r }
    clasps := (s.clasps.map fun c => c.filter fun m => m.1 != r.val).filter fun c => decide (1 < c.length) }
/-- A write of the tide control register (R368). -/
def State.writeTide (s : State) (r : RegionId) (v : Word) : State :=
  let g := s.rg r
  let kOk := decide (1 ≤ fld v 0 4) && decide (fld v 0 4 ≤ 8)
  let ten := bit v 4 && kOk
  let s : State := s.modRg r fun g =>
    { g with tide := setBit (setFld (setFld g.tide 0 4 (fld v 0 4)) 5 3 (max 1 (fld v 5 3))) 4 ten }
  if g.tides && !ten then
    let s : State := s.freeTides r
    let s : State := (s.takeEntries fun e => e.region == r && (match e.kind with
      | .replay _ _ => true
      | _ => false)).2
    let s := s.allTimed r
    (s.modRg r fun g =>
      { g with tidestat := setFld (setFld g.tidestat 0 32 (g.tnext - 1)) 32 3 (if g.ctide = g.tnext - 1 then fld g.tidestat 32 3 else 0),
               hopSnap := [], reaches := [⟨g.tnext - 1, none, [], 0xF⟩], replay := [], marks := [],
               dueTide := false }).syncOcc r
  else if !g.tides && ten then s.snapAll r g.ctide
  else s
/-- TIDE_CONTROL_WRITE (R368). -/
def execTideControlWrite (r : RegionId) (v : Word) (s : State) : Out := .next (s.writeTide r v)

/-! Strikes (R366, R367) -/

/-- The zone of a tile in its die. -/
def zoneOf (t : Tile) : Nat := 8 * (t.x % 16 / 4) + t.y / 4
/-- The free tiles that the routes into an incoming track of a tile cross, and the boundaries that they cross. -/
def State.upstream (s : State) : Nat → Tile → Nat → List (Tile × Nat)
  | 0, _, _ => []
  | n + 1, t, src =>
    if 0x20 ≤ src then []
    else match beyond t (edgeOf src) with
      | none => []
      | some u =>
        let e := opposite src
        (u, e) :: (if (s.regionOf u).isSome then [] else
          let x := (s.sw u).sel 0 e
          if x = 0x3F then [] else s.upstream n u x)
/-- The hops that feed an ingress site of a region: tile and outgoing entry. -/
def State.siteFeeds (s : State) (r : RegionId) (p : Nat) : List (Tile × Nat) :=
  let w := (s.rg r).ingOf p
  if siteEn w then s.upstream 4096 (siteTile w) (siteTrack w) else []
/-- Some ingress site of the region is fed by a route that crosses a free tile with a property. -/
def State.fedThrough (s : State) (r : RegionId) (h : Tile × Nat → Bool) : Bool :=
  (s.rg r).ing.any fun x => (s.siteFeeds r x.1).any h
/-- The hop crosses the hidden die in transit mode (R367, R420). -/
def State.throughHidden (s : State) (x : Tile × Nat) : Bool :=
  let h := fld s.modul.strmap 0 4
  decide (1 ≤ h) && decide (h ≤ 7) && ((edgeOf x.2 == 1 && x.1.x + 1 == 16 * h) || (edgeOf x.2 == 3 && x.1.x == 16 * h))
/-- An ingress site lies on the fabric edge behind which the hidden die stands in transit. -/
def State.siteThroughHidden (s : State) (r : RegionId) : Bool :=
  let h := fld s.modul.strmap 0 4
  !bit s.modul.strmap 4 && (s.rg r).ing.any fun x => siteEn x.2 && match ioOf (siteTile x.2) (fld x.2 12 2) with
    | some io => (io == 0 && h == 0) || (io == 1 && h == 8)
    | none => false
/-- The region has a route through the hidden die between two of its own tiles. -/
def State.regionThroughHidden (s : State) (r : RegionId) : Bool :=
  (s.rg r).tiles.any fun t => (List.range 32).any fun e =>
    s.throughHidden (t, e) && (match beyond t (edgeOf e) with
      | some u => (s.rg r).has u
      | none => false) && (List.finRange 4).any fun f => (s.sw t).sel f e != 0x3F
/-- A report rolls the region back (true) or stops it (false), or does not concern it (R367). -/
def State.strikeEffect (s : State) (die : Option DieId) (zone : Nat) (r : RegionId) : Option Bool :=
  let g := s.rg r
  if !g.valid then none
  else match die with
    | some d =>
      if zone < 32 then
        if s.fedThrough r (fun x => (s.regionOf x.1).isNone && x.1.die == d && zoneOf x.1 == zone) then some false
        else if g.tiles.any (fun t => t.die == d && zoneOf t == zone) then some true else none
      else if g.tiles.any (fun t => t.die == d) || (s.die d).bw.any (fun e => e.region == r) then some true else none
    | none =>
      if s.fedThrough r (fun x => s.throughHidden x) || s.siteThroughHidden r then some false
      else if s.regionThroughHidden r then some true else none
def strikeCode : Option DieId → Nat
  | some d => 0x140 + d.val
  | none => 0x148
/-- A report acts on the regions that are not frozen; frozen ones latch it (R396). -/
def State.strike (s : State) (die : Option DieId) (zone : Nat) : State :=
  let hit := (List.finRange 32).filter fun r => (s.strikeEffect die zone r).isSome
  let frozen := hit.filter s.frozen
  let now := hit.filter fun r => !s.frozen r
  let s : State := frozen.foldl (fun s r => s.modRg r fun g => { g with latched := g.latched ++ [(die, zone)] }) s
  let stops := now.filter fun r => s.strikeEffect die zone r == some false
  let rolls := now.filter fun r => s.strikeEffect die zone r == some true
  let s : State := now.foldl (fun s r => s.causeRg r 0 (strikeCode die) zone) s
  let s : State := stops.foldl (fun s r => s.stopRegion r) s
  if now.isEmpty then s else s.rollback (rolls ++ stops)
/-- STRIKE_REPORT (R366). -/
def execStrikeReport (die : Option DieId) (zone : Nat) (s : State) : Out := when_ s (decide (zone ≤ 32)) (s.strike die zone)

/-! Notices and freezes -/

/-- The word that a read of RGNOTE returns (R365). -/
def Notice.word (n : Notice) : Word :=
  BitVec.ofNat 64 (n.code % 512 + 2 ^ 9 + n.facet.val * 2 ^ 10 + n.x % 128 * 2 ^ 12 + n.y % 32 * 2 ^ 19 + n.region % 64 * 2 ^ 24 +
    n.async.toNat * 2 ^ 30 + n.detail.toNat * 2 ^ 32)
/-- The oldest notice of a FIFO is returned and removed; an empty FIFO reads as 0 (R365). -/
def State.takeNotice (s : State) (fifo : NoticeFifo) : State :=
  match fifo with
  | .region r =>
    (match (s.rg r).notices with
    | [] => { s with answer := 0 }
    | n :: l => { s.modRg r (fun g => { g with notices := l, nstat := setFld g.nstat 0 7 l.length }) with answer := n.word })
  | .die d =>
    (match (s.die d).notices with
    | [] => { s with answer := 0 }
    | n :: l => { s.modDie d (fun x => { x with notices := l, nstat := setFld x.nstat 0 7 l.length }) with answer := n.word })
/-- NOTICE_READ (R365). -/
def execNoticeRead (fifo : NoticeFifo) (s : State) : Out := .next (s.takeNotice fifo)
/-- FREEZE_STOP (R396): the 16 cycles have run, and the clocks are gated. -/
def execFreezeStop (r : RegionId) (s : State) : Out :=
  match (s.rg r).freeze with
  | some c => when_ s (decide (c + 16 < s.cycle)) (s.modRg r fun g => { g with dtrig := setBit g.dtrig 28 true })
  | none => .next s
/-- The release of a freeze (R396, R447): the clocks resume, and the latched reports act first. -/
def State.release (s : State) (r : RegionId) : State :=
  let l := (s.rg r).latched
  let s : State := s.modRg r fun g => { g with freeze := none, latched := [], dtrig := setBit g.dtrig 28 false }
  l.foldl (fun s x =>
    let s : State := s.causeRg r 0 (strikeCode x.1) x.2
    if s.strikeEffect x.1 x.2 r = some false then (s.stopRegion r).rollback [r] else s.rollback [r]) s
/-- FREEZE_RELEASE (R447): ignored where no freeze is in force. -/
def execFreezeRelease (r : RegionId) (s : State) : Out := when_ s ((s.rg r).freeze.isSome) (s.release r)

end Sys2Proof.Machine
end

