-- ==== Sys2Proof/Machine/Regions.lean ====
section
/-! DEFINITION. Regions: geometry (R165), resizes (R179, R180), ports and buckets (R167, R169, R427), the slot sequencer (R171 to
R173, R424), quiet facets (R163), seeds (R198) and tenants (R440). -/

namespace Sys2Proof.Machine

/-! Geometry -/

/-- The fields of RGGEOM and RGNEW (R165). -/
def geomMask : Word := 0xBFFF1F7F
/-- A rectangle obeys the limits of R165. -/
def geomOk (w : Word) : Bool :=
  fld w 0 7 % 2 == 0 && fld w 8 5 % 2 == 0 && fld w 16 8 % 2 == 0 && fld w 24 6 % 2 == 0 && decide (4 ≤ fld w 16 8) &&
  decide (4 ≤ fld w 24 6) && decide (fld w 0 7 + fld w 16 8 ≤ 128) && decide (fld w 8 5 + fld w 24 6 ≤ 32)
/-- Two rectangles in force overlap. -/
def rectsMeet (a b : Word) : Bool :=
  bit a 31 && bit b 31 && decide (fld a 0 7 < fld b 0 7 + fld b 16 8) && decide (fld b 0 7 < fld a 0 7 + fld a 16 8) &&
  decide (fld a 8 5 < fld b 8 5 + fld b 24 6) && decide (fld b 8 5 < fld a 8 5 + fld a 24 6)
/-- A rectangle overlaps no other region's RGGEOM or RGNEW rectangle (R165). -/
def State.geomFree (s : State) (r : RegionId) (w : Word) : Bool :=
  (List.finRange 32).all fun q => q == r || (!rectsMeet w (s.rg q).geom && !rectsMeet w (s.rg q).new_)
/-- A load of the region is in progress (R191). -/
def Region.lbusy (g : Region) : Bool := bit g.lqstat 6
/-- RGSTAT.GEOERR (R174). -/
def Region.geoErr (g : Region) : Region := { g with stat := setBit g.stat 2 true }
/-- A write of RGGEOM (R165). -/
def State.writeGeom (s : State) (r : RegionId) (v : Word) : State :=
  let v := v &&& geomMask
  if bit v 31 && !(geomOk v && s.geomFree r v) then s.modRg r fun g => { g with geom := setBit v 31 false }.geoErr
  else s.modRg r fun g => { g with geom := v }
/-- RGGEOM_WRITE (R165); the write waits while LBUSY is 1 (R200). -/
def execRggeomWrite (r : RegionId) (v : Word) (s : State) : Out := when_ s (!(s.rg r).lbusy) (s.writeGeom r v)
/-- The edge of a tile faces out of a rectangle (R167). -/
def onSide (w : Word) (t : Tile) (edge : Nat) : Bool :=
  inRect w t && (if edge = 0 then t.y + 1 == fld w 8 5 + fld w 24 6 else if edge = 1 then t.x + 1 == fld w 0 7 + fld w 16 8
    else if edge = 2 then t.y == fld w 8 5 else t.x == fld w 0 7)
/-- A track exists on an edge of a tile (R152). -/
def trackExists (t : Tile) (e : Nat) : Bool :=
  if edgeOf e = 0 then decide (t.y < 31) else if edgeOf e = 2 then decide (0 < t.y)
  else !crosses t e || decide (e % 8 < 4)
/-- Every enabled site of the region lies on the boundary of a rectangle. -/
def Region.sitesOn (g : Region) (w : Word) : Bool :=
  (g.ing ++ g.egr).all fun x => !siteEn x.2 || onSide w (siteTile x.2) (fld x.2 12 2)
/-- Some facet other than IFAC is quiet, to take the remapped placement (R179). -/
def Region.spareFacet (g : Region) : Bool := (List.finRange 4).any fun f => f != g.ifac && g.fquiet f
/-- A write of RGNEW (R179); one that is refused leaves VALID at 0, as R165 has it for both registers. -/
def State.writeNew (s : State) (r : RegionId) (v : Word) : State :=
  let v := v &&& geomMask
  if !bit v 31 then s.modRg r fun g => { g with new_ := v, resize := none }
  else if (s.rg r).valid && geomOk v && s.geomFree r v && (s.rg r).spareFacet && (s.rg r).sitesOn v then
    s.modRg r fun g => { g with new_ := v, resize := some g.ifac }
  else s.modRg r fun g => { g with new_ := setBit v 31 false, resize := none }.geoErr
/-- RGNEW_WRITE (R179); the write waits while LBUSY is 1 (R200). -/
def execRgnewWrite (r : RegionId) (v : Word) (s : State) : Out := when_ s (!(s.rg r).lbusy) (s.writeNew r v)
/-- The end of a resize (R180): RGNEW becomes RGGEOM, and the given-up tiles are free. -/
def Region.resized (g : Region) : Region := { g with geom := g.new_, new_ := setBit g.new_ 31 false, resize := none }
/-- RESIZE_COMPLETE (R180): the swap away from the old facet has taken place, and the facet has become quiet. -/
def execResizeComplete (r : RegionId) (s : State) : Out :=
  match (s.rg r).resize with
  | some f => when_ s (bit (s.rg r).new_ 31 && (s.rg r).ifac != f && (s.rg r).fquiet f) (s.modRg r Region.resized)
  | none => .next s

/-! Ports and buckets -/

/-- A bucket register after reset: RATE and CAP 1,024, DEPTH 16 (R169). -/
def bucketReset : Word := 0x1004000400
def Region.bucketOf (g : Region) (p : Nat) : Word := tget g.bucket p bucketReset
def bucketRate (w : Word) : Nat := min (fld w 0 11) (fld w 16 11)
def bucketDepth (w : Word) : Nat := max 1 (fld w 32 8)
/-- Another enabled port of the same direction uses the site (R167). -/
def State.siteUsed (s : State) (r : RegionId) (dir : PortDir) (p : Nat) (v : Word) : Bool :=
  (List.finRange 32).any fun q => (match dir with
    | .ingress => (s.rg q).ing
    | .egress => (s.rg q).egr).any fun x =>
      !(q == r && x.1 == p) && siteEn x.2 && siteTile x.2 == siteTile v && siteTrack x.2 == siteTrack v
/-- The site is valid: on the boundary, facing out, on a track that exists (R167). -/
def Region.siteValid (g : Region) (v : Word) : Bool :=
  g.valid && onSide g.geom (siteTile v) (fld v 12 2) && trackExists (siteTile v) (siteTrack v)
/-- A port write is refused (R167). -/
def State.portRefused (s : State) (r : RegionId) (dir : PortDir) (p : Nat) (v : Word) : Bool :=
  bit v 19 || (siteEn v && (!(s.rg r).siteValid v || s.siteUsed r dir p v))
/-- The region with a port register written; EN going to 1 fills the bucket (R169). -/
def Region.putPort (g : Region) (dir : PortDir) (p : Nat) (v : Word) : Region :=
  match dir with
  | .ingress => g.restamp fun g =>
      { g with ing := tset g.ing p v,
               credit := if siteEn v && !siteEn (g.ingOf p) then tset g.credit p (bucketDepth (g.bucketOf p) * 1024) else g.credit }
  | .egress => { g with egr := tset g.egr p v }
/-- A write of an ingress or egress port register (R167): MODE and FIXF of an egress port are checked and not kept. -/
def State.writePort (s : State) (r : RegionId) (dir : PortDir) (p : Nat) (v : Word) : State :=
  let kept := v &&& (match dir with
    | .ingress => 0x3FFFFF
    | .egress => 0x3FFFF)
  if s.portRefused r dir p v then s.modRg r Region.geoErr else s.modRg r (·.putPort dir p kept)
/-- PORT_REGISTER_WRITE (R167). -/
def execPortRegisterWrite (r : RegionId) (dir : PortDir) (p : Fin 64) (v : Word) (s : State) : Out := .next (s.writePort r dir p.val v)
/-- A bucket with a new RATE. -/
def Region.setRate (g : Region) (p : Nat) (rate : Nat) : Region := { g with bucket := tset g.bucket p (setFld (g.bucketOf p) 0 11 rate) }
/-- The last sample of a die's monitors was a warning (R457). -/
def Die.hot (x : Die) : Bool := decide (fld x.hmon 28 10 ≤ fld x.hmon 0 10)
/-- What RATE may be at most: CAP (R427), and CAP / 2 while the die's samples warn (R457). -/
def State.rateMax (s : State) (r : RegionId) (p : Nat) : Nat :=
  let cap := fld ((s.rg r).bucketOf p) 16 11
  if (s.die (siteTile ((s.rg r).ingOf p)).die).hot then cap / 2 else cap
/-- RATE_UPDATE (R427). -/
def execRateUpdate (r : RegionId) (p : Fin 64) (rate : BitVec 11) (s : State) : Out :=
  when_ s (decide (rate.toNat ≤ s.rateMax r p.val)) (s.modRg r (·.setRate p.val rate.toNat))
/-- The credit of a port in a new cycle (R169). -/
def Region.refill (g : Region) : Region :=
  { g with credit := g.ing.foldl (fun c x =>
      if siteEn x.2 then tset c x.1 (min (tget c x.1 0 + bucketRate (g.bucketOf x.1)) (bucketDepth (g.bucketOf x.1) * 1024)) else c) g.credit }

/-! Quiet facets -/

/-- FQUIET bit f becomes 1 (R163); a facet that drains becomes idle (R452). -/
def Region.setQuiet (g : Region) (f : Facet) : Region :=
  let g := { g with ctl := setBit g.ctl (8 + f.val) true }
  if g.phase f = 4 then g.setPhase f 0 else g
/-- FQUIET_SET (R163). -/
def execFquietSet (r : RegionId) (f : Facet) (s : State) : Out :=
  when_ s (!(s.rg r).fquiet f && decide (32 ≤ (s.rg r).quiet.get f) && s.quietNow r f) (s.modRg r (·.setQuiet f))

/-! The slot sequencer -/

/-- The dies on which a region has tiles. -/
def Region.dies (g : Region) : List DieId := (List.finRange 8).filter fun d => g.tiles.any fun t => t.die == d
def Region.swapHead (g : Region) : Nat := fld g.ctl 12 6
/-- The facet that the head entry names. -/
def Region.swapFac (g : Region) : Facet := Fin.ofNat 4 (fld (tget g.swapfc g.swapHead 0) 0 2)
/-- The head entry is valid and the schedule runs (R171). -/
def Region.swapRuns (g : Region) : Bool := bit g.ctl 18 && bit (tget g.swapfc g.swapHead 0) 7
/-- The dies that consume the head entry in this cycle, by their own counters (R171, R424). -/
def State.swapDue (s : State) (r : RegionId) : List DieId :=
  let g := s.rg r
  if g.swapRuns then g.dies.filter fun d => !g.swapped.contains d && decide ((tget g.swaptm g.swapHead 0).toNat ≤ (s.die d).time) else []
/-- IFAC takes a facet. -/
def Region.setIfac (g : Region) (f : Facet) : Region := g.restamp fun g => { g with ctl := setFld g.ctl 1 2 f.val }
/-- The head entry is consumed (R171). -/
def Region.consumeSwap (g : Region) : Region :=
  { g with swapfc := tset g.swapfc g.swapHead (setBit (tget g.swapfc g.swapHead 0) 7 false), swapped := [],
           ctl := setFld g.ctl 12 6 (g.swapHead + 1) }
/-- The head entry falls due on some dies (R172, R424): the facet is refused where it is not loaded, and taken by the region once
every die has consumed the entry. -/
def State.swapStep (s : State) (r : RegionId) (due : List DieId) : State :=
  let g := s.rg r
  let f := g.swapFac
  if f ≠ g.ifac && !g.floaded f then
    (s.modRg r fun g => g.restamp fun g => { g.consumeSwap with stat := setBit g.stat 0 true }).causeRg r g.ifac causeSwapUnloaded g.swapHead
  else if g.dies.all (fun d => (g.swapped ++ due).contains d) then s.modRg r fun g => g.consumeSwap.setIfac f
  else s.modRg r fun g => g.restamp fun g => { g with swapped := g.swapped ++ due }
/-- SWAP_DUE (R172). -/
def execSwapDue (r : RegionId) (s : State) : Out := when_ s (!(s.swapDue r).isEmpty) (s.swapStep r (s.swapDue r))
/-- The slot of R173 in which a device time lies. -/
def slotAt (time : Nat) : Nat := time / 1000 % 64
/-- SLOT_BOUNDARY (R173, R424): the dies of the region take up the slot of their own counters. -/
def execSlotBoundary (r : RegionId) (s : State) : Out :=
  .next ((s.rg r).dies.foldl (fun s d => s.modDie d fun x => { x with slot := slotAt x.time }) s)

/-! Seeds (R198) -/

/-- A write of SEEDT: a seed enters the FIFO of its port. A token of kind mark sets KERR alone, also where the FIFO is full (DESIGN CHOICE,
log 64). -/
def Region.pushSeed (g : Region) (p : Nat) (v : Word) : Region :=
  let l := tget g.seeds p []
  let st := tget g.seedst p 0
  if fld v 4 2 = kMark then { g with seedst := tset g.seedst p (setBit st 6 true) }
  else if 16 ≤ l.length then { g with seedst := tset g.seedst p (setBit st 5 true) }
  else { g with seeds := tset g.seeds p (l ++ [⟨tget g.seedd p 0, BitVec.ofNat 8 (fld v 0 6)⟩]),
                seedst := tset g.seedst p (setFld st 0 5 (l.length + 1)) }
/-- SEEDT_PUSH (R198). -/
def execSeedtPush (r : RegionId) (p : Fin 64) (v : Word) (s : State) : Out := .next (s.modRg r (·.pushSeed p.val v))
def Region.flushSeeds (g : Region) (p : Nat) : Region :=
  { g with seeds := tset g.seeds p [], seedst := tset g.seedst p (setFld (tget g.seedst p 0) 0 5 0) }
/-- SEED_FLUSH (R198). -/
def execSeedFlush (r : RegionId) (p : Fin 64) (s : State) : Out := .next (s.modRg r (·.flushSeeds p.val))

/-! Tenants -/

/-- A write of RGTEN (R440): the tenant, and a counter bank of 0. -/
def Region.writeTen (g : Region) (v : Word) : Region := { g with ten := v &&& 0xF, counters := Vector.replicate 4 0 }
/-- RGTEN_WRITE (R440). -/
def execRgtenWrite (r : RegionId) (v : Word) (s : State) : Out := .next (s.modRg r (·.writeTen v))

end Sys2Proof.Machine
end

