-- ==== Sys2Proof/Machine/Walks.lean ====
section
/-! DEFINITION. Steps of translation (R262 to R274): the end of a walk, migration timeouts, translation commands, pin queries, and
cancels (R224). -/

namespace Sys2Proof.Machine

/-- The requester of a walk still waits for it (R276: the wake of a discarded access is dropped). -/
def State.walkWanted (s : State) (w : Walk) : Bool :=
  match w.for_ with
  | .elem t => (match (s.el t).act with
    | some a => a.wait == .walk w.id
    | none => false)
  | _ => !s.halted w.region
def State.delWalk (s : State) (id : Nat) : State := { s with walks := s.walks.filter fun w => w.id != id }
/-- The length and first address of the run that a leaf gives (R263). -/
def Leaf.extent (l : Leaf) : Extent := ⟨l.va, 2 ^ l.bits, leafPa l.word, l.word⟩
/-- A leaf is written into a generator's extent slots in round-robin order: the slot written longest ago is replaced (R264). A slot that was
cleared has length 0. -/
def Gen.addExtent (g : Gen) (e : Extent) : Gen :=
  if g.extents.length < 8 then { g with extents := g.extents ++ [e] }
  else { g with extents := g.extents.set (g.slot % 8) e, slot := (g.slot + 1) % 8 }
def State.modGen (s : State) (t : Tile) (f : Facet) (g : Fin 4) (h : Gen → Gen) : State :=
  s.modMtFac t f fun x => { x with gens := vmod x.gens g h }
/-- A walk ends in a resident leaf: an extent or the edge TLB is filled, and the held access goes on (R264 to R266). -/
def State.walkLeaf (s : State) (w : Walk) (l : Leaf) : State :=
  let s := s.delWalk w.id
  match w.for_ with
  | .gen t f g => s.modGen t f g (·.addExtent l.extent)
  | .engine _ _ => s.modDie w.die fun d => { d with tlb := tlbInsert d.tlb l }
  | .elem t =>
    let s := s.modDie w.die fun d => { d with tlb := tlbInsert d.tlb l }
    match (s.el t).act with
    | some a => if a.wait = .walk w.id then s.setAct t { a with wait := .none } else s
    | none => s
/-- A walk refuses its access: an element traps at issue (R227), an engine's command will end with status 5 (R267). -/
def State.walkRefuse (s : State) (w : Walk) (code : Nat) : State :=
  match w.for_ with
  | .elem t =>
    let s := s.delWalk w.id
    (match (s.el t).act with
    | some a => if a.wait = .walk w.id then s.trap t a code (BitVec.ofNat 64 w.va) else s
    | none => s)
  | _ => if !s.walkWanted w then s.delWalk w.id else { s with walks := s.walks.map fun x => if x.id = w.id then { x with result := some code } else x }
/-- TABLE_WALK_COMPLETE (R262): the walk ends with a leaf, a refusal or a fault, or holds on MLOCK. -/
def execTableWalkComplete (id : Nat) (s : State) : Out :=
  match s.walks.find? (fun w => w.id == id) with
  | none => .next s
  | some w =>
    let out := s.walk w.region w.va
    let s := s.noteWalk w.region w.facet w.va
    let fault (code kind aff bits : Nat) : State :=
      if s.walkWanted w then ((s.delWalk id).commitFirst w.region).majorFault w.region w.facet w.va code kind aff bits else s.delWalk id
    if w.held.isSome || w.result.isSome then .next s
    else match out with
      | .leaf l => .next (if permOk l.word w.need then s.walkLeaf w l else s.walkRefuse w causePermission)
      | .refuse c => .next (s.walkRefuse w c)
      | .hold => .next { s with walks := s.walks.map fun x => if x.id = id then { x with held := some (s.die w.die).time } else x }
      | .node bits => .next (fault causeTableNode 1 0 bits)
      | .major aff bits => .next (fault causePageFault 0 aff bits)
/-- MIGRATION_TIMEOUT (R269): a hold of 1,024 microseconds acts as a major fault. -/
def execMigrationTimeout (id : Nat) (s : State) : Out :=
  match s.walks.find? (fun w => w.id == id) with
  | none => .next s
  | some w =>
    match w.held with
    | none => .next s
    | some t0 =>
      if t0 + 1024000 ≤ (s.die w.die).time then
        let aff := s.affFrom w.va 4 (fld (s.rg w.region).trr 13 39 * 2 ^ 13)
        .next (if s.walkWanted w then ((s.delWalk id).commitFirst w.region).majorFault w.region w.facet w.va causeMigration 2 aff.1 aff.2
          else s.delWalk id)
      else .next s

/-! Translation commands (R273) -/

/-- Fields of TRCMD that a write stores. -/
def trcmdKeep : Word := 0x3FFFFFFFFFFF0F33
/-- The dies on which a command acts. -/
def trDies (d : DieId) (v : Word) : List DieId := if bit v 4 then List.finRange 8 else [d]
def trAsid (v : Word) : Nat := fld v 8 4
/-- The range of a command: first byte and length. -/
def trLo (v : Word) : Nat := fld v 16 40 * 2 ^ 16
def trLen (v : Word) : Nat := 2 ^ (fld v 56 6 + 16)
def rangesMeet (a n b m : Nat) : Bool := decide (a < b + m) && decide (b < a + n)
/-- A command is accepted: its fields are stored, and BUSY is set. -/
def State.trBusy (s : State) (d : DieId) (v : Word) : State :=
  s.modDie d fun x => { x with trcmd := setBit (v &&& trcmdKeep) 3 true }
/-- The ASID of the region that owns a tile. -/
def State.tileAsid (s : State) (t : Tile) : Option Nat := (s.regionOf t).map fun r => fld (s.rg r).trr 52 4
/-- Every generator of an MT, of every facet, changed by a function. -/
def MemTile.mapGens (m : MemTile) (f : Gen → Gen) : MemTile :=
  { m with facets := m.facets.map fun x => { x with gens := x.gens.map f } }
/-- The edge TLB entries of an ASID that a predicate names leave on some dies, and the generators there with such an extent pause. -/
def State.invalidate (s : State) (ds : List DieId) (asid : Nat) (hit : Nat → Nat → Bool) : State :=
  let s := ds.foldl (fun s d => s.modDie d fun x => { x with tlb := x.tlb.filter fun l => !(l.asid == asid && hit l.va (2 ^ l.bits)) }) s
  { s with mts := s.mts.map fun kv =>
      let t : Tile := ⟨kv.1 / 32, kv.1 % 32⟩
      if ds.contains t.die && s.tileAsid t == some asid then
        (kv.1, kv.2.mapGens fun g => if g.extents.any (fun e => decide (0 < e.len) && hit e.va e.len) then { g with paused := true } else g)
      else kv }
/-- A command may start: GO is 1 and BUSY is 0. -/
def State.trFree (s : State) (d : DieId) (v : Word) : Bool := bit v 2 && !bit (s.die d).trcmd 3
def State.trRange (s : State) (d : DieId) (v : Word) : State :=
  if fld v 56 6 ≤ 40 then (s.trBusy d v).invalidate (trDies d v) (trAsid v) (rangesMeet (trLo v) (trLen v)) else s.trBusy d v
def State.trAsidAll (s : State) (d : DieId) (v : Word) : State := (s.trBusy d v).invalidate (trDies d v) (trAsid v) (fun _ _ => true)
/-- The walk was held on MLOCK in an earlier cycle. -/
def State.heldEarlier (s : State) (w : Walk) : Bool :=
  match w.held with
  | some t => decide (t < (s.die w.die).time)
  | none => false
/-- Walks held on MLOCK since an earlier cycle restart (R269, R276), those of completion words too (R197). -/
def State.trWake (s : State) (d : DieId) (v : Word) : State :=
  let s := s.trBusy d v
  let named (r : RegionId) (va : Nat) : Bool := bit v 5 || (fld (s.rg r).trr 52 4 == trAsid v && rangesMeet (trLo v) (trLen v) va 1)
  let s := (List.finRange 32).foldl (fun s r =>
    if (s.rg r).cw.isEmpty then s
    else
      let at_ := (s.rg r).corner.die
      let wake (c : CwStore) : CwStore :=
        if (trDies d v).contains at_ && c.held.any (fun t => decide (t < (s.die at_).time)) && named r (c.va % 2 ^ 56) then { c with held := none } else c
      s.modRg r fun g => { g with cw := g.cw.map wake }) s
  { s with walks := s.walks.map fun w =>
      if (trDies d v).contains w.die && s.heldEarlier w &&
        named w.region w.va then { w with held := none } else w }
/-- TRCMD_INVALIDATE_RANGE (R273). -/
def execTrcmdInvalidateRange (d : DieId) (v : Word) (s : State) : Out := when_ s (s.trFree d v && fld v 0 2 == 0) (s.trRange d v)
/-- TRCMD_INVALIDATE_ASID (R273). -/
def execTrcmdInvalidateAsid (d : DieId) (v : Word) (s : State) : Out := when_ s (s.trFree d v && fld v 0 2 == 1) (s.trAsidAll d v)
/-- TRCMD_WAKE (R273). -/
def execTrcmdWake (d : DieId) (v : Word) (s : State) : Out := when_ s (s.trFree d v && fld v 0 2 == 2) (s.trWake d v)
/-- A leaf word without its physical address. -/
def leafAttr (w : Word) : Word := w &&& ~~~0xFFFFFFFFF0000#64
/-- The pages of an extent from an offset on, walked anew: the length up to which they continue the run of its first page, or none where
a page's walk ends other than in a resident leaf. -/
def State.rewalkFrom (s : State) (r : RegionId) (e : Extent) : Nat → Nat → Option Nat
  | 0, off => some (min off e.len)
  | n + 1, off =>
    if e.len ≤ off then some e.len
    else match s.walk r (e.va + off) with
      | .leaf l =>
        let joins := l.pa (e.va + off) == e.pa + off && leafAttr l.word == leafAttr e.word
        let next := off + (2 ^ l.bits - (e.va + off) % 2 ^ l.bits)
        (match s.rewalkFrom r e n next with
        | some m => some (if joins then m else off)
        | none => none)
      | _ => none
/-- An extent walked anew in place (R273): cleared where a walk of it ends other than in a resident leaf, and cut where its pages no longer
continue one run (DEDUCED, log 26). -/
def State.rewalkExtent (s : State) (r : RegionId) (e : Extent) : Extent :=
  match s.walk r e.va with
  | .leaf l =>
    let x := { e with pa := l.pa e.va, word := l.word }
    { x with len := (s.rewalkFrom r x (e.len / 2 ^ 16 + 1) 0).getD 0 }
  | _ => { e with len := 0 }
/-- The extents of a paused generator that a command's range meets, walked anew (R273). -/
def State.rewalk (s : State) (r : RegionId) (hit : Nat → Nat → Bool) (g : Gen) : Gen :=
  { g with paused := false, extents := g.extents.map fun e => if 0 < e.len ∧ hit e.va e.len then s.rewalkExtent r e else e }
/-- The range that an invalidation names (R273). -/
def trHit (v : Word) (a n : Nat) : Bool := if fld v 0 2 = 0 then decide (fld v 56 6 ≤ 40) && rangesMeet (trLo v) (trLen v) a n else true
/-- TRCMD_COMPLETE (R273): the paused generators of the dies named have their extents walked anew and resume; BUSY clears. -/
def execTrcmdComplete (d : DieId) (s : State) : Out :=
  let c := (s.die d).trcmd
  when_ s (bit c 3) <|
    let s := s.modDie d fun x => { x with trcmd := setBit x.trcmd 3 false }
    { s with mts := s.mts.map fun kv =>
        let t : Tile := ⟨kv.1 / 32, kv.1 % 32⟩
        match s.regionOf t with
        | some r =>
          if (trDies d c).contains t.die then
            (kv.1, kv.2.mapGens fun g => if g.paused then s.rewalk r (trHit c) g else g)
          else kv
        | none => kv }

/-! Pins and cancels (R224, R274) -/

/-- A request stands in a 64 KiB page. -/
def Req.inPage (q : Req) (page : Nat) : Bool := q.addr / 2 ^ 16 == page
/-- The page holds a deferred request or a hold (R224). -/
def State.pinned (s : State) (page : Nat) : Bool :=
  s.reqs.any (fun q => q.deferred && q.inPage page) || s.holds.any (fun h => h.word / 2 ^ 13 == page)
/-- GO of MCPQ samples PAGE (R274). -/
def State.pinGo (s : State) (d : DieId) (v : Word) : State :=
  s.modDie d fun x => { x with mcpq := setBit (v &&& 0xFFFFFFFFF0000) 1 true, pinSample := s.pinned (fld v 16 36) }
/-- PIN_QUERY (R274): ignored while BUSY. -/
def execPinQuery (d : DieId) (v : Word) (s : State) : Out := when_ s (bit v 0 && !bit (s.die d).mcpq 1) (s.pinGo d v)
/-- PIN_QUERY_COMPLETE (R274). -/
def execPinQueryComplete (d : DieId) (s : State) : Out :=
  when_ s (bit (s.die d).mcpq 1) (s.modDie d fun x => { x with mcpq := setBit (setBit x.mcpq 1 false) 2 x.pinSample })
/-- Every deferred request of a page returns with request-cancelled (R224). -/
def State.cancelPage (s : State) (page : Nat) : State :=
  (s.reqs.filter (fun q => q.deferred && q.inPage page)).foldl (fun s q => (s.undefer q).answerReq q (.cause causeCancelled)) s
/-- GO of MCCAN starts a cancel. -/
def State.cancelGo (s : State) (d : DieId) (v : Word) : State :=
  (s.modDie d fun x => { x with mccan := setBit (v &&& 0xFFFFFFFFF0000) 1 true }).cancelPage (fld v 16 36)
/-- MCCAN_CANCEL (R224): ignored while BUSY. -/
def execMccanCancel (d : DieId) (v : Word) (s : State) : Out := when_ s (bit v 0 && !bit (s.die d).mccan 1) (s.cancelGo d v)
/-- MCCAN_COMPLETE (R224): requests that have come meanwhile are cancelled too; BUSY clears when none remains. -/
def execMccanComplete (d : DieId) (s : State) : Out :=
  let page := fld (s.die d).mccan 16 36
  when_ s (bit (s.die d).mccan 1) <|
    if s.reqs.any (fun q => q.deferred && q.inPage page) then s.cancelPage page
    else s.modDie d fun x => { x with mccan := setBit x.mccan 1 false }

/-! Tables and pagers -/

/-- RGTRR_WRITE (R257): takes effect only while every facet is quiet; otherwise GEOERR. -/
def State.writeTrr (s : State) (r : RegionId) (v : Word) : State :=
  s.modRg r fun g =>
    if fld g.ctl 8 4 = 15 then { g with trr := v &&& 0xFFFFFFFFFFE001 } else { g with stat := setBit g.stat 2 true }
def execRgtrrWrite (r : RegionId) (v : Word) (s : State) : Out := .next (s.writeTrr r v)
/-- REARM (R271): a re-arm while PENDCNT is 0 is ignored. -/
def execRearm (r : RegionId) (s : State) : Out := .next (s.rearm r)
/-- RGMOOR_WRITE (R221): ignored while entries are in use; a write of VALID = 1 starts formatting. -/
def State.writeMoor (s : State) (r : RegionId) (v : Word) : State :=
  s.modRg r fun g => if fld g.mlen 24 24 = 0 then { g with moor := v &&& 0xFFFFFFFFFF001 } else g
def execRgmoorWrite (r : RegionId) (v : Word) (s : State) : Out := .next (s.writeMoor r v)

end Sys2Proof.Machine
end

