-- ==== Sys2Proof/Machine/Frames.lean ====
section
/-! DEFINITION. Frames of a configuration image (R73, R182 to R187, R377): their fields, their checks, what writing one does, and the
checks over a whole image (R158, R263, R300, R377). -/

namespace Sys2Proof.Machine

/-! Fields -/

def frType (k : BitVec 256) : Nat := fld k 252 4
def frFacet (k : BitVec 256) : Nat := fld k 250 2
def frCol (k : BitVec 256) : Nat := fld k 243 7
def frRow (k : BitVec 256) : Nat := fld k 238 5
def frUnit (k : BitVec 256) : Nat := fld k 236 2
def frOff (k : BitVec 256) : Nat := fld k 224 12
def frSub (k : BitVec 256) : Nat := fld k 220 4
/-- The 64-bit word j of a frame. -/
def frWord (k : BitVec 256) (j : Nat) : Word := BitVec.ofNat 64 (fld k (64 * j) 64)
/-- The count of words, handler entries or route entries. -/
def frN (k : BitVec 256) : Nat :=
  if frType k = 3 then fld k 216 4 else if frType k = 1 ∧ frSub k = 1 then fld k 217 3 else fld k 218 2
def frIsHeader (k : BitVec 256) : Bool := frType k == 8 && frSub k == 0
def frIsEnd (k : BitVec 256) : Bool := frType k == 8 && frSub k == 1
/-- A frame that names a tile. -/
def frNamesTile (k : BitVec 256) : Bool := frType k != 8
/-- NFRAMES of a header (R187). -/
def hdrFrames (k : BitVec 256) : Nat := fld k 64 32
/-- Entry j of a route frame, and value j of a handler frame. -/
def frRoute (k : BitVec 256) (j : Nat) : BitVec 16 := BitVec.ofNat 16 (fld k (16 * j) 16)
def frHandler (k : BitVec 256) (j : Nat) : BitVec 32 := BitVec.ofNat 32 (fld k (32 * j) 32)

/-! Checks of one frame -/

/-- The type and the subtype are defined (LDERR 1). -/
def frKnown (k : BitVec 256) : Bool :=
  if frType k = 1 then frSub k ≤ 4 else if frType k = 2 then frSub k ≤ 1 else if frType k = 3 then frUnit k ≤ 1
  else if frType k = 4 then true else frType k == 8 && frSub k ≤ 4
/-- The tile kind agrees with the type (LDERR 4). -/
def frKindOk (k : BitVec 256) : Bool :=
  if frType k = 1 then (frCol k + frRow k) % 2 == 0 else if frType k = 2 ∨ frType k = 4 then (frCol k + frRow k) % 2 == 1 else true
/-- The bit ranges that a frame's layout reserves (LDERR 2), with the unit and the offset that a memory-tile frame and the place that a
region-control frame must hold at 0: for these the spec names no code (DESIGN CHOICE, log 64). -/
def frReserved (k : BitVec 256) : List (Nat × Nat) :=
  if frType k = 1 then
    (if frSub k = 0 then (192, 26) :: ((List.range 3).filter (fun j => decide (frN k ≤ j))).map (fun j => (64 * j, 64))
     else if frSub k = 1 then (192, 25) :: (List.range (min 6 (frN k))).map (fun j => (32 * j + 24, 8))
     else if frSub k = 2 then [(192, 26)]
     else if frSub k = 3 then [(192, 13)]
     else [(33, 7), (63, 1), (66, 62), (192, 28)])
  else if frType k = 2 then
    [(236, 2), (224, 12)] ++ (if frSub k = 0 then [(217, 1), (195, 5)] else [(40, 24), (81, 139)])
  else if frType k = 3 then
    (220, 4) :: (if frUnit k = 0 then (208, 8) :: (List.range (min 13 (frN k))).map (fun j => (16 * j + 10, 6)) else [(224, 12), (16, 204)])
  else if frType k = 4 then (192, 32) :: (if frOff k = 0 then [(97, 31), (129, 63)] else [])
  else
    [(236, 2), (224, 12), (243, 7), (238, 5)] ++
    (if frSub k = 0 then [(26, 6), (46, 18), (96, 124)] else if frSub k = 1 then [(64, 156)] else if frSub k = 2 then [(10, 210)]
     else if frSub k = 3 then (192, 28) :: (List.range 6).map (fun j => (32 * j + 29, 3)) else [(208, 12)])
def frReservedOk (k : BitVec 256) : Bool := (frReserved k).all fun x => fld k x.1 x.2 == 0
/-- A register index of R183. -/
def regIndexOk (i : Nat) : Bool :=
  (decide (1 ≤ i) && decide (i ≤ 0x3F)) || (decide (0x100 ≤ i) && decide (i < 0x200)) || (decide (0x201 ≤ i) && decide (i ≤ 0x207))
/-- Two windows of instruction indices overlap the range of a frame. -/
def winHits (base lim off n : Nat) : Bool := decide (0 < lim) && decide (base < off + n) && decide (off < base + lim)
/-- No word of an instruction frame lies in the window of another facet that is enabled in the element (R74). -/
def winFree (e : Element) (f : Facet) (k : BitVec 256) : Bool :=
  (List.finRange 4).all fun g => g == f || !bit e.fenable g.val || !winHits (e.fac g).isbase.toNat (e.fac g).islim.toNat (frOff k) (frN k)
/-- A compute frame's unit and offset, counts, indices and windows (R74, R183, LDERR 5): fe is the facet as the image's earlier frames
leave it. -/
def computeOk (e : Element) (fe : FacetEl) (f : Facet) (k : BitVec 256) : Bool :=
  let n := frN k
  let o := frOff k
  frUnit k == 0 &&
  if frSub k = 0 then
    decide (1 ≤ n) && decide (o + n ≤ 2048) && decide (fe.isbase.toNat ≤ o) && decide (o + n ≤ fe.isbase.toNat + fe.islim.toNat) &&
    winFree e f k
  else if frSub k = 1 then decide (1 ≤ n) && decide (n ≤ 6) && decide (o + n ≤ 64)
  else if frSub k = 2 then
    decide (1 ≤ n) && (List.range n).all fun j => regIndexOk (o + j) && (o + j < 0x200 || fld (frWord k j) 17 47 == 0)
  else if frSub k = 3 then
    let top := 8 * (fld k 205 13 + n)
    o == 0 && decide (1 ≤ n) && decide (top ≤ fe.actlim.toNat) && decide (fe.actbase.toNat + top ≤ 0x10000)
  else o == 0 && fld k 0 3 == 0 && fld k 16 3 == 0 && decide (fld k 16 17 ≤ 0x10000) && decide (fld k 51 12 ≤ 2048) &&
    decide (fld k 40 11 + fld k 51 12 ≤ 2048)
/-- Two port-triggered handlers of a facet share a port (R23, LDERR 6). -/
def handlersClash (fe : FacetEl) : Bool :=
  (List.finRange 64).any fun a => (List.finRange 64).any fun b => decide (a < b) && (fe.handlers.get a).trig == 1 &&
    (fe.handlers.get b).trig == 1 && (fe.handlers.get a).port == (fe.handlers.get b).port
/-- A mode frame's fields (R184, R209). -/
def modeOf (k : BitVec 256) : MtMode := ⟨fld k 0 2, fld k 2 3, fld k 5 17, fld k 22 18, fld k 64 17⟩
def modeOk (m : MtMode) : Bool :=
  decide (m.mode < 3) && (m.mode == 0 || m.nbuf == 0) && decide (1 ≤ m.msize) && decide (m.mbase + m.msize ≤ 131072) &&
  (if m.mode = 0 then decide (1 ≤ m.bufw) && decide (m.bufw ≤ 65536) && decide ((m.nbuf + 1) * m.bufw ≤ m.msize)
   else if m.mode = 1 then m.bufw == 0
   else decide (1 ≤ m.bufw) && decide (m.bufw ≤ 65536) && m.msize % m.bufw == 0)
/-- An area overlaps the area of another facet that is loaded (R184). -/
def areaClash (g : Region) (mt : MemTile) (f : Facet) (m : MtMode) : Bool :=
  (List.finRange 4).any fun h => h != f && g.floaded h && (match (mt.fac h).mode with
    | some x => decide (m.mbase < x.mbase + x.msize) && decide (x.mbase < m.mbase + m.msize)
    | none => false)
/-- A memory-tile frame (LDERR 8); mode is what the image's earlier frames give the facet. -/
def memTileOk (g : Region) (mt : MemTile) (f : Facet) (mode : Option MtMode) (k : BitVec 256) : Bool :=
  if frSub k = 0 then
    decide (1 ≤ frN k) && (match mode with
    | some m => decide (m.mbase ≤ fld k 200 17) && decide (fld k 200 17 + frN k ≤ m.mbase + m.msize)
    | none => false)
  else modeOk (modeOf k) && !areaClash g mt f (modeOf k)
/-- A generator frame's own fields (R186, LDERR 8): no level of a group has EXTENT 0, and an area base lies in the area that an earlier mode
frame gives. -/
def agFrameOk (mode : Option MtMode) (k : BitVec 256) : Bool :=
  if frOff k = 0 then
    fld k 56 3 != 7 && decide (1 ≤ fld k 59 3) && decide (fld k 59 3 ≤ 6) && fld k 62 2 != 3 &&
    (!bit k 128 || mode.all fun m => decide (fld k 0 56 < m.msize))
  else frOff k ≤ 2 && (List.range 3).all fun j => fld k (64 * j) 24 != 0
/-- An enabled egress site of the region stands on an outgoing entry, and an ingress site on an incoming track. -/
def Region.hasEgress (g : Region) (t : Tile) (e : Nat) : Bool := (g.egressAt t e).isSome
def Region.hasIngress (g : Region) (t : Tile) (src : Nat) : Bool := (g.ingressAt t src).isSome
/-- A route entry keeps R153, R154, R152 and the MT's ports (R158, R328). -/
def entryOk (t : Tile) (e : Nat) (v : BitVec 16) : Bool :=
  let x := fld v 0 6
  let slots := fld v 6 4
  if x = 0x3F then e < 32 || slots == 0
  else
  ((x < 0x20 || (x < 0x30 && e < 32 && (t.isCT || x < 0x28)) || ((x == 0x30 || x == 0x31) && 32 ≤ e)) &&
   (0x20 ≤ x || trackExists t x) &&
   (if 32 ≤ e then slots == 0 && (t.isCT || e < 41) else trackExists t e && (slots != 0 || !crosses t e)))
/-- A route entry of a region tile keeps R168: it leaves and enters the target rectangle at sites only. -/
def entrySited (g : Region) (rect : Word) (t : Tile) (e : Nat) (v : BitVec 16) : Bool :=
  let x := fld v 0 6
  x == 0x3F ||
  ((32 ≤ e || !onSide rect t (edgeOf e) || g.hasEgress t e) && (0x20 ≤ x || !onSide rect t (edgeOf x) || g.hasIngress t x))
/-- A route-entry frame (R185, LDERR 7). -/
def switchOk (g : Region) (rect : Word) (t : Tile) (k : BitVec 256) : Bool :=
  frUnit k == 1 ||
  (decide (1 ≤ frN k) && decide (frN k ≤ 13) && decide (frOff k + frN k ≤ 48) &&
   (List.range (frN k)).all fun j => entryOk t (frOff k + j) (frRoute k j) && entrySited g rect t (frOff k + j) (frRoute k j))

/-! Writing a frame -/

/-- A register of R183. -/
def Bank.load (b : Bank) (i : Nat) (v : Word) : Bank :=
  if i < 0x100 then b.wg (BitVec.ofNat 6 i) v
  else if i < 0x200 then
    let n : BitVec 5 := BitVec.ofNat 5 ((i - 0x100) / 8)
    b.wv n (setFld (b.rv n) (64 * (i % 8)) 64 v.toNat)
  else b.wp (BitVec.ofNat 3 i) (PReg.ofWord v)
/-- A local word becomes full with a value (R10); handlers that await it full are released, whatever its tag was, as at a commit that fills
it, which is all that R36 speaks of (DESIGN CHOICE, log 63). -/
def State.loadLocal (s : State) (t : Tile) (off : Nat) (v : Word) : State :=
  let a := localBase t + off
  let s : State := { s with mem := ((s.mem.write a 8 v.toNat).setFull a true).setPoison a false }
  s.unmoor t (a / 8) true
/-- The window registers of a window frame. -/
def FacetEl.loadWindow (fe : FacetEl) (k : BitVec 256) : FacetEl :=
  { fe with actbase := BitVec.ofNat 16 (fld k 0 16), actlim := BitVec.ofNat 17 (fld k 16 17), isbase := BitVec.ofNat 11 (fld k 40 11),
            islim := BitVec.ofNat 12 (fld k 51 12), framed := true, rmode := BitVec.ofNat 2 (fld k 64 2), masks := frWord k 2 }
/-- A compute frame is written. -/
def State.writeCompute (s : State) (t : Tile) (f : Facet) (k : BitVec 256) : State :=
  let js := List.range (frN k)
  if frSub k = 0 then s.modEl t fun e => { e with istore := js.foldl (fun i j =>
      if frWord k j = 0 then tdel i (frOff k + j) else tset i (frOff k + j) (frWord k j)) e.istore }
  else if frSub k = 1 then s.modFac t f fun fe => { fe with handlers := js.foldl (fun h j =>
      vset h (Fin.ofNat 64 (frOff k + j)) { Handler.reset with entry := frHandler k j }) fe.handlers }
  else if frSub k = 2 then s.modFac t f fun fe => { fe with bank := js.foldl (fun b j => b.load (frOff k + j) (frWord k j)) fe.bank }
  else if frSub k = 3 then
    let base := ((s.el t).fac f).actbase.toNat + 8 * fld k 205 13
    js.foldl (fun s j => s.loadLocal t (base + 8 * j) (frWord k j)) s
  else s.modFac t f (·.loadWindow k)
/-- A memory-tile frame is written. -/
def State.writeMemTile (s : State) (t : Tile) (f : Facet) (k : BitVec 256) : State :=
  if frSub k = 0 then
    (List.range (frN k)).foldl (fun s j =>
      let a := mtBase t + 8 * (fld k 200 17 + j)
      let s : State := { s with mem := (s.mem.write a 8 (frWord k j).toNat).setPoison a false }
      s.setTag (a / 8) (bit k (192 + j)) f (s.regionOf t)) s
  else s.modMtFac t f fun x => { x with mode := some (modeOf k), wp := 0, rp := 0 }
/-- A switch frame is written. -/
def State.writeSwitch (s : State) (t : Tile) (f : Facet) (k : BitVec 256) : State :=
  let b := s.sw t
  if frUnit k = 1 then s.setSw t { b with cidrid := vset b.cidrid f (some (BitVec.ofNat 16 (fld k 0 16))) }
  else s.setSw t { b with routes := vmod b.routes f fun m => (List.range (frN k)).foldl (fun m j =>
    if frRoute k j = 0x003F then tdel m (frOff k + j) else tset m (frOff k + j) (frRoute k j)) m }
/-- A generator frame is written. -/
def State.writeAg (s : State) (t : Tile) (f : Facet) (k : BitVec 256) : State :=
  s.modGen t f (Fin.ofNat 4 (frUnit k)) fun g => { g with cfg := vset g.cfg (Fin.ofNat 3 (frOff k)) (some (BitVec.ofNat 192 (fld k 0 192))) }
/-- A frame is written into facet f of a tile. -/
def State.writeFrame (s : State) (t : Tile) (f : Facet) (k : BitVec 256) : State :=
  let s : State := if t.isCT || !frNamesTile k then s else s.modMtFac t f fun x => { x with framed := true }
  if frType k = 1 then s.writeCompute t f k
  else if frType k = 2 then s.writeMemTile t f k
  else if frType k = 3 then s.writeSwitch t f k
  else if frType k = 4 then s.writeAg t f k else s
/-- A signed slot of a conservation frame. -/
def consSlot (k : BitVec 256) (j : Nat) : Nat × Int := (fld k (16 * j) 7, sfld k (16 * j + 7) 9)
/-- A slot of a back-port frame: tile within the region and mask. -/
def backSlot (k : BitVec 256) (j : Nat) : Option (Nat × Nat) :=
  if bit k (32 * j + 28) then some (fld k (32 * j) 7 * 32 + fld k (32 * j + 7) 5, fld k (32 * j + 12) 16) else none
/-- A reliability control frame is kept by the region (R377). -/
def TideCfg.load (c : TideCfg) (k : BitVec 256) : TideCfg :=
  if frSub k = 2 then { c with lock := bit k 0, consen := bit k 1, tol := fld k 2 8 }
  else if frSub k = 3 then { c with backPorts := c.backPorts ++ (List.range 6).filterMap (backSlot k) }
  else if frSub k = 4 then { c with weights := c.weights ++ ((List.range 13).map (consSlot k)).filter fun x => x.2 != 0 }
  else c

/-! The whole image -/

/-- The frames of an image over its target rectangle. -/
structure Img where
  frames : List (BitVec 256)
  rect : Word
  deriving DecidableEq, Repr
/-- The facet of an element as the compute frames of an image leave it, from its cleared state on (R194). -/
def loadedEl (l : List (BitVec 256)) : FacetEl :=
  l.foldl (fun fe k =>
    if frType k = 1 ∧ frSub k = 4 then fe.loadWindow k
    else if frType k = 1 ∧ frSub k = 1 then { fe with handlers := (List.range (frN k)).foldl (fun h j =>
      vset h (Fin.ofNat 64 (frOff k + j)) { Handler.reset with entry := frHandler k j }) fe.handlers }
    else fe) FacetEl.reset
/-- The mode that the frames of an image give a memory tile. -/
def loadedMode (l : List (BitVec 256)) : Option MtMode := ((l.filter fun k => frType k == 2 && frSub k == 1).getLast?).map modeOf
def Img.tileOf (m : Img) (k : BitVec 256) : Tile := ⟨fld m.rect 0 7 + frCol k, fld m.rect 8 5 + frRow k⟩
/-- Route entry e of a tile, as the image leaves it. -/
def Img.entry (m : Img) (t : Tile) (e : Nat) : BitVec 16 :=
  m.frames.foldl (fun v k =>
    if frType k = 3 ∧ frUnit k = 0 ∧ m.tileOf k = t ∧ frOff k ≤ e ∧ e < frOff k + frN k then frRoute k (e - frOff k) else v) 0x003F
/-- Tiles and entries that the image routes. -/
def Img.routed (m : Img) : List (Tile × Nat) :=
  ((m.frames.flatMap fun k => if frType k = 3 ∧ frUnit k = 0 then (List.range (frN k)).map fun j => (m.tileOf k, frOff k + j) else []).dedup).filter
    fun x => fld (m.entry x.1 x.2) 0 6 != 0x3F
/-- What an entry is fed from. -/
inductive Feed where
  | unused
  | port (t : Tile) (p : Nat)
  | hop (t : Tile) (e : Nat)
  | site (t : Tile) (src : Nat)
  | bus (t : Tile) (row : Bool)
  deriving DecidableEq, Repr
def Img.feed (m : Img) (t : Tile) (e : Nat) : Feed :=
  let x := fld (m.entry t e) 0 6
  if x = 0x3F then .unused
  else if x = 0x30 ∨ x = 0x31 then .bus t (x == 0x30)
  else if 0x20 ≤ x then .port t (x - 0x20)
  else match beyond t (edgeOf x) with
    | some u => if inRect m.rect u then .hop u (opposite x) else .site t x
    | none => .site t x
/-- The hops behind an entry never end: a cycle through no tile port (R158). -/
def Img.loops (m : Img) : Nat → Tile → Nat → Bool
  | 0, _, _ => true
  | n + 1, t, e => match m.feed t e with
    | .hop u e' => m.loops n u e'
    | _ => false
/-- Consecutive zero-slot hops that end in a hop. -/
def Img.zeroRun (m : Img) : Nat → Tile → Nat → Nat
  | 0, _, _ => 0
  | n + 1, t, e =>
    if 32 ≤ e then (match m.feed t e with
      | .hop u e' => m.zeroRun n u e'
      | _ => 0)
    else if fld (m.entry t e) 6 4 ≠ 0 then 0
    else 1 + (match m.feed t e with
      | .hop u e' => m.zeroRun n u e'
      | _ => 0)
/-- The tile whose output port feeds an entry through hops without slots. -/
def Img.zeroSource (m : Img) : Nat → Tile → Nat → Option Tile
  | 0, _, _ => none
  | n + 1, t, e => match m.feed t e with
    | .port u _ => some u
    | .hop u e' => if fld (m.entry u e') 6 4 = 0 then m.zeroSource n u e' else none
    | _ => none
/-- Elements on a directed cycle of links whose slot counts sum to 0: what is left when elements without such a link from another are
taken away again and again. -/
def Img.peel (m : Img) : Nat → List Tile → Bool
  | 0, l => !l.isEmpty
  | n + 1, l =>
    let l' := l.filter fun t => (List.range 16).any fun p => match m.zeroSource 8 t (32 + p) with
      | some u => l.contains u
      | none => false
    if l'.length = l.length then !l.isEmpty else m.peel n l'
/-- The cycle checks of R158. -/
def Img.cyclesOk (m : Img) : Bool :=
  let r := m.routed
  r.all (fun x => !m.loops (r.length + 1) x.1 x.2) && r.all (fun x => m.zeroRun 6 x.1 x.2 ≤ 4) &&
  !m.peel (r.length + 1) ((r.map (·.1)).dedup.filter Tile.isCT)
/-- The mask of back ports of a tile. -/
def Img.backMask (m : Img) (t : Tile) : Nat :=
  m.frames.foldl (fun n k => if frType k = 8 ∧ frSub k = 3 then (List.range 6).foldl (fun n j =>
      if bit k (32 * j + 28) ∧ fld m.rect 0 7 + fld k (32 * j) 7 = t.x ∧ fld m.rect 8 5 + fld k (32 * j + 7) 5 = t.y then
        n ||| fld k (32 * j + 12) 16 else n) n
    else n) 0
/-- Tiles that back-port slots name. -/
def Img.backTiles (m : Img) : List Tile :=
  m.frames.flatMap fun k => if frType k = 8 ∧ frSub k = 3 then (List.range 6).filterMap (fun j =>
    if bit k (32 * j + 28) then some ⟨fld m.rect 0 7 + fld k (32 * j) 7, fld m.rect 8 5 + fld k (32 * j + 7) 5⟩ else none) else []
/-- The root of the route that feeds an entry. -/
def Img.root (m : Img) : Nat → Tile → Nat → Feed
  | 0, _, _ => .unused
  | n + 1, t, e => match m.feed t e with
    | .hop u e' => m.root n u e'
    | x => x
/-- The MT drives a bus of a kind in the image (R295). -/
def Img.drives (m : Img) (t : Tile) (row : Bool) : Bool :=
  m.frames.any fun k => frType k == 4 && frOff k == 0 && m.tileOf k == t && bit k 79 && bit k 80 != row
/-- Two tiles share a row bus, or a column bus, of a die. -/
def sameBus (a b : Tile) (row : Bool) : Bool := a.die == b.die && (if row then a.y == b.y else a.x == b.x)
/-- Tiles that forward links alone reach from the ingress sites, after n rounds. -/
def Img.reached (m : Img) (ports : List (Tile × Nat)) (fuel : Nat) : Nat → List Tile → List Tile
  | 0, l => l
  | n + 1, l =>
    m.reached ports fuel n ((l ++ (ports.filter fun x => match m.root fuel x.1 x.2 with
      | .site _ _ => true
      | .port u _ => l.contains u
      | .bus _ row => l.any fun u => m.drives u row && sameBus u x.1 row
      | _ => false).map (·.1)).dedup)
/-- Tiles that hold a handler entry, an MT mode or a generator. -/
def Img.holders (m : Img) : List Tile :=
  (m.frames.filterMap fun k =>
    if (frType k = 1 && frSub k = 1 && (List.range (frN k)).any fun j => frHandler k j != 0) || (frType k = 2 && frSub k = 1) ||
      (frType k = 4 && frOff k = 0) then some (m.tileOf k) else none).dedup
/-- The back-port rules of R377: linked ports only, reachable nodes, one tide control frame. -/
def Img.backOk (m : Img) : Bool :=
  let r := m.routed
  let fuel := r.length + 2
  let ports := r.filter fun x => 32 ≤ x.2 && !(m.backMask x.1).testBit (x.2 - 32)
  let got := m.reached ports fuel (r.length + 1) []
  m.backTiles.all (fun t => (List.range 16).all fun p => !(m.backMask t).testBit p || fld (m.entry t (32 + p)) 0 6 != 0x3F) &&
  m.holders.all (fun t => got.contains t) &&
  decide ((m.frames.filter fun k => frType k == 8 && frSub k == 2).length ≤ 1)
/-- A generator of the image: tile, index, offset-0 frame, its index, and the groups of levels. -/
def Img.gen (m : Img) (t : Tile) (g off : Nat) : Option (Nat × BitVec 256) :=
  ((m.frames.zipIdx.filter fun x => frType x.1 == 4 && frOff x.1 == off && m.tileOf x.1 == t && frUnit x.1 == g).getLast?).map fun x => (x.2, x.1)
/-- Every configured generator, in the order of its offset-0 frames. -/
def Img.gens (m : Img) : List (Tile × Nat × Nat × BitVec 256) :=
  m.frames.zipIdx.filterMap fun x =>
    if frType x.1 = 4 ∧ frOff x.1 = 0 ∧ (m.gen (m.tileOf x.1) (frUnit x.1) 0).map (·.1) = some x.2 then
      some (m.tileOf x.1, frUnit x.1, x.2, x.1) else none
/-- The parent of a generator, by its offset-0 frame (R300). -/
def Img.parent (m : Img) (k : BitVec 256) : Option (Tile × Nat) :=
  if bit k 64 then some (⟨fld m.rect 0 7 + fld k 67 7, fld m.rect 8 5 + fld k 74 5⟩, fld k 65 2) else none
/-- A chain of parents ends within n further levels. -/
def Img.chainOk (m : Img) : Nat → BitVec 256 → Bool
  | 0, k => (m.parent k).isNone
  | n + 1, k => match m.parent k with
    | none => true
    | some (t, g) => match m.gen t g 0 with
      | some x => m.chainOk n x.2
      | none => false
/-- The children of a generator, in frame order. -/
def Img.children (m : Img) (t : Tile) (g : Nat) : List (Tile × Nat × Nat × BitVec 256) := m.gens.filter fun x => m.parent x.2.2.2 == some (t, g)
/-- The first offset-0 frame of a child that breaks R300. -/
def Img.treeBad (m : Img) : Option Nat :=
  m.gens.findSome? fun x => match m.parent x.2.2.2 with
    | none => none
    | some (t, g) =>
      if !inRect m.rect t || (m.gen t g 0).isNone || !m.chainOk 3 x.2.2.2 ||
          ((m.children t g).map (fun c => c.2.2.1)).idxOf x.2.2.1 ≥ 8 then some x.2.2.1 else none
/-- Level j of a generator: EXTENT and STRIDE. -/
def levelOf (cfg : Nat → Option (BitVec 192)) (j : Nat) : Nat × Int :=
  match cfg (1 + j / 3) with
  | some w => (fld w (64 * (j % 3)) 24, sfld w (64 * (j % 3) + 24) 40)
  | none => (0, 0)
def Img.cfg (m : Img) (t : Tile) (g : Nat) (off : Nat) : Option (BitVec 192) := (m.gen t g off).map fun x => BitVec.ofNat 192 (fld x.2 0 192)
/-- A generator's used levels have extents, and an area base lies inside the area (R186). -/
def Img.genOk (m : Img) (msize : Tile → Option Nat) (x : Tile × Nat × Nat × BitVec 256) : Bool :=
  (List.range (fld x.2.2.2 59 3)).all (fun j => (levelOf (m.cfg x.1 x.2.1) j).1 != 0) &&
  (!bit x.2.2.2 128 || (match msize x.1 with
    | some n => decide (fld x.2.2.2 0 56 < n)
    | none => false))

/-! Spans (R263) -/

/-- The span [lo, hi] of a generator, exactly. -/
def spanOf (cfg : Nat → Option (BitVec 192)) (w : BitVec 192) : Int × Int :=
  let term (j : Nat) : Int := ((levelOf cfg j).1 - 1 : Int) * (levelOf cfg j).2
  let js := List.range (fld w 59 3)
  (js.foldl (fun a j => a + min 0 (term j)) (fld w 0 56 : Int), js.foldl (fun a j => a + max 0 (term j)) (fld w 0 56 : Int) + 2 ^ fld w 56 3 - 1)
/-- Neighbouring pages join an extent when their addresses are contiguous and their attributes equal. -/
def Extent.joins (e : Extent) (l : Leaf) : Bool := e.va + e.len == l.va && e.pa + e.len == leafPa l.word && leafAttr e.word == leafAttr l.word
/-- The extents of a span from an address on, newest first; none where a page's walk is refused (LDERR 12). -/
def State.spanWalk (s : State) (r : RegionId) (hi : Nat) : Nat → Nat → List Extent → Option (List Extent)
  | 0, _, l => some l
  | n + 1, va, l =>
    if hi < va then some l
    else match s.walk r va with
      | .refuse _ => none
      | .leaf f =>
        (match l with
        | e :: rest =>
          if e.joins f then s.spanWalk r hi n (f.va + 2 ^ f.bits) ({ e with len := e.len + 2 ^ f.bits } :: rest)
          else if 8 ≤ l.length then some l else s.spanWalk r hi n (f.va + 2 ^ f.bits) (f.extent :: l)
        | [] => s.spanWalk r hi n (f.va + 2 ^ f.bits) [f.extent])
      | _ => some l
/-- The extents that the loader gives a generator; none where the load is rejected. -/
def State.extentsOf (s : State) (r : RegionId) (cfg : Nat → Option (BitVec 192)) (w : BitVec 192) : Option (List Extent) :=
  if bit w 128 then some []
  else
    let x := spanOf cfg w
    if x.1 < 0 ∨ (2 : Int) ^ 56 ≤ x.2 then none
    else (s.spanWalk r x.2.toNat (x.2.toNat / 2 ^ 16 + 1) x.1.toNat []).map List.reverse

end Sys2Proof.Machine
end

