-- ==== Sys2Proof/Machine/Engine.lean ====
section
/-! DEFINITION. Stream engines (R282 to R304): generator walks, requests of commands, completion tokens, controller trees, and the
dependence table. -/

namespace Sys2Proof.Machine

/-! Generators (R186, R292, R293) -/

def Gen.word (g : Gen) : BitVec 192 := (g.cfg.get 0).getD 0
def Gen.configured (g : Gen) : Bool := (g.cfg.get 0).isSome
def Gen.vbase (g : Gen) : Nat := fld g.word 0 56
def Gen.esz (g : Gen) : Nat := fld g.word 56 3
def Gen.levels (g : Gen) : Nat := fld g.word 59 3
def Gen.cmode (g : Gen) : Nat := fld g.word 62 2
def Gen.haspar (g : Gen) : Bool := bit g.word 64
def Gen.bc (g : Gen) : Bool := bit g.word 79
def Gen.colBus (g : Gen) : Bool := bit g.word 80
def Gen.bid (g : Gen) : Byte := BitVec.ofNat 8 (fld g.word 81 8)
def Gen.bmask (g : Gen) : Byte := BitVec.ofNat 8 (fld g.word 89 8)
def Gen.tgt (g : Gen) : Bool := bit g.word 128
def Gen.groups (g : Gen) (k : Nat) : Option (BitVec 192) := g.cfg.get (Fin.ofNat 3 k)
/-- EXTENT and STRIDE of a level. -/
def Gen.level (g : Gen) (j : Nat) : Nat × Int := levelOf g.groups j
def Gen.ext (g : Gen) (j : Nat) : Nat := (g.level j).1
def prodRange (f : Nat → Nat) (n : Nat) : Nat := (List.range n).foldl (fun p j => p * f j) 1
/-- Elements of a walk, and of one outer iteration (R292). -/
def Gen.count (g : Gen) : Nat := prodRange g.ext g.levels
def Gen.per (g : Gen) : Nat := prodRange g.ext (g.levels - 1)
/-- Outer iterations. -/
def Gen.outerN (g : Gen) : Nat := g.ext (g.levels - 1)
/-- Index i_j of element k. -/
def Gen.index (g : Gen) (k j : Nat) : Nat := k / prodRange g.ext j % g.ext j
def Gen.base (g : Gen) : Int := if g.tgt then 8 * (g.vbase : Int) else g.vbase
/-- The address of element k: a VA, or an offset into the area. -/
def Gen.off (g : Gen) (k : Nat) : Int := (List.range g.levels).foldl (fun a j => a + (g.index k j : Int) * (g.level j).2) g.base
/-- Bytes of an element, of its tokens, and the number of these. -/
def Gen.bytes (g : Gen) : Nat := 2 ^ g.esz
def Gen.unit (g : Gen) : Nat := min g.bytes 8
def Gen.toks (g : Gen) : Nat := max 1 (g.bytes / 8)
/-- Every element address is a multiple of the access unit (R293). -/
def Gen.aligned (g : Gen) : Bool :=
  g.base % (g.unit : Int) == 0 && (List.range g.levels).all fun j => g.ext j == 1 || (g.level j).2 % (g.unit : Int) == 0
/-- The span of the walk in its own space (R263, R293). -/
def Gen.span (g : Gen) : Int × Int :=
  let x := spanOf g.groups g.word
  let d := g.base - (g.vbase : Int)
  (x.1 + d, x.2 + d)
/-- The checks of R293. -/
def State.genPasses (s : State) (t : Tile) (f : Facet) (g : Gen) : Bool :=
  g.configured && g.aligned && (!g.tgt || (match s.mtMode t f with
    | some m => decide (0 ≤ g.span.1) && decide (g.span.2 < 8 * (m.msize : Int))
    | none => false))
def State.gen (s : State) (t : Tile) (f : Facet) (i : Fin 4) : Gen := ((s.mt t).fac f).gens.get i

/-! Commands -/

def Cmd.m (c : Cmd) (lo n : Nat) : Nat := fld c.mod lo n
def Cmd.ag (c : Cmd) (lo : Nat) : Fin 4 := Fin.ofNat 4 (c.m lo 2)
def opScopy : Nat := 0xB0
def opSgath : Nat := 0xB1
def opSscat : Nat := 0xB2
def opSred : Nat := 0xB3
def opScomp : Nat := 0xB4
def opSexp : Nat := 0xB5
def opAgstart : Nat := 0xB6
def opAgstop : Nat := 0xB7
def opAgqry : Nat := 0xB8
def opDarm : Nat := 0xB9
def opDpost : Nat := 0xBA
def opWcvt : Nat := 0xBB
/-- An indexed command. -/
def Cmd.indexed (c : Cmd) : Bool := c.op == opSgath || c.op == opSscat || c.op == opSred
/-- The generators whose walks a command occupies, and those whose input port it takes tokens from (R287): with ISRC = 1 only the port
of IAG is taken. -/
def Cmd.occupies (c : Cmd) : List (Fin 4) :=
  if c.op = opScopy then [c.ag 0, c.ag 2]
  else if c.indexed then (if c.m 4 1 = 1 then [c.ag 2] else [c.ag 0, c.ag 2])
  else if c.op = opScomp ∨ c.op = opSexp ∨ c.op = opAgstart then [c.ag 0] else []
def Cmd.ports (c : Cmd) : List (Fin 4) :=
  (if c.indexed && c.m 4 1 == 1 then [c.ag 0] else []) ++ (if c.op = opSscat ∨ c.op = opSred then [c.ag 2] else []) ++
  (if c.op = opSexp ∨ (c.op = opAgstart ∧ c.m 2 1 = 1) then [c.ag 0] else [])
/-- The budget in microseconds (R284). -/
def Cmd.budget (c : Cmd) : Nat :=
  if c.op = opAgstart then 2 ^ (12 - c.m 5 4) else if c.op = opSgath ∨ c.op = opSscat then 2 ^ (12 - c.m 10 4) else 4096
/-- The scope of the completion token (R289): codes 0 to 2 mean pair. -/
def Cmd.scope (c : Cmd) : Scope := if c.m 15 3 ≤ 2 then .pair else Scope.ofBits (BitVec.ofNat 3 (c.m 15 3))
def Cmd.hasScope (c : Cmd) : Bool := c.op != opAgstop && c.op != opAgqry && c.op != opDarm && c.op != opDpost
/-- The successor mask (R305). -/
def Cmd.succ (c : Cmd) : Nat := if opScopy ≤ c.op ∧ c.op ≤ opSexp then c.av.toNat else 0
def State.cmdAt (s : State) (t : Tile) (f : Facet) (k : Nat) : Option Cmd := ((s.mt t).fac f).cmds[k]?
def State.setCmd (s : State) (t : Tile) (f : Facet) (c : Cmd) : State :=
  s.modMtFac t f fun x => { x with cmds := x.cmds.map fun y => if y.id = c.id then c else y }
def State.delCmd (s : State) (t : Tile) (f : Facet) (id : Nat) : State :=
  s.modMtFac t f fun x => { x with cmds := x.cmds.filter fun y => y.id != id }

/-! Nodes (R322 to R326) -/

def DepNode.isFree (n : DepNode) : Bool := n.count == 0 && !n.armed && !n.failed && n.parked.isNone
/-- An operation of a facet on the node: refused where another facet owns it (R322). -/
def DepNode.foreign (n : DepNode) (f : Facet) : Bool := !n.isFree && n.owner != some f
/-- COUNT changes by a number; none where it would leave its range (R326). -/
def DepNode.add (n : DepNode) (f : Facet) (d : Int) : DepNode × Bool :=
  let c := n.count + d
  if -32768 ≤ c ∧ c ≤ 32767 then ({ n with count := c, owner := some f }, true) else ({ n with failed := true, owner := some f }, false)
def State.node (s : State) (t : Tile) (i : Fin 32) : DepNode := (s.mt t).nodes.get i
def State.setNode (s : State) (t : Tile) (i : Fin 32) (n : DepNode) : State :=
  s.modMt t fun m => { m with nodes := vset m.nodes i (if n.isFree then DepNode.free else n) }
/-- A successor is decremented, and marked failed (R323): false where that gives status 11. -/
def State.succOne (s : State) (t : Tile) (f : Facet) (failed : Bool) (i : Fin 32) : State × Bool :=
  let n := s.node t i
  if n.foreign f then (s, false)
  else
    let x := n.add f (-1)
    (s.setNode t i { x.1 with failed := x.1.failed || failed }, x.2)
/-- Every successor of a mask. -/
def State.succAll (s : State) (t : Tile) (f : Facet) (mask : Nat) (failed : Bool) : State × Bool :=
  ((List.finRange 32).filter fun i => mask.testBit i.val).foldl (fun (x : State × Bool) i =>
    let y := x.1.succOne t f failed i
    (y.1, x.2 && y.2)) (s, true)

/-! Completions (R289, R290) -/

/-- The payload of a completion token. -/
def doneWord (res op status : Nat) (node : Option (Fin 32)) (lnch : Bool) : Nat :=
  res % 2 ^ 32 + op % 256 * 2 ^ 32 + status % 32 * 2 ^ 40 + (match node with
    | some n => n.val * 2 ^ 47 + 2 ^ 52
    | none => 0) + lnch.toNat * 2 ^ 53
/-- A completion is queued for mo4, and a status other than 0 and 12 raises its cause. RES is a free value where no rule gives it. -/
def State.complete (s : State) (t : Tile) (f : Facet) (result : Option Nat) (op status : Nat) (node : Option (Fin 32)) (lnch : Bool)
    (sc : Scope) (reqs : List Nat) : State :=
  let res := result.getD (Config.freeWord s.free).toNat
  let s : State := if result.isNone then { s with free := s.free + 1 } else s
  let tok := mkTok f kData (status != 0) false false false (doneWord res op status node lnch)
  let s := if status = 0 ∨ status = 12 then s else s.cause t f (0x100 + status) false (res % 2 ^ 32)
  (s.modMt t fun m => { m with pend4 := m.pend4 ++ [⟨f, tok, sc, reqs⟩] }).phaseCommit t f
/-- The status of a cause that a request of an engine returns with (R290). -/
def statusOf (code : Nat) : Nat :=
  if code = causeRetryDevice then 6 else if code = causeCancelled then 7 else if code = causeMooringOverflow then 8
  else if code = causeFeNotEnabled then 9 else 5

/-! Requests of commands -/

/-- A request of a command (R282, R297). -/
def State.engReq (s : State) (t : Tile) (f : Facet) (c : Cmd) (form : Nat) (loc leaf : Word) (pa size : Nat) : Req :=
  { id := s.nextId, src := .engine t f c.id, form := form, loc := loc, addr := pa, size := size, region := s.regionOf t, die := t.die,
    facet := f, reach := ((s.mt t).fac f).reach, budget := c.budget, fe := bit leaf 9 && (isHbm pa || isMt pa), sync := bit leaf 10,
    qcls := fld leaf 13 2,
    gl := fld leaf 7 2, cls := fld leaf 52 4 }
/-- Where an address of an engine lies. -/
inductive EngAt where
  | here (pa : Nat) (leaf : Word)
  | miss (va : Nat)
  | bad (code : Nat)
  deriving DecidableEq, Repr
/-- The checks of a page that a walk or an extent gives (R218, R259, R260, R464): a copy write of tags alone needs enforcement, and any
other is a plain store on the launch page. -/
def State.engLeaf (s : State) (pa : Nat) (leaf : Word) (need form : Nat) : EngAt :=
  if !permOk leaf need then .bad causePermission
  else if form = 0xB && need == 6 && !isMt pa && (!isHbm pa || !leafFe leaf) then .bad causeFeNotEnabled
  else match formRefusal (if form = 0xB then 1 else form) pa leaf with
    | some c => .bad c
    | none => if isSys pa && (s.sysTarget pa).isNone then .bad causeAddressForm else .here pa leaf
/-- A byte offset into the facet's area of an MT. -/
def State.areaAt (s : State) (t : Tile) (f : Facet) (off : Int) : EngAt :=
  match s.mtMode t f with
  | some m => .here (mtBase t + 8 * m.mbase + off.toNat) pairLeaf
  | none => .bad causePairBounds
/-- The permissions that a form of a stream needs (R260); a copy write needs A only where it writes tags alone. -/
def engNeed (form tmode : Nat) : Nat := if form = 0xB then (if tmode = 3 then 6 else 2) else if form = 0xC then 7 else formPerm form
/-- The region of a tile has a translation table (R257). -/
def State.mapped (s : State) (t : Tile) : Bool := (s.regionOf t).any fun r => bit (s.rg r).trr 0
/-- An address of an affine walk: the area, or an extent of the generator (R264). -/
def State.genAt (s : State) (t : Tile) (f : Facet) (g : Gen) (off : Int) (need form : Nat) : EngAt :=
  if g.tgt then s.areaAt t f off
  else if off < 0 ∨ (2 : Int) ^ 56 ≤ off ∨ !s.mapped t then .bad causeUnmapped
  else
    let va := off.toNat
    match g.extents.find? fun e => decide (e.va ≤ va) && decide (va < e.va + e.len) with
    | none => .miss va
    | some e => s.engLeaf (e.pa + (va - e.va)) e.word need form
/-- A row address of an indexed command: the area, or the edge TLB (R265, R310). -/
def State.rowAt (s : State) (t : Tile) (f : Facet) (g : Gen) (off : Int) (need form : Nat) : EngAt :=
  if g.tgt then s.areaAt t f off
  else if off < 0 ∨ (2 : Int) ^ 56 ≤ off then .bad causeUnmapped
  else match s.regionOf t with
    | none => .bad causeUnmapped
    | some r =>
      let va := off.toNat
      if !bit (s.rg r).trr 0 then .bad causeUnmapped
      else match s.tlbFind t.die (fld (s.rg r).trr 52 4) va with
        | none => .miss va
        | some l => s.engLeaf (l.pa va) l.word need form
/-- The walk that a generator or a command waits for. -/
def State.walkOf (s : State) (w : WalkFor) : Option Walk := s.walks.find? fun x => x.for_ == w
/-- What an attempt to reach memory gives. -/
inductive Got (α : Type) where
  | ok (x : α)
  | wait (s : State)
  | fail (code : Nat) (s : State)
  deriving DecidableEq, Repr
/-- A miss starts a walk, waits for it, or fails with it (R264 to R267); the refusal of a walk that another access has left behind is
dropped (R276). -/
def State.engMiss {α : Type} (s : State) (t : Tile) (f : Facet) (va need : Nat) (w : WalkFor) : Got α :=
  let fresh (s : State) : Got α := match s.regionOf t with
    | some r => .wait (s.startWalk r t.die f va need w).1
    | none => .fail causeUnmapped s
  match s.walkOf w with
  | some x => (match x.result with
    | some c => if x.va = va ∧ x.need = need then .fail c (s.delWalk x.id) else fresh (s.delWalk x.id)
    | none => .wait s)
  | none => fresh s
/-- The addresses of several words, or the first that is not there. -/
def State.engAll (s : State) (t : Tile) (f : Facet) (need : Nat) (w : WalkFor) : List EngAt → Got (List (Nat × Word))
  | [] => .ok []
  | .here pa leaf :: l => match s.engAll t f need w l with
    | .ok r => .ok ((pa, leaf) :: r)
    | .wait s' => .wait s'
    | .fail c s' => .fail c s'
  | .miss va :: _ => s.engMiss t f va need w
  | .bad c :: _ => .fail c s
/-- The words of element k of a generator's affine walk. -/
def State.genWords (s : State) (t : Tile) (f : Facet) (gi : Fin 4) (k need form : Nat) : Got (List (Nat × Word)) :=
  let g := s.gen t f gi
  if g.paused then .wait s
  else s.engAll t f need (.gen t f gi) ((List.range g.toks).map fun i => s.genAt t f g (g.off k + 8 * (i : Int)) need form)
/-- A request of a command sets out; its identifier is the state's next one before. -/
def State.engIssue (s : State) (t : Tile) (q : Req) : State := s.issueReq t q q.asks
/-- Requests of a command set out in their order, with the identifiers that they take. -/
def State.engIssues (s : State) (t : Tile) (l : List Req) : State × List Nat :=
  l.foldl (fun (x : State × List Nat) q => (x.1.engIssue t { q with id := x.1.nextId }, x.2 ++ [x.1.nextId])) (s, [])
/-- Reads of a list of words. -/
def State.engReads (s : State) (t : Tile) (f : Facet) (c : Cmd) (form size : Nat) (l : List (Nat × Word)) : State × List Nat :=
  s.engIssues t (l.map fun w => s.engReq t f c form (BitVec.ofNat 64 w.1) w.2 w.1 size)
/-- The write of a word by a command; a copy write to the launch page is a plain store (R464). -/
def State.engWrite (s : State) (t : Tile) (f : Facet) (c : Cmd) (form size : Nat) (w : Nat × Word) (v : Nat) (poison : Bool) : Req :=
  { s.engReq t f c (if form = 0xB ∧ isLaunch w.1 then 1 else form) (BitVec.ofNat 64 w.1) w.2 w.1 size with data := v % 2 ^ (8 * size), poison := poison }
/-- The writes of one element: on the launch page each run of words is one store, so that an element is stored whole (R464). -/
def joinLaunch : List Req → List Req
  | [] => []
  | q :: l => match joinLaunch l with
    | p :: r =>
      if isLaunch q.addr && isLaunch p.addr && p.addr == q.addr + q.size then
        { q with size := q.size + p.size, data := q.data + p.data * 2 ^ (8 * q.size), poison := q.poison || p.poison } :: r
      else q :: p :: r
    | [] => [q]
/-- The writes of an element's words with its tokens; nulls write nothing (R296). -/
def State.tokWrites (s : State) (t : Tile) (f : Facet) (c : Cmd) (form size : Nat) (l : List ((Nat × Word) × Token)) : List Req :=
  joinLaunch (l.filterMap fun w =>
    if w.2.kind = kNull then none else some (s.engWrite t f c form size w.1 w.2.payload.toNat w.2.poison))
/-- What the reads of a list have come back with, in order; none while one is awaited. -/
def State.engData (s : State) (ids : List Nat) : Option (List (Except Nat (Nat × Bool × Bool))) :=
  let l := ids.map fun id => match s.findReq id with
    | some q => (match q.stage with
      | .replied (.data v p) => some (Except.ok (v, p, q.srcTag))
      | .replied (.cause c) => some (.error c)
      | .replied (.truth b) => some (.ok (b.toNat, false, q.srcTag))
      | _ => none)
    | none => some (.error causeCancelled)
  if l.any Option.isNone then none else some (l.filterMap id)
/-- The first cause among replies. -/
def firstCause {α : Type} : List (Except Nat α) → Option Nat
  | [] => none
  | .error c :: _ => some c
  | .ok _ :: l => firstCause l
def okData {α : Type} (l : List (Except Nat α)) : List α := l.filterMap fun x => match x with
  | .ok y => some y
  | .error _ => none
/-- Replies are taken: their requests go, or stay until their reach commits (R240), and mirrors receive them 4 cycles later (R388). -/
def State.engTake (s : State) (t : Tile) (f : Facet) (ids : List Nat) : State :=
  ids.foldl (fun s id => match s.findReq id with
    | some q => (match q.stage with
      | .replied r => (s.settleTaken q).noteReply t f r
      | _ => s)
    | none => s) s
/-- A request of a command is settled: accepted, performed, or returned. -/
def Req.settled (q : Req) : Bool :=
  match q.stage with
  | .accepted | .atHome | .replied _ => true
  | _ => false
/-- Returned requests of a command leave, the first cause among them becoming its status. -/
def State.harvest (s : State) (t : Tile) (f : Facet) (c : Cmd) : State × Cmd :=
  c.reqs.foldl (fun (x : State × Cmd) id => match x.1.findReq id with
    | some q => (match q.stage with
      | .replied r =>
        let code := match r with
          | .cause e => some e
          | _ => none
        ((x.1.settleTaken q).noteReply t f r,
          { x.2 with reqs := x.2.reqs.erase id, status := match code with
            | some e => if x.2.status = 0 then statusOf e else x.2.status
            | none => x.2.status })
      | _ => x)
    | none => x) (s, c)
/-- The requests of a command that are not yet performed everywhere. -/
def State.reqsOf (s : State) (t : Tile) (f : Facet) (id : Nat) : List Nat :=
  (s.reqs.filter fun q => decide (q.src = .engine t f id)).map (·.id)
/-- OWED of a facet (R291). -/
def State.owed (s : State) (t : Tile) (f : Facet) : Nat :=
  (s.reqs.filter fun q => !q.src.isElem && decide (q.src.tile = some t) && q.facet == f && q.form != 0 && q.form != 2 && q.form != 7 &&
    q.form != 0xC && !q.settled).length

/-! Ends (R289, R301, R303, R323) -/

/-- The gens of a command become idle. -/
def State.idleGens (s : State) (t : Tile) (f : Facet) (l : List (Fin 4)) : State :=
  l.foldl (fun s g => s.modGen t f g fun x => { x with run := .idle }) s
/-- A command has made its last access: its generators are free (R287). -/
def State.doneCmd (s : State) (t : Tile) (f : Facet) (c : Cmd) : State := (s.idleGens t f c.occupies).setCmd t f { c with done := true }
/-- The AGSTART that runs on a generator. -/
def State.agCmd (s : State) (t : Tile) (f : Facet) (g : Fin 4) : Option Cmd :=
  ((s.mt t).fac f).cmds.find? fun c => c.op == opAgstart && c.ag 0 == g && c.started && !c.done
/-- The command that occupies a generator. -/
def State.cmdOn (s : State) (t : Tile) (f : Facet) (g : Fin 4) : Option Cmd :=
  ((s.mt t).fac f).cmds.find? fun c => c.occupies.contains g && c.started && !c.done
/-- Children, by tile and generator; n bounds the depth of the tree. -/
def State.descendants (s : State) (f : Facet) : Nat → List (Nat × Nat) → List (Nat × Nat)
  | 0, _ => []
  | n + 1, l => l ++ s.descendants f n (l.flatMap fun c => (s.gen (keyTile c.1) f (Fin.ofNat 4 c.2)).children)
/-- The commands of a generator's descendants are to end with its status (R301). -/
def State.endChildren (s : State) (t : Tile) (f : Facet) (g : Fin 4) (status : Nat) : State :=
  (s.descendants f 4 (s.gen t f g).children).foldl (fun s c =>
    let u := keyTile c.1
    match s.agCmd u f (Fin.ofNat 4 c.2) with
    | some x => s.setCmd u f { x with draining := true, status := if x.status = 0 then status else x.status }
    | none => s) s
/-- RES of a stream command: the rules of SSCAT, SRED and SEXP, and that of a WCVT that fails, give none. -/
def Cmd.result (c : Cmd) : Option Nat :=
  if c.op = opSscat ∨ c.op = opSred ∨ c.op = opSexp ∨ (c.op = opWcvt ∧ c.status ≠ 0) then none else some c.res
/-- The status with which a command ends (R323, R326): 11 where a successor's COUNT would leave its range. -/
def State.endStatus (s : State) (t : Tile) (f : Facet) (c : Cmd) : Nat :=
  if c.status = 0 && !(s.succAll t f c.succ false).2 then 11 else c.status
/-- The end of a command: successors, the completion token, and the commands of its children. -/
def State.endCmd (s : State) (t : Tile) (f : Facet) (c : Cmd) : State :=
  let s := s.idleGens t f (if c.done then [] else c.occupies)
  let status := s.endStatus t f c
  let s := (((s.succAll t f c.succ (status != 0)).1).delCmd t f c.id).complete t f c.result c.op status c.node false c.scope
    (s.reqsOf t f c.id)
  if c.op = opAgstart && !(s.gen t f (c.ag 0)).haspar then s.endChildren t f (c.ag 0) status else s
/-- A finished command ends once its requests are settled; a cause among them is its status. -/
def State.settleCmd (s : State) (t : Tile) (f : Facet) (c : Cmd) : State :=
  let x := s.harvest t f c
  if x.2.reqs.all fun id => match x.1.findReq id with
    | some q => q.settled
    | none => true then x.1.endCmd t f x.2
  else x.1.setCmd t f x.2
/-- COMMAND_COMPLETION (R289): the oldest completion leaves on mo4 once its accesses are performed at its scope. -/
def execCommandCompletion (t : Tile) (s : State) : Out :=
  match (s.mt t).pend4 with
  | [] => .next s
  | c :: rest =>
    when_ s (!t.isCT && t.inFabric && !s.tileHalted t && c.reqs.all (fun id => s.performed id c.scope) && s.mtRoom t 4)
      (State.mtSend (s.modMt t fun m => { m with pend4 := rest }) t 4 c.tok [])

/-! Controller trees (R301) -/

/-- Latency of the control network between two tiles. -/
def State.ctrlDelay (s : State) (a b : Tile) : Nat := 2 + (max a.x b.x - min a.x b.x) + (max a.y b.y - min a.y b.y) + s.diesL a.die b.die
/-- The lag that a mode allows between a parent's iteration and its children's dones. -/
def Gen.lag (g : Gen) : Nat := if g.cmode = 0 then 1 else if g.cmode = 1 then 2 else 16
/-- Dones returned by a child: one more than the last iteration. -/
def Gen.doneOf (g : Gen) (c : Nat × Nat) : Nat := ((g.dones.find? fun x => x.1 == 4 * c.1 + c.2).map (·.2)).getD 0
/-- Iteration i, counted over all runs, may begin; iterations from a on are this command's. -/
def Gen.mayBegin (g : Gen) (a i : Nat) : Bool := decide (i < a + g.lag) || g.children.all fun c => decide (i < g.doneOf c + g.lag)
/-- Permit i goes to each child. -/
def State.permitAll (s : State) (t : Tile) (f : Facet) (g : Fin 4) (i : Nat) : State :=
  (s.gen t f g).children.foldl (fun s c =>
    let u := keyTile c.1
    s.modGen u f (Fin.ofNat 4 c.2) fun x => { x with comingPermits := x.comingPermits ++ [(s.cycle + s.ctrlDelay t u, i)] }) s
/-- The parent of a generator; a mirror's is the mirror of its primary's (R387). -/
def State.parentOf (s : State) (t : Tile) (f : Facet) (g : Fin 4) : Option (Tile × Fin 4) :=
  let x := s.gen t f g
  match x.haspar, s.regionOf t with
  | true, some r => some (⟨(s.rg r).x0 + fld x.word 67 7 + (if s.isMirror t f then 2 else 0), (s.rg r).y0 + fld x.word 74 5⟩, Fin.ofNat 4 (fld x.word 65 2))
  | _, _ => none
/-- A child returns done for an iteration. -/
def State.returnDone (s : State) (t : Tile) (f : Facet) (g : Fin 4) (i : Nat) : State :=
  match s.parentOf t f g with
  | some (u, h) => s.modGen u f h fun x => { x with comingDones := x.comingDones ++ [(s.cycle + s.ctrlDelay t u, 4 * t.key + g.val, i)] }
  | none => s
/-- PERMIT_ARRIVAL (R301): a child keeps the permit until it runs it. -/
def execPermitArrival (t : Tile) (f : Facet) (ag : Fin 4) (s : State) : Out :=
  match (s.gen t f ag).comingPermits with
  | [] => .next s
  | p :: l => when_ s (decide (p.1 ≤ s.cycle) && !s.tileHalted t)
      (s.modGen t f ag fun x => { x with comingPermits := l, permits := x.permits ++ [p.2] })
/-- DONE_ARRIVAL (R301). -/
def execDoneArrival (t : Tile) (f : Facet) (ag : Fin 4) (s : State) : Out :=
  match (s.gen t f ag).comingDones with
  | [] => .next s
  | d :: l => when_ s (decide (d.1 ≤ s.cycle) && !s.tileHalted t)
      (s.modGen t f ag fun x => { x with comingDones := l, dones := x.dones.filter (fun y => y.1 != d.2.1) ++ [(d.2.1, d.2.2 + 1)] })

/-! Nodes at work -/

/-- A fresh command (R286). -/
def newCmd (id : Nat) (k : Token) (node : Option (Fin 32)) : Cmd :=
  { id := id, op := fld k.payload 0 8, mod := BitVec.ofNat 18 (fld k.payload 8 18), av := BitVec.ofNat 32 (fld k.payload 26 32),
    bv := BitVec.ofNat 6 (fld k.payload 58 6), node := node, started := false, pos := 0, posw := 0, last := 0, buf := [], reqs := [],
    reads := [], cur := none, slots := [], cache := [], taken := 0, res := 0, status := 0, draining := false, done := false }
/-- A node may launch (R326). -/
def DepNode.ready (n : DepNode) : Bool := n.armed && n.count == 0 && (n.compute || n.parked.isSome)
/-- The launch of a node: it is free again, and its command enters the buffer, or a completion token is sent. A command parked in a compute
node is discarded when the node launches (DESIGN CHOICE, log 68). -/
def State.launchNode (s : State) (t : Tile) (i : Fin 32) : State :=
  let n := s.node t i
  let f := n.owner.getD 0
  let s := s.modMt t fun m => { m with nodes := vset m.nodes i DepNode.free }
  let parked := n.parked.map fun k => newCmd s.nextId k (some i)
  if n.failed then
    (s.succAll t f (parked.elim 0 Cmd.succ) true).1.complete t f none (parked.elim opDarm (·.op)) 13 (some i) false .pair []
  else if n.compute then s.complete t f none opDarm 0 (some i) true .pair []
  else match parked with
    | some c => s.bumpId.modMtFac t f fun x => { x with cmds := x.cmds ++ [c] }
    | none => s
/-- NODE_LAUNCH (R326). -/
def execNodeLaunch (t : Tile) (node : Fin 32) (s : State) : Out :=
  when_ s (!t.isCT && t.inFabric && (s.node t node).ready && s.mtRuns t ((s.node t node).owner.getD 0)) (s.launchNode t node)

end Sys2Proof.Machine
end

