-- ==== Sys2Proof/Machine/Streams.lean ====
section
/-! DEFINITION. Stream commands at work (R287, R293 to R309, R318 to R321): the start of a command with its checks, read and write
walks, copies, transposition, compression, expansion and accumulator conversion. -/

namespace Sys2Proof.Machine

/-! Emission -/

/-- The stream port of a generator. -/
def agPort (g : Fin 4) : Fin 16 := Fin.ofNat 16 g.val
/-- The bus of a broadcast walk (R295). -/
def Gen.bus (g : Gen) (t : Tile) : BusId := if g.colBus then .col (Fin.ofNat 16 t.x) else .row (Fin.ofNat 32 t.y)
/-- The tokens of a read walk leave on mo(AG), or on a bus in the turn of the generator (R159), and something follows; without room or turn
they wait. -/
def State.emit (s : State) (t : Tile) (f : Facet) (gi : Fin 4) (g : Gen) (bus : Bool) (l : List Token) (act : State → State) : State :=
  let d := t.die
  let b := g.bus t
  let who := portTurn t (8 + 4 * f.val + gi.val)
  if bus then
    if (s.busQueue d b).isEmpty then
      s.inTurn who [busTurn d b] fun s => act (s.setBus d b (l.map fun k => ⟨k, g.bid, g.bmask, s.cycle, (s.regionOf t).map (·.val)⟩))
    else { s with turns := s.turns.ask who [busTurn d b] }
  else if s.mtRoomN t (agPort gi) l.length then act (l.foldl (fun s k => s.mtSend t (agPort gi) k []) s)
  else s
/-- The walk of a command is broadcast (R295). -/
def Gen.broadcast (g : Gen) : Bool := g.bc && g.configured && !g.tgt
/-- The tokens of an element (R294). -/
def elemTokens (f : Facet) (l : List (Nat × Bool × Bool)) : List Token :=
  l.zipIdx.map fun x => mkTok f kData x.1.2.2 (decide (1 < l.length) && x.2 == 0) (decide (1 < l.length) && x.2 + 1 == l.length) x.1.2.1 x.1.1
def poisonCount (l : List (Nat × Bool × Bool)) : Nat := (l.filter (·.2.1)).length
def satRes (n : Nat) : Nat := min (2 ^ 32 - 1) n
/-- An end-of-run token. -/
def eorTok (f : Facet) (n : Nat) (bad : Bool) : Token := mkTok f kEor bad false false false n

/-! Start (R287, R293) -/

/-- Two commands need a common generator or a common port. -/
def Cmd.clash (a b : Cmd) : Bool := a.occupies.any b.occupies.contains || a.ports.any b.ports.contains
/-- Its generators are free, and no earlier command waits for one of them (R287). -/
def State.gensFree (s : State) (t : Tile) (f : Facet) (c : Cmd) : Bool :=
  ((s.mt t).fac f).cmds.all fun x => x.id == c.id || !x.clash c || x.done || (!x.started && decide (c.id < x.id))
/-- Every command of the MT, with its facet. -/
def State.allCmds (s : State) (t : Tile) : List (Facet × Cmd) := (List.finRange 4).flatMap fun f => ((s.mt t).fac f).cmds.map fun c => (f, c)
/-- The sparse-update unit takes the command next (R287): it is idle, and no earlier indexed command is ready. -/
def State.sparseFree (s : State) (t : Tile) (c : Cmd) : Bool :=
  !c.indexed || (s.allCmds t).all fun x => !x.2.indexed || x.2.done ||
    (!x.2.started && (decide (c.id ≤ x.2.id) || !(s.gensFree t x.1 x.2 && s.mtRuns t x.1)))
/-- The generator passes the checks of R293 with a few more of its own. -/
def State.gensPass (s : State) (t : Tile) (f : Facet) (c : Cmd) : Bool := c.occupies.all fun g => s.genPasses t f (s.gen t f g)
/-- The mode of the facet's area is multi-buffered (R298). -/
def State.buffered (s : State) (t : Tile) (f : Facet) : Bool := match s.mtMode t f with
  | some m => m.mode == 0 && decide (0 < m.bufw)
  | none => false
/-- A read walk of a generator breaks the limit of a broadcast (R295); SCOPY's and SCOMP's read walks do so too (DEDUCED, log 45). -/
def Gen.bcBad (g : Gen) : Bool := g.bc && g.tgt
/-- AGSTART breaks a limit of R295, R297 or R302. -/
def State.agBad (s : State) (t : Tile) (f : Facet) (c : Cmd) (g : Gen) : Bool :=
  (if g.haspar then c.av != 0 else decide (g.outerN ≤ c.av.toNat)) ||
  ((c.m 3 2 == 1 || c.m 3 2 == 2) && decide (g.esz < 3)) || (c.m 3 2 == 3 && !(g.tgt && s.buffered t f)) ||
  (c.m 2 1 == 0 && g.bcBad)
/-- The levels of two walks are identical. -/
def sameShape (a b : Gen) : Bool := a.levels == b.levels && (List.range a.levels).all fun j => a.level j == b.level j
/-- A monotone walk (R308). -/
def Gen.monotone (g : Gen) : Bool :=
  decide ((g.bytes : Int) ≤ (g.level 0).2) &&
  (List.range (g.levels - 1)).all fun j => decide ((g.level j).2 * (g.ext j : Int) ≤ (g.level (j + 1)).2)
/-- The spans of two walks overlap in one space. -/
def spansMeet (a b : Gen) : Bool := a.tgt == b.tgt && decide (a.span.1 ≤ b.span.2) && decide (b.span.1 ≤ a.span.2)
/-- SCOPY's overlap is one that R308 does not allow. -/
def overlapBad (a b : Gen) : Bool := spansMeet a b && !(sameShape a b && (a.vbase == b.vbase || (a.monotone && b.monotone)))
/-- The walk runs backwards (R308). -/
def backwards (a b : Gen) : Bool := spansMeet a b && decide (a.vbase < b.vbase)
/-- The in-place transpose's shape (R309). -/
def Gen.square (g : Gen) : Bool :=
  g.tgt && g.levels == 2 && decide (g.esz ≤ 3) && g.ext 0 == g.ext 1 && g.ext 0 % 8 == 0 && decide (8 ≤ g.ext 0) &&
  decide (g.ext 0 ≤ 256) && (g.level 0).2 == (g.bytes : Int) && (g.level 1).2 == (g.ext 0 : Int) * (g.bytes : Int)
/-- The status with which SCOPY's checks end it (R306, R308, R309). -/
def copyStatus (c : Cmd) (a b : Gen) : Nat :=
  let tmode := c.m 4 2
  if a.bcBad then 2
  else if c.m 6 1 = 1 then (if c.ag 0 = c.ag 2 && tmode == 0 && a.square then 0 else 2)
  else if a.esz ≠ b.esz || a.count ≠ b.count || c.ag 0 == c.ag 2 || (decide (a.esz < 3) && tmode != 0) then 2
  else if overlapBad a b then 3 else 0
/-- Bytes of a row of a table, and tokens of its values (R310, R314). -/
def Gen.rowBytes (g : Gen) : Nat := g.per * g.bytes
def accAddr (g : Gen) : Bool :=
  g.base % 64 == 0 && (List.range g.levels).all fun j => g.ext j == 1 || (g.level j).2 % 64 == 0
/-- An indexed command breaks a limit of R310, R312, R314 or R315. -/
def indexedBad (c : Cmd) (i d : Gen) : Bool :=
  decide (512 < d.rowBytes) || (c.m 4 1 == 0 && i.esz != 2 && i.esz != 3) ||
  (if c.op = opSred then
    let rop := c.m 8 4
    if rop = 11 then d.esz != 6 || !accAddr d else if 8 ≤ rop then d.esz != 2 else d.esz != 2 && d.esz != 3
   else (if c.op = opSgath then c.m 8 2 == 1 || c.m 8 2 == 2 else c.m 8 2 != 0) && d.rowBytes % 8 != 0)
/-- The status of a command's start checks, 0 where it passes. -/
def State.startStatus (s : State) (t : Tile) (f : Facet) (c : Cmd) : Nat :=
  let a := s.gen t f (c.ag 0)
  let b := s.gen t f (c.ag 2)
  if !s.gensPass t f c then 2
  else if c.op = opScopy then copyStatus c a b
  else if c.indexed then (if indexedBad c a b then 2 else 0)
  else if c.op = opScomp then (if decide (a.esz ≤ 2) && !a.bcBad then 0 else 2)
  else if c.op = opSexp then
    (if decide (a.esz ≤ 2) && (c.m 3 1 == 0 || ((a.level 0).2 == (a.bytes : Int) && a.ext 0 % (8 / a.bytes) == 0 && a.base % 8 == 0 &&
      (List.range (a.levels - 1)).all fun j => a.ext (j + 1) == 1 || (a.level (j + 1)).2 % 8 == 0)) then 0 else 2)
  else if s.agBad t f c a then 2 else 0
/-- The last ordinal of a command's walk. -/
def State.walkLen (s : State) (t : Tile) (f : Facet) (c : Cmd) : Nat := (s.gen t f (c.ag 0)).count
/-- Run state of the generators at a start (R299, R301): a child waits for a permit. -/
def State.startGens (s : State) (t : Tile) (f : Facet) (c : Cmd) : State :=
  let wr := decide (c.op = opSexp) || decide (c.op = opSscat) || decide (c.op = opSred) || (decide (c.op = opAgstart) && c.m 2 1 == 1)
  c.occupies.foldl (fun s g => s.modGen t f g fun x =>
    if c.op = opAgstart then
      { x with run := if x.haspar then .waiting else .running, wr := wr, outer := c.av.toNat, dones := [], spos := c.av.toNat * x.per }
    else { x with run := .running, wr := wr || (decide (c.op = opScopy) && g == c.ag 2 && c.ag 0 != c.ag 2), spos := 0, outer := 0 }) s
/-- A command starts; one whose checks fail ends by its own rule (R293). -/
def State.startCmd (s : State) (t : Tile) (f : Facet) (c : Cmd) : State :=
  let st := s.startStatus t f c
  let c := { c with started := true, status := st, last := s.walkLen t f c }
  (if st = 0 then s.startGens t f c else s).setCmd t f c
/-- The command stands in the command buffer of 8, and not behind it: a launch waits for room at its tail (R282, R326). -/
def State.inBuffer (s : State) (t : Tile) (f : Facet) (k : Nat) : Bool :=
  decide (((((s.mt t).fac f).cmds.take k).filter fun c => !c.started).length < 8)
/-- COMMAND_START (R287). -/
def execCommandStart (t : Tile) (f : Facet) (k : Nat) (s : State) : Out :=
  match s.cmdAt t f k with
  | some c => when_ s (!c.started && s.inBuffer t f k && s.mtRuns t f && s.gensFree t f c && s.sparseFree t c) (s.startCmd t f c)
  | none => .next s

/-! AGSTART (R294 to R303) -/

/-- The outer iteration, counted over all runs, in which a generator stands. -/
def Cmd.iter (c : Cmd) (g : Gen) : Nat := c.taken * g.outerN + g.spos / g.per
/-- A save stops root generators between outer iterations (R390). -/
def State.saving (s : State) (t : Tile) (f : Facet) : Bool := match s.regionOf t with
  | some r => (s.rg r).saveStops f
  | none => false
/-- The buffer of element k (R298), and its first word. -/
def State.bufOf (s : State) (t : Tile) (f : Facet) (g : Gen) (k : Nat) : Nat := match s.mtMode t f with
  | some m => (g.off k).toNat / (8 * m.bufw)
  | none => 0
def State.bufWord (s : State) (t : Tile) (f : Facet) (b : Nat) : Nat := match s.mtMode t f with
  | some m => mtBase t + 8 * m.mbase + 8 * m.bufw * b
  | none => 0
/-- A walk leaves a buffer once its accesses are performed: its first word's tag changes (R298). The filling store of a buffer write is
that of the word's last written value, which the word holds by then: its content stays. -/
def State.leaveBuf (s : State) (t : Tile) (f : Facet) (c : Cmd) : State :=
  if !c.reqs.all (fun id => s.performed id .pair) then s
  else
    let pa := s.bufWord t f (c.posw - 1)
    let q := s.engReq t f c (if c.m 2 1 = 1 then 5 else 6) (BitVec.ofNat 64 pa) pairLeaf pa 0
    (s.engIssue t q).setCmd t f { c with posw := 0, reqs := c.reqs ++ [q.id] }
/-- A buffer walk waits at the buffer of its next element; true where it stands in it. -/
def Cmd.inBuf (c : Cmd) (want : Nat) : Bool := c.m 3 2 != 3 || c.posw == want
def State.enterBuf (s : State) (t : Tile) (f : Facet) (c : Cmd) (want : Nat) : State :=
  if c.posw ≠ 0 then s.leaveBuf t f c
  else if c.reads.isEmpty then
    let pa := s.bufWord t f (want - 1)
    let q := s.engReq t f c (if c.m 2 1 = 1 then 0xC else 2) (BitVec.ofNat 64 pa) pairLeaf pa 8
    (s.engIssue t q).setCmd t f { c with reads := [q.id] }
  else match s.engData c.reads with
    | none => s
    | some l => match firstCause l with
      | some e => (s.engTake t f c.reads).setCmd t f { c with reads := [], status := statusOf e }
      | none => (s.engTake t f c.reads).setCmd t f { c with reads := [], posw := want }
/-- The end of an AGSTART: reads still on their way are discarded, a read walk sends its end-of-run token, and the generator is free. -/
def State.endAg (s : State) (t : Tile) (f : Facet) (c : Cmd) (g : Gen) : State :=
  if (s.engData c.reads).isNone then s
  else
    let c' := { c with reads := [] }
    let s := (s.engTake t f c.reads).setCmd t f c'
    if c.m 2 1 = 0 ∧ c.m 9 1 = 1 then s.emit t f (c.ag 0) g g.broadcast [eorTok f c.pos (c.status != 0)] fun s => s.doneCmd t f c'
    else s.doneCmd t f c'
/-- A root's children have returned every done that it awaits (R301); a stopped root awaits those that still run (R303). -/
def State.donesIn (s : State) (f : Facet) (c : Cmd) (g : Gen) : Bool :=
  g.children.all fun x => decide (g.outer ≤ g.doneOf x) ||
    (g.run == .stopping && (s.agCmd (keyTile x.1) f (Fin.ofNat 4 x.2)).isNone && c.started)
/-- The end of a run (R301, R303). -/
def State.endRun (s : State) (t : Tile) (f : Facet) (c : Cmd) (g : Gen) : State :=
  let gi := c.ag 0
  if c.m 3 2 = 3 ∧ c.posw ≠ 0 then s.leaveBuf t f c
  else if g.haspar then
    if c.reqs.all (fun id => s.performed id .pair) && s.donesIn f c g then
      let s := (s.modGen t f gi fun x => { x with run := .waiting, spos := 0 }).setCmd t f { c with taken := c.taken + 1, cur := none }
      s.returnDone t f gi (match c.cur with
        | some w => w.toNat
        | none => 0)
    else s
  else if s.donesIn f c g then s.setCmd t f { c with draining := true, status := if g.run = .stopping then 12 else c.status } else s
/-- The beginning of an outer iteration (R301). -/
def State.beginIter (s : State) (t : Tile) (f : Facet) (c : Cmd) (g : Gen) : State :=
  let i := c.iter g
  if (!g.haspar && s.saving t f) || !(g.children.isEmpty || g.mayBegin (if g.haspar then 0 else c.av.toNat) i) then s
  else (s.modGen t f (c.ag 0) fun x => { x with outer := i + 1 }).permitAll t f (c.ag 0) i
/-- A child begins a run with its oldest permit. -/
def State.beginRun (s : State) (t : Tile) (f : Facet) (c : Cmd) (g : Gen) : State :=
  match g.permits with
  | [] => s
  | p :: l => (s.modGen t f (c.ag 0) fun x => { x with permits := l, run := .running, spos := 0 }).setCmd t f
      { c with cur := some (BitVec.ofNat 64 p) }
/-- The form of a stream's words (R297). -/
def Cmd.form (c : Cmd) : Nat :=
  if c.m 2 1 = 0 then (if c.m 3 2 = 1 then 2 else if c.m 3 2 = 2 then 3 else 0)
  else if c.m 3 2 = 1 then 4 else if c.m 3 2 = 2 then 5 else 1
/-- A command ends with a status once its rule has drained its streams. -/
def State.failCmd (s : State) (t : Tile) (f : Facet) (c : Cmd) (status : Nat) : State := s.setCmd t f { c with status := status }
/-- Element SPOS of a read walk: its reads are issued, or its tokens leave (R294). -/
def State.readElem (s : State) (t : Tile) (f : Facet) (c : Cmd) (g : Gen) : State :=
  let gi := c.ag 0
  if c.reads.isEmpty then
    match s.genWords t f gi g.spos (engNeed c.form 0) c.form with
    | .wait s' => s'
    | .fail e s' => s'.failCmd t f c (statusOf e)
    | .ok l =>
      let x := s.engReads t f c c.form g.unit l
      x.1.setCmd t f { c with reads := x.2 }
  else match s.engData c.reads with
    | none => s
    | some l => match firstCause l with
      | some e => (s.engTake t f c.reads).failCmd t f { c with reads := [] } (statusOf e)
      | none =>
        let ws := okData l
        s.emit t f gi g g.broadcast (elemTokens f ws) fun s =>
          ((s.engTake t f c.reads).modGen t f gi fun x => { x with spos := x.spos + 1 }).setCmd t f
            { c with reads := [], pos := c.pos + 1, res := satRes (c.res + poisonCount ws) }
/-- Element SPOS of a write walk: a token is taken, or the element's writes are issued (R296). -/
def State.writeElem (s : State) (t : Tile) (f : Facet) (c : Cmd) (g : Gen) : State :=
  let gi := c.ag 0
  if c.buf.length < g.toks then
    match s.mtHead t f (agPort gi) with
    | none => s
    | some k => s.mtTaking t f (agPort gi) fun s => s.setCmd t f { c with buf := c.buf ++ [k] }
  else match s.genWords t f gi g.spos (engNeed c.form 0) c.form with
    | .wait s' => s'
    | .fail e s' => s'.failCmd t f c (statusOf e)
    | .ok l =>
      let x := s.engIssues t (s.tokWrites t f c c.form g.unit (l.zip c.buf))
      (x.1.modGen t f gi fun y => { y with spos := y.spos + 1 }).setCmd t f
        { c with buf := [], reqs := c.reqs ++ x.2, pos := c.pos + 1,
                 res := satRes (c.res + (c.buf.filter fun k => k.kind != kNull && k.poison).length) }
/-- One step of an AGSTART. -/
def State.stepAg (s : State) (t : Tile) (f : Facet) (c : Cmd) : State :=
  let g := s.gen t f (c.ag 0)
  let x := s.harvest t f c
  let s := x.1.setCmd t f x.2
  let c := x.2
  if c.status ≠ 0 ∨ c.draining then s.endAg t f c g
  else if g.run = .waiting then s.beginRun t f c g
  else if c.last ≤ g.spos then s.endRun t f c g
  else if g.spos % g.per = 0 && g.outer ≤ c.iter g then s.beginIter t f c g
  else if !c.inBuf (s.bufOf t f g g.spos + 1) then s.enterBuf t f c (s.bufOf t f g g.spos + 1)
  else if c.m 2 1 = 0 then s.readElem t f c g else s.writeElem t f c g

/-! SCOPY (R306 to R309) -/

/-- The source elements that step pos of a copy reads, and the destinations that it writes. -/
def copyPair (c : Cmd) (a b : Gen) : List (Nat × Nat) :=
  if c.m 6 1 = 1 then
    let m := a.ext 0
    let i := c.pos / m; let j := c.pos % m
    if i < j then [(j + m * i, i + m * j), (i + m * j, j + m * i)] else []
  else
    let k := if backwards a b then a.count - 1 - c.pos else c.pos
    [(k, k)]
/-- The words of several elements. -/
def State.manyWords (s : State) (t : Tile) (f : Facet) (gi : Fin 4) (need form : Nat) : List Nat → Got (List (Nat × Word))
  | [] => .ok []
  | k :: l => match s.genWords t f gi k need form with
    | .ok x => (match s.manyWords t f gi need form l with
      | .ok y => .ok (x ++ y)
      | .wait s' => .wait s'
      | .fail e s' => .fail e s')
    | .wait s' => .wait s'
    | .fail e s' => .fail e s'
/-- The reads of a copy's next element. -/
def State.copyRead (s : State) (t : Tile) (f : Facet) (c : Cmd) : State :=
  let a := s.gen t f (c.ag 0)
  let ks := (copyPair c a (s.gen t f (c.ag 2))).map (·.1)
  if c.status ≠ 0 || c.last ≤ c.pos || !c.reads.isEmpty || (c.pos % a.per == 0 && s.saving t f) then s
  else if ks.isEmpty then s.setCmd t f { c with pos := c.pos + 1 }
  else match s.manyWords t f (c.ag 0) 1 0 ks with
    | .wait s' => s'
    | .fail e s' => s'.failCmd t f c (statusOf e)
    | .ok l =>
      let x := s.engReads t f c 0 a.unit l
      x.1.setCmd t f { c with reads := x.2 }
/-- The writes of a copy (R225, R306): copy writes for whole words, plain stores below. -/
def State.copyWrites (s : State) (t : Tile) (f : Facet) (c : Cmd) (esz : Nat) (l : List ((Nat × Word) × (Nat × Bool × Bool))) : List Req :=
  joinLaunch (l.map fun w =>
    { s.engWrite t f c (if esz < 3 then 1 else 0xB) (2 ^ min esz 3) w.1 w.2.1 w.2.2.1 with srcTag := w.2.2.2, tmode := c.m 4 2 })
/-- A command that AGSTOP has stopped ends with status 12 (R303). -/
def State.stopStatus (s : State) (t : Tile) (f : Facet) (c : Cmd) : Nat :=
  if c.status = 0 && c.occupies.any (fun g => (s.gen t f g).run == .stopping) then 12 else c.status
/-- The writes of a copy's element whose reads are back, or the copy's end. -/
def State.copyWrite (s : State) (t : Tile) (f : Facet) (c : Cmd) : State :=
  let x := s.harvest t f c
  let s := x.1.setCmd t f x.2
  let c := x.2
  let a := s.gen t f (c.ag 0)
  let b := s.gen t f (c.ag 2)
  match s.engData c.reads with
  | none => s
  | some l =>
    if c.status ≠ 0 then (s.engTake t f c.reads).doneCmd t f { c with reads := [] }
    else if c.last ≤ c.pos then (s.engTake t f c.reads).doneCmd t f { c with reads := [], status := s.stopStatus t f c }
    else if c.reads.isEmpty then s
    else match firstCause l with
      | some e => (s.engTake t f c.reads).failCmd t f { c with reads := [] } (statusOf e)
      | none =>
        let form := if b.esz < 3 then 1 else 0xB
        match s.manyWords t f (c.ag 2) (engNeed form (c.m 4 2)) form ((copyPair c a b).map (·.2)) with
        | .wait s' => s'
        | .fail e s' => s'.failCmd t f c (statusOf e)
        | .ok ws =>
          let s := s.engTake t f c.reads
          let y := s.engIssues t (s.copyWrites t f c b.esz (ws.zip (okData l)))
          let s := [c.ag 0, c.ag 2].foldl (fun s g => s.modGen t f g fun z => { z with spos := c.pos + 1 }) y.1
          s.setCmd t f { c with reads := [], pos := c.pos + 1, reqs := c.reqs ++ y.2, res := satRes (c.res + poisonCount (okData l)) }

/-! SCOMP and SEXP (R318 to R320) -/

/-- An element is zero (R318). -/
def scompZero (c : Cmd) (g : Gen) (w : Nat × Bool × Bool) : Bool :=
  !w.2.1 && (w.1 == 0 || (c.m 2 1 == 1 && w.1 % 2 ^ (8 * g.bytes - 1) == 0))
/-- The tokens that an element of a tile gives: header before the first, itself where it is not zero, trailer after the last. -/
def scompTokens (f : Facet) (c : Cmd) (g : Gen) (w : Nat × Bool × Bool) : List Token × Nat :=
  let i := c.pos % g.per
  let n := (if i = 0 then 0 else c.posw) + (if scompZero c g w then 0 else 1)
  ((if i = 0 then [mkTok f kData false true false false (c.pos / g.per % 2 ^ 32 * 2 ^ 32)] else []) ++
   (if scompZero c g w then [] else [mkTok f kData w.2.2 false false w.2.1 (i % 2 ^ 32 * 2 ^ 32 + w.1)]) ++
   (if i + 1 = g.per then [mkTok f kData false false true false (n % 2 ^ 32)] else []), n)
/-- One step of SCOMP. -/
def State.stepScomp (s : State) (t : Tile) (f : Facet) (c : Cmd) : State :=
  let gi := c.ag 0
  let g := s.gen t f gi
  if c.status ≠ 0 ∨ c.last ≤ c.pos then
    if (s.engData c.reads).isSome then
      let c' := { c with reads := [], status := s.stopStatus t f c }
      s.emit t f gi g g.broadcast [eorTok f (c.pos / max 1 g.per) (c'.status != 0)] fun s => (s.engTake t f c.reads).doneCmd t f c'
    else s
  else if c.reads.isEmpty then
    if c.pos % g.per == 0 && s.saving t f then s
    else match s.genWords t f gi c.pos 1 0 with
      | .wait s' => s'
      | .fail e s' => s'.failCmd t f c (statusOf e)
      | .ok l =>
        let x := s.engReads t f c 0 g.unit l
        x.1.setCmd t f { c with reads := x.2 }
  else match s.engData c.reads with
    | none => s
    | some l => match firstCause l with
      | some e => (s.engTake t f c.reads).failCmd t f { c with reads := [] } (statusOf e)
      | none =>
        let w := (okData l).headD (0, false, false)
        let x := scompTokens f c g w
        let act (s : State) : State := ((s.engTake t f c.reads).modGen t f gi fun y => { y with spos := c.pos + 1 }).setCmd t f
          { c with reads := [], pos := c.pos + 1, posw := x.2, res := satRes (c.res + w.2.1.toNat) }
        if x.1.isEmpty then act s else s.emit t f gi g g.broadcast x.1 act
/-- What a token does to a burst that SEXP gathers (R319, R320). -/
def Cmd.expandTok (c : Cmd) (g : Gen) (k : Token) : Cmd :=
  let drop := c.m 2 1 == 1
  let bad : Cmd := if drop then c else { c with status := 10 }
  let coord := fld k.payload 32 32
  if k.kind = kNull then c
  else if c.last ≤ c.pos then (if k.kind = kEor then { c with draining := true } else bad)
  else if k.kind = kEor then (if c.buf.isEmpty then { c with draining := true } else { bad with draining := true, posw := 1 })
  else if c.buf.isEmpty then (if k.tail then { bad with posw := 1, buf := [] } else { c with buf := [k], taken := 0 })
  else if k.tail then (if fld k.payload 0 32 = c.taken then { c with posw := 1 } else { bad with posw := 1 })
  else
    let prev := match (c.buf.drop 1).getLast? with
      | some x => fld x.payload 32 32 + 1
      | none => 0
    if coord < prev ∨ g.per ≤ coord then { bad with taken := c.taken + 1 } else { c with buf := c.buf ++ [k], taken := c.taken + 1 }
/-- The value that element i of the tile is written with, and its poison. -/
def Cmd.expandVal (c : Cmd) (i : Nat) : Nat × Bool :=
  match (c.buf.drop 1).find? fun k => fld k.payload 32 32 == i with
  | some k => (fld k.payload 0 32, k.poison)
  | none => (0, false)
/-- Elements that one write of SEXP covers: with XFILL those that share a word (R320). -/
def Cmd.expandN (c : Cmd) (g : Gen) : Nat := if c.m 3 1 = 1 then 8 / g.bytes else 1
/-- The values that SEXP has gathered for the word in work, of tiles before and of this one. -/
def Cmd.gathered (c : Cmd) : List Token := c.cache.flatMap (·.2)
/-- The next element of a tile: it is written, or with XFILL its word once the last of its elements has come. -/
def State.expandWrite (s : State) (t : Tile) (f : Facet) (c : Cmd) (g : Gen) : State :=
  let gi := c.ag 0
  let n := c.expandN g
  let form := if c.m 3 1 = 1 then 5 else 1
  let x := c.expandVal (c.pos % g.per)
  let vs := c.gathered ++ [mkTok f kData false false false x.2 x.1]
  let pos := c.pos + 1
  let last := pos % g.per == 0
  let c' : Cmd := { c with pos := pos, posw := if last then 0 else 1, buf := if last then [] else c.buf }
  let moved (s : State) (c : Cmd) : State := (s.modGen t f gi fun y => { y with spos := pos }).setCmd t f c
  if vs.length < n then moved s { c' with cache := [(0, vs)] }
  else match s.genAt t f g (g.off (pos - n)) (engNeed form 0) form with
  | .miss va => (match s.engMiss (α := Unit) t f va (engNeed form 0) (.gen t f gi) with
    | .ok _ => s
    | .wait s' => s'
    | .fail e s' => s'.failCmd t f c (statusOf e))
  | .bad e => s.failCmd t f c (statusOf e)
  | .here pa leaf =>
    let v := vs.zipIdx.foldl (fun a x => a + x.1.payload.toNat % 2 ^ (8 * g.bytes) * 2 ^ (8 * g.bytes * x.2)) 0
    let q := s.engWrite t f c form (n * g.bytes) (pa, leaf) v (vs.any Token.poison)
    moved (s.engIssue t q) { c' with reqs := c.reqs ++ [q.id], cache := [] }
/-- One step of SEXP. -/
def State.stepSexp (s : State) (t : Tile) (f : Facet) (c : Cmd) : State :=
  let x := s.harvest t f c
  let s := x.1.setCmd t f x.2
  let c := x.2
  let g := s.gen t f (c.ag 0)
  let port := agPort (c.ag 0)
  let take (k : Token → Cmd) : State := match s.mtHead t f port with
    | some tok => s.mtTaking t f port fun s => s.setCmd t f (k tok)
    | none => s
  if c.status ≠ 0 then
    if c.status = 10 ∧ !c.draining then take fun k => { c with draining := k.kind == kEor } else s.doneCmd t f c
  else if c.last ≤ c.pos && g.run == .stopping then s.doneCmd t f { c with status := 12 }
  else if c.posw = 1 then (if g.paused then s else s.expandWrite t f c g)
  else if c.last ≤ c.pos && c.draining then s.doneCmd t f c
  else if c.draining then s.setCmd t f { c with posw := 1, buf := [] }
  else if c.buf.isEmpty && c.cache.isEmpty && s.saving t f then s
  else take fun k => c.expandTok g k

/-! WCVT (R321) -/

/-- An accumulator's page is of GL 0b01 or above, or it lies in the area (R315). -/
def accPage (g : Gen) (leaf : Word) : Bool := g.tgt || decide (1 ≤ leafGl leaf)
/-- The access to the accumulator: a read, or a read that leaves 0. -/
def State.wcvtAsk (s : State) (t : Tile) (f : Facet) (c : Cmd) : State :=
  let gi := c.ag 0
  let g := s.gen t f gi
  let form := if c.m 2 1 = 1 then 8 else 0
  match s.genAt t f g (g.off c.av.toNat) (formPerm form) form with
  | .miss va => (match s.engMiss (α := Unit) t f va (formPerm form) (.gen t f gi) with
    | .ok _ => s
    | .wait s' => s'
    | .fail e s' => s'.doneCmd t f { c with status := statusOf e })
  | .bad e => s.doneCmd t f { c with status := statusOf e }
  | .here pa leaf =>
    if accPage g leaf then
      let q := { s.engReq t f c form (BitVec.ofNat 64 pa) leaf pa 48 with op := 13 }
      (s.engIssue t q).setCmd t f { c with reads := [q.id] }
    else s.doneCmd t f { c with status := 2 }
/-- One step of WCVT: the access, and its answer. -/
def State.stepWcvt (s : State) (t : Tile) (f : Facet) (c : Cmd) : State :=
  if c.reads.isEmpty then (if (s.gen t f (c.ag 0)).paused then s else s.wcvtAsk t f c)
  else match s.engData c.reads with
  | none => s
  | some l => match firstCause l with
    | some e => (s.engTake t f c.reads).doneCmd t f { c with reads := [], status := statusOf e }
    | none =>
      let v := ((okData l).headD (0, false, false)).1
      (s.engTake t f c.reads).doneCmd t f { c with reads := [], res := accToF32 v }

/-! Events -/

/-- One step of a command on the reading side; a finished command settles. -/
def State.readStep (s : State) (t : Tile) (f : Facet) (c : Cmd) : State :=
  if c.done then s.settleCmd t f c
  else if c.op = opAgstart ∧ c.m 2 1 = 0 then s.stepAg t f c
  else if c.op = opScopy then s.copyRead t f c
  else if c.op = opScomp then s.stepScomp t f c
  else if c.op = opWcvt then s.stepWcvt t f c
  else s
/-- READ_WALK_ELEMENT (R294). -/
def execReadWalkElement (t : Tile) (f : Facet) (k : Nat) (s : State) : Out :=
  match s.cmdAt t f k with
  | some c => when_ s (c.started && s.mtRuns t f) (s.readStep t f c)
  | none => .next s
/-- One step of a command on the writing side. -/
def State.writeStep (s : State) (t : Tile) (f : Facet) (c : Cmd) : State :=
  if c.done then s.settleCmd t f c
  else if c.op = opAgstart ∧ c.m 2 1 = 1 then s.stepAg t f c
  else if c.op = opScopy then s.copyWrite t f c
  else if c.op = opSexp then s.stepSexp t f c
  else s
/-- WRITE_WALK_ELEMENT (R296). -/
def execWriteWalkElement (t : Tile) (f : Facet) (k : Nat) (s : State) : Out :=
  match s.cmdAt t f k with
  | some c => when_ s (c.started && s.mtRuns t f) (s.writeStep t f c)
  | none => .next s

end Sys2Proof.Machine
end

