-- ==== Sys2Proof/Machine/Sparse.lean ====
section
/-! DEFINITION. The sparse-update unit: SGATH, SSCAT and SRED (R310 to R317): a window of 64 slots, duplicates that merge, and the row
cache. -/

namespace Sys2Proof.Machine

def Cmd.ord (c : Cmd) : Bool := c.m 7 1 == 1
def Cmd.isrc (c : Cmd) : Bool := c.m 4 1 == 1
def Cmd.pol (c : Cmd) : Nat := c.m 5 2
/-- The form of an indexed command's words (R284). -/
def Cmd.rowForm (c : Cmd) : Nat :=
  if c.op = opSred then 8
  else if c.op = opSgath then (if c.m 8 2 = 1 then 2 else if c.m 8 2 = 2 then 3 else 0)
  else if c.m 8 2 = 1 then 4 else if c.m 8 2 = 2 then 5 else 1
/-- Value tokens of a row (R310, R314). -/
def Cmd.rowToks (c : Cmd) (d : Gen) : Nat := if c.op = opSred then d.per else d.per * d.toks

/-! Addresses of a row -/

/-- The units of a row: offset within the table's space and bytes. Reads and tag forms act on whole words (R218, R317). -/
def rowUnits (d : Gen) (form r : Nat) : List (Int × Nat) :=
  let size := if form = 8 then d.bytes else d.unit
  let each := (List.range d.per).flatMap fun e => (List.range (if form = 8 then 1 else d.toks)).map fun i => (d.off (r * d.per + e) + 8 * (i : Int), size)
  if size < 8 ∧ form ≠ 1 ∧ form ≠ 8 then ((each.map fun x => (x.1 / 8 * 8, 8))).dedup else each
/-- Their addresses. -/
def State.rowWords (s : State) (t : Tile) (f : Facet) (d : Gen) (form r : Nat) : Got (List (Nat × Word)) :=
  s.engAll t f (engNeed form 0) (.engine t f) ((rowUnits d form r).map fun x => s.rowAt t f d x.1 (engNeed form 0) form)
/-- The edge TLB after the hits of a row (R265). -/
def State.rowTouch (s : State) (t : Tile) (d : Gen) (form r : Nat) : State :=
  if d.tgt then s else (rowUnits d form r).foldl (fun s u => s.tlbHit t u.1.toNat) s

/-! Tokens of a gathered row (R312) -/

/-- The elements of a row, from what its reads gave: a sub-word element is cut out of its word. -/
def rowElems (d : Gen) (form r : Nat) (l : List (Nat × Bool × Bool)) : List (Nat × Bool × Bool) :=
  if d.unit < 8 then
    let us := (rowUnits d form r).zip l
    (List.range d.per).map fun e =>
      let o := d.off (r * d.per + e)
      match us.find? fun u => u.1.1 == o / 8 * 8 with
      | some u => (u.2.1 / 2 ^ (8 * (o % 8).toNat) % 2 ^ (8 * d.bytes), u.2.2.1, u.2.2.2)
      | none => (0, false, false)
  else l
/-- The tokens of a row as they are kept, without head and tail. -/
def rowTokens (f : Facet) (l : List (Nat × Bool × Bool)) : List Token := l.map fun x => mkTok f kData x.2.2 false false x.2.1 x.1
/-- The tokens of a row of nulls. -/
def nullTokens (f : Facet) (n : Nat) : List Token := List.replicate n (mkTok f kNull false false false false 0)
/-- A token with head and tail. -/
def Token.ends (k : Token) (head tail : Bool) : Token := { k with tag := setBit (setBit k.tag 2 head) 1 tail }
/-- A burst of a row; without ORD it begins with the row's ordinal. -/
def burst (f : Facet) (ord : Bool) (n : Nat) (l : List Token) : List Token :=
  let l := if ord then l else mkTok f kData false false false false n :: l
  l.zipIdx.map fun x => x.1.ends (x.2 == 0) (x.2 + 1 == l.length)

/-! Duplicates (R313, R314, R316) -/

/-- ROP as MATOM's operation (R314). -/
def ropOf (rop : Nat) : Nat := if rop < 8 then rop else if rop = 8 then 9 else if rop = 9 then 10 else if rop = 10 then 11 else 12
/-- The word of a row that holds one of its value tokens. -/
def tokWord (d : Gen) (r i : Nat) : Int := if d.unit < 8 then d.off (r * d.per + i) / 8 else i
/-- Of two duplicates that are scattered without ORD, each word takes one, by a free choice; a word that one of them leaves alone takes the
other. -/
def pickWords (d : Gen) (r free : Nat) (a b : List Token) : List Token :=
  let l := (a.zip b).zipIdx
  l.map fun x =>
    let mine := l.filter fun y => tokWord d r y.2 == tokWord d r x.2
    let n := (mine.head?.map (·.2)).getD x.2
    if mine.all (fun y => y.1.2.kind == kNull) then x.1.1
    else if mine.all (fun y => y.1.1.kind == kNull) then x.1.2
    else if Config.freePick (free + n) % 2 = 0 then x.1.1 else x.1.2
/-- The value tokens that the unit keeps of two duplicates, the second of the later index: with ORD the later value of each token, and for a
reduction the combined one. -/
def mergeVals (c : Cmd) (d : Gen) (r free : Nat) (a b : List Token) : List Token :=
  if c.op = opSscat ∧ !c.ord then pickWords d r free a b
  else (a.zip b).map fun x =>
    let u := x.1; let v := x.2
    if v.kind = kNull then u
    else if u.kind = kNull ∨ c.op = opSscat then v
    else
      let n := 8 * d.bytes
      { u with payload := BitVec.ofNat 64 (atomOp (ropOf (c.m 8 4)) d.bytes (fld u.payload 0 n) (fld v.payload 0 n)),
               tag := setBit u.tag 0 (u.poison || v.poison) }
/-- Duplicates merge (R316); the additions of .wadd to one accumulator stay apart, which gives the same sum. -/
def Cmd.merges (c : Cmd) : Bool := c.op != opSred || (c.m 8 4 != 11 && (c.m 8 4 != 8 || !c.ord))
/-- The slot of a row into which an index merges: a gather's as long as it stands, another's until it is issued. -/
def Cmd.mergeAt (c : Cmd) (r : Nat) : Option Nat :=
  if c.merges then c.slots.findIdx? fun x => x.row == some r && (!x.issued || c.op == opSgath) else none

/-! Entry (R311, R316) -/

/-- The index in hand: an in-range row, a row of nulls, or a trap. -/
inductive RowPick where
  | row (r : Nat)
  | nulls
  | trap
  deriving DecidableEq, Repr
/-- POL on an index (R311). -/
def pickRow (pol e : Nat) (x : Int) : RowPick :=
  if 0 ≤ x ∧ x < (e : Int) then .row x.toNat
  else if pol = 0 then .row (min (max x 0) ((e : Int) - 1)).toNat
  else if pol = 1 then .nulls else .trap
/-- The window has room for the index in hand (R316). -/
def Cmd.hasRoom (c : Cmd) (p : RowPick) : Bool :=
  decide (c.slots.length < 64) || (match p with
    | .row r => (c.mergeAt r).isSome
    | .nulls => c.op != opSgath
    | .trap => true)
/-- A row is requested: it is the newest of the row cache, which keeps 64 rows beside it, with its tokens once they are read (R316, R317). -/
def Cmd.cacheRow (c : Cmd) (r : Nat) (l : List Token) : Cmd := { c with cache := ((r, l) :: c.cache.filter fun y => y.1 != r).take 65 }
/-- The index in hand enters the window with its values; a cached row needs no access. -/
def Cmd.enter (c : Cmd) (f : Facet) (d : Gen) (free : Nat) (p : RowPick) : Cmd :=
  let n := c.taken
  let gath := c.op == opSgath
  let c' := { c with cur := none, taken := n + 1, buf := if gath then c.buf else [] }
  match p with
  | .trap => { c' with status := 4 }
  | .nulls => if gath then { c' with slots := c.slots ++ [⟨none, [n], nullTokens f (c.rowToks d), true, []⟩] } else c'
  | .row r =>
    match c.mergeAt r with
    | some i =>
      let c' := { c' with slots := c.slots.modify i fun x =>
        { x with ords := x.ords ++ [n], vals := if gath then x.vals else mergeVals c d r free x.vals c.buf } }
      if gath then c'.cacheRow r ((c.slots[i]?.map (·.vals)).getD []) else c'
    | none =>
      if gath then
        let l := ((c.cache.find? fun x => x.1 == r).map (·.2)).getD []
        Cmd.cacheRow { c' with slots := c.slots ++ [⟨some r, [n], l, !l.isEmpty, []⟩] } r l
      else { c' with slots := c.slots ++ [⟨some r, [n], c.buf, false, []⟩] }
/-- The next index is fetched (R310). The indices that follow a failing one are only counted off, since their rows of values are discarded
(R311); AGSTOP ends the index walk with status 12. -/
def State.fetchIndex (s : State) (t : Tile) (f : Facet) (c : Cmd) : State :=
  let gi := c.ag 0
  let g := s.gen t f gi
  if c.isrc then
    match s.mtHead t f (agPort gi) with
    | none => s
    | some k => s.mtTaking t f (agPort gi) fun s =>
        s.setCmd t f (if k.kind = kEor then { c with draining := true }
          else if k.poison && c.status == 0 then { c with status := 14, taken := c.taken + 1, cur := some 0 }
          else { c with cur := some (if k.kind = kNull then 0 else k.payload) })
  else if c.last ≤ c.pos then
    s.setCmd t f (if c.status = 0 && g.run == .stopping then { c with status := 12, last := g.count } else { c with draining := true })
  else if c.status ≠ 0 then s.setCmd t f { c with pos := c.pos + 1, cur := some 0, reads := [], reqs := c.reqs ++ c.reads }
  else if c.reads.isEmpty then
    match s.genWords t f gi c.pos 1 0 with
    | .wait s' => s'
    | .fail e s' => s'.failCmd t f c (statusOf e)
    | .ok l =>
      let x := s.engReads t f c 0 g.unit l
      x.1.setCmd t f { c with reads := x.2 }
  else match s.engData c.reads with
    | none => s
    | some l => match firstCause l with
      | some e => (s.engTake t f c.reads).failCmd t f { c with reads := [] } (statusOf e)
      | none =>
        let w := (okData l).headD (0, false, false)
        let x : Word := BitVec.ofInt 64 (signedOf (8 * g.bytes) w.1)
        ((s.engTake t f c.reads).modGen t f gi fun y => { y with spos := c.pos + 1 }).setCmd t f
          (if w.2.1 then { c with reads := [], pos := c.pos + 1, taken := c.taken + 1, status := 14, cur := some 0 }
           else { c with reads := [], pos := c.pos + 1, cur := some x })
/-- The values of the index in hand are taken, one token at a time, and it enters; while a command only drains, they are discarded. -/
def State.enterIndex (s : State) (t : Tile) (f : Facet) (c : Cmd) (w : Word) : State :=
  let d := s.gen t f (c.ag 2)
  let gath := c.op == opSgath
  let p := pickRow c.pol d.outerN w.toInt
  if !gath && decide (c.buf.length < c.rowToks d) then
    match s.mtHead t f (agPort (c.ag 2)) with
    | none => s
    | some k => s.mtTaking t f (agPort (c.ag 2)) fun s => s.setCmd t f { c with buf := c.buf ++ [k] }
  else if c.status ≠ 0 then s.setCmd t f { c with cur := none, buf := if gath then c.buf else [] }
  else if c.hasRoom p then State.setCmd { s with free := s.free + 512 } t f (c.enter f d s.free p)
  else s

/-! Issue and retirement (R312 to R316) -/

/-- An access of a slot fails (R290, R311): later indices leave the window, and earlier ones are still performed. Accesses already issued stay
the command's. -/
def Cmd.slotFails (c : Cmd) (x : Slot) (status : Nat) : Cmd :=
  let first := x.ords.headD 0
  let cut := c.slots.map fun y => { y with ords := y.ords.filter fun n => decide (n < first) }
  { c with status := if c.status = 0 then status else c.status, slots := cut.filter fun y => !y.ords.isEmpty,
           reqs := c.reqs ++ (cut.filter fun y => y.ords.isEmpty).flatMap (·.reqs) }
/-- The units of a scattered row with their values, and the bytes of each that are written: a whole word of a tag form is put together from
its elements. -/
def scatterVals (d : Gen) (form r : Nat) (vals : List Token) : List (Token × Nat) :=
  if d.unit < 8 ∧ (form = 4 ∨ form = 5) then
    (rowUnits d form r).map fun u =>
      let at_ (i : Nat) : Nat := (d.off (r * d.per + i) % 8).toNat
      let parts := vals.zipIdx.filter fun x => d.off (r * d.per + x.2) / 8 * 8 == u.1 && x.1.kind != kNull
      let v := parts.foldl (fun a x => coverMix ((2 ^ d.bytes - 1) * 2 ^ at_ x.2) a (fld x.1.payload 0 (8 * d.bytes) * 2 ^ (8 * at_ x.2))) 0
      let cover := parts.foldl (fun a x => a ||| (2 ^ d.bytes - 1) * 2 ^ at_ x.2) 0
      (mkTok 0 (if parts.isEmpty then kNull else kData) false false false (parts.any fun x => x.1.poison) v, cover)
  else vals.map fun k => (k, 0xFF)
/-- The requests of one element of a scattered or reduced row. -/
def State.elemWrites (s : State) (t : Tile) (f : Facet) (c : Cmd) (l : List ((Nat × Word) × (Int × Nat) × (Token × Nat))) : List Req :=
  joinLaunch (l.filterMap fun w =>
    let k := w.2.2.1
    let size := w.2.1.2
    if k.kind = kNull then none
    else if size = 64 then some { s.engWrite t f c c.rowForm 4 w.1 k.payload.toNat k.poison with size := 48, op := ropOf (c.m 8 4) }
    else some { s.engWrite t f c c.rowForm size w.1 k.payload.toNat k.poison with op := ropOf (c.m 8 4), cover := w.2.2.2 })
/-- The requests of a scattered or reduced row, element by element. -/
def State.rowWrites (s : State) (t : Tile) (f : Facet) (c : Cmd) (n : Nat) (l : List ((Nat × Word) × (Int × Nat) × (Token × Nat))) : List Req :=
  (List.range (l.length / max 1 n)).flatMap fun i => s.elemWrites t f c ((l.drop (i * n)).take n)
/-- A slot's entry in the window changes. -/
def Cmd.setSlot (c : Cmd) (x y : Slot) : Cmd := { c with slots := c.slots.map fun z => if z.ords = x.ords then y else z }
/-- A slot is issued: reads of a gather, or the writes or reductions of a row. -/
def State.issueSlot (s : State) (t : Tile) (f : Facet) (c : Cmd) (x : Slot) : State :=
  let d := s.gen t f (c.ag 2)
  let r := x.row.getD 0
  match s.rowWords t f d c.rowForm r with
  | .wait s' => s'
  | .fail e s' => s'.setCmd t f (c.slotFails x (statusOf e))
  | .ok l =>
    if c.op = opSred && c.m 8 4 == 11 && !l.all (fun w => accPage d w.2) then s.setCmd t f (c.slotFails x 2)
    else
      let us := rowUnits d c.rowForm r
      let qs := if c.op = opSgath then (us.zip l).map fun u => s.engReq t f c c.rowForm (BitVec.ofNat 64 u.2.1) u.2.2 u.2.1 u.1.2
        else s.rowWrites t f c (if c.op = opSred then 1 else d.toks) (l.zip (us.zip (scatterVals d c.rowForm r x.vals)))
      let y := (s.rowTouch t d c.rowForm r).engIssues t qs
      y.1.setCmd t f (c.setSlot x { x with issued := true, reqs := y.2 })
/-- The banks of an area that a slot uses. -/
def slotBanks (d : Gen) (form : Nat) (x : Slot) : List Int := ((rowUnits d form (x.row.getD 0)).map fun u => u.1 / 8 % 16).dedup
/-- The slots that are issued in a cycle (R316): of each bank the oldest pending one, or the oldest of all where the table lies in HBM. -/
def Cmd.toIssue (c : Cmd) (d : Gen) : List Slot :=
  let wait := c.slots.filter fun x => !x.issued
  if !d.tgt then wait.take 1
  else (wait.foldl (fun (acc : List Slot × List Int) x =>
    let bs := slotBanks d c.rowForm x
    (if bs.any acc.2.contains then acc.1 else acc.1 ++ [x], acc.2 ++ bs)) ([], [])).1
/-- The command as the state now has it. -/
def State.withCmd (s : State) (t : Tile) (f : Facet) (id : Nat) (h : Cmd → State) : State :=
  match ((s.mt t).fac f).cmds.find? (fun c => c.id == id) with
  | some c => h c
  | none => s
/-- The issue of a cycle. -/
def State.issueSlots (s : State) (t : Tile) (f : Facet) (c : Cmd) : State :=
  (c.toIssue (s.gen t f (c.ag 2))).foldl (fun s x =>
    s.withCmd t f c.id fun c => if c.slots.any (fun y => y.ords == x.ords) then s.issueSlot t f c x else s) s
/-- The first cause that an access of a slot has returned with. -/
def State.slotCause (s : State) (x : Slot) : Option Nat :=
  x.reqs.findSome? fun id => match s.findReq id with
    | some q => (match q.stage with
      | .replied (.cause e) => some e
      | _ => none)
    | none => none
/-- The accesses of a slot are performed. -/
def State.slotSettled (s : State) (x : Slot) : Bool :=
  x.issued && x.reqs.all fun id => match s.findReq id with
    | some q => q.settled
    | none => true
/-- What the accesses of a slot have come to: a failure, or the tokens of a gathered row. -/
def State.settleSlot (s : State) (t : Tile) (f : Facet) (c : Cmd) (x : Slot) : State × Cmd :=
  match s.slotCause x with
  | some e => (s, c.slotFails x (statusOf e))
  | none =>
    if c.op = opSgath ∧ x.issued ∧ x.vals.isEmpty then
      match s.engData x.reqs with
      | none => (s, c)
      | some l =>
        let row := rowTokens f (rowElems (s.gen t f (c.ag 2)) c.rowForm (x.row.getD 0) (okData l))
        (s.engTake t f x.reqs, { c.setSlot x { x with vals := row, reqs := [] } with
          cache := c.cache.map fun y => if some y.1 = x.row then (y.1, row) else y, res := satRes (c.res + poisonCount (okData l)) })
    else (s, c)
/-- Slots retire (R316): those of a scatter or a reduction whose accesses are performed, in index order with ORD. -/
def State.retireSlots (s : State) (c : Cmd) : Cmd :=
  if c.op = opSgath then c
  else
    let gone := if c.ord then c.slots.takeWhile s.slotSettled else c.slots.filter s.slotSettled
    { c with slots := if c.ord then c.slots.dropWhile s.slotSettled else c.slots.filter fun x => !s.slotSettled x,
             reqs := c.reqs ++ gone.flatMap (·.reqs) }
def pickOf {α : Type} (n : Nat) (l : List α) : Option α := l[n % max 1 l.length]?
/-- The slot whose row leaves next (R312): with ORD that of the first index, once its row is there, and otherwise any whose row is. -/
def Cmd.nextOut (c : Cmd) (n : Nat) : Option Slot :=
  if c.ord then
    (c.slots.foldl (fun (m : Option Slot) x => match m with
      | some y => if x.ords.headD 0 < y.ords.headD 0 then some x else m
      | none => some x) none).filter fun x => !x.vals.isEmpty
  else pickOf n (c.slots.filter fun x => !x.vals.isEmpty)
/-- A gathered row begins to leave: the burst of the first index that waits for it. -/
def Cmd.beginBurst (c : Cmd) (f : Facet) (x : Slot) : Cmd :=
  let c' := { c with buf := burst f c.ord (x.ords.headD 0) x.vals }
  if x.ords.length ≤ 1 then { c' with slots := c.slots.filter fun y => y.ords != x.ords } else c'.setSlot x { x with ords := x.ords.drop 1 }
/-- Rows leave on mo(DAG), a token a cycle. -/
def State.emitRows (s : State) (t : Tile) (f : Facet) (c : Cmd) : State :=
  if c.op ≠ opSgath then s
  else
    let x := s.pick
    let s := x.2
    let c := if c.buf.isEmpty then (c.nextOut x.1).elim c (c.beginBurst f) else c
    match c.buf with
    | k :: l => if s.mtRoomN t (agPort (c.ag 2)) 1 then (s.mtSend t (agPort (c.ag 2)) k []).setCmd t f { c with buf := l } else s.setCmd t f c
    | [] => s
/-- The end of an indexed command: a gather sends its end-of-run token (R312). -/
def State.endSparse (s : State) (t : Tile) (f : Facet) (c : Cmd) : State :=
  if c.op = opSgath then
    if s.mtRoomN t (agPort (c.ag 2)) 1 then
      (s.mtSend t (agPort (c.ag 2)) (eorTok f c.taken (c.status != 0)) []).doneCmd t f c
    else s
  else s.doneCmd t f c
/-- The entry of a cycle: the index in hand, or the next one, or the end. A save stops the index walk between its outer iterations (R390). -/
def State.entryStep (s : State) (t : Tile) (f : Facet) (c : Cmd) : State :=
  match c.cur with
  | some w => s.enterIndex t f c w
  | none =>
    if c.draining then
      if c.slots.isEmpty && (c.op != opSgath || c.buf.isEmpty) then s.endSparse t f c else s
    else if s.saving t f && (c.isrc || c.pos % max 1 (s.gen t f (c.ag 0)).per == 0) && c.reads.isEmpty then s
    else s.fetchIndex t f c
/-- One cycle of an indexed command: what has come back, rows that leave, an entry, and the issue (R316). -/
def State.stepSparse (s : State) (t : Tile) (f : Facet) (c : Cmd) : State :=
  let x := s.harvest t f c
  let y := x.2.slots.foldl (fun (y : State × Cmd) z => if y.2.slots.any (fun w => w.ords == z.ords) then y.1.settleSlot t f y.2 z else y) x
  let s := y.1.setCmd t f (y.1.retireSlots y.2)
  let s := s.withCmd t f c.id (s.emitRows t f)
  let s := s.withCmd t f c.id (s.entryStep t f)
  s.withCmd t f c.id fun c => if c.done then s else s.issueSlots t f c
/-- SPARSE_SLOT_ISSUE (R316): the unit works on the MT's running indexed command. -/
def execSparseSlotIssue (t : Tile) (s : State) : Out :=
  match (s.allCmds t).find? fun x => x.2.indexed && x.2.started && !x.2.done with
  | some (f, c) => when_ s (s.mtRuns t f) (s.stepSparse t f c)
  | none => .next s

end Sys2Proof.Machine
end

