-- ==== Sys2Proof/Machine/Commands.lean ====
section
/-! DEFINITION. The command unit takes command tokens (R286): the twelve stream commands, and those of them that act at once (R302 to
R304, R321 to R325). -/

namespace Sys2Proof.Machine

/-- The facet's command buffer has room (R286): fewer than 8 commands that have not started. -/
def State.bufferRoom (s : State) (t : Tile) (f : Facet) : Bool := decide ((((s.mt t).fac f).cmds.filter fun c => !c.started).length < 8)
/-- The command unit could take the facet's head token. -/
def State.canTake (s : State) (t : Tile) (f : Facet) : Bool := s.mtRuns t f && (s.mtHead t f 4).isSome && s.bufferRoom t f
/-- The facets from a pointer on, round-robin. -/
def facetsFrom (p : Facet) : List Facet := [p, p + 1, p + 2, p + 3]
/-- The facet that the command unit serves next (R286). -/
def State.commandTurn (s : State) (t : Tile) : Option Facet := (facetsFrom (s.mt t).takePtr).find? (s.canTake t)
/-- The token's operation. -/
def cmdOp (k : Token) : Nat := fld k.payload 0 8
/-- BV breaks the form of R284, or AV that of R324 and R325. -/
def operandBad (c : Cmd) : Bool :=
  let bv := c.bv.toNat
  if c.op = opAgstart ∨ c.op = opAgstop ∨ c.op = opWcvt then bv != 0
  else if c.op = opAgqry then c.m 2 2 == 3 && decide (8 ≤ bv)
  else if c.op = opDarm ∨ c.op = opDpost then decide (32 ≤ bv) || decide (2 ^ 15 ≤ c.av.toNat)
  else false
/-- A malformed command token (R286). -/
def malformed (k : Token) : Bool :=
  let c := newCmd 0 k none
  k.poison || decide (c.op < opScopy) || decide (opWcvt < c.op) || !engineModOk c.op c.mod || operandBad c
/-- The head token of a facet whose turn it is, if a predicate holds of it. -/
def State.takeable (s : State) (t : Tile) (f : Facet) (h : Token → Bool) : Option Token :=
  if s.commandTurn t = some f then (s.mtHead t f 4).filter h else none
/-- The unit consumes the head token and acts; the next facet is served next. -/
def State.commandTake (s : State) (t : Tile) (f : Facet) (h : Token → Bool) (act : Token → State → State) : Out :=
  match s.takeable t f h with
  | some k => .next ((s.mtTaking t f 4 (act k)).modMt t fun m => { m with takePtr := f + 1 })
  | none => .next s
/-- A well-formed command of an operation. -/
def isCommand (op : Nat) (k : Token) : Bool := k.kind != kNull && !malformed k && cmdOp k == op
/-- MALFORMED_COMMAND_TOKEN (R286): status 1 at once. -/
def execMalformedCommandToken (t : Tile) (f : Facet) (s : State) : Out :=
  s.commandTake t f (fun k => k.kind != kNull && malformed k) fun k s => s.complete t f none (cmdOp k) 1 none false .pair []
/-- NULL_COMMAND_TOKEN (R286): a null leaves on mo4. -/
def execNullCommandToken (t : Tile) (f : Facet) (s : State) : Out :=
  s.commandTake t f (fun k => k.kind == kNull) fun k s =>
    s.modMt t fun m => { m with pend4 := m.pend4 ++ [⟨f, mkTok f kNull k.pred false false false 0, .pair, []⟩] }

/-- The head token is taken and acts in the next cycle (R286). -/
def State.quickTake (s : State) (t : Tile) (f : Facet) (op : Nat) : Out :=
  s.commandTake t f (isCommand op) fun k s => s.modMtFac t f fun x => { x with quick := x.quick ++ [k] }
/-- A command of an operation that was taken in an earlier cycle acts; without one the head token is taken (R286). -/
def State.quickStep (s : State) (t : Tile) (f : Facet) (op : Nat) (act : Token → State → State) : Out :=
  match ((s.mt t).fac f).quick with
  | k :: l =>
    if isCommand op k then when_ s (s.mtRuns t f) (act k (s.modMtFac t f fun x => { x with quick := l }))
    else s.quickTake t f op
  | [] => s.quickTake t f op

/-! Commands that are buffered or parked (R286, R323) -/

/-- A command enters the buffer. -/
def State.bufferCmd (s : State) (t : Tile) (f : Facet) (c : Cmd) : State :=
  s.bumpId.modMtFac t f fun x => { x with cmds := x.cmds ++ [{ c with id := s.nextId }] }
/-- A command with DV = 1 is parked in its node; a node of another facet, or with a command, gives status 11 (R322, R323). -/
def State.parkCmd (s : State) (t : Tile) (f : Facet) (c : Cmd) (k : Token) : State :=
  let i : Fin 32 := Fin.ofNat 32 c.bv.toNat
  let n := s.node t i
  if n.foreign f || n.parked.isSome then s.endCmd t f { c with status := 11, done := true }
  else s.setNode t i { n with parked := some k, owner := some f }
/-- A stream command is taken: buffered, or parked where its dependence word has DV = 1. -/
def State.streamTaken (t : Tile) (f : Facet) (k : Token) (s : State) : State :=
  let c := newCmd s.nextId k none
  if bit c.bv 5 then s.parkCmd t f c k else s.bufferCmd t f c
def State.takeStream (s : State) (t : Tile) (f : Facet) (op : Nat) : Out := s.commandTake t f (isCommand op) (State.streamTaken t f)

/-- SCOPY_COMMAND (R306). -/
def execScopyCommand (t : Tile) (f : Facet) (s : State) : Out := s.takeStream t f opScopy
/-- SGATH_COMMAND (R312). -/
def execSgathCommand (t : Tile) (f : Facet) (s : State) : Out := s.takeStream t f opSgath
/-- SSCAT_COMMAND (R313). -/
def execSscatCommand (t : Tile) (f : Facet) (s : State) : Out := s.takeStream t f opSscat
/-- SRED_COMMAND (R314). -/
def execSredCommand (t : Tile) (f : Facet) (s : State) : Out := s.takeStream t f opSred
/-- SCOMP_COMMAND (R318). -/
def execScompCommand (t : Tile) (f : Facet) (s : State) : Out := s.takeStream t f opScomp
/-- SEXP_COMMAND (R319). -/
def execSexpCommand (t : Tile) (f : Facet) (s : State) : Out := s.takeStream t f opSexp
/-- AGSTART_COMMAND (R302): it has no dependence word. -/
def execAgstartCommand (t : Tile) (f : Facet) (s : State) : Out :=
  s.commandTake t f (isCommand opAgstart) fun k s => s.bufferCmd t f (newCmd s.nextId k none)

/-! Commands that act in the cycle after they are taken -/

/-- The completion of a command that acts at once. -/
def State.answerCmd (s : State) (t : Tile) (f : Facet) (c : Cmd) (res : Option Nat) (status : Nat) : State :=
  s.complete t f res c.op status none false .pair []
/-- Tokens that a write walk has taken for an element that it is not to write go back to their queue. -/
def State.untake (s : State) (t : Tile) (f : Facet) (c : Cmd) : State :=
  s.modMtFac t f fun x => { x with inq := vmod x.inq (agPort (c.ag 0)) (c.buf.map (fun k => { tok := k, entered := 0 }) ++ ·) }
/-- AGSTOP on a running AGSTART (R303): the first ordinal that is no longer walked, and the next or the current outer iteration. -/
def stopPoint (c : Cmd) (g : Gen) (now : Bool) : Nat × Nat :=
  let per := max 1 g.per
  if now then
    let last := if c.buf.isEmpty then g.spos else g.spos + 1
    (last, if c.pos = 0 ∧ c.buf.isEmpty then g.spos / per else (last - 1) / per)
  else if g.spos % per = 0 then (g.spos, g.spos / per)
  else ((g.spos / per + 1) * per, g.spos / per + 1)
/-- The stop of another command than AGSTART: the same by the elements that it has read or written, whole words with XFILL, and rows of
values that are not yet used go back; the first ordinal that is no longer walked, and RES. An element whose reads are out is the current
one. -/
def stopOther (x : Cmd) (g : Gen) (now : Bool) : Nat × Nat :=
  let per := max 1 g.per
  let n := if x.op = opSexp then x.expandN g else 1
  let next := if now then (if x.reads.isEmpty && (x.op != opSexp || (x.buf.isEmpty && x.cache.isEmpty)) then x.pos else x.pos + 1)
    else (x.pos + per - 1) / per * per
  let last := min x.last ((next + n - 1) / n * n)
  (last, if now then (max 1 last - 1) / per else last / per)
/-- The effect of AGSTOP on a running command (R303): an AGSTART and the commands that walk the generator stop at its element or outer
iteration. The rows of an indexed command's table are no walk of their generator: it takes no further index, and the spec gives it no RES
(DESIGN CHOICE, log 68). -/
def State.stopRunning (s : State) (t : Tile) (f : Facet) (c x : Cmd) (g : Gen) : State :=
  let now := c.m 2 1 == 1
  let stopping (s : State) : State := s.modGen t f (c.ag 0) fun y => { y with run := .stopping }
  if x.op = opAgstart then
    let p := stopPoint x g now
    let drop := p.1 == g.spos
    let s := if drop then s.untake t f x else s
    (stopping (s.setCmd t f { x with last := p.1, buf := if drop then [] else x.buf })).answerCmd t f c (some p.2) 0
  else if x.indexed && c.ag 0 == x.ag 2 then (stopping (s.setCmd t f { x with status := 12 })).answerCmd t f c none 0
  else
    let p := stopOther x g now
    let drop := x.op == opSexp && p.1 == x.pos
    let s := if drop then s.untake t f x else s
    (stopping (s.setCmd t f { x with last := p.1, buf := if drop then [] else x.buf })).answerCmd t f c (some p.2) 0
/-- The effect of AGSTOP (R303, R327). -/
def State.agStop (s : State) (t : Tile) (f : Facet) (c : Cmd) : State :=
  let g := s.gen t f (c.ag 0)
  if !g.configured || g.haspar then s.answerCmd t f c none 2
  else match s.cmdOn t f (c.ag 0) with
    | none => s.answerCmd t f c (some 0) 0
    | some x =>
      if x.draining || x.status != 0 || (if x.op = opAgstart then decide (g.count ≤ g.spos) else decide (x.last ≤ x.pos)) then
        s.answerCmd t f c (some 0) 0
      else s.stopRunning t f c x g
/-- AGSTOP_COMMAND (R303). -/
def execAgstopCommand (t : Tile) (f : Facet) (s : State) : Out :=
  s.quickStep t f opAgstop fun k s => s.agStop t f (newCmd 0 k none)
/-- The code of STATE (R304). -/
def runCode : GenRun → Nat
  | .idle => 0 | .running => 1 | .waiting => 2 | .stopping => 3
/-- The word that SEL 00 gives. -/
def State.agState (s : State) (t : Tile) (f : Facet) (i : Fin 4) : Nat :=
  let g := s.gen t f i
  runCode g.run + 4 * g.wr.toNat + 8 * g.levels + 64 * g.haspar.toNat +
    128 * ((s.walkOf (.gen t f i)).any (fun w => w.result.isNone)).toNat + 256 * (g.spos / max 1 g.per % 2 ^ 24)
/-- The effect of AGQRY (R304). -/
def State.agQuery (s : State) (t : Tile) (f : Facet) (c : Cmd) : State :=
  let g := s.gen t f (c.ag 0)
  let sel := c.m 2 2
  if !g.configured then s.answerCmd t f c none 2
  else if sel = 0 then s.answerCmd t f c (some (s.agState t f (c.ag 0))) 0
  else if sel = 1 then s.answerCmd t f c (some (g.spos % 2 ^ 32)) 0
  else if sel = 2 then s.answerCmd t f c (some (g.spos / 2 ^ 32 % 2 ^ 16)) 0
  else if g.levels ≤ c.bv.toNat then s.answerCmd t f c none 2
  else s.answerCmd t f c (some (g.index g.spos c.bv.toNat)) 0
/-- AGQRY_COMMAND (R304). -/
def execAgqryCommand (t : Tile) (f : Facet) (s : State) : Out :=
  s.quickStep t f opAgqry fun k s => s.agQuery t f (newCmd 0 k none)
/-- RES of DARM and DPOST: COUNT, sign-extended. -/
def countRes (n : DepNode) : Option Nat := some (wrapInt 32 n.count)
/-- The effect of DARM (R322, R324, R326). -/
def State.arm (s : State) (t : Tile) (f : Facet) (c : Cmd) : State :=
  let i : Fin 32 := Fin.ofNat 32 c.bv.toNat
  let n := s.node t i
  if n.foreign f then s.answerCmd t f c none 11
  else if n.armed then s.answerCmd t f c (countRes n) 11
  else
    let x := n.add f c.av.toNat
    let n := { x.1 with armed := true, compute := c.m 0 1 == 1 }
    (s.setNode t i n).answerCmd t f c (countRes n) (if x.2 then 0 else 11)
/-- DARM_COMMAND (R324). -/
def execDarmCommand (t : Tile) (f : Facet) (s : State) : Out :=
  s.quickStep t f opDarm fun k s => s.arm t f (newCmd 0 k none)
/-- The effect of DPOST (R322, R325, R326). -/
def State.post (s : State) (t : Tile) (f : Facet) (c : Cmd) : State :=
  let i : Fin 32 := Fin.ofNat 32 c.bv.toNat
  let n := s.node t i
  if n.foreign f then s.answerCmd t f c none 11
  else
    let x := n.add f (-(c.av.toNat : Int))
    (s.setNode t i x.1).answerCmd t f c (countRes x.1) (if x.2 then 0 else 11)
/-- DPOST_COMMAND (R325). -/
def execDpostCommand (t : Tile) (f : Facet) (s : State) : Out :=
  s.quickStep t f opDpost fun k s => s.post t f (newCmd 0 k none)
/-- The checks of WCVT (R293, R315, R321). -/
def State.wcvtPass (s : State) (t : Tile) (f : Facet) (c : Cmd) : Bool :=
  let g := s.gen t f (c.ag 0)
  s.genPasses t f g && g.esz == 6 && decide (c.av.toNat < g.count) && accAddr g
/-- The effect of WCVT: its access is issued, or it ends. -/
def State.wcvtStart (s : State) (t : Tile) (f : Facet) (c : Cmd) : State :=
  if s.wcvtPass t f c then
    let c := { c with started := true }
    (s.bufferCmd t f c).stepWcvt t f c
  else s.endCmd t f { c with status := 2, done := true }
/-- WCVT_COMMAND (R321). -/
def execWcvtCommand (t : Tile) (f : Facet) (s : State) : Out :=
  s.quickStep t f opWcvt fun k s => s.wcvtStart t f (newCmd s.nextId k none)

end Sys2Proof.Machine
end

