-- ==== Sys2Proof/Machine/Matrix.lean ====
section
/-! DEFINITION. The matrix unit (R328 to R346): taking commands, start checks, operands, firing, effect, stores and results. -/

namespace Sys2Proof.Machine

/-! Commands (R330, R331, R344) -/

def opMma : Nat := 0xC0
def opMldb : Nat := 0xC1
def opMscale : Nat := 0xC2
def opMaclr : Nat := 0xC3
def opMsto : Nat := 0xC4
def opMrda : Nat := 0xC5
def opMswap : Nat := 0xC6
def opMqry : Nat := 0xC7
def opMslot : Nat := 0xC8
def opMfence : Nat := 0xC9
def MxCmd.m (c : MxCmd) (lo n : Nat) : Nat := fld c.mod lo n
def MxCmd.fmt (c : MxCmd) : Nat := c.m 0 4
def MxCmd.strm (c : MxCmd) : Bool := bit c.mod 6
def MxCmd.zero (c : MxCmd) : Bool := bit c.mod 7
def MxCmd.out (c : MxCmd) : Bool := bit c.mod 8
def MxCmd.mx (c : MxCmd) : Bool := bit c.mod 9
def MxCmd.rel (c : MxCmd) : Bool := bit c.mod 10
def MxCmd.budget (c : MxCmd) : Nat := 2 ^ (12 - c.m 11 4)
def MxCmd.off (c : MxCmd) : Nat := fld c.av 0 17
def MxCmd.rows (c : MxCmd) : Nat := fld c.av 17 5 + 1
def MxCmd.frow (c : MxCmd) : Nat := fld c.av 22 5
def MxCmd.lay (c : MxCmd) : Nat := c.m 0 4
def MxCmd.clr (c : MxCmd) : Bool := bit c.mod 5
def MxCmd.form (c : MxCmd) : Nat := c.m 6 2
/-- The scope of the completion (R330): codes 0 to 2 mean pair. -/
def MxCmd.scope (c : MxCmd) : Scope :=
  if (c.op = opMsto ∨ c.op = opMfence) ∧ 2 < c.m 15 3 then Scope.ofBits (BitVec.ofNat 3 (c.m 15 3)) else .pair
/-- The layout of R331 is kept. -/
def MxCmd.rowsOk (c : MxCmd) : Bool := fld c.av 27 5 == 0 && decide (c.frow + c.rows ≤ 32)
/-- What a command shares with others of its facet (R333): banks 0 and 1, buffers 2 and 3, and the array 4. -/
def MxCmd.uses (c : MxCmd) : List Nat :=
  if c.op = opMma then [c.accPhys.val, 2 + c.bufPhys.val, 4] else if c.op = opMldb then [2 + c.bufPhys.val]
  else if c.op = opMaclr ∨ c.op = opMsto ∨ c.op = opMrda then [c.accPhys.val] else []

def State.mxf (s : State) (t : Tile) (f : Facet) : MxFacet := ((s.mt t).fac f).mx
def State.modMx (s : State) (t : Tile) (f : Facet) (g : MxFacet → MxFacet) : State := s.modMtFac t f fun x => { x with mx := g x.mx }
def State.setMxCmd (s : State) (t : Tile) (f : Facet) (c : MxCmd) : State :=
  s.modMx t f fun x => { x with cmds := x.cmds.map fun y => if y.id = c.id then c else y }
/-- A completion is queued for mo6, and a status other than 0 raises its cause (R332). RES is a free value where no rule gives it. -/
def State.mxComplete (s : State) (t : Tile) (f : Facet) (result : Option Nat) (op status : Nat) : State :=
  let res := result.getD (Config.freeWord s.free).toNat
  let s : State := if result.isNone then { s with free := s.free + 1 } else s
  let tok := mkTok f kData (status != 0) false false false (doneWord res op status none false)
  let s := if status = 0 then s else s.cause t f (0x120 + status) false (res % 2 ^ 32)
  (s.modMt t fun m => { m with pend6 := m.pend6 ++ [⟨f, tok, .pair, []⟩] }).phaseCommit t f

/-! The slot table (R173, R337) -/

/-- The entry of the current slot in the region that contains the pair. -/
def State.slotEntry (s : State) (t : Tile) : Word := match s.regionOf t with
  | some r => tget (s.rg r).slottb (s.die t.die).slot 0
  | none => 0
def State.slotEn (s : State) (t : Tile) : Bool := match s.regionOf t with
  | some r => bit (s.rg r).ctl 19
  | none => false
/-- The slot admits the facet (R337). -/
def State.admits (s : State) (t : Tile) (f : Facet) : Bool :=
  let e := s.slotEntry t
  !(s.slotEn t && bit e 2) || fld e 0 2 == f.val

/-! Taking commands (R330, R333) -/

def State.mxCanTake (s : State) (t : Tile) (f : Facet) : Bool :=
  s.mtRuns t f && (s.mtHead t f 6).isSome && decide ((s.mxf t f).cmds.length < 8)
def State.mxTurn (s : State) (t : Tile) : Option Facet := (facetsFrom (s.mt t).mxTake).find? (s.mxCanTake t)
/-- The unit consumes the head token of mi6 of the facet whose turn it is, if a predicate holds of it. -/
def State.mxTaking (s : State) (t : Tile) (f : Facet) (h : Token → Bool) (act : Token → State → State) : Out :=
  if s.mxTurn t = some f then
    match (s.mtHead t f 6).filter h with
    | some k => .next ((s.mtTaking t f 6 (act k)).modMt t fun m => { m with mxTake := f + 1 })
    | none => .next s
  else .next s
def mxMalformed (k : Token) : Bool :=
  k.poison || !matrixModOk (cmdOp k) (BitVec.ofNat 18 (fld k.payload 8 18))
def isMatrix (op : Nat) (k : Token) : Bool := k.kind != kNull && !mxMalformed k && cmdOp k == op
/-- MALFORMED_MATRIX_TOKEN (R330): status 1 at once. -/
def execMalformedMatrixToken (t : Tile) (f : Facet) (s : State) : Out :=
  s.mxTaking t f (fun k => k.kind != kNull && mxMalformed k) fun k s => s.mxComplete t f none (cmdOp k) 1
/-- NULL_MATRIX_TOKEN (R330): a null leaves on mo6. -/
def execNullMatrixToken (t : Tile) (f : Facet) (s : State) : Out :=
  s.mxTaking t f (fun k => k.kind == kNull) fun k s =>
    s.modMt t fun m => { m with pend6 := m.pend6 ++ [⟨f, mkTok f kNull k.pred false false false 0, .pair, []⟩] }
/-- A bank or buffer through its map bit (R329). -/
def physical (logical map : Bool) : Fin 2 := if logical == map then 0 else 1
/-- A command as it is taken (R333). -/
def State.newMx (s : State) (t : Tile) (f : Facet) (k : Token) : MxCmd :=
  let x := s.mxf t f
  let op := cmdOp k
  let md : BitVec 18 := BitVec.ofNat 18 (fld k.payload 8 18)
  let bv : BitVec 6 := BitVec.ofNat 6 (fld k.payload 58 6)
  let sc (lo : Nat) : Nat := (x.sc.get (Fin.ofNat 8 (fld bv lo 3))).toNat
  { id := s.nextId, op := op, mod := md, av := BitVec.ofNat 32 (fld k.payload 26 32), bv := bv,
    accPhys := physical (bit md 4) x.amap, bufPhys := physical (bit md 5) x.bmap,
    sigma := if op = opMma then (fMul 0 0 (sc 0) (sc 3)).1 else 0, taken := s.time t / 1000, started := false, phase := 0, read := 0,
    fired := 0, effect := 0, poisoned := 0, burst := [], reqs := [], status := 0, done := false }
/-- A command enters the buffer. -/
def State.bufferMx (t : Tile) (f : Facet) (k : Token) (s : State) : State :=
  s.bumpId.modMx t f fun x => { x with cmds := x.cmds ++ [s.newMx t f k] }
def State.takeMx (s : State) (t : Tile) (f : Facet) (op : Nat) : Out := s.mxTaking t f (isMatrix op) (State.bufferMx t f)
/-- MMA_COMMAND (R333). -/
def execMmaCommand (t : Tile) (f : Facet) (s : State) : Out := s.takeMx t f opMma
/-- MLDB_COMMAND (R336). -/
def execMldbCommand (t : Tile) (f : Facet) (s : State) : Out := s.takeMx t f opMldb
/-- MACLR_COMMAND (R345). -/
def execMaclrCommand (t : Tile) (f : Facet) (s : State) : Out := s.takeMx t f opMaclr
/-- MSTO_COMMAND (R340). -/
def execMstoCommand (t : Tile) (f : Facet) (s : State) : Out := s.takeMx t f opMsto
/-- MRDA_COMMAND (R343). -/
def execMrdaCommand (t : Tile) (f : Facet) (s : State) : Out := s.takeMx t f opMrda
/-- MFENCE_COMMAND (R345). -/
def execMfenceCommand (t : Tile) (f : Facet) (s : State) : Out := s.takeMx t f opMfence
/-- MSCALE sets a scale register (R345); BV[5:3] must be 0. -/
def State.mscale (s : State) (t : Tile) (f : Facet) (c : MxCmd) : State :=
  if 8 ≤ c.bv.toNat then s.mxComplete t f none c.op 2
  else (s.modMx t f fun x => { x with sc := vset x.sc (Fin.ofNat 8 c.bv.toNat) c.av }).mxComplete t f none c.op 0
/-- A command of an operation that was taken in an earlier cycle acts; without one the head token is taken, to act in the next (R333). -/
def State.mxQuickTake (s : State) (t : Tile) (f : Facet) (op : Nat) : Out :=
  s.mxTaking t f (isMatrix op) fun k s => s.modMx t f fun x => { x with quick := x.quick ++ [k] }
def State.mxQuickStep (s : State) (t : Tile) (f : Facet) (op : Nat) (act : Token → State → State) : Out :=
  match (s.mxf t f).quick with
  | k :: l =>
    if isMatrix op k then when_ s (s.mtRuns t f) (act k (s.modMx t f fun x => { x with quick := l }))
    else s.mxQuickTake t f op
  | [] => s.mxQuickTake t f op
/-- MSCALE_COMMAND (R345). -/
def execMscaleCommand (t : Tile) (f : Facet) (s : State) : Out :=
  s.mxQuickStep t f opMscale fun k s => s.mscale t f (s.newMx t f k)
/-- MSWAP toggles map bits at take (R345). -/
def State.mswap (s : State) (t : Tile) (f : Facet) (c : MxCmd) : State :=
  (s.modMx t f fun x => { x with amap := x.amap ^^ bit c.mod 0, bmap := x.bmap ^^ bit c.mod 1 }).mxComplete t f none c.op 0
/-- MSWAP_COMMAND (R345). -/
def execMswapCommand (t : Tile) (f : Facet) (s : State) : Out :=
  s.mxTaking t f (isMatrix opMswap) fun k s => s.mswap t f (s.newMx t f k)
/-- RES of MQRY .state (R345). -/
def MxFacet.stateWord (x : MxFacet) : Nat :=
  let loaded (b : Bool) : Nat := (x.b.get (physical b x.bmap)).loaded.toNat
  let mma := x.cmds.find? fun c => c.op == opMma && c.started
  loaded false + 2 * loaded true + 4 * x.amap.toNat + 8 * x.bmap.toNat + 16 * (x.cmds.length % 16) + 256 * mma.isSome.toNat +
    512 * (match mma with
      | some c => (c.rows - c.fired) % 64
      | none => 0)
/-- RES of MQRY .slot (R345). -/
def State.slotWord (s : State) (t : Tile) (f : Facet) : Nat :=
  let e := s.slotEntry t
  (s.die t.die).slot % 64 + 64 * (bit e 2).toNat + 128 * fld e 0 2 + 512 * (s.slotEn t).toNat + 1024 * (s.admits t f).toNat
/-- MQRY answers (R345). -/
def State.mqry (s : State) (t : Tile) (f : Facet) (c : MxCmd) : State :=
  let x := s.mxf t f
  if c.m 0 2 = 0 then s.mxComplete t f (some x.stateWord) c.op 0
  else if c.m 0 2 = 2 then s.mxComplete t f (some (s.slotWord t f)) c.op 0
  else if 8 ≤ c.bv.toNat then s.mxComplete t f none c.op 2
  else s.mxComplete t f (some (x.sc.get (Fin.ofNat 8 c.bv.toNat)).toNat) c.op 0
/-- MQRY_COMMAND (R345). -/
def execMqryCommand (t : Tile) (f : Facet) (s : State) : Out :=
  s.mxQuickStep t f opMqry fun k s => s.mqry t f (s.newMx t f k)

/-! Accumulator rows (R329) -/

def State.accRow (s : State) (t : Tile) (f : Facet) (b : Fin 2) (i : Nat) : AccRow := tget ((s.mxf t f).acc.get b) i ⟨0, false⟩
/-- A row changes, and comparators of type 010 see it (R445). -/
def State.setAccRow (s : State) (t : Tile) (f : Facet) (b : Fin 2) (i : Nat) (r : AccRow) : State :=
  (s.modMx t f fun x => { x with acc := vmod x.acc b fun a => tset a i r }).dbgEvent t f 2 fun v =>
    fld v 0 1 == b.val && fld v 1 5 == i && fld v 11 53 == 0
/-- Word n of a row. -/
def AccRow.word (r : AccRow) (n : Nat) : Nat := fld r.words (32 * n) 32
def ofWords (l : List Nat) : BitVec 1024 := BitVec.ofNat 1024 (l.zipIdx.foldl (fun a x => a + x.1 % 2 ^ 32 * 2 ^ (32 * x.2)) 0)
/-- The rows of a command become 0. -/
def State.clearRows (s : State) (t : Tile) (f : Facet) (c : MxCmd) : State :=
  (List.range c.rows).foldl (fun s k => s.setAccRow t f c.accPhys (c.frow + k) ⟨0, false⟩) s

/-! Reads and requests in the area -/

def State.mxReq (s : State) (t : Tile) (f : Facet) (c : MxCmd) (form pa size : Nat) : Req :=
  { id := s.nextId, src := .matrix t f c.id, form := form, loc := BitVec.ofNat 64 pa, addr := pa, size := size, region := s.regionOf t,
    die := t.die, facet := f, reach := ((s.mt t).fac f).reach, budget := c.budget, fe := bit pairLeaf 9, sync := bit pairLeaf 10,
    qcls := fld pairLeaf 13 2, gl := fld pairLeaf 7 2, cls := fld pairLeaf 52 4 }
/-- n bytes of the area: the number that they spell, and whether a word of them is poisoned or lost, with what its check does (R216, R334). -/
def State.areaRead (s : State) (t : Tile) (f : Facet) (c : MxCmd) (m : MtMode) (byteOff n : Nat) : State × Nat × Bool :=
  let pa := mtBase t + 8 * m.mbase + byteOff
  let ws := wordsAt pa n
  (ws.foldl (fun s w => s.dbgMt t f (w - mtBase t / 8 - m.mbase) true false) (s.noteWords (s.mxReq t f c 0 pa n)), s.mem.readSeen pa n,
    ws.any fun w => s.mem.isPoison (8 * w))
/-- Two runs of the area are read in one cycle once their banks are free (R208, R334). -/
def State.areaTurn (s : State) (t : Tile) (f : Facet) (m : MtMode) (a b : Nat × Nat) (act : State → State) : State :=
  let pa := mtBase t + 8 * m.mbase
  s.inTurn (portTurn t (24 + f.val)) (accessOf (wordsAt (pa + a.1) a.2 ++ (if b.2 = 0 then [] else wordsAt (pa + b.1) b.2))) act
/-- The words from lo to hi of the area lie in one buffer of a MODE 00 area (R298). -/
def MtMode.oneBuf (m : MtMode) (lo hi : Nat) : Bool :=
  m.mode == 0 && decide (0 < m.bufw) && lo / m.bufw == hi / m.bufw && decide (lo / m.bufw ≤ m.nbuf)
/-- The physical address of the first word of the buffer that holds a word of the area. -/
def bufFirst (t : Tile) (m : MtMode) (w : Nat) : Nat := mtBase t + 8 * (m.mbase + w / max 1 m.bufw * m.bufw)
/-- A command waits on the tag of its buffer's first word (R334, R342): it asks, and goes on when the answer has come. -/
def State.mxWait (s : State) (t : Tile) (f : Facet) (c : MxCmd) (m : MtMode) (form : Nat) : State :=
  if c.phase = 0 then
    let q := s.mxReq t f c form (bufFirst t m c.off) 8
    (s.engIssue t q).setMxCmd t f { c with phase := 1, reqs := [q.id] }
  else match s.engData c.reqs with
    | none => s
    | some l =>
      let s := s.engTake t f c.reqs
      if (firstCause l).isSome then s.setMxCmd t f { c with reqs := [], status := 6, done := true }
      else s.setMxCmd t f { c with reqs := [], phase := 2 }
/-- The tag-empty that releases a tile (R334). -/
def State.mxRelease (s : State) (t : Tile) (f : Facet) (c : MxCmd) (m : MtMode) : State :=
  let q := s.mxReq t f c 6 (bufFirst t m c.off) 8
  (s.engIssue t q).setMxCmd t f { c with phase := 3, reqs := c.reqs ++ [q.id] }

/-! Start checks -/

def mxWidth (fmt : Nat) : Nat := if fmt = 1 ∨ fmt = 2 then 16 else if fmt = 5 ∨ fmt = 9 then 4 else 8
def mxIsInt (fmt : Nat) : Bool := 8 ≤ fmt
/-- A tile of n words at OFF lies in the area, and with REL in one buffer. -/
def tileOk (m : Option MtMode) (off n : Nat) (rel : Bool) : Bool := match m with
  | some m => decide (off + n ≤ m.msize) && (!rel || m.oneBuf off (off + n - 1))
  | none => false
/-- Words of a tile of n rows of 64 bytes, with their scales (R334, R336). -/
def tileWords (n : Nat) (mx : Bool) : Nat := 8 * n + if mx then (n + 1) / 2 else 0
/-- The start checks of MMA (R334, R344). -/
def mmaOk (m : Option MtMode) (c : MxCmd) (b : BBuf) : Bool :=
  c.rowsOk && b.loaded && mxWidth b.fmt == mxWidth c.fmt && mxIsInt b.fmt == mxIsInt c.fmt && b.mx == c.mx &&
  (c.strm || tileOk m c.off (tileWords c.rows c.mx) c.rel)
def mldbOk (m : Option MtMode) (c : MxCmd) : Bool := fld c.av 17 15 == 0 && (c.strm || tileOk m c.off (tileWords 32 c.mx) c.rel)

/-! MSTO (R340 to R342) -/

/-- The elements and the scale of an MX block (R341): format 3 or 5. -/
def mxPack (fmt : Nat) (xs : List FVal) : List Nat × Nat :=
  if xs.any fun x => x.isNan || x.isInf then (xs.map fun _ => 0, 0xFF)
  else
    let top (x : FVal) : Option Int := match x with
      | .fin _ 0 _ => none
      | .fin _ m e => some (e + (bitLen m : Int) - 1)
      | _ => none
    match (xs.filterMap top).max? with
    | none => (xs.map fun _ => 0, 0x7F)
    | some e =>
      let code := min (max (e - (if fmt = 3 then 8 else 2) + 127) 0) 254
      let scaled (x : FVal) : FVal := match x with
        | .fin n m e' => .fin n m (e' + 127 - code)
        | y => y
      (xs.map fun x => (floatToFloat fmt 0 true (scaled x)).1, code.toNat)
/-- A piece of a store: byte offset from byte 0 of the area, size up to 8, data, and the stored rows that it touches. -/
structure Piece where
  off : Nat
  size : Nat
  data : Nat
  rows : List Nat
  deriving DecidableEq, Repr
/-- The whole words that packed elements of a width make. -/
def packRow (base w k : Nat) (l : List Nat) : List Piece :=
  let v := l.zipIdx.foldl (fun a x => a + x.1 % 2 ^ w * 2 ^ (w * x.2)) 0
  (List.range (l.length * w / 64)).map fun j => ⟨base + 8 * j, 8, v / 2 ^ (64 * j) % 2 ^ 64, [k]⟩
/-- The scale bytes of M rows, by the words that they share. -/
def packScales (base : Nat) (l : List Nat) : List Piece :=
  (List.range ((l.length + 7) / 8)).map fun j =>
    let g := (l.drop (8 * j)).take 8
    ⟨base + 8 * j, g.length, g.zipIdx.foldl (fun a x => a + x.1 % 256 * 256 ^ x.2) 0, (List.range g.length).map (8 * j + ·)⟩
/-- The pieces that MSTO writes of its stored rows (R340). -/
def mstoPieces (lay off : Nat) (rows : List (List Nat)) : List Piece :=
  let elem (k n : Nat) : Nat := (rows.getD k []).getD n 0
  let n := rows.length
  let each (words w : Nat) (conv : Nat → Nat) : List Piece :=
    rows.zipIdx.flatMap fun x => packRow (8 * (off + words * x.2)) w x.2 (x.1.map conv)
  let packed (words w fmt scales : Nat) : List Piece :=
    let ps := rows.map fun r => mxPack fmt (r.map (fdec 0))
    ps.zipIdx.flatMap (fun x => packRow (8 * (off + words * x.2)) w x.2 x.1.1) ++ packScales (8 * off + scales) (ps.map (·.2))
  match lay with
  | 0 => each 16 32 id
  | 1 => (List.range 32).flatMap fun c => (List.range ((n + 1) / 2)).map fun j =>
      if 2 * j + 1 < n then ⟨8 * (off + 16 * c) + 8 * j, 8, elem (2 * j) c + elem (2 * j + 1) c * 2 ^ 32, [2 * j, 2 * j + 1]⟩
      else ⟨8 * (off + 16 * c) + 8 * j, 4, elem (2 * j) c, [2 * j]⟩
  | 2 => (List.range 4).flatMap fun i => (List.range 4).flatMap fun j => (List.range 8).flatMap fun r => (List.range 4).map fun p =>
      ⟨8 * (off + 32 * (4 * i + j)) + 32 * r + 8 * p, 8,
        elem (8 * i + r) (8 * j + 2 * p) + elem (8 * i + r) (8 * j + 2 * p + 1) * 2 ^ 32, [8 * i + r]⟩
  | 3 => each 8 16 fun x => (convert 0 1 false 0 x).1
  | 4 => each 4 8 fun x => (convert 0 3 true 0 x).1
  | 5 => each 4 8 fun x => (convert 0 4 true 0 x).1
  | 6 => packed 4 8 3 1024
  | _ => packed 2 4 5 512
/-- The start checks of MSTO (R340, R342), on the pieces that it writes. -/
def mstoOk (m : Option MtMode) (c : MxCmd) (ps : List Piece) : Bool :=
  c.rowsOk && (c.lay != 2 || (c.rows == 32 && c.frow == 0)) && (match m with
    | some m => ps.all (fun p => decide (p.off + p.size ≤ 8 * m.msize)) &&
        (c.form != 1 || ps.all fun p => m.oneBuf c.off (p.off / 8)) && (c.form != 2 || ps.all fun p => p.size == 8)
    | none => false)
/-- The stored rows of a command. -/
def State.storedRows (s : State) (t : Tile) (f : Facet) (c : MxCmd) : List AccRow :=
  (List.range c.rows).map fun k => s.accRow t f c.accPhys (c.frow + k)
def State.mstoPiecesOf (s : State) (t : Tile) (f : Facet) (c : MxCmd) : List Piece :=
  mstoPieces c.lay c.off ((s.storedRows t f c).map fun r => (List.range 32).map r.word)
/-- The writes of an MSTO, and the rows that become 0 (R342). -/
def State.mstoWrite (s : State) (t : Tile) (f : Facet) (c : MxCmd) (m : MtMode) : State :=
  let rs := s.storedRows t f c
  let x := (s.mstoPiecesOf t f c).foldl (fun (x : State × List Nat) p =>
    let q := { x.1.mxReq t f c (if c.form = 2 then 5 else 1) (mtBase t + 8 * m.mbase + p.off) p.size with
               data := p.data, poison := p.rows.any fun k => ((rs[k]?).map (·.poison)).getD false }
    (x.1.engIssue t q, x.2 ++ [q.id])) (s, [])
  let s := if c.clr then x.1.clearRows t f c else x.1
  s.setMxCmd t f { c with reqs := x.2, phase := if c.form = 1 then 2 else 3, read := c.rows, poisoned := (rs.filter (·.poison)).length,
                          done := c.form != 1 }
/-- The fill that ends a buffer write, once its stores are performed (R298, R342). -/
def State.mstoFill (s : State) (t : Tile) (f : Facet) (c : MxCmd) (m : MtMode) : State :=
  if c.reqs.all fun id => s.performed id .pair then
    let q := s.mxReq t f c 5 (bufFirst t m c.off) 0
    (s.engIssue t q).setMxCmd t f { c with phase := 3, reqs := c.reqs ++ [q.id], done := true }
  else s

/-! Starting and working (R333) -/

/-- Start checks of a command (R332). -/
def State.mxStartOk (s : State) (t : Tile) (f : Facet) (c : MxCmd) : Bool :=
  let m := s.mtMode t f
  if c.op = opMma then mmaOk m c ((s.mxf t f).b.get c.bufPhys)
  else if c.op = opMldb then mldbOk m c
  else if c.op = opMsto then mstoOk m c (s.mstoPiecesOf t f c)
  else if c.op = opMaclr ∨ c.op = opMrda then c.rowsOk && c.off == 0
  else true
/-- MLDB empties its buffer and records format and MX bit (R336). -/
def State.beginLoadB (s : State) (t : Tile) (f : Facet) (c : MxCmd) : State :=
  if c.op = opMldb then s.modMx t f fun x => { x with b := vset x.b c.bufPhys ⟨[], c.fmt, c.mx, false, false⟩ } else s
/-- A command starts. -/
def State.startMx (s : State) (t : Tile) (f : Facet) (c : MxCmd) : State :=
  let s := s.beginLoadB t f c
  let ok := s.mxStartOk t f c
  let s := s.setMxCmd t f { c with started := true, status := if ok then 0 else 2, done := !ok || c.op == opMaclr,
                                   phase := if c.rel || (c.op == opMsto && c.form == 1) then 0 else 2 }
  if ok ∧ c.op = opMaclr then s.clearRows t f c else s
/-- A row of 64 bytes with its scale bytes, read in one cycle (R334, R336). -/
def State.readRow (s : State) (t : Tile) (f : Facet) (c : MxCmd) (m : MtMode) (off scale : Nat) (act : Nat → Nat → Bool → State → State) : State :=
  s.areaTurn t f m (off, 64) (scale, if c.mx then 4 else 0) fun s =>
    let a := s.areaRead t f c m off 64
    let b := if c.mx then a.1.areaRead t f c m scale 4 else (a.1, 0, false)
    act a.2.1 b.2.1 (a.2.2 || b.2.2) b.1
/-- A column enters a stationary buffer. -/
def State.addCol (s : State) (t : Tile) (f : Facet) (c : MxCmd) (data scale : Nat) (poison : Bool) : State :=
  (s.modMx t f fun y => { y with b := vmod y.b c.bufPhys fun b => { b with cols := b.cols ++ [(data, scale)] } }).setMxCmd t f
    { c with burst := [], read := c.read + 1, poisoned := c.poisoned + poison.toNat }
/-- MLDB reads its tile from the area, a column a cycle. -/
def State.loadB (s : State) (t : Tile) (f : Facet) (c : MxCmd) (m : MtMode) : State :=
  if c.read < 32 then
    s.readRow t f c m (8 * (c.off + 8 * c.read)) (8 * (c.off + 256) + 4 * c.read) fun d x p s => s.addCol t f c d x p
  else
  let c := { c with done := true }
  let s := s.setMxCmd t f c
  if c.rel then s.mxRelease t f c m else s
/-- The 16 tokens of a row of results (R338). -/
def resultTokens (f : Facet) (r : AccRow) : List Token :=
  (List.range 16).map fun j => mkTok f kData false (j == 0) (j == 15) r.poison (r.word (2 * j) + r.word (2 * j + 1) * 2 ^ 32)
/-- Free slots of mo7 less those reserved by fired rows (R337). -/
def State.mo7Free (s : State) (t : Tile) : Nat :=
  let reserved := (s.mt t).fired.filter fun x => ((s.mxf t x.facet).cmds.find? fun c => c.id == x.row.cmd).any (·.out)
  32 - s.mtHeld t 7 - 16 * reserved.length
/-- MRDA sends its next row (R343), behind the rows fired before. -/
def State.mrdaRow (s : State) (t : Tile) (f : Facet) (c : MxCmd) : State :=
  let waits := (s.mt t).fired.any fun x => ((s.mxf t x.facet).cmds.find? fun c => c.id == x.row.cmd).any (·.out)
  if c.rows ≤ c.read then s.setMxCmd t f { c with done := true }
  else if waits || s.mo7Free t < 16 then s
  else
    let r := s.accRow t f c.accPhys (c.frow + c.read)
    let s := (resultTokens f r).foldl (fun s k => s.mtSend t 7 k []) s
    let s := if c.clr then s.setAccRow t f c.accPhys (c.frow + c.read) ⟨0, false⟩ else s
    s.setMxCmd t f { c with read := c.read + 1, done := c.read + 1 == c.rows }
/-- MSLOT completes in this cycle (R345). -/
def State.mslotDone (s : State) (t : Tile) (f : Facet) (c : MxCmd) : Bool :=
  let us := s.time t / 1000
  s.admits t f && (!bit c.mod 0 || (decide (c.taken < us) && us != (s.die t.die).prev / 1000))
/-- RES of MSLOT. -/
def State.mslotRes (s : State) (t : Tile) : Nat := (s.die t.die).slot % 64 + 64 * (s.time t / 1000 % 2 ^ 26)
/-- MFENCE: earlier commands have completed, and their accesses are performed at its scope (R345). -/
def State.mfenceDone (s : State) (t : Tile) (f : Facet) (c : MxCmd) : Bool :=
  (s.mxf t f).cmds.all (fun x => decide (c.id ≤ x.id)) && s.reqs.all fun q => match q.src with
    | .matrix t' f' id => !(t' == t && f' == f && decide (id < c.id)) || q.performed c.scope
    | _ => true
/-- RES of a command that ends. -/
def MxCmd.result (c : MxCmd) : Option Nat :=
  if c.op = opMma then some (c.fired % 2 ^ 16 + c.poisoned % 2 ^ 16 * 2 ^ 16)
  else if c.op = opMldb ∨ c.op = opMsto then some c.poisoned
  else if c.op = opMslot then some c.sigma
  else if c.op = opMfence then some 0 else none
/-- The end of a command: a stationary buffer is loaded, and the completion is queued. -/
def State.endMx (s : State) (t : Tile) (f : Facet) (c : MxCmd) : State :=
  let s := s.modMx t f fun x =>
    { x with cmds := x.cmds.filter (fun y => y.id != c.id), staged := x.staged.filter (fun y => y.cmd != c.id),
             b := if c.op = opMldb ∧ c.status = 0 then vmod x.b c.bufPhys fun b => { b with loaded := true, poison := decide (0 < c.poisoned) }
                  else x.b }
  s.mxComplete t f c.result c.op c.status
/-- MSLOT completes in the first cycle that lets it (R345). -/
def State.mslotTry (s : State) (t : Tile) (f : Facet) (c : MxCmd) : State :=
  if s.mslotDone t f c then s.endMx t f { c with sigma := s.mslotRes t, done := true } else s
/-- MSLOT_COMMAND (R345): it may complete in the cycle of its take. -/
def execMslotCommand (t : Tile) (f : Facet) (s : State) : Out :=
  s.mxTaking t f (isMatrix opMslot) fun k s =>
    let c := { s.newMx t f k with started := true }
    State.mslotTry (s.bumpId.modMx t f fun x => { x with cmds := x.cmds ++ [c] }) t f c
/-- The next piece of work of a command that has started. -/
def State.mxWork (s : State) (t : Tile) (f : Facet) (c : MxCmd) : State :=
  match s.mtMode t f, c.op with
  | some m, 0xC1 =>
    if c.status ≠ 0 then s.setMxCmd t f { c with done := true }
    else if c.strm then (if 32 ≤ c.read then s.setMxCmd t f { c with done := true } else s)
    else if c.phase < 2 then s.mxWait t f c m 2 else s.loadB t f c m
  | none, 0xC1 => if c.status ≠ 0 ∨ 32 ≤ c.read then s.setMxCmd t f { c with done := true } else s
  | some m, 0xC4 =>
    if c.phase < 2 then s.mxWait t f c m 0xC
    else if c.read = 0 then s.mstoWrite t f c m else s.mstoFill t f c m
  | _, 0xC5 => s.mrdaRow t f c
  | _, 0xC8 => s.mslotTry t f c
  | _, 0xC9 => if s.mfenceDone t f c then s.setMxCmd t f { c with done := true } else s
  | _, 0xC0 =>
    if (c.status ≠ 0 && c.effect == c.fired) || (c.effect == c.rows && (!c.rel || c.phase == 3)) then s.setMxCmd t f { c with done := true }
    else s
  | _, _ => s
/-- A finished command ends once its accesses are performed at its scope. -/
def State.settleMx (s : State) (t : Tile) (f : Facet) (c : MxCmd) : State :=
  if c.reqs.all fun id => s.performed id c.scope then
    let bad := (s.engData (c.reqs.filter fun id => (s.findReq id).isSome)).any fun l => (firstCause l).isSome
    (s.engTake t f c.reqs).endMx t f { c with status := if c.status = 0 && bad then 6 else c.status }
  else s
/-- MATRIX_COMMAND_START (R333): a command starts when no earlier one shares a resource with it; one that has started goes on. -/
def execMatrixCommandStart (t : Tile) (f : Facet) (k : Nat) (s : State) : Out :=
  let l := (s.mxf t f).cmds
  match l[k]? with
  | none => .next s
  | some c =>
    when_ s (s.mtRuns t f) <|
      if c.done then s.settleMx t f c
      else if c.started then s.mxWork t f c
      else if (l.take k).any fun x => x.uses.any c.uses.contains then s
      else s.startMx t f c

/-! Operands (R334, R335) -/

/-- The MMA that runs for a facet. -/
def State.runningMma (s : State) (t : Tile) (f : Facet) : Option MxCmd :=
  (s.mxf t f).cmds.find? fun c => c.op == opMma && c.started && !c.done && c.status == 0
/-- A row is read from the area into staging, once its banks are free. -/
def State.stageRow (s : State) (t : Tile) (f : Facet) (c : MxCmd) (m : MtMode) : State :=
  s.readRow t f c m (8 * (c.off + 8 * c.read)) (8 * (c.off + 8 * c.rows) + 4 * c.read) fun d x p s =>
    (s.modMx t f fun y => { y with staged := y.staged ++ [⟨c.id, c.read, d, x, p⟩] }).setMxCmd t f { c with read := c.read + 1 }
/-- ROW_STAGE (R334): the tag wait, the next row, or the release once the last row is staged. -/
def execRowStage (t : Tile) (f : Facet) (s : State) : Out :=
  match s.runningMma t f, s.mtMode t f with
  | some c, some m =>
    when_ s (s.mtRuns t f && !c.strm) <|
      if c.phase < 2 then s.mxWait t f c m 2
      else if c.read < c.rows then (if (s.mxf t f).staged.length < 4 then s.stageRow t f c m else s)
      else if c.rel && c.phase == 2 then s.mxRelease t f c m
      else s
  | _, _ => .next s
/-- Tokens of an operand burst (R335). -/
def MxCmd.burstLen (c : MxCmd) : Nat := if c.mx then 9 else 8
/-- A token is malformed at its place in a burst. -/
def MxCmd.badToken (c : MxCmd) (k : Token) : Bool :=
  k.kind == kEor || k.head != c.burst.isEmpty || k.tail != (c.burst.length + 1 == c.burstLen)
/-- The data, scale bytes and poison of a whole burst. -/
def burstValue (mx : Bool) (l : List Token) : Nat × Nat × Bool :=
  let ws := l.map fun k => k.value.toNat
  let d := if mx then ws.drop 1 else ws
  (d.zipIdx.foldl (fun a x => a + x.1 * 2 ^ (64 * x.2)) 0, if mx then ws.headD 0 % 2 ^ 32 else 0, l.any (·.poison))
/-- A whole column burst enters the buffer; the last one completes the command (R335, R346). -/
def State.columnDone (s : State) (t : Tile) (f : Facet) (c : MxCmd) (l : List Token) : State :=
  let v := burstValue c.mx l
  let s := s.addCol t f c v.1 v.2.1 v.2.2
  if c.read + 1 = 32 then
    s.endMx t f { c with burst := [], read := 32, poisoned := c.poisoned + v.2.2.toNat, done := true } else s
/-- The port is discarded up to the next tail, or no longer. -/
def MxFacet.setDrop (x : MxFacet) (isB b : Bool) : MxFacet := if isB then { x with dropB := b } else { x with dropA := b }
/-- The command that takes column bursts from mi8, and the one whose rows stand in mi7. -/
def State.columnCmd (s : State) (t : Tile) (f : Facet) : Option MxCmd :=
  (s.mxf t f).cmds.find? fun c => c.op == opMldb && c.started && !c.done && c.status == 0 && c.strm && decide (c.read < 32)
def State.rowCmd (s : State) (t : Tile) (f : Facet) : Option MxCmd :=
  (s.runningMma t f).filter fun c => c.strm && decide (c.read < c.rows) && !(s.mxf t f).staged.any (fun r => r.cmd == c.id)
/-- A malformed token ends the command with status 3, and the queue is discarded up to the next tail (R335). -/
def State.badBurst (s : State) (t : Tile) (f : Facet) (isB : Bool) (c : MxCmd) (k : Token) : State :=
  (s.modMx t f (·.setDrop isB (!k.tail))).setMxCmd t f { c with burst := [], status := 3 }
/-- A token of a column burst is taken. -/
def State.columnToken (s : State) (t : Tile) (f : Facet) (c : MxCmd) (k : Token) : State :=
  if c.badToken k then s.badBurst t f true c k
  else if c.burst.length + 1 = c.burstLen then s.columnDone t f c (c.burst ++ [k])
  else s.setMxCmd t f { c with burst := c.burst ++ [k] }
/-- The tokens of a row burst that stand at the head of mi7: all of a whole burst, or those up to a malformed one. -/
def MxCmd.rowBurst (c : MxCmd) : List Token → List Token
  | [] => []
  | k :: l => if c.badToken k || c.burst.length + 1 == c.burstLen then [k] else k :: { c with burst := c.burst ++ [k] }.rowBurst l
/-- Some tokens of a port of an MT are consumed, one after another. -/
def State.mtTakeN (s : State) (t : Tile) (f : Facet) (p : Fin 16) : Nat → (State → State) → State
  | 0, act => act s
  | n + 1, act => s.mtTaking t f p fun s => s.mtTakeN t f p n act
/-- The row burst at the head of mi7, and whether it is whole and well formed: the next row of the command is then present (R335). -/
def State.rowHead (s : State) (t : Tile) (f : Facet) (c : MxCmd) : List Token × Bool :=
  let l := c.rowBurst (offered (((s.mt t).fac f).inq.get 7) s.cycle)
  (l, l.length == c.burstLen && (l.getLast?.all fun k => !({ c with burst := l.dropLast } : MxCmd).badToken k))
/-- OPERAND_BURST_TAKE (R335): the next token of a column burst on mi8, of what is discarded, or of a row burst on mi7 that is malformed. -/
def execOperandBurstTake (t : Tile) (f : Facet) (isB : Bool) (s : State) : Out :=
  let p : Fin 16 := if isB then 8 else 7
  let x := s.mxf t f
  match s.mtHead t f p with
  | none => .next s
  | some k =>
    if !s.mtRuns t f then .next s
    else if (if isB then x.dropB else x.dropA) then
      .next (s.mtTaking t f p fun s => if k.tail then s.modMx t f (·.setDrop isB false) else s)
    else if isB then match s.columnCmd t f with
      | none => .next s
      | some c => .next (s.mtTaking t f p fun s => s.columnToken t f c k)
    else match s.rowCmd t f with
      | none => .next s
      | some c =>
        let l := (s.rowHead t f c).1
        match l.getLast? with
        | some y =>
          when_ s (({ c with burst := l.dropLast } : MxCmd).badToken y) (s.mtTakeN t f p l.length fun s => s.badBurst t f false c y)
        | none => .next s

/-! Firing (R337) -/

/-- The running MMA of a facet has a row present (R334, R335). -/
def State.rowPresent (s : State) (t : Tile) (f : Facet) (c : MxCmd) : Bool :=
  match (s.mxf t f).staged with
  | r :: _ => r.cmd == c.id
  | [] => (s.rowCmd t f).isSome && !(s.mxf t f).dropA && (s.rowHead t f c).2
/-- The facet has a row that may fire now. -/
def State.mayFire (s : State) (t : Tile) (f : Facet) : Bool :=
  match s.runningMma t f with
  | some c => s.mtRuns t f && s.rowPresent t f c && s.admits t f && (!c.out || decide (16 ≤ s.mo7Free t))
  | none => false
/-- A row of a command fires. -/
def State.fireRow (s : State) (t : Tile) (f : Facet) (c : MxCmd) (r : ARow) : State :=
  let n := c.poisoned + (r.poison || ((s.mxf t f).b.get c.bufPhys).poison).toNat
  (s.setMxCmd t f { c with fired := c.fired + 1, poisoned := n }).modMt t fun m =>
    { m with fired := m.fired ++ [⟨f, r, s.cycle⟩], mxPtr := f }
/-- The facet's next row fires, from staging or from mi7. -/
def State.fire (s : State) (t : Tile) (f : Facet) : State :=
  match s.runningMma t f with
  | some c => (match (s.mxf t f).staged with
    | r :: l => (s.modMx t f fun x => { x with staged := l }).fireRow t f c r
    | [] =>
      let l := (s.rowHead t f c).1
      let v := burstValue c.mx l
      s.mtTakeN t f 7 l.length fun s => s.fireRow t f { c with read := c.read + 1 } ⟨c.id, c.read, v.1, v.2.1, v.2.2⟩)
  | none => s
/-- ROW_FIRE (R337): one row of the first facet after the one that fired last. -/
def execRowFire (t : Tile) (s : State) : Out :=
  match (facetsFrom ((s.mt t).mxPtr + 1)).find? (s.mayFire t) with
  | some f => when_ s (!t.isCT && t.inFabric) (s.fire t f)
  | none => .next s

/-! Effect (R338, R339, R95) -/

/-- Element q of a packed row. -/
def mxElem (fmt data q : Nat) : Nat := data / 2 ^ (mxWidth fmt * q) % 2 ^ mxWidth fmt
/-- An element as the matrix unit reads it: a subnormal E5M2 element is a zero (R82). -/
def mxVal (fmt x : Nat) : FVal := if fmt = 4 ∧ x / 4 % 32 = 0 then FVal.zero (decide (128 ≤ x % 256)) else fdec fmt x
/-- The exact products of a chunk. -/
def leaves (af bf a b : Nat) : List FVal :=
  (List.range (512 / mxWidth af)).map fun q => (exMul (mxVal af (mxElem af a q)) (mxVal bf (mxElem bf b q))).1
/-- The value of block b's scale (R77). -/
def scaleVal (bytes b : Nat) : FVal := fdec 6 (bytes / 256 ^ b % 256)
/-- The chunk sum of R95. -/
def chunkSum (mx : Bool) (af bf : Nat) (a b : Nat × Nat) : Nat :=
  let l := leaves af bf a.1 b.1
  if mx then
    let m := l.length / 32
    let ts := (List.range m).map fun i =>
      let si := (sumTree 0 5 ((l.drop (32 * i)).take 32)).1
      fdec 0 (fpack 0 0 false (exMul (exMul (fdec 0 si) (scaleVal a.2 i)).1 (scaleVal b.2 i)).1).1
    (sumTree 0 (Nat.log2 m) ts).1
  else (sumTree 0 (Nat.log2 l.length) l).1
/-- The integer sum of a row and a column. -/
def intSum (fmt a b : Nat) : Int :=
  let w := mxWidth fmt
  (List.range (512 / w)).foldl (fun n q => n + signedOf w (mxElem fmt a q) * signedOf w (mxElem fmt b q)) 0
/-- The value v of R338 for one column. -/
def rowValue (c : MxCmd) (b : BBuf) (r : ARow) (col : Nat × Nat) : Nat :=
  if mxIsInt c.fmt then wrapInt 32 (intSum c.fmt r.data col.1)
  else (fMul 0 0 (chunkSum c.mx c.fmt b.fmt (r.data, r.scale) col) c.sigma).1
/-- A value enters the accumulator (R338). -/
def accumulate (c : MxCmd) (old v : Nat) : Nat :=
  if c.zero then v else if mxIsInt c.fmt then (old + v) % 2 ^ 32 else (fAdd 0 0 old v).1
/-- The 32 values of a fired row, and its poison (R339). -/
def State.rowResult (s : State) (t : Tile) (f : Facet) (c : MxCmd) (r : ARow) : AccRow :=
  let b := (s.mxf t f).b.get c.bufPhys
  ⟨ofWords ((List.range 32).map fun n => rowValue c b r (b.cols.getD n (0, 0))), r.poison || b.poison⟩
/-- A fired row and the command that it belongs to. -/
def State.firedCmd (s : State) (t : Tile) (x : FiredRow) : Option MxCmd := (s.mxf t x.facet).cmds.find? fun c => c.id == x.row.cmd
/-- A fired row is through the array. -/
def State.dropFired (s : State) (t : Tile) (x : FiredRow) : State :=
  s.modMt t fun m => { m with fired := m.fired.erase x }
/-- A fired row takes effect in its bank. -/
def State.rowTakes (s : State) (t : Tile) (x : FiredRow) (c : MxCmd) : State :=
  let v := s.rowResult t x.facet c x.row
  let i := c.frow + x.row.k
  let old := s.accRow t x.facet c.accPhys i
  let new : AccRow := ⟨ofWords ((List.range 32).map fun n => accumulate c (old.word n) (v.word n)), if c.zero then v.poison else old.poison || v.poison⟩
  ((s.dropFired t x).setAccRow t x.facet c.accPhys i new).setMxCmd t x.facet { c with effect := c.effect + 1 }
/-- ROW_EFFECT (R338): the oldest accumulating row takes effect 11 cycles after it fired. -/
def execRowEffect (t : Tile) (s : State) : Out :=
  match (s.mt t).fired.find? fun x => (s.firedCmd t x).any fun c => !c.out with
  | some x => (match s.firedCmd t x with
    | some c => when_ s (decide (x.cycle + 11 ≤ s.cycle) && !s.tileFrozen t) (s.rowTakes t x c)
    | none => .next s)
  | none => .next s
/-- A row of results enters mo7. -/
def State.rowLeaves (s : State) (t : Tile) (x : FiredRow) (c : MxCmd) : State :=
  let s' := (resultTokens x.facet (s.rowResult t x.facet c x.row)).foldl (fun s k => s.mtSend t 7 k []) s
  (s'.dropFired t x).setMxCmd t x.facet { c with effect := c.effect + 1 }
/-- RESULT_BURST (R338): 12 cycles after it fired, a row of an MMA with OUT = 1 leaves. -/
def execResultBurst (t : Tile) (s : State) : Out :=
  match (s.mt t).fired.find? fun x => (s.firedCmd t x).any fun c => c.out with
  | some x => (match s.firedCmd t x with
    | some c => when_ s (decide (x.cycle + 12 ≤ s.cycle) && !s.tileFrozen t) (s.rowLeaves t x c)
    | none => .next s)
  | none => .next s
/-- MATRIX_COMPLETION (R330): the oldest completion leaves on mo6. -/
def execMatrixCompletion (t : Tile) (s : State) : Out :=
  match (s.mt t).pend6 with
  | [] => .next s
  | c :: rest =>
    when_ s (!t.isCT && t.inFabric && !s.tileHalted t && s.mtRoom t 6)
      (State.mtSend (s.modMt t fun m => { m with pend6 := rest }) t 6 c.tok [])

end Sys2Proof.Machine
end

