-- ==== Sys2Proof/Machine/Records.lean ====
section
/-! DEFINITION. Context images (R392, R393): the header, element, MT and token records as bytes, and the facet that bytes restore. Where R393
names an item without its inner layout, the layout is the model's. -/

namespace Sys2Proof.Machine

/-! Bytes -/

def le8 (v : Nat) : List Byte := bytesOf 8 v
def le8s (l : List Nat) : List Byte := l.flatMap le8
/-- Bytes followed by zeros up to a length. -/
def padTo (n : Nat) (l : List Byte) : List Byte := l ++ List.replicate (n - l.length) 0
def padUp (n : Nat) (l : List Byte) : List Byte := padTo ((l.length + n - 1) / n * n) l
/-- n bytes of an image from an offset on, as a number. -/
def getLe (b : List Byte) (off n : Nat) : Nat := ofBytes ((b.drop off).take n)
def get8 (b : List Byte) (off : Nat) : Nat := getLe b off 8
/-- Bits [lo+n-1:lo] of a number. -/
def bits (v lo n : Nat) : Nat := v / 2 ^ lo % 2 ^ n
/-- The tag bitmap of n words from a word on (R226). -/
def Memory.bitmap (m : Memory) (word n : Nat) : List Byte :=
  (List.range ((n + 7) / 8)).map fun j =>
    BitVec.ofNat 8 (((List.range 8).filter fun i => decide (8 * j + i < n) && m.isFull (8 * (word + 8 * j + i))).foldl (fun a i => a + 2 ^ i) 0)
/-- Words and tags written back; words of poisoned blocks are written poisoned. -/
def Memory.putImage (m : Memory) (word n : Nat) (bytes map_ : List Byte) (bad : Nat → Bool) : Memory :=
  (List.range n).foldl (fun m i =>
    ((m.write (8 * (word + i)) 8 (get8 bytes (8 * i))).setFull (8 * (word + i)) ((map_.getD (i / 8) 0).getLsbD (i % 8))).setPoison
      (8 * (word + i)) (bad i)) m

/-! Element records -/

/-- A handler's run-time word. -/
def Handler.record (h : Handler) : Nat :=
  h.arm.toNat + 2 * h.moored.toNat + 4 * (h.retry % 2 ^ 15) + 2 ^ 17 * min h.age 2047 + 2 ^ 28 * h.pri
def Handler.ofRecord (h : Handler) (w : Nat) (moored : Bool) : Handler :=
  { h with arm := bits w 0 1 == 1, moored := moored, retry := bits w 2 15, age := bits w 17 11, entry := setFld h.entry 17 3 (bits w 28 3) }
/-- A mooring entry: valid, awaited state, handler, and the local word; entries of watches are not kept. -/
def Moor.record (m : Moor) (t : Tile) : Nat :=
  if m.watch.isSome then 0 else 1 + 2 * m.awaitFull.toNat + 4 * m.handler.val + 256 * ((8 * m.word - localBase t) / 8)
def Moor.ofRecord (w : Nat) (t : Tile) (f : Facet) : Moor :=
  ⟨localBase t / 8 + bits w 8 13, f, Fin.ofNat 64 (bits w 2 6), bits w 1 1 == 1, none⟩
/-- The window of an element's facet: its first word and length in bytes. -/
def winWord (t : Tile) (x : FacetEl) : Nat := (localBase t + x.actbase.toNat) / 8
def State.elRecord (s : State) (t : Tile) (f : Facet) (col row : Nat) : List Byte :=
  let x := (s.el t).fac f
  let n := x.actlim.toNat
  let moors := (s.el t).moors.filter fun m => m.facet == f && m.watch.isNone
  padTo 0xC00 (padTo 0xB80 (padTo 0xA80 (
    le8s ((List.finRange 64).map fun i => (x.bank.g.get i).toNat) ++
    (List.finRange 32).flatMap (fun i => bytesOf 64 (x.bank.v.get i).toNat) ++
    le8s ((List.finRange 8).map fun i => (x.bank.p.get i).toWord.toNat) ++
    le8s [x.hstat.toNat, x.masks.toNat, x.rmode.toNat + 4 * col + 512 * row]) ++
    (List.finRange 64).flatMap fun h => bytesOf 4 (x.handlers.get h).record) ++
    le8s (moors.map fun m => m.record t)) ++
  s.mem.bytes (localBase t + x.actbase.toNat) n ++ s.mem.bitmap (winWord t x) (n / 8)
def elRecordLen (x : FacetEl) : Nat := 3072 + x.actlim.toNat + x.actlim.toNat / 64
/-- An element's facet is written back. -/
def State.putElRecord (s : State) (t : Tile) (f : Facet) (b : List Byte) (bad : Nat → Bool) : State :=
  let x := (s.el t).fac f
  let moors := ((List.range 16).map fun i => get8 b (0xB80 + 8 * i)).filter fun w => w % 2 == 1
  let ms := moors.map fun w => Moor.ofRecord w t f
  let n := x.actlim.toNat
  let s : State := s.modEl t fun e =>
    { e.modFac f (fun x =>
        { x with bank := { g := Vector.ofFn fun i => BitVec.ofNat 64 (get8 b (8 * i.val)),
                           v := Vector.ofFn fun i => BitVec.ofNat 512 (getLe b (0x200 + 64 * i.val) 64),
                           p := Vector.ofFn fun i => PReg.ofWord (BitVec.ofNat 64 (get8 b (0xA00 + 8 * i.val))) },
                 hstat := BitVec.ofNat 64 (get8 b 0xA40), masks := BitVec.ofNat 64 (get8 b 0xA48),
                 rmode := BitVec.ofNat 2 (get8 b 0xA50),
                 handlers := Vector.ofFn fun h =>
                   (x.handlers.get h).ofRecord (getLe b (0xA80 + 4 * h.val) 4) (ms.any fun m => m.handler == h) }) with
      moors := e.moors.filter fun m => m.facet != f }
  let s : State := s.modEl t fun e => ms.foldl Element.moor e
  { s with mem := s.mem.putImage (winWord t x) (n / 8) (b.drop 0xC00) (b.drop (0xC00 + n)) fun i => bad (0xC00 + 8 * i) }

/-! MT records -/

/-- The token that a command came as (R283). -/
def Cmd.token (c : Cmd) : Nat := c.op + c.mod.toNat * 2 ^ 8 + c.av.toNat * 2 ^ 26 + c.bv.toNat * 2 ^ 58
def MxCmd.token (c : MxCmd) : Nat := c.op + c.mod.toNat * 2 ^ 8 + c.av.toNat * 2 ^ 26 + c.bv.toNat * 2 ^ 58
/-- The running command that a generator's record holds: the generator is the first that it occupies. -/
def MtFacet.runs (x : MtFacet) (i : Fin 4) : Option Cmd := x.cmds.find? fun c => c.started && c.occupies.head? == some i
/-- A generator state in 64 bytes. -/
def MtFacet.genRecord (x : MtFacet) (i : Fin 4) : List Byte :=
  let g := x.gens.get i
  let c := x.runs i
  let of (k : Cmd → Nat) : Nat := (c.map k).getD 0
  let lag := g.children.zipIdx.foldl (fun a y => a + min 255 (g.outer - g.doneOf y.1) * 256 ^ y.2) 0
  le8s [runCode g.run + 4 * g.wr.toNat + 8 * c.isSome.toNat + 16 * of (·.status) + 512 * of (·.draining.toNat) + 1024 * (g.permits.length % 32),
    g.spos + 2 ^ 48 * (of (·.posw) % 2 ^ 16), of Cmd.token, of (·.pos), of (·.last), of (·.res) + 2 ^ 32 * (of (·.taken) % 2 ^ 32),
    g.outer % 2 ^ 32 + 2 ^ 32 * (g.permits.headD 0 % 2 ^ 32), lag]
def runOf : Nat → GenRun
  | 0 => .idle | 1 => .running | 2 => .waiting | _ => .stopping
/-- A generator as its record restores it. -/
def Gen.ofRecord (g : Gen) (b : List Byte) : Gen :=
  let w := get8 b 0
  let outer := getLe b 48 4
  { g with run := runOf (bits w 0 2), wr := bits w 2 1 == 1, spos := get8 b 8 % 2 ^ 48, outer := outer,
           permits := (List.range (bits w 10 5)).map (getLe b 52 4 + ·),
           dones := g.children.zipIdx.map fun y => (4 * y.1.1 + y.1.2, outer - (b.getD (56 + y.2) 0).toNat),
           comingPermits := [], comingDones := [] }
/-- The node of a command that was parked (R323). -/
def nodeOf (op bv : Nat) : Option (Fin 32) := if op ≤ opSexp ∧ 32 ≤ bv then some (Fin.ofNat 32 bv) else none
/-- A command from its token. -/
def cmdOfToken (id w : Nat) : Cmd := newCmd id ⟨BitVec.ofNat 64 w, 0⟩ (nodeOf (w % 256) (w / 2 ^ 58 % 64))
/-- The running command of a generator's record. -/
def cmdOfRecord (id : Nat) (b : List Byte) : Cmd :=
  let w := get8 b 0
  { cmdOfToken id (get8 b 16) with started := true, status := bits w 4 5, draining := bits w 9 1 == 1, posw := get8 b 8 / 2 ^ 48,
                                   pos := get8 b 24, last := get8 b 32, res := getLe b 40 4, taken := getLe b 44 4 }
/-- A node in 8 bytes; its parked command goes with the tokens of mi4. -/
def DepNode.record (n : DepNode) : Nat := wrapInt 16 n.count + 2 ^ 16 * n.armed.toNat + 2 ^ 17 * n.compute.toNat + 2 ^ 18 * n.failed.toNat
def DepNode.ofRecord (w : Nat) (f : Facet) : DepNode :=
  let n : DepNode := ⟨signedOf 16 w, bits w 16 1 == 1, bits w 17 1 == 1, bits w 18 1 == 1, none, some f⟩
  if n.isFree then DepNode.free else n
/-- A pending completion: its payload with its scope (R372). -/
def Completion.record (c : Completion) : Nat := c.tok.payload.toNat % 2 ^ 61 + 2 ^ 61 * (Scope.toBits c.scope).toNat
def Completion.ofRecord (w : Nat) (f : Facet) : Completion :=
  ⟨f, mkTok f kData (bits w 40 5 != 0) false false false (w % 2 ^ 61), Scope.ofBits (BitVec.ofNat 3 (w / 2 ^ 61)), []⟩
/-- How far a matrix command has come. -/
def MxCmd.record (c : MxCmd) : Nat :=
  let c := c.rewound
  (if c.op = opMslot then c.taken else c.sigma) % 2 ^ 32 + 2 ^ 32 * c.accPhys.val + 2 ^ 33 * c.bufPhys.val + 2 ^ 34 * c.started.toNat +
    2 ^ 35 * c.phase + 2 ^ 37 * c.read + 2 ^ 43 * c.fired + 2 ^ 49 * c.effect + 2 ^ 55 * c.poisoned
def MxCmd.ofRecord (id tok w : Nat) : MxCmd :=
  let op := tok % 256
  { id := id, op := op, mod := BitVec.ofNat 18 (tok / 2 ^ 8), av := BitVec.ofNat 32 (tok / 2 ^ 26), bv := BitVec.ofNat 6 (tok / 2 ^ 58),
    accPhys := Fin.ofNat 2 (bits w 32 1), bufPhys := Fin.ofNat 2 (bits w 33 1), sigma := if op = opMslot then 0 else bits w 0 32,
    taken := if op = opMslot then bits w 0 32 else 0, started := bits w 34 1 == 1, phase := bits w 35 2, read := bits w 37 6,
    fired := bits w 43 6, effect := bits w 49 6, poisoned := bits w 55 6, burst := [], reqs := [], status := 0, done := false }
/-- Map bits, and the flags of the stationary buffers. -/
def MxFacet.flags (x : MxFacet) : Nat :=
  let b (i : Fin 2) : BBuf := x.b.get i
  x.amap.toNat + 2 * x.bmap.toNat + 4 * (b 0).loaded.toNat + 8 * (b 1).loaded.toNat + 16 * (b 0).poison.toNat + 32 * (b 1).poison.toNat +
    64 * (b 0).fmt + 1024 * (b 1).fmt + 2 ^ 14 * (b 0).mx.toNat + 2 ^ 15 * (b 1).mx.toNat + 2 ^ 16 * x.dropA.toNat + 2 ^ 17 * x.dropB.toNat
def MxFacet.rowOf (x : MxFacet) (b : Fin 2) (i : Nat) : AccRow := tget (x.acc.get b) i ⟨0, false⟩
/-- The poison bits of the accumulator rows. -/
def MxFacet.rowPoison (x : MxFacet) : Nat :=
  (List.range 32).foldl (fun a i => a + (x.rowOf 0 i).poison.toNat * 2 ^ i + (x.rowOf 1 i).poison.toNat * 2 ^ (32 + i)) 0
/-- A stationary buffer: 32 columns of 64 bytes, then their scales. -/
def BBuf.record (b : BBuf) : List Byte :=
  padTo 2048 (b.cols.flatMap fun c => bytesOf 64 c.1) ++ padTo 128 (b.cols.flatMap fun c => bytesOf 4 c.2)
def BBuf.ofRecord (r : List Byte) (cols fl i : Nat) : BBuf :=
  { cols := (List.range cols).map fun n => (getLe r (64 * n) 64, getLe r (2048 + 4 * n) 4),
    fmt := bits fl (6 + 4 * i) 4, mx := bits fl (14 + i) 1 == 1, loaded := bits fl (2 + i) 1 == 1, poison := bits fl (4 + i) 1 == 1 }
def isNullTok (c : Completion) : Bool := c.tok.kind == kNull
/-- The record of an MT's facet. -/
def State.mtRecord (s : State) (t : Tile) (f : Facet) : List Byte :=
  let m := s.mt t
  let x := m.fac f
  let pend (l : List Completion) : List Nat := (l.filter fun c => c.facet == f && !isNullTok c).map Completion.record
  let area := match x.mode with
    | some a => s.mem.bytes (mtBase t + 8 * a.mbase) (8 * a.msize) ++ s.mem.bitmap (mtBase t / 8 + a.mbase) a.msize
    | none => []
  padTo 0x3F0 (padTo 0x380 (padTo 0x340 (padTo 0x300 (padTo 0x280 (padTo 0x180 (padTo 0x140 (
    (List.finRange 4).flatMap x.genRecord ++
    le8s ((x.cmds.filter fun c => !c.started).map Cmd.token)) ++
    le8s (pend m.pend4)) ++
    le8s ((List.finRange 32).map fun i => if (m.nodes.get i).owner = some f then (m.nodes.get i).record else 0)) ++
    (List.finRange 8).flatMap (fun i => bytesOf 4 (x.mx.sc.get i).toNat) ++
    le8s ([x.mx.flags, x.mx.rowPoison] ++ x.mx.cmds.map MxCmd.record)) ++
    le8s (x.mx.cmds.map MxCmd.token)) ++
    le8s (pend m.pend6))) ++
    le8s [x.wp, x.rp] ++
    (List.finRange 2).flatMap (fun b => (List.range 32).flatMap fun i => bytesOf 128 (x.mx.rowOf b i).words.toNat) ++
    (List.finRange 2).flatMap (fun b => (x.mx.b.get b).record) ++ area
def mtRecordLen (x : MtFacet) : Nat := 13568 + (match x.mode with
  | some a => 8 * a.msize + (a.msize + 7) / 8
  | none => 0)
/-- The matrix state of a record. -/
def mxOfRecord (next : Nat) (b : List Byte) : MxFacet :=
  let fl := get8 b 0x2A0
  let ps := get8 b 0x2A8
  let cmds := ((List.range 8).filter fun i => get8 b (0x300 + 8 * i) != 0).map fun i =>
    MxCmd.ofRecord (next + i) (get8 b (0x300 + 8 * i)) (get8 b (0x2B0 + 8 * i))
  let cols (i : Nat) : Nat := match cmds.find? fun c => c.op == opMldb && c.started && c.bufPhys.val == i with
    | some c => c.read
    | none => 32
  { b := Vector.ofFn fun i => BBuf.ofRecord (b.drop (0x2400 + 2176 * i.val)) (cols i.val) fl i.val,
    acc := Vector.ofFn fun k => (List.range 32).filterMap fun i =>
      let w := getLe b (0x400 + 4096 * k.val + 128 * i) 128
      let p := bits ps (32 * k.val + i) 1 == 1
      if w = 0 ∧ !p then none else some (i, ⟨BitVec.ofNat 1024 w, p⟩),
    sc := Vector.ofFn fun i => BitVec.ofNat 32 (getLe b (0x280 + 4 * i.val) 4),
    amap := bits fl 0 1 == 1, bmap := bits fl 1 1 == 1, cmds := cmds, staged := [], quick := [], dropA := bits fl 16 1 == 1, dropB := bits fl 17 1 == 1 }
/-- An MT's facet is written back. -/
def State.putMtRecord (s : State) (t : Tile) (f : Facet) (b : List Byte) (bad : Nat → Bool) : State :=
  let n := s.nextId
  let gen (i : Nat) : List Byte := b.drop (64 * i)
  let running := ((List.range 4).filter fun i => bits (get8 (gen i) 0) 3 1 == 1).map fun i => cmdOfRecord (n + i) (gen i)
  let waiting := ((List.range 8).filter fun i => get8 b (0x100 + 8 * i) != 0).map fun i => cmdOfToken (n + 4 + i) (get8 b (0x100 + 8 * i))
  let pend (off : Nat) : List Completion :=
    ((List.range 8).filter fun i => get8 b (off + 8 * i) != 0).map fun i => Completion.ofRecord (get8 b (off + 8 * i)) f
  let s : State := { s with nextId := n + 32 }
  let s : State := s.modMt t fun m =>
    { m.modFac f (fun x =>
        { x with gens := Vector.ofFn fun i => (x.gens.get i).ofRecord (gen i.val), cmds := running ++ waiting, wp := get8 b 0x3F0,
                 rp := get8 b 0x3F8, mx := mxOfRecord (n + 16) b }) with
      nodes := Vector.ofFn fun i => if (m.nodes.get i).isFree then DepNode.ofRecord (get8 b (0x180 + 8 * i.val)) f else m.nodes.get i,
      pend4 := m.pend4 ++ pend 0x140, pend6 := m.pend6 ++ pend 0x340 }
  match ((s.mt t).fac f).mode with
  | some a => { s with mem := s.mem.putImage (mtBase t / 8 + a.mbase) a.msize (b.drop 0x3500) (b.drop (0x3500 + 8 * a.msize))
                               fun i => bad (0x3500 + 8 * i) }
  | none => s

/-! Token records -/

/-- The 16 bytes of a token record. -/
def tokRecord (k : Token) (place col row pos : Nat) : List Byte :=
  le8 k.payload.toNat ++ le8 (k.tag.toNat + 2 ^ 8 * place + 2 ^ 16 * col + 2 ^ 23 * row + 2 ^ 28 * pos)
/-- The tokens of an operand burst of a row that has been taken. -/
def rowTokens7 (f : Facet) (mx : Bool) (r : ARow) : List Token :=
  let n := if mx then 9 else 8
  ((if mx then [r.scale] else []) ++ (List.range 8).map fun j => bits r.data (64 * j) 64).zipIdx.map fun x =>
    mkTok f kData false (x.2 == 0) (x.2 + 1 == n) r.poison x.1
/-- Tokens that an MT has taken and not used, at the port that they came from (model's choice): nulls, commands that have not acted and
parked commands on mi4, the like on mi6, and operand bursts on mi7 and mi8. -/
def State.heldTokens (s : State) (t : Tile) (f : Facet) (p : Nat) : List Token :=
  let m := s.mt t
  let x := (m.fac f).mx
  let nulls (l : List Completion) : List Token := (l.filter fun c => c.facet == f && isNullTok c).map (·.tok)
  match p with
  | 4 => nulls m.pend4 ++ (m.fac f).quick ++ (List.finRange 32).filterMap fun i => if (m.nodes.get i).owner = some f then (m.nodes.get i).parked else none
  | 6 => nulls m.pend6 ++ x.quick
  | 7 => (x.staged.filterMap fun r => (x.cmds.find? fun c => c.id == r.cmd && c.strm).map fun c => rowTokens7 f c.mx r).flatten ++
      ((x.cmds.filter fun c => c.op == opMma).flatMap (·.burst))
  | 8 => (x.cmds.filter fun c => c.op == opMldb).flatMap (·.burst)
  | _ => []
/-- The facet's tokens in a tile, by place: input ports, then hops (R393). -/
def State.tokensAt (s : State) (t : Tile) (f : Facet) : List (Nat × QTok) :=
  let own (l : List QTok) : List QTok := l.filter fun x => x.tok.facet == f && !x.tok.isMark
  (List.finRange 16).flatMap (fun p => (own (s.inq t f p)).map fun k => ((if t.isCT then 0 else 0x10) + p.val, k)) ++
  (s.sw t).hops.flatMap fun h => (own (h.2.buf ++ h.2.flight)).map fun k => (0x20 + h.1, k)
def State.tokenRecords (s : State) (t : Tile) (f : Facet) (col row : Nat) : List (List Byte) :=
  let l := s.tokensAt t f
  (List.range 0x40).flatMap fun p =>
    let held := if !t.isCT && 0x10 ≤ p && p < 0x20 then s.heldTokens t f (p - 0x10) else []
    (held ++ (l.filter fun x => x.1 == p).map (·.2.tok)).zipIdx.map fun x => tokRecord x.1 p col row x.2
/-- A token returns to its place with the facet of the restore. -/
def State.putToken (s : State) (t : Tile) (f : Facet) (place : Nat) (k : Token) : State :=
  let q : QTok := { tok := k.stamp f, entered := s.cycle }
  if place < 0x20 then s.modInq t f (Fin.ofNat 16 place) (· ++ [q])
  else
    let b := s.sw t
    s.setSw t { b with hops := tmod b.hops (place - 0x20) Hop.empty fun h => { h with buf := h.buf ++ [q] } }

/-! Images -/

/-- The tiles of a region in the order of (row, col). -/
def Region.rowMajor (g : Region) : List Tile :=
  (List.range g.h).flatMap fun j => (List.range g.w).map fun i => ⟨g.x0 + i, g.y0 + j⟩
/-- Elements with a window frame in the facet, and MTs with any frame (R392). -/
def State.recordEls (s : State) (r : RegionId) (f : Facet) : List Tile :=
  (s.rg r).rowMajor.filter fun t => t.isCT && ((s.el t).fac f).framed
def State.recordMts (s : State) (r : RegionId) (f : Facet) : List Tile :=
  (s.rg r).rowMajor.filter fun t => !t.isCT && ((s.mt t).fac f).framed
/-- Bytes cut into pieces of 64, with the poison that a predicate on offsets gives. -/
def cut64 : Nat → Nat → List Byte → (Nat → Bool) → List (Nat × List Byte × Bool)
  | 0, _, _, _ => []
  | n + 1, off, b, bad => (off, b.take 64, bad off) :: cut64 n (off + 64) (b.drop 64) bad
/-- One record at its place: the blocks that its tile's die writes. -/
def recordBlocks (d : DieId) (off : Nat) (b : List Byte) (bad : Nat → Bool) : List (DieId × Nat × List Byte × Bool) :=
  (cut64 ((b.length + 63) / 64) 0 (padUp 64 b) bad).map fun x => (d, off + x.1, x.2.1, x.2.2)
/-- Some word of 64 bytes from an address on is poisoned. -/
def Memory.poison64 (m : Memory) (a : Nat) : Bool := (List.range 8).any fun i => m.isPoison (a + 8 * i)
def State.elBad (s : State) (t : Tile) (f : Facet) (off : Nat) : Bool :=
  let x := (s.el t).fac f
  decide (0xC00 ≤ off) && decide (off < 0xC00 + x.actlim.toNat) && s.mem.poison64 (localBase t + x.actbase.toNat + (off - 0xC00))
def State.mtBad (s : State) (t : Tile) (f : Facet) (off : Nat) : Bool :=
  match ((s.mt t).fac f).mode with
  | some a => decide (0x3500 ≤ off) && decide (off < 0x3500 + 8 * a.msize) && s.mem.poison64 (mtBase t + 8 * a.mbase + (off - 0x3500))
  | none => false
/-- Records laid one after the other, each rounded up to 64 bytes. -/
def layRecords (l : List (DieId × List Byte × (Nat → Bool))) (off : Nat) : List (DieId × Nat × List Byte × Bool) × Nat :=
  l.foldl (fun x y => (x.1 ++ recordBlocks y.1 x.2 y.2.1 y.2.2, x.2 + (y.2.1.length + 63) / 64 * 64)) ([], off)
/-- Token records laid one after the other, in pieces of one block and one die. -/
def layTokens (l : List (DieId × List Byte)) (off : Nat) : List (DieId × Nat × List Byte × Bool) :=
  let x := l.zipIdx.foldl (fun (acc : List (DieId × Nat × List Byte × Bool)) y =>
    let o := off + 16 * y.2
    match acc with
    | (d, o', b, p) :: rest => if d = y.1.1 ∧ o % 64 ≠ 0 then (d, o', b ++ y.1.2, p) :: rest else (y.1.1, o, y.1.2, false) :: acc
    | [] => [(y.1.1, o, y.1.2, false)]) []
  x.reverse
/-- The header (R392). -/
def State.imageHeader (s : State) (r : RegionId) (f : Facet) (size ne nm nt : Nat) : List Byte :=
  let g := s.rg r
  let e := tget g.handle f.val 0
  padTo 256 (le8s [0x7E9D + 2 ^ 16 + 2 ^ 24 * f.val + 2 ^ 26 * descPrio e, descImg e, (descHash e).toNat, size,
    g.w + 2 ^ 8 * g.h + 2 ^ 16 * ne + 2 ^ 32 * nm, nt, g.ctide])
/-- The blocks of the image of a facet, and its size in bytes. -/
def State.contextImage (s : State) (r : RegionId) (f : Facet) : List (DieId × Nat × List Byte × Bool) × Nat :=
  let g := s.rg r
  let els := s.recordEls r f
  let mts := s.recordMts r f
  let a := layRecords (els.map fun t => (t.die, s.elRecord t f (t.x - g.x0) (t.y - g.y0), s.elBad t f)) 256
  let b := layRecords (mts.map fun t => (t.die, s.mtRecord t f, s.mtBad t f)) a.2
  let toks := g.rowMajor.flatMap fun t => (s.tokenRecords t f (t.x - g.x0) (t.y - g.y0)).map fun k => (t.die, k)
  let size := b.2 + (16 * toks.length + 63) / 64 * 64
  (recordBlocks g.corner.die 0 (s.imageHeader r f size els.length mts.length toks.length) (fun _ => false) ++ a.1 ++ b.1 ++ layTokens toks b.2, size)

/-! Restoring -/

/-- Where a block of an image lies, if its page may be read. -/
def State.imageAt (s : State) (r : RegionId) (va : Nat) : Option Nat :=
  match s.walk r va with
  | .leaf l => if permOk l.word 1 && isHbm (l.pa va) then some (l.pa va) else none
  | _ => none
/-- n blocks of an image from an offset on, with the poison of each: what an uncorrectable read returns is poisoned (R216). -/
def State.imageBlocks (s : State) (r : RegionId) (va : Nat) : Nat → Option (List Byte × List Bool)
  | 0 => some ([], [])
  | n + 1 => match s.imageAt r va, s.imageBlocks r (va + 64) n with
    | some pa, some x => some (bytesOf 64 (s.mem.readSeen pa 64) ++ x.1, (s.mem.poison64 pa || (s.mem.check pa).1 == 2) :: x.2)
    | _, _ => none
/-- The checks of n blocks of an image that is read (R216). -/
def State.noteBlocks (s : State) (r : RegionId) (f : Facet) (va n : Nat) : State :=
  if s.mem.bad.isEmpty then s
  else s.noteAt r f (((List.range n).filterMap fun i => s.imageAt r (va + 64 * i)).flatMap fun pa => s.mem.granules pa 64).dedup
/-- A record at an offset of the image, and what restores it. -/
def State.restoreOne (s : State) (r : RegionId) (base off len : Nat) (put : List Byte → (Nat → Bool) → State) : Option State :=
  (s.imageBlocks r (base + off) ((len + 63) / 64)).map fun x => put x.1 fun o => x.2.getD (o / 64) false
def roundUp64 (n : Nat) : Nat := (n + 63) / 64 * 64
/-- The address of the image. -/
def Region.ctxVa (g : Region) : Nat := fld g.ctx 0 56
/-- Every record of an image is written into a facet that its handle's image has filled (R394): none where the image cannot be read. -/
def State.restoreRecords (s : State) (r : RegionId) (f : Facet) : Option State :=
  let g := s.rg r
  let base := g.ctxVa
  let elsFrom := (s.recordEls r f).foldl (fun (x : Option State × Nat) t =>
    let n := elRecordLen ((s.el t).fac f)
    (x.1.bind fun s => s.restoreOne r base x.2 n (s.putElRecord t f), x.2 + roundUp64 n)) (some s, 256)
  let mtsFrom := (s.recordMts r f).foldl (fun (x : Option State × Nat) t =>
    let n := mtRecordLen ((s.mt t).fac f)
    (x.1.bind fun s => s.restoreOne r base x.2 n (s.putMtRecord t f), x.2 + roundUp64 n)) elsFrom
  match mtsFrom.1, s.imageBlocks r base 1 with
  | some s', some h =>
    let nt := get8 h.1 0x28
    (s.imageBlocks r (base + mtsFrom.2) ((16 * nt + 63) / 64)).map fun x =>
      let s := s'.noteBlocks r f base (mtsFrom.2 / 64 + (16 * nt + 63) / 64)
      (List.range nt).foldl (fun s i =>
        let w := get8 x.1 (16 * i + 8)
        s.putToken ⟨g.x0 + bits w 16 7, g.y0 + bits w 23 5⟩ f (bits w 8 8) ⟨BitVec.ofNat 64 (get8 x.1 (16 * i)), BitVec.ofNat 8 w⟩) s
  | _, _ => none

end Sys2Proof.Machine
end

