-- ==== Sys2Proof/Machine/Sha.lean ====
section
/-! DEFINITION. The digests of FIPS 180-4 that the spec uses: SHA-256 for the image hash (R187) and SHA-384 for measurements and
checks at boot (R453, R455). -/

namespace Sys2Proof.Machine

/-- Round constants 0 to 15: the first 64 bits of the fractional parts of the cube roots of the primes. -/
def shaK0 : List Nat :=
  [0x428A2F98D728AE22, 0x7137449123EF65CD, 0xB5C0FBCFEC4D3B2F, 0xE9B5DBA58189DBBC,
   0x3956C25BF348B538, 0x59F111F1B605D019, 0x923F82A4AF194F9B, 0xAB1C5ED5DA6D8118,
   0xD807AA98A3030242, 0x12835B0145706FBE, 0x243185BE4EE4B28C, 0x550C7DC3D5FFB4E2,
   0x72BE5D74F27B896F, 0x80DEB1FE3B1696B1, 0x9BDC06A725C71235, 0xC19BF174CF692694]
/-- Round constants 16 to 31: the first 64 bits of the fractional parts of the cube roots of the primes. -/
def shaK1 : List Nat :=
  [0xE49B69C19EF14AD2, 0xEFBE4786384F25E3, 0xFC19DC68B8CD5B5, 0x240CA1CC77AC9C65,
   0x2DE92C6F592B0275, 0x4A7484AA6EA6E483, 0x5CB0A9DCBD41FBD4, 0x76F988DA831153B5,
   0x983E5152EE66DFAB, 0xA831C66D2DB43210, 0xB00327C898FB213F, 0xBF597FC7BEEF0EE4,
   0xC6E00BF33DA88FC2, 0xD5A79147930AA725, 0x6CA6351E003826F, 0x142929670A0E6E70]
/-- Round constants 32 to 47: the first 64 bits of the fractional parts of the cube roots of the primes. -/
def shaK2 : List Nat :=
  [0x27B70A8546D22FFC, 0x2E1B21385C26C926, 0x4D2C6DFC5AC42AED, 0x53380D139D95B3DF,
   0x650A73548BAF63DE, 0x766A0ABB3C77B2A8, 0x81C2C92E47EDAEE6, 0x92722C851482353B,
   0xA2BFE8A14CF10364, 0xA81A664BBC423001, 0xC24B8B70D0F89791, 0xC76C51A30654BE30,
   0xD192E819D6EF5218, 0xD69906245565A910, 0xF40E35855771202A, 0x106AA07032BBD1B8]
/-- Round constants 48 to 63: the first 64 bits of the fractional parts of the cube roots of the primes. -/
def shaK3 : List Nat :=
  [0x19A4C116B8D2D0C8, 0x1E376C085141AB53, 0x2748774CDF8EEB99, 0x34B0BCB5E19B48A8,
   0x391C0CB3C5C95A63, 0x4ED8AA4AE3418ACB, 0x5B9CCA4F7763E373, 0x682E6FF3D6B2B8A3,
   0x748F82EE5DEFB2FC, 0x78A5636F43172F60, 0x84C87814A1F0AB72, 0x8CC702081A6439EC,
   0x90BEFFFA23631E28, 0xA4506CEBDE82BDE9, 0xBEF9A3F7B2C67915, 0xC67178F2E372532B]
/-- Round constants 64 to 79: the first 64 bits of the fractional parts of the cube roots of the primes. -/
def shaK4 : List Nat :=
  [0xCA273ECEEA26619C, 0xD186B8C721C0C207, 0xEADA7DD6CDE0EB1E, 0xF57D4F7FEE6ED178,
   0x6F067AA72176FBA, 0xA637DC5A2C898A6, 0x113F9804BEF90DAE, 0x1B710B35131C471B,
   0x28DB77F523047D84, 0x32CAAB7B40C72493, 0x3C9EBE0A15C9BEBC, 0x431D67C49C100D4C,
   0x4CC5D4BECB3E42B6, 0x597F299CFC657E2A, 0x5FCB6FAB3AD6FAEC, 0x6C44198C4A475817]
/-- The 80 round constants of 64 bits; SHA-256 takes the upper halves of the first 64. -/
def shaK : List Nat := shaK0 ++ shaK1 ++ shaK2 ++ shaK3 ++ shaK4
/-- Initial hash values. -/
def sha256Init : List Nat := [0x6A09E667, 0xBB67AE85, 0x3C6EF372, 0xA54FF53A, 0x510E527F, 0x9B05688C, 0x1F83D9AB, 0x5BE0CD19]
def sha384Init : List Nat :=
  [0xCBBB9D5DC1059ED8, 0x629A292A367CD507, 0x9159015A3070DD17, 0x152FECD8F70E5939,
   0x67332667FFC00B31, 0x8EB44A8768581511, 0xDB0C2E0D64F98FA7, 0x47B5481DBEFA4FA4]

/-- What differs between the 32-bit and the 64-bit functions: width in bits, the rotations of the four sigma functions with the final
shifts of the small ones, and the round constants. -/
structure ShaKind where
  w : Nat
  big0 : Nat × Nat × Nat
  big1 : Nat × Nat × Nat
  small0 : Nat × Nat × Nat
  small1 : Nat × Nat × Nat
  consts : List Nat
  deriving DecidableEq, Repr
def sha256Kind : ShaKind :=
  ⟨32, (2, 13, 22), (6, 11, 25), (7, 18, 3), (17, 19, 10), (shaK.take 64).map (· / 2 ^ 32)⟩
def sha512Kind : ShaKind := ⟨64, (28, 34, 39), (14, 18, 41), (1, 8, 7), (19, 61, 6), shaK⟩

/-- A rotation to the right of a w-bit number. -/
def shaRotr (w x n : Nat) : Nat := x / 2 ^ n + x % 2 ^ n * 2 ^ (w - n)
def shaBig (w : Nat) (r : Nat × Nat × Nat) (x : Nat) : Nat := shaRotr w x r.1 ^^^ shaRotr w x r.2.1 ^^^ shaRotr w x r.2.2
def shaSmall (w : Nat) (r : Nat × Nat × Nat) (x : Nat) : Nat := shaRotr w x r.1 ^^^ shaRotr w x r.2.1 ^^^ x / 2 ^ r.2.2
/-- n further words of a message schedule that is kept newest first. -/
def shaExpand (k : ShaKind) : Nat → List Nat → List Nat
  | 0, l => l
  | n + 1, l =>
    shaExpand k n ((shaSmall k.w k.small1 (l.getD 1 0) + l.getD 6 0 + shaSmall k.w k.small0 (l.getD 14 0) + l.getD 15 0) % 2 ^ k.w :: l)
/-- One round on the eight working variables. -/
def shaRound (k : ShaKind) (v : List Nat) (kw : Nat × Nat) : List Nat :=
  match v with
  | [a, b, c, d, e, f, g, h] =>
    let t1 := h + shaBig k.w k.big1 e + ((e &&& f) ^^^ ((2 ^ k.w - 1 - e) &&& g)) + kw.1 + kw.2
    let t2 := shaBig k.w k.big0 a + ((a &&& b) ^^^ (a &&& c) ^^^ (b &&& c))
    [(t1 + t2) % 2 ^ k.w, a, b, c, (d + t1) % 2 ^ k.w, e, f, g]
  | _ => v
/-- Big-endian words of n bytes. -/
def shaWords (n : Nat) : Nat → List Byte → List Nat
  | 0, _ => []
  | c + 1, l => (l.take n).foldl (fun x b => x * 256 + b.toNat) 0 :: shaWords n c (l.drop n)
/-- One block of 16 words. -/
def shaBlock (k : ShaKind) (h : List Nat) (block : List Byte) : List Nat :=
  let w := (shaExpand k (k.consts.length - 16) (shaWords (k.w / 8) 16 block).reverse).reverse
  ((k.consts.zip w).foldl (shaRound k) h).zipWith (fun x y => (x + y) % 2 ^ k.w) h
/-- c blocks of a padded message. -/
def shaBlocks (k : ShaKind) : Nat → List Nat → List Byte → List Nat
  | 0, h, _ => h
  | c + 1, h, l => shaBlocks k c (shaBlock k h (l.take (2 * k.w))) (l.drop (2 * k.w))
/-- The padding: a one bit, zeros, and the length in bits, big-endian in an eighth of a block. -/
def shaPad (k : ShaKind) (l : List Byte) : List Byte :=
  let size := 2 * k.w
  let len := k.w / 4
  l ++ [0x80] ++ List.replicate ((2 * size - 1 - len - l.length % size) % size) 0 ++ (bytesOf len (8 * l.length)).reverse
/-- The digest as bytes. -/
def shaDigest (k : ShaKind) (init : List Nat) (l : List Byte) : List Byte :=
  let p := shaPad k l
  (shaBlocks k (p.length / (2 * k.w)) init p).flatMap fun x => (bytesOf (k.w / 8) x).reverse
def sha256 (l : List Byte) : List Byte := shaDigest sha256Kind sha256Init l
def sha384 (l : List Byte) : List Byte := (shaDigest sha512Kind sha384Init l).take 48
/-- The image hash H: the first 8 bytes of the SHA-256 digest, little-endian (R187). -/
def imageHash (l : List Byte) : Word := BitVec.ofNat 64 (ofBytes ((sha256 l).take 8))

end Sys2Proof.Machine
end

