-- ==== Sys2Proof/Machine/Loader.lean ====
section
/-! DEFINITION. Placement queues and the loader (R164, R189 to R200): selection, loads frame by frame, the wave, completion words,
cancels, and the route tables of free tiles. -/

namespace Sys2Proof.Machine

/-! Selection (R192) -/

/-- The rectangle that a load fills (R188). -/
def Region.target (g : Region) : Word := if bit g.new_ 31 then g.new_ else g.geom
/-- A valid swap entry names the facet. -/
def Region.swapNames (g : Region) (f : Facet) : Bool := g.swapfc.any fun x => bit x.2 7 && fld x.2 0 2 == f.val
/-- The facet of an entry, if it has one now. -/
def Region.entryFacet (g : Region) (e : BitVec 512) : Option Facet :=
  if descAny e then
    ((List.finRange 4).find? fun f => g.fquiet f && !g.floaded f && !g.swapNames f).or
      ((List.finRange 4).find? fun f => g.fquiet f && f != g.ifac && !g.swapNames f)
  else if g.fquiet (descTfac e) then some (descTfac e) else none
def Region.eligible (g : Region) (e : BitVec 512) : Bool := (g.entryFacet e).isSome && (descAct e != 2 || !g.en)
/-- The first eligible entry, highest priority first and oldest first, with its place in the queue. -/
def Region.choose (g : Region) : Option (BitVec 512 × Nat) :=
  (g.queue.zipIdx.filter fun x => g.eligible x.1).foldl (fun best x =>
    match best with
    | some b => if descPrio b.1 < descPrio x.1 then some x else best
    | none => some x) none
/-- The loader microcode is verified (R453, R454): no load starts before. -/
def State.ldrok (s : State) : Bool := bit s.modul.bootstat 8
/-! Selection and start -/

/-- A watch is cancelled at its home (R236). -/
def State.cancelWatch (s : State) (id : Nat) : State :=
  match s.findReq id with
  | some q => (s.undefer q).delReq id
  | none => s
/-- A facet of a tile as a load finds it after its start (R194, R236, R282, R329). -/
def State.clearFacet (s : State) (t : Tile) (f : Facet) : State :=
  let b := s.sw t
  let s := s.setSw t { b with routes := vset b.routes f [], cidrid := vset b.cidrid f none }
  if t.isCT then
    let mine := (s.el t).moors.filter fun m => m.facet == f
    let s : State := (mine.filterMap (·.watch)).foldl State.cancelWatch s
    s.modEl t fun e =>
      { e.modFac f (fun x => { x with handlers := Vector.replicate 64 Handler.reset, actbase := 0, actlim := 0x10000, isbase := 0,
                                      islim := 0x800, rmode := 0, masks := 0, held := false, framed := false }) with
        moors := e.moors.filter fun m => m.facet != f }
  else s.modMt t fun m =>
    { m.modFac f (fun x =>
        { x with mode := none, wp := 0, rp := 0, gens := Vector.replicate 4 Gen.reset, cmds := [], quick := [], held := false, framed := false,
                 mx := { x.mx with b := x.mx.b.map fun b => { b with loaded := false }, amap := false, bmap := false, cmds := [],
                                   staged := [], quick := [], dropA := false, dropB := false } }) with
      nodes := m.nodes.map fun n => if n.owner = some f then DepNode.free else n }
/-- The cycle of selection (R194, R452): LBUSY becomes 1, FLOADED bit f and the FENABLE bits of f become 0, the facet is cleared in every
tile, and the loaders are called. -/
def State.beginLoad (s : State) (r : RegionId) (e : BitVec 512) (idx : Nat) (f : Facet) (restore : Bool) : State :=
  let s : State := s.modRg r fun g => Region.setPhase
    { g with load := some ⟨e, idx, f, g.dies.map fun d => ⟨d, false, [], false⟩, .frames, restore⟩,
             lqstat := setBit g.lqstat 6 true, ctl := setBit g.ctl (4 + f.val) false,
             phc := g.phc.filter (fun x => x.1 / 4 != f.val), hopSnap := g.hopSnap.filter (fun x => x.2.2.tok.facet != f),
             tideCfg := vset g.tideCfg f TideCfg.none } f 1
  (s.rg r).tiles.foldl (fun s t =>
    (if t.isCT then s.modEl t fun e => { e with fenable := setBit e.fenable f.val false } else s).clearFacet t f) s
/-- ENTRY_SELECT (R192). -/
def execEntrySelect (r : RegionId) (s : State) : Out :=
  let g := s.rg r
  match g.choose with
  | some (e, i) =>
    (match g.entryFacet e with
    | some f => when_ s (g.load.isNone && g.valid && s.ldrok) (s.beginLoad r e i f false)
    | none => .next s)
  | none => .next s

/-- The load of a region on one die. -/
def Load.ofDie (l : Load) (d : DieId) : Option DieLoad := l.dies.find? fun x => x.die == d
def Load.setDie (l : Load) (x : DieLoad) : Load := { l with dies := l.dies.map fun y => if y.die = x.die then x else y }
/-- The region waits for the die's loader. -/
def State.awaitsLoader (s : State) (d : DieId) (r : RegionId) : Bool :=
  match (s.rg r).load with
  | some l => (match l.ofDie d with
    | some x => !x.started
    | none => false)
  | none => false
/-- The region that an idle loader takes next, by round-robin (R193). -/
def State.nextLoad (s : State) (d : DieId) : Option RegionId :=
  ((List.range 32).map fun i => (Fin.ofNat 32 ((s.die d).loadPtr + i) : RegionId)).find? (s.awaitsLoader d)
/-- A die's loader takes a load; the region's control frames are taken with the first die's. -/
def State.startLoad (s : State) (r : RegionId) (d : DieId) (l : Load) (x : DieLoad) : State :=
  (s.modDie d fun y => { y with loader := some r, loadPtr := (r.val + 1) % 32 }).modRg r fun g =>
    { g with load := some (l.setDie { x with started := true }) }
/-- LOAD_START (R193, R194). -/
def execLoadStart (r : RegionId) (d : DieId) (s : State) : Out :=
  match (s.rg r).load with
  | none => .next s
  | some l => match l.ofDie d with
    | none => .next s
    | some x => when_ s ((s.die d).loader.isNone && s.nextLoad d == some r && s.ldrok) (s.startLoad r d l x)

/-! Rejection (R195) -/

/-- The completion word (R197). -/
def cwWord (e : BitVec 512) (ok : Bool) (code : Nat) : Word := BitVec.ofNat 64 (descStag e + ok.toNat * 2 ^ 8 + code % 32 * 2 ^ 9)
/-- The completion word of an entry is owed from the next cycle on. -/
def State.oweCw (s : State) (r : RegionId) (e : BitVec 512) (f : Facet) (ok : Bool) (code : Nat) : State :=
  if descCwva e = 0 then s
  else s.modRg r fun g => { g with cw := g.cw ++ [⟨descCwva e, cwWord e ok code, f, s.cycle + 1, none⟩] }
/-- An entry leaves the queue; the load in progress keeps its place. -/
def Region.dropEntry (g : Region) (i : Nat) : Region :=
  Region.syncCount { g with queue := g.queue.eraseIdx i,
                            load := g.load.map fun l => if i < l.idx ∧ !l.restore then { l with idx := l.idx - 1 } else l }
/-- LDERR and LERRFR. -/
def Region.loadErr (g : Region) (code frame : Nat) : Region :=
  { g with lqstat := setFld (setFld g.lqstat 7 5 code) 16 24 frame }
/-- The loaders of a region's load are free. -/
def State.freeLoaders (s : State) (r : RegionId) : State :=
  { s with dies := s.dies.map fun d => if d.loader = some r then { d with loader := none } else d }
/-- A load is rejected (R195); a restore fails with it (R394). -/
def State.reject (s : State) (r : RegionId) (code frame : Nat) : State :=
  match (s.rg r).load with
  | none => s
  | some l =>
    let s := (s.freeLoaders r).modRg r fun g =>
      let g := { g.loadErr code frame with load := none, lqstat := setBit (g.loadErr code frame).lqstat 6 false, stat := setBit g.stat 3 true }
      let g := if g.phase l.facet = 1 then g.setPhase l.facet 0 else g
      if l.restore then { g with prectl := setFld g.prectl 8 3 7, preempt := none } else g.dropEntry l.idx
    let s := s.causeRg r l.facet causeConfigRejected (code + frame % 2 ^ 24 * 2 ^ 8)
    if l.restore then s else s.oweCw r l.entry l.facet false code

/-! Frames -/

/-- What reading a frame gives. -/
inductive FrameRead where
  | frame (k : BitVec 256) (s : State)
  | wait
  | refused (code : Nat)
  deriving DecidableEq, Repr
/-- The 32 bytes of an image at a virtual address, as they stand at their home (R195, R216, R256). A walk that ends in a page fault or a
table-node fault refuses the read as any refusal does, and one that holds makes the loader wait (DESIGN CHOICE, log 64). -/
def State.readImage (s : State) (r : RegionId) (va : Nat) : FrameRead :=
  if 2 ^ 56 ≤ va then .refused 12
  else match s.walk r va with
    | .hold => .wait
    | .leaf l =>
      let pa := l.pa va
      let a := s.place pa
      let psn (m : Memory) : Bool := (wordsAt a 32).any fun w => m.isPoison (8 * w)
      let frame (m : Memory) : BitVec 256 := BitVec.ofNat 256 (m.read a 32)
      if !permOk l.word 1 || isLaunch pa || (isSys pa && (s.sysTarget pa).isNone) then .refused 12
      else if isHbm pa then
        let x := s.mem.readHbm pa 32 (leafGl l.word)
        let s' : State := { s.modDie (dieOfPa pa) (fun d => { d with corrected := d.corrected + x.2.1 }) with mem := x.1 }
        if x.2.2.1 || psn x.1 then .refused 13 else .frame (frame x.1) s'
      else if psn s.mem then .refused 13 else .frame (frame s.mem) s
    | _ => .refused 12
/-- The content checks of a frame that names a tile, which every loader makes (R193): the image's earlier frames of the tile tell its
windows, handlers and mode. -/
def State.contentErr (s : State) (g : Region) (f : Facet) (t : Tile) (dl : DieLoad) (k : BitVec 256) : Option Nat :=
  let mine := dl.frames.filter fun x => frNamesTile x && frCol x == frCol k && frRow x == frRow k
  if frType k = 1 then
    if (frSub k = 0 ∨ frSub k = 1 ∨ frSub k = 3) && !mine.any (fun x => frType x == 1 && frSub x == 4) then some 10
    else if !computeOk (s.el t) (loadedEl mine) f k then some 5
    else if frSub k = 1 ∧ handlersClash (loadedEl (mine ++ [k])) then some 6 else none
  else if frType k = 2 then if memTileOk g (s.mt t) f (loadedMode mine) k then none else some 8
  else if frType k = 3 then if switchOk g g.target t k then none else some 7
  else if frType k = 4 then if agFrameOk (loadedMode mine) k then none else some 8
  else none
/-- The checks of a frame in their order: place and facet field, count, type, tile kind, geometry, reserved fields, content (R182 to
R188). -/
def State.frameErr (s : State) (g : Region) (f : Facet) (dl : DieLoad) (k : BitVec 256) : Option Nat :=
  let n := dl.frames.length
  let hdr := dl.frames.headD k
  let rect := g.target
  let t : Tile := ⟨fld rect 0 7 + frCol k, fld rect 8 5 + frRow k⟩
  if n = 0 then
    if !(frIsHeader k && fld k 0 16 == 0x7E9C && fld k 16 8 == 1 && fld k 24 2 == frFacet k) then some 10
    else if hdrFrames k < 2 ∨ 2 ^ 24 < hdrFrames k then some 11
    else if fld k 32 8 ≠ fld rect 16 8 ∨ fld k 40 6 ≠ fld rect 24 6 then some 3
    else if !frReservedOk k then some 2 else none
  else if frFacet k ≠ fld hdr 24 2 || frIsHeader k || (frIsEnd k && n + 1 ≠ hdrFrames hdr) then some 10
  else if n + 1 = hdrFrames hdr && !frIsEnd k then some 11
  else if !frKnown k then some 1
  else if frNamesTile k && !frKindOk k then some 4
  else if frNamesTile k && !inRect rect t then some 3
  else if !frReservedOk k then some 2
  else if frNamesTile k then s.contentErr g f t dl k else none
/-- A LOCK frame's rule on the tiles that frames name (R387): the first frame that breaks it. -/
def Img.locks (m : Img) : Bool := m.frames.any fun k => frType k == 8 && frSub k == 2 && bit k 0
def mirrorOf (t : Tile) : Tile := ⟨t.x + 2, t.y⟩
def Img.lockBad (m : Img) : Option Nat :=
  if m.locks then m.frames.findIdx? fun k => frNamesTile k && (decide (2 ≤ (m.tileOf k).x % 4) || !inRect m.rect (mirrorOf (m.tileOf k)))
  else none
/-- The image with the copies that lockstep makes of its frames. -/
def Img.mirrored (m : Img) : Img :=
  { m with frames := m.frames ++ (m.frames.filter fun k => frNamesTile k).map fun k => setFld k 243 7 (frCol k + 2) }
/-- A mirror's route shares an entry with a primary's (R387): a hop of the one feeds an entry of the other. -/
def Img.sharesMirror (m : Img) : Bool :=
  let x := m.mirrored
  x.routed.any fun e => match x.feed e.1 e.2 with
    | .hop u o => fld (x.entry u o) 0 6 != 0x3F && (decide (e.1.x % 4 < 2) != decide (u.x % 4 < 2))
    | _ => false
/-- The first frame whose copy in its mirror tile breaks R74 or R184 there. -/
def State.mirrorErr (s : State) (g : Region) (m : Img) (f : Facet) : Option (Nat × Nat) :=
  m.frames.zipIdx.findSome? fun x =>
    let t := mirrorOf (m.tileOf x.1)
    if frType x.1 = 1 ∧ frSub x.1 = 0 ∧ !winFree (s.el t) f x.1 then some (5, x.2)
    else if frType x.1 = 2 ∧ frSub x.1 = 1 ∧ areaClash g (s.mt t) f (modeOf x.1) then some (8, x.2) else none
/-- The length of the area that the image gives an MT. -/
def Img.msize (m : Img) (t : Tile) : Option Nat :=
  ((m.frames.filter fun k => frType k == 2 && frSub k == 1 && m.tileOf k == t).getLast?).map fun k => (modeOf k).msize
/-- The checks that the end frame makes, in the order of R194: the code, and the frame named. -/
def State.endErr (s : State) (r : RegionId) (m : Img) (f : Facet) (hash : Word) (k : BitVec 256) : Option (Nat × Nat) :=
  let n := m.frames.length
  let h := imageHash (m.frames.flatMap fun k => bytesOf 32 k.toNat)
  if frWord k 0 ≠ h ∨ h ≠ hash then some (9, n)
  else match m.lockBad with
    | some i => some (3, i)
    | none =>
      if !m.cyclesOk || !m.backOk || (m.locks && m.sharesMirror) then some (7, n)
      else match (if m.locks then s.mirrorErr (s.rg r) m f else none) with
      | some x => some x
      | none => match m.gens.find? fun x => !m.genOk m.msize x with
        | some x => some (8, x.2.2.1)
        | none => match m.treeBad with
          | some i => some (8, i)
          | none => (m.gens.find? fun x => (s.extentsOf r (m.cfg x.1 x.2.1) (BitVec.ofNat 192 (fld x.2.2.2 0 192))).isNone).map fun x => (12, x.2.2.1)
/-- What the end frame writes on a die: extents and children of its generators, and mirrors (R263, R300, R387). -/
def State.endWrite (s : State) (r : RegionId) (m : Img) (d : DieId) (f : Facet) : State :=
  let put (s : State) (at_ : Tile → Tile) : State := (m.gens.filter fun x => x.1.die == d).foldl (fun s x =>
    s.modGen (at_ x.1) f (Fin.ofNat 4 x.2.1) fun g =>
      { g with extents := (s.extentsOf r (m.cfg x.1 x.2.1) (BitVec.ofNat 192 (fld x.2.2.2 0 192))).getD [],
               children := (m.children x.1 x.2.1).map fun c => ((at_ c.1).key, c.2.1) }) s
  let s := put s id
  if m.locks then put (m.frames.foldl (fun s k =>
    if frNamesTile k && (m.tileOf k).die == d then s.writeFrame (mirrorOf (m.tileOf k)) f k else s) s) mirrorOf
  else s
/-- The tokens that a restore has put into a node's queues belong to its snapshot (R394). -/
def State.recordQueued (s : State) (t : Tile) (f : Facet) : State :=
  let l := (List.finRange 16).flatMap fun p => (s.inq t f p).map fun k => (p.val, k.tok)
  if t.isCT then s.modFac t f fun x => { x with snaps := x.snaps.modifyLast fun y => { y with record := l } }
  else s.modMtFac t f fun x => { x with snaps := x.snaps.modifyLast fun y => { y with record := l } }
/-- A node begins at the committed tide, and at a tide that is injected already (R372). -/
def State.beginNode (s : State) (r : RegionId) (f : Facet) (t : Tile) : State :=
  let g := s.rg r
  if g.tides && s.isNode t f then
    let s := (s.snapNode t f g.ctide 0).recordQueued t f
    if g.tnext = g.ctide + 1 then s else (s.snapNode t f (g.tnext - 1) 0).recordQueued t f
  else s
/-- The state that a restore has written is the facet's snapshot, with the tokens that it has put into hops (R394). -/
def State.beginRestored (s : State) (r : RegionId) (f : Facet) : State :=
  let g := s.rg r
  let hops := g.tiles.flatMap fun t => (s.sw t).hops.flatMap fun h =>
    (h.2.buf.filter fun k => k.tok.facet == f).map fun k => (g.tnext - 1, 32 * t.key + h.1, k)
  let s := g.tiles.foldl (fun s t => s.beginNode r f t) s
  if g.tides then s.modRg r fun g => { g with hopSnap := g.hopSnap ++ hops } else s
/-- A die's loader has passed the end frame. When all have, the wave starts (R196); a restore writes its records first (R394). -/
def State.passDie (s : State) (r : RegionId) (l : Load) (x : DieLoad) : State :=
  let l := l.setDie { x with passed := true }
  let s := (s.modDie x.die fun y => { y with loader := none }).modRg r fun g => { g with load := some l }
  if l.dies.all (·.passed) then
    let wave (s : State) : State := s.modRg r fun g => { g with load := some { l with phase := .wave s.cycle } }
    if l.restore then
      match s.restoreRecords r l.facet with
      | some s' => wave (s'.beginRestored r l.facet)
      | none =>
        (s.freeLoaders r).modRg r fun g =>
          { g with load := none, lqstat := setBit g.lqstat 6 false, prectl := setFld g.prectl 8 3 7, preempt := none }.setPhase l.facet 0
    else wave s
  else s
/-- A loader drives the row bus of a tile to which it carries a frame: in this cycle the bus takes and delivers no token (R159). That frames
go by row buses is a DESIGN CHOICE (log 65). -/
def State.drivesRow (s : State) (t : Tile) : State :=
  { s with turns := s.turns.take (2 * (2 ^ 60 + t.die.val)) [busTurn t.die (.row (Fin.ofNat 32 t.y))] }
/-- A frame is taken (R194). -/
def State.takeFrame (s : State) (r : RegionId) (l : Load) (x : DieLoad) (k : BitVec 256) : State :=
  let g := s.rg r
  let m : Img := ⟨x.frames, g.target⟩
  match s.frameErr g l.facet x k with
  | some c => s.reject r c x.frames.length
  | none =>
    if x.frames ≠ [] && frIsEnd k then
      match s.endErr r m l.facet (descHash l.entry) k with
      | some (c, i) => s.reject r c i
      | none => (s.endWrite r m x.die l.facet).passDie r l x
    else
      let s := if frNamesTile k && (m.tileOf k).die == x.die then (s.drivesRow (m.tileOf k)).writeFrame (m.tileOf k) l.facet k else s
      s.modRg r fun g =>
        { g with load := some (l.setDie { x with frames := x.frames ++ [k] }),
                 tideCfg := if !frNamesTile k && l.dies.head?.map (·.die) == some x.die then vmod g.tideCfg l.facet (·.load k) else g.tideCfg }
/-- LOAD_FRAME (R193, R194): at most one frame a cycle, and only while the facet is quiet (R164). -/
def execLoadFrame (r : RegionId) (d : DieId) (s : State) : Out :=
  match (s.rg r).load with
  | none => .next s
  | some l => match l.ofDie d with
    | none => .next s
    | some x =>
      if !(x.started && !x.passed && (s.die d).loader == some r && l.phase == .frames && (s.rg r).fquiet l.facet &&
          (s.die d).tookAt != s.cycle + 1) then .next s
      else match s.readImage r (descImg l.entry + 32 * x.frames.length) with
        | .wait => .next s
        | .refused c => .next (s.reject r c x.frames.length)
        | .frame k s' => .next ((s'.modDie d fun y => { y with tookAt := s.cycle + 1 }).takeFrame r l x k)

/-! The wave (R196) -/

/-- Cycles from e + 1 until the wave reaches a column. -/
def State.waveDelay (s : State) (g : Region) (col : Nat) : Nat :=
  let x0 := fld g.target 0 7
  col + s.diesL (Tile.die ⟨x0, 0⟩) (Tile.die ⟨x0 + col, 0⟩)
/-- A column receives the wave; its nodes begin at the committed tide (R372). -/
def State.waveColumn (s : State) (r : RegionId) (f : Facet) (col : Nat) : State :=
  let g := s.rg r
  let rect := g.target
  (List.range (fld rect 24 6)).foldl (fun s j =>
    let t : Tile := ⟨fld rect 0 7 + col, fld rect 8 5 + j⟩
    let s := if t.isCT then s.modEl t fun e => { e with fenable := setBit e.fenable f.val true } else s
    if g.load.any (·.restore) then s else s.beginNode r f t) s
/-- WAVE_ARRIVAL (R196). -/
def execWaveArrival (r : RegionId) (col : Nat) (s : State) : Out :=
  let g := s.rg r
  match g.load with
  | some l => (match l.phase with
    | .wave e => when_ s (decide (col < fld g.target 16 8) && s.cycle == e + 1 + s.waveDelay g col) (s.waveColumn r l.facet col)
    | .frames => .next s)
  | none => .next s
/-- The end of cycle f (R196). -/
def State.finishLoad (s : State) (r : RegionId) (l : Load) : State :=
  let f := l.facet
  let s := s.modRg r fun g => g.restamp fun g =>
    let g := { g with ctl := setBit g.ctl (4 + f.val) true, lqstat := setBit g.lqstat 6 false, load := none,
                      handle := tset g.handle f.val l.entry }
    let g := if descAct l.entry = 0 then g else { g with ctl := setFld g.ctl 1 2 f.val, swapped := [] }
    let g := if descAct l.entry = 2 then { g with ctl := setBit g.ctl 0 true } else g
    let g := if g.phase f = 1 then g.setPhase f 2 else g
    let g := if l.restore then { g with prectl := setBit (setFld g.prectl 8 3 0) 11 true, preempt := none } else g.dropEntry l.idx
    g
  if l.restore then s else s.oweCw r l.entry f true 0
/-- LOAD_PASS (R196). -/
def execLoadPass (r : RegionId) (s : State) : Out :=
  let g := s.rg r
  match g.load with
  | some l => (match l.phase with
    | .wave e => when_ s (decide (e + 2 + s.waveDelay g (fld g.target 16 8 - 1) ≤ s.cycle)) (s.finishLoad r l)
    | .frames => .next s)
  | none => .next s

/-! Completion words (R197) -/

/-- The store of a completion word is refused: a notice and nothing else. -/
def State.refuseCw (s : State) (r : RegionId) (c : CwStore) (code : Nat) : State := s.causeRg r c.facet code (c.va % 2 ^ 32)
/-- The store at its home. -/
def State.storeCw (s : State) (r : RegionId) (c : CwStore) (pa : Nat) (leaf : Word) : State :=
  let s := s.countBytes pa (leafGl leaf) (fld leaf 52 4) true
  let s := s.noteAt r c.facet (s.mem.mergeReads pa 8 (leafGl leaf))
  let s : State := { s with mem := s.mem.devWrite pa (bytesOf 8 c.word.toNat) (leafGl leaf) false }
  s.setTag (pa / 8) true c.facet (some r)
/-- COMPLETION_WORD_STORE (R197); behind a hold it waits (R230). A walk that meets MLOCK holds until a wake, and after 1,024 microseconds
refuses the store (R269). -/
def execCompletionWordStore (r : RegionId) (s : State) : Out :=
  match (s.rg r).cw with
  | [] => .next s
  | c :: rest =>
    let s' := s.modRg r fun g => { g with cw := rest }
    let now := (s.die (s.rg r).corner.die).time
    if s.cycle < c.due then .next s
    else match c.held with
    | some t0 => when_ s (decide (t0 + 1024000 ≤ now)) (s'.refuseCw r c causeMigration)
    | none => match s.walk r (c.va % 2 ^ 56) with
      | .hold => .next (s.modRg r fun g => { g with cw := { c with held := some now } :: rest })
      | .leaf l =>
        let pa := l.pa (c.va % 2 ^ 56)
        if 2 ^ 56 ≤ c.va then .next (s'.refuseCw r c causeAddressForm)
        else if !permOk l.word 6 then .next (s'.refuseCw r c causePermission)
        else match formRefusal 5 pa l.word with
          | some code => .next (s'.refuseCw r c code)
          | none => when_ s (!s.isHeld (pa / 8)) (s'.storeCw r c pa l.word)
      | .refuse code => .next (s'.refuseCw r c code)
      | .node _ => .next (s'.refuseCw r c causeTableNode)
      | .major _ _ => .next (s'.refuseCw r c causePageFault)

/-! Doorbells and cancels -/

/-- LQDOOR_PUSH (R190): a write of 64 bytes at a multiple of 64, or a malformed one. -/
def execLqdoorPush (r : RegionId) (w : DoorWrite) (data : BitVec 512) (s : State) : Out :=
  .next (if w.bytes = 64 ∧ w.off % 64 = 0 then s.push r data else s.modRg r Region.badw)
/-- A waiting entry is cancelled (R191). -/
def State.cancelEntry (s : State) (r : RegionId) (i : Nat) (e : BitVec 512) : State :=
  (s.modRg r fun g => (g.loadErr 14 0).dropEntry i).oweCw r e (descTfac e) false 14
/-- The cancel of the entry in progress: up to cycle e it is a rejection. -/
def State.cancelLoad (s : State) (r : RegionId) (l : Load) : State :=
  let behind := l.dies.foldl (fun n x => min n x.frames.length) (2 ^ 24)
  match l.phase with
  | .frames => s.reject r 14 behind
  | .wave e => if s.cycle ≤ e then s.reject r 14 behind else s
/-- A write of LQCTL (R191). -/
def State.writeLqctl (s : State) (r : RegionId) (v : Word) : State :=
  let g := s.rg r
  let i := fld v 0 3
  if !bit v 3 then s
  else match g.queue[i]?, g.load with
    | none, _ => s
    | some e, some l => if l.idx = i ∧ !l.restore then s.cancelLoad r l else s.cancelEntry r i e
    | some e, none => s.cancelEntry r i e
/-- LQCTL_CANCEL (R191). -/
def execLqctlCancel (r : RegionId) (v : Word) (s : State) : Out := .next (s.writeLqctl r v)

/-! Free tiles (R199) -/

/-- FREEW_WRITE (R199). -/
def execFreewWrite (d : DieId) (frame : BitVec 256) (s : State) : Out := .next (s.modDie d fun x => { x with freew := some frame })
/-- The tile that a free-tile frame names. -/
def freeTile (d : DieId) (k : BitVec 256) : Tile := ⟨16 * d.val + frCol k, frRow k⟩
/-- An entry of a free tile drives no track towards an I/O die. -/
def freeEntryOk (t : Tile) (e : Nat) (v : BitVec 16) : Bool :=
  entryOk t e v && (fld v 0 6 == 0x3F || 32 ≤ e || !((edgeOf e == 3 && t.x == 0) || (edgeOf e == 1 && t.x == 127)))
/-- The frame may be written. -/
def State.freewOk (s : State) (d : DieId) (k : BitVec 256) : Bool :=
  let t := freeTile d k
  frType k == 3 && frFacet k == 0 && frUnit k ≤ 1 && decide (frCol k < 16) && (s.regionOf t).isNone && frReservedOk k &&
  (frUnit k == 1 || (decide (1 ≤ frN k) && decide (frN k ≤ 13) && decide (frOff k + frN k ≤ 48) &&
    (List.range (frN k)).all fun j => freeEntryOk t (frOff k + j) (frRoute k j)))
/-- The loader writes or refuses the frame. -/
def State.applyFreew (s : State) (d : DieId) (k : BitVec 256) : State :=
  let s : State := s.modDie d fun x => { x with freew := none, freest := if s.freewOk d k then x.freest else setBit x.freest 0 true }
  if s.freewOk d k then s.writeSwitch (freeTile d k) 0 k else s
/-- FREEW_APPLY (R199): at the next idle cycle of the loader. -/
def execFreewApply (d : DieId) (s : State) : Out :=
  match (s.die d).freew with
  | some k => when_ s ((s.die d).loader.isNone && (s.nextLoad d).isNone && (s.die d).tookAt != s.cycle + 1) (s.applyFreew d k)
  | none => .next s

end Sys2Proof.Machine
end

