-- ==== Sys2Proof/Machine/Preempt.lean ====
section
/-! DEFINITION. Pre-emption (R389 to R395): saves step by step, and the start of a restore. -/

namespace Sys2Proof.Machine

def Region.preState (g : Region) : Nat := fld g.prectl 8 3
def Region.setPreState (g : Region) (n : Nat) : Region := { g with prectl := setFld g.prectl 8 3 n }
/-- The facet of the save in progress. -/
def Region.saveFacet (g : Region) : Option Facet := g.preempt.bind fun p => if p.restore then none else some p.facet
/-- A save starts (R390): STATE 001. -/
def State.startSave (s : State) (r : RegionId) (f : Facet) : State :=
  s.modRg r fun g =>
    { g with prectl := setBit (setFld g.prectl 8 3 1) 11 false,
             preempt := some { restore := false, facet := f, started := s.cycle, drained := [], blocks := [], size := 0, saved := [],
                               lastAt := 0, forced := none } }
/-- The fields of the control register that a write sets, and DONE cleared by a 1 (R389). -/
def Region.writePre (g : Region) (v : Word) : Region :=
  { g with prectl := setBit (setFld g.prectl 1 5 (fld v 1 5)) 11 (bit g.prectl 11 && !bit v 11) }
/-- GO is not ignored (R389). -/
def Region.goOk (g : Region) (v : Word) : Bool := bit v 0 && (g.preState == 0 || g.preState == 7)
/-- PREEMPT_SAVE (R389, R390): a write with OP = 0. -/
def execPreemptSave (r : RegionId) (v : Word) (s : State) : Out :=
  let g := s.rg r
  let s' := s.modRg r (·.writePre v)
  .next (if bit v 1 then s else if g.goOk v then s'.startSave r (Fin.ofNat 4 (fld v 2 2)) else s')
/-- The queue holds an entry that waits only for facet f, of a priority above that of the entry that loaded it (R389); after a save the
facet is loaded no longer (R403). -/
def Region.blockedAbove (g : Region) (f : Facet) : Bool :=
  g.floaded f && g.queue.any fun e => !descAny e && descTfac e == f && decide (descPrio (tget g.handle f.val 0) < descPrio e) && !g.fquiet f &&
    (descAct e != 2 || !g.en)
/-- AUTO_SAVE_START (R389). -/
def execAutoSaveStart (r : RegionId) (s : State) : Out :=
  let g := s.rg r
  let f : Facet := Fin.ofNat 4 (fld g.prectl 2 2)
  when_ s (g.valid && bit g.prectl 4 && g.preState == 0 && g.blockedAbove f) (s.startSave r f)
/-- A cut holds or floods the facet (R449). -/
def Region.cutHolds (g : Region) (f : Facet) : Bool := fld g.dcut 4 2 != 0 && g.cutFac == f
/-- The replay of the facet has left the sites (R391). -/
def Region.replayDone (g : Region) (f : Facet) : Bool := g.rollback.isNone && !g.replay.any fun x => x.2.any fun k => k.facet == f
/-- SAVE_STOP (R390): the latest tide has committed, and the sites and root generators stop. -/
def execSaveStop (r : RegionId) (s : State) : Out :=
  let g := s.rg r
  match g.saveFacet with
  | some f => when_ s (g.preState == 1 && g.tnext == g.ctide + 1 && g.replayDone f && !g.cutHolds f && !s.halted r)
      (s.modRg r fun g => g.restamp (·.setPreState 2))
  | none => .next s

/-! Draining -/

/-- A running command has come to a boundary of its walk (R390): nothing is in flight, and a child waits for its next permit. -/
def State.cmdStopped (s : State) (t : Tile) (f : Facet) (c : Cmd) : Bool :=
  let g := s.gen t f (c.ag 0)
  let idle := c.reads.isEmpty && c.slots.isEmpty && c.buf.isEmpty && c.cur.isNone
  if c.done then true
  else if c.status ≠ 0 then idle
  else if c.op = opAgstart then
    c.reads.isEmpty && c.buf.isEmpty &&
      (if g.haspar then g.run == .waiting && g.permits.isEmpty else g.spos % max 1 g.per == 0 && (decide (g.outer ≤ c.iter g) || decide (c.last ≤ g.spos)))
  else if c.op = opScopy ∨ c.op = opScomp then c.reads.isEmpty && c.pos % max 1 g.per == 0
  else if c.op = opSexp then c.buf.isEmpty && c.cache.isEmpty && c.posw == 0
  else if c.indexed then idle && (c.isrc || c.pos % max 1 g.per == 0)
  else false
/-- The generators of an MT's facet have stopped, and nothing of them is on the control network. -/
def State.mtStopped (s : State) (t : Tile) (f : Facet) : Bool :=
  let x := (s.mt t).fac f
  (x.cmds.all fun c => !c.started || s.cmdStopped t f c) &&
    (List.finRange 4).all fun i => (x.gens.get i).comingPermits.isEmpty && (x.gens.get i).comingDones.isEmpty
def Region.mts (g : Region) : List Tile := g.tiles.filter fun t => !t.isCT
/-- DRAIN_INJECT (R390): a drain mark at every site of the facet, and at the nodes without forward ports. -/
def execDrainInject (r : RegionId) (s : State) : Out :=
  let g := s.rg r
  match g.saveFacet with
  | some f =>
    let k := markTok f markDrain (g.tnext % 2 ^ 32)
    when_ s (g.preState == 2 && g.mts.all (fun t => s.mtStopped t f) && !s.halted r)
      ((s.modRg r fun g => (g.queueMark (g.markSites f) k).setPreState 3).rootsTake r f k)
  | none => .next s
/-- DRAIN_TAKE (R390): an MT emits the mark only once its generators have stopped. -/
def execDrainTake (t : Tile) (f : Facet) (s : State) : Out :=
  match s.nodeMark t f with
  | some k => when_ s (k.markType == markDrain && !s.tileHalted t && (t.isCT || s.mtStopped t f)) (s.takeHold t f k false)
  | none => .next s
/-- The drain has reached every node and egress site, recordings have ended, and no write is owed (R390, step 4). -/
def State.drained (s : State) (r : RegionId) (f : Facet) : Bool :=
  let g := s.rg r
  let out := (g.preempt.map (·.drained)).getD []
  (s.nodes r f).all (fun t => s.nodeHeld t f && s.nodeRecording t f == 0) &&
  (s.egressOf r f).all (fun p => out.contains (f.val, p)) &&
  g.mts.all fun t => s.owed t f == 0 && !(s.mt t).fired.any fun x => x.facet == f

/-! Saving -/

/-- Commands that have made their last access end: their completions are pending from here on (R372). -/
def State.endFinished (s : State) (t : Tile) (f : Facet) : State :=
  let s := ((s.mt t).fac f).cmds.foldl (fun s c => if c.done then s.settleCmd t f c else s) s
  ((s.mt t).fac f).mx.cmds.foldl (fun s c => if c.done || (c.op == opMma && c.status != 0) then s.settleMx t f c else s) s
/-- The tokens of the facet leave their places (R390, step 4). -/
def State.liftTokens (s : State) (r : RegionId) (f : Facet) : State :=
  let l := (s.rg r).rowMajor.flatMap fun t => (s.tokensAt t f).map fun x => (t, x.1, x.2)
  let lift (s : State) (t : Tile) : State :=
    let s := (List.finRange 16).foldl (fun s p => s.modInq t f p fun _ => []) s
    let b := s.sw t
    if b.hops.isEmpty then s
    else s.setSw t { b with hops := b.hops.map fun h =>
                              (h.1, { h.2 with buf := h.2.buf.filter fun k => k.tok.facet != f, flight := h.2.flight.filter fun k => k.tok.facet != f }) }
  let s := (s.rg r).tiles.foldl lift s
  s.modRg r fun g => { g with preempt := g.preempt.map fun p => { p with saved := l } }
/-- The save overlay takes the image of the facet (R390, R392). -/
def State.takeImage (s : State) (r : RegionId) (f : Facet) : State :=
  let s := (s.rg r).mts.foldl (fun s t => s.endFinished t f) s
  let x := s.contextImage r f
  let s := s.liftTokens r f
  s.modRg r fun g => { (g.setPreState 4) with preempt := g.preempt.map fun p => { p with blocks := x.1, size := x.2 } }
/-- A write of the image is refused (R391): the facet returns to service. -/
def State.failSave (s : State) (r : RegionId) (f : Facet) (code : Nat) : State :=
  let l := ((s.rg r).preempt.map (·.saved)).getD []
  let back (s : State) (x : Tile × Nat × QTok) : State :=
    if x.2.1 < 0x20 then s.modInq x.1 f (Fin.ofNat 16 x.2.1) (· ++ [x.2.2])
    else
      let b := s.sw x.1
      s.setSw x.1 { b with hops := tmod b.hops (x.2.1 - 0x20) Hop.empty fun h => { h with buf := h.buf ++ [x.2.2] } }
  let s := l.foldl back s
  let s := (s.rg r).tiles.foldl (fun s t => s.holdNode t f false) s
  (s.modRg r fun g => g.restamp fun g => { (g.setPreState 7) with preempt := none }).causeRg r f causePreemptFailed code
/-- Where a write of the image goes (R389). -/
inductive SaveAt where
  | ok (pa : Nat) (leaf : Word)
  | wait
  | refused (code : Nat)
  deriving DecidableEq, Repr
def State.saveAt (s : State) (r : RegionId) (va : Nat) : SaveAt :=
  match s.walk r (va % 2 ^ 56) with
  | .hold => .wait
  | .leaf l =>
    let pa := l.pa (va % 2 ^ 56)
    if !permOk l.word 2 then .refused causePermission else if isHbm pa then .ok pa l.word else .refused causeAddressForm
  | .refuse c => .refused c
  | .node _ => .refused causeTableNode
  | .major _ _ => .refused causePageFault
/-- The next write of one die. -/
def State.saveDie (s : State) (r : RegionId) (f : Facet) (d : DieId) : State :=
  let g := s.rg r
  match g.preempt with
  | none => s
  | some p => match p.blocks.find? fun b => b.1 == d with
    | none => s
    | some b => match s.saveAt r (g.ctxVa + b.2.1) with
      | .wait => s
      | .refused c => s.failSave r f c
      | .ok pa leaf =>
        let n := (wordsAt pa b.2.2.1.length).length
        match s.bwRoom d r (g.tnext - 1) n with
        | .wait => s
        | .overflow => s.bwOverflow d r f
        | .ok =>
          let s : State := s.modRg r fun g =>
            { g with preempt := g.preempt.map fun p => { p with blocks := p.blocks.erase b, lastAt := s.cycle } }
          s.bumpId.bwPut d r (g.tnext - 1) n (.store s.nextId pa b.2.2.1 (leafGl leaf) (fld leaf 52 4) b.2.2.2)
/-- The last image write has been accepted: the forced tide (R390, step 5). -/
def State.forceTide (s : State) (r : RegionId) : State :=
  let n := (s.rg r).tnext
  let s := if (s.rg r).tides then s.injectTide r false else s
  s.modRg r fun g => { (g.setPreState 5) with preempt := g.preempt.map fun p => { p with forced := some n } }
/-- SAVE_IMAGE_WRITE (R390, steps 4 and 5): the image is taken, then every die writes 64 bytes of it in each cycle. -/
def execSaveImageWrite (r : RegionId) (s : State) : Out :=
  let g := s.rg r
  match g.saveFacet with
  | none => .next s
  | some f =>
    if s.halted r then .next s
    else if g.preState = 3 then
      when_ s (s.drained r f) ((List.finRange 8).foldl (fun s d => s.saveDie r f d) (s.takeImage r f))
    else if g.preState = 4 then
      if (g.preempt.map fun p => p.blocks.isEmpty).getD false then .next (s.forceTide r)
      else .next ((List.finRange 8).foldl (fun s d => s.saveDie r f d) s)
    else .next s
/-- The facet is reset in every tile of the region (R390, step 5), with the requests and completions that the image holds. -/
def State.dropFacet (s : State) (r : RegionId) (f : Facet) : State :=
  let mine := s.reqs.filter fun q => !q.src.isElem && q.region == some r && q.facet == f && q.deferred
  let s : State := mine.foldl (fun s q => (s.undefer q).delReq q.id) s
  (s.rg r).tiles.foldl (fun s t =>
    let s := (s.clearTokens t f).clearFacet t f
    if t.isCT then s.modEl t fun e => { e with fenable := setBit e.fenable f.val false }
    else s.modMt t fun m => { m with pend4 := m.pend4.filter (fun c => c.facet != f), pend6 := m.pend6.filter fun c => c.facet != f }) s
/-- The end of a save. -/
def State.finishSave (s : State) (r : RegionId) (f : Facet) (size : Nat) : State :=
  (s.dropFacet r f).modRg r fun g =>
    { g with ctl := setBit g.ctl (4 + f.val) false, preempt := none,
             prectl := setBit (setFld (setFld g.prectl 8 3 0) 16 24 (size / 64)) 11 true,
             tideCfg := vset g.tideCfg f TideCfg.none }
/-- SAVE_COMMIT (R390, step 5): the forced tide's closing reach has committed; without tides, 900 cycles after the last write. -/
def execSaveCommit (r : RegionId) (s : State) : Out :=
  let g := s.rg r
  match g.preempt with
  | none => .next s
  | some p =>
    when_ s (!p.restore && g.preState == 5 && !s.frozen r && (match p.forced with
        | some n => if g.tides then decide (n ≤ g.ctide) else decide (p.lastAt + 900 ≤ s.cycle)
        | none => false))
      (s.finishSave r p.facet p.size)

/-! Restores (R394) -/

/-- The descriptor that a restore loads. -/
def restoreEntry (img hash prio : Nat) (f : Facet) (act : Bool) : BitVec 512 :=
  BitVec.ofNat 512 (img % 2 ^ 56 + hash * 2 ^ 64 + prio * 2 ^ 128 + f.val * 2 ^ 134 + act.toNat * 2 ^ 137)
/-- The checks of a restore to facet f, and the load that follows. -/
def State.startRestore (s : State) (r : RegionId) (f : Facet) (act : Bool) : State :=
  let g := s.rg r
  let ok := g.valid && g.fquiet f && !g.floaded f && !bit g.lqstat 6
  let fail : State := s.modRg r fun g => { g with prectl := setBit (setFld g.prectl 8 3 7) 11 false, preempt := none }
  match s.imageBlocks r g.ctxVa 1 with
  | none => fail
  | some h =>
    let w := get8 h.1 0
    let d := get8 h.1 0x20
    if ok && bits w 0 16 == 0x7E9D && bits w 16 8 == 1 && bits d 0 8 == g.w && bits d 8 6 == g.h then
      let s : State := s.modRg r fun g =>
        { g with prectl := setBit (setFld g.prectl 8 3 6) 11 false,
                 preempt := some { restore := true, facet := f, started := s.cycle, drained := [], blocks := [], size := 0, saved := [],
                                   lastAt := 0, forced := none } }
      s.beginLoad r (restoreEntry (get8 h.1 8) (get8 h.1 16) (bits w 26 3) f act) 0 f true
    else fail
/-- PREEMPT_RESTORE (R394): a write with OP = 1. -/
def execPreemptRestore (r : RegionId) (v : Word) (s : State) : Out :=
  let g := s.rg r
  let s' := s.modRg r (·.writePre v)
  .next (if !bit v 1 then s else if g.goOk v then s'.startRestore r (Fin.ofNat 4 (fld v 2 2)) (bit v 5) else s')

end Sys2Proof.Machine
end

