-- ==== Sys2Proof/Machine/Dies.lean ====
section
/-! DEFINITION. The strand (chapter 20): clocks and device time (R421 to R424), the power exchange (R425, R426), host reads and writes
(R251, R431 to R434), the Ethernet ports with the host rings (R436), fronthaul (R437, R438) and the token transport (R439). -/

namespace Sys2Proof.Machine

/-! Clocks and device time -/

/-- A third of a nanosecond in the units of IoDie.phcFrac (log 13). -/
def thirdNs : Nat := 65536 * 1000000
/-- What a clock of 1 GHz gains in a cycle of 4/3 ns, with the frequency adjustment FADJ in 2^-16 ppm (R4, R424). -/
def State.cycleGain (s : State) : Nat := (4 * ((thirdNs : Int) + sfld s.modul.dtctl 8 32)).toNat
/-- Nanoseconds and the rest. -/
def nsOf (u : Nat) : Nat × Nat := (u / (3 * thirdNs), u % (3 * thirdNs))
def Die.clock (x : Die) : Nat := x.time * (3 * thirdNs) + x.frac
/-- A PHC after one cycle (R423). -/
def IoDie.tick (x : IoDie) (gain : Nat) : IoDie :=
  let u := nsOf (x.phcFrac + gain)
  { x with phc := x.phc + BitVec.ofNat 64 u.1, phcFrac := u.2 }
/-- A die's device time after the cycle that ends (R421, R423): a stretched cycle adds its real length, and a cycle that the die did not
have, which its stretched cycles have taken up already, adds nothing. -/
def Die.ahead (x : Die) (gain : Nat) : Nat := x.clock + (if x.idle then 0 else gain) + x.stretch3 * thirdNs
/-- A die in a new cycle (R421, R423): its device time, by which no die is more than 2 ns ahead of another; the ages of its stretched cycles,
counted in its own cycles; and its slip behind the nominal clock. Once that is a whole period, the die has no cycle of its own in the new one
(DEDUCED, log 13). -/
def Die.tick (x : Die) (gain low : Nat) : Die :=
  let u := nsOf (min (x.ahead gain) (low + 6 * thirdNs))
  let lag := x.lag + x.stretch3
  let ages := if x.idle then x.stretched else (if 0 < x.stretch3 then [1] else []) ++ (x.stretched.map (· + 1)).filter fun n => decide (n ≤ 1023)
  { x with time := u.1, frac := u.2, prev := x.time, stretch3 := 0, stretched := ages, idle := decide (4 ≤ lag),
           lag := if 4 ≤ lag then lag - 4 else lag }
/-- Device time in a new cycle. -/
def State.advanceTime (s : State) : State :=
  let low := (List.finRange 8).foldl (fun n d => min n ((s.die d).ahead s.cycleGain)) ((s.die 0).ahead s.cycleGain)
  { s with ios := s.ios.map fun x => x.tick s.cycleGain, dies := s.dies.map fun x => x.tick s.cycleGain low }
/-- SUPPLY_DROOP (R421): the present cycle of a die is longer by ns3 thirds of a nanosecond, at most one nominal period, and at most 4
cycles of any 1,024 of the die are. -/
def execSupplyDroop (d : DieId) (ns3 : Nat) (s : State) : Out :=
  let x := s.die d
  when_ s (decide (1 ≤ ns3 ∧ ns3 ≤ 4) && x.stretch3 == 0 && !x.idle && decide (x.stretched.length < 4))
    (s.modDie d fun x => { x with stretch3 := ns3 })
/-- The I/O die whose PHC drives device time (R424). -/
def State.source (s : State) : Fin 2 := if bit s.modul.dtctl 0 then 1 else 0
/-- A die takes a stepped device time. -/
def Die.jump (x : Die) (t frac : Nat) : Die := { x with time := t, frac := frac, prev := t, slot := slotAt t }
/-- A step moves device time past tide instants: the tide falls due, and is late (R369, R424). -/
def State.stepTides (s : State) (old : State) : State :=
  (List.finRange 32).foldl (fun s r =>
    if (s.rg r).tides && decide (old.rgTime r / (s.rg r).tidePeriod < s.rgTime r / (s.rg r).tidePeriod) then
      s.modRg r fun g => { g with dueTide := true }
    else s) s
/-- DTSTEP is added to both PHCs and taken by every die (R424). -/
def State.stepTime (s : State) : State :=
  let ios := s.ios.map fun x => { x with phc := x.phc + s.modul.dtstep }
  let src := ios.get s.source
  let s' : State := { s with ios := ios, dies := s.dies.map fun (x : Die) => x.jump src.phc.toNat src.phcFrac,
                             modul := { s.modul with stepDue := false } }
  s'.stepTides s
/-- A die that is behind a broadcast takes it (R423). -/
def Die.lock (x : Die) (src : IoDie) : Die :=
  if x.clock < src.phc.toNat * (3 * thirdNs) + src.phcFrac then { x with time := src.phc.toNat, frac := src.phcFrac } else x
/-- What a broadcast does. -/
def State.broadcast (s : State) : State :=
  let s : State := if s.modul.stepDue then s.stepTime else { s with dies := s.dies.map fun x => x.lock (s.io s.source) }
  { s with modul := { s.modul with lastCast := (s.io s.source).phc.toNat / 64 } }
/-- A broadcast is due: 64 ns have passed. -/
def State.castDue (s : State) : Bool := (s.io s.source).phc.toNat / 64 != s.modul.lastCast
/-- DEVTIME_BROADCAST (R423). -/
def execDevtimeBroadcast (s : State) : Out := when_ s s.castDue s.broadcast
/-- DEVTIME_STEP (R424): a write of DTCTL.STEP. -/
def execDevtimeStep (s : State) : Out := .next { s with modul := { s.modul with stepDue := true } }
/-- FREQUENCY_LOCK_CHANGE (R424). -/
def execFrequencyLockChange (locked : Bool) (s : State) : Out :=
  .next { s with modul := { s.modul with dtctl := setBit s.modul.dtctl 2 locked } }

/-! Power -/

def Die.hold (x : Die) : Nat := fld x.dpwr 0 12
def Die.seed (x : Die) : Nat := fld x.dpwr 12 12
def Die.floor (x : Die) : Nat := fld x.dpwr 24 12
def Die.demand (x : Die) : Nat := fld x.dpwr 36 12
def Die.setHold (x : Die) (n : Nat) : Die := { x with dpwr := setFld x.dpwr 0 12 n }
/-- Units leave a die in a message (R426). -/
def State.powerSend (s : State) (a b : DieId) (n : Nat) (repay : Bool) : State :=
  let m : PowerMsg := { id := s.nextId, src := a, dst := b, units := n, sent := s.cycle, repay := repay, received := false }
  let s := s.bumpId.modDie a fun x => x.setHold (x.hold - n)
  { s with power := s.power ++ [m] }
/-- A lender answers a request for units (R426). -/
def State.lend (s : State) (lender borrower : DieId) (ask : Nat) : State :=
  let x := s.die lender
  let give := min (min ask 16) (x.hold - max x.demand x.floor)
  if bit x.dpwr 48 && decide (0 < give) then s.powerSend lender borrower give false else s
/-- Loans are repaid, the oldest first, with n units (R426). -/
def State.repayLoans (s : State) (d : DieId) : Nat → List (DieId × Nat) → State
  | _, [] => s
  | n, (l, owed) :: rest =>
    let k := min n owed
    if k = 0 then s
    else
      let s := s.powerSend d l k true
      let s := s.modDie d fun x => { x with loans := if k = owed then x.loans.drop 1 else (l, owed - k) :: x.loans.drop 1 }
      s.repayLoans d (n - k) rest
/-- A die that holds more than its seed and needs less repays (R426). -/
def State.repay (s : State) (d : DieId) : State :=
  let x := s.die d
  if x.seed < x.hold ∧ x.demand + 4 ≤ x.hold then s.repayLoans d (min 16 (x.hold - max x.demand x.seed)) x.loans else s
/-- The exposed neighbours of a die; the hidden die relays (R426). -/
def neighbours (d : DieId) : List DieId := (List.finRange 8).filter fun e => e.val + 1 == d.val || d.val + 1 == e.val
/-- The power controller's estimate of the units a die needs is its own (log 14). -/
def State.estimate (s : State) (d : DieId) : State :=
  s.pick.2.modDie d fun x => { x with dpwr := setFld x.dpwr 36 12 s.pick.1 }
/-- One exchange of units between neighbours. -/
def State.exchange (s : State) : State :=
  let s := (List.finRange 8).foldl State.estimate s
  let asks := (List.finRange 8).flatMap fun d =>
    let x := s.die d
    if x.hold < x.demand then (neighbours d).map fun l => (l, d, min 16 (x.demand - x.hold)) else []
  (List.finRange 8).foldl State.repay (asks.foldl (fun s a => s.lend a.1 a.2.1 a.2.2) s)
/-- A microsecond of a die's device time has begun in this cycle. -/
def Die.newUs (x : Die) : Bool := decide (x.prev / 1000 < x.time / 1000)
/-- POWER_EXCHANGE (R426). -/
def execPowerExchange (s : State) : Out := when_ s (s.die 0).newUs s.exchange
/-- Units arrive: they are added once, and a grant is owed (R426). -/
def State.powerApply (s : State) (m : PowerMsg) : State :=
  if m.received then s
  else
    { (s.modDie m.dst fun x => { x.setHold (x.hold + m.units) with loans := if m.repay then x.loans else x.loans ++ [(m.src, m.units)] }) with
      power := s.power.map fun y => if y.id = m.id then { y with received := true } else y }
/-- A message arrives on its sideband (R426): its CRC may fail, and so may its acknowledgement's; an acknowledged message is done. -/
def State.powerArrive (s : State) (m : PowerMsg) : State :=
  let p := s.pick
  if p.1 % 2 = 1 then p.2
  else
    let s := p.2.powerApply m
    if p.1 / 2 % 2 = 1 then s else { s with power := s.power.filter fun y => y.id != m.id }
/-- POWER_MESSAGE_RECEIPT (R426). -/
def execPowerMessageReceipt (k : Nat) (s : State) : Out :=
  match s.power.find? fun y => y.id == k with
  | some m => when_ s (m.sent + s.boundaryL (min m.src.val m.dst.val) == s.cycle) (s.powerArrive m)
  | none => .next s
/-- POWER_RESEND (R426): after 1 us, which is 750 cycles. -/
def execPowerResend (k : Nat) (s : State) : Out :=
  match s.power.find? fun y => y.id == k with
  | some m => when_ s (decide (m.sent + 750 ≤ s.cycle))
      { s with power := s.power.map fun y => if y.id = k then { y with sent := s.cycle } else y }
  | none => .next s

/-! Host reads and writes -/

/-- The physical address of a host access: an offset of the HBM aperture on PCIe and CXL.io, an HBM address on CXL.mem (R431). -/
def State.hostPa (s : State) (io : Fin 2) (path : HostPath) (a : Nat) : Option Nat :=
  match path with
  | .pcie => if a < 2 ^ 36 then some (fld (s.io io).haper 0 3 * 2 ^ 36 + a) else none
  | .cxlMem => if isHbm a then some a else none
  | .bar0 | .bar4 => none
/-- The deny map refuses an address (R431). -/
def State.denied (s : State) (io : Fin 2) (pa : Nat) : Bool :=
  let w := (s.io io).hdenyb
  bit w 0 && (s.mem.byte (fld w 20 32 * 2 ^ 20 + pa / 2 ^ 16 / 8)).getLsbD (pa / 2 ^ 16 % 8)
/-- The committed content of a word of HBM, and its poison: the oldest shadow's, or the memory's (R250). -/
def State.committedWord (s : State) (word : Nat) : Nat × Bool :=
  match (s.shadowsOf word).head?.map (fun e => e.kind) with
  | some (BwKind.shadow _ v _ p) => (v, p)
  | _ => (s.mem.readSeen (8 * word) 8, s.mem.isPoison (8 * word))
/-- The committed bytes from an address on. -/
def State.committedBytes (s : State) (pa n : Nat) : List Byte :=
  (List.range n).map fun i => (bytesOf 8 (s.committedWord ((pa + i) / 8)).1).getD ((pa + i) % 8) 0
def State.committedPoison (s : State) (pa n : Nat) : Bool := (wordsAt pa n).any fun w => (s.committedWord w).2
/-- A shadow takes the content and tag of its word as a host write leaves them (R250). -/
def BwEntry.refresh (e : BwEntry) (m : Memory) (words : List Nat) : BwEntry :=
  match e.kind with
  | .shadow w _ _ _ =>
    if words.contains w then { e with kind := .shadow w (m.read (8 * w) 8) (m.isFull (8 * w)) (m.isPoison (8 * w)) } else e
  | _ => e
/-- A write by an agent that names no page: each granule that it touches keeps the layout that it has (R214, R217). -/
def Memory.plainWrite (m : Memory) (pa : Nat) (bs : List Byte) (poison : Bool) : Memory :=
  let l := blocksOf pa bs.length 32
  if l.all fun b => m.glAt b == m.glAt pa then m.devWrite pa bs (m.glAt pa) poison
  else l.foldl (fun m b => m.devWrite (max pa b) ((bs.drop (b - pa)).take (b + 32 - max pa b)) (m.glAt b) poison) m
/-- A host write is performed at its home on arrival (R250, R251). -/
def State.hostPut (s : State) (pa : Nat) (bs : List Byte) (poison : Bool) : State :=
  let m := s.mem.plainWrite pa bs poison
  { s with mem := m, dies := s.dies.map fun x => { x with bw := x.bw.map fun e => e.refresh m (wordsAt pa bs.length) } }
/-- What a link returns for a host read. -/
def State.linkReply (s : State) (x : LinkOut) : State := { s with out := x :: s.out }
/-- A poisoned host read (R434). -/
def State.poisonRead (s : State) (io : Fin 2) (pa : Nat) (bs : List Byte) : State :=
  let s := s.hlerrCount io 16 pa
  if bit (s.io io).lctl 0 then s.linkReply (.completion bs true)
  else (s.notify (.die (dieOfPa pa)) ⟨causePoisonForward, 0, 16 * (dieOfPa pa).val, 0, 63, false, BitVec.ofNat 32 io.val⟩).linkReply .abort
/-- A host read of the 64 bytes around an address. -/
def State.hostGet (s : State) (io : Fin 2) (pa : Nat) : State :=
  let b := pa / 64 * 64
  let r := s.mem.readHbm b 64 (s.mem.glAt b)
  let s : State := { s with mem := r.1 }
  let s := s.modDie (dieOfPa b) fun x => { x with corrected := x.corrected + r.2.1 }
  if r.2.2.1 || s.committedPoison b 64 then s.poisonRead io b (s.committedBytes b 64)
  else s.linkReply (.completion (s.committedBytes b 64) false)
/-- A read of the HBM aperture or of CXL.mem (R251, R431): committed content, or a refusal. -/
def State.hostMemRead (s : State) (io : Fin 2) (path : HostPath) (pa : BitVec 52) : State :=
  match s.hostPa io path pa.toNat with
  | none => s.linkReply .abort
  | some a =>
    if s.denied io a then
      (s.pick.2.hlerrCount io 0 a).linkReply (if path = .pcie then .abort else .completion (bytesOf 64 s.pick.1) true)
    else s.hostGet io a
/-- A write to BAR4 (R429). -/
def State.bar4Write (s : State) (io : Fin 2) (off : Nat) (data : List Byte) : State :=
  if off + data.length ≤ 0x10000 then
    s.modIo io fun x => { x with bar4 := data.zipIdx.foldl (fun t b => tset t (off + b.2) b.1) x.bar4 }
  else s
/-- A read of eight bytes of BAR4. -/
def State.bar4Read (s : State) (io : Fin 2) (off : Nat) : State :=
  s.linkReply (if off + 8 ≤ 0x10000 then .completion ((List.range 8).map fun i => (s.io io).bar4Byte (off + i)) false else .abort)
/-- Recovery mode (R453). -/
def State.recovery (s : State) : Bool := bit s.modul.bootstat 9
/-- The link carries accesses: in recovery mode only link 0 has trained (R453). -/
def State.linkUp (s : State) (io : Fin 2) : Bool := !s.recovery || io == 0
/-- HOST_WRITE (R251, R431). -/
def execHostWrite (io : Fin 2) (path : HostPath) (pa : BitVec 52) (data : List Byte) (poison : Bool) (s : State) : Out :=
  if !s.linkUp io then .next s
  else if path = .bar4 then .next (s.bar4Write io pa.toNat data)
  else match s.hostPa io path pa.toNat with
  | none => .next s
  | some a =>
    if !isHbm (a + data.length - 1) || data.isEmpty then .next s
    else if s.denied io a || s.denied io (a + data.length - 1) then .next (s.hlerrCount io 0 a)
    else .next (s.hostPut a data poison)

/-! Ethernet frames -/

/-- Two bytes of a frame, the more significant first. -/
def be16 (l : List Byte) (i : Nat) : Nat := (l.getD i 0).toNat * 256 + (l.getD (i + 1) 0).toNat
/-- Where the EtherType stands: after the addresses and any VLAN tags (log 15). -/
def etherAt (l : List Byte) : Nat → Nat → Nat
  | 0, i => i
  | n + 1, i => if be16 l i = 0x8100 ∨ be16 l i = 0x88A8 then etherAt l n (i + 4) else i
def typeAt (l : List Byte) : Nat := etherAt l 4 12
/-- Bytes of a template before what follows it (R438). -/
def headLen : Nat := 32
/-- A word of a transport frame (R439). -/
def ttWord (l : List Byte) (k : Nat) : Word := BitVec.ofNat 64 (ofBytes ((l.drop (headLen + 8 * k)).take 8))
/-- A token of a transport frame. -/
def ttTok (l : List Byte) (k : Nat) : Token := ⟨ttWord l (2 + 2 * k), l.getD (headLen + 24 + 16 * k) 0⟩
def ttCount (l : List Byte) : Nat := fld (ttWord l 0) 35 7
def ttToks (l : List Byte) : List Token := (List.range (ttCount l)).map (ttTok l)
/-- The transport claims a frame: its EtherType, VER 1, a header and tokens as R439 lays them out, and this device as its destination. -/
def IoDie.ttClaims (x : IoDie) (l : List Byte) : Bool :=
  be16 l (typeAt l) == 0x88B5 && fld (ttWord l 0) 0 8 == 1 && fld (ttWord l 0) 59 5 == 0 && decide (ttCount l ≤ 90) &&
  decide (headLen + 16 + 16 * ttCount l ≤ l.length) && fld (ttWord l 0) 8 16 == fld x.ttself 0 16 && (ttToks l).all (fun k => !k.isMark)
/-- The flow table takes a frame: eCPRI of type 0 or 2 (R437). -/
def flowClaims (l : List Byte) : Bool :=
  let o := typeAt l
  be16 l o == 0xAEFE && ((l.getD (o + 3) 0) == 0 || (l.getD (o + 3) 0) == 2)
/-- The eCPRI header is sound: version 1, one message, and a size that the frame holds (log 15). -/
def ecpriOk (l : List Byte) : Bool :=
  let o := typeAt l
  (l.getD (o + 2) 0).toNat / 16 == 1 && !(l.getD (o + 2) 0).getLsbD 0 && decide (4 ≤ be16 l (o + 4)) &&
  decide (o + 6 + be16 l (o + 4) ≤ l.length)

/-! Fronthaul (R437, R438) -/

/-- Bytes as the payloads of data tokens, 8 to a token, the last padded with zeros. -/
def payloads : Nat → List Byte → List Word
  | 0, _ => []
  | _, [] => []
  | n + 1, l => BitVec.ofNat 64 (ofBytes (l.take 8)) :: payloads n (l.drop 8)
/-- The tokens of one burst: head on the first, tail on the last. -/
def burstToks (l : List Word) : List Token :=
  l.zipIdx.map fun x => ⟨x.1, mkTag 0 kData false (x.2 == 0) (x.2 + 1 == l.length) false⟩
/-- The burst of a frame: a header token and the eCPRI payload. -/
def frameBurst (fr : EthFrame) : List Token :=
  let l := fr.bytes
  let o := typeAt l
  let hdr := be16 l (o + 6) + (l.getD (o + 8) 0).toNat * 2 ^ 16 + (l.getD (o + 3) 0).toNat * 2 ^ 24 + fr.time.toNat % 2 ^ 32 * 2 ^ 32
  burstToks (BitVec.ofNat 64 hdr :: payloads l.length ((l.drop (o + 10)).take (be16 l (o + 4) - 4)))
/-- A flow entry takes a frame (R437). -/
def flowMatches (w : Word) (fr : EthFrame) : Bool :=
  let l := fr.bytes
  let o := typeAt l
  bit w 0 && fld w 1 1 == fr.port.val && bit w 2 == ((l.getD (o + 3) 0) == 2) &&
  ((BitVec.ofNat 16 (be16 l (o + 6)) ^^^ BitVec.ofNat 16 (fld w 3 16)) &&& BitVec.ofNat 16 (fld w 19 16)) == 0
/-- The site of an ingress port faces an I/O die (R437). -/
def State.siteFaces (s : State) (io : Fin 2) (r : RegionId) (p : Nat) : Bool :=
  let w := (s.rg r).ingOf p
  ioOf (siteTile w) (fld w 12 2) == some io
/-- Tokens of a port's frames that still wait: those of the sites that its flow entries name. -/
def State.bufferUse (s : State) (io : Fin 2) (port : Fin 2) : Nat :=
  let keys := ((s.io io).flow.filterMap fun x =>
    if bit x.2 0 && fld x.2 1 1 == port.val then some (64 * fld x.2 35 5 + fld x.2 40 6) else none).dedup
  keys.foldl (fun n k => n + 8 * (tget (s.io io).inbox k []).length) 0
/-- Tokens come to wait at a site (R437, R439). -/
def State.linkIn (s : State) (io : Fin 2) (r p : Nat) (l : List Token) : State :=
  s.modIo io fun x => { x with inbox := tmod x.inbox (64 * r + p) [] (· ++ l) }
/-- A frame of fronthaul is delivered as one burst, or dropped whole (R437). -/
def State.fronthaulIn (s : State) (io : Fin 2) (fr : EthFrame) : State :=
  match (s.io io).flow.find? fun x => flowMatches x.2 fr with
  | none => s
  | some (_, w) =>
    let r := fld w 35 5; let p := fld w 40 6
    let b := frameBurst fr
    if s.siteFaces io (Fin.ofNat 32 r) p && decide (s.bufferUse io fr.port + 8 * b.length ≤ 4194304) then s.linkIn io r p b else s
/-- FRONTHAUL_FRAME_RECEIVE (R437). -/
def execFronthaulFrameReceive (io : Fin 2) (frame : EthFrame) (s : State) : Out :=
  when_ s (frame.fcsGood && flowClaims frame.bytes && ecpriOk frame.bytes) (s.fronthaulIn io frame)
/-- A template's bytes (R438). -/
def IoDie.templateBytes (x : IoDie) (j : Nat) : List Byte := (List.range 4).flatMap fun k => bytesOf 8 (tget x.template (4 * j + k) 0).toNat
/-- A frame leaves an Ethernet port. -/
def State.frameOut (s : State) (io port : Fin 2) (l : List Byte) : State := { s with out := .frame io port l :: s.out }
/-- The eCPRI common header, with the identifier and the sequence number (log 15). -/
def ecpriHead (type size eaxc seq : Nat) : List Byte :=
  [0x10, BitVec.ofNat 8 type, BitVec.ofNat 8 (size / 256), BitVec.ofNat 8 size, BitVec.ofNat 8 (eaxc / 256), BitVec.ofNat 8 eaxc,
    BitVec.ofNat 8 seq, 0x80]
/-- The frame of a burst (R438). -/
def IoDie.burstFrame (x : IoDie) (l : List Token) : List Byte :=
  let h := (l.headD ⟨0, 0⟩).payload
  let body := (l.drop 1).flatMap fun k => bytesOf 8 k.payload.toNat
  x.templateBytes (fld h 33 6) ++ ecpriHead (fld h 24 8) (4 + body.length) (fld h 0 16) (fld h 16 8) ++ body
/-- FRONTHAUL_EGRESS (R438): a whole burst has come, and TTMAP claims its port for no stream. -/
def execFronthaulEgress (io : Fin 2) (r : RegionId) (p : Fin 64) (s : State) : Out :=
  let x := s.io io
  let l := tget x.outbox (linkKey r p.val) []
  match l.findIdx? Token.tail with
  | none => .next s
  | some n => when_ s (!bit (tget x.ttmap (2 * linkKey r p.val) 0) 0)
      ((s.modIo io fun x => { x with outbox := tset x.outbox (linkKey r p.val) (l.drop (n + 1)) }).frameOut io
        (Fin.ofNat 2 (fld (l.headD ⟨0, 0⟩).payload 32 1)) (x.burstFrame (l.take (n + 1))))

/-! The token transport (R439) -/

/-- A frame's header. -/
def ttHead (dst region ingp count src : Nat) (rst : Bool) (seq : Word) : List Byte :=
  bytesOf 8 (1 + dst % 2 ^ 16 * 2 ^ 8 + region % 32 * 2 ^ 24 + ingp % 64 * 2 ^ 29 + count * 2 ^ 35 + src % 2 ^ 16 * 2 ^ 42 + rst.toNat * 2 ^ 58) ++
    bytesOf 8 seq.toNat
def tokBytes (k : Token) : List Byte := bytesOf 8 k.payload.toNat ++ k.tag :: List.replicate 7 0
/-- A data frame, with the template of its egress port. -/
def IoDie.ttFrame (x : IoDie) (rst : Bool) (y : TtFrame) : List Byte :=
  let m := tget x.ttmap (2 * y.port) 0
  x.templateBytes (fld m 1 6) ++ ttHead (fld m 7 16) (fld m 23 5) (fld m 28 6) y.toks.length (fld x.ttself 0 16) rst y.seq ++
    y.toks.flatMap tokBytes
def IoDie.sender (x : IoDie) (q : Nat) : TtSend := tget x.tts q ⟨0, [], true⟩
def IoDie.setSender (x : IoDie) (q : Nat) (y : TtSend) : IoDie := { x with tts := tset x.tts q y }
/-- A transport frame leaves by one of the two ports (log 15). -/
def State.ttOut (s : State) (io : Fin 2) (l : List Byte) : State := s.pick.2.frameOut io (Fin.ofNat 2 s.pick.1) l
/-- Frames are sent again, in order; their timer starts again. -/
def State.resend (s : State) (io : Fin 2) (q : Nat) : State :=
  let x := s.io io
  let y := x.sender q
  let s := y.unacked.foldl (fun s z => s.ttOut io (x.ttFrame y.rst z)) s
  s.modIo io fun x => x.setSender q { y with unacked := y.unacked.map fun z => { z with sent := x.phc.toNat } }
/-- Committed tokens of an egress port leave as one data frame. -/
def State.ttPack (s : State) (io : Fin 2) (q : Nat) : State :=
  let x := s.io io
  let o := x.streamPort q
  let y := x.sender o
  let l := tget x.outbox q []
  let z : TtFrame := ⟨y.next, l.take 90, x.phc.toNat, q⟩
  (s.modIo io fun x => { x.setSender o { y with next := y.next + 1, unacked := y.unacked ++ [z] } with
    outbox := tset x.outbox q (l.drop 90) }).ttOut io (x.ttFrame y.rst z)
/-- TT_SEND (R439). -/
def execTtSend (io : Fin 2) (q : Fin 2048) (s : State) : Out :=
  let x := s.io io
  let l := tget x.outbox q.val []
  when_ s (bit (tget x.ttmap (2 * q.val) 0) 0 && !l.isEmpty &&
      decide (ttBytes (x.sender (x.streamPort q.val)) + 16 + 16 * min 90 l.length ≤ 65536)) (s.ttPack io q.val)
/-- TT_RETRANSMIT (R439): 50 us after the oldest frame was sent. -/
def execTtRetransmit (io : Fin 2) (q : Fin 2048) (s : State) : Out :=
  match ((s.io io).sender q.val).unacked.head? with
  | some z => when_ s (decide (z.sent + 50000 ≤ (s.io io).phc.toNat)) (s.resend io q.val)
  | none => .next s
/-- The place of a stream's receiver. -/
def ttStream (w : Word) (x : Nat × Nat × Nat × Nat × Word) : Bool :=
  x.1 == fld w 42 16 && x.2.1 == fld w 8 16 && x.2.2.1 == fld w 24 5 && x.2.2.2.1 == fld w 29 6
/-- A receiver expects a SEQ of a stream. -/
def IoDie.expect (x : IoDie) (w : Word) (seq : Word) : IoDie :=
  { x with ttr := x.ttr.filter (fun y => !ttStream w y) ++ [(fld w 42 16, fld w 8 16, fld w 24 5, fld w 29 6, seq)] }
/-- A frame is acknowledged with the SEQ that the receiver expects; the addresses of its header are exchanged. -/
def State.ttAck (s : State) (io : Fin 2) (fr : EthFrame) (seq : Word) : State :=
  let l := fr.bytes
  let w := ttWord l 0
  s.frameOut io fr.port ((l.drop 6).take 6 ++ l.take 6 ++ (l.drop 12).take (headLen - 12) ++
    ttHead (fld w 42 16) (fld w 24 5) (fld w 29 6) 0 (fld w 8 16) false seq)
/-- A data frame arrives: it is delivered, or discarded, and acknowledged. -/
def State.ttIn (s : State) (io : Fin 2) (fr : EthFrame) : State :=
  let w := ttWord fr.bytes 0
  let seq := ttWord fr.bytes 1
  let x := s.io io
  let r := fld w 24 5; let p := fld w 29 6
  let known := (x.ttr.find? (ttStream w)).map (·.2.2.2.2)
  let takes := s.siteFaces io (Fin.ofNat 32 r) p &&
    decide (8 * (tget x.inbox (64 * r + p) []).length + 8 * ttCount fr.bytes ≤ 4194304)
  if ((bit w 58 && seq == 0) || known == some seq) && takes then
    ((s.modIo io (·.expect w (seq + 1))).linkIn io r p (ttToks fr.bytes)).ttAck io fr (seq + 1)
  else s.ttAck io fr (known.getD 0)
/-- TT_DATA_FRAME_RECEIVE (R439). -/
def execTtDataFrameReceive (io : Fin 2) (frame : EthFrame) (s : State) : Out :=
  when_ s (frame.fcsGood && (s.io io).ttClaims frame.bytes && decide (0 < ttCount frame.bytes)) (s.ttIn io frame)
/-- The sender of the stream that an acknowledgement names. -/
def IoDie.ackedPort (x : IoDie) (w : Word) : Option Nat :=
  (x.ttmap.find? fun y => y.1 % 2 == 0 && bit y.2 0 && fld y.2 7 16 == fld w 42 16 && fld y.2 23 5 == fld w 24 5 &&
    fld y.2 28 6 == fld w 29 6).map (·.1 / 2)
/-- SEQ a comes before SEQ b, modulo 2^64. -/
def seqBelow (a b : Word) : Bool := a != b && decide ((b - a).toNat < 2 ^ 63)
/-- Frames numbered from 0. -/
def renumber : Nat → List TtFrame → List TtFrame
  | _, [] => []
  | n, z :: l => { z with seq := BitVec.ofNat 64 n } :: renumber (n + 1) l
/-- An acknowledgement frees frames, or makes the sender start its stream again. -/
def State.ttAcked (s : State) (io : Fin 2) (q : Nat) (seq : Word) : State :=
  let y := (s.io io).sender q
  match y.unacked with
  | z :: _ =>
    if seq = 0 ∧ z.seq ≠ 0 then
      (s.modIo io fun x => x.setSender q ⟨BitVec.ofNat 64 y.unacked.length, renumber 0 y.unacked, true⟩).resend io q
    else s.modIo io fun x => x.setSender q { y with unacked := y.unacked.filter (fun z => !seqBelow z.seq seq), rst := false }
  | [] => s.modIo io fun x => x.setSender q { y with rst := false }
/-- TT_ACK_RECEIVE (R439). -/
def execTtAckReceive (io : Fin 2) (frame : EthFrame) (s : State) : Out :=
  match (s.io io).ackedPort (ttWord frame.bytes 0) with
  | some q => when_ s (frame.fcsGood && (s.io io).ttClaims frame.bytes && ttCount frame.bytes == 0)
      (s.ttAcked io q (ttWord frame.bytes 1))
  | none => .next s

/-! Host rings (R436) -/

def IoDie.ringLog (x : IoDie) (q : Fin 2) : Nat := fld (tget x.hring (2 * q.val) 0) 52 4
def IoDie.ringSlots (x : IoDie) (q : Fin 2) : Nat := 2 ^ x.ringLog q
def IoDie.ringOk (x : IoDie) (q : Fin 2) : Bool := decide (4 ≤ x.ringLog q ∧ x.ringLog q ≤ 12)
def IoDie.ringPtr (x : IoDie) (q : Fin 2) (lo : Nat) : Nat := fld (tget x.hring (2 * q.val + 1) 0) lo 16
def IoDie.setPtr (x : IoDie) (q : Fin 2) (lo n : Nat) : IoDie :=
  { x with hring := tset x.hring (2 * q.val + 1) (setFld (tget x.hring (2 * q.val + 1) 0) lo 16 n) }
/-- The address of receive slot n; the transmit slots come after the receive slots. -/
def IoDie.slotPa (x : IoDie) (q : Fin 2) (n : Nat) : Nat := fld (tget x.hring (2 * q.val) 0) 12 40 * 2 ^ 12 + 2048 * n
/-- An advance of RXPROD or TXCONS interrupts (R435). -/
def State.ringMsix (s : State) (io q : Fin 2) : State := s.msix (74 + 2 * io.val + q.val)
/-- A ring slot stands in HBM or behind a system window. -/
def State.ringHas (s : State) (pa : Nat) : Bool := isHbm pa || (isSys pa && (s.sysTarget pa).isSome)
/-- A port writes to its ring. -/
def State.ringPut (s : State) (pa : Nat) (l : List Byte) : State := if isHbm pa then s.hostPut pa l false else s.hostSend none 0 pa l false
def State.ringGet (s : State) (pa n : Nat) : List Byte := if isHbm pa then s.committedBytes pa n else s.mem.bytes (s.place pa) n
/-- A frame enters the receive ring, with its length and timestamp. -/
def State.ringIn (s : State) (io : Fin 2) (fr : EthFrame) : State :=
  let x := s.io io
  let prod := x.ringPtr fr.port 0
  let s := s.ringPut (x.slotPa fr.port (prod % x.ringSlots fr.port)) (bytesOf 8 fr.bytes.length ++ bytesOf 8 fr.time.toNat ++ fr.bytes)
  (s.modIo io fun x => x.setPtr fr.port 0 (prod + 1)).ringMsix io fr.port
/-- HOST_RING_FRAME_RECEIVE (R436): an unclaimed frame takes a free receive slot, or is dropped. -/
def execHostRingFrameReceive (io : Fin 2) (frame : EthFrame) (s : State) : Out :=
  let x := s.io io
  let q := frame.port
  when_ s (frame.fcsGood && !flowClaims frame.bytes && !x.ttClaims frame.bytes && x.ringOk q && decide (frame.bytes.length ≤ 2032) &&
      s.ringHas (x.slotPa q 0) && decide ((x.ringPtr q 0 + 2 ^ 16 - x.ringPtr q 16) % 2 ^ 16 < x.ringSlots q)) (s.ringIn io frame)
/-- A write of TXDOOR: n transmit slots are queued, as far as the ring holds them. -/
def State.ringDoor (s : State) (io q : Fin 2) (n : BitVec 16) : State :=
  let x := s.io io
  let old := tget x.txq q.val []
  let k := min n.toNat (x.ringSlots q - old.length)
  let p := tget x.txprod q.val 0
  s.modIo io fun x => { x with txq := tset x.txq q.val (old ++ (List.range k).map fun i => (p + i) % x.ringSlots q),
                               txprod := tset x.txprod q.val ((p + k) % 2 ^ 16) }
/-- TXDOOR_WRITE (R436). -/
def execTxdoorWrite (io : Fin 2) (q : Fin 2) (n : BitVec 16) (s : State) : Out := .next (s.ringDoor io q n)
/-- The frame of a transmit slot leaves its port; a slot with TSREQ gets its timestamp. -/
def State.transmit (s : State) (io q : Fin 2) (n : Nat) : State :=
  let x := s.io io
  let pa := x.slotPa q (x.ringSlots q + n)
  let h := s.ringGet pa 16
  let s := s.frameOut io q (s.ringGet (pa + 16) (min 2032 (ofBytes (h.take 2))))
  let s := if (h.getD 2 0).getLsbD 0 then s.ringPut (pa + 8) (bytesOf 8 x.phc.toNat) else s
  (s.modIo io fun x => { x.setPtr q 48 (x.ringPtr q 48 + 1) with txq := tmod x.txq q.val [] (·.drop 1) }).ringMsix io q
/-- TX_COMPLETE (R436). -/
def execTxComplete (io : Fin 2) (q : Fin 2) (s : State) : Out :=
  let x := s.io io
  match (tget x.txq q.val []).head? with
  | some n => when_ s (x.ringOk q && s.ringHas (x.slotPa q (x.ringSlots q + n))) (s.transmit io q n)
  | none => .next s

end Sys2Proof.Machine
end

