-- ==== Sys2Proof/Machine/Debug.lean ====
section
/-! DEFINITION. Debug (chapter 21): the trigger (R447), consistent cuts (R448, R449) and access to a facet's state (R451). -/

namespace Sys2Proof.Machine

/-! Cuts -/

def Region.cutState (g : Region) : Nat := fld g.dcut 4 2
def Region.ncut (g : Region) : Nat := fld g.dcut 8 32
/-- A cut is refused (R449): a save is not idle, or, for a trigger's cut, another cut is under way. -/
def Region.refuseCut (g : Region) : Region := { g with dcut := setBit g.dcut 7 true }
/-- A cut of DCUT.FAC starts (R448): NCUT rises, and a debug mark enters at every site that stamps the facet. -/
def State.beginCut (s : State) (r : RegionId) : State :=
  let g := s.rg r
  let f : Facet := Fin.ofNat 4 (fld g.dcut 0 2)
  let n := (g.ncut + 1) % 2 ^ 32
  let k := markTok f markDebug n
  (s.modRg r fun g => { g.queueMark (g.sitesOf f) k with
    dcut := setFld (setFld g.dcut 8 32 n) 4 2 1, cutFac := f, cutMarks := [] }).rootsTake r f k
/-- A write of GO (R448, R449): refused while a save is not idle, ignored while a cut is under way. -/
def State.goCut (s : State) (r : RegionId) : State :=
  let g := s.rg r
  if g.preState ≠ 0 then s.modRg r Region.refuseCut else if g.cutState ≠ 0 then s else s.beginCut r
/-- A trigger's cut (R447, R449). -/
def State.trigCut (s : State) (r : RegionId) : State :=
  if (s.rg r).cutState ≠ 0 then s.modRg r Region.refuseCut else s.goCut r
/-- A held cut ends (R448): sites and nodes resume. -/
def State.endCut (s : State) (r : RegionId) : State :=
  let g := s.rg r
  (s.nodes r g.cutFac).foldl (fun s t => s.holdNode t g.cutFac false) (s.modRg r fun g =>
    { g with dcut := setFld g.dcut 4 2 0, cutMarks := [] })
/-- The writable fields of DCUT (R444). -/
def Region.writeCut (g : Region) (v : Word) : Region :=
  let d := setFld g.dcut 0 2 (fld v 0 2)
  { g with dcut := setBit (setBit d 6 (bit d 6 && !bit v 6)) 7 (bit d 7 && !bit v 7) }
/-- A write of DCUT. -/
def State.writeCut (s : State) (r : RegionId) (v : Word) : State :=
  let s := s.modRg r (·.writeCut v)
  let s := if bit v 3 && (s.rg r).cutState == 2 then s.endCut r else s
  if bit v 2 then s.goCut r else s
/-- CUT_START (R448). -/
def execCutStart (r : RegionId) (v : Word) (s : State) : Out := when_ s (bit v 2) (s.writeCut r v)
/-- The marks have come to every egress site that the facet links and to every node (R448). -/
def State.cutReached (s : State) (r : RegionId) : Bool :=
  let g := s.rg r
  (s.egressOf r g.cutFac).all (fun p => g.cutMarks.contains p) && (s.nodes r g.cutFac).all fun t => s.nodeHeld t g.cutFac
/-- CUT_HELD (R448). -/
def execCutHeld (r : RegionId) (s : State) : Out :=
  let g := s.rg r
  when_ s (g.cutState == 1 && s.cutReached r)
    ((s.modRg r fun g => { g with dcut := setFld g.dcut 4 2 2 }).causeRg r g.cutFac causeCut g.ncut)
/-- CUT_RELEASE (R448). -/
def execCutRelease (r : RegionId) (s : State) : Out := when_ s ((s.rg r).cutState == 2) (s.endCut r)

/-! The trigger -/

/-- What a stop does (R447): nothing, a cut, or a freeze whose cause names the lowest STOP bit that matched. -/
def State.trigAct (s : State) (r : RegionId) (bitNo : Nat) : State :=
  let a := fld (s.rg r).dtrig 24 2
  if a = 1 then s.trigCut r
  else if a = 2 ∧ (s.rg r).freeze.isNone then (s.modRg r fun g => { g with freeze := some s.cycle }).causeRg r 0 causeFreeze bitNo
  else s
/-- The trigger evaluates the matches that reach it in this cycle (R447). -/
def State.trigger (s : State) (r : RegionId) (hits : List Nat) : State :=
  let d := (s.rg r).dtrig
  let start := hits.any fun b => bit d b
  let stops := hits.filter fun b => bit d (12 + b)
  let put (w : Word) : State := s.modRg r fun g => { g with dtrig := w }
  match bit d 26, start, stops.min? with
  | false, true, none => put (setBit d 26 true)
  | false, true, some _ => put (setBit d 27 true)
  | false, false, _ => s
  | true, _, some b => (put (setBit d 26 false)).trigAct r b
  | true, _, none => s
/-- Matches that reach the trigger leave the way to it. -/
def State.takeMatches (s : State) (r : RegionId) : List Nat × State :=
  (((s.rg r).matches_.filter fun m => decide (m.due ≤ s.cycle)).map (·.bitNo),
    s.modRg r fun g => { g with matches_ := g.matches_.filter fun m => !decide (m.due ≤ s.cycle) })
/-- TRIGGER_EVAL (R447): nothing is evaluated while the region is frozen. -/
def execTriggerEval (r : RegionId) (s : State) : Out :=
  let x := s.takeMatches r
  .next (if x.1.isEmpty || s.frozen r then x.2 else x.2.trigger r x.1)

/-! Access to state -/

/-- What DBGADR names (R444). -/
structure DbgPlace where
  tile : Tile
  facet : Facet
  space : Nat
  index : Nat
  deriving DecidableEq, Repr
def Region.dbgPlace (g : Region) : DbgPlace :=
  let w := g.dbgadr
  ⟨⟨g.x0 + fld w 0 7, g.y0 + fld w 7 5⟩, Fin.ofNat 4 (fld w 12 2), fld w 14 4, fld w 18 20⟩
/-- The facet of a node is held by the region's cut. -/
def State.cutHeldAt (s : State) (r : RegionId) (t : Tile) (f : Facet) : Bool :=
  (s.rg r).cutState != 0 && (s.rg r).cutFac == f && s.nodeHeld t f
/-- The states in which an access is permitted (R451). -/
def State.dbgPermits (s : State) (r : RegionId) (x : DbgPlace) : Bool :=
  s.frozen r || s.cutHeldAt r x.tile x.facet ||
  (decide (x.space ≤ 8) && x.tile.isCT && (bit ((s.el x.tile).fac x.facet).hstat 8 || bit ((s.el x.tile).fac x.facet).hstat 9))
/-- The index lies in the range of its space (R451). -/
def State.dbgInRange (s : State) (x : DbgPlace) : Bool :=
  let fe := (s.el x.tile).fac x.facet
  let area := match s.mtMode x.tile x.facet with
    | some m => decide (x.index < m.msize)
    | none => false
  if x.space = 0 then x.tile.isCT && decide (1 ≤ x.index ∧ x.index ≤ 63)
  else if x.space = 1 then x.tile.isCT && decide (x.index < 256)
  else if x.space = 2 then x.tile.isCT && decide (1 ≤ x.index ∧ x.index ≤ 7)
  else if x.space = 3 then x.tile.isCT && decide (1 ≤ x.index ∧ x.index ≤ 13)
  else if x.space = 4 ∨ x.space = 5 then x.tile.isCT && decide (8 * x.index + 8 ≤ fe.actlim.toNat)
  else if x.space = 6 ∨ x.space = 7 then !x.tile.isCT && area
  else if x.space = 8 then x.tile.isCT && decide (x.index < 64)
  else decide (x.space ≤ 10) && decide (x.index % 256 < 0x40)
/-- The access is not refused (R451). -/
def State.dbgOk (s : State) (r : RegionId) : Bool :=
  let x := (s.rg r).dbgPlace
  (s.rg r).has x.tile && s.dbgPermits r x && s.dbgInRange x && !(bit (s.rg r).dbgadr 38 && decide (9 ≤ x.space))
/-- The word of memory that spaces 4 to 7 name, as a byte address. -/
def State.dbgWord (s : State) (x : DbgPlace) : Nat :=
  if x.space ≤ 5 then localBase x.tile + ((s.el x.tile).fac x.facet).actbase.toNat + 8 * x.index
  else match s.mtMode x.tile x.facet with
    | some m => 8 * areaWord x.tile m x.index
    | none => 0
/-- The activation of the facet as it stands, or the facet's registers where none is in progress. -/
def State.dbgAct (s : State) (x : DbgPlace) : Option Act := (s.el x.tile).act.filter fun a => a.facet == x.facet
def State.dbgBank (s : State) (x : DbgPlace) : Bank :=
  match s.dbgAct x with
  | some a => a.bank
  | none => ((s.el x.tile).fac x.facet).bank
/-- A special register of a facet (R122) outside an activation. -/
def State.dbgSpecial (s : State) (x : DbgPlace) : Word :=
  match s.dbgAct x with
  | some a => s.special x.tile a x.index
  | none =>
    let e := s.el x.tile
    let fe := e.fac x.facet
    if x.index = 1 then fe.hstat
    else if x.index = 2 then fe.hcause
    else if x.index = 3 then fe.haddr
    else if x.index = 4 then BitVec.ofNat 64 e.curFacet.val
    else if x.index = 5 then fe.actbase.setWidth 64
    else if x.index = 6 then fe.actlim.setWidth 64
    else if x.index = 7 then fe.isbase.setWidth 64
    else if x.index = 8 then fe.islim.setWidth 64
    else if x.index = 9 then fe.rmode.setWidth 64
    else if x.index = 11 then fe.masks
    else if x.index = 12 then e.fenable.setWidth 64
    else if x.index = 13 then BitVec.ofNat 64 (s.time x.tile)
    else 0
/-- The token at a place and position (R451). -/
def State.dbgTok (s : State) (x : DbgPlace) : Option Token :=
  let l := (s.tokensAt x.tile x.facet).filter fun y => y.1 == x.index % 256
  (l[x.index / 256]?).map (·.2.tok)
/-- What a read returns (R451). -/
def State.dbgRead (s : State) (x : DbgPlace) : Word :=
  if x.space = 0 then (s.dbgBank x).rg (BitVec.ofNat 6 x.index)
  else if x.space = 1 then BitVec.ofNat 64 (fld ((s.dbgBank x).rv (BitVec.ofNat 5 (x.index / 8))) (64 * (x.index % 8)) 64)
  else if x.space = 2 then ((s.dbgBank x).rp (BitVec.ofNat 3 x.index)).toWord
  else if x.space = 3 then s.dbgSpecial x
  else if x.space = 4 ∨ x.space = 6 then BitVec.ofNat 64 (s.mem.read (s.dbgWord x) 8)
  else if x.space = 5 ∨ x.space = 7 then (if s.mem.isFull (s.dbgWord x) then 1 else 0)
  else if x.space = 8 then BitVec.ofNat 64 (((s.el x.tile).fac x.facet).handlers.get (Fin.ofNat 64 x.index)).record
  else match s.dbgTok x with
    | some k => if x.space = 9 then k.payload else k.tag.setWidth 64
    | none => 0
/-- The registers of a facet are changed: those of the bank, and those of an activation that stands in progress. -/
def State.dbgSetBank (s : State) (x : DbgPlace) (h : Bank → Bank) : State :=
  let s := s.modFac x.tile x.facet fun fe => { fe with bank := h fe.bank }
  match s.dbgAct x with
  | some a => s.setAct x.tile { a with bank := h a.bank }
  | none => s
/-- A register that the supervisor writes only once no activation of the facet is in progress (R40). -/
def winOfSel (sel : Nat) : Option WinReg :=
  if sel = 5 then some .actbase else if sel = 6 then some .actlim else if sel = 7 then some .isbase else if sel = 8 then some .islim
  else if sel = 9 then some .rmode else if sel = 11 then some .masks else none
/-- HSTAT of a facet as the supervisor writes it (R13, R39): flags, TRAPPED and HALTED clear by a 1; a flag that a commit of the same cycle
has raised stays 1 (R85). -/
def State.writeHstat (s : State) (t : Tile) (f : Facet) (v : Word) : State :=
  let s := if bit v 8 && bit ((s.el t).fac f).hstat 8 then s.clearTrap t f else s
  s.modFac t f fun fe =>
    let kept : Word := if fe.fresh.1 = s.cycle then fe.fresh.2.setWidth 64 else 0
    { fe with hstat := fe.hstat &&& ~~~(v &&& 0x23F &&& ~~~kept) }
/-- A supervisor write of a special register (R12, R13): flags, TRAPPED and HALTED clear by a 1; what is read-only stays. A window register
takes its value in this cycle, or waits for the end of an activation of the facet (R40). -/
def State.dbgSetSpecial (s : State) (x : DbgPlace) (v : Word) : State :=
  match winOfSel x.index with
  | some w => s.modFac x.tile x.facet fun fe =>
      if (s.dbgAct x).isNone && fe.writes.isEmpty then fe.writeWin w v else { fe with writes := fe.writes ++ [(w, v)] }
  | none =>
    if x.index = 1 then s.writeHstat x.tile x.facet v
    else if x.index = 10 then
      (match s.dbgAct x with
      | some a => s.setAct x.tile { a with prio := some (v.setWidth 3) }
      | none => s)
    else if x.index = 12 then s.modEl x.tile fun e => { e with fenable := v.setWidth 4 }
    else s
/-- A handler's run-time word is written (R393). -/
def FacetEl.setHandlerRecord (fe : FacetEl) (h : Fin 64) (w : Nat) : FacetEl :=
  { fe with handlers := vmod fe.handlers h (·.ofRecord w (w / 2 % 2 == 1)) }
/-- A permitted write (R451). -/
def State.dbgWrite (s : State) (x : DbgPlace) (v : Word) : State :=
  if x.space = 0 then s.dbgSetBank x fun b => b.wg (BitVec.ofNat 6 x.index) v
  else if x.space = 1 then s.dbgSetBank x fun b =>
    b.wv (BitVec.ofNat 5 (x.index / 8)) (setFld (b.rv (BitVec.ofNat 5 (x.index / 8))) (64 * (x.index % 8)) 64 v.toNat)
  else if x.space = 2 then s.dbgSetBank x fun b => b.wp (BitVec.ofNat 3 x.index) (PReg.ofWord v)
  else if x.space = 3 then s.dbgSetSpecial x v
  else if x.space = 4 ∨ x.space = 6 then { s with mem := (s.mem.write (s.dbgWord x) 8 v.toNat).setPoison (s.dbgWord x) false }
  else if x.space = 5 then { s with mem := s.mem.setFull (s.dbgWord x) (bit v 0) }
  else if x.space = 7 then s.setTag (s.dbgWord x / 8) (bit v 0) x.facet (s.regionOf x.tile)
  else s.modFac x.tile x.facet (·.setHandlerRecord (Fin.ofNat 64 x.index) (v.toNat % 2 ^ 32))
/-- The writable fields of DBGADR (R444). -/
def Region.writeDbg (g : Region) (v : Word) : Region :=
  { g with dbgadr := setBit (setFld g.dbgadr 0 39 (fld v 0 39)) 41 (bit g.dbgadr 41 && !bit v 41) }
/-- An access starts (R451): BUSY, or ERR where it is refused. -/
def State.startDbg (s : State) (r : RegionId) : State :=
  s.modRg r fun g => { g with dbgadr := setBit g.dbgadr (if s.dbgOk r then 40 else 41) true }
/-- A write of DBGADR. -/
def State.writeDbg (s : State) (r : RegionId) (v : Word) : State :=
  let busy := bit (s.rg r).dbgadr 40
  let s := s.modRg r (·.writeDbg v)
  if bit v 39 && !busy then s.startDbg r else s
/-- DEBUG_ACCESS (R451). -/
def execDebugAccess (r : RegionId) (v : Word) (s : State) : Out := .next (s.writeDbg r v)
/-- An access ends: it is done, or refused where its state has changed since. -/
def State.endDbg (s : State) (r : RegionId) : State :=
  let g := s.rg r
  let clear (s : State) : State := s.modRg r fun g => { g with dbgadr := setBit g.dbgadr 40 false }
  if !s.dbgOk r then (clear s).modRg r fun g => { g with dbgadr := setBit g.dbgadr 41 true }
  else if bit g.dbgadr 38 then (clear s).dbgWrite g.dbgPlace g.dbgdat
  else (clear s).modRg r fun g' => { g' with dbgdat := s.dbgRead g.dbgPlace }
/-- DEBUG_ACCESS_COMPLETE (R451). -/
def execDebugAccessComplete (r : RegionId) (s : State) : Out := when_ s (bit (s.rg r).dbgadr 40) (s.endDbg r)

end Sys2Proof.Machine
end

