-- ==== Sys2Proof/Machine/Boot.lean ====
section
/-! DEFINITION. Boot (R453, R454), attestation (R455), monitors (R456, R457), the mailbox and RESYNC (R458, R459). -/

namespace Sys2Proof.Machine

/-! Boot -/

/-- An image passes only when all three checks succeed (R453). -/
def slotPasses (x : SlotCheck) : Bool := x.rsa && x.slh && x.svn
def slotBits (x : SlotCheck) : Nat := x.rsa.toNat + 2 * x.slh.toNat + 4 * x.svn.toNat
/-- The slot that Turox starts from (R453): 0 is A, 1 is B, 3 is none. -/
def bootSlot (x : BootInputs) : Nat := if slotPasses x.slotA then 0 else if slotPasses x.slotB then 1 else 3
/-- BOOTSTAT after a boot (R454). Slot B is checked when slot A fails. -/
def bootWord (x : BootInputs) (svn : Nat) (tripped : Bool) : Word :=
  let none_ := bootSlot x == 3
  BitVec.ofNat 64 (bootSlot x + 4 * slotBits x.slotA + 32 * (if slotPasses x.slotA then 0 else slotBits x.slotB) +
    256 * (!none_ && x.loaderOk).toNat + 512 * none_.toNat + 1024 * tripped.toNat + 65536 * svn)
/-- The Turox image that started. -/
def bootTurox (x : BootInputs) : List Byte := if slotPasses x.slotA then x.slotA.image else if slotPasses x.slotB then x.slotB.image else []
/-- A measurement (R455). -/
def measure (l : List Byte) : BitVec 384 := BitVec.ofNat 384 (ofBytes (sha384 l))
def bootMeasured (x : BootInputs) (boot strmap : Word) : List (BitVec 384) :=
  [measure Config.bootRom, measure (bootTurox x), measure x.loader,
    measure (bytesOf 8 boot.toNat ++ bytesOf 8 strmap.toNat ++ Config.fusedKeyHashes)]
/-- The machine after reset, with what the outside world has still to do, and with fresh free values (log 6). -/
def State.restart (s : State) (tripped : Bool) : State :=
  { State.reset with free := s.free, inbox := s.inbox, upsets := s.upsets, out := s.out, modul := { Module.reset with tripped := tripped } }
/-- What a boot leaves. -/
def State.boot (s : State) (x : BootInputs) : State :=
  let trip := x.tripped || s.modul.tripped
  let t := s.restart false
  let b := bootWord x (fld t.modul.bootstat 16 8) trip
  { t with modul := { t.modul with bootstat := b, measured := bootMeasured x b t.modul.strmap } }
/-- DEVICE_RESET (R453, R454). -/
def execDeviceReset (flash : BootInputs) (s : State) : Out := .next (s.boot flash)
/-- Turox has started. -/
def State.turoxRuns (s : State) : Bool := fld s.modul.bootstat 0 2 != 3

/-! Attestation (R455) -/

/-- The request codes of SPDM that Turox answers (log 16). -/
def spdmCodes : List Byte := [0x84, 0xE1, 0xE3, 0x81, 0x82, 0x83, 0xE0]
/-- An answer: the code of its response, the measurements where they are asked for, and what certificates, keys and nonces give. -/
def State.spdmAnswer (s : State) (req : List Byte) : List Byte :=
  let c := req.getD 1 0
  if spdmCodes.contains c then
    [0x13, c &&& 0x7F] ++ (if c = 0xE0 then s.modul.measured.flatMap fun m => bytesOf 48 m.toNat else []) ++
      Config.spdmBytes (req ++ bytesOf 8 s.free)
  else [0x13, 0x7F, 0x07, c]
/-- SPDM_REQUEST (R455): Turox answers, or there is no Turox. -/
def execSpdmRequest (req : List Byte) (s : State) : Out :=
  when_ s s.turoxRuns { s with out := .spdm (s.spdmAnswer req) :: s.out, free := s.free + 1 }

/-! Monitors -/

/-- MBSTAT.DONE or EVT is set; a rise interrupts (R458). -/
def State.mbRise (s : State) (i : Nat) : State :=
  let s' : State := { s with modul := { s.modul with mbstat := setBit s.modul.mbstat i true } }
  if bit s.modul.mbstat i then s' else s'.msix 73
/-- A sample of a die's monitors (R456, R457). -/
def State.sample (s : State) (d : DieId) (temp vcore : BitVec 10) : State :=
  if 620 ≤ temp.toNat then s.restart true
  else
    let s := s.modDie d fun x => { x with hmon := setFld (setFld x.hmon 0 10 temp.toNat) 10 10 vcore.toNat }
    if (s.die d).hot then (s.modDie d fun x => { x with hmon := setBit x.hmon 38 true }).mbRise 4 else s
/-- MONITOR_SAMPLE (R457): every 1 us. -/
def execMonitorSample (d : DieId) (temp vcore : BitVec 10) (s : State) : Out := when_ s (s.die d).newUs (s.sample d temp vcore)

/-! The mailbox -/

def State.mbBusy (s : State) : Bool := bit s.modul.mbstat 0
def State.setMb (s : State) (status : Nat) : State := { s with modul := { s.modul with mbstat := setFld s.modul.mbstat 1 2 status } }
/-- RESYNC starts: its first word is sampled within 2,048 cycles, so that it ends within 4 us (R459, log 9). -/
def State.startResync (s : State) : State :=
  let p := s.pick
  let m := p.2.modul
  { p.2 with modul := { m with mbstat := setBit m.mbstat 0 true, resyncSeq := m.resyncSeq + 1,
                               resyncAt := some (s.cycle + 1 + p.1 % 2048) } }
/-- A write of MBCMD (R458). -/
def State.mailbox (s : State) (v : Word) : State :=
  let s : State := { s with modul := { s.modul with mbcmd := setFld s.modul.mbcmd 0 16 (fld v 0 16) } }
  if !bit v 16 then s
  else if s.mbBusy then s.setMb 2
  else if s.recovery || fld v 0 16 != 1 then (s.setMb 1).mbRise 3
  else s.startResync
/-- RESYNC (R458, R459). -/
def execResync (v : Word) (s : State) : Out := .next (s.mailbox v)
/-- Bits of several items, from bit 0 on: value and width. -/
def packBits : List (Nat × Nat) → Nat
  | [] => 0
  | (v, n) :: l => v % 2 ^ n + 2 ^ n * packBits l
/-- Facets of which some element of a region has an HSTAT bit. -/
def State.anyHstat (s : State) (r : RegionId) (i : Nat) : Nat :=
  let els := (s.rg r).tiles.filter Tile.isCT
  packBits ((List.finRange 4).map fun f => ((els.any fun t => bit ((s.el t).fac f).hstat i).toNat, 1))
/-- The word of a region (R459). -/
def State.resyncRegion (s : State) (r : RegionId) : Nat :=
  let g := s.rg r
  packBits [(g.valid.toNat, 1), (g.ifac.val, 2), (fld g.ctl 4 4, 4), (fld g.ctl 8 4, 4), (g.en.toNat, 1), (g.stop.toNat, 1),
    (fld g.ten 0 4, 4), (g.lbusy.toNat, 1), (s.anyHstat r 8, 4), (s.anyHstat r 9, 4), (g.ctide, 32)]
/-- The 2 bytes of a region. -/
def State.resyncQueues (s : State) (r : RegionId) : Nat :=
  let g := s.rg r
  packBits [(g.notices.length, 7), (g.queue.length, 4), (g.preState, 3), (0, 2)]
/-- CRC-32 of IEEE 802.3. -/
def crcBit (c : Nat) : Nat := if c % 2 = 1 then c / 2 ^^^ 0xEDB88320 else c / 2
def crcStep (c : Nat) (b : Byte) : Nat := (List.range 8).foldl (fun c _ => crcBit c) (c ^^^ b.toNat)
def crc32 (l : List Byte) : Nat := (l.foldl crcStep 0xFFFFFFFF) ^^^ 0xFFFFFFFF
/-- Word k of the summary (R459). -/
def State.resyncWord (s : State) (k : Nat) : Nat :=
  if k = 0 then 0x017E9E
  else if k = 1 then s.modul.resyncSeq.toNat
  else if k = 2 then (s.die 0).time % 2 ^ 64
  else if k = 3 then s.modul.bootstat.toNat
  else if k = 4 then s.modul.strmap.toNat
  else if k = 5 then s.modul.dtctl.toNat
  else if k = 6 then (bit (s.io 0).lctl 0).toNat + 2 * (bit (s.io 1).lctl 0).toNat
  else if k = 7 then 0
  else if k < 16 then
    let x := s.die (Fin.ofNat 8 (k - 8))
    packBits [(x.hold, 12), (x.demand, 12), (fld x.hmon 0 10, 10), ((bit x.hmon 38).toNat, 1)]
  else if k < 48 then s.resyncRegion (Fin.ofNat 32 (k - 16))
  else if k < 56 then packBits ((List.range 4).map fun i => (s.resyncQueues (Fin.ofNat 32 (4 * (k - 48) + i)), 16))
  else if k = 56 then (s.io 0).hlerr.toNat
  else if k = 57 then (s.io 1).hlerr.toNat
  else if k < 63 then 0
  else crc32 ((List.range 63).flatMap fun i => bytesOf 8 (tget s.modul.mbdata i 0).toNat)
/-- A RESYNC in progress samples one word (R459). -/
def State.resyncTick (s : State) : State :=
  match s.modul.resyncAt with
  | some c =>
    if c ≤ s.cycle ∧ s.cycle < c + 64 then
      { s with modul := { s.modul with mbdata := tset s.modul.mbdata (s.cycle - c) (BitVec.ofNat 64 (s.resyncWord (s.cycle - c))) } }
    else s
  | none => s
/-- The command ends: STATUS 00, DONE. -/
def State.endResync (s : State) : State :=
  (({ s with modul := { s.modul with mbstat := setBit s.modul.mbstat 0 false, resyncAt := none } } : State).setMb 0).mbRise 3
/-- RESYNC_COMPLETE (R459). -/
def execResyncComplete (s : State) : Out :=
  match s.modul.resyncAt with
  | some c => when_ s (decide (c + 64 ≤ s.cycle)) s.endResync
  | none => .next s

end Sys2Proof.Machine
end

