-- ==== Sys2Proof/Machine/Registers.lean ====
section
/-! DEFINITION. Writes of registers (R5, R430): the fields that each register lets a write change, and what a write starts; what a read
returns; the tenant pages (R442) and the offsets of R430, R444, R454, R456 and R458. -/

namespace Sys2Proof.Machine

/-- The writable bits of a register take a value; the others stay (R5). -/
def rw (old v mask : Word) : Word := (old &&& ~~~mask) ||| (v &&& mask)
/-- Bits clear where a 1 is written (R5). -/
def w1c (old v mask : Word) : Word := old &&& ~~~(v &&& mask)
/-- A count is cleared by a 1 in any of its bits. -/
def clearCount (old v : Word) (lo n : Nat) : Word := if fld v lo n = 0 then old else setFld old lo n 0

/-! Region registers -/

/-- RGCTL (R166): IFAC only while EN is 0; a new head of the swap ring is unconsumed. -/
def Region.writeCtl (g : Region) (v : Word) : Region :=
  let c := rw g.ctl v (if g.en then 0xFF001 else 0xFF007)
  g.restamp fun g => { g with ctl := c, swapped := if fld c 12 6 = g.swapHead then g.swapped else [] }
/-- SWAPFC k (R171): the entry at the head is unconsumed again. -/
def Region.writeSwap (g : Region) (k : Nat) (fc tm : Option Word) : Region :=
  g.restamp fun g =>
    { g with swapfc := match fc with
               | some v => tset g.swapfc k (v &&& 0x83)
               | none => g.swapfc
             swaptm := match tm with
               | some v => tset g.swaptm k v
               | none => g.swaptm
             swapped := if k = g.swapHead then [] else g.swapped }
/-- A bucket register (R169): CAP and DEPTH; a DEPTH of 0 is taken as 1. A CAP above 1,024, which the rule gives no meaning, is kept as
written (DESIGN CHOICE, log 66). -/
def Region.writeBucket (g : Region) (p : Nat) (v : Word) : Region :=
  { g with bucket := tset g.bucket p (setFld (rw (g.bucketOf p) v 0x7FF0000) 32 8 (max 1 (fld v 32 8))) }
/-- SEEDST (R198). -/
def Region.writeSeedst (g : Region) (p : Nat) (v : Word) : Region :=
  let g := { g with seedst := tset g.seedst p (w1c (tget g.seedst p 0) v 0x60) }
  if bit v 7 then g.flushSeeds p else g
/-- DWPCTL k (R444): a write of a reserved TYPE is ignored. -/
def Region.writeDwp (g : Region) (k : Nat) (v : Word) : Region :=
  if 5 ≤ fld v 0 3 then g else { g with dwpctl := tset g.dwpctl k (v &&& 0x3FFFF) }
/-- DTBSEL j (R444): a write of ENTRY 48 to 63 is ignored; EN going to 1 sets COUNT to 0. -/
def Region.writeDtb (g : Region) (j : Nat) (v : Word) : Region :=
  if 48 ≤ fld v 0 6 then g
  else { g with dtbsel := tset g.dtbsel j (v &&& 0x3FFFFF),
                dtbcnt := if bit v 20 && !bit (tget g.dtbsel j 0) 20 then tset g.dtbcnt j 0 else g.dtbcnt }
/-- DTRIG (R444, R447). -/
def State.writeTrig (s : State) (r : RegionId) (v : Word) : State :=
  let s := s.modRg r fun g => { g with dtrig := w1c (rw g.dtrig v 0x3FFFFFF) v 0x8000000 }
  if bit v 29 && (s.rg r).freeze.isSome then s.release r else s
/-- Tide status (R376): STOP and TLATE clear by a 1. -/
def State.writeTidestat (s : State) (r : RegionId) (v : Word) : State :=
  let s := if bit v 35 && (s.rg r).stop then s.clearStop r else s
  s.modRg r fun g => { g with tidestat := w1c g.tidestat v 0x1000000000 }
/-- The pre-emption control register (R389). -/
def State.writePrectl (s : State) (r : RegionId) (v : Word) : State :=
  let g := s.rg r
  let s' := s.modRg r (·.writePre v)
  if !g.goOk v then s' else if bit v 1 then s'.startRestore r (Fin.ofNat 4 (fld v 2 2)) (bit v 5) else s'.startSave r (Fin.ofNat 4 (fld v 2 2))

/-! Die, I/O and module registers -/

/-- TRCMD (R273): a GO is ignored while BUSY, and OP 11 does nothing. -/
def State.writeTrcmd (s : State) (d : DieId) (v : Word) : State :=
  if s.trFree d v && fld v 0 2 == 0 then s.trRange d v
  else if s.trFree d v && fld v 0 2 == 1 then s.trAsidAll d v
  else if s.trFree d v && fld v 0 2 == 2 then s.trWake d v
  else s.modDie d fun x => { x with trcmd := if bit x.trcmd 3 then x.trcmd else rw x.trcmd v trcmdKeep }
/-- MCCAN and MCPQ (R224, R274). -/
def pageMask : Word := 0xFFFFFFFFF0000
def State.writeMccan (s : State) (d : DieId) (v : Word) : State :=
  if bit (s.die d).mccan 1 then s else if bit v 0 then s.cancelGo d v else s.modDie d fun x => { x with mccan := rw x.mccan v pageMask }
def State.writeMcpq (s : State) (d : DieId) (v : Word) : State :=
  if bit (s.die d).mcpq 1 then s else if bit v 0 then s.pinGo d v else s.modDie d fun x => { x with mcpq := rw x.mcpq v pageMask }
/-- HRING word 1 (R436): RXCONS, and the door. -/
def State.writeRing (s : State) (io q : Fin 2) (v : Word) : State :=
  let s := s.modIo io fun x => x.setPtr q 16 (fld v 16 16)
  s.ringDoor io q (BitVec.ofNat 16 (fld v 32 16))
/-- DTCTL (R424). -/
def State.writeDtctl (s : State) (v : Word) : State :=
  { s with modul := { s.modul with dtctl := rw s.modul.dtctl v 0xFFFFFFFF09, stepDue := s.modul.stepDue || bit v 1 } }

/-! All -/

/-- What a write of a register does; a register or field that is read-only stays (R5). -/
def State.writeReg (s : State) : PlainReg → Word → State
  | .rgctl r, v => s.modRg r (·.writeCtl v)
  | .rgstat r, v => s.modRg r fun g => { g with stat := w1c g.stat v 0xF }
  | .rgpgr r, v => s.modRg r fun g => { g with pgr := rw g.pgr v 0x1FFF }
  | .rgmlen r, v => s.modRg r fun g => { g with mlen := rw g.mlen v 0xFFFFFF }
  | .rgmbud r, v => s.modRg r fun g => { g with mbud := v &&& 0xFFFFFFFFFFFF }
  | .rgexq r, v => s.modRg r fun g => { g with exq := v }
  | .rgctx r, v => s.modRg r fun g => { g with ctx := v &&& 0xFFFFFFFFFFFFC0 }
  | .tidestat r, v => s.writeTidestat r v
  | .prectl r, v => s.writePrectl r v
  | .rgnstat r, v => s.modRg r fun g => { g with nstat := clearCount g.nstat v 16 16 }
  | .lqstat r, v => s.modRg r fun g => { g with lqstat := w1c g.lqstat v 0x30 }
  | .rghur r, v => s.modRg r fun g => { g with hur := v &&& 0xFFFFFFFFFF03F }
  | .rghup r, v => s.modRg r fun g => { g with hup := rw g.hup v 0xFFFF00000000 }
  | .bucket r p, v => s.modRg r (·.writeBucket p.val v)
  | .seedd r p, v => s.modRg r fun g => { g with seedd := tset g.seedd p.val v }
  | .seedst r p, v => s.modRg r (·.writeSeedst p.val v)
  | .swaptm r k, v => s.modRg r (·.writeSwap k.val none (some v))
  | .swapfc r k, v => s.modRg r (·.writeSwap k.val (some v) none)
  | .slottb r j, v => s.modRg r fun g => { g with slottb := tset g.slottb j.val (v &&& 7) }
  | .dwpctl r k, v => s.modRg r (·.writeDwp k.val v)
  | .dwpval r k, v => s.modRg r fun g => { g with dwpval := tset g.dwpval k.val v }
  | .dtbsel r j, v => s.modRg r (·.writeDtb j.val v)
  | .dtbord r j, v => s.modRg r fun g => { g with dtbord := tset g.dtbord j.val (v &&& 0xFFFFFFFFFFFF) }
  | .dtbcnt _ _, _ => s
  | .dtrig r, v => s.writeTrig r v
  | .dtwin r, v => s.modRg r fun g => { g with dtwin := v }
  | .dcut r, v => s.writeCut r v
  | .dbgadr r, v => s.writeDbg r v
  | .dbgdat r, v => s.modRg r fun g => { g with dbgdat := v }
  | .rgphs _, _ => s
  | .rgphc r f q, v => s.modRg r fun g => { g with phc := tset g.phc (4 * f.val + q.val) v }
  | .freest d, v => s.modDie d fun x => { x with freest := w1c x.freest v 1 }
  | .trcmd d, v => s.writeTrcmd d v
  | .mccan d, v => s.writeMccan d v
  | .mcpq d, v => s.writeMcpq d v
  | .dpwr d, v => s.modDie d fun x => { x with dpwr := rw x.dpwr v 0x1000FFF000000 }
  | .dienstat d, v => s.modDie d fun x => { x with nstat := clearCount x.nstat v 16 16 }
  | .hmon d, v => s.modDie d fun x => { x with hmon := w1c (rw x.hmon v 0x3FF0000000) v 0x4000000000 }
  | .regcfg d c, v => s.modDie d fun x => { x with regcfg := tset x.regcfg c.val (v &&& 0x3FFFFFFFFFF) }
  | .strmap, _ => s
  | .bootstat, _ => s
  | .dtctl, v => s.writeDtctl v
  | .dtstep, v => { s with modul := { s.modul with dtstep := v } }
  | .mbcmd, v => s.mailbox v
  | .mbstat, v => { s with modul := { s.modul with mbstat := w1c s.modul.mbstat v 0x18 } }
  | .mbdata _, _ => s
  | .haper io, v => s.modIo io fun x => { x with haper := v &&& 7 }
  | .lctl io, v => s.modIo io fun x => { x with lctl := v &&& 1 }
  | .hlerr io, v => s.modIo io fun x => { x with hlerr := clearCount (clearCount x.hlerr v 0 16) v 16 16 }
  | .hdenyb io, v => s.modIo io fun x => { x with hdenyb := v &&& 0xFFFFFFFF00001 }
  | .syswin io w k, v => s.modIo io fun x =>
      { x with syswin := tset x.syswin (2 * w.val + k.val) (if k = 0 then v &&& 0xFFFFFFFF001FF else v) }
  | .hring io q k, v =>
    if k = 0 then s.modIo io fun x => { x with hring := tset x.hring (2 * q.val) (v &&& 0xFFFFFFFFFFF000) } else s.writeRing io q v
  | .flow io e, v => s.modIo io fun x => { x with flow := tset x.flow e.val (v &&& 0x3FFFFFFFFFFF) }
  | .template io j k, v => s.modIo io fun x => { x with template := tset x.template (4 * j.val + k.val) v }
  | .ttmap io q k, v => if k = 0 then s.modIo io fun x => { x with ttmap := tset x.ttmap (2 * q.val) (v &&& 0x3FFFFFFFF) } else s
  | .ttself io, v => s.modIo io fun x => { x with ttself := v &&& 0xFFFF }
  | .hstat t f, v => s.writeHstat t f v
  | .fenable t, v => s.modEl t fun e => { e with fenable := v.setWidth 4 }
/-- The registers that BAR0 answers in recovery mode (R453). -/
def inRecovery : PlainReg → Bool
  | .bootstat | .mbcmd | .mbstat | .mbdata _ | .hmon _ => true
  | _ => false
/-- REGISTER_WRITE (R5). -/
def execRegisterWrite (reg : PlainReg) (v : Word) (s : State) : Out := when_ s (!s.recovery || inRecovery reg) (s.writeReg reg v)

/-! Reads -/

/-- What a read of a register returns (R5): write-only and reserved fields read as 0. -/
def State.readReg (s : State) : PlainReg → Word
  | .rgctl r => (s.rg r).ctl
  | .rgstat r => (s.rg r).stat
  | .rgpgr r => (s.rg r).pgr
  | .rgmlen r => (s.rg r).mlen
  | .rgmbud r => (s.rg r).mbud
  | .rgexq r => (s.rg r).exq
  | .rgctx r => (s.rg r).ctx
  | .tidestat r => (s.rg r).tidestat
  | .prectl r => (s.rg r).prectl
  | .rgnstat r => (s.rg r).nstat
  | .lqstat r => (s.rg r).lqstat
  | .rghur r => (s.rg r).hur
  | .rghup r => (s.rg r).hup
  | .bucket r p => (s.rg r).bucketOf p.val
  | .seedd _ _ => 0
  | .seedst r p => tget (s.rg r).seedst p.val 0
  | .swaptm r k => tget (s.rg r).swaptm k.val 0
  | .swapfc r k => tget (s.rg r).swapfc k.val 0
  | .slottb r j => tget (s.rg r).slottb j.val 0
  | .dwpctl r k => tget (s.rg r).dwpctl k.val 0
  | .dwpval r k => tget (s.rg r).dwpval k.val 0
  | .dtbsel r j => tget (s.rg r).dtbsel j.val 0
  | .dtbord r j => tget (s.rg r).dtbord j.val 0
  | .dtbcnt r j => tget (s.rg r).dtbcnt j.val 0
  | .dtrig r => (s.rg r).dtrig
  | .dtwin r => (s.rg r).dtwin
  | .dcut r => (s.rg r).dcut
  | .dbgadr r => (s.rg r).dbgadr
  | .dbgdat r => (s.rg r).dbgdat
  | .rgphs r => (s.rg r).phs
  | .rgphc r f q => tget (s.rg r).phc (4 * f.val + q.val) 0
  | .freest d => (s.die d).freest
  | .trcmd d => (s.die d).trcmd
  | .mccan d => (s.die d).mccan
  | .mcpq d => (s.die d).mcpq
  | .dpwr d => (s.die d).dpwr
  | .dienstat d => (s.die d).nstat
  | .hmon d => (s.die d).hmon
  | .regcfg d c => regCfg (s.die d) c.val
  | .strmap => s.modul.strmap
  | .bootstat => s.modul.bootstat
  | .dtctl => s.modul.dtctl
  | .dtstep => s.modul.dtstep
  | .mbcmd => s.modul.mbcmd
  | .mbstat => s.modul.mbstat
  | .mbdata k => tget s.modul.mbdata k.val 0
  | .haper io => (s.io io).haper
  | .lctl io => (s.io io).lctl
  | .hlerr io => (s.io io).hlerr
  | .hdenyb io => (s.io io).hdenyb
  | .syswin io w k => tget (s.io io).syswin (2 * w.val + k.val) 0
  | .hring io q k => setFld (tget (s.io io).hring (2 * q.val + k.val) 0) 32 (if k = 0 then 0 else 16) 0
  | .flow io e => tget (s.io io).flow e.val 0
  | .template io j k => tget (s.io io).template (4 * j.val + k.val) 0
  | .ttmap io q k => tget (s.io io).ttmap (2 * q.val + k.val) 0
  | .ttself io => (s.io io).ttself
  | .hstat t f => ((s.el t).fac f).hstat
  | .fenable t => (s.el t).fenable.setWidth 64
/-- What a read of a tenant's page returns (R442): a bank's counts only where its tag is the tenant. -/
def State.readTenant (s : State) (t : Fin 16) (off : Nat) : Word :=
  if off = 0 then BitVec.ofNat 64 t.val
  else if 0x100 ≤ off ∧ off < 0x140 then tget (s.die (Fin.ofNat 8 ((off - 0x100) / 8))).bytesRead t.val 0
  else if 0x140 ≤ off ∧ off < 0x180 then tget (s.die (Fin.ofNat 8 ((off - 0x140) / 8))).bytesWritten t.val 0
  else if 0x180 ≤ off ∧ off < 0x1C0 then tget (s.die (Fin.ofNat 8 ((off - 0x180) / 8))).waitNs t.val 0
  else if 0x200 ≤ off ∧ off < 0x600 then
    let g := s.rg (Fin.ofNat 32 ((off - 0x200) / 32))
    if fld g.ten 0 4 = t.val then g.counters.get (Fin.ofNat 4 (off / 8)) else 0
  else 0

/-! Where registers lie -/

/-- The offset of a register in BAR0 (R430, R444, R454, R456, R458); element registers have none. -/
def barOffset : PlainReg → Option Nat
  | .rgctl r => some (0x100000 + 0x10000 * r.val + 0x010)
  | .rgstat r => some (0x100000 + 0x10000 * r.val + 0x018)
  | .rgpgr r => some (0x100000 + 0x10000 * r.val + 0x028)
  | .rgmlen r => some (0x100000 + 0x10000 * r.val + 0x040)
  | .rgmbud r => some (0x100000 + 0x10000 * r.val + 0x048)
  | .tidestat r => some (0x100000 + 0x10000 * r.val + 0x058)
  | .rgexq r => some (0x100000 + 0x10000 * r.val + 0x060)
  | .rgctx r => some (0x100000 + 0x10000 * r.val + 0x068)
  | .prectl r => some (0x100000 + 0x10000 * r.val + 0x070)
  | .rgnstat r => some (0x100000 + 0x10000 * r.val + 0x080)
  | .lqstat r => some (0x100000 + 0x10000 * r.val + 0x088)
  | .rghur r => some (0x100000 + 0x10000 * r.val + 0x0A0)
  | .rghup r => some (0x100000 + 0x10000 * r.val + 0x0A8)
  | .bucket r p => some (0x100000 + 0x10000 * r.val + 0x1000 + 0x40 * p.val + 8)
  | .seedd r p => some (0x100000 + 0x10000 * r.val + 0x1000 + 0x40 * p.val + 16)
  | .seedst r p => some (0x100000 + 0x10000 * r.val + 0x1000 + 0x40 * p.val + 32)
  | .swaptm r k => some (0x100000 + 0x10000 * r.val + 0x3000 + 16 * k.val)
  | .swapfc r k => some (0x100000 + 0x10000 * r.val + 0x3008 + 16 * k.val)
  | .slottb r j => some (0x100000 + 0x10000 * r.val + 0x4000 + 8 * j.val)
  | .dwpctl r k => some (0x100000 + 0x10000 * r.val + 0x5000 + 16 * k.val)
  | .dwpval r k => some (0x100000 + 0x10000 * r.val + 0x5008 + 16 * k.val)
  | .dtbsel r j => some (0x100000 + 0x10000 * r.val + 0x5100 + 32 * j.val)
  | .dtbord r j => some (0x100000 + 0x10000 * r.val + 0x5108 + 32 * j.val)
  | .dtbcnt r j => some (0x100000 + 0x10000 * r.val + 0x5110 + 32 * j.val)
  | .dtrig r => some (0x100000 + 0x10000 * r.val + 0x5200)
  | .dtwin r => some (0x100000 + 0x10000 * r.val + 0x5208)
  | .dcut r => some (0x100000 + 0x10000 * r.val + 0x5210)
  | .dbgadr r => some (0x100000 + 0x10000 * r.val + 0x5218)
  | .dbgdat r => some (0x100000 + 0x10000 * r.val + 0x5220)
  | .rgphs r => some (0x100000 + 0x10000 * r.val + 0x5230)
  | .rgphc r f q => some (0x100000 + 0x10000 * r.val + 0x5300 + 32 * f.val + 8 * q.val)
  | .freest d => some (0x10000 * d.val + 0x020)
  | .trcmd d => some (0x10000 * d.val + 0x028)
  | .mccan d => some (0x10000 * d.val + 0x030)
  | .mcpq d => some (0x10000 * d.val + 0x038)
  | .dpwr d => some (0x10000 * d.val + 0x040)
  | .dienstat d => some (0x10000 * d.val + 0x050)
  | .regcfg d c => some (0x10000 * d.val + 0x100 + 8 * c.val)
  | .hmon d => some (0x10000 * d.val + 0x200)
  | .strmap => some 0x80000
  | .dtctl => some 0x80008
  | .dtstep => some 0x80010
  | .bootstat => some 0x80038
  | .mbcmd => some 0x80040
  | .mbstat => some 0x80050
  | .mbdata k => some (0x84000 + 8 * k.val)
  | .haper io => some (0x80000 + 0x10000 * io.val + 0x018)
  | .lctl io => some (0x80000 + 0x10000 * io.val + 0x020)
  | .hlerr io => some (0x80000 + 0x10000 * io.val + 0x028)
  | .hdenyb io => some (0x80000 + 0x10000 * io.val + 0x030)
  | .ttself io => some (0x80000 + 0x10000 * io.val + 0x060)
  | .syswin io w k => some (0x80000 + 0x10000 * io.val + 0x100 + 16 * w.val + 8 * k.val)
  | .hring io q k => some (0x80000 + 0x10000 * io.val + 0x200 + 16 * q.val + 8 * k.val)
  | .flow io e => some (0x80000 + 0x10000 * io.val + 0x1000 + 8 * e.val)
  | .template io j k => some (0x80000 + 0x10000 * io.val + 0x2000 + 32 * j.val + 8 * k.val)
  | .ttmap io q k => some (0x80000 + 0x10000 * io.val + 0x3000 + 16 * q.val + 8 * k.val)
  | .hstat _ _ => none
  | .fenable _ => none

/-! Reads of BAR0 -/

/-- The register of a region's block at an offset (R430, R444). -/
def regionReg (r : RegionId) (o : Nat) : Option PlainReg :=
  let port : Fin 64 := Fin.ofNat 64 (o / 0x40); let k : Fin 64 := Fin.ofNat 64 (o / 16); let j : Fin 64 := Fin.ofNat 64 (o / 8)
  if o < 0x1000 then
    (match o with
    | 0x010 => some (.rgctl r) | 0x018 => some (.rgstat r) | 0x028 => some (.rgpgr r) | 0x040 => some (.rgmlen r)
    | 0x048 => some (.rgmbud r) | 0x058 => some (.tidestat r) | 0x060 => some (.rgexq r) | 0x068 => some (.rgctx r)
    | 0x070 => some (.prectl r) | 0x080 => some (.rgnstat r) | 0x088 => some (.lqstat r) | 0x0A0 => some (.rghur r)
    | 0x0A8 => some (.rghup r) | _ => none)
  else if o < 0x2000 then
    (match o % 0x40 with
    | 8 => some (.bucket r port) | 16 => some (.seedd r port) | 32 => some (.seedst r port) | _ => none)
  else if 0x3000 ≤ o ∧ o < 0x3400 then some (if o % 16 = 0 then .swaptm r k else .swapfc r k)
  else if 0x4000 ≤ o ∧ o < 0x4200 then some (.slottb r j)
  else if 0x5000 ≤ o ∧ o < 0x5080 then some (if o % 16 = 0 then .dwpctl r (Fin.ofNat 8 (o / 16)) else .dwpval r (Fin.ofNat 8 (o / 16)))
  else if 0x5100 ≤ o ∧ o < 0x5180 then
    (match o % 32 with
    | 0 => some (.dtbsel r (Fin.ofNat 4 (o / 32))) | 8 => some (.dtbord r (Fin.ofNat 4 (o / 32)))
    | 16 => some (.dtbcnt r (Fin.ofNat 4 (o / 32))) | _ => none)
  else if 0x5300 ≤ o ∧ o < 0x5380 then some (.rgphc r (Fin.ofNat 4 (o / 32)) (Fin.ofNat 4 (o / 8)))
  else
    (match o with
    | 0x5200 => some (.dtrig r) | 0x5208 => some (.dtwin r) | 0x5210 => some (.dcut r) | 0x5218 => some (.dbgadr r)
    | 0x5220 => some (.dbgdat r) | 0x5230 => some (.rgphs r) | _ => none)
/-- What a read of a region's block returns (R430); the write-only registers read as 0 (R5). -/
def State.readRegion (s : State) (r : RegionId) (o : Nat) : Option Word :=
  let g := s.rg r
  if o % 8 ≠ 0 then none
  else if o = 0x000 then some g.geom
  else if o = 0x008 then some g.new_
  else if o = 0x020 then some g.trr
  else if o = 0x038 then some g.moor
  else if o = 0x050 then some g.tide
  else if o = 0x098 then some g.ten
  else if o = 0x030 ∨ o = 0x090 ∨ (0x0C0 ≤ o ∧ o < 0x100) then some 0
  else if 0x1000 ≤ o ∧ o < 0x2000 ∧ o % 0x40 = 0 then some (g.ingOf ((o - 0x1000) / 0x40))
  else if 0x1000 ≤ o ∧ o < 0x2000 ∧ o % 0x40 = 24 then some 0
  else if 0x2000 ≤ o ∧ o < 0x2200 then some (g.egrOf ((o - 0x2000) / 8))
  else (regionReg r o).map s.readReg
/-- What a read of a die's block returns; FREEW takes frames and reads as 0. -/
def State.readDieBlock (s : State) (d : DieId) (o : Nat) : Option Word :=
  let reg : Option PlainReg := match o with
    | 0x020 => some (.freest d) | 0x028 => some (.trcmd d) | 0x030 => some (.mccan d) | 0x038 => some (.mcpq d) | 0x040 => some (.dpwr d)
    | 0x050 => some (.dienstat d) | 0x200 => some (.hmon d) | _ => none
  if o % 8 ≠ 0 then none
  else if o < 0x20 then some 0
  else if 0x100 ≤ o ∧ o < 0x180 then some (s.readReg (.regcfg d (Fin.ofNat 16 ((o - 0x100) / 8))))
  else reg.map s.readReg
/-- The register of an I/O die's block at an offset (R430, R454, R458). Where MBDATA lies over TTMAP, MBDATA is read (DESIGN CHOICE,
log 59). -/
def ioReg (io : Fin 2) (o : Nat) : Option PlainReg :=
  if o < 0x100 then
    (match o with
    | 0x018 => some (.haper io) | 0x020 => some (.lctl io) | 0x028 => some (.hlerr io) | 0x030 => some (.hdenyb io)
    | 0x060 => some (.ttself io)
    | o => if io ≠ 0 then none else match o with
      | 0x000 => some .strmap | 0x008 => some .dtctl | 0x010 => some .dtstep | 0x038 => some .bootstat | 0x040 => some .mbcmd
      | 0x050 => some .mbstat | _ => none)
  else if o < 0x200 then some (.syswin io (Fin.ofNat 16 (o / 16)) (Fin.ofNat 2 (o / 8)))
  else if o < 0x220 then some (.hring io (Fin.ofNat 2 (o / 16)) (Fin.ofNat 2 (o / 8)))
  else if 0x1000 ≤ o ∧ o < 0x1800 then some (.flow io (Fin.ofNat 256 (o / 8)))
  else if 0x2000 ≤ o ∧ o < 0x2800 then some (.template io (Fin.ofNat 64 (o / 32)) (Fin.ofNat 4 (o / 8)))
  else if io = 0 ∧ 0x4000 ≤ o ∧ o < 0x4200 then some (.mbdata (Fin.ofNat 64 (o / 8)))
  else if 0x3000 ≤ o ∧ o < 0xB000 then some (.ttmap io (Fin.ofNat 2048 ((o - 0x3000) / 16)) (Fin.ofNat 2 (o / 8)))
  else none
/-- What a read of eight bytes of BAR0 returns (R5, R430); none where no register lies. -/
def State.readBar (s : State) (off : Nat) : Option Word :=
  let o := off % 0x10000
  if off < 0x80000 then s.readDieBlock (Fin.ofNat 8 (off / 0x10000)) o
  else if off < 0xA0000 then if o % 8 = 0 then (ioReg (Fin.ofNat 2 (off / 0x10000)) o).map s.readReg else none
  else if 0x100000 ≤ off ∧ off < 0x300000 then s.readRegion (Fin.ofNat 32 ((off - 0x100000) / 0x10000)) o
  else if 0x400000 ≤ off ∧ off < 0x500000 then if o % 8 = 0 then some (s.readTenant (Fin.ofNat 16 ((off - 0x400000) / 0x10000)) o) else none
  else none
/-- The notice FIFO at an offset of BAR0 (R365, R430). -/
def noticeAt (off : Nat) : Option NoticeFifo :=
  if off < 0x80000 ∧ off % 0x10000 = 0x048 then some (.die (Fin.ofNat 8 (off / 0x10000)))
  else if 0x100000 ≤ off ∧ off < 0x300000 ∧ off % 0x10000 = 0x078 then some (.region (Fin.ofNat 32 ((off - 0x100000) / 0x10000)))
  else none
/-- BAR0 answers a read in recovery mode: BOOTSTAT, the mailbox and the monitors (R453). -/
def barInRecovery (off : Nat) : Bool :=
  off == 0x80038 || off == 0x80040 || off == 0x80050 || (decide (0x84000 ≤ off) && decide (off < 0x84200)) ||
  (decide (off < 0x80000) && off % 0x10000 == 0x200)
/-- A read of BAR0 (R5, R430): the answer leaves on the link. Where no register lies, the value is free (log 59). -/
def State.barRead (s : State) (off : Nat) : State :=
  if s.recovery && !barInRecovery off then s.linkReply .abort
  else
    let s : State := match noticeAt off with
      | some q => s.takeNotice q
      | none => match s.readBar off with
        | some v => { s with answer := v }
        | none => { s.pick.2 with answer := BitVec.ofNat 64 s.pick.1 }
    s.linkReply (.completion (bytesOf 8 s.answer.toNat) false)
/-- HOST_READ (R251, R429 to R431): of memory, of a register, or of the MSI-X table. -/
def execHostRead (io : Fin 2) (path : HostPath) (pa : BitVec 52) (s : State) : Out :=
  when_ s (s.linkUp io)
    (if path = .bar0 then s.barRead pa.toNat else if path = .bar4 then s.bar4Read io pa.toNat else s.hostMemRead io path pa)

end Sys2Proof.Machine
end

