-- ==== Sys2Proof/Machine/Agenda.lean ====
section
/-! DEFINITION. The agenda of a cycle (R2, R463, log 1): what the beginning of a cycle does by itself, the list of the steps of the part
that may come about in the cycle, in the order in which the machine works through them, and the working of one item. A step of the list
whose conditions do not hold when its turn comes changes nothing. A step whose time the spec leaves open enters the list by a free
choice (log 9). -/

namespace Sys2Proof.Machine

/-! What a cycle does by itself -/

/-- The region holds anything at all. -/
def State.inUse (s : State) (r : RegionId) : Bool := decide (s.rg r ≠ Region.reset)
/-- The in-flight counts of a region's facets in a new cycle (R163). -/
def State.countQuiet (s : State) (r : RegionId) : State :=
  (List.finRange 4).foldl (fun s f =>
    if s.quietNow r f then s.modRg r fun g => { g with quiet := vset g.quiet f (min 32 (g.quiet.get f + 1)) }
    else s.modRg r fun g => { g with quiet := vset g.quiet f 0, ctl := setBit g.ctl (8 + f.val) false }) s
/-- Phase counters and the window counter (R447, R452); still: the clock of the region's south-west tile does not run in this cycle. -/
def Region.countPhases (g : Region) (still : Bool) : Region :=
  let g := if bit g.dtrig 26 then { g with dtwin := g.dtwin + 1 } else g
  if still then g
  else (List.finRange 4).foldl (fun g f =>
    if g.phase f = 0 then g
    else
      let k := 4 * f.val + (g.phase f - 1)
      { g with phc := tset g.phc k (tget g.phc k 0 + 1) }) g
/-- The commit counts of a frozen region pause (R396). -/
def State.pauseCommits (s : State) (r : RegionId) : State :=
  let late (e : BwEntry) : BwEntry := if e.region = r ∧ e.timed then { e with at_ := e.at_ + 1 } else e
  let wait (q : Req) : Req := if q.region = some r ∧ q.timed ∧ q.stage = .atHome then { q with arrived := q.arrived + 1 } else q
  let s : State := s.modRg r fun g => { g with reaches := g.reaches.map fun x => { x with closed := x.closed.map (· + 1) } }
  { s with dies := s.dies.map fun (x : Die) => { x with bw := x.bw.map late }, reqs := s.reqs.map wait }
/-- Sites that begin to offer something of their own note the cycle (R181). -/
def Region.noteOffers (g : Region) (cycle : Nat) : Region :=
  { g with since := g.ing.foldl (fun t x =>
      if ((g.heldOffer x.1).isSome || (g.seedOffer x.1).isSome) && !t.any (fun y => y.1 == x.1) then tset t x.1 cycle else t) g.since }
/-- A region in a new cycle: bucket credit (R169), quiet facets, phases, replies at mirrors (R388), a tide that falls due (R369). -/
def State.tickRegion (s : State) (r : RegionId) : State :=
  let s := s.modRg r fun g => (g.refill.countPhases (s.tileFrozen (s.rg r).corner)).noteOffers s.cycle
  let s := if (s.rg r).valid then s.countQuiet r else s
  let s := s.deliverMirrors r
  let s := if (s.rg r).tides && s.instant r (s.rg r).tidePeriod then s.modRg r fun g => { g with dueTide := true } else s
  if s.frozen r then s.pauseCommits r else s
/-- Regulators gain credit with every nanosecond (R441). -/
def Die.regain (x : Die) : Die :=
  { x with regCredit := x.regCredit.map fun c => (c.1, c.2 - fld (regCfg x c.1) 1 21 * (x.time - x.prev)) }
/-- Storage takes an error (R214, R215, R372, R382). Three flips and more in a unit with SEC-DED, of which the spec says nothing, do not come
about (DESIGN CHOICE, log 58). -/
def State.struck (s : State) : Upset → State
  | .flips unit pattern =>
    let x := tget s.mem.bad unit 0 ^^^ (pattern % 2 ^ 288)
    let crc := (decide (2 ^ 60 ≤ unit) && decide (unit < 2 ^ 61)) || (decide (unit < 2 ^ 60) && s.mem.glAt (32 * unit) == 3)
    if crc || decide (bitsSet 288 x ≤ 2) then { s with mem := { s.mem with bad := setTab0 s.mem.bad unit x } } else s
  | .structure_ t f code =>
    let s := s.cause t f causeState false code.toNat
    (match s.regionOf t with
    | some r => s.rollback [r]
    | none => s)
  | .snapshot t f => s.causeStop t f causeSnapshot (tileDetail t)
/-- The next error of storage comes about in this cycle or in a later one: a free choice (log 9). One of a structure is found as the
structure is read, which a gated clock does not do. -/
def State.takeUpset (s : State) : State :=
  match s.upsets with
  | [] => s
  | u :: l =>
    let x := s.pick
    let gated := match u with
      | .flips _ _ => false
      | .structure_ t _ _ => s.tileFrozen t
      | .snapshot t _ => s.tileFrozen t
    if x.1 % 2 = 1 && !gated then ({ x.2 with upsets := l } : State).struck u else x.2
/-- A new cycle, before any step of it. -/
def State.tick (s : State) : State :=
  let s : State := { s with cycle := s.cycle + 1, moved := [], turns := s.turns.next }
  let s := s.advanceTime
  let s : State := { s with dies := s.dies.map Die.regain }
  let s := (s.modIo 0 (·.tickEdge s.cycle (s.edgeL 0))).modIo 1 (·.tickEdge s.cycle (s.edgeL 1))
  let s := s.takeUpset
  let s := (List.finRange 32).foldl (fun s r => if s.inUse r then s.tickRegion r else s) s
  s.flushUpcalls.resyncTick

/-! The list -/

/-- An item of the list, and whether the spec leaves its time open. -/
abbrev Item := Bool × Work
def sure (i : Instr) : Item := (false, .event i)
def open_ (i : Instr) : Item := (true, .event i)
/-- The facets. -/
def facets : List Facet := List.finRange 4
/-- Regions that hold anything. -/
def State.used (s : State) : List RegionId := (List.finRange 32).filter s.inUse
/-- Elements that may do anything in this cycle. -/
def State.liveElements (s : State) : List Tile :=
  (s.elements.map fun x => keyTile x.1).filter fun t => t.isCT && t.inFabric && !s.tileFrozen t
/-- Memory tiles that may. -/
def State.liveMts (s : State) : List Tile := (s.mts.map fun x => keyTile x.1).filter fun t => !t.isCT && t.inFabric && !s.tileFrozen t

/-- Time and power (R423, R426). -/
def State.planTime (s : State) : List Item :=
  let newUs := (List.finRange 8).any fun d => (s.die d).newUs
  (if s.castDue then [sure .devtimeBroadcast] else []) ++
  (if s.castDue || newUs then s.used.map fun r => sure (.slotBoundary r) else []) ++
  (if s.castDue || newUs then [sure .powerExchange] else []) ++
  s.power.flatMap fun m => [sure (.powerMessageReceipt m.id), sure (.powerResend m.id)]
/-- Boundaries, sites, routes, buses and delay lines (chapter 6). -/
def State.planFabric (s : State) : List Item :=
  (s.switches.flatMap fun x => x.2.hops.flatMap fun h =>
    (if h.2.flight.isEmpty then [] else [sure (.boundaryArrival (keyTile x.1) (Fin.ofNat 32 h.1))]) ++
    (if h.2.returning.isEmpty then [] else [sure (.creditReturn (keyTile x.1) (Fin.ofNat 32 h.1))])) ++
  (s.used.flatMap fun r => ((s.rg r).ing.filter fun p => siteEn p.2).map fun p => sure (.ingressAccept r (Fin.ofNat 64 p.1))) ++
  [sure .routeAdvance] ++
  (((List.finRange 8).filter fun d => !(s.die d).idle).flatMap fun d =>
    ((s.die d).rowBus.map fun b => sure (.busDelivery d (.row (Fin.ofNat 32 b.1)))) ++
    ((s.die d).colBus.map fun b => sure (.busDelivery d (.col (Fin.ofNat 16 b.1))))) ++
  (s.used.flatMap fun r => (s.rg r).delay.map fun p => sure (.delayLineArrival r (Fin.ofNat 64 p.1)))
/-- Marks of a node (R17, R371, R390). -/
def State.planMarks (s : State) (t : Tile) : List Item :=
  facets.flatMap fun f =>
    (((List.finRange 16).filter fun p => (s.headMark t f p).isSome).map fun p => sure (.markRemoval t p f)) ++
    (if (s.nodeMark t f).isSome then [sure (.tideTake t f), sure (.drainTake t f)] else [])
/-- Supervisor writes of window registers that wait, of every element, a frozen one's too (R40). -/
def State.planWrites (s : State) : List Item :=
  s.elements.flatMap fun x => facets.flatMap fun f =>
    (x.2.fac f).writes.map fun w => sure (.windowWriteApply (keyTile x.1) f w.1 w.2)
/-- An element: marks come before selection; then the instruction of an activation in progress, and what a stall
leads to (R17, R24, R33, R40). -/
def State.planElement (s : State) (t : Tile) : List Item :=
  s.planMarks t ++ [sure (.handlerDispatch t)] ++
  (match (s.el t).act with
  | some a => (false, Work.issue t) :: (if 63 ≤ a.stalled then [sure (.stallAbort t)] else [])
  | none => [])
/-- The request has come to its home: it waits for its turn or for room there, or its region rolls back (R208, R219, R250, R383). -/
def State.hasCome (s : State) (q : Req) : Bool :=
  s.waitsTurn q.id || q.parked || q.region.any fun r => (s.rg r).rollback.isSome
/-- A return whose budget ran out, or the reply that comes before it, must come now (R223). -/
def State.lastCall (s : State) (q : Req) : Bool :=
  let late (p : Req) : Bool := decide (0 < p.due) && decide (p.due ≤ s.homeTime p.addr + 4)
  late q || (match q.stage with
    | .replied (.wait w) => s.reqs.any fun p => p.id == w && late p
    | _ => false)
/-- Requests to device memory. -/
def State.planReq (s : State) (q : Req) : List Item :=
  match q.stage with
  | .queued | .atHome | .accepted | .slot | .listed => []
  | .travelling => [(!s.hasCome q, .event (if q.bwClass then .breakwaterAccept q.id else .homeAccess q.id))]
  | .regulated => [sure (.regulatorGrant (dieOfPa q.addr) (Fin.ofNat 16 q.cls))]
  | .replied _ =>
    let free := !s.lastCall q
    [(free, .event (.requestReply q.id)), (free, .event (.watchWake q.id)), (free, .event (.asyncTrap q.id))]
/-- Requests of one cycle, confirms first, then by number (R237). -/
def State.reqOrder (s : State) : List Req := sortBy (·.id) (s.reqs.filter (·.confirm)) ++ sortBy (·.id) (s.reqs.filter fun q => !q.confirm)
/-- Of each word under re-examination the first deferred request (R220): a word whose tag changes in a cycle is examined from the next. -/
def State.planReexam (s : State) : List Item :=
  s.reexam.filterMap fun w => (s.deferredOf w).head?.map fun q => sure (.reexamination q.id)
/-- Budgets that run out, after whatever performs a request in the cycle (R237, R327). -/
def State.planBudgets (s : State) : List Item := (s.reqs.filter (·.deferred)).map fun q => sure (.budgetExpiry q.id)
def State.planMemory (s : State) : List Item :=
  (s.liveElements.flatMap fun t => (facets.filter fun f => !((s.el t).fac f).outbound.isEmpty).map fun f => open_ (.requestLeave t f)) ++
  s.planReexam ++ s.reqOrder.flatMap s.planReq ++
  (s.used.filter fun r => !(s.rg r).lockPrim.isEmpty).map (fun r => sure (.lockstepTimeout r)) ++
  s.walks.flatMap fun w => [open_ (.tableWalkComplete w.id), sure (.migrationTimeout w.id)]
/-- A memory tile: marks, FIFO and line ports, the command unit, its walks, commands that act in the cycle after their take, nodes, and the
completions (R286, R327). -/
def State.planEngine (s : State) (t : Tile) : List Item :=
  s.planMarks t ++
  ((facets.filter fun f => (s.mtMode t f).isSome).flatMap fun f => [sure (.fifoPush t f), sure (.fifoPop t f), sure (.lineInput t f)]) ++
  (match s.commandTurn t with
  | some f => [(false, Work.command t f)]
  | none => []) ++
  (facets.flatMap fun f => (List.range ((s.mt t).fac f).cmds.length).map fun k => sure (.commandStart t f k)) ++
  (facets.flatMap fun f => (List.range ((s.mt t).fac f).cmds.length).reverse.flatMap fun k =>
    [sure (.readWalkElement t f k), sure (.writeWalkElement t f k)]) ++
  [sure (.sparseSlotIssue t)] ++
  (facets.flatMap fun f => ((s.mt t).fac f).quick.map fun _ => (false, Work.quick t f)) ++
  (((List.finRange 32).filter fun n => (s.node t n).ready).map fun n => sure (.nodeLaunch t n)) ++
  (facets.flatMap fun f => (List.finRange 4).flatMap fun g =>
    (if (s.gen t f g).comingPermits.isEmpty then [] else [sure (.permitArrival t f g)]) ++
    (if (s.gen t f g).comingDones.isEmpty then [] else [sure (.doneArrival t f g)])) ++
  (if (s.mt t).pend4.isEmpty then [] else [sure (.commandCompletion t)])
/-- A matrix unit. -/
def State.planMatrix (s : State) (t : Tile) : List Item :=
  (facets.flatMap fun f => (s.mxf t f).quick.map fun _ => (false, Work.mxQuick t f)) ++
  (match s.mxTurn t with
  | some f => [(false, Work.matrix t f)]
  | none => []) ++
  (facets.flatMap fun f => (List.range (s.mxf t f).cmds.length).reverse.map fun k => sure (.matrixCommandStart t f k)) ++
  (facets.flatMap fun f => [sure (.rowStage t f), sure (.operandBurstTake t f false), sure (.operandBurstTake t f true)]) ++
  [sure (.rowFire t), sure (.rowEffect t), sure (.resultBurst t)] ++
  (if (s.mt t).pend6.isEmpty then [] else [sure (.matrixCompletion t)])
/-- Rollbacks, tides, reaches, saves, and the trigger (chapters 16, 17, 21). -/
def planRegion (r : RegionId) : List Item :=
  [sure (.rollbackRestore r), sure (.replayStart r), sure (.reachClose r), sure (.reachCommit r), sure (.timedCommit r),
   sure (.autoSaveStart r), sure (.saveStop r), sure (.saveImageWrite r), sure (.saveCommit r), sure (.triggerEval r),
   sure (.freezeStop r), sure (.cutHeld r), open_ (.debugAccessComplete r)]
/-- Marks of a save enter with the tokens of the cycle (R390, R403): the drain once every generator has stopped, and the forced tide in the
cycle after the last image write. -/
def State.planSave (s : State) : List Item :=
  s.used.flatMap fun r => match (s.rg r).preempt with
    | some p => sure (.drainInject r) :: (if (s.rg r).preState == 4 && p.blocks.isEmpty then [sure (.saveImageWrite r)] else [])
    | none => []
/-- Frames that the loaders take: they use row buses before the buses deliver (R159). A die without a cycle takes none. -/
def State.planFrames (s : State) (r : RegionId) : List Item :=
  match (s.rg r).load with
  | some l => ((l.dies.map fun x => x.die).filter fun d => !(s.die d).idle).map fun d => open_ (.loadFrame r d)
  | none => []
/-- Swaps, quiet facets, and loads (chapters 7, 8): a swap comes before a load (R189), and a facet that becomes quiet in a cycle lets an entry be
selected from the next one on (R403). They come before what a save or a commit does in the cycle (R172, R200). -/
def State.planLoad (s : State) (r : RegionId) : List Item :=
  [sure (.swapDue r), sure (.resizeComplete r), sure (.entrySelect r)] ++ (facets.map fun f => sure (.fquietSet r f)) ++
  (match (s.rg r).load with
  | some l => (((l.dies.map fun x => x.die).filter fun d => !(s.die d).idle).map fun d => sure (.loadStart r d)) ++
      (match l.phase with
      | .wave _ => (List.range (fld (s.rg r).target 16 8)).map fun c => sure (.waveArrival r c)
      | .frames => []) ++ [sure (.loadPass r)]
  | none => []) ++
  (if (s.rg r).cw.isEmpty then [] else [open_ (.completionWordStore r)]) ++
  (if bit (s.rg r).moor 0 && !bit (s.rg r).moor 1 then [open_ (.mooringFormatDone r)] else [])
/-- A die's own commands (R199, R236, R272, R274). -/
def State.planDie (s : State) (d : DieId) : List Item :=
  (if (s.die d).freew.isSome then [sure (.freewApply d)] else []) ++
  (if bit (s.die d).mccan 1 then [open_ (.mccanComplete d)] else []) ++ (if bit (s.die d).mcpq 1 then [open_ (.pinQueryComplete d)] else []) ++
  (if bit (s.die d).trcmd 3 then [open_ (.trcmdComplete d)] else [])
/-- An I/O die (R436, R438, R439). -/
def State.planIo (s : State) (io : Fin 2) : List Item :=
  (((s.io io).outbox.filter fun x => !x.2.isEmpty).flatMap fun x =>
    [open_ (.ttSend io (Fin.ofNat 2048 x.1)), open_ (.fronthaulEgress io (Fin.ofNat 32 (x.1 / 64)) (Fin.ofNat 64 x.1))]) ++
  ((s.io io).tts.map fun x => sure (.ttRetransmit io (Fin.ofNat 2048 x.1))) ++
  ((s.io io).txq.filter fun x => !x.2.isEmpty).map fun x => open_ (.txComplete io (Fin.ofNat 2 x.1))
/-- What the outside world does, by its place in the cycle: strike reports first (R366), monitor samples last (R460). -/
def worldPlace : Instr → Nat
  | .strikeReport _ _ => 0
  | .monitorSample _ _ _ => 2
  | _ => 1
def State.planWorld (s : State) (place : Nat) : List Item := (s.inbox.filter fun i => worldPlace i == place).map sure
/-- The list of a cycle. Marks of a tide enter ahead of what a site accepts in the cycle (R417). -/
def State.plan (s : State) : List Item :=
  s.planWorld 0 ++ s.planTime ++ s.planSave ++ (s.used.map fun r => sure (.tideInject r)) ++ s.used.flatMap s.planFrames ++ s.planFabric ++
  s.planWrites ++ s.liveElements.flatMap s.planElement ++ s.planMemory ++ s.liveMts.flatMap (fun t => s.planEngine t ++ s.planMatrix t) ++
  s.planBudgets ++ s.used.flatMap s.planLoad ++ s.used.flatMap planRegion ++
  ((List.finRange 8).filter fun d => !(s.die d).idle).flatMap s.planDie ++ s.planIo 0 ++ s.planIo 1 ++ [sure .resyncComplete] ++ s.planWorld 1 ++ s.planWorld 2
/-- The free choices: an open item is kept or left for a later cycle. -/
def State.choose : List Item → State → State
  | [], s => s
  | (open_, w) :: l, s =>
    if open_ then
      let x := s.pick
      if x.1 % 2 = 1 then State.choose l { x.2 with agenda := x.2.agenda ++ [w] } else State.choose l x.2
    else State.choose l { s with agenda := s.agenda ++ [w] }
/-- A new cycle begins: the agenda is filled, and the outside world's events move into it. -/
def State.newCycle (s : State) : State :=
  let s := s.tick
  State.choose s.plan { s with inbox := [] }

/-! One item -/

/-- A write through BAR0 that is no write of a plain register: in recovery mode BAR0 answers none of them (R453). -/
def barWrite : Instr → Bool
  | .rggeomWrite _ _ | .rgnewWrite _ _ | .portRegisterWrite _ _ _ _ | .lqdoorPush _ _ _ | .lqctlCancel _ _ | .seedtPush _ _ _
  | .seedFlush _ _ | .freewWrite _ _ | .rgmoorWrite _ _ | .mccanCancel _ _ | .rgtrrWrite _ _ | .rearm _ | .trcmdInvalidateRange _ _
  | .trcmdInvalidateAsid _ _ | .trcmdWake _ _ | .pinQuery _ _ | .tideControlWrite _ _ | .stopClear _ | .preemptSave _ _
  | .preemptRestore _ _ | .freezeRelease _ | .noticeRead _ | .devtimeStep | .txdoorWrite _ _ _ | .rgtenWrite _ _ | .cutStart _ _ | .cutRelease _
  | .debugAccess _ _ | .trappedClear _ _ | .haltedClear _ _ | .fenableClear _ _ => true
  | _ => false
/-- The region whose geometry registers an event writes. -/
def geomWrite : Instr → Option RegionId
  | .rggeomWrite r _ | .rgnewWrite r _ => some r
  | _ => none
/-- An event waits: a geometry write while the loader is busy with the region (R165). -/
def State.postponed (s : State) (i : Instr) : Bool := match geomWrite i with
  | some r => (s.rg r).lbusy
  | none => false
/-- The state that a meaning which always answers a next state gives. -/
def after (s : State) : Out → State
  | .next s' => s'
  | _ => s
/-- The command unit takes the head token of mi4 (R286). -/
def State.takeCommand (s : State) (t : Tile) (f : Facet) (k : Token) : Out :=
  let c := cmdOp k
  if k.kind = kNull then execNullCommandToken t f s
  else if malformed k then execMalformedCommandToken t f s
  else if c = opScopy then execScopyCommand t f s
  else if c = opSgath then execSgathCommand t f s
  else if c = opSscat then execSscatCommand t f s
  else if c = opSred then execSredCommand t f s
  else if c = opScomp then execScompCommand t f s
  else if c = opSexp then execSexpCommand t f s
  else if c = opAgstart then execAgstartCommand t f s
  else s.quickTake t f c
/-- The matrix unit takes the head token of mi6 (R330). -/
def State.takeMatrix (s : State) (t : Tile) (f : Facet) (k : Token) : Out :=
  let c := cmdOp k
  if k.kind = kNull then execNullMatrixToken t f s
  else if mxMalformed k then execMalformedMatrixToken t f s
  else if c = opMma then execMmaCommand t f s
  else if c = opMldb then execMldbCommand t f s
  else if c = opMscale ∨ c = opMqry then s.mxQuickTake t f c
  else if c = opMaclr then execMaclrCommand t f s
  else if c = opMsto then execMstoCommand t f s
  else if c = opMrda then execMrdaCommand t f s
  else if c = opMswap then execMswapCommand t f s
  else if c = opMslot then execMslotCommand t f s
  else execMfenceCommand t f s
/-- A stream command that was taken in an earlier cycle acts (R286). -/
def State.quickCommand (s : State) (t : Tile) (f : Facet) (k : Token) : Out :=
  let c := cmdOp k
  if c = opAgstop then execAgstopCommand t f s
  else if c = opAgqry then execAgqryCommand t f s
  else if c = opDarm then execDarmCommand t f s
  else if c = opDpost then execDpostCommand t f s
  else execWcvtCommand t f s
/-- A matrix command that was taken in an earlier cycle acts (R331). -/
def State.quickMatrix (s : State) (t : Tile) (f : Facet) (k : Token) : Out :=
  if cmdOp k = opMscale then execMscaleCommand t f s else execMqryCommand t f s
/-- One item of the agenda: an instruction or event to execute, or the state after the item. -/
def State.work (s : State) (w : Work) : Fetched :=
  match w with
  | .issue t => s.fetchSlot t
  | .event i =>
    if s.recovery && barWrite i then .done s
    else if s.postponed i then .done { s with inbox := s.inbox ++ [i] }
    else .run i s
  | .command t f => .done (match s.mtHead t f 4 with
    | some k => after s (s.takeCommand t f k)
    | none => s)
  | .matrix t f => .done (match s.mtHead t f 6 with
    | some k => after s (s.takeMatrix t f k)
    | none => s)
  | .quick t f => .done (match ((s.mt t).fac f).quick with
    | k :: _ => after s (s.quickCommand t f k)
    | [] => s)
  | .mxQuick t f => .done (match (s.mxf t f).quick with
    | k :: _ => after s (s.quickMatrix t f k)
    | [] => s)

end Sys2Proof.Machine
end

