-- ==== Sys2Proof/Machine/Channel.lean ====
section
/-! DEFINITION. The channel and token instructions (R147 to R150). -/

namespace Sys2Proof.Machine

/-- The pred bit that a send form sets (R147): 0, 1, the scalar bit of c, or the pred of the token read by a. -/
def State.sendPred (s : State) (t : Tile) (a : Act) (w : RForm) : Bool :=
  match fld w.fn 0 2 with
  | 0 => false
  | 1 => true
  | 2 => (match w.c with
    | .p n => (a.bank.rp n).scalar
    | _ => false)
  | _ => (match s.specTok t a w.a with
    | some k => k.pred
    | none => false)
/-- A send form: the kind of the token, whether its payload is read, and its head and tail bits; a null sends a null with the same
head and tail bits (R56). -/
def State.sendForm (s : State) (w : RForm) (kind : Nat) (reads head tail : Bool) : Out :=
  withAct s fun t a =>
    match w.d with
    | .outp p =>
      let srcs := [w.a]
      s.issue t a w.head srcs (some p)
        (fun k => s.finish t a w.d 0 ((a.consumeAll srcs).sendNull p k head tail []))
        (s.finish t a w.d 0 <|
          let pr := s.sendPred t a w
          if reads then
            match s.rdScalar t a w.a with
            | .error e => .error e
            | .ok (x, a') => a'.send p (mkTok a.facet kind pr head tail false x.toNat) []
          else (a.consumeAll srcs).send p (mkTok a.facet kind pr head tail false 0) [])
    | _ => s.trap t a causeOperandClass 0

/-- SEND (R147). -/
def execSend (w : RForm) (s : State) : Out := s.sendForm w kData true false false
/-- SENDN (R147): a null with payload 0; a is read for its tag only. -/
def execSendn (w : RForm) (s : State) : Out := s.sendForm w kNull false false false
/-- SENDE (R147): an end-of-run token. -/
def execSende (w : RForm) (s : State) : Out := s.sendForm w kEor true false false
/-- SENDH (R147): a burst's head, with .t also its tail. -/
def execSendh (w : RForm) (s : State) : Out := s.sendForm w kData true true (bit w.fn 2)
/-- SENDT (R147): a burst's tail. -/
def execSendt (w : RForm) (s : State) : Out := s.sendForm w kData true false true

/-- RECV (R149): consumes a token and writes its payload. -/
def execRecv (w : RForm) (s : State) : Out :=
  withAct s fun t a =>
    s.issue t a w.head [w.a] none (s.nullPlain t a [w.a] w.d) <|
      s.finish t a w.d 0 <|
        match s.rdScalar t a w.a with
        | .error e => .error e
        | .ok (x, a') => a'.deliver w.d x
/-- A port specifier in its peek form. -/
def Spec.asPeek : Spec → Spec
  | .inp p => .peek p
  | x => x
/-- PEEK (R149): reads the payload and consumes nothing, even with a consuming specifier. -/
def execPeek (w : RForm) (s : State) : Out :=
  withAct s fun t a =>
    let src := Spec.asPeek w.a
    s.issue t a w.head [src] none (s.nullPlain t a [src] w.d) <|
      s.finish t a w.d 0 <|
        match s.specTok t a src with
        | none => .ok a
        | some k => if k.poison then .error (causePoisonedOperand, w.a.toBits.setWidth 64) else a.deliver w.d k.value
/-- TAGR (R149): the tag, zero-extended; the payload is not read, so poison raises no trap (R18). -/
def execTagr (w : RForm) (s : State) : Out :=
  withAct s fun t a =>
    s.issue t a w.head [w.a] w.d.outPort (s.nullPlain t a [w.a] w.d) <|
      s.finish t a w.d 0 <|
        match s.specTok t a w.a with
        | none => .ok a
        | some k => (a.consume w.a).deliver w.d (k.tag.setWidth 64)
/-- DROP (R149): consumes a token and reads nothing. -/
def execDrop (w : RForm) (s : State) : Out :=
  withAct s fun t a =>
    s.issue t a w.head [w.a] none (s.nullPlain t a [w.a] w.d) (s.finish t a w.d 0 (.ok (a.consume w.a)))
/-- FWD (R149): the token with payload and tag unchanged, under the burst rules of R148; a null under null-skip forwards itself. -/
def execFwd (w : RForm) (s : State) : Out :=
  withAct s fun t a =>
    match w.d with
    | .outp p =>
      let go (k : Token) : State := s.finish t a w.d 0 ((a.consume w.a).send p k [])
      s.issue t a w.head [w.a] (some p) go <|
        match s.specTok t a w.a with
        | none => s.portWait t a
        | some k => go k
    | _ => s.trap t a causeOperandClass 0

end Sys2Proof.Machine
end

