-- ==== Sys2Proof/Machine/EngineSend.lean ====
section
/-! DEFINITION. The E-format instructions, which send one command token (R283, R330), and an unassigned opcode (R60). -/

namespace Sys2Proof.Machine

/-- The payload of a command token (R283). -/
def commandWord (op : Nat) (mod_ : BitVec 18) (x y : Word) : Word :=
  BitVec.ofNat 64 (op + mod_.toNat * 2 ^ 8 + fld x 0 32 * 2 ^ 26 + fld y 0 6 * 2 ^ 58)
/-- An E-format instruction (R283): one data token on d with pred, head and tail 0. -/
def State.engineToken (s : State) (op : Nat) (w : EForm) : Out :=
  withAct s fun t a =>
    let srcs := [w.a, w.b]
    s.issue t a w.head srcs w.d.outPort (s.nullPlain t a srcs w.d) <|
      s.finish t a w.d 0 <|
        match s.rdScalar t a w.a with
        | .error e => .error e
        | .ok (x, a1) =>
          match s.rdScalar t a1 w.b with
          | .error e => .error e
          | .ok (y, a2) => a2.deliver w.d (commandWord op w.mod x y)

/-- SCOPY (R283). -/
def execScopy (w : EForm) (s : State) : Out := s.engineToken 0xB0 w
/-- SGATH (R283). -/
def execSgath (w : EForm) (s : State) : Out := s.engineToken 0xB1 w
/-- SSCAT (R283). -/
def execSscat (w : EForm) (s : State) : Out := s.engineToken 0xB2 w
/-- SRED (R283). -/
def execSred (w : EForm) (s : State) : Out := s.engineToken 0xB3 w
/-- SCOMP (R283). -/
def execScomp (w : EForm) (s : State) : Out := s.engineToken 0xB4 w
/-- SEXP (R283). -/
def execSexp (w : EForm) (s : State) : Out := s.engineToken 0xB5 w
/-- AGSTART (R283). -/
def execAgstart (w : EForm) (s : State) : Out := s.engineToken 0xB6 w
/-- AGSTOP (R283). -/
def execAgstop (w : EForm) (s : State) : Out := s.engineToken 0xB7 w
/-- AGQRY (R283). -/
def execAgqry (w : EForm) (s : State) : Out := s.engineToken 0xB8 w
/-- DARM (R283). -/
def execDarm (w : EForm) (s : State) : Out := s.engineToken 0xB9 w
/-- DPOST (R283). -/
def execDpost (w : EForm) (s : State) : Out := s.engineToken 0xBA w
/-- WCVT (R283). -/
def execWcvt (w : EForm) (s : State) : Out := s.engineToken 0xBB w
/-- MMA (R330). -/
def execMma (w : EForm) (s : State) : Out := s.engineToken 0xC0 w
/-- MLDB (R330). -/
def execMldb (w : EForm) (s : State) : Out := s.engineToken 0xC1 w
/-- MSCALE (R330). -/
def execMscale (w : EForm) (s : State) : Out := s.engineToken 0xC2 w
/-- MACLR (R330). -/
def execMaclr (w : EForm) (s : State) : Out := s.engineToken 0xC3 w
/-- MSTO (R330). -/
def execMsto (w : EForm) (s : State) : Out := s.engineToken 0xC4 w
/-- MRDA (R330). -/
def execMrda (w : EForm) (s : State) : Out := s.engineToken 0xC5 w
/-- MSWAP (R330). -/
def execMswap (w : EForm) (s : State) : Out := s.engineToken 0xC6 w
/-- MQRY (R330). -/
def execMqry (w : EForm) (s : State) : Out := s.engineToken 0xC7 w
/-- MSLOT (R330). -/
def execMslot (w : EForm) (s : State) : Out := s.engineToken 0xC8 w
/-- MFENCE (R330). -/
def execMfence (w : EForm) (s : State) : Out := s.engineToken 0xC9 w

/-- An instruction word with an unassigned opcode issues and traps, whatever its other bits (R57, R60). -/
def execIllegalOpcode (_ : Word) (s : State) : Out := withAct s fun t a => s.trap t a causeIllegalOpcode 0

end Sys2Proof.Machine
end

