-- ==== Sys2Proof/Machine/Integer.lean ====
section
/-! DEFINITION. The integer and address instructions (R98 to R107). -/

namespace Sys2Proof.Machine

/-- The result of width w extended to 64 bits: sign-extended or zero-extended (R98). -/
def extTo (signed : Bool) (w x : Nat) : Word :=
  if signed then BitVec.ofNat 64 (wrapInt 64 (signedOf w x)) else BitVec.ofNat 64 (x % 2 ^ w)
/-- An R-format integer instruction (R98): the function sees the width, both sources at that width, and the whole of b. -/
def intR (w : RForm) (s : State) (signed : Bool) (busy : Nat) (f : Nat → Nat → Nat → Nat → Nat) : Out :=
  s.scalarR w none .value busy fun _ x y _ =>
    let n := eszScalar w.esz
    (extTo signed n (f n (x.toNat % 2 ^ n) (y.toNat % 2 ^ n) y.toNat), 0)

/-- Shifts and rotation (R99). -/
def shlN (w x n : Nat) : Nat := if n ≥ w then 0 else x * 2 ^ n % 2 ^ w
def shrN (w x n : Nat) : Nat := if n ≥ w then 0 else x / 2 ^ n
def sraN (w x n : Nat) : Nat := wrapInt w (signedOf w x / ((2 ^ (min n w) : Nat) : Int))
def rotlN (w x n : Nat) : Nat := (x * 2 ^ (n % w) + x / 2 ^ (w - n % w)) % 2 ^ w

/-- Division and remainder (R100). -/
def divN (w x y : Nat) : Nat := if y = 0 then 2 ^ w - 1 else wrapInt w (Int.tdiv (signedOf w x) (signedOf w y))
def remN (w x y : Nat) : Nat := if y = 0 then x else wrapInt w (Int.tmod (signedOf w x) (signedOf w y))
def divuN (w x y : Nat) : Nat := if y = 0 then 2 ^ w - 1 else x / y
def remuN (x y : Nat) : Nat := if y = 0 then x else x % y
/-- Issue cycles of a division beyond the first (R97). -/
def divBusy (w : RForm) : Nat := if eszScalar w.esz = 32 then 17 else 33

/-- Leading and trailing zeros. -/
def clzN (w x : Nat) : Nat := w - bitLen x
def ctzN (w x : Nat) : Nat := if x = 0 then w else ((List.range w).find? (fun i => x.testBit i)).getD w
/-- The low n bytes of x in reverse order. -/
def revBytes (n x : Nat) : Nat := ofBytes (bytesOf n x).reverse

/-- The mask of BEXT and BINS (R101), from fn. -/
def fieldMask (fn : BitVec 12) : Nat :=
  let l := if fld fn 6 6 = 0 then 64 else fld fn 6 6
  (2 ^ l - 1) * 2 ^ fld fn 0 6 % 2 ^ 64

/-- A condition code of R44 between two values of width w. -/
def intCond (w c x y : Nat) : Bool :=
  match c with
  | 1 => x == y
  | 2 => x != y
  | 3 => decide (signedOf w x < signedOf w y)
  | 4 => decide (signedOf w x ≥ signedOf w y)
  | 5 => decide (x < y)
  | 6 => decide (x ≥ y)
  | _ => false

/-- CHASH (R104). -/
def chashM : Nat := 0xA3B195C42E6F0D57
def chashRound (k x c sh : Nat) : Nat :=
  let x := x ^^^ ((k + c) % 2 ^ 64)
  let x := x * chashM % 2 ^ 64
  x ^^^ (x / 2 ^ sh)
def chash (c k : Nat) : Nat :=
  let x := chashRound k c 0x6C1E4A973D58B2F1 29
  let x := chashRound k x 0x2B7DE03591C64A8F 31
  let x := chashRound k x 0xD4A26F1B8E370C59 27
  chashRound k x 0x8F59B3C216D4E7A3 33

/-- ADD (R105). -/
def execAdd (w : RForm) (s : State) : Out := intR w s true 0 fun _ x y _ => x + y
/-- SUB (R105). -/
def execSub (w : RForm) (s : State) : Out := intR w s true 0 fun n x y _ => x + 2 ^ n - y
/-- MUL (R105). -/
def execMul (w : RForm) (s : State) : Out := intR w s true 0 fun _ x y _ => x * y
/-- MULH (R105). -/
def execMulh (w : RForm) (s : State) : Out :=
  intR w s true 0 fun n x y _ => wrapInt n (signedOf n x * signedOf n y / ((2 ^ n : Nat) : Int))
/-- MULHU (R105). -/
def execMulhu (w : RForm) (s : State) : Out := intR w s false 0 fun n x y _ => x * y / 2 ^ n
/-- DIV (R100). -/
def execDiv (w : RForm) (s : State) : Out := intR w s true (divBusy w) fun n x y _ => divN n x y
/-- DIVU (R100). -/
def execDivu (w : RForm) (s : State) : Out := intR w s false (divBusy w) fun n x y _ => divuN n x y
/-- REM (R100). -/
def execRem (w : RForm) (s : State) : Out := intR w s true (divBusy w) fun n x y _ => remN n x y
/-- REMU (R100). -/
def execRemu (w : RForm) (s : State) : Out := intR w s false (divBusy w) fun _ x y _ => remuN x y
/-- AND (R105). -/
def execAnd (w : RForm) (s : State) : Out := intR w s true 0 fun _ x y _ => x &&& y
/-- OR (R105); OR g0, g0, g0 is NOP (R61). -/
def execOr (w : RForm) (s : State) : Out := intR w s true 0 fun _ x y _ => x ||| y
/-- XOR (R105). -/
def execXor (w : RForm) (s : State) : Out := intR w s true 0 fun _ x y _ => x ^^^ y
/-- ANDN (R105). -/
def execAndn (w : RForm) (s : State) : Out := intR w s true 0 fun n x y _ => x &&& (2 ^ n - 1 - y)
/-- SHL (R99). -/
def execShl (w : RForm) (s : State) : Out := intR w s true 0 fun n x _ b => shlN n x b
/-- SHR (R99). -/
def execShr (w : RForm) (s : State) : Out := intR w s false 0 fun n x _ b => shrN n x b
/-- SRA (R99). -/
def execSra (w : RForm) (s : State) : Out := intR w s true 0 fun n x _ b => sraN n x b
/-- ROTL (R99). -/
def execRotl (w : RForm) (s : State) : Out := intR w s true 0 fun n x _ b => rotlN n x b
/-- CLZ (R105). -/
def execClz (w : RForm) (s : State) : Out := intR w s false 0 fun n x _ _ => clzN n x
/-- CTZ (R105). -/
def execCtz (w : RForm) (s : State) : Out := intR w s false 0 fun n x _ _ => ctzN n x
/-- POPC (R105). -/
def execPopc (w : RForm) (s : State) : Out := intR w s false 0 fun n x _ _ => popNat n x
/-- BSWAP (R105). -/
def execBswap (w : RForm) (s : State) : Out := intR w s true 0 fun n x _ _ => revBytes (n / 8) x
/-- BEXT (R101). -/
def execBext (w : RForm) (s : State) : Out :=
  intR w s false 0 fun _ x _ _ => (x &&& fieldMask w.fn) / 2 ^ fld w.fn 0 6
/-- BINS (R101). -/
def execBins (w : RForm) (s : State) : Out :=
  intR w s false 0 fun _ x y _ =>
    let m := fieldMask w.fn
    (x &&& (2 ^ 64 - 1 - m)) ||| (y * 2 ^ fld w.fn 0 6 &&& m)
/-- MIN (R105). -/
def execMin (w : RForm) (s : State) : Out := intR w s true 0 fun n x y _ => if signedOf n x ≤ signedOf n y then x else y
/-- MAX (R105). -/
def execMax (w : RForm) (s : State) : Out := intR w s true 0 fun n x y _ => if signedOf n x ≥ signedOf n y then x else y
/-- MINU (R105). -/
def execMinu (w : RForm) (s : State) : Out := intR w s false 0 fun _ x y _ => min x y
/-- MAXU (R105). -/
def execMaxu (w : RForm) (s : State) : Out := intR w s false 0 fun _ x y _ => max x y
/-- CMP (R102). -/
def execCmp (w : RForm) (s : State) : Out :=
  s.scalarR w none .truth 0 fun _ x y _ =>
    let n := eszScalar w.esz
    (if intCond n (fld w.fn 0 4) (x.toNat % 2 ^ n) (y.toNat % 2 ^ n) then 1 else 0, 0)
/-- SEL (R103): a p register as c gives its scalar bit as the condition. -/
def execSel (w : RForm) (s : State) : Out :=
  s.scalarR w none .value 0 fun a x y z =>
    let c := match w.c with
      | .p n => (a.bank.rp n).scalar
      | _ => z != 0
    (if c then x else y, 0)
/-- CHASH (R104), 4 issue cycles (R97). -/
def execChash (w : RForm) (s : State) : Out := intR w s false 3 fun _ x y _ => chash x y

/-- ADDI (R106). -/
def execAddi (w : IForm) (s : State) : Out := s.scalarI w .value fun x i => x + i.signExtend 64
/-- MULI (R106). -/
def execMuli (w : IForm) (s : State) : Out := s.scalarI w .value fun x i => x * i.signExtend 64
/-- ANDI (R106). -/
def execAndi (w : IForm) (s : State) : Out := s.scalarI w .value fun x i => x &&& i.signExtend 64
/-- ORI (R106). -/
def execOri (w : IForm) (s : State) : Out := s.scalarI w .value fun x i => x ||| i.signExtend 64
/-- XORI (R106). -/
def execXori (w : IForm) (s : State) : Out := s.scalarI w .value fun x i => x ^^^ i.signExtend 64
/-- SHLI (R106). -/
def execShli (w : IForm) (s : State) : Out := s.scalarI w .value fun x i => BitVec.ofNat 64 (shlN 64 x.toNat i.toNat)
/-- SHRI (R106). -/
def execShri (w : IForm) (s : State) : Out := s.scalarI w .value fun x i => BitVec.ofNat 64 (shrN 64 x.toNat i.toNat)
/-- SRAI (R106). -/
def execSrai (w : IForm) (s : State) : Out := s.scalarI w .value fun x i => BitVec.ofNat 64 (sraN 64 x.toNat i.toNat)
/-- CMPI (R106): cond in imm34[33:30], a signed immediate of 30 bits below it. -/
def execCmpi (w : IForm) (s : State) : Out :=
  s.scalarI w .truth fun x i => if intCond 64 (fld i 30 4) x.toNat (wrapInt 64 (sfld i 0 30)) then 1 else 0
/-- LIMM (R106). -/
def execLimm (w : IForm) (s : State) : Out := s.scalarI w .value fun _ i => i.signExtend 64
/-- LEA (R107): no memory is accessed. -/
def execLea (w : MForm) (s : State) : Out :=
  withAct s fun t a =>
    let srcs := [w.a, w.b]
    s.issue t a w.head srcs w.d.outPort (s.nullPlain t a srcs w.d) <|
      s.finish t a w.d 0 <|
        match rd3 a (s.rdScalar t) w.a w.b (.g 0) with
        | .error e => .error e
        | .ok (x, y, _, a') => a'.deliver w.d (x + y * BitVec.ofNat 64 w.size.bytes + w.disp.signExtend 64)

end Sys2Proof.Machine
end

