-- ==== Sys2Proof/Machine/ScalarFloat.lean ====
section
/-! DEFINITION. The scalar floating-point instructions (R108 to R113). -/

namespace Sys2Proof.Machine

/-- A scalar floating-point instruction in the format of fn[3:0] (R108): the function sees format, mode and three sources. -/
def fpR (w : RForm) (s : State) (k : Deliver) (busy : Nat → Nat) (f : Nat → Nat → Nat → Nat → Nat → Nat × Flags) : Out :=
  let c := fld w.fn 0 4
  s.scalarR w (some c) k (busy c) fun a x y z =>
    let lo (v : Word) := v.toNat % 2 ^ fmtWidth c
    let r := f c (a.mode w.rnd) (lo x) (lo y) (lo z)
    (BitVec.ofNat 64 r.1, r.2)
/-- Issue cycles of FDIV and FSQRT beyond the first (R97). -/
def fdivBusy (c : Nat) : Nat := if c = 0 then 12 else 7

/-- FADD (R109). -/
def execFadd (w : RForm) (s : State) : Out := fpR w s .value (fun _ => 0) fun f m x y _ => fAdd f m x y
/-- FSUB (R109). -/
def execFsub (w : RForm) (s : State) : Out := fpR w s .value (fun _ => 0) fun f m x y _ => fSub f m x y
/-- FMUL (R109). -/
def execFmul (w : RForm) (s : State) : Out := fpR w s .value (fun _ => 0) fun f m x y _ => fMul f m x y
/-- FFMA (R109). -/
def execFfma (w : RForm) (s : State) : Out := fpR w s .value (fun _ => 0) fFma
/-- FDIV (R109). -/
def execFdiv (w : RForm) (s : State) : Out := fpR w s .value fdivBusy fun f m x y _ => fDiv f m x y
/-- FSQRT (R109). -/
def execFsqrt (w : RForm) (s : State) : Out := fpR w s .value fdivBusy fun f m x _ _ => fSqrt f m x
/-- FMIN (R109). -/
def execFmin (w : RForm) (s : State) : Out := fpR w s .value (fun _ => 0) fun f _ x y _ => fMin f x y
/-- FMAX (R109). -/
def execFmax (w : RForm) (s : State) : Out := fpR w s .value (fun _ => 0) fun f _ x y _ => fMax f x y
/-- FCMP (R110), delivered by R102. -/
def execFcmp (w : RForm) (s : State) : Out :=
  fpR w s .truth (fun _ => 0) fun f _ x y _ =>
    let r := fCmp f (fld w.fn 4 4) x y
    (r.1.toNat, r.2)
/-- FCVT (R111): an integer source is read from its low bits, a small immediate is converted exactly to the source format. -/
def execFcvt (w : RForm) (s : State) : Out :=
  let src := fld w.fn 0 4
  s.scalarR w (if src < 8 then some src else none) .value 0 fun a x _ _ =>
    let r := convert src (fld w.fn 4 4) (bit w.fn 8) (a.mode w.rnd) x.toNat
    (BitVec.ofNat 64 r.1, r.2)
/-- FRSQE (R112, R113). -/
def execFrsqe (w : RForm) (s : State) : Out :=
  s.scalarR w (some 0) .value 0 fun _ x _ _ =>
    let r := fRsqE (x.toNat % 2 ^ 32)
    (BitVec.ofNat 64 r.1, r.2)
/-- FRCPE (R112, R113). -/
def execFrcpe (w : RForm) (s : State) : Out :=
  s.scalarR w (some 0) .value 0 fun _ x _ _ =>
    let r := fRcpE (x.toNat % 2 ^ 32)
    (BitVec.ofNat 64 r.1, r.2)

end Sys2Proof.Machine
end

