-- ==== Sys2Proof/Machine/Vector.lean ====
section
/-! DEFINITION. The vector instructions (R126 to R141). -/

namespace Sys2Proof.Machine

/-- An element-wise floating-point instruction in the format of fn[3:0] (R129). -/
def vfpR (w : RForm) (s : State) (f : Nat → Nat → Nat → Nat → Nat → Nat × Flags) : Out :=
  let c := fld w.fn 0 4
  s.vecR w (fmtWidth c) (immFp c) fun a x y z => f c (a.mode w.rnd) x y z
/-- VADD (R129). -/
def execVadd (w : RForm) (s : State) : Out := vfpR w s fun f m x y _ => fAdd f m x y
/-- VSUB (R129). -/
def execVsub (w : RForm) (s : State) : Out := vfpR w s fun f m x y _ => fSub f m x y
/-- VMUL (R129). -/
def execVmul (w : RForm) (s : State) : Out := vfpR w s fun f m x y _ => fMul f m x y
/-- VFMA (R129). -/
def execVfma (w : RForm) (s : State) : Out := vfpR w s fFma
/-- VMIN (R129). -/
def execVmin (w : RForm) (s : State) : Out := vfpR w s fun f _ x y _ => fMin f x y
/-- VMAX (R129). -/
def execVmax (w : RForm) (s : State) : Out := vfpR w s fun f _ x y _ => fMax f x y
/-- VABSMAX (R129). -/
def execVabsmax (w : RForm) (s : State) : Out := vfpR w s fun f _ x y _ => fAbsMax f x y

/-- One node of a reduction (R130), on the bits of FP32 or int32 values. -/
def redNode (op mode x y : Nat) : Nat × Flags :=
  match op with
  | 0 => fAdd 0 mode x y
  | 1 => fMin 0 x y
  | 2 => fMax 0 x y
  | 3 => ((x + y) % 2 ^ 32, 0)
  | 4 => (if signedOf 32 x ≤ signedOf 32 y then x else y, 0)
  | 5 => (if signedOf 32 x ≥ signedOf 32 y then x else y, 0)
  | 6 => (min x y, 0)
  | _ => (max x y, 0)
/-- The leaf of a lane outside the write mask (R130). -/
def redIdentity (op : Nat) : Nat :=
  match op with
  | 0 => 0x80000000
  | 1 => 0x7F800000
  | 2 => 0xFF800000
  | 3 => 0
  | 4 => 0x7FFFFFFF
  | 5 => 0x80000000
  | 6 => 0xFFFFFFFF
  | _ => 0
/-- The leaves under a mask (R94, R130). -/
def redLeaves (op : Nat) (mask : BitVec 16) (v : Vec) : List Nat :=
  (elems 32 v).zipIdx.map fun x => if bit mask x.2 then x.1 else redIdentity op
/-- The immediate conversion of VRED and VSCAN: FP32 for the floating-point operations, int32 for the others (R127, R130). -/
def redImm (op : Nat) (n : BitVec 6) : Nat := if op ≤ 2 then immFp 0 n else immInt 32 n
/-- VRED (R130). -/
def execVred (w : RForm) (s : State) : Out :=
  withAct s fun t a =>
    s.issue t a w.head [] w.d.outPort (fun _ => s) <|
      let op := fld w.fn 0 4
      let r := treeOf (redNode op (a.mode w.rnd)) 4 (redLeaves op (a.writeMask w.head) (rdVec a 32 (redImm op) w.a)) 0
      s.finish t a w.d 0 <| (a.raise r.2).deliver w.d (extTo (3 ≤ op) 32 r.1)

/-- The prefix of R131: for each lane the value and the flags of the steps up to it. -/
def scanGo (node : Nat → Nat → Nat × Flags) : Nat → Flags → List Nat → List (Nat × Flags)
  | _, _, [] => []
  | acc, fl, x :: l =>
    let r := node acc x
    (r.1, fl ||| r.2) :: scanGo node r.1 (fl ||| r.2) l
def scan (node : Nat → Nat → Nat × Flags) : List Nat → List (Nat × Flags)
  | [] => []
  | x :: l => (x, 0) :: scanGo node x 0 l
/-- VSCAN (R131): the flags are those of the steps up to the highest lane that is written. -/
def execVscan (w : RForm) (s : State) : Out :=
  withAct s fun t a =>
    s.issue t a w.head [] none (fun _ => s) <|
      let op := fld w.fn 0 4
      let mask := a.writeMask w.head
      let r := scan (redNode op (a.mode w.rnd)) (redLeaves op mask (rdVec a 32 (redImm op) w.a))
      s.finish t a w.d 0 <| .ok (a.putVec w.d 32 mask r)

/-- The exact product of a leaf of VDOT with its flags (R94). -/
def dotLeaf (f x y : Nat) : FVal × Flags :=
  let a := fdec f x; let b := fdec f y
  let r := exMul a b
  (r.1, r.2 ||| nvOf [a, b])
/-- The dot product (R132): the tree over the exact products, then one addition of the FP32 addend. -/
def vdot (f mode : Nat) (x y : Vec) (c : Nat) : Nat × Flags :=
  let w := fmtWidth f
  let l := ((elems w x).zip (elems w y)).map fun p => dotLeaf f p.1 p.2
  let fl := l.foldl (fun acc p => acc ||| p.2) 0
  let t := sumTree mode (if w = 32 then 4 else 5) (l.map (·.1))
  let r := fAdd 0 mode t.1 c
  (r.1, fl ||| t.2 ||| r.2)
/-- VDOT (R132); the lane mask plays no part. -/
def execVdot (w : RForm) (s : State) : Out :=
  withAct s fun t a =>
    let srcs := [w.c]
    let f := fld w.fn 0 4
    s.issue t a w.head srcs w.d.outPort (s.nullPlain t a srcs w.d) <|
      s.finish t a w.d 0 <|
        match s.rdFp t a 0 w.c with
        | .error e => .error e
        | .ok (c, a') =>
          let r := vdot f (a.mode w.rnd) (rdVec a (fmtWidth f) (immFp f) w.a) (rdVec a (fmtWidth f) (immFp f) w.b) (c.toNat % 2 ^ 32)
          (a'.raise r.2).deliver w.d (BitVec.ofNat 64 r.1)

/-- An integer element instruction (R133). -/
def vintR (w : RForm) (s : State) (f : Nat → Nat → Nat → Nat × Flags) : Out :=
  let n := eszWidth w.esz
  s.vecR w n (immInt n) fun _ x y _ => f n x y
/-- The exact result of an element wrapped, or clamped under .sat and .u (R89, R133); sources are read signed, or unsigned
under .u. -/
def satElem (fn : BitVec 12) (n : Nat) (f : Int → Int → Int) (x y : Nat) : Nat × Flags :=
  if bit fn 1 then
    let c := clampInt 0 ((2 ^ n : Nat) - 1) (f x y)
    (wrapInt n c.1, flIf c.2 flSAT)
  else
    let v := f (signedOf n x) (signedOf n y)
    if bit fn 0 then
      let c := clampInt (intLo n) (intHi n) v
      (wrapInt n c.1, flIf c.2 flSAT)
    else (wrapInt n v, 0)
/-- VIADD (R133). -/
def execViadd (w : RForm) (s : State) : Out := vintR w s fun n x y => satElem w.fn n (· + ·) x y
/-- VISUB (R133). -/
def execVisub (w : RForm) (s : State) : Out := vintR w s fun n x y => satElem w.fn n (· - ·) x y
/-- VIMUL (R133). -/
def execVimul (w : RForm) (s : State) : Out := vintR w s fun n x y => satElem w.fn n (· * ·) x y
/-- VAND (R133). -/
def execVand (w : RForm) (s : State) : Out := vintR w s fun _ x y => (x &&& y, 0)
/-- VOR (R133). -/
def execVor (w : RForm) (s : State) : Out := vintR w s fun _ x y => (x ||| y, 0)
/-- VXOR (R133). -/
def execVxor (w : RForm) (s : State) : Out := vintR w s fun _ x y => (x ^^^ y, 0)
/-- VSHL (R133). -/
def execVshl (w : RForm) (s : State) : Out := vintR w s fun n x y => (shlN n x y, 0)
/-- VSHR (R133). -/
def execVshr (w : RForm) (s : State) : Out := vintR w s fun n x y => (shrN n x y, 0)
/-- VSRA (R133). -/
def execVsra (w : RForm) (s : State) : Out := vintR w s fun n x y => (sraN n x y, 0)
/-- VPOPC (R133). -/
def execVpopc (w : RForm) (s : State) : Out := vintR w s fun n x _ => (popNat n x, 0)

/-- Delivery of the truth values of a comparison (R134): all ones or 0 in a v register, mask bits and scalar bit in a p
register. -/
def Act.putTruths (a : Act) (d : Spec) (w : Nat) (mask : BitVec 16) (r : List (Bool × Flags)) : Act :=
  match d with
  | .p n =>
    let old := a.bank.rp n
    let m : BitVec 16 := BitVec.ofNat 16 (ofElems 1 ((r.map (·.1)).zipIdx.map fun x =>
      if bit mask x.2 then x.1.toNat else fld old.mask x.2 1))
    (a.raise (maskFlags w mask (r.map (·.2)))).wp n ⟨m != 0, m⟩
  | _ => a.putVec d w mask (r.map fun x => (if x.1 then 2 ^ w - 1 else 0, x.2))
/-- VCMP (R134). -/
def execVcmp (w : RForm) (s : State) : Out :=
  withAct s fun t a =>
    let f := fld w.fn 0 4
    let n := fmtWidth f
    s.issue t a w.head [] none (fun _ => s) <|
      let r := ((elems n (rdVec a n (immFp f) w.a)).zip (elems n (rdVec a n (immFp f) w.b))).map fun p =>
        fCmp f (fld w.fn 4 4) p.1 p.2
      s.finish t a w.d 0 <| .ok (a.putTruths w.d n (a.writeMask w.head) r)
/-- VICMP (R134). -/
def execVicmp (w : RForm) (s : State) : Out :=
  withAct s fun t a =>
    let n := eszWidth w.esz
    s.issue t a w.head [] none (fun _ => s) <|
      let r := ((elems n (rdVec a n (immInt n) w.a)).zip (elems n (rdVec a n (immInt n) w.b))).map fun p =>
        (intCond n (fld w.fn 4 4) p.1 p.2, (0 : Flags))
      s.finish t a w.d 0 <| .ok (a.putTruths w.d n (a.writeMask w.head) r)
/-- VSEL (R135). -/
def execVsel (w : RForm) (s : State) : Out :=
  withAct s fun t a =>
    s.issue t a w.head [] none (fun _ => s) <|
      let m := match w.c with
        | .p n => (a.bank.rp n).mask
        | _ => 0
      let r := mergeElems 32 m (rdVec a 32 (immInt 32) w.b) (elems 32 (rdVec a 32 (immInt 32) w.a))
      s.finish t a w.d 0 <| .ok (a.putVec w.d 32 (a.writeMask w.head) ((elems 32 r).map fun x => (x, 0)))

/-- VSPLAT (R136). -/
def execVsplat (w : RForm) (s : State) : Out :=
  withAct s fun t a =>
    let srcs := [w.a]
    let n := eszWidth w.esz
    s.issue t a w.head srcs none (s.nullPlain t a srcs w.d) <|
      s.finish t a w.d 0 <|
        match s.rdScalar t a w.a with
        | .error e => .error e
        | .ok (x, a') =>
          .ok (a'.putVec w.d n (a.writeMask w.head) (List.replicate (512 / n) (x.toNat % 2 ^ n, 0)))
/-- VPERM (R136). -/
def execVperm (w : RForm) (s : State) : Out :=
  withAct s fun t a =>
    s.issue t a w.head [] none (fun _ => s) <|
      let xs := rdVec a 32 (immInt 32) w.a
      let r := (elems 32 (rdVec a 32 (immInt 32) w.b)).map fun i =>
        (if i.testBit 4 then 0 else fld xs (32 * (i % 16)) 32, (0 : Flags))
      s.finish t a w.d 0 <| .ok (a.putVec w.d 32 (a.writeMask w.head) r)
/-- VEXTR (R136). -/
def execVextr (w : RForm) (s : State) : Out :=
  withAct s fun t a =>
    let srcs := [w.b]
    let n := eszWidth w.esz
    s.issue t a w.head srcs w.d.outPort (s.nullPlain t a srcs w.d) <|
      s.finish t a w.d 0 <|
        match s.rdScalar t a w.b with
        | .error e => .error e
        | .ok (i, a') => a'.deliver w.d (BitVec.ofNat 64 (fld (rdVec a n (immInt n) w.a) (n * (i.toNat % (512 / n))) n))
/-- VINS (R136). -/
def execVins (w : RForm) (s : State) : Out :=
  withAct s fun t a =>
    let srcs := [w.b, w.c]
    let n := eszWidth w.esz
    s.issue t a w.head srcs none (s.nullPlain t a srcs w.d) <|
      s.finish t a w.d 0 <|
        match rd3 a (s.rdScalar t) w.b w.c (.g 0) with
        | .error e => .error e
        | .ok (x, i, _, a') =>
          let r := setFld (rdVec a n (immInt n) w.a) (n * (i.toNat % (512 / n))) n x.toNat
          .ok (a'.putVec w.d n (a.writeMask w.head) ((elems n r).map fun e => (e, 0)))

/-- An immediate in a format of R79: exact in a floating-point format, sign-extended in an integer one (R49). -/
def immCode (c : Nat) (n : BitVec 6) : Nat := if c < 8 then immFp c n else immInt (intWidth c) n
/-- VCVT and VCVTS (R137, R138): part N of the wider format's elements; bits that no element covers stay. -/
def vcvt (w : RForm) (s : State) (sat : Bool) : Out :=
  withAct s fun t a =>
    s.issue t a w.head [] none (fun _ => s) <|
      let src := fld w.fn 0 4; let dst := fld w.fn 4 4; let part := fld w.fn 8 3
      let ws := codeWidth src; let wd := codeWidth dst
      let n := 512 / max ws wd
      let xs := elems ws (rdVec a ws (immCode src) w.a)
      let ins := if ws ≥ wd then xs else (xs.drop (part * n)).take n
      let r := ins.map fun x =>
        let c := convert src dst sat (a.mode w.rnd) x
        (c.1 % 2 ^ wd, c.2)
      let first := if ws ≥ wd then part * n else 0
      let old := match w.d with
        | .v d => elems wd (a.bank.rv d)
        | _ => []
      let full := (old.take first).map (fun x => (x, (0 : Flags))) ++ r ++ (old.drop (first + n)).map (fun x => (x, (0 : Flags)))
      s.finish t a w.d 0 <| .ok (a.putVec w.d wd (a.writeMask w.head) full)
/-- VCVT (R137). -/
def execVcvt (w : RForm) (s : State) : Out := vcvt w s false
/-- VCVTS (R137). -/
def execVcvts (w : RForm) (s : State) : Out := vcvt w s true

/-- The narrowing of VPACK (R139): every lane is read signed. -/
def packElem (fn : BitVec 12) (n x : Nat) : Nat × Flags :=
  let v := signedOf 32 x
  if bit fn 0 then
    let c := if bit fn 1 then clampInt 0 ((2 ^ n : Nat) - 1) v else clampInt (intLo n) (intHi n) v
    (wrapInt n c.1, flIf c.2 flSAT)
  else (x % 2 ^ n, 0)
/-- VPACK (R139); with 8-bit elements the upper half of d becomes 0. -/
def execVpack (w : RForm) (s : State) : Out :=
  withAct s fun t a =>
    let n := eszWidth w.esz
    s.issue t a w.head [] none (fun _ => s) <|
      let xs := elems 32 (rdVec a 32 (immInt 32) w.a) ++ elems 32 (rdVec a 32 (immInt 32) w.b)
      let r := xs.map (packElem w.fn n) ++ List.replicate (512 / n - 32) (0, 0)
      s.finish t a w.d 0 <| .ok (a.putVec w.d n (a.writeMask w.head) r)
/-- VUNPK (R139). -/
def execVunpk (w : RForm) (s : State) : Out :=
  withAct s fun t a =>
    let n := eszWidth w.esz
    s.issue t a w.head [] none (fun _ => s) <|
      let xs := ((elems n (rdVec a n (immInt n) w.a)).drop (16 * fld w.fn 0 3)).take 16
      let r := xs.map fun x => (if bit w.fn 3 then x else wrapInt 32 (signedOf n x), (0 : Flags))
      s.finish t a w.d 0 <| .ok (a.putVec w.d 32 (a.writeMask w.head) r)
/-- VRSQE (R140). -/
def execVrsqe (w : RForm) (s : State) : Out := s.vecR w 32 (immFp 0) fun _ x _ _ => fRsqE x
/-- VRCPE (R140). -/
def execVrcpe (w : RForm) (s : State) : Out := s.vecR w 32 (immFp 0) fun _ x _ _ => fRcpE x

/-- The parts of a complex int16 lane, and a lane from its parts (R76). -/
def cxRe (x : Nat) : Int := signedOf 16 x
def cxIm (x : Nat) : Int := signedOf 16 (x / 2 ^ 16)
def cxOf (re im : Int × Flags) : Nat × Flags := (wrapInt 16 re.1 + 2 ^ 16 * wrapInt 16 im.1, re.2 ||| im.2)
/-- The imaginary part of b, negated under .cj (R141). -/
def cxConj (cj : Bool) (b : Nat) : Int := if cj then -(cxIm b) else cxIm b
/-- VCMUL and VCMAC in one lane (R141). -/
def cmac (cj : Bool) (a b : Nat) (cr ci : Int) : Nat × Flags :=
  let bi := cxConj cj b
  cxOf (cq (cr * 2 ^ 15 + cxRe a * cxRe b - cxIm a * bi)) (cq (ci * 2 ^ 15 + cxRe a * bi + cxIm a * cxRe b))
/-- VCMUL (R141). A small immediate is extended to the lane of 32 bits, not to a component (DESIGN CHOICE, log 64). -/
def execVcmul (w : RForm) (s : State) : Out := s.vecR w 32 (immInt 32) fun _ x y _ => cmac (bit w.fn 0) x y 0 0
/-- VCMAC (R141). -/
def execVcmac (w : RForm) (s : State) : Out :=
  s.vecR w 32 (immInt 32) fun _ x y z => cmac (bit w.fn 0) x y (cxRe z) (cxIm z)
/-- VCONJ (R141). -/
def execVconj (w : RForm) (s : State) : Out := s.vecR w 32 (immInt 32) fun _ x _ _ => cxOf (cxRe x, 0) (sat16 (-(cxIm x)))
/-- One lane of a butterfly (R141). -/
def bfly (dif hs : Bool) (a b c : Nat) : Nat × Flags :=
  let tr := cq (cxRe b * cxRe c - cxIm b * cxIm c)
  let ti := cq (cxRe b * cxIm c + cxIm b * cxRe c)
  let yr := if dif then cxRe a - tr.1 else cxRe a + tr.1
  let yi := if dif then cxIm a - ti.1 else cxIm a + ti.1
  let r := if hs then cxOf (sat16 ((yr + 1) / 2)) (sat16 ((yi + 1) / 2)) else cxOf (sat16 yr) (sat16 yi)
  (r.1, r.2 ||| tr.2 ||| ti.2)
/-- VBFLY (R141). -/
def execVbfly (w : RForm) (s : State) : Out := s.vecR w 32 (immInt 32) fun _ x y z => bfly (bit w.fn 0) (bit w.fn 1) x y z

end Sys2Proof.Machine
end

