-- ==== Sys2Proof/Machine/Dispatch.lean ====
section
/-! DEFINITION. One arm for each row of the table of operations and events, each a direct call of its meaning. -/

namespace Sys2Proof.Machine

def exec (i : Instr) (s : State) : Host.Outcome State Fault Refusal :=
  match i with
  | .add w => Sys2Proof.Machine.execAdd w s
  | .addi w => Sys2Proof.Machine.execAddi w s
  | .sub w => Sys2Proof.Machine.execSub w s
  | .mul w => Sys2Proof.Machine.execMul w s
  | .muli w => Sys2Proof.Machine.execMuli w s
  | .mulh w => Sys2Proof.Machine.execMulh w s
  | .mulhu w => Sys2Proof.Machine.execMulhu w s
  | .div w => Sys2Proof.Machine.execDiv w s
  | .divu w => Sys2Proof.Machine.execDivu w s
  | .rem w => Sys2Proof.Machine.execRem w s
  | .remu w => Sys2Proof.Machine.execRemu w s
  | .and w => Sys2Proof.Machine.execAnd w s
  | .andi w => Sys2Proof.Machine.execAndi w s
  | .or w => Sys2Proof.Machine.execOr w s
  | .ori w => Sys2Proof.Machine.execOri w s
  | .xor w => Sys2Proof.Machine.execXor w s
  | .xori w => Sys2Proof.Machine.execXori w s
  | .andn w => Sys2Proof.Machine.execAndn w s
  | .shl w => Sys2Proof.Machine.execShl w s
  | .shli w => Sys2Proof.Machine.execShli w s
  | .shr w => Sys2Proof.Machine.execShr w s
  | .shri w => Sys2Proof.Machine.execShri w s
  | .sra w => Sys2Proof.Machine.execSra w s
  | .srai w => Sys2Proof.Machine.execSrai w s
  | .rotl w => Sys2Proof.Machine.execRotl w s
  | .clz w => Sys2Proof.Machine.execClz w s
  | .ctz w => Sys2Proof.Machine.execCtz w s
  | .popc w => Sys2Proof.Machine.execPopc w s
  | .bswap w => Sys2Proof.Machine.execBswap w s
  | .bext w => Sys2Proof.Machine.execBext w s
  | .bins w => Sys2Proof.Machine.execBins w s
  | .min w => Sys2Proof.Machine.execMin w s
  | .max w => Sys2Proof.Machine.execMax w s
  | .minu w => Sys2Proof.Machine.execMinu w s
  | .maxu w => Sys2Proof.Machine.execMaxu w s
  | .cmp w => Sys2Proof.Machine.execCmp w s
  | .cmpi w => Sys2Proof.Machine.execCmpi w s
  | .sel w => Sys2Proof.Machine.execSel w s
  | .limm w => Sys2Proof.Machine.execLimm w s
  | .lea w => Sys2Proof.Machine.execLea w s
  | .chash w => Sys2Proof.Machine.execChash w s
  | .fadd w => Sys2Proof.Machine.execFadd w s
  | .fsub w => Sys2Proof.Machine.execFsub w s
  | .fmul w => Sys2Proof.Machine.execFmul w s
  | .ffma w => Sys2Proof.Machine.execFfma w s
  | .fdiv w => Sys2Proof.Machine.execFdiv w s
  | .fsqrt w => Sys2Proof.Machine.execFsqrt w s
  | .fmin w => Sys2Proof.Machine.execFmin w s
  | .fmax w => Sys2Proof.Machine.execFmax w s
  | .fcmp w => Sys2Proof.Machine.execFcmp w s
  | .fcvt w => Sys2Proof.Machine.execFcvt w s
  | .frsqe w => Sys2Proof.Machine.execFrsqe w s
  | .frcpe w => Sys2Proof.Machine.execFrcpe w s
  | .vadd w => Sys2Proof.Machine.execVadd w s
  | .vsub w => Sys2Proof.Machine.execVsub w s
  | .vmul w => Sys2Proof.Machine.execVmul w s
  | .vfma w => Sys2Proof.Machine.execVfma w s
  | .vmin w => Sys2Proof.Machine.execVmin w s
  | .vmax w => Sys2Proof.Machine.execVmax w s
  | .vabsmax w => Sys2Proof.Machine.execVabsmax w s
  | .vred w => Sys2Proof.Machine.execVred w s
  | .vscan w => Sys2Proof.Machine.execVscan w s
  | .vdot w => Sys2Proof.Machine.execVdot w s
  | .viadd w => Sys2Proof.Machine.execViadd w s
  | .visub w => Sys2Proof.Machine.execVisub w s
  | .vimul w => Sys2Proof.Machine.execVimul w s
  | .vand w => Sys2Proof.Machine.execVand w s
  | .vor w => Sys2Proof.Machine.execVor w s
  | .vxor w => Sys2Proof.Machine.execVxor w s
  | .vshl w => Sys2Proof.Machine.execVshl w s
  | .vshr w => Sys2Proof.Machine.execVshr w s
  | .vsra w => Sys2Proof.Machine.execVsra w s
  | .vpopc w => Sys2Proof.Machine.execVpopc w s
  | .vcmp w => Sys2Proof.Machine.execVcmp w s
  | .vicmp w => Sys2Proof.Machine.execVicmp w s
  | .vsel w => Sys2Proof.Machine.execVsel w s
  | .vsplat w => Sys2Proof.Machine.execVsplat w s
  | .vperm w => Sys2Proof.Machine.execVperm w s
  | .vextr w => Sys2Proof.Machine.execVextr w s
  | .vins w => Sys2Proof.Machine.execVins w s
  | .vcvt w => Sys2Proof.Machine.execVcvt w s
  | .vcvts w => Sys2Proof.Machine.execVcvts w s
  | .vpack w => Sys2Proof.Machine.execVpack w s
  | .vunpk w => Sys2Proof.Machine.execVunpk w s
  | .vrsqe w => Sys2Proof.Machine.execVrsqe w s
  | .vrcpe w => Sys2Proof.Machine.execVrcpe w s
  | .vcmul w => Sys2Proof.Machine.execVcmul w s
  | .vcmac w => Sys2Proof.Machine.execVcmac w s
  | .vconj w => Sys2Proof.Machine.execVconj w s
  | .vbfly w => Sys2Proof.Machine.execVbfly w s
  | .ld w => Sys2Proof.Machine.execLd w s
  | .st w => Sys2Proof.Machine.execSt w s
  | .ldv w => Sys2Proof.Machine.execLdv w s
  | .stv w => Sys2Proof.Machine.execStv w s
  | .ldw w => Sys2Proof.Machine.execLdw w s
  | .ldc w => Sys2Proof.Machine.execLdc w s
  | .stf w => Sys2Proof.Machine.execStf w s
  | .stx w => Sys2Proof.Machine.execStx w s
  | .tage w => Sys2Proof.Machine.execTage w s
  | .tagq w => Sys2Proof.Machine.execTagq w s
  | .send w => Sys2Proof.Machine.execSend w s
  | .sendn w => Sys2Proof.Machine.execSendn w s
  | .sende w => Sys2Proof.Machine.execSende w s
  | .sendh w => Sys2Proof.Machine.execSendh w s
  | .sendt w => Sys2Proof.Machine.execSendt w s
  | .recv w => Sys2Proof.Machine.execRecv w s
  | .peek w => Sys2Proof.Machine.execPeek w s
  | .tagr w => Sys2Proof.Machine.execTagr w s
  | .drop w => Sys2Proof.Machine.execDrop w s
  | .fwd w => Sys2Proof.Machine.execFwd w s
  | .br w => Sys2Proof.Machine.execBr w s
  | .brc w => Sys2Proof.Machine.execBrc w s
  | .call w => Sys2Proof.Machine.execCall w s
  | .ret w => Sys2Proof.Machine.execRet w s
  | .loop w => Sys2Proof.Machine.execLoop w s
  | .endAct w => Sys2Proof.Machine.execEnd w s
  | .yield w => Sys2Proof.Machine.execYield w s
  | .abort w => Sys2Proof.Machine.execAbort w s
  | .halt w => Sys2Proof.Machine.execHalt w s
  | .trap w => Sys2Proof.Machine.execTrap w s
  | .arm w => Sys2Proof.Machine.execArm w s
  | .mask w => Sys2Proof.Machine.execMask w s
  | .mfs w => Sys2Proof.Machine.execMfs w s
  | .mts w => Sys2Proof.Machine.execMts w s
  | .fence w => Sys2Proof.Machine.execFence w s
  | .order w => Sys2Proof.Machine.execOrder w s
  | .mld w => Sys2Proof.Machine.execMld w s
  | .mst w => Sys2Proof.Machine.execMst w s
  | .mldw w => Sys2Proof.Machine.execMldw w s
  | .mldc w => Sys2Proof.Machine.execMldc w s
  | .mstf w => Sys2Proof.Machine.execMstf w s
  | .mstx w => Sys2Proof.Machine.execMstx w s
  | .mtage w => Sys2Proof.Machine.execMtage w s
  | .mtagq w => Sys2Proof.Machine.execMtagq w s
  | .matom w => Sys2Proof.Machine.execMatom w s
  | .mcas w => Sys2Proof.Machine.execMcas w s
  | .tld w => Sys2Proof.Machine.execTld w s
  | .tst w => Sys2Proof.Machine.execTst w s
  | .scopy w => Sys2Proof.Machine.execScopy w s
  | .sgath w => Sys2Proof.Machine.execSgath w s
  | .sscat w => Sys2Proof.Machine.execSscat w s
  | .sred w => Sys2Proof.Machine.execSred w s
  | .scomp w => Sys2Proof.Machine.execScomp w s
  | .sexp w => Sys2Proof.Machine.execSexp w s
  | .agstart w => Sys2Proof.Machine.execAgstart w s
  | .agstop w => Sys2Proof.Machine.execAgstop w s
  | .agqry w => Sys2Proof.Machine.execAgqry w s
  | .darm w => Sys2Proof.Machine.execDarm w s
  | .dpost w => Sys2Proof.Machine.execDpost w s
  | .wcvt w => Sys2Proof.Machine.execWcvt w s
  | .mma w => Sys2Proof.Machine.execMma w s
  | .mldb w => Sys2Proof.Machine.execMldb w s
  | .mscale w => Sys2Proof.Machine.execMscale w s
  | .maclr w => Sys2Proof.Machine.execMaclr w s
  | .msto w => Sys2Proof.Machine.execMsto w s
  | .mrda w => Sys2Proof.Machine.execMrda w s
  | .mswap w => Sys2Proof.Machine.execMswap w s
  | .mqry w => Sys2Proof.Machine.execMqry w s
  | .mslot w => Sys2Proof.Machine.execMslot w s
  | .mfence w => Sys2Proof.Machine.execMfence w s
  | .illegalOpcode w => Sys2Proof.Machine.execIllegalOpcode w s
  | .handlerDispatch t => Sys2Proof.Machine.execHandlerDispatch t s
  | .stallAbort t => Sys2Proof.Machine.execStallAbort t s
  | .markRemoval t port f => Sys2Proof.Machine.execMarkRemoval t port f s
  | .windowWriteApply t f reg v => Sys2Proof.Machine.execWindowWriteApply t f reg v s
  | .boundaryArrival t entry => Sys2Proof.Machine.execBoundaryArrival t entry s
  | .creditReturn t entry => Sys2Proof.Machine.execCreditReturn t entry s
  | .busDelivery d bus => Sys2Proof.Machine.execBusDelivery d bus s
  | .ingressAccept r p => Sys2Proof.Machine.execIngressAccept r p s
  | .fquietSet r f => Sys2Proof.Machine.execFquietSet r f s
  | .swapDue r => Sys2Proof.Machine.execSwapDue r s
  | .slotBoundary r => Sys2Proof.Machine.execSlotBoundary r s
  | .resizeComplete r => Sys2Proof.Machine.execResizeComplete r s
  | .entrySelect r => Sys2Proof.Machine.execEntrySelect r s
  | .loadStart r d => Sys2Proof.Machine.execLoadStart r d s
  | .loadFrame r d => Sys2Proof.Machine.execLoadFrame r d s
  | .waveArrival r col => Sys2Proof.Machine.execWaveArrival r col s
  | .loadPass r => Sys2Proof.Machine.execLoadPass r s
  | .completionWordStore r => Sys2Proof.Machine.execCompletionWordStore r s
  | .freewApply d => Sys2Proof.Machine.execFreewApply d s
  | .requestLeave t f => Sys2Proof.Machine.execRequestLeave t f s
  | .breakwaterAccept id => Sys2Proof.Machine.execBreakwaterAccept id s
  | .lockstepTimeout r => Sys2Proof.Machine.execLockstepTimeout r s
  | .homeAccess id => Sys2Proof.Machine.execHomeAccess id s
  | .reexamination id => Sys2Proof.Machine.execReexamination id s
  | .mooringFormatDone r => Sys2Proof.Machine.execMooringFormatDone r s
  | .budgetExpiry id => Sys2Proof.Machine.execBudgetExpiry id s
  | .requestReply id => Sys2Proof.Machine.execRequestReply id s
  | .watchWake id => Sys2Proof.Machine.execWatchWake id s
  | .asyncTrap id => Sys2Proof.Machine.execAsyncTrap id s
  | .fifoPush t f => Sys2Proof.Machine.execFifoPush t f s
  | .fifoPop t f => Sys2Proof.Machine.execFifoPop t f s
  | .lineInput t f => Sys2Proof.Machine.execLineInput t f s
  | .regulatorGrant d cls => Sys2Proof.Machine.execRegulatorGrant d cls s
  | .tableWalkComplete id => Sys2Proof.Machine.execTableWalkComplete id s
  | .migrationTimeout id => Sys2Proof.Machine.execMigrationTimeout id s
  | .trcmdComplete d => Sys2Proof.Machine.execTrcmdComplete d s
  | .commandStart t f k => Sys2Proof.Machine.execCommandStart t f k s
  | .readWalkElement t f k => Sys2Proof.Machine.execReadWalkElement t f k s
  | .writeWalkElement t f k => Sys2Proof.Machine.execWriteWalkElement t f k s
  | .sparseSlotIssue t => Sys2Proof.Machine.execSparseSlotIssue t s
  | .permitArrival t f ag => Sys2Proof.Machine.execPermitArrival t f ag s
  | .doneArrival t f ag => Sys2Proof.Machine.execDoneArrival t f ag s
  | .commandCompletion t => Sys2Proof.Machine.execCommandCompletion t s
  | .nodeLaunch t node => Sys2Proof.Machine.execNodeLaunch t node s
  | .matrixCommandStart t f k => Sys2Proof.Machine.execMatrixCommandStart t f k s
  | .rowStage t f => Sys2Proof.Machine.execRowStage t f s
  | .operandBurstTake t f isB => Sys2Proof.Machine.execOperandBurstTake t f isB s
  | .rowFire t => Sys2Proof.Machine.execRowFire t s
  | .rowEffect t => Sys2Proof.Machine.execRowEffect t s
  | .resultBurst t => Sys2Proof.Machine.execResultBurst t s
  | .matrixCompletion t => Sys2Proof.Machine.execMatrixCompletion t s
  | .rollbackRestore r => Sys2Proof.Machine.execRollbackRestore r s
  | .replayStart r => Sys2Proof.Machine.execReplayStart r s
  | .tideInject r => Sys2Proof.Machine.execTideInject r s
  | .tideTake t f => Sys2Proof.Machine.execTideTake t f s
  | .drainTake t f => Sys2Proof.Machine.execDrainTake t f s
  | .reachClose r => Sys2Proof.Machine.execReachClose r s
  | .reachCommit r => Sys2Proof.Machine.execReachCommit r s
  | .timedCommit r => Sys2Proof.Machine.execTimedCommit r s
  | .autoSaveStart r => Sys2Proof.Machine.execAutoSaveStart r s
  | .saveStop r => Sys2Proof.Machine.execSaveStop r s
  | .drainInject r => Sys2Proof.Machine.execDrainInject r s
  | .saveImageWrite r => Sys2Proof.Machine.execSaveImageWrite r s
  | .saveCommit r => Sys2Proof.Machine.execSaveCommit r s
  | .freezeStop r => Sys2Proof.Machine.execFreezeStop r s
  | .powerMessageReceipt k => Sys2Proof.Machine.execPowerMessageReceipt k s
  | .powerResend k => Sys2Proof.Machine.execPowerResend k s
  | .ttSend io q => Sys2Proof.Machine.execTtSend io q s
  | .ttRetransmit io q => Sys2Proof.Machine.execTtRetransmit io q s
  | .fronthaulEgress io r p => Sys2Proof.Machine.execFronthaulEgress io r p s
  | .txComplete io q => Sys2Proof.Machine.execTxComplete io q s
  | .triggerEval r => Sys2Proof.Machine.execTriggerEval r s
  | .cutHeld r => Sys2Proof.Machine.execCutHeld r s
  | .mccanComplete d => Sys2Proof.Machine.execMccanComplete d s
  | .pinQueryComplete d => Sys2Proof.Machine.execPinQueryComplete d s
  | .debugAccessComplete r => Sys2Proof.Machine.execDebugAccessComplete r s
  | .delayLineArrival r p => Sys2Proof.Machine.execDelayLineArrival r p s
  | .malformedCommandToken t f => Sys2Proof.Machine.execMalformedCommandToken t f s
  | .nullCommandToken t f => Sys2Proof.Machine.execNullCommandToken t f s
  | .scopyCommand t f => Sys2Proof.Machine.execScopyCommand t f s
  | .sgathCommand t f => Sys2Proof.Machine.execSgathCommand t f s
  | .sscatCommand t f => Sys2Proof.Machine.execSscatCommand t f s
  | .sredCommand t f => Sys2Proof.Machine.execSredCommand t f s
  | .scompCommand t f => Sys2Proof.Machine.execScompCommand t f s
  | .sexpCommand t f => Sys2Proof.Machine.execSexpCommand t f s
  | .agstartCommand t f => Sys2Proof.Machine.execAgstartCommand t f s
  | .agstopCommand t f => Sys2Proof.Machine.execAgstopCommand t f s
  | .agqryCommand t f => Sys2Proof.Machine.execAgqryCommand t f s
  | .darmCommand t f => Sys2Proof.Machine.execDarmCommand t f s
  | .dpostCommand t f => Sys2Proof.Machine.execDpostCommand t f s
  | .wcvtCommand t f => Sys2Proof.Machine.execWcvtCommand t f s
  | .malformedMatrixToken t f => Sys2Proof.Machine.execMalformedMatrixToken t f s
  | .nullMatrixToken t f => Sys2Proof.Machine.execNullMatrixToken t f s
  | .mmaCommand t f => Sys2Proof.Machine.execMmaCommand t f s
  | .mldbCommand t f => Sys2Proof.Machine.execMldbCommand t f s
  | .mscaleCommand t f => Sys2Proof.Machine.execMscaleCommand t f s
  | .maclrCommand t f => Sys2Proof.Machine.execMaclrCommand t f s
  | .mstoCommand t f => Sys2Proof.Machine.execMstoCommand t f s
  | .mrdaCommand t f => Sys2Proof.Machine.execMrdaCommand t f s
  | .mswapCommand t f => Sys2Proof.Machine.execMswapCommand t f s
  | .mqryCommand t f => Sys2Proof.Machine.execMqryCommand t f s
  | .mslotCommand t f => Sys2Proof.Machine.execMslotCommand t f s
  | .mfenceCommand t f => Sys2Proof.Machine.execMfenceCommand t f s
  | .trappedClear t f => Sys2Proof.Machine.execTrappedClear t f s
  | .haltedClear t f => Sys2Proof.Machine.execHaltedClear t f s
  | .fenableClear t f => Sys2Proof.Machine.execFenableClear t f s
  | .routeAdvance => Sys2Proof.Machine.execRouteAdvance s
  | .rggeomWrite r v => Sys2Proof.Machine.execRggeomWrite r v s
  | .rgnewWrite r v => Sys2Proof.Machine.execRgnewWrite r v s
  | .portRegisterWrite r dir p v => Sys2Proof.Machine.execPortRegisterWrite r dir p v s
  | .rateUpdate r p rate => Sys2Proof.Machine.execRateUpdate r p rate s
  | .lqdoorPush r w data => Sys2Proof.Machine.execLqdoorPush r w data s
  | .lqctlCancel r v => Sys2Proof.Machine.execLqctlCancel r v s
  | .seedtPush r p v => Sys2Proof.Machine.execSeedtPush r p v s
  | .seedFlush r p => Sys2Proof.Machine.execSeedFlush r p s
  | .freewWrite d frame => Sys2Proof.Machine.execFreewWrite d frame s
  | .rgmoorWrite r v => Sys2Proof.Machine.execRgmoorWrite r v s
  | .mccanCancel d v => Sys2Proof.Machine.execMccanCancel d v s
  | .rgtrrWrite r v => Sys2Proof.Machine.execRgtrrWrite r v s
  | .rearm r => Sys2Proof.Machine.execRearm r s
  | .trcmdInvalidateRange d v => Sys2Proof.Machine.execTrcmdInvalidateRange d v s
  | .trcmdInvalidateAsid d v => Sys2Proof.Machine.execTrcmdInvalidateAsid d v s
  | .trcmdWake d v => Sys2Proof.Machine.execTrcmdWake d v s
  | .pinQuery d v => Sys2Proof.Machine.execPinQuery d v s
  | .strikeReport die zone => Sys2Proof.Machine.execStrikeReport die zone s
  | .tideControlWrite r v => Sys2Proof.Machine.execTideControlWrite r v s
  | .stopClear r => Sys2Proof.Machine.execStopClear r s
  | .preemptSave r v => Sys2Proof.Machine.execPreemptSave r v s
  | .preemptRestore r v => Sys2Proof.Machine.execPreemptRestore r v s
  | .freezeRelease r => Sys2Proof.Machine.execFreezeRelease r s
  | .noticeRead fifo => Sys2Proof.Machine.execNoticeRead fifo s
  | .devtimeBroadcast => Sys2Proof.Machine.execDevtimeBroadcast s
  | .devtimeStep => Sys2Proof.Machine.execDevtimeStep s
  | .powerExchange => Sys2Proof.Machine.execPowerExchange s
  | .hostRead io path pa => Sys2Proof.Machine.execHostRead io path pa s
  | .hostWrite io path pa data poison => Sys2Proof.Machine.execHostWrite io path pa data poison s
  | .fronthaulFrameReceive io frame => Sys2Proof.Machine.execFronthaulFrameReceive io frame s
  | .ttDataFrameReceive io frame => Sys2Proof.Machine.execTtDataFrameReceive io frame s
  | .ttAckReceive io frame => Sys2Proof.Machine.execTtAckReceive io frame s
  | .hostRingFrameReceive io frame => Sys2Proof.Machine.execHostRingFrameReceive io frame s
  | .txdoorWrite io q n => Sys2Proof.Machine.execTxdoorWrite io q n s
  | .rgtenWrite r v => Sys2Proof.Machine.execRgtenWrite r v s
  | .monitorSample d temp vcore => Sys2Proof.Machine.execMonitorSample d temp vcore s
  | .deviceReset flash => Sys2Proof.Machine.execDeviceReset flash s
  | .spdmRequest req => Sys2Proof.Machine.execSpdmRequest req s
  | .resync v => Sys2Proof.Machine.execResync v s
  | .resyncComplete => Sys2Proof.Machine.execResyncComplete s
  | .cutStart r v => Sys2Proof.Machine.execCutStart r v s
  | .cutRelease r => Sys2Proof.Machine.execCutRelease r s
  | .debugAccess r v => Sys2Proof.Machine.execDebugAccess r v s
  | .registerWrite reg v => Sys2Proof.Machine.execRegisterWrite reg v s
  | .supplyDroop d ns3 => Sys2Proof.Machine.execSupplyDroop d ns3 s
  | .frequencyLockChange locked => Sys2Proof.Machine.execFrequencyLockChange locked s

end Sys2Proof.Machine
end

