-- ==== Sys2Proof/Machine/Step.lean ====
section
/-! DEFINITION. One step of the machine (log 1): the next item of this cycle's agenda, or the beginning of a new cycle; and the
state whose next step fetches a given word. -/

namespace Sys2Proof.Machine

/-- One step. -/
def step (s : State) : Host.Outcome State Fault Refusal :=
  match s.agenda with
  | [] => .next s.newCycle
  | w :: rest =>
    match State.work { s with agenda := rest } w with
    | .run i s' => exec i s'
    | .done s' => .next s'

/-- s with the instruction word stored where step fetches its next instruction, in the tile whose issue slot is worked. -/
def State.withFetchWord (s : State) (nbits w : Nat) : State := s.placeWord (tableWord nbits w)

end Sys2Proof.Machine
end

