-- ==== Sys2Proof/Safety.lean ====
section
/-! DEFINITION. What counts as a safe state and a safe run, and the terms that the statements are made of: the issue slot of an
activation, an instruction that passes its guard and finds its ports, retirement, and what such an instruction leaves alone. -/

namespace Sys2Proof

/-- The memory is in its canonical form: addresses strictly rising, no zero byte listed, tags and poison strictly rising. -/
def SafeState (s : Machine.State) : Prop := s.mem.wf = true
/-- Every state that a number of steps from s reach is safe, and no step stops. -/
def SafeRun (s : Machine.State) : Nat → Prop
  | 0 => SafeState s
  | n + 1 => SafeState s ∧ ∃ s', Machine.step s = .next s' ∧ SafeRun s' n

namespace Machine

/-! The issue slot (R26) -/

/-- The tile whose issue slot is worked is the compute tile t of the fabric, with the activation a in progress. -/
structure Issues (s : State) (t : Tile) (a : Act) : Prop where
  cur : s.cur = t
  ct : t.isCT = true
  inFabric : t.inFabric = true
  act : (s.el t).act = some a

/-- The predicate match of R41 and R55 lets the instruction execute on the token of its first channel source. -/
def matchOk : Match → Option Token → Bool
  | .predTrue, some k => k.pred
  | .predFalse, some k => !k.pred
  | .nullSkip, some k => k.kind != kNull
  | _, _ => true
/-- The guard of R54 holds: scalar bit of the guard register, inverted by gn. -/
def Guarded (a : Act) (h : Head) : Prop := (a.bank.rp h.gp).scalar ≠ h.gn
/-- An instruction passes every stage of issue before its execution (R57): guard, tokens in its input ports, room in its output port,
predicate match. -/
structure Passes (s : State) (t : Tile) (a : Act) (h : Head) (srcs : List Spec) (out : Option (BitVec 4)) : Prop where
  guard : Guarded a h
  ports : s.portsReady t a srcs = true
  room : s.hasRoom t a out = true
  pm : matchOk h.pm ((firstPort srcs).bind (s.specTok t a)) = true
/-- Neither limit of the send commit buffer is reached (R29): 16 sends on one port, 32 in all. -/
def CanSend (a : Act) (d : Spec) : Prop := ∀ p, d = .outp p → a.sendsTo p < 16 ∧ a.sends.length < 32

/-! What is left alone -/

/-- Two regions agree but for debug matches on their way and notices (R445, R365). -/
def Region.sameButDebug (g' g : Region) : Prop := { g' with matches_ := g.matches_, notices := g.notices, nstat := g.nstat } = g
/-- Everything outside the elements stays, but for debug matches, notices, interrupts and whose turn it is at a resource (R208). -/
structure SameMachine (s s' : State) : Prop where
  mem : s'.mem = s.mem
  switches : s'.switches = s.switches
  mts : s'.mts = s.mts
  regions : ∀ r, (s'.rg r).sameButDebug (s.rg r)
  dies : s'.dies = s.dies
  ios : s'.ios = s.ios
  modul : s'.modul = s.modul
  clasps : s'.clasps = s.clasps
  holds : s'.holds = s.holds
  reexam : s'.reexam = s.reexam
  reqs : s'.reqs = s.reqs
  walks : s'.walks = s.walks
  power : s'.power = s.power
  cycle : s'.cycle = s.cycle
  agenda : s'.agenda = s.agenda
  inbox : s'.inbox = s.inbox
  cur : s'.cur = s.cur
  free : s'.free = s.free
  nextId : s'.nextId = s.nextId
  moved : s'.moved = s.moved
  upsets : s'.upsets = s.upsets
/-- Only the activation of tile t changes: no register of a committed bank, no status, no other element, no byte, tag or poison mark of
memory. -/
structure SlotFrame (s s' : State) (t : Tile) : Prop where
  others : ∀ u : Tile, u.key ≠ t.key → s'.el u = s.el u
  own : { s'.el t with act := none } = { s.el t with act := none }
  rest : SameMachine s s'
/-- The instruction answers a next state in which the activation is b, and nothing else has changed. -/
def Becomes (i : Instr) (s : State) (t : Tile) (b : Act) : Prop :=
  ∃ s', exec i s = .next s' ∧ (s'.el t).act = some b ∧ SlotFrame s s' t
/-- The instruction retires with the activation r (R114): the next instruction in order follows, after busy further cycles (R97). -/
def Retires (i : Instr) (s : State) (t : Tile) (r : Act) (busy : Nat) : Prop :=
  Becomes i s t { r with pc := r.pc + 1, stalled := 0, busy := busy }

/-! Results at the width of an instruction (R98) -/

/-- The low n bits, sign-extended to 64. -/
def sx (n : Nat) (v : Word) : Word := (v.setWidth n).signExtend 64
/-- The low n bits, zero-extended to 64. -/
def zx (n : Nat) (v : Word) : Word := (v.setWidth n).setWidth 64

/-- A format-R scalar instruction of three sources delivers the value v of its sources, with busy further cycles. -/
def ScalarGives (mk : RForm → Instr) (busy : RForm → Nat) (v : RForm → Word → Word → Word) : Prop :=
  ∀ (w : RForm) (s : State) (t : Tile) (a a' : Act) (x y z : Word),
    Issues s t a → Passes s t a w.head [w.a, w.b, w.c] w.d.outPort →
    rd3 a (s.rdScalar t) w.a w.b w.c = .ok (x, y, z, a') → CanSend a' w.d →
    ∃ r, a'.deliver w.d (v w x y) = .ok r ∧ Retires (mk w) s t r (busy w)
/-- A format-I scalar instruction delivers the value v of its source and its immediate. -/
def ImmediateGives (mk : IForm → Instr) (v : Word → BitVec 34 → Word) : Prop :=
  ∀ (w : IForm) (s : State) (t : Tile) (a a' : Act) (x : Word),
    Issues s t a → Passes s t a w.head [w.a] w.d.outPort → s.rdScalar t a w.a = .ok (x, a') → CanSend a' w.d →
    ∃ r, a'.deliver w.d (v x w.imm) = .ok r ∧ Retires (mk w) s t r 0
/-- A scalar floating-point instruction in the format of fn[3:0] delivers the bits and raises the flags of f (R108). -/
def FloatGives (mk : RForm → Instr) (busy : Nat → Nat) (f : Nat → Nat → Nat → Nat → Nat → Nat × Flags) : Prop :=
  ∀ (w : RForm) (s : State) (t : Tile) (a a' : Act) (x y z : Word) (c : Nat),
    c = fld w.fn 0 4 → Issues s t a → Passes s t a w.head [w.a, w.b, w.c] w.d.outPort →
    rd3 a (fun a sp => s.rdFp t a c sp) w.a w.b w.c = .ok (x, y, z, a') → CanSend a' w.d →
    let q := f c (a.mode w.rnd) (x.toNat % 2 ^ fmtWidth c) (y.toNat % 2 ^ fmtWidth c) (z.toNat % 2 ^ fmtWidth c)
    ∃ r, (a'.raise q.2).deliver w.d (BitVec.ofNat 64 q.1) = .ok r ∧ Retires (mk w) s t r (busy c)

/-- The destination register v n becomes, element by element of width k under the write mask, what f gives of the elements of the sources;
its flags are those of the written elements (R84, R127, R128). -/
def VectorGives (mk : RForm → Instr) (width : RForm → Nat) (conv : RForm → BitVec 6 → Nat)
    (f : RForm → Nat → Nat → Nat → Nat → Nat × Flags) : Prop :=
  ∀ (w : RForm) (s : State) (t : Tile) (a : Act) (n : BitVec 5) (k : Nat),
    k = width w → w.d = .v n → Issues s t a → Passes s t a w.head [] none →
    ∃ r, Retires (mk w) s t r 0 ∧
      (∀ j, j < 512 / k →
        let q := f w (a.mode w.rnd) (fld (rdVec a k (conv w) w.a) (k * j) k) (fld (rdVec a k (conv w) w.b) (k * j) k)
          (fld (rdVec a k (conv w) w.c) (k * j) k)
        fld (r.bank.rv n) (k * j) k = if laneOn (a.writeMask w.head) k j then q.1 % 2 ^ k else fld (a.bank.rv n) (k * j) k) ∧
      (∀ m, m ≠ n → r.bank.rv m = a.bank.rv m) ∧ r.bank.g = a.bank.g ∧ r.bank.p = a.bank.p ∧
      { r with bank := a.bank, raised := a.raised } = a

end Machine

end Sys2Proof
end

