-- ==== Sys2Proof/Certificates/Slice0/Obligations.lean ====
section
/-! DEFINITION. The statements for the provers, from the spec's numbered rules. Each is a Prop over every state and every operand that meet
its hypotheses; what an instruction leaves alone is part of its statement. -/

open Sys2Proof Sys2Proof.Machine

/-! Whole machine -/

/-- Reset (R8, R10, R12, R16, R165, R166): the values that the spec gives. No element's activation is in progress, every facet is disabled, g, v and
p registers are 0, the status registers have the reset values of their table, every local tag is empty, no region is valid, FQUIET of every
facet is 1, and no route entry leads anywhere; and the memory lists nothing, which is its canonical form.
Where this goes beyond the words of the rules it rests on the model's readings and choices of log 3. -/
def Obligations.ResetState : Prop :=
  (∀ t : Tile, (State.reset.el t).act = none ∧ (State.reset.el t).fenable = 0) ∧
  (∀ (t : Tile) (f : Facet), let fe := (State.reset.el t).fac f
    (∀ n, fe.bank.rg n = 0) ∧ (∀ n, fe.bank.rv n = 0) ∧ (∀ n, n ≠ 0 → fe.bank.rp n = ⟨false, 0⟩) ∧
    fe.hstat = 0 ∧ fe.hcause = 0 ∧ fe.haddr = 0 ∧ fe.actbase = 0 ∧ fe.actlim = 0x10000 ∧ fe.isbase = 0 ∧ fe.islim = 0x800 ∧
    fe.rmode = 0 ∧ fe.masks = 0 ∧ (∀ p, fe.inq.get p = [])) ∧
  (∀ a, State.reset.mem.isFull a = false) ∧
  (∀ r, (State.reset.rg r).geom = 0 ∧ (State.reset.rg r).valid = false ∧ (State.reset.rg r).en = false ∧
    ∀ f, (State.reset.rg r).fquiet f = true ∧ (State.reset.rg r).floaded f = false) ∧
  (∀ (t : Tile) (f : Facet) (k : Nat), tget ((State.reset.sw t).routes.get f) k 0x003F = 0x003F) ∧
  State.reset.mem = Memory.empty ∧ SafeState State.reset

/-- Every step keeps the memory canonical: addresses strictly rising, no zero byte listed, tags and poison strictly rising.
Where this goes beyond the words of the rules it rests on the model's readings and choices of log 2. -/
def Obligations.StepKeepsMemoryCanonical : Prop := ∀ s s' : State, SafeState s → step s = .next s' → SafeState s'

/-- Decoding the word of a well-formed instruction gives that instruction, with every operand at every value the encoding admits; and what a word
decodes to is well formed and encodes to the same word, so that a word has one meaning. -/
def Obligations.EncodingRoundTrip : Prop :=
  (∀ (i : Instr) (w : Word), i.wf = true → encode i = some w → decode w = .ok i) ∧
  (∀ (w : Word) (i : Instr), decode w = .ok i → i.wf = true ∧ encode i = some w)

/-- A step runs the decoded instruction (R11, R26): where the next item of work is the issue slot of a compute tile whose activation is free to
issue and the word at its index decodes, the step is exec of that instruction at the state without that item, with the tile as the one whose
slot is worked; and it takes the cycle's next event in order, where a write through BAR0 is dropped in recovery mode (R453) and a write of a region's geometry waits while
its load is in progress (R165), or begins a new cycle when no work is left.
Where this goes beyond the words of the rules it rests on the model's readings and choices of log 1. -/
def Obligations.StepRunsDecoded : Prop :=
  (∀ (s : State) (t : Tile) (rest : List Work) (a : Act) (i : Instr),
    s.agenda = .issue t :: rest → t.isCT = true → t.inFabric = true → (s.el t).act = some a → a.busy = 0 → a.wait = .none →
    ((s.el t).fac a.facet).fetchOut a.pc = false → decode ((s.el t).fetch a.facet a.pc) = .ok i →
    step s = exec i { s with agenda := rest, cur := t }) ∧
  (∀ (s : State) (i : Instr) (rest : List Work), s.agenda = .event i :: rest →
    ((s.recovery && barWrite i) = true → step s = .next { s with agenda := rest }) ∧
    ((s.recovery && barWrite i) = false → s.postponed i = true → step s = .next { s with agenda := rest, inbox := s.inbox ++ [i] }) ∧
    ((s.recovery && barWrite i) = false → s.postponed i = false → step s = exec i { s with agenda := rest })) ∧
  (∀ s : State, s.agenda = [] → step s = .next s.newCycle)

/-- The encodings of R41 to R60 on words written out bit by bit, one for each format, and the four causes of R57. -/
def Obligations.DecodeWords : Prop :=
  decode 0b00000001_0_000_00_00000011_00000001_00000010_00000000_000_000_000000000000#64
      = .ok (.add ⟨⟨false, 0, .always⟩, .g 3, .g 1, .g 2, .g 0, .dyn, .dflt, 0⟩) ∧
  decode 0b00000010_1_101_10_10000111_01100010_1111111111111111111111111111111111#64
      = .ok (.addi ⟨⟨true, 5, .predFalse⟩, .outp 7, .inp 2, BitVec.allOnes 34⟩) ∧
  decode 0b10010001_0_000_00_00000000_00000001_11000101_0001_00000000000_00000001010#64
      = .ok (.brc ⟨⟨false, 0, .always⟩, .g 0, .g 1, .imm 5, .eq, 0, 10⟩) ∧
  decode 0b10100000_0_000_00_00000101_00000110_00000000_011_101_00000000000000010000#64
      = .ok (.mld ⟨⟨false, 0, .always⟩, .g 5, .g 6, .g 0, .d, .device, 16⟩) ∧
  decode 0b10111010_0_000_00_10000001_00000010_00000011_00000000_000000000000000000#64
      = .ok (.dpost ⟨⟨false, 0, .always⟩, .outp 1, .g 2, .g 3, .g 0, 0⟩) ∧
  decode 0b00000000_0_000_00_00000000_00000000_00000000_00000000_000_000_000000000000#64 = .ok (.illegalOpcode 0) ∧
  decode 0b00000001_0_000_00_00000011_00000001_00000010_00000000_000_000_000000000001#64 = .error .reservedField ∧
  decode 0b00000001_0_000_00_00000011_10011010_00000010_00000000_000_000_000000000000#64 = .error .reservedOperand ∧
  decode 0b00000001_0_000_00_00000011_01000000_00000010_00000000_000_000_000000000000#64 = .error .operandClass

/-- A fetch outside the instruction window raises fetch-bounds with the index in HADDR, and a word that fails a decode check raises that check's cause
with HADDR 0 (R11, R57, R38): the activation is gone, and HCAUSE names the cause and the handler. -/
def Obligations.FetchAndDecodeTraps : Prop :=
  ∀ (s : State) (t : Tile) (rest : List Work) (a : Act),
    s.agenda = .issue t :: rest → t.isCT = true → t.inFabric = true → (s.el t).act = some a → a.busy = 0 → a.wait = .none →
    let fe := (s.el t).fac a.facet
    let trapsWith (code : Nat) (haddr : Word) : Prop := ∃ s', step s = .next s' ∧ (s'.el t).act = none ∧
      fld ((s'.el t).fac a.facet).hcause 0 9 = code ∧ fld ((s'.el t).fac a.facet).hcause 9 6 = a.handler.val ∧
      bit ((s'.el t).fac a.facet).hcause 15 = true ∧ ((s'.el t).fac a.facet).haddr = haddr ∧
      bit ((s'.el t).fac a.facet).hstat 8 = true ∧ ((s'.el t).fac a.facet).bank = fe.bank ∧ s'.mem = s.mem
    (fe.islim.toNat ≤ a.pc.toNat ∨ 2048 ≤ fe.isbase.toNat + a.pc.toNat → trapsWith 0x007 a.pc) ∧
    (a.pc.toNat < fe.islim.toNat → fe.isbase.toNat + a.pc.toNat < 2048 →
      (decode ((s.el t).fetch a.facet a.pc) = .error .reservedField → trapsWith 0x002 0) ∧
      (decode ((s.el t).fetch a.facet a.pc) = .error .reservedOperand → trapsWith 0x003 0) ∧
      (decode ((s.el t).fetch a.facet a.pc) = .error .operandClass → trapsWith 0x004 0))

/-! Operands and issue -/

/-- Every format-R instruction whose only port operands are those that it names in a, b and c, in the order of the opcode table. -/
def scalarRs : List (RForm → Instr) :=
  [.add, .sub, .mul, .mulh, .mulhu, .div, .divu, .rem, .remu, .and, .or, .xor, .andn, .shl, .shr, .sra, .rotl, .clz, .ctz, .popc,
   .bswap, .bext, .bins, .min, .max, .minu, .maxu, .cmp, .sel, .chash, .fadd, .fsub, .fmul, .ffma, .fdiv, .fsqrt, .fmin, .fmax,
   .fcmp, .fcvt, .frsqe, .frcpe, .matom, .mcas]
/-- The vector instructions that read no port. -/
def vectorRs : List (RForm → Instr) :=
  [.vadd, .vsub, .vmul, .vfma, .vmin, .vmax, .vabsmax, .vscan, .viadd, .visub, .vimul, .vand, .vor, .vxor, .vshl, .vshr, .vsra, .vpopc,
   .vcmp, .vicmp, .vsel, .vperm, .vcvt, .vcvts, .vpack, .vunpk, .vrsqe, .vrcpe, .vcmul, .vcmac, .vconj, .vbfly]
/-- The instructions of the other formats that all pass the stages of issue alike. -/
def immediateIs : List (IForm → Instr) := [.addi, .muli, .andi, .ori, .xori, .shli, .shri, .srai, .cmpi, .limm]
def addressMs : List (MForm → Instr) :=
  [.lea, .ld, .st, .ldv, .stv, .ldw, .ldc, .stf, .stx, .tage, .tagq, .mld, .mst, .mldw, .mldc, .mstf, .mstx, .mtage, .mtagq, .tld, .tst]
def commandEs : List (EForm → Instr) :=
  [.scopy, .sgath, .sscat, .sred, .scomp, .sexp, .agstart, .agstop, .agqry, .darm, .dpost, .wcvt, .mma, .mldb, .mscale, .maclr, .msto,
   .mrda, .mswap, .mqry, .mslot, .mfence]

/-- R54: an instruction whose guard does not hold has no effect: it retires, reads no operand, consumes no token and sends nothing. -/
def GuardFalse : Prop :=
  ∀ (s : State) (t : Tile) (a : Act), Issues s t a →
    (∀ mk ∈ scalarRs ++ vectorRs ++ [.vred, .vdot, .vsplat, .vextr, .vins, .endAct, .yield, .abort, .halt, .ret, .arm, .mask, .mfs, .mts, .recv, .peek, .tagr, .drop],
      ∀ w : RForm, ¬Guarded a w.head → Retires (mk w) s t a 0) ∧
    (∀ mk ∈ immediateIs ++ [.trap], ∀ w : IForm, ¬Guarded a w.head → Retires (mk w) s t a 0) ∧
    (∀ mk ∈ addressMs ++ [.fence], ∀ w : MForm, ¬Guarded a w.head → Retires (mk w) s t a 0) ∧
    (∀ mk ∈ [Instr.br, .brc, .call, .loop], ∀ w : BForm, ¬Guarded a w.head → Retires (mk w) s t a 0) ∧
    (∀ mk ∈ commandEs, ∀ w : EForm, ¬Guarded a w.head → Retires (mk w) s t a 0)

/-- R27, R29, R33: an instruction whose guard holds and that finds a token or the room for a send missing does not issue: the stalled cycles are
counted, and nothing else changes. -/
def PortWait : Prop :=
  ∀ (s : State) (t : Tile) (a : Act), Issues s t a →
    let waits (i : Instr) : Prop := Becomes i s t { a with stalled := a.stalled + 1 }
    (∀ mk ∈ scalarRs, ∀ w : RForm, Guarded a w.head →
      (s.portsReady t a [w.a, w.b, w.c] = false ∨ s.hasRoom t a w.d.outPort = false) → waits (mk w)) ∧
    (∀ mk ∈ immediateIs, ∀ w : IForm, Guarded a w.head →
      (s.portsReady t a [w.a] = false ∨ s.hasRoom t a w.d.outPort = false) → waits (mk w)) ∧
    (∀ mk ∈ addressMs, ∀ w : MForm, Guarded a w.head →
      (s.portsReady t a [w.a, w.b] = false ∨ s.hasRoom t a w.d.outPort = false) → waits (mk w)) ∧
    (∀ mk ∈ commandEs, ∀ w : EForm, Guarded a w.head →
      (s.portsReady t a [w.a, w.b] = false ∨ s.hasRoom t a w.d.outPort = false) → waits (mk w))

/-- R55: where the predicate match fails on the token of the first channel source, the instruction does nothing but consume the tokens that its
consuming operands name. -/
def PredicateMismatch : Prop :=
  ∀ (s : State) (t : Tile) (a : Act) (k : Token), Issues s t a →
    (∀ mk ∈ scalarRs, ∀ w : RForm, Guarded a w.head → s.portsReady t a [w.a, w.b, w.c] = true → s.hasRoom t a w.d.outPort = true →
      (firstPort [w.a, w.b, w.c]).bind (s.specTok t a) = some k →
      (w.head.pm = .predTrue ∧ k.pred = false ∨ w.head.pm = .predFalse ∧ k.pred = true) →
      Retires (mk w) s t (a.consumeAll [w.a, w.b, w.c]) 0) ∧
    (∀ mk ∈ commandEs, ∀ w : EForm, Guarded a w.head → s.portsReady t a [w.a, w.b] = true → s.hasRoom t a w.d.outPort = true →
      (firstPort [w.a, w.b]).bind (s.specTok t a) = some k →
      (w.head.pm = .predTrue ∧ k.pred = false ∨ w.head.pm = .predFalse ∧ k.pred = true) →
      Retires (mk w) s t (a.consumeAll [w.a, w.b]) 0)

/-- The stages of issue of every element instruction: the guard first, then tokens and room, then the predicate match.
Where this goes beyond the words of the rules it rests on the model's readings and choices of log 7, 63. -/
def Obligations.IssueStages : Prop := GuardFalse ∧ PortWait ∧ PredicateMismatch

/-- What a scalar operand gives (R8, R18, R48, R49, R53, R96): a g register its value, g0 the value 0; a p register its scalar bit in bit 16 over its mask;
a small immediate its sign-extended value; an input port the payload of its next token, which the consuming form takes and the peeking form
leaves; a null reads as 0, and a poisoned token traps. -/
def OperandReads : Prop :=
  ∀ (s : State) (t : Tile) (a : Act),
    (s.rdScalar t a (.g 0) = .ok (0, a)) ∧
    (∀ n : BitVec 6, n ≠ 0 → s.rdScalar t a (.g n) = .ok (a.bank.g.get n.toFin, a)) ∧
    (s.rdScalar t a (.p 0) = .ok (0x1FFFF, a)) ∧
    (∀ (n : BitVec 3) (x : Word), n ≠ 0 → s.rdScalar t a (.p n) = .ok (x, a) → x.setWidth 16 = (a.bank.p.get n.toFin).mask ∧
      x.getLsbD 16 = (a.bank.p.get n.toFin).scalar ∧ x.toNat < 2 ^ 17) ∧
    (∀ n : BitVec 6, s.rdScalar t a (.imm n) = .ok (n.signExtend 64, a)) ∧
    (∀ (p : BitVec 4) (k : Token), s.portTok t a p = some k →
      (k.poison = true → s.rdScalar t a (.inp p) = .error (0x009, 0x60 ||| p.setWidth 64) ∧
        s.rdScalar t a (.peek p) = .error (0x009, 0x70 ||| p.setWidth 64)) ∧
      (k.poison = false → s.rdScalar t a (.peek p) = .ok (if k.kind = 1 then 0 else k.payload, a) ∧
        ∃ a', s.rdScalar t a (.inp p) = .ok (if k.kind = 1 then 0 else k.payload, a') ∧
          a'.taken.get p.toFin = a.taken.get p.toFin + 1 ∧ (∀ q, q ≠ p.toFin → a'.taken.get q = a.taken.get q) ∧
          { a' with taken := a.taken } = a))

/-- Where a scalar result goes (R8, R29, R50, R53): a g register takes it, and a result for g0 is discarded; a p register takes its scalar bit from bit 16 and
its mask from bits [15:0], and one for p0 is discarded; an output port takes a data token whose pred, head, tail and poison are 0. Nothing else
of the activation changes. -/
def ResultDelivery : Prop :=
  ∀ (a : Act) (v : Word),
    (a.deliver (.g 0) v = .ok a ∧ a.deliver (.p 0) v = .ok a) ∧
    (∀ n : BitVec 6, n ≠ 0 → ∃ r, a.deliver (.g n) v = .ok r ∧ r.bank.rg n = v ∧ (∀ m, m ≠ n → r.bank.rg m = a.bank.rg m) ∧
      r.bank.v = a.bank.v ∧ r.bank.p = a.bank.p ∧ { r with bank := a.bank } = a) ∧
    (∀ n : BitVec 3, n ≠ 0 → ∃ r, a.deliver (.p n) v = .ok r ∧ r.bank.rp n = ⟨v.getLsbD 16, v.setWidth 16⟩ ∧
      (∀ m, m ≠ n → r.bank.rp m = a.bank.rp m) ∧ r.bank.g = a.bank.g ∧ r.bank.v = a.bank.v ∧ { r with bank := a.bank } = a) ∧
    (∀ p : BitVec 4, a.sendsTo p < 16 → a.sends.length < 32 → ∃ (r : Act) (e : SendEnt), a.deliver (.outp p) v = .ok r ∧
      r.sends = a.sends ++ [e] ∧ e.port = p.toFin ∧ e.tok.payload = v ∧ e.tok.facet = a.facet ∧ e.tok.kind = 0 ∧ e.tok.pred = false ∧
      e.tok.head = false ∧ e.tok.tail = false ∧ e.tok.poison = false ∧ r.bank = a.bank) ∧
    (∀ p : BitVec 4, (16 ≤ a.sendsTo p ∨ 32 ≤ a.sends.length) →
      a.deliver (.outp p) v = .error (0x00B, 0x80 ||| p.setWidth 64))
/-- Scalar sources and destinations of every class. -/
def Obligations.OperandsAndResults : Prop := OperandReads ∧ ResultDelivery

/-! Scalar results -/

/-- R105: sums, differences, products and logic at the width of esz, extended as the row's Ext column says. -/
def Obligations.IntegerArithmetic : Prop :=
  let n (w : RForm) : Nat := eszScalar w.esz
  ScalarGives .add (fun _ => 0) (fun w x y => sx (n w) (x + y)) ∧
  ScalarGives .sub (fun _ => 0) (fun w x y => sx (n w) (x - y)) ∧
  ScalarGives .mul (fun _ => 0) (fun w x y => sx (n w) (x * y)) ∧
  ScalarGives .mulh (fun _ => 0)
    (fun w x y => (BitVec.ofInt (n w) ((x.setWidth (n w)).toInt * (y.setWidth (n w)).toInt / 2 ^ n w)).signExtend 64) ∧
  ScalarGives .mulhu (fun _ => 0)
    (fun w x y => BitVec.ofNat 64 ((x.setWidth (n w)).toNat * (y.setWidth (n w)).toNat / 2 ^ n w)) ∧
  ScalarGives .and (fun _ => 0) (fun w x y => sx (n w) (x &&& y)) ∧
  ScalarGives .or (fun _ => 0) (fun w x y => sx (n w) (x ||| y)) ∧
  ScalarGives .xor (fun _ => 0) (fun w x y => sx (n w) (x ^^^ y)) ∧
  ScalarGives .andn (fun _ => 0) (fun w x y => sx (n w) (x &&& ~~~y)) ∧
  ScalarGives .min (fun _ => 0) (fun w x y => if (x.setWidth (n w)).sle (y.setWidth (n w)) then sx (n w) x else sx (n w) y) ∧
  ScalarGives .max (fun _ => 0) (fun w x y => if (y.setWidth (n w)).sle (x.setWidth (n w)) then sx (n w) x else sx (n w) y) ∧
  ScalarGives .minu (fun _ => 0) (fun w x y => if x.setWidth (n w) ≤ y.setWidth (n w) then zx (n w) x else zx (n w) y) ∧
  ScalarGives .maxu (fun _ => 0) (fun w x y => if y.setWidth (n w) ≤ x.setWidth (n w) then zx (n w) x else zx (n w) y)

/-- R99: shifts by the whole value of b, and rotation by b mod w. -/
def Obligations.ShiftResults : Prop :=
  let n (w : RForm) : Nat := eszScalar w.esz
  ScalarGives .shl (fun _ => 0) (fun w x y => (if n w ≤ y.toNat then 0 else x.setWidth (n w) <<< y.toNat).signExtend 64) ∧
  ScalarGives .shr (fun _ => 0) (fun w x y => (if n w ≤ y.toNat then 0 else x.setWidth (n w) >>> y.toNat).setWidth 64) ∧
  ScalarGives .sra (fun _ => 0) (fun w x y => ((x.setWidth (n w)).sshiftRight (min y.toNat (n w))).signExtend 64) ∧
  ScalarGives .rotl (fun _ => 0) (fun w x y => ((x.setWidth (n w)).rotateLeft (y.toNat % n w)).signExtend 64)

/-- R100: division and remainder with their corners; 18 or 34 issue cycles (R97). -/
def Obligations.DivisionResults : Prop :=
  let n (w : RForm) : Nat := eszScalar w.esz
  let busy (w : RForm) : Nat := if n w = 32 then 17 else 33
  ScalarGives .div busy
    (fun w x y => if y.setWidth (n w) = 0 then BitVec.allOnes 64 else ((x.setWidth (n w)).sdiv (y.setWidth (n w))).signExtend 64) ∧
  ScalarGives .rem busy
    (fun w x y => if y.setWidth (n w) = 0 then sx (n w) x else ((x.setWidth (n w)).srem (y.setWidth (n w))).signExtend 64) ∧
  ScalarGives .divu busy
    (fun w x y => if y.setWidth (n w) = 0 then zx (n w) (BitVec.allOnes 64) else (x.setWidth (n w) / y.setWidth (n w)).setWidth 64) ∧
  ScalarGives .remu busy
    (fun w x y => if y.setWidth (n w) = 0 then zx (n w) x else (x.setWidth (n w) % y.setWidth (n w)).setWidth 64)

/-- The field mask of R101. -/
def bitFieldMask (fn : BitVec 12) : Word :=
  (BitVec.allOnes 64 >>> (64 - (if fld fn 6 6 = 0 then 64 else fld fn 6 6))) <<< fld fn 0 6
/-- R105, R101: counts of bits, reversal of bytes, and bit fields. -/
def Obligations.BitResults : Prop :=
  let n (w : RForm) : Nat := eszScalar w.esz
  ScalarGives .clz (fun _ => 0) (fun w x _ => BitVec.ofNat 64 (n w - (x.setWidth (n w)).toNat.size)) ∧
  ScalarGives .ctz (fun _ => 0) (fun w x _ => BitVec.ofNat 64 ((List.range (n w)).takeWhile fun i => !x.getLsbD i).length) ∧
  ScalarGives .popc (fun _ => 0) (fun w x _ => BitVec.ofNat 64 ((List.range (n w)).filter fun i => x.getLsbD i).length) ∧
  ScalarGives .bswap (fun _ => 0)
    (fun w x _ => sx (n w) (BitVec.ofNat 64 ((List.range (n w / 8)).foldl (fun v i => 256 * v + fld x (8 * i) 8) 0))) ∧
  (∀ (w : RForm) (s : State) (t : Tile) (a a' : Act) (x y z : Word), w.esz ≠ .e32 →
    Issues s t a → Passes s t a w.head [w.a, w.b, w.c] w.d.outPort →
    rd3 a (s.rdScalar t) w.a w.b w.c = .ok (x, y, z, a') → CanSend a' w.d →
    let m := bitFieldMask w.fn
    (∃ r, a'.deliver w.d ((x &&& m) >>> fld w.fn 0 6) = .ok r ∧ Retires (.bext w) s t r 0) ∧
    (∃ r, a'.deliver w.d ((x &&& ~~~m) ||| ((y <<< fld w.fn 0 6) &&& m)) = .ok r ∧ Retires (.bins w) s t r 0))

/-- One round of R104 under the key k. -/
def hashRound (k x c : Word) (sh : Nat) : Word :=
  let u := (x ^^^ (k + c)) * 0xA3B195C42E6F0D57
  u ^^^ (u >>> sh)
/-- The four rounds of R104. -/
def counterHash (c k : Word) : Word :=
  let x := hashRound k c 0x6C1E4A973D58B2F1 29
  let x := hashRound k x 0x2B7DE03591C64A8F 31
  let x := hashRound k x 0xD4A26F1B8E370C59 27
  hashRound k x 0x8F59B3C216D4E7A3 33
/-- R104: CHASH delivers the hash of a under b in 4 issue cycles (R97), and for one key distinct counters give distinct results. -/
def Obligations.CounterHash : Prop :=
  (∀ (w : RForm) (s : State) (t : Tile) (a a' : Act) (x y z : Word), w.esz ≠ .e32 →
    Issues s t a → Passes s t a w.head [w.a, w.b, w.c] w.d.outPort →
    rd3 a (s.rdScalar t) w.a w.b w.c = .ok (x, y, z, a') → CanSend a' w.d →
    ∃ r, a'.deliver w.d (counterHash x y) = .ok r ∧ Retires (.chash w) s t r 3) ∧
  (∀ k c c' : Word, counterHash c k = counterHash c' k → c = c')

/-- The condition of a code of R44 between two values of one width; code 0x1 to 0x6. -/
def compares (n : Nat) (c : Nat) (x y : BitVec n) : Bool :=
  match c with
  | 1 => x == y
  | 2 => x != y
  | 3 => x.slt y
  | 4 => y.sle x
  | 5 => x.ult y
  | _ => y.ule x
/-- A truth value delivered by R102: a g register takes 1 or 0, a p register the bit and a full or empty lane mask, a port a token with payload and pred
equal to it. -/
def TruthReaches (a r : Act) (d : Spec) (b : Bool) : Prop :=
  match d with
  | .g n => r = a.wg n (if b then 1 else 0)
  | .p n => r = a.wp n ⟨b, if b then 0xFFFF else 0⟩
  | .outp p => ∃ e : SendEnt, r.sends = a.sends ++ [e] ∧ e.port = p.toFin ∧ e.tok.payload = (if b then 1 else 0) ∧ e.tok.pred = b ∧
      e.tok.kind = 0 ∧ e.tok.facet = a.facet ∧ r.bank = a.bank
  | _ => r = a
/-- R102, R103, R106: comparisons, and the choice by a p register's scalar bit or by a value. -/
def Obligations.CompareAndSelect : Prop :=
  (∀ (w : RForm) (s : State) (t : Tile) (a a' : Act) (x y z : Word),
    Issues s t a → Passes s t a w.head [w.a, w.b, w.c] w.d.outPort →
    rd3 a (s.rdScalar t) w.a w.b w.c = .ok (x, y, z, a') → CanSend a' w.d →
    (1 ≤ fld w.fn 0 4 → fld w.fn 0 4 ≤ 6 → ∃ r, Retires (.cmp w) s t r 0 ∧
      TruthReaches a' r w.d (compares (eszScalar w.esz) (fld w.fn 0 4) (x.setWidth _) (y.setWidth _))) ∧
    (∃ r, a'.deliver w.d (if (match w.c with
        | .p n => (a.bank.rp n).scalar
        | _ => z != 0) then x else y) = .ok r ∧ Retires (.sel w) s t r 0)) ∧
  (∀ (w : IForm) (s : State) (t : Tile) (a a' : Act) (x : Word),
    Issues s t a → Passes s t a w.head [w.a] w.d.outPort → s.rdScalar t a w.a = .ok (x, a') → CanSend a' w.d →
    1 ≤ fld w.imm 30 4 → fld w.imm 30 4 ≤ 6 → ∃ r, Retires (.cmpi w) s t r 0 ∧
      TruthReaches a' r w.d (compares 64 (fld w.imm 30 4) x ((w.imm.setWidth 30).signExtend 64)))

/-- R106, R107: the immediate forms and LEA. -/
def Obligations.ImmediateResults : Prop :=
  ImmediateGives .addi (fun x i => x + i.signExtend 64) ∧
  ImmediateGives .muli (fun x i => x * i.signExtend 64) ∧
  ImmediateGives .andi (fun x i => x &&& i.signExtend 64) ∧
  ImmediateGives .ori (fun x i => x ||| i.signExtend 64) ∧
  ImmediateGives .xori (fun x i => x ^^^ i.signExtend 64) ∧
  ImmediateGives .shli (fun x i => if 64 ≤ i.toNat then 0 else x <<< i.toNat) ∧
  ImmediateGives .shri (fun x i => if 64 ≤ i.toNat then 0 else x >>> i.toNat) ∧
  ImmediateGives .srai (fun x i => x.sshiftRight (min i.toNat 64)) ∧
  ImmediateGives .limm (fun _ i => i.signExtend 64) ∧
  (∀ (w : MForm) (s : State) (t : Tile) (a a1 a2 : Act) (x y : Word),
    Issues s t a → Passes s t a w.head [w.a, w.b] w.d.outPort → s.rdScalar t a w.a = .ok (x, a1) → s.rdScalar t a1 w.b = .ok (y, a2) →
    CanSend a2 w.d →
    ∃ r, a2.deliver w.d (x + y * BitVec.ofNat 64 w.size.bytes + w.disp.signExtend 64) = .ok r ∧ Retires (.lea w) s t r 0)

/-- R80: rounding m × 2^e to a multiple of 2^q. The result is exact or off by less than one unit; rz takes the multiple below in magnitude, rn the
nearest with ties to even, ru and rd the one above or below in value. -/
def Obligations.RoundingIsCorrect : Prop :=
  ∀ (m : Nat) (e q : Int) (neg : Bool), e < q →
    let u := 2 ^ (q - e).toNat
    (∀ mode, (roundAt mode neg m e q).2 = decide (m % u ≠ 0)) ∧
    (∀ mode, m % u = 0 → (roundAt mode neg m e q).1 * u = m) ∧
    (m % u ≠ 0 →
      (roundAt 1 neg m e q).1 = m / u ∧
      (roundAt 2 neg m e q).1 = m / u + (if neg then 0 else 1) ∧
      (roundAt 3 neg m e q).1 = m / u + (if neg then 1 else 0) ∧
      (let r := (roundAt 0 neg m e q).1
       2 * r * u ≤ 2 * m + u ∧ 2 * m ≤ 2 * r * u + u ∧ ((2 * r * u = 2 * m + u ∨ 2 * m = 2 * r * u + u) → r % 2 = 0)))

/-- R97, R108, R109, R112: the scalar floating-point instructions apply the operation of their row, in the format of fn[3:0], to the low bits of their
sources, and raise its flags.
Where this goes beyond the words of the rules it rests on the model's readings and choices of log 17. -/
def Obligations.ScalarFloatResults : Prop :=
  let slow (c : Nat) : Nat := if c = 0 then 12 else 7
  FloatGives .fadd (fun _ => 0) (fun f m x y _ => fAdd f m x y) ∧
  FloatGives .fsub (fun _ => 0) (fun f m x y _ => fSub f m x y) ∧
  FloatGives .fmul (fun _ => 0) (fun f m x y _ => fMul f m x y) ∧
  FloatGives .ffma (fun _ => 0) (fun f m x y z => fFma f m x y z) ∧
  FloatGives .fdiv slow (fun f m x y _ => fDiv f m x y) ∧
  FloatGives .fsqrt slow (fun f m x _ _ => fSqrt f m x) ∧
  FloatGives .fmin (fun _ => 0) (fun f _ x y _ => fMin f x y) ∧
  FloatGives .fmax (fun _ => 0) (fun f _ x y _ => fMax f x y) ∧
  (∀ (w : RForm) (s : State) (t : Tile) (a a' : Act) (x y z : Word),
    Issues s t a → Passes s t a w.head [w.a, w.b, w.c] w.d.outPort →
    rd3 a (fun a sp => s.rdFp t a 0 sp) w.a w.b w.c = .ok (x, y, z, a') → CanSend a' w.d →
    (∃ r, (a'.raise (fRsqE (x.toNat % 2 ^ 32)).2).deliver w.d (BitVec.ofNat 64 (fRsqE (x.toNat % 2 ^ 32)).1) = .ok r ∧
      Retires (.frsqe w) s t r 0) ∧
    (∃ r, (a'.raise (fRcpE (x.toNat % 2 ^ 32)).2).deliver w.d (BitVec.ofNat 64 (fRcpE (x.toNat % 2 ^ 32)).1) = .ok r ∧
      Retires (.frcpe w) s t r 0)) ∧
  (∀ (w : RForm) (s : State) (t : Tile) (a a' : Act) (x y z : Word),
    Issues s t a → Passes s t a w.head [w.a, w.b, w.c] w.d.outPort → CanSend a' w.d →
    (rd3 a (fun a sp => s.rdFp t a (fld w.fn 0 4) sp) w.a w.b w.c = .ok (x, y, z, a') →
      let lo (v : Word) : Nat := v.toNat % 2 ^ fmtWidth (fld w.fn 0 4)
      let q := fCmp (fld w.fn 0 4) (fld w.fn 4 4) (lo x) (lo y)
      ∃ r, Retires (.fcmp w) s t r 0 ∧ TruthReaches (a'.raise q.2) r w.d q.1) ∧
    (rd3 a (fun a sp => if fld w.fn 0 4 < 8 then s.rdFp t a (fld w.fn 0 4) sp else s.rdScalar t a sp) w.a w.b w.c = .ok (x, y, z, a') →
      let q := convert (fld w.fn 0 4) (fld w.fn 4 4) (bit w.fn 8) (a.mode w.rnd) x.toNat
      ∃ r, (a'.raise q.2).deliver w.d (BitVec.ofNat 64 q.1) = .ok r ∧ Retires (.fcvt w) s t r 0))

/-! Vector results -/

/-- R129, R140, R141: the element-wise floating-point, estimate and complex instructions. -/
def VectorFloatResults : Prop :=
  let k (w : RForm) : Nat := fmtWidth (fld w.fn 0 4)
  let conv (w : RForm) : BitVec 6 → Nat := immFp (fld w.fn 0 4)
  VectorGives .vadd k conv (fun w m x y _ => fAdd (fld w.fn 0 4) m x y) ∧
  VectorGives .vsub k conv (fun w m x y _ => fSub (fld w.fn 0 4) m x y) ∧
  VectorGives .vmul k conv (fun w m x y _ => fMul (fld w.fn 0 4) m x y) ∧
  VectorGives .vfma k conv (fun w m x y z => fFma (fld w.fn 0 4) m x y z) ∧
  VectorGives .vmin k conv (fun w _ x y _ => fMin (fld w.fn 0 4) x y) ∧
  VectorGives .vmax k conv (fun w _ x y _ => fMax (fld w.fn 0 4) x y) ∧
  VectorGives .vabsmax k conv (fun w _ x y _ => fAbsMax (fld w.fn 0 4) x y) ∧
  VectorGives .vrsqe (fun _ => 32) (fun _ => immFp 0) (fun _ _ x _ _ => fRsqE x) ∧
  VectorGives .vrcpe (fun _ => 32) (fun _ => immFp 0) (fun _ _ x _ _ => fRcpE x) ∧
  VectorGives .vcmul (fun _ => 32) (fun _ => immInt 32) (fun w _ x y _ => cmac (bit w.fn 0) x y 0 0) ∧
  VectorGives .vcmac (fun _ => 32) (fun _ => immInt 32) (fun w _ x y z => cmac (bit w.fn 0) x y (cxRe z) (cxIm z)) ∧
  VectorGives .vconj (fun _ => 32) (fun _ => immInt 32) (fun _ _ x _ _ => cxOf (cxRe x, 0) (sat16 (-(cxIm x)))) ∧
  VectorGives .vbfly (fun _ => 32) (fun _ => immInt 32) (fun w _ x y z => bfly (bit w.fn 0) (bit w.fn 1) x y z)

/-- R133: the integer element instructions, with saturation by fn[0] and unsigned by fn[1]. -/
def VectorIntegerResults : Prop :=
  let k (w : RForm) : Nat := eszWidth w.esz
  let conv (w : RForm) : BitVec 6 → Nat := immInt (eszWidth w.esz)
  let plain (f : Nat → Nat → Nat → Nat) (w : RForm) (_ x y _ : Nat) : Nat × Flags := (f (k w) x y, 0)
  VectorGives .viadd k conv (fun w _ x y _ => satElem w.fn (k w) (· + ·) x y) ∧
  VectorGives .visub k conv (fun w _ x y _ => satElem w.fn (k w) (· - ·) x y) ∧
  VectorGives .vimul k conv (fun w _ x y _ => satElem w.fn (k w) (· * ·) x y) ∧
  VectorGives .vand k conv (plain fun _ x y => x &&& y) ∧
  VectorGives .vor k conv (plain fun _ x y => x ||| y) ∧
  VectorGives .vxor k conv (plain fun _ x y => x ^^^ y) ∧
  VectorGives .vshl k conv (plain fun n x y => if n ≤ y then 0 else x * 2 ^ y) ∧
  VectorGives .vshr k conv (plain fun n x y => if n ≤ y then 0 else x / 2 ^ y) ∧
  VectorGives .vsra k conv (plain fun n x y => ((BitVec.ofNat n x).sshiftRight (min y n)).toNat) ∧
  VectorGives .vpopc k conv (plain fun n x _ => ((List.range n).filter x.testBit).length)

/-- The element-wise vector instructions.
Where this goes beyond the words of the rules it rests on the model's readings and choices of log 17, 64. -/
def Obligations.VectorElementResults : Prop := VectorFloatResults ∧ VectorIntegerResults

/-- R135, R136, R137, R139, R134: the instructions that move, pack, convert, choose and compare elements, into a v register or lane mask.
Where this goes beyond the words of the rules it rests on the model's readings and choices of log 17, 64. -/
def Obligations.VectorMoves : Prop :=
  ∀ (w : RForm) (s : State) (t : Tile) (a : Act), Issues s t a →
    let old (n : BitVec 5) (k j : Nat) : Nat := fld (a.bank.rv n) (k * j) k
    let on (k j : Nat) : Bool := laneOn (a.writeMask w.head) k j
    let z := eszWidth w.esz
    (∀ n, w.d = .v n → Passes s t a w.head [] none →
      (∃ r, Retires (.vperm w) s t r 0 ∧ ∀ j < 16, fld (r.bank.rv n) (32 * j) 32 =
        if on 32 j then
          let i := fld (rdVec a 32 (immInt 32) w.b) (32 * j) 32
          if i.testBit 4 then 0 else fld (rdVec a 32 (immInt 32) w.a) (32 * (i % 16)) 32
        else old n 32 j) ∧
      (∀ p, w.c = .p p → ∃ r, Retires (.vsel w) s t r 0 ∧ ∀ j < 16, fld (r.bank.rv n) (32 * j) 32 =
        if on 32 j then
          (if bit (a.bank.rp p).mask j then fld (rdVec a 32 (immInt 32) w.a) (32 * j) 32 else fld (rdVec a 32 (immInt 32) w.b) (32 * j) 32)
        else old n 32 j) ∧
      (∃ r, Retires (.vunpk w) s t r 0 ∧ ∀ j < 16, (16 * fld w.fn 0 3 + 16 ≤ 512 / z) → fld (r.bank.rv n) (32 * j) 32 =
        if on 32 j then
          let x := fld (rdVec a z (immInt z) w.a) (z * (16 * fld w.fn 0 3 + j)) z
          if bit w.fn 3 then x else wrapInt 32 (signedOf z x)
        else old n 32 j) ∧
      (z = 8 ∨ z = 16 → ∃ r, Retires (.vpack w) s t r 0 ∧ ∀ j < 512 / z, fld (r.bank.rv n) (z * j) z =
        if on z j then
          (if j < 16 then (packElem w.fn z (fld (rdVec a 32 (immInt 32) w.a) (32 * j) 32)).1
           else if j < 32 then (packElem w.fn z (fld (rdVec a 32 (immInt 32) w.b) (32 * (j - 16)) 32)).1 else 0)
        else old n z j) ∧
      (∃ r, Retires (.vscan w) s t r 0 ∧ ∀ j < 16, ∃ q, (scan (redNode (fld w.fn 0 4) (a.mode w.rnd))
          (redLeaves (fld w.fn 0 4) (a.writeMask w.head) (rdVec a 32 (redImm (fld w.fn 0 4)) w.a)))[j]? = some q ∧
        fld (r.bank.rv n) (32 * j) 32 = if on 32 j then q.1 % 2 ^ 32 else old n 32 j) ∧
      (∀ (sat : Bool), let src := fld w.fn 0 4; let dst := fld w.fn 4 4; let ws := codeWidth src; let wd := codeWidth dst
        let part := fld w.fn 8 3; let c := 512 / max ws wd
        part * min ws wd < max ws wd →
        ∃ r, Retires (if sat then .vcvts w else .vcvt w) s t r 0 ∧ ∀ j < 512 / wd, fld (r.bank.rv n) (wd * j) wd =
          if on wd j ∧ (wd ≤ ws → part * c ≤ j ∧ j < part * c + c) then
            (convert src dst sat (a.mode w.rnd)
              (fld (rdVec a ws (immCode src) w.a) (ws * (if wd ≤ ws then j - part * c else part * c + j)) ws)).1 % 2 ^ wd
          else old n wd j) ∧
      (∃ r, Retires (.vicmp w) s t r 0 ∧ ∀ j < 512 / z, fld (r.bank.rv n) (z * j) z =
        if on z j then
          (if intCond z (fld w.fn 4 4) (fld (rdVec a z (immInt z) w.a) (z * j) z) (fld (rdVec a z (immInt z) w.b) (z * j) z)
           then 2 ^ z - 1 else 0)
        else old n z j) ∧
      (let f := fld w.fn 0 4; let k := fmtWidth f
       ∃ r, Retires (.vcmp w) s t r 0 ∧ ∀ j < 512 / k, fld (r.bank.rv n) (k * j) k =
        if on k j then
          (if (fCmp f (fld w.fn 4 4) (fld (rdVec a k (immFp f) w.a) (k * j) k) (fld (rdVec a k (immFp f) w.b) (k * j) k)).1
           then 2 ^ k - 1 else 0)
        else old n k j)) ∧
    (∀ n : BitVec 3, n ≠ 0 → w.d = .p n → Passes s t a w.head [] none →
      (z = 32 → ∃ r, Retires (.vicmp w) s t r 0 ∧ (r.bank.rp n).scalar = ((r.bank.rp n).mask != 0) ∧
        ∀ j < 16, (r.bank.rp n).mask.getLsbD j = if on 32 j then
          intCond 32 (fld w.fn 4 4) (fld (rdVec a 32 (immInt 32) w.a) (32 * j) 32) (fld (rdVec a 32 (immInt 32) w.b) (32 * j) 32)
          else (a.bank.rp n).mask.getLsbD j) ∧
      (fld w.fn 0 4 = 0 → ∃ r, Retires (.vcmp w) s t r 0 ∧ (r.bank.rp n).scalar = ((r.bank.rp n).mask != 0) ∧
        ∀ j < 16, (r.bank.rp n).mask.getLsbD j = if on 32 j then
          (fCmp 0 (fld w.fn 4 4) (fld (rdVec a 32 (immFp 0) w.a) (32 * j) 32) (fld (rdVec a 32 (immFp 0) w.b) (32 * j) 32)).1
          else (a.bank.rp n).mask.getLsbD j))

/-- R130, R132, R136: the vector instructions with a scalar operand or result.
Where this goes beyond the words of the rules it rests on the model's readings and choices of log 64. -/
def Obligations.VectorScalarResults : Prop :=
  ∀ (w : RForm) (s : State) (t : Tile) (a a' : Act) (x y c : Word), Issues s t a →
    let z := eszWidth w.esz
    (Passes s t a w.head [] w.d.outPort → CanSend a w.d →
      let op := fld w.fn 0 4
      let q := treeOf (redNode op (a.mode w.rnd)) 4 (redLeaves op (a.writeMask w.head) (rdVec a 32 (redImm op) w.a)) 0
      ∃ r, (a.raise q.2).deliver w.d (if 3 ≤ op then sx 32 (BitVec.ofNat 64 q.1) else zx 32 (BitVec.ofNat 64 q.1)) = .ok r ∧
        Retires (.vred w) s t r 0) ∧
    (Passes s t a w.head [w.c] w.d.outPort → s.rdFp t a 0 w.c = .ok (c, a') → CanSend a' w.d →
      let f := fld w.fn 0 4
      let q := vdot f (a.mode w.rnd) (rdVec a (fmtWidth f) (immFp f) w.a) (rdVec a (fmtWidth f) (immFp f) w.b) (c.toNat % 2 ^ 32)
      ∃ r, (a'.raise q.2).deliver w.d (BitVec.ofNat 64 q.1) = .ok r ∧ Retires (.vdot w) s t r 0) ∧
    (Passes s t a w.head [w.b] w.d.outPort → s.rdScalar t a w.b = .ok (x, a') → CanSend a' w.d →
      ∃ r, a'.deliver w.d (BitVec.ofNat 64 (fld (rdVec a z (immInt z) w.a) (z * (x.toNat % (512 / z))) z)) = .ok r ∧
        Retires (.vextr w) s t r 0) ∧
    (∀ n, w.d = .v n → Passes s t a w.head [w.a] none → s.rdScalar t a w.a = .ok (x, a') →
      ∃ r, Retires (.vsplat w) s t r 0 ∧ r.taken = a'.taken ∧ ∀ j < 512 / z, fld (r.bank.rv n) (z * j) z =
        if laneOn (a.writeMask w.head) z j then x.toNat % 2 ^ z else fld (a.bank.rv n) (z * j) z) ∧
    (∀ n, w.d = .v n → Passes s t a w.head [w.b, w.c] none → rd3 a (s.rdScalar t) w.b w.c (.g 0) = .ok (x, y, 0, a') →
      ∃ r, Retires (.vins w) s t r 0 ∧ r.taken = a'.taken ∧ ∀ j < 512 / z, fld (r.bank.rv n) (z * j) z =
        if laneOn (a.writeMask w.head) z j then
          (if j = y.toNat % (512 / z) then x.toNat % 2 ^ z else fld (rdVec a z (immInt z) w.a) (z * j) z)
        else fld (a.bank.rv n) (z * j) z)

/-! Local memory (R9, R10, R30, R142 to R146) -/

/-- R9: the offset of a local access of n bytes is aligned and lies in the window and in local memory. -/
def InWindow (fe : FacetEl) (off : Word) (n : Nat) : Prop :=
  off.toNat % n = 0 ∧ off.toNat + n ≤ fe.actlim.toNat ∧ fe.actbase.toNat + off.toNat + n ≤ 0x10000
/-- The physical address of a local offset (R9). -/
def localPa (t : Tile) (fe : FacetEl) (off : Word) : Nat := localBase t + (fe.actbase.toNat + off.toNat)

/-- R143, R144: LD, LDV and the waiting forms LDW and LDC on a full word give the bytes as the activation sees them, and TAGQ gives the tag; LDC also buffers
the change of the tag to empty. No byte of memory and no tag changes before the commit. -/
def Obligations.LocalLoads : Prop :=
  ∀ (w : MForm) (s : State) (t : Tile) (a a' : Act) (x : Word),
    Issues s t a → Passes s t a w.head [w.a, w.b] w.d.outPort → s.rdScalar t a w.a = .ok (x, a') → CanSend a' w.d →
    let fe := (s.el t).fac a.facet
    let off := x + w.disp.signExtend 64
    let pa := localPa t fe off
    (InWindow fe off w.size.bytes → s.localBad a pa w.size.bytes = false →
      ∃ r, a'.deliver w.d (BitVec.ofNat 64 (ofBytes (s.localBytes a pa w.size.bytes))) = .ok r ∧ Retires (.ld w) s t r 0) ∧
    (∀ n, w.d = .v n → InWindow fe off 64 → s.localBad a pa 64 = false →
      ∃ r, Retires (.ldv w) s t r 0 ∧ ∀ j < 16, fld (r.bank.rv n) (32 * j) 32 =
        if laneOn (a.writeMask w.head) 32 j then ofBytes (s.localBytes a (pa + 4 * j) 4) else fld (a.bank.rv n) (32 * j) 32) ∧
    (InWindow fe off 8 → s.localTag a pa = true → s.localBad a pa 8 = false →
      (∃ r, a'.deliver w.d (BitVec.ofNat 64 (ofBytes (s.localBytes a pa 8))) = .ok r ∧ Retires (.ldw w) s t r 0) ∧
      (a.stores.length < 16 →
        ∃ r, { a' with stores := a'.stores ++ [StoreEnt.loc [] (some (pa / 8, false))] }.deliver w.d
            (BitVec.ofNat 64 (ofBytes (s.localBytes a pa 8))) = .ok r ∧ Retires (.ldc w) s t r 0)) ∧
    (InWindow fe off 8 → ∃ r, Retires (.tagq w) s t r 0 ∧ TruthReaches a' r w.d (s.localTag a pa))

/-- R30, R143: ST, STV, STF on an empty word, STX and TAGE put one entry into the store commit buffer, at the physical address of their offset: its bytes, in
the lanes of the write mask for STV, and the new tag. No byte of memory and no tag changes before the commit.
Where this goes beyond the words of the rules it rests on the model's readings and choices of log 64. -/
def Obligations.LocalStores : Prop :=
  ∀ (w : MForm) (s : State) (t : Tile) (a a1 a2 : Act) (x y : Word),
    Issues s t a → Passes s t a w.head [w.a, w.b] w.d.outPort → s.rdScalar t a w.a = .ok (x, a1) → a.stores.length < 16 →
    let fe := (s.el t).fac a.facet
    let off := x + w.disp.signExtend 64
    let pa := localPa t fe off
    let buffers (i : Instr) (b : Act) (e : StoreEnt) : Prop := Retires i s t { b with stores := a.stores ++ [e] } 0
    (s.rdScalar t a1 w.b = .ok (y, a2) →
      (InWindow fe off w.size.bytes → buffers (.st w) a2 (.loc (cellsAt pa (bytesOf w.size.bytes y.toNat)) none)) ∧
      (InWindow fe off 8 →
        (s.localTag a pa = false → buffers (.stf w) a2 (.loc (cellsAt pa (bytesOf 8 y.toNat)) (some (pa / 8, true)))) ∧
        buffers (.stx w) a2 (.loc (cellsAt pa (bytesOf 8 y.toNat)) (some (pa / 8, true))))) ∧
    (InWindow fe off 8 → buffers (.tage w) a1 (.loc [] (some (pa / 8, false)))) ∧
    (InWindow fe off 64 → ∃ cells, buffers (.stv w) a1 (.loc cells none) ∧
      ∀ (i : Nat) (b : Byte), (pa + i, b) ∈ cells ↔ i < 64 ∧ bit (a.writeMask w.head) (i / 4) = true ∧
        (bytesOf 64 (rdVec a 32 (immInt 32) w.b).toNat)[i]? = some b)

/-- R9, R38: an offset that is not aligned raises local-alignment, one outside the window or outside local memory local-bounds, both with the offset in
HADDR; the activation is gone, its facet is trapped, and no byte of memory changes. -/
def LocalTraps : Prop :=
  ∀ (w : MForm) (s : State) (t : Tile) (a a' : Act) (x : Word),
    Issues s t a → Passes s t a w.head [w.a, w.b] w.d.outPort → s.rdScalar t a w.a = .ok (x, a') →
    let fe := (s.el t).fac a.facet
    let off := x + w.disp.signExtend 64
    let traps (i : Instr) (code : Nat) : Prop := ∃ s', exec i s = .next s' ∧ (s'.el t).act = none ∧
      fld ((s'.el t).fac a.facet).hcause 0 9 = code ∧ ((s'.el t).fac a.facet).haddr = off ∧
      bit ((s'.el t).fac a.facet).hstat 8 = true ∧ ((s'.el t).fac a.facet).bank = fe.bank ∧ s'.mem = s.mem
    let beyond (n : Nat) : Prop := off.toNat % n = 0 ∧ (fe.actlim.toNat < off.toNat + n ∨ 0x10000 < fe.actbase.toNat + off.toNat + n)
    (off.toNat % 8 ≠ 0 → ∀ mk ∈ [Instr.ldw, .ldc, .tage, .tagq], traps (mk w) 0x005) ∧
    (off.toNat % 64 ≠ 0 → ∀ mk ∈ [Instr.ldv, .stv], traps (mk w) 0x005) ∧
    (off.toNat % w.size.bytes ≠ 0 → traps (.ld w) 0x005) ∧
    (beyond 8 → ∀ mk ∈ [Instr.ldw, .ldc, .tage, .tagq], traps (mk w) 0x006) ∧
    (beyond 64 → ∀ mk ∈ [Instr.ldv, .stv], traps (mk w) 0x006) ∧
    (beyond w.size.bytes → traps (.ld w) 0x006) ∧
    (∀ y a'', s.rdScalar t a' w.b = .ok (y, a'') →
      (off.toNat % 8 ≠ 0 → traps (.stf w) 0x005 ∧ traps (.stx w) 0x005) ∧
      (off.toNat % w.size.bytes ≠ 0 → traps (.st w) 0x005) ∧
      (beyond 8 → traps (.stf w) 0x006 ∧ traps (.stx w) 0x006) ∧
      (beyond w.size.bytes → traps (.st w) 0x006))

/-- R34, R35, R37: a waiting form whose word has the other tag aborts the activation; with retries left the handler is moored at the word for the tag it
needs, where one of the 16 entries is free, and nothing of the activation remains. A handler has at most one entry: an older one of it goes. -/
def TagWait : Prop :=
  ∀ (w : MForm) (s : State) (t : Tile) (a a1 a2 : Act) (x y : Word),
    Issues s t a → Passes s t a w.head [w.a, w.b] w.d.outPort → s.rdScalar t a w.a = .ok (x, a1) →
    let fe := (s.el t).fac a.facet
    let off := x + w.disp.signExtend 64
    let pa := localPa t fe off
    let others := (s.el t).moors.filter fun x => !(x.facet == a.facet && x.handler == a.handler)
    InWindow fe off 8 → (fe.handlers.get a.handler).rexp = 15 → others.length < 16 →
    let moors (i : Instr) (full : Bool) : Prop := ∃ s', exec i s = .next s' ∧ (s'.el t).act = none ∧
      (s'.el t).moors = others ++ [⟨pa / 8, a.facet, a.handler, full, none⟩] ∧
      (((s'.el t).fac a.facet).handlers.get a.handler).moored = true ∧ ((s'.el t).fac a.facet).bank = fe.bank ∧
      ((s'.el t).fac a.facet).inq = fe.inq ∧ s'.mem = s.mem
    (s.localTag a pa = false → moors (.ldw w) true ∧ moors (.ldc w) true) ∧
    (s.rdScalar t a1 w.b = .ok (y, a2) → s.localTag a pa = true → moors (.stf w) false)

/-- What stops a local access: a trap, or a tag that is not what the form waits for.
Where this goes beyond the words of the rules it rests on the model's readings and choices of log 8, 64. -/
def Obligations.LocalStops : Prop := LocalTraps ∧ TagWait

/-! Channels (R147 to R149) -/

/-- R147: a send form puts one token into the send commit buffer, with the kind and the head and tail bits of its form and the pred bit that fn[1:0] selects; the
burst rules of R148 hold. -/
def Obligations.SendResults : Prop :=
  ∀ (w : RForm) (s : State) (t : Tile) (a a' : Act) (p : BitVec 4) (x : Word),
    Issues s t a → w.d = .outp p → Passes s t a w.head [w.a] (some p) → a.sendsTo p < 16 → a.sends.length < 32 →
    let opened := bit a.bursts p.toNat
    let pr : Bool := match fld w.fn 0 2 with
      | 0 => false
      | 1 => true
      | 2 => (match w.c with
        | .p n => (a.bank.rp n).scalar
        | _ => false)
      | _ => (match s.specTok t a w.a with
        | some k => k.pred
        | none => false)
    let sends (i : Instr) (b : Act) (kind : Nat) (head tail : Bool) (v : Nat) : Prop :=
      ∃ r, Retires i s t r 0 ∧ r.sends = a.sends ++ [⟨p.toFin, mkTok a.facet kind pr head tail false v, a.fenceWait⟩] ∧
        r.taken = b.taken ∧ r.bank = a.bank ∧ r.stores = a.stores ∧ bit r.bursts p.toNat = ((opened || head) && !tail)
    (s.rdScalar t a w.a = .ok (x, a') →
      sends (.send w) a' 0 false false x.toNat ∧ sends (.sende w) a' 3 false false x.toNat ∧
      (opened = false → sends (.sendh w) a' 0 true (bit w.fn 2) x.toNat) ∧
      (opened = true → sends (.sendt w) a' 0 false true x.toNat)) ∧
    sends (.sendn w) (a.consumeAll [w.a]) 1 false false 0

/-- R149, R18: RECV writes the payload of the token it consumes, PEEK that of the token it leaves, TAGR the tag zero-extended, poisoned or not; DROP only consumes; FWD
sends the token with payload and tag unchanged. -/
def Obligations.TokenResults : Prop :=
  ∀ (w : RForm) (s : State) (t : Tile) (a : Act) (p : BitVec 4) (k : Token),
    Issues s t a → w.a = .inp p → s.portTok t a p = some k →
    let took : Vector Nat 16 := vmod a.taken p.toFin (· + 1)
    (Passes s t a w.head [w.a] none →
      (k.poison = false → ∀ n, w.d = .g n →
        (∃ r, Retires (.recv w) s t r 0 ∧ r.bank = a.bank.wg n k.value ∧ r.taken = took) ∧
        (∃ r, Retires (.peek w) s t r 0 ∧ r.bank = a.bank.wg n k.value ∧ r.taken = a.taken)) ∧
      (∃ r, Retires (.drop w) s t r 0 ∧ r.bank = a.bank ∧ r.taken = took)) ∧
    (Passes s t a w.head [w.a] w.d.outPort → CanSend a w.d → ∃ r, { a with taken := took }.deliver w.d (k.tag.setWidth 64) = .ok r ∧
      Retires (.tagr w) s t r 0) ∧
    (∀ o, w.d = .outp o → Passes s t a w.head [w.a] (some o) → a.sendsTo o < 16 → a.sends.length < 32 →
      (k.head = true → bit a.bursts o.toNat = false) → (k.tail = true → k.head = true ∨ bit a.bursts o.toNat = true) →
      ∃ r, Retires (.fwd w) s t r 0 ∧ r.sends = a.sends ++ [⟨o.toFin, k, a.fenceWait⟩] ∧ r.taken = took ∧ r.bank = a.bank)

/-! Control (R114 to R122) -/

/-- The instruction retires with the activation r, and the next index is pc (R114). -/
def JumpsTo (i : Instr) (s : State) (t : Tile) (r : Act) (pc : Word) : Prop := Becomes i s t { r with pc := pc, stalled := 0, busy := 0 }

/-- R44, R115, R116, R117: branches go to their target or to the next index; CALL leaves the index after it in its register; RET goes to the value of a; LOOP counts
its register down and goes to its target while the value before was above 1. -/
def Obligations.BranchResults : Prop :=
  ∀ (w : BForm) (v : RForm) (s : State) (t : Tile) (a a1 a2 : Act) (x y : Word), Issues s t a →
    let target : Word := w.tgt.setWidth 64
    (Passes s t a w.head [] none →
      JumpsTo (.br w) s t a target ∧
      (∀ n, w.d = .g n → JumpsTo (.call w) s t (a.wg n (a.pc + 1)) target ∧
        (1 < (a.bank.rg n).toNat → JumpsTo (.loop w) s t (a.wg n (a.bank.rg n - 1)) target) ∧
        ((a.bank.rg n).toNat ≤ 1 → JumpsTo (.loop w) s t (a.wg n 0) (a.pc + 1)))) ∧
    (Passes s t a w.head [w.a, w.b] none →
      (s.rdScalar t a w.a = .ok (x, a1) → s.rdScalar t a1 w.b = .ok (y, a2) →
        let goes (b : Bool) : Prop := JumpsTo (.brc w) s t a2 (if b then target else a.pc + 1)
        (w.cond = .eq → goes (x == y)) ∧ (w.cond = .ne → goes (x != y)) ∧ (w.cond = .lt → goes (x.slt y)) ∧
        (w.cond = .ge → goes (y.sle x)) ∧ (w.cond = .ltu → goes (x.ult y)) ∧ (w.cond = .geu → goes (y.ule x))) ∧
      (∀ n, w.a = .p n →
        (w.cond = .ps → JumpsTo (.brc w) s t a (if (a.bank.rp n).scalar then target else a.pc + 1)) ∧
        (w.cond = .pc → JumpsTo (.brc w) s t a (if (a.bank.rp n).scalar then a.pc + 1 else target))) ∧
      (∀ k, s.specTok t a w.a = some k →
        (w.cond = .er → JumpsTo (.brc w) s t (a.consume w.a) (if k.kind = 3 then target else a.pc + 1)) ∧
        (w.cond = .nl → JumpsTo (.brc w) s t (a.consume w.a) (if k.kind = 1 then target else a.pc + 1)) ∧
        (w.cond = .tp → JumpsTo (.brc w) s t (a.consume w.a) (if k.pred then target else a.pc + 1)))) ∧
    (Passes s t a v.head [v.a] none → s.rdScalar t a v.a = .ok (x, a1) → JumpsTo (.ret v) s t a1 x)

/-- R31: what a commit makes permanent. The activation ends; its registers, flags and mode become those of the facet; the tokens it took leave their queues and its
sends enter their output queues in order; its local stores change memory, each byte once more, and its device requests enter the outbound
queue. -/
structure Commits (s s' : State) (t : Tile) (a : Act) : Prop where
  ended : (s'.el t).act = none
  bank : ((s'.el t).fac a.facet).bank = a.bank
  rmode : ((s'.el t).fac a.facet).rmode = a.rmode
  masks : ((s'.el t).fac a.facet).masks = a.masks
  taken : ∀ p, ((s'.el t).fac a.facet).inq.get p = (((s.el t).fac a.facet).inq.get p).drop (a.taken.get p)
  sends : ∀ p, (((s'.el t).outq.get p).map (·.tok)) = ((s.el t).outq.get p).map (·.tok) ++ (a.sends.filter (·.port == p)).map (·.tok)
  others : ∀ f, f ≠ a.facet → ((s'.el t).fac f).bank = ((s.el t).fac f).bank ∧ ((s'.el t).fac f).inq = ((s.el t).fac f).inq
  mem : s'.mem = a.stores.foldl Memory.applyEnt s.mem
  retry : (((s'.el t).fac a.facet).handlers.get a.handler).retry = 0 ∧ (((s'.el t).fac a.facet).handlers.get a.handler).arm = false
  elsewhere : ∀ u : Tile, u.key ≠ t.key → s'.el u = s.el u

/-- R31, R118: END commits, and HALT commits and sets HALTED, wherever no burst is open and the channel record, the outbound queue and the undo log have room;
ABORT under an unlimited retry budget and YIELD leave nothing of the activation: registers, queues and memory stay.
Where this goes beyond the words of the rules it rests on the model's readings and choices of log 8, 19. -/
def Obligations.ActivationEnds : Prop :=
  ∀ (w : RForm) (s : State) (t : Tile) (a : Act), Issues s t a → Passes s t a w.head [] none →
    (s.commitBlock t a = .go →
      (∃ s', exec (.endAct w) s = .next s' ∧ Commits s s' t a ∧ ((s'.el t).fac a.facet).hstat = a.hstat ((s.el t).fac a.facet)) ∧
      (∃ s', exec (.halt w) s = .next s' ∧ Commits s s' t a ∧ bit ((s'.el t).fac a.facet).hstat 9 = true)) ∧
    (let gone (i : Instr) : Prop := ∃ s', exec i s = .next s' ∧ s'.el t = { s.el t with act := none } ∧ s'.mem = s.mem ∧
        (∀ u : Tile, u.key ≠ t.key → s'.el u = s.el u) ∧ s'.reqs = s.reqs
     gone (.yield w) ∧ ((((s.el t).fac a.facet).handlers.get a.handler).rexp = 15 → gone (.abort w)))

/-- R38: a trap aborts the activation; HCAUSE takes CODE, HIDX, VALID, PCIDX and the count raised by one up to 255; HADDR the value that the cause's entry states, and
TRAPPED becomes 1. No other register of the facet changes and no byte of memory. TRAP raises cause 0x010 plus its immediate (R119), an
unassigned opcode cause 0x001 (R60), both with HADDR 0. -/
def Obligations.TrapTaken : Prop :=
  ∀ (s : State) (t : Tile) (a : Act), Issues s t a →
    let fe := (s.el t).fac a.facet
    let traps (i : Instr) (code : Nat) : Prop := ∃ s', exec i s = .next s' ∧ (s'.el t).act = none ∧
      let fe' := (s'.el t).fac a.facet
      fld fe'.hcause 0 9 = code ∧ fld fe'.hcause 9 6 = a.handler.val ∧ fld fe'.hcause 15 1 = 1 ∧ fld fe'.hcause 16 11 = fld a.pc 0 11 ∧
      fld fe'.hcause 27 5 = 0 ∧ fld fe'.hcause 32 8 = min 255 (fld fe.hcause 32 8 + 1) ∧ fld fe'.hcause 40 24 = 0 ∧ fe'.haddr = 0 ∧
      bit fe'.hstat 8 = true ∧ (∀ i, i ≠ 8 → fe'.hstat.getLsbD i = fe.hstat.getLsbD i) ∧
      { fe' with hcause := fe.hcause, haddr := fe.haddr, hstat := fe.hstat } = fe ∧
      (∀ f, f ≠ a.facet → (s'.el t).fac f = (s.el t).fac f) ∧ (∀ u : Tile, u.key ≠ t.key → s'.el u = s.el u) ∧ s'.mem = s.mem
    (∀ w : IForm, Passes s t a w.head [] none → w.imm.toNat < 16 → traps (.trap w) (0x010 + w.imm.toNat)) ∧
    (∀ w : Word, traps (.illegalOpcode w) 0x001)

/-- R120, R121, R122, R12: ARM buffers the index in a; MASK changes MASKS in the bits of b to those of a and delivers the old value; MFS delivers the named register as the
activation sees it; MTS writes RMODE, PRIO, MASKS and clears the sticky flags named, and any other write raises privileged-write. -/
def Obligations.HandlerAndSpecialRegisters : Prop :=
  ∀ (w : RForm) (s : State) (t : Tile) (a a1 a2 : Act) (x y : Word), Issues s t a →
    let fe := (s.el t).fac a.facet
    let sel := fld w.fn 0 8
    (Passes s t a w.head [w.a] none → s.rdScalar t a w.a = .ok (x, a1) →
      Retires (.arm w) s t { a1 with arms := a.arms ++ [x.setWidth 6] } 0 ∧
      (sel = 0x09 → Retires (.mts w) s t { a1 with rmode := x.setWidth 2 } 0) ∧
      (sel = 0x0A → Retires (.mts w) s t { a1 with prio := some (x.setWidth 3) } 0) ∧
      (sel = 0x0B → Retires (.mts w) s t { a1 with masks := x } 0) ∧
      (sel = 0x01 → bit x 8 = false → bit x 9 = false →
        Retires (.mts w) s t { a1 with raised := a1.raised &&& ~~~(x.setWidth 6), cleared := a1.cleared ||| x.setWidth 6 } 0) ∧
      (sel ∉ [0x01, 0x09, 0x0A, 0x0B] → ∃ s', exec (.mts w) s = .next s' ∧ (s'.el t).act = none ∧
        fld ((s'.el t).fac a.facet).hcause 0 9 = 0x008 ∧ bit ((s'.el t).fac a.facet).hstat 8 = true ∧
        ((s'.el t).fac a.facet).bank = fe.bank)) ∧
    (Passes s t a w.head [w.a, w.b] w.d.outPort → s.rdScalar t a w.a = .ok (x, a1) → s.rdScalar t a1 w.b = .ok (y, a2) → CanSend a2 w.d →
      ∃ r, { a2 with masks := (a.masks &&& ~~~y) ||| (x &&& y) }.deliver w.d a.masks = .ok r ∧ Retires (.mask w) s t r 0) ∧
    (Passes s t a w.head [] w.d.outPort → CanSend a w.d → ∃ v r, a.deliver w.d v = .ok r ∧ Retires (.mfs w) s t r 0 ∧
      (sel = 0x01 → v = a.hstat fe) ∧ (sel = 0x02 → v = fe.hcause) ∧ (sel = 0x03 → v = fe.haddr) ∧
      (sel = 0x04 → v.toNat = (s.el t).curFacet.val) ∧ (sel = 0x05 → v.toNat = fe.actbase.toNat) ∧ (sel = 0x06 → v.toNat = fe.actlim.toNat) ∧
      (sel = 0x07 → v.toNat = fe.isbase.toNat) ∧ (sel = 0x08 → v.toNat = fe.islim.toNat) ∧ (sel = 0x09 → v.toNat = a.rmode.toNat) ∧
      (sel = 0x0A → v.toNat = (match a.prio with
        | some q => q.toNat
        | none => fld (fe.handlers.get a.handler).entry 17 3)) ∧
      (sel = 0x0B → v = a.masks) ∧ (sel = 0x0C → v.toNat = (s.el t).fenable.toNat) ∧ (sel = 0x0D → v = BitVec.ofNat 64 (s.die t.die).time))

/-- R123, R124, R244, R245: a FENCE at a scope that orders retires once every device request of the facet's earlier activations is performed at that scope, and notes the
activation's own earlier requests for what follows; at any other scope it only retires. ORDER sends the value of a in a data token that waits for
the activation's earlier accesses.
Where this goes beyond the words of the rules it rests on the model's readings and choices of log 26. -/
def Obligations.FenceAndOrder : Prop :=
  ∀ (w : MForm) (s : State) (t : Tile) (a a' : Act) (x : Word), Issues s t a →
    (Passes s t a w.head [] none →
      (w.scope = .act ∨ w.scope = .elem → Retires (.fence w) s t a 0) ∧
      (w.scope ∈ [Scope.pair, .region, .die, .device, .system] → s.facetPerformed t a.facet w.scope = true →
        Retires (.fence w) s t { a with fences := a.fences ++ [(a.reqs, w.scope)] } 0) ∧
      (w.scope ∈ [Scope.pair, .region, .die, .device, .system] → s.facetPerformed t a.facet w.scope = false →
        Becomes (.fence w) s t { a with stalled := 0 })) ∧
    (∀ p, w.d = .outp p → Passes s t a w.head [w.a] (some p) → s.rdScalar t a w.a = .ok (x, a') → a.sendsTo p < 16 → a.sends.length < 32 →
      ∃ r, Retires (.order w) s t r 0 ∧ r.bank = a.bank ∧ r.taken = a'.taken ∧
        r.sends = a.sends ++ [⟨p.toFin, mkTok a.facet 0 false false false false x.toNat, a.fenceWait ++ a.orderWait w.scope⟩])

/-! Device memory from an element (R227 to R234) -/

/-- The request q of an activation at a device location (R227, R228): who asks, for which bytes, in which form and at which scope. -/
def AsksFor (q : Req) (t : Tile) (a : Act) (form : Nat) (l : Word) (pa size : Nat) (sc : Scope) : Prop :=
  q.src = .elem t a.facet a.handler (a.pc.toNat % 2048) ∧ q.facet = a.facet ∧ q.form = form ∧ q.loc = l ∧ q.addr = pa ∧ q.size = size ∧
  q.scope = sc ∧ q.confirm = false
/-- Only the activation of tile t, the list of requests with the next free number, and the edge TLBs change. -/
def RequestFrame (s s' : State) (t : Tile) : Prop :=
  (∀ u : Tile, u.key ≠ t.key → s'.el u = s.el u) ∧ { s'.el t with act := none } = { s.el t with act := none } ∧
  { s' with elements := s.elements, reqs := s.reqs, dies := s.dies, nextId := s.nextId } = s ∧
  (∀ d, { s'.die d with tlb := (s.die d).tlb } = s.die d)
/-- The instruction sends a request and holds its slot until the reply (R228): registers, memory and every other element stay. -/
def WaitsForReply (i : Instr) (s : State) (t : Tile) (a b : Act) (form : Nat) (l : Word) (pa size : Nat) (sc : Scope) (d : Spec)
    (mask : BitVec 16) (truth : Bool) : Prop :=
  ∃ s' q, exec i s = .next s' ∧ (s'.el t).act = some { b with stalled := 0, wait := .reply q.id d mask truth } ∧ q ∈ s'.reqs ∧
    q.stage = .travelling ∧ AsksFor q t a form l pa size sc ∧ (∀ p ∈ s.reqs, p.id ≠ q.id → p ∈ s'.reqs) ∧ RequestFrame s s' t

/-- R228, R229, R230, R232: MLD, MLDW, MLDC and MTAGQ, at a location that the checks of R227 let through, send the request of their form for the bytes of their
size and hold their slot for its reply; the location is a plus the displacement (R227). In a facet without lockstep (R388). Under null-skip with a null in
b they do nothing but consume. -/
def DeviceLoads : Prop :=
  ∀ (w : MForm) (s : State) (t : Tile) (a a' : Act) (x : Word) (pa : Nat) (leaf : Word),
    Issues s t a → Passes s t a w.head [w.a, w.b] w.d.outPort → s.rdScalar t a w.a = .ok (x, a') → s.locked t a.facet = false →
    let l := x + w.disp.signExtend 64
    let n := w.size.bytes
    let asks (i : Instr) (form : Nat) (truth : Bool) : Prop :=
      (s.nullData t a w = true → Retires i s t (a.consumeAll [w.a, w.b]) 0) ∧
      (s.nullData t a w = false → s.elemWhere t a.facet l n form = .here pa leaf →
        WaitsForReply i s t a a' form l pa n w.scope w.d (a.writeMask w.head) truth)
    asks (.mld w) 0 false ∧ asks (.mldw w) 2 false ∧ asks (.mtagq w) 7 true ∧ (a.stores.length < 16 → asks (.mldc w) 3 false)

/-- R233: MATOM and MCAS send a read-modify-write request for the word or half word at the value of a, with the values of b and c as operands, and hold their
slot for its reply. -/
def DeviceAtomics : Prop :=
  ∀ (w : RForm) (s : State) (t : Tile) (a a' : Act) (x y z : Word) (pa : Nat) (leaf : Word),
    Issues s t a → Passes s t a w.head [w.a, w.b, w.c] w.d.outPort → rd3 a (s.rdScalar t) w.a w.b w.c = .ok (x, y, z, a') →
    s.locked t a.facet = false → a.stores.length < 16 →
    let n := if fld w.fn 4 2 = 2 then 4 else 8
    let form := if bit w.fn 9 then 9 else 8
    let sc := Scope.ofBits (BitVec.ofNat 3 (fld w.fn 6 3))
    s.elemWhere t a.facet x n form = .here pa leaf →
    let asks (i : Instr) (cas : Bool) : Prop := ∃ s' q, exec i s = .next s' ∧
      (s'.el t).act = some { a' with stalled := 0, wait := .reply q.id w.d 0xFFFF false } ∧ q ∈ s'.reqs ∧ q.stage = .travelling ∧
      AsksFor q t a form x pa n sc ∧ q.cas = cas ∧ q.op = fld w.fn 0 4 ∧ q.data = y.toNat % 2 ^ (8 * n) ∧ q.data2 = z.toNat % 2 ^ (8 * n) ∧
      RequestFrame s s' t
    asks (.matom w) false ∧ asks (.mcas w) true

/-- The instructions that ask a home and wait. -/
def Obligations.DeviceAsks : Prop := DeviceLoads ∧ DeviceAtomics

/-- R228, R232: MST, MSTF, MSTX and MTAGE put one request into the store commit buffer and retire: nothing leaves the element, and no byte changes, before the
commit. The data is the value of b, or a vector for 64 bytes. Under null-skip with a null in b nothing is stored (R234). -/
def DeviceStores : Prop :=
  ∀ (w : MForm) (s : State) (t : Tile) (a a1 a2 : Act) (x : Word) (y pa : Nat) (leaf : Word),
    Issues s t a → Passes s t a w.head [w.a, w.b] w.d.outPort → s.rdScalar t a w.a = .ok (x, a1) → s.rdStoreData t a1 w = .ok (y, a2) →
    a.stores.length < 16 →
    let l := x + w.disp.signExtend 64
    let n := w.size.bytes
    let buffers (i : Instr) (form : Nat) : Prop :=
      (s.nullData t a w = true → Retires i s t (a.consumeAll [w.a, w.b]) 0) ∧
      (s.nullData t a w = false → s.elemWhere t a.facet l n form = .here pa leaf → ∃ s' q, exec i s = .next s' ∧
        (s'.el t).act = some { a2 with stores := a.stores ++ [.dev q], reqs := a.reqs ++ [q.id], pc := a.pc + 1, stalled := 0, busy := 0 } ∧
        AsksFor q t a form l pa n w.scope ∧ q.data = y ∧ q.stage = .queued ∧ s'.mem = s.mem ∧ s'.reqs = s.reqs ∧
        (∀ u : Tile, u.key ≠ t.key → s'.el u = s.el u) ∧ { s'.el t with act := none } = { s.el t with act := none })
    buffers (.mst w) 1 ∧ buffers (.mstf w) 4 ∧ buffers (.mstx w) 5 ∧ buffers (.mtage w) 6

/-- R227, R232: TLD reads the area of the paired MT in 2 issue cycles, with the requester's own earlier stores over it, and waits while another requester has the
bank (R208); TST buffers a store to it. The offset is aligned and ends within the area. Under null-skip with a null in b neither does anything
but consume (R234). -/
def PairAccess : Prop :=
  ∀ (w : MForm) (s : State) (t : Tile) (a a1 a2 : Act) (x : Word) (y : Nat) (m : MtMode),
    Issues s t a → Passes s t a w.head [w.a, w.b] w.d.outPort → s.rdScalar t a w.a = .ok (x, a1) → s.mtMode t.pair a.facet = some m →
    let off := x + w.disp.signExtend 64
    let n := w.size.bytes
    let pa := mtBase t.pair + 8 * m.mbase + off.toNat
    (s.nullData t a w = true → ∀ mk ∈ [Instr.tld, .tst], Retires (mk w) s t (a.consumeAll [w.a, w.b]) 0) ∧
    (s.nullData t a w = false → off.toNat % n = 0 → off.toNat + n ≤ 8 * m.msize → m.mbase + m.msize ≤ 0x20000 →
    let q := s.newReq t a 0 off pa n .act pairLeaf
    let bank := accessOf q.words
    let seen := s.viewBytes q (overlayOf (s.ownQueued t true ++ a.devEnts) pa n)
    (bank.all (s.turns.free (portTurn t 255)) = true → s.mem.bad = [] → ∀ r : Act,
      a1.deliverLoad w.d (a.writeMask w.head) (ofBytes (seen.map (·.1))) (seen.any (·.2)) off = .ok r → Retires (.tld w) s t r 1) ∧
    (bank.all (s.turns.free (portTurn t 255)) = false → Becomes (.tld w) s t { a with stalled := 0 }) ∧
    (bank.all (s.turns.free (portTurn t 255)) = true → s.mem.bad = [] → s.reqs = [] → a.stores = [] → (∀ d, (s.die d).bw = []) →
      (List.range n).all (fun i => !s.mem.isPoison (pa + i)) = true → n ≤ 8 → ∀ g, w.d = .g g →
      Retires (.tld w) s t (a1.wg g (BitVec.ofNat 64 (ofBytes ((List.range n).map fun i => s.mem.byte (pa + i))))) 1) ∧
    (s.rdStoreData t a1 w = .ok (y, a2) → a.stores.length < 16 → ∃ s' q, exec (.tst w) s = .next s' ∧
      (s'.el t).act = some { a2 with stores := a.stores ++ [.dev q], reqs := a.reqs ++ [q.id], pc := a.pc + 1, stalled := 0, busy := 0 } ∧
      AsksFor q t a 1 off pa n .act ∧ q.data = y ∧ q.pairPath = true ∧ s'.mem = s.mem ∧ s'.reqs = s.reqs))

/-- The buffered stores to device memory, and the accesses over the pair path.
Where this goes beyond the words of the rules it rests on the model's readings and choices of log 65. -/
def Obligations.DeviceStoresAndPair : Prop := DeviceStores ∧ PairAccess

/-- The reply to request id is on its way to the activation a of tile t, which holds its slot for it. -/
structure Answered (s : State) (t : Tile) (a : Act) (id : Nat) (q : Req) (d : Spec) (mask : BitVec 16) (truth : Bool) (r : Reply) : Prop where
  found : s.findReq id = some q
  stage : q.stage = .replied r
  src : ∃ f h pc, q.src = .elem t f h pc
  act : (s.el t).act = some a
  wait : a.wait = .reply id d mask truth
/-- R228, R229, R230, R231: a reply ends the wait. Plain and waiting loads deliver the value, MTAGQ the truth value, each to the destination, and retire; consuming
loads and atomics also keep the word's new content as a hold; a need not met moors the handler on its watch, a refusal aborts, and a cause
traps with the location in HADDR. -/
def LoadReplies : Prop :=
  ∀ (s : State) (t : Tile) (a : Act) (id : Nat) (q : Req) (n : BitVec 6) (mask : BitVec 16) (truth : Bool) (r : Reply),
    Answered s t a id q (.g n) mask truth r →
    let ends (b : Act) : Prop := ∃ s', exec (.requestReply id) s = .next s' ∧ s'.findReq id = none ∧ s'.mem = s.mem ∧
      (s'.el t).act = some { b with wait := .none, pc := a.pc + 1, stalled := 0, busy := 0 } ∧ (∀ u : Tile, u.key ≠ t.key → s'.el u = s.el u)
    let gone (P : State → Prop) : Prop := ∃ s', exec (.requestReply id) s = .next s' ∧ s'.findReq id = none ∧ s'.mem = s.mem ∧
      (s'.el t).act = none ∧ ((s'.el t).fac a.facet).bank = ((s.el t).fac a.facet).bank ∧ P s'
    let h := ((s.el t).fac a.facet).handlers.get a.handler
    (∀ v, r = .data v false → q.form = 0 ∨ q.form = 2 → truth = false → ends (a.wg n (BitVec.ofNat 64 v))) ∧
    (∀ b, r = .truth b → ends (a.wg n (if b then 1 else 0))) ∧
    (∀ v, r = .data v false → q.form = 3 ∨ q.form = 8 ∨ q.form = 9 → ∃ c : Req,
      ends { a.wg n (BitVec.ofNat 64 v) with stores := a.stores ++ [.hold c], reqs := a.reqs ++ [c.id] } ∧ c.addr = q.addr ∧ c.id = s.nextId ∧
      (q.form = 3 → c.newTag = some false ∧ c.size = 0) ∧
      (q.form ≠ 3 → q.cas = false → c.data = atomOp q.op q.size v q.data ∧ c.size = q.size) ∧
      (q.form ≠ 3 → q.cas = true → v = q.data → c.data = q.data2 ∧ c.size = q.size) ∧
      (q.form ≠ 3 → q.cas = true → v ≠ q.data → c.size = 0)) ∧
    (∀ v, r = .data v true → q.form = 0 → truth = false → gone fun s' => fld ((s'.el t).fac a.facet).hcause 0 9 = 0x081 ∧
      ((s'.el t).fac a.facet).haddr = q.loc) ∧
    (∀ c, r = .cause c → c < 512 → gone fun s' => fld ((s'.el t).fac a.facet).hcause 0 9 = c ∧ ((s'.el t).fac a.facet).haddr = q.loc ∧
      bit ((s'.el t).fac a.facet).hstat 8 = true) ∧
    (r = .refused → h.rexp = 15 → gone fun s' => ((s'.el t).fac a.facet) = (s.el t).fac a.facet) ∧
    (let others := (s.el t).moors.filter fun x => !(x.facet == a.facet && x.handler == a.handler)
     ∀ i, r = .wait i → h.rexp = 15 → others.length < 16 → gone fun s' =>
      (s'.el t).moors = others ++ [⟨q.addr / 8, a.facet, a.handler, true, some i⟩] ∧
      (((s'.el t).fac a.facet).handlers.get a.handler).moored = true)

/-- R36, R228, R229, R383: the reply of a watch clears the mooring entry that names it; a request that returns with a cause after its commit, or a watch that does,
traps its facet and nothing aborts; while a rollback is in its steps 1 and 2 such a return is dropped. The wake is stated for a facet without
lockstep (R388). -/
def LateReplies : Prop :=
  ∀ (s : State) (t : Tile) (id : Nat) (q : Req) (f : Facet) (h : Fin 64) (pc : Nat),
    s.findReq id = some q → q.src = .elem t f h pc → s.waitPending id = false →
    (∀ b, q.stage = .replied (.truth b) → q.form = 0xA → s.locked t f = false → ∃ s', exec (.watchWake id) s = .next s' ∧ s'.findReq id = none ∧
      (s'.el t).moors = (s.el t).moors.filter (fun m => m.watch != some id) ∧ (s'.el t).act = (s.el t).act ∧
      { s' with elements := s.elements, reqs := s.reqs } = s ∧ (∀ u : Tile, u.key ≠ t.key → s'.el u = s.el u) ∧
      (∀ m ∈ (s.el t).moors, m.watch = some id → (((s'.el t).fac m.facet).handlers.get m.handler).moored = false)) ∧
    (∀ c, q.stage = .replied (.cause c) → q.asks = false ∨ q.form = 0xA → s.dropsReplies t = true → ∃ s', exec (.asyncTrap id) s = .next s' ∧
      s'.findReq id = none ∧ (s'.el t).act = (s.el t).act ∧ s'.mem = s.mem ∧ ((s'.el t).fac f).hcause = ((s.el t).fac f).hcause ∧
      ((s'.el t).fac f).hstat = ((s.el t).fac f).hstat) ∧
    (∀ c, q.stage = .replied (.cause c) → q.asks = false ∨ q.form = 0xA → s.dropsReplies t = false → c < 512 → pc < 2048 → ∃ s',
      exec (.asyncTrap id) s = .next s' ∧
      s'.findReq id = none ∧ (s'.el t).act = (s.el t).act ∧ s'.mem = s.mem ∧
      (let fe := (s'.el t).fac f
       fld fe.hcause 0 9 = c ∧ fld fe.hcause 9 6 = h.val ∧ fld fe.hcause 16 11 = pc ∧ fe.haddr = q.loc ∧ bit fe.hstat 8 = true))
/-- What comes back from a home.
Where this goes beyond the words of the rules it rests on the model's readings and choices of log 9, 22. -/
def Obligations.Replies : Prop := LoadReplies ∧ LateReplies

/-! Requests on their way (R218 to R243, R378, R388, R441) -/

/-- Only the parts named by the update of a region's fields change: every other region stays, and everything outside the regions. -/
def OnlyRegion (s s' : State) (r : RegionId) : Prop := { s' with regions := s.regions } = s ∧ ∀ q, q ≠ r → s'.rg q = s.rg q
/-- Every byte but those of n bytes from pa on stays, and every tag but that of the word of pa. -/
def MemoryElsewhere (m m' : Memory) (pa n : Nat) : Prop :=
  (∀ a, ¬(pa ≤ a ∧ a < pa + n) → m'.byte a = m.byte a) ∧ (∀ a, a / 8 ≠ pa / 8 → m'.isFull a = m.isFull a)
/-- n bytes of data stand at pa. -/
def Holds (m : Memory) (pa n data : Nat) : Prop := ∀ i, i < n → (m.byte (pa + i)).toNat = data / 2 ^ (8 * i) % 2 ^ 8

/-- R241, R378: the head of an outbound queue leaves it once nothing holds it back; a breakwater-class store then enters the breakwater of its issuer's die
behind what stands there, and no byte of memory changes.
Where this goes beyond the words of the rules it rests on the model's readings and choices of log 26. -/
def Obligations.RequestsLeave : Prop :=
  (∀ (s : State) (t : Tile) (f : Facet) (id : Nat) (rest : List Nat) (q : Req), ((s.el t).fac f).outbound = id :: rest →
    s.findReq id = some q → q.stage = .queued → s.mayLeave t f q = true → s.locked t q.facet = false →
    ∃ s' q', exec (.requestLeave t f) s = .next s' ∧ ((s'.el t).fac f).outbound = rest ∧ s'.findReq id = some q' ∧
      q' = { q with stage := .travelling, order := s.nextId } ∧ { s' with elements := s.elements, reqs := s.reqs, nextId := s.nextId } = s ∧
      (∀ u : Tile, u.key ≠ t.key → s'.el u = s.el u)) ∧
  (∀ (s : State) (id : Nat) (q : Req) (r : RegionId), s.findReq id = some q → q.region = some r → q.stage = .travelling → q.bwClass = true →
    s.inOrder q = true → q.confirm = false → isHbm q.addr = true → s.bwRoom q.die r q.reach q.words.length = .ok →
    ∃ s' e q', exec (.breakwaterAccept id) s = .next s' ∧ (s'.die q.die).bw = (s.die q.die).bw ++ [e] ∧ e.region = r ∧ e.reach = q.reach ∧
      e.at_ = s.cycle ∧ e.kind = .store id q.addr (bytesOf q.size q.data) q.gl q.cls q.poison ∧ (∀ d, d ≠ q.die → s'.die d = s.die d) ∧
      s'.findReq id = some q' ∧ q'.stage = .accepted ∧ s'.mem = s.mem ∧ s'.elements = s.elements ∧ s'.mts = s.mts)

/-- A request that has arrived at its home and that nothing there holds back (R208, R219, R220, R230, R241, R250, R441). -/
structure AtHome (s : State) (id : Nat) (q : Req) : Prop where
  found : s.findReq id = some q
  stage : q.stage = .travelling
  kind : q.bwClass = false
  order : s.inOrder q = true
  lock : s.lockOk q = true
  rate : s.regulates q = false
  own : s.behindOwn q = false
  pending : s.behindPending q = false
  parked : s.behindParked q = false
  turn : (accessOf q.words).all (s.turns.free (reqTurn id)) = true
  exam : q.words.any (fun w => s.reexam.contains w) = false
  open_ : s.homeRefuses q = false
  free : s.behindHold q = false
/-- R218, R219, R220: at a home in HBM a filling store writes its bytes and fills its word, an emptying form empties the tag, and reads answer what the word holds, change no byte and
no tag. A request of an element whose need is not met leaves a watch and answers with it; a filling store defers. Stated of the accesses while no
stored bit has flipped.
Where this goes beyond the words of the rules it rests on the model's readings and choices of log 9, 21, 22, 57, 58, 65. -/
def Obligations.HomeAccess : Prop :=
  ∀ (s : State) (id : Nat) (q : Req), SafeState s → AtHome s id q → isHbm q.addr = true → q.addr % 8 = 0 → q.size = 8 → q.confirm = false →
    (s.needMet q = true → s.homeRoom q = .ok → s.mem.bad = [] →
      (q.form = 4 ∨ q.form = 5 → ∃ s', exec (.homeAccess id) s = .next s' ∧
        Holds s'.mem q.addr 8 ((if q.cover = 0xFF then q.data else coverMix q.cover (s.mem.read q.addr 8) q.data) % 2 ^ 64) ∧
        s'.mem.isFull q.addr = true ∧ MemoryElsewhere s.mem s'.mem q.addr 8 ∧ s'.elements = s.elements) ∧
      (q.form = 6 → ∃ s', exec (.homeAccess id) s = .next s' ∧ s'.mem.cells = s.mem.cells ∧ s'.mem.isFull q.addr = false ∧
        MemoryElsewhere s.mem s'.mem q.addr 8 ∧ s'.elements = s.elements) ∧
      (q.form = 0 ∨ q.form = 2 → q.overlay = [] → (∀ d, (s.die d).bw = []) → ∃ s' q' p, exec (.homeAccess id) s = .next s' ∧
        s'.findReq id = some q' ∧ q'.stage = .replied (.data (s.mem.read q.addr 8) p) ∧ s'.mem.cells = s.mem.cells ∧ s'.mem.full = s.mem.full ∧
        s'.elements = s.elements)) ∧
    (s.needMet q = false → s.reqs.all (fun p => !p.deferred) = true → q.src.isElem = true →
      (q.form = 2 ∨ q.form = 3 ∨ q.form = 9 → id < s.nextId → ∃ s' w q', exec (.homeAccess id) s = .next s' ∧ w ∈ s'.reqs ∧
        w.id = s.nextId ∧ w.form = 0xA ∧ w.stage = .slot ∧ w.addr = q.addr ∧ s'.findReq id = some q' ∧ q'.stage = .replied (.wait w.id) ∧
        s'.mem = s.mem) ∧
      (q.form = 4 → ∃ s' q', exec (.homeAccess id) s = .next s' ∧ q' ∈ s'.reqs ∧ q'.id = q.id ∧ q'.stage = .slot ∧ s'.mem = s.mem))

/-- R220, R223: the request first in line at a word under re-examination is performed, in its turn at the word, if its need is met and otherwise ends the
examination; a watch whose need is met answers and changes no byte and no tag; a request deferred for its budget returns with the cause of R223. -/
def DeferredRequests : Prop :=
  ∀ (s : State) (id : Nat) (q : Req), SafeState s → s.findReq id = some q → q.deferred = true →
    (∀ w, q.words.find? (fun w => s.reexam.contains w) = some w → (s.deferredOf w).head?.map (·.id) = some id →
      (s.needMet q = false → ∃ s', exec (.reexamination id) s = .next s' ∧ { s' with reexam := s.reexam } = s ∧ s'.reexam = sdel s.reexam w) ∧
      (let turn := (accessOf q.words).all (s.turns.free (reqTurn id))
       (s.needMet q = true → q.form = 0xA → q.confirm = false → s.homeRoom q = .ok → s.behindPending q = false → turn = true → ∃ s' q',
        exec (.reexamination id) s = .next s' ∧ s'.findReq id = some q' ∧ q'.stage = .replied (.truth true) ∧ s'.elements = s.elements ∧
        (q.stage = .slot → s'.mem = s.mem)) ∧
      (s.needMet q = true → q.form = 4 → s.homeRoom q = .ok → s.behindHold q = false → isHbm q.addr = true → q.addr % 8 = 0 → q.size = 8 →
        q.confirm = false → q.cover = 0xFF → q.stage = .slot → s.behindPending q = false → s.mem.bad = [] → turn = true →
        ∃ s', exec (.reexamination id) s = .next s' ∧ Holds s'.mem q.addr 8 (q.data % 2 ^ 64) ∧
        s'.mem.isFull q.addr = true ∧ MemoryElsewhere s.mem s'.mem q.addr 8))) ∧
    (q.arrived + q.budget * 1000 ≤ s.homeTime q.addr → ∃ s' q', exec (.budgetExpiry id) s = .next s' ∧ s'.findReq id = some q' ∧
      q'.stage = .replied (.cause 0x084) ∧ s'.elements = s.elements ∧ s'.dies = s.dies ∧ (q.stage = .slot → s'.mem = s.mem)) ∧
    (s.homeTime q.addr < q.arrived + q.budget * 1000 → exec (.budgetExpiry id) s = .next s)

/-- R388, R441, R221: a primary's item whose mirror item is 64 cycles late rolls its region back; a regulator whose credit suffices lets its oldest request go on and
charges the granule; the formatting of a mooring list ends with RDY. -/
def Controllers : Prop :=
  (∀ (s : State) (r : RegionId) (y : LockItem), (s.rg r).lockPrim.find? (fun y => decide (y.cycle + 64 ≤ s.cycle)) = some y →
    (s.rg r).stop = false → ∃ s', exec (.lockstepTimeout r) s = .next s' ∧ (s'.rg r).rollback.isSome = true ∧ (s'.rg r).lockPrim = [] ∧
      (s'.rg r).lockMirror = [] ∧ s'.mem = s.mem) ∧
  (∀ (s : State) (d : DieId) (cls : Fin 16) (q : Req),
    (s.reqs.filter fun q => q.stage == .regulated && dieOfPa q.addr == d).find? (fun q => q.cls == cls.val &&
      !(s.reqs.filter fun q => q.stage == .regulated && dieOfPa q.addr == d).any
        (fun p => decide (p.src.tile = q.src.tile) && decide (p.order < q.order))) = some q →
    let miss := tget (s.die d).regCredit cls.val 0
    let cost := 32 * 2 ^ q.gl * 1000
    let allowance := max 256 (fld (regCfg (s.die d) cls.val) 22 20) * 1000
    (bit (regCfg (s.die d) cls.val) 0 = true → allowance < miss + cost → exec (.regulatorGrant d cls) s = .next s) ∧
    (miss + cost ≤ allowance → ∃ s', exec (.regulatorGrant d cls) s = .next s' ∧ { q with stage := .travelling, granted := true } ∈ s'.reqs ∧
      tget (s'.die d).regCredit cls.val 0 = miss + cost ∧ (∀ e, e ≠ d → s'.die e = s.die e) ∧
      tget (s'.die d).waitNs cls.val 0 = tget (s.die d).waitNs cls.val 0 + BitVec.ofNat 64 ((s.die d).time - q.arrived) ∧
      { s' with reqs := s.reqs, dies := s.dies } = s)) ∧
  (∀ (s : State) (r : RegionId), bit (s.rg r).moor 0 = true → bit (s.rg r).moor 1 = false →
    ∃ s', exec (.mooringFormatDone r) s = .next s' ∧ bit (s'.rg r).moor 1 = true ∧ OnlyRegion s s' r ∧
      { s'.rg r with moor := (s.rg r).moor } = s.rg r ∧ (∀ i, i ≠ 1 → bit (s'.rg r).moor i = bit (s.rg r).moor i))

/-- What waits at a home or a controller.
Where this goes beyond the words of the rules it rests on the model's readings and choices of log 21, 22, 25, 33, 65. -/
def Obligations.WaitingRequests : Prop := DeferredRequests ∧ Controllers

/-! The FIFO and line ports of an MT (R210) -/

/-- The queue of a port loses its head token; the other ports of the facet keep theirs. -/
def TakesHead (s s' : State) (t : Tile) (f : Facet) (p : Fin 16) : Prop :=
  ((s'.mt t).fac f).inq.get p = (((s.mt t).fac f).inq.get p).drop 1 ∧
  ∀ q, q ≠ p → ((s'.mt t).fac f).inq.get q = ((s.mt t).fac f).inq.get q
/-- R208, R210: in FIFO mode a data token of mi5 fills the empty word at WP and WP advances; the full word at RP leaves on mo5 as a data token, becomes empty, and RP
advances. In line mode the words of a line are written, and only the last one's tag becomes full. Pointers run modulo the area's size. No other byte
or tag changes. A port whose bank another requester has, or waited for before, only waits.
Where this goes beyond the words of the rules it rests on the model's readings and choices of log 57, 65. -/
def Obligations.MemoryTilePorts : Prop :=
  ∀ (s : State) (t : Tile) (f : Facet) (m : MtMode) (k : Token), SafeState s → s.mtMode t f = some m → s.mtRuns t f = true → 0 < m.msize →
    s.mtLogRoom t 1 = .ok → bit ((s.mt t).fac f).recording 5 = false →
    let wp := ((s.mt t).fac f).wp
    let rp := ((s.mt t).fac f).rp
    let at_ (i : Nat) : Nat := 8 * areaWord t m i
    let turn (port i : Nat) : Bool := (accessOf [areaWord t m i]).all (s.turns.free (portTurn t port))
    (m.mode = 1 → s.mtHead t f 5 = some k → s.isHeld (areaWord t m wp) = false →
      (k.kind = 1 → ∃ s', exec (.fifoPush t f) s = .next s' ∧ TakesHead s s' t f 5 ∧ s'.mem = s.mem ∧ ((s'.mt t).fac f).wp = wp) ∧
      (k.kind ≠ 1 → s.mem.isFull (at_ wp) = false → turn f.val wp = false → ∃ s', exec (.fifoPush t f) s = .next s' ∧
        { s' with turns := s.turns } = s) ∧
      (k.kind ≠ 1 → s.mem.isFull (at_ wp) = false → turn f.val wp = true → s.mem.bad = [] → ∃ s', exec (.fifoPush t f) s = .next s' ∧
        TakesHead s s' t f 5 ∧
        Holds s'.mem (at_ wp) 8 k.payload.toNat ∧ s'.mem.isFull (at_ wp) = true ∧ s'.mem.isPoison (at_ wp) = k.poison ∧
        MemoryElsewhere s.mem s'.mem (at_ wp) 8 ∧ ((s'.mt t).fac f).wp = (wp + 1) % m.msize) ∧
      (k.kind ≠ 1 → s.mem.isFull (at_ wp) = true → exec (.fifoPush t f) s = .next s)) ∧
    (m.mode = 1 → s.isHeld (areaWord t m rp) = false → s.mtRoom t 5 = true →
      (s.mem.isFull (at_ rp) = true → turn (4 + f.val) rp = false → ∃ s', exec (.fifoPop t f) s = .next s' ∧ { s' with turns := s.turns } = s) ∧
      (s.mem.isFull (at_ rp) = true → turn (4 + f.val) rp = true → ∃ s' o, exec (.fifoPop t f) s = .next s' ∧ (s'.mt t).outq.get 5 = (s.mt t).outq.get 5 ++ [o] ∧
        o.tok.payload.toNat = s.mem.read (at_ rp) 8 ∧ o.tok.kind = 0 ∧ o.tok.facet = f ∧ o.tok.poison = s.mem.isPoison (at_ rp) ∧
        s'.mem.cells = s.mem.cells ∧ s'.mem.isFull (at_ rp) = false ∧ MemoryElsewhere s.mem s'.mem (at_ rp) 8 ∧
        ((s'.mt t).fac f).rp = (rp + 1) % m.msize) ∧
      (s.mem.isFull (at_ rp) = false → exec (.fifoPop t f) s = .next s)) ∧
    (m.mode = 2 → 0 < m.bufw → s.mtHead t f 5 = some k → s.isHeld (areaWord t m wp) = false →
      let last := wp / m.bufw * m.bufw + m.bufw - 1
      s.mem.isFull (at_ last) = false →
      (k.kind ≠ 1 → turn f.val wp = false → ∃ s', exec (.lineInput t f) s = .next s' ∧ { s' with turns := s.turns } = s) ∧
      (k.kind ≠ 1 → turn f.val wp = true → ∃ s', exec (.lineInput t f) s = .next s' ∧ TakesHead s s' t f 5 ∧ Holds s'.mem (at_ wp) 8 k.payload.toNat ∧
        (∀ a, ¬(at_ wp ≤ a ∧ a < at_ wp + 8) → s'.mem.byte a = s.mem.byte a) ∧
        (∀ a, s'.mem.isFull a = (s.mem.isFull a || (decide (wp = last) && decide (a / 8 = areaWord t m wp)))) ∧
        ((s'.mt t).fac f).wp = (wp + 1) % m.msize) ∧
      (k.kind = 1 → ∃ s', exec (.lineInput t f) s = .next s' ∧ TakesHead s s' t f 5 ∧ s'.mem = s.mem ∧
        ((s'.mt t).fac f).wp = (wp + 1) % m.msize))

/-! The element's own steps (R17, R24 to R26, R33, R39, R40) -/

/-- Only tile t's element changes. -/
def OnlyElement (s s' : State) (t : Tile) : Prop := { s' with elements := s.elements } = s ∧ ∀ u : Tile, u.key ≠ t.key → s'.el u = s.el u
/-- Only what tile t's element holds for facet f changes. -/
def OnlyFacet (s s' : State) (t : Tile) (f : Facet) : Prop :=
  OnlyElement s s' t ∧ (∀ g, g ≠ f → (s'.el t).fac g = (s.el t).fac g) ∧ { s'.el t with facets := (s.el t).facets } = s.el t

/-- R37, R39: clearing TRAPPED clears HSTAT.TRAPPED and HCAUSE.VALID and sets the retry count of every handler of the facet to 0; CODE, HIDX, PCIDX and COUNT stay, and so
does everything else. Where TRAPPED is 0 nothing happens. That every handler's count is reset is the reading of log 63. -/
def Obligations.TrapCleared : Prop :=
  ∀ (s : State) (t : Tile) (f : Facet), let fe := (s.el t).fac f
    (bit fe.hstat 8 = false → exec (.trappedClear t f) s = .next s) ∧
    (bit fe.hstat 8 = true → ∃ s', exec (.trappedClear t f) s = .next s' ∧ OnlyFacet s s' t f ∧
      let fe' := (s'.el t).fac f
      bit fe'.hstat 8 = false ∧ (∀ i, i ≠ 8 → bit fe'.hstat i = bit fe.hstat i) ∧
      bit fe'.hcause 15 = false ∧ (∀ i, i ≠ 15 → bit fe'.hcause i = bit fe.hcause i) ∧
      (∀ h : Fin 64, fe'.handlers.get h = { fe.handlers.get h with retry := 0 }) ∧
      { fe' with hstat := fe.hstat, hcause := fe.hcause, handlers := fe.handlers } = fe)

/-- R24, R25, R26: an idle element starts the runnable handler that selection names, at the index of its entry, with the facet's registers, its commit buffers empty,
and its issue slot is worked in the same cycle; the age of every other runnable handler rises up to 1,024 and the chosen one's becomes 0. -/
def Dispatch : Prop :=
  ∀ (s : State) (t : Tile) (f : Facet) (h : Fin 64) (level : Fin 8), t.isCT = true → t.inFabric = true → (s.el t).act = none →
    (s.el t).select (s.waiting t) = some ((f, h), level) →
    (f, h) ∈ s.waiting t ∧ (∀ x ∈ s.waiting t, (((s.el t).fac x.1).handlers.get x.2).effPri ≤ (((s.el t).fac f).handlers.get h).effPri) ∧
    ∃ s' a, exec (.handlerDispatch t) s = .next s' ∧ (s'.el t).act = some a ∧ s'.agenda = .issue t :: s.agenda ∧
      a.facet = f ∧ a.handler = h ∧ a.pc.toNat = fld (((s.el t).fac f).handlers.get h).entry 0 11 ∧ a.bank = ((s.el t).fac f).bank ∧
      a.sends = [] ∧ a.stores = [] ∧ a.arms = [] ∧ a.raised = 0 ∧ a.bursts = 0 ∧ a.wait = .none ∧ a.stalled = 0 ∧ (∀ p, a.taken.get p = 0) ∧
      (s'.el t).curFacet = f ∧ (((s'.el t).fac f).handlers.get h).age = 0 ∧
      (∀ x ∈ s.waiting t, x ≠ (f, h) →
        (((s'.el t).fac x.1).handlers.get x.2).age = min 1024 ((((s.el t).fac x.1).handlers.get x.2).age + 1)) ∧
      (∀ u : Tile, u.key ≠ t.key → s'.el u = s.el u) ∧ { s' with elements := s.elements, agenda := s.agenda } = s

/-- R13, R17, R33, R40, R150, R230: a stalled activation aborts after 64 cycles when another handler is runnable, a mark waits at the head of an input queue or the
activation holds a device word, and nothing of it remains; a taken mark leaves the head of a back
port; a supervisor's write of a window register applies once no activation of its facet is in progress; HALTED and a facet's enable clear. -/
def SupervisorActs : Prop :=
  (∀ (s : State) (t : Tile) (a : Act), (s.el t).act = some a → 64 ≤ a.stalled →
    s.waiting t ≠ [] ∨ s.anyMark t = true ∨ a.holds = true →
    ∃ s', exec (.stallAbort t) s = .next s' ∧ (s'.el t).act = none ∧ { s'.el t with act := (s.el t).act } = s.el t ∧ s'.mem = s.mem ∧
      (∀ u : Tile, u.key ≠ t.key → s'.el u = s.el u)) ∧
  (∀ (s : State) (t : Tile) (a : Act), (s.el t).act = some a → a.stalled < 64 → exec (.stallAbort t) s = .next s) ∧
  (∀ (s : State) (t : Tile) (p : Fin 16) (f : Facet) (k : Token), t.isCT = true → t.inFabric = true → (s.el t).act = none →
    s.headMark t f p = some k → (s.backPorts t f).contains p = true → s.hasTaken t f k = true →
    exec (.markRemoval t p f) s = .next (s.endBack t f p k) ∧ (s.endBack t f p k).mem = s.mem ∧
    (s.inq t f p).length = ((s.endBack t f p k).inq t f p).length + 1) ∧
  (∀ (s : State) (t : Tile) (f : Facet) (v : Word), (∀ a, (s.el t).act = some a → a.facet ≠ f) →
    let writes (reg : WinReg) (P : FacetEl → FacetEl → Prop) : Prop := ((s.el t).fac f).writes.contains (reg, v) = true →
      ∃ s', exec (.windowWriteApply t f reg v) s = .next s' ∧ OnlyFacet s s' t f ∧ P ((s.el t).fac f) ((s'.el t).fac f) ∧
        ((s'.el t).fac f).writes = ((s.el t).fac f).writes.erase (reg, v)
    writes .actbase (fun x y => y.actbase.toNat = v.toNat % 2 ^ 16 / 8 * 8 ∧ { y with actbase := x.actbase, writes := x.writes } = x) ∧
    writes .actlim (fun x y => y.actlim.toNat = v.toNat % 2 ^ 17 / 8 * 8 ∧ { y with actlim := x.actlim, writes := x.writes } = x) ∧
    writes .isbase (fun x y => y.isbase.toNat = v.toNat % 2 ^ 11 ∧ { y with isbase := x.isbase, writes := x.writes } = x) ∧
    writes .islim (fun x y => y.islim.toNat = v.toNat % 2 ^ 12 ∧ { y with islim := x.islim, writes := x.writes } = x) ∧
    writes .rmode (fun x y => y.rmode.toNat = v.toNat % 4 ∧ { y with rmode := x.rmode, writes := x.writes } = x) ∧
    writes .masks (fun x y => y.masks = v ∧ { y with masks := x.masks, writes := x.writes } = x)) ∧
  (∀ (s : State) (t : Tile) (f : Facet) (reg : WinReg) (v : Word) (a : Act), (s.el t).act = some a → a.facet = f →
    exec (.windowWriteApply t f reg v) s = .next s) ∧
  (∀ (s : State) (t : Tile) (f : Facet), ∃ s', exec (.haltedClear t f) s = .next s' ∧ OnlyFacet s s' t f ∧
    bit ((s'.el t).fac f).hstat 9 = false ∧ (∀ i, i ≠ 9 → bit ((s'.el t).fac f).hstat i = bit ((s.el t).fac f).hstat i) ∧
    { (s'.el t).fac f with hstat := ((s.el t).fac f).hstat } = (s.el t).fac f) ∧
  (∀ (s : State) (t : Tile) (f : Facet), ∃ s', exec (.fenableClear t f) s = .next s' ∧ OnlyElement s s' t ∧
    bit (s'.el t).fenable f.val = false ∧ (∀ i, i ≠ f.val → bit (s'.el t).fenable i = bit (s.el t).fenable i) ∧
    { s'.el t with fenable := (s.el t).fenable } = s.el t)

/-- The steps of an element's own logic.
Where this goes beyond the words of the rules it rests on the model's readings and choices of log 11, 63. -/
def Obligations.ElementSteps : Prop := Dispatch ∧ SupervisorActs

/-! The fabric (R153 to R169, R387) -/

/-- R155, R156, R157, R159, R387: a token that left nothing behind it in the cycle before moves from an output queue into the one hop that selects it, or into the one input port; a
token on a die boundary is offered at the far side, and a credit is back, once their cycle has come; a bus token enters every port that takes it
from the second cycle after its acceptance on, in none that the bus carries frames; a delayed token of a lockstep facet enters the mirror. -/
def FabricMoves : Prop :=
  (∀ (s : State) (t : Tile) (p : Fin 16) (x : OTok) (e : Nat), s.places = [.outq t p] → s.tileFrozen t = false → s.outq t p = [x] →
    s.hasMoved (.outq t p) = false → x.entered < s.cycle → x.wait = [] →
    let f := s.effFacet t x.tok
    (s.sw t).users f 0 48 (0x20 + p.val) = [e] →
    (e < 32 → crosses t e = false → 0 < (s.sw t).slots f e → s.hop t e = Hop.empty → (∀ g, g ≠ f → (s.sw t).sel g e = 0x3F) →
      ∃ s', exec .routeAdvance s = .next s' ∧ s'.outq t p = [] ∧ (s'.hop t e).buf = [⟨x.tok, s.cycle, none⟩] ∧ s'.mem = s.mem) ∧
    (∀ q : Fin 16, e = 32 + q.val → s.inq t x.tok.facet q = [] →
      ∃ s', exec .routeAdvance s = .next s' ∧ s'.outq t p = [] ∧ s'.inq t x.tok.facet q = [⟨x.tok, s.cycle, none⟩] ∧ s'.mem = s.mem)) ∧
  (∀ (s : State) (t : Tile) (e : Fin 32) (x : QTok) (l : List QTok), (s.hop t e.val).flight = x :: l →
    s.tileFrozen (offersAt t e.val) = false →
    (s.cycle < x.entered → exec (.boundaryArrival t e) s = .next s) ∧
    (x.entered ≤ s.cycle → ∃ s' y, exec (.boundaryArrival t e) s = .next s' ∧ (s'.hop t e.val).flight = l ∧
      (s'.hop t e.val).buf = (s.hop t e.val).buf ++ [y] ∧ y.tok = x.tok ∧ y.org = x.org ∧ { s' with switches := s.switches } = s ∧
      (∀ i, i ≠ e.val → s'.hop t i = s.hop t i))) ∧
  (∀ (s : State) (t : Tile) (e : Fin 32) (c : Nat) (l : List Nat), (s.hop t e.val).returning = c :: l →
    (s.cycle < c → exec (.creditReturn t e) s = .next s) ∧
    (c ≤ s.cycle → ∃ s', exec (.creditReturn t e) s = .next s' ∧ s'.hop t e.val = { s.hop t e.val with returning := l } ∧
      { s' with switches := s.switches } = s ∧ (∀ i, i ≠ e.val → s'.hop t i = s.hop t i))) ∧
  (∀ (s : State) (d : DieId) (b : BusId) (x : BusTok) (l : List BusTok), s.busQueue d b = x :: l →
    risingKeys (s.die d).rowBus = true → risingKeys (s.die d).colBus = true →
    (s.cycle < x.at_ + 2 → exec (.busDelivery d b) s = .next s) ∧
    (s.turns.used.contains (busTurn d b) = true → exec (.busDelivery d b) s = .next s) ∧
    (x.at_ + 2 ≤ s.cycle → s.turns.used.contains (busTurn d b) = false → (busTiles d b).filter (s.busTakes b x) = [] → ∃ s', exec (.busDelivery d b) s = .next s' ∧
      s'.busQueue d b = l.map (fun y => { y with at_ := s.cycle }) ∧ { s' with dies := s.dies } = s) ∧
    (∀ (t : Tile) (e : Nat), x.at_ + 2 ≤ s.cycle → s.turns.used.contains (busTurn d b) = false → (busTiles d b).filter (s.busTakes b x) = [t] → s.tileFrozen t = false →
      (s.sw t).users (s.effFacet t x.tok) 32 16 (if busIsRow b then 0x30 else 0x31) = [e] → s.inq t x.tok.facet (Fin.ofNat 16 (e - 32)) = [] →
      ∃ s', exec (.busDelivery d b) s = .next s' ∧ s'.inq t x.tok.facet (Fin.ofNat 16 (e - 32)) = [⟨x.tok, s.cycle, none⟩] ∧
        s'.busQueue d b = l.map (fun y => { y with at_ := s.cycle }) ∧ s'.mem = s.mem)) ∧
  (∀ (s : State) (r : RegionId) (p : Fin 64), tget (s.rg r).delay p.val [] = [] → exec (.delayLineArrival r p) s = .next s) ∧
  (∀ (s : State) (r : RegionId) (p : Fin 64) (x : QTok) (l : List QTok) (q : Fin 16), tget (s.rg r).delay p.val [] = x :: l →
    (s.cycle < x.entered → exec (.delayLineArrival r p) s = .next s) ∧
    (let w := (s.rg r).ingOf p.val
     let m : Tile := ⟨(siteTile w).x + 2, (siteTile w).y⟩
     x.entered ≤ s.cycle → s.halted r = false → s.tileFrozen m = false → s.inq m x.tok.facet q = [] →
      (s.sw m).users (s.effFacet m x.tok) 0 48 (siteTrack w) = [32 + q.val] →
      ∃ s', exec (.delayLineArrival r p) s = .next s' ∧ s'.inq m x.tok.facet q = [⟨x.tok, s.cycle, none⟩] ∧ tget (s'.rg r).delay p.val [] = l ∧
        s'.mem = s.mem))

/-- R169, R198: an enabled site with credit takes the seed at the head of its FIFO in its turn, stamped with its facet, into the input port that selects the site's track; the credit
falls by 1,024 and the ingress counter rises. A site that is not enabled takes nothing, and one of whose facet a load is in progress does not stamp it (R164). -/
def SiteAccepts : Prop :=
  (∀ (s : State) (r : RegionId) (p : Fin 64), siteEn ((s.rg r).ingOf p.val) = false → exec (.ingressAccept r p) s = .next s) ∧
  (∀ (s : State) (r : RegionId) (p : Fin 64) (k : Token) (l : List Token) (q : Fin 16),
    let g := s.rg r
    let w := g.ingOf p.val
    let t := siteTile w
    let f := g.stampOf w
    siteEn w = true → s.regionOf t = some r → t.isCT = true → s.halted r = false → s.tileFrozen t = false → s.hasMoved (.site r p.val) = false →
    g.en = true → g.tides = false → g.saveStops f = false → s.loadStops r p.val f = false →
    g.cutStops f = false → g.floaded f = true → 1024 ≤ tget g.credit p.val 0 → (g.tideCfg.get f).lock = false →
    tget g.replay p.val [] = [] → tget g.siteMarks p.val [] = [] → tget g.upcallQ p.val [] = [] → tget g.seeds p.val [] = k :: l →
    tget g.seedTurn p.val false = true → (∀ d, (s.die d).bw = []) → k.isMark = false →
    (s.sw t).users f 0 48 (siteTrack w) = [32 + q.val] → s.inq t f q = [] →
    ∃ s', exec (.ingressAccept r p) s = .next s' ∧ s'.inq t f q = [⟨k.stamp f, s.cycle, none⟩] ∧ tget (s'.rg r).seeds p.val [] = l ∧
      fld (tget (s'.rg r).seedst p.val 0) 0 5 = l.length % 32 ∧ tget (s'.rg r).credit p.val 0 = tget g.credit p.val 0 - 1024 ∧
      (s'.rg r).counters.get 0 = g.counters.get 0 + 1 ∧ s'.mem = s.mem ∧ (∀ o, o ≠ r → s'.rg o = s.rg o))
/-- The moves of tokens.
Where this goes beyond the words of the rules it rests on the model's readings and choices of log 27, 28, 65, 66. -/
def Obligations.TokenMoves : Prop := FabricMoves ∧ SiteAccepts

/-! Regions (R163 to R180, R198, R427, R440) -/

/-- R165, R179, R180, R174: a write of RGGEOM or RGNEW takes effect while the loader is idle; a rectangle outside the limits or over another region's sets GEOERR, and an RGGEOM or RGNEW
that is refused has VALID 0. A resize ends once the swap has left its facet and the facet is quiet.
Where this goes beyond the words of the rules it rests on the model's readings and choices of log 35. -/
def Obligations.RegionGeometry : Prop :=
  (∀ (s : State) (r : RegionId) (v : Word), let g := s.rg r; let w := v &&& 0xBFFF1F7F
    (g.lbusy = true → exec (.rggeomWrite r v) s = .next s ∧ exec (.rgnewWrite r v) s = .next s) ∧
    (g.lbusy = false →
      (bit w 31 = false ∨ (geomOk w = true ∧ s.geomFree r w = true) →
        ∃ s', exec (.rggeomWrite r v) s = .next s' ∧ OnlyRegion s s' r ∧ s'.rg r = { g with geom := w }) ∧
      (bit w 31 = true → geomOk w = false ∨ s.geomFree r w = false →
        ∃ s', exec (.rggeomWrite r v) s = .next s' ∧ OnlyRegion s s' r ∧ (s'.rg r).valid = false ∧ bit (s'.rg r).stat 2 = true ∧
          { s'.rg r with geom := g.geom, stat := g.stat } = g) ∧
      (bit w 31 = true → g.valid = true → geomOk w = true → s.geomFree r w = true → g.spareFacet = true → g.sitesOn w = true →
        ∃ s', exec (.rgnewWrite r v) s = .next s' ∧ OnlyRegion s s' r ∧ s'.rg r = { g with new_ := w, resize := some g.ifac }) ∧
      (bit w 31 = true → g.valid = false ∨ geomOk w = false ∨ s.geomFree r w = false ∨ g.spareFacet = false ∨ g.sitesOn w = false →
        ∃ s', exec (.rgnewWrite r v) s = .next s' ∧ OnlyRegion s s' r ∧ bit (s'.rg r).stat 2 = true ∧ bit (s'.rg r).new_ 31 = false ∧
          { s'.rg r with stat := g.stat, new_ := g.new_, resize := g.resize } = g) ∧
      (bit w 31 = false → ∃ s', exec (.rgnewWrite r v) s = .next s' ∧ OnlyRegion s s' r ∧ s'.rg r = { g with new_ := w, resize := none }))) ∧
  (∀ (s : State) (r : RegionId) (f : Facet), let g := s.rg r
    g.resize = some f → bit g.new_ 31 = true → g.ifac ≠ f → g.fquiet f = true → ∃ s', exec (.resizeComplete r) s = .next s' ∧ OnlyRegion s s' r ∧
      (s'.rg r).geom = g.new_ ∧ bit (s'.rg r).new_ 31 = false ∧ (s'.rg r).resize = none ∧
      { s'.rg r with geom := g.geom, new_ := g.new_, resize := g.resize } = g)

/-- R163, R167, R169, R171, R172, R173, R427, R457: a port register takes a site that is valid and free, in a MODE that exists, and otherwise sets GEOERR; RATE rises at most to the limit; a facet that has
been quiet for 32 cycles sets FQUIET; a swap entry that falls due gives IFAC its facet and is consumed, and one whose facet is not loaded leaves
IFAC and sets SWAPERR.
Where this goes beyond the words of the rules it rests on the model's readings and choices of log 18, 36, 66. -/
def Obligations.PortsAndSwaps : Prop :=
  (∀ (s : State) (r : RegionId) (dir : PortDir) (p : Fin 64) (v : Word), let w := v &&& (if dir = .ingress then 0x3FFFFF else 0x3FFFF)
    (s.portRefused r dir p.val v = true → ∃ s', exec (.portRegisterWrite r dir p v) s = .next s' ∧ OnlyRegion s s' r ∧
      bit (s'.rg r).stat 2 = true ∧ { s'.rg r with stat := (s.rg r).stat } = s.rg r) ∧
    (s.portRefused r dir p.val v = false → ∃ s', exec (.portRegisterWrite r dir p v) s = .next s' ∧ OnlyRegion s s' r ∧
      (dir = .ingress → (s'.rg r).ingOf p.val = w ∧ (s'.rg r).egr = (s.rg r).egr ∧ (siteEn w = true → siteEn ((s.rg r).ingOf p.val) = false →
        tget (s'.rg r).credit p.val 0 = bucketDepth ((s.rg r).bucketOf p.val) * 1024)) ∧
      (dir = .egress → (s'.rg r).egrOf p.val = w ∧ (s'.rg r).ing = (s.rg r).ing))) ∧
  (∀ (s : State) (r : RegionId) (p : Fin 64) (v : BitVec 11),
    (s.rateMax r p.val < v.toNat → exec (.rateUpdate r p v) s = .next s) ∧
    (v.toNat ≤ s.rateMax r p.val → ∃ s', exec (.rateUpdate r p v) s = .next s' ∧ OnlyRegion s s' r ∧
      fld ((s'.rg r).bucketOf p.val) 0 11 = v.toNat ∧ (∀ i, 11 ≤ i → bit ((s'.rg r).bucketOf p.val) i = bit ((s.rg r).bucketOf p.val) i) ∧
      (∀ q, q ≠ p.val → (s'.rg r).bucketOf q = (s.rg r).bucketOf q) ∧ { s'.rg r with bucket := (s.rg r).bucket } = s.rg r)) ∧
  (∀ (s : State) (r : RegionId) (f : Facet), (s.rg r).fquiet f = false →
    ((s.rg r).quiet.get f < 32 → exec (.fquietSet r f) s = .next s) ∧
    (32 ≤ (s.rg r).quiet.get f → s.quietNow r f = true → ∃ s', exec (.fquietSet r f) s = .next s' ∧ OnlyRegion s s' r ∧
      (s'.rg r).fquiet f = true ∧ (∀ i, i ≠ 8 + f.val → bit (s'.rg r).ctl i = bit (s.rg r).ctl i) ∧
      { s'.rg r with ctl := (s.rg r).ctl, phs := (s.rg r).phs } = s.rg r)) ∧
  (∀ (s : State) (r : RegionId), let g := s.rg r
    (s.swapDue r = [] → exec (.swapDue r) s = .next s) ∧
    (s.swapDue r ≠ [] → (g.swapFac = g.ifac ∨ g.floaded g.swapFac = true) → g.dies.all (fun d => (g.swapped ++ s.swapDue r).contains d) = true →
      ∃ s', exec (.swapDue r) s = .next s' ∧ OnlyRegion s s' r ∧ (s'.rg r).ifac = g.swapFac ∧
        bit (tget (s'.rg r).swapfc g.swapHead 0) 7 = false ∧ (s'.rg r).swapHead = (g.swapHead + 1) % 64 ∧ (s'.rg r).geom = g.geom) ∧
    (s.swapDue r ≠ [] → g.swapFac ≠ g.ifac → g.floaded g.swapFac = false → ∃ s', exec (.swapDue r) s = .next s' ∧
      (s'.rg r).ifac = g.ifac ∧ bit (s'.rg r).stat 0 = true ∧ bit (tget (s'.rg r).swapfc g.swapHead 0) 7 = false ∧
      (s'.rg r).swapHead = (g.swapHead + 1) % 64 ∧ s'.mem = s.mem)) ∧
  (∀ (s : State) (r : RegionId), ∃ s', exec (.slotBoundary r) s = .next s' ∧ { s' with dies := s.dies } = s ∧
    ∀ d, s'.die d = if d ∈ (s.rg r).dies then { s.die d with slot := (s.die d).time / 1000 % 64 } else s.die d)

/-- R190, R191, R198, R199, R200, R440: a push of 64 good bytes at a multiple of 64 joins a queue of fewer than 8 entries, and a malformed one sets BADW; a cancel drops a waiting entry with LDERR 14; a
seed joins a FIFO of fewer than 16, a mark is refused, and a flush empties the FIFO; a free-tile frame waits for the idle loader; RGTEN clears the counters.
Where this goes beyond the words of the rules it rests on the model's readings and choices of log 38, 39, 64. -/
def Obligations.Doorbells : Prop :=
  (∀ (s : State) (r : RegionId) (w : DoorWrite) (e : BitVec 512), let g := s.rg r
    let good : Prop := w.bytes = 64 ∧ w.off % 64 = 0 ∧ descBad e = false
    (¬good → ∃ s', exec (.lqdoorPush r w e) s = .next s' ∧ OnlyRegion s s' r ∧ bit (s'.rg r).lqstat 5 = true ∧
      { s'.rg r with lqstat := g.lqstat } = g) ∧
    (good → g.queue.length < 8 → ∃ s', exec (.lqdoorPush r w e) s = .next s' ∧ OnlyRegion s s' r ∧
      (s'.rg r).queue = g.queue ++ [e] ∧ fld (s'.rg r).lqstat 0 4 = g.queue.length + 1 ∧ { s'.rg r with queue := g.queue, lqstat := g.lqstat } = g) ∧
    (good → 8 ≤ g.queue.length → ∃ s', exec (.lqdoorPush r w e) s = .next s' ∧ OnlyRegion s s' r ∧
      bit (s'.rg r).lqstat 4 = true ∧ { s'.rg r with lqstat := g.lqstat } = g)) ∧
  (∀ (s : State) (r : RegionId) (v : Word) (e : BitVec 512), let g := s.rg r; let i := fld v 0 3
    (bit v 3 = false → exec (.lqctlCancel r v) s = .next s) ∧
    (bit v 3 = true → g.queue[i]? = some e → g.load = none → g.queue.length ≤ 8 → ∃ s', exec (.lqctlCancel r v) s = .next s' ∧ OnlyRegion s s' r ∧
      (s'.rg r).queue = g.queue.eraseIdx i ∧ fld (s'.rg r).lqstat 7 5 = 14 ∧ fld (s'.rg r).lqstat 0 4 = g.queue.length - 1 ∧
      (descCwva e ≠ 0 → ∃ c, (s'.rg r).cw = g.cw ++ [c] ∧ c.va = descCwva e ∧ fld c.word 0 8 = descStag e ∧ bit c.word 8 = false ∧
        fld c.word 9 5 = 14))) ∧
  (∀ (s : State) (r : RegionId) (p : Fin 64) (v : Word), let g := s.rg r; let l := tget g.seeds p.val []
    (fld v 4 2 ≠ 2 → l.length < 16 → ∃ s', exec (.seedtPush r p v) s = .next s' ∧ OnlyRegion s s' r ∧
      (∃ k : Token, tget (s'.rg r).seeds p.val [] = l ++ [k] ∧ k.payload = tget g.seedd p.val 0 ∧ k.tag.toNat = v.toNat % 64) ∧
      fld (tget (s'.rg r).seedst p.val 0) 0 5 = l.length + 1 ∧ { s'.rg r with seeds := g.seeds, seedst := g.seedst } = g) ∧
    (fld v 4 2 = 2 → ∃ s', exec (.seedtPush r p v) s = .next s' ∧ OnlyRegion s s' r ∧ bit (tget (s'.rg r).seedst p.val 0) 6 = true ∧
      { s'.rg r with seedst := g.seedst } = g) ∧
    (∃ s', exec (.seedFlush r p) s = .next s' ∧ OnlyRegion s s' r ∧ tget (s'.rg r).seeds p.val [] = [] ∧
      fld (tget (s'.rg r).seedst p.val 0) 0 5 = 0 ∧ { s'.rg r with seeds := g.seeds, seedst := g.seedst } = g) ∧
    (∃ s', exec (.rgtenWrite r v) s = .next s' ∧ OnlyRegion s s' r ∧ (s'.rg r).ten = v &&& 0xF ∧ (∀ i, (s'.rg r).counters.get i = 0) ∧
      { s'.rg r with ten := g.ten, counters := g.counters } = g)) ∧
  (∀ (s : State) (d : DieId) (k : BitVec 256),
    (∃ s', exec (.freewWrite d k) s = .next s' ∧ (s'.die d).freew = some k ∧ { s' with dies := s.dies } = s ∧ (∀ e, e ≠ d → s'.die e = s.die e)) ∧
    ((s.die d).freew = some k → (s.die d).loader ≠ none ∨ (s.die d).tookAt = s.cycle + 1 → exec (.freewApply d) s = .next s) ∧
    ((s.die d).freew = some k → (s.die d).loader = none → s.nextLoad d = none → (s.die d).tookAt ≠ s.cycle + 1 →
      (s.freewOk d k = false → ∃ s', exec (.freewApply d) s = .next s' ∧ (s'.die d).freew = none ∧ bit (s'.die d).freest 0 = true ∧
        { s' with dies := s.dies } = s) ∧
      (s.freewOk d k = true → risingKeys ((s.sw (freeTile d k)).routes.get 0) = true → ∃ s', exec (.freewApply d) s = .next s' ∧ (s'.die d).freew = none ∧ (s'.die d).freest = (s.die d).freest ∧
        { s' with dies := s.dies, switches := s.switches } = s ∧
        (frUnit k = 0 → ∀ j, j < frN k → (s'.sw (freeTile d k)).entry 0 (frOff k + j) = frRoute k j) ∧
        (frUnit k = 1 → (s'.sw (freeTile d k)).cidrid.get 0 = some (BitVec.ofNat 16 (fld k 0 16))))))

/-! Loads (R192 to R197) -/

/-- R164, R192, R193, R194: an entry that is eligible is selected where no load is in progress: LBUSY becomes 1 and FLOADED of its facet 0, and the facet is cleared
in every tile, its registers apart; a die's idle loader takes the load; a good frame
is taken while the facet is quiet, one in a cycle, and the next one is due; one that cannot be read or fails its checks rejects the load with its code, and the entry leaves the queue.
Where this goes beyond the words of the rules it rests on the model's readings and choices of log 37, 64, 65. -/
def Obligations.Loads : Prop :=
  (∀ (s : State) (r : RegionId) (e : BitVec 512) (i : Nat) (f : Facet), let g := s.rg r
    g.choose = some (e, i) → g.entryFacet e = some f → g.valid = true → s.ldrok = true →
    (g.load ≠ none → exec (.entrySelect r) s = .next s) ∧
    (g.load = none → ∃ s' l, exec (.entrySelect r) s = .next s' ∧ (s'.rg r).load = some l ∧ l.entry = e ∧ l.facet = f ∧ l.phase = .frames ∧
      l.restore = false ∧ (s'.rg r).lbusy = true ∧ (s'.rg r).floaded f = false ∧ (s'.rg r).queue = g.queue ∧
      ((∀ q ∈ s.reqs, q.stage ≠ .listed) → s'.mem = s.mem) ∧
      (∀ t ∈ g.tiles, (s'.sw t).routes.get f = [] ∧
        (t.isCT = true → bit (s'.el t).fenable f.val = false ∧ ((s'.el t).fac f).islim = 0x800 ∧ ((s'.el t).fac f).actlim = 0x10000 ∧
          (∀ h, (((s'.el t).fac f).handlers.get h) = Handler.reset) ∧ ((s'.el t).fac f).bank = ((s.el t).fac f).bank) ∧
        (t.isCT = false → ((s'.mt t).fac f).mode = none)))) ∧
  (∀ (s : State) (r : RegionId) (d : DieId) (l : Load) (x : DieLoad), (s.rg r).load = some l → l.ofDie d = some x → s.ldrok = true →
    ((s.die d).loader ≠ none → exec (.loadStart r d) s = .next s) ∧
    ((s.die d).loader = none → s.nextLoad d = some r → ∃ s' l', exec (.loadStart r d) s = .next s' ∧ (s'.die d).loader = some r ∧
      (s'.rg r).load = some l' ∧ l'.ofDie d = some { x with started := true } ∧ (∀ q, q ≠ r → s'.rg q = s.rg q) ∧
      { s' with dies := s.dies, regions := s.regions } = s)) ∧
  (∀ (s : State) (r : RegionId) (d : DieId) (l : Load) (x : DieLoad), (s.rg r).load = some l → l.ofDie d = some x → x.started = true →
    x.passed = false → (s.die d).loader = some r → l.phase = .frames → l.restore = false →
    let va := descImg l.entry + 32 * x.frames.length
    ((s.rg r).fquiet l.facet = false ∨ (s.die d).tookAt = s.cycle + 1 → exec (.loadFrame r d) s = .next s) ∧
    (s.readImage r va = .wait → exec (.loadFrame r d) s = .next s) ∧
    ((s.rg r).fquiet l.facet = true → (s.die d).tookAt ≠ s.cycle + 1 →
    (∀ c, s.readImage r va = .refused c → c < 32 → x.frames.length < 2 ^ 24 → ∃ s', exec (.loadFrame r d) s = .next s' ∧ (s'.rg r).load = none ∧
      (s'.rg r).lbusy = false ∧ fld (s'.rg r).lqstat 7 5 = c ∧ fld (s'.rg r).lqstat 16 24 = x.frames.length ∧
      (s'.rg r).queue = (s.rg r).queue.eraseIdx l.idx ∧ (s'.rg r).ctl = (s.rg r).ctl ∧ (s'.die d).loader = none) ∧
    (∀ k s1, s.readImage r va = .frame k s1 → s1.frameErr (s1.rg r) l.facet x k = none → x.frames = [] ∨ frIsEnd k = false →
      ∃ s' l' x', exec (.loadFrame r d) s = .next s' ∧ (s'.rg r).load = some l' ∧ l'.ofDie d = some x' ∧ x'.frames = x.frames ++ [k] ∧
        l'.phase = .frames ∧ (s'.rg r).queue = (s.rg r).queue)))

/-- R196, R197: the wave sets FENABLE of the facet in the elements of a column when it reaches it; when the last column is done the facet is loaded, LBUSY ends, the entry leaves
the queue, and IFAC is the facet where the entry's ACT is not 0. A completion word that is due is written full at its address (stated while no stored bit has flipped); one whose walk meets MLOCK is held, and refused after
1,024 microseconds (R269).
Where this goes beyond the words of the rules it rests on the model's readings and choices of log 38, 60. -/
def Obligations.LoadEnds : Prop :=
  (∀ (s : State) (r : RegionId) (l : Load) (e col : Nat), let g := s.rg r
    g.load = some l → l.phase = .wave e → g.tides = false → col < fld g.target 16 8 →
    (s.cycle ≠ e + 1 + s.waveDelay g col → exec (.waveArrival r col) s = .next s) ∧
    (s.cycle = e + 1 + s.waveDelay g col → ∃ s', exec (.waveArrival r col) s = .next s' ∧ { s' with elements := s.elements } = s ∧
      ∀ j, j < fld g.target 24 6 → let t : Tile := ⟨fld g.target 0 7 + col, fld g.target 8 5 + j⟩
        t.isCT = true → bit (s'.el t).fenable l.facet.val = true)) ∧
  (∀ (s : State) (r : RegionId) (l : Load) (e : Nat), let g := s.rg r; let f := l.facet
    g.load = some l → l.phase = .wave e → l.restore = false →
    (s.cycle < e + 2 + s.waveDelay g (fld g.target 16 8 - 1) → exec (.loadPass r) s = .next s) ∧
    (e + 2 + s.waveDelay g (fld g.target 16 8 - 1) ≤ s.cycle → ∃ s', exec (.loadPass r) s = .next s' ∧ OnlyRegion s s' r ∧
      (s'.rg r).load = none ∧ (s'.rg r).lbusy = false ∧ (s'.rg r).floaded f = true ∧ (s'.rg r).queue = g.queue.eraseIdx l.idx ∧
      (descAct l.entry ≠ 0 → (s'.rg r).ifac = f) ∧ (descAct l.entry = 0 → (s'.rg r).ifac = g.ifac) ∧
      (descAct l.entry = 2 → (s'.rg r).en = true) ∧ (descAct l.entry ≠ 2 → (s'.rg r).en = g.en) ∧
      (descCwva l.entry = 0 → (s'.rg r).cw = g.cw) ∧
      (descCwva l.entry ≠ 0 → ∃ c, (s'.rg r).cw = g.cw ++ [c] ∧ c.va = descCwva l.entry ∧ fld c.word 0 8 = descStag l.entry ∧
        bit c.word 8 = true ∧ fld c.word 9 5 = 0 ∧ c.due = s.cycle + 1))) ∧
  (∀ (s : State) (r : RegionId) (c : CwStore) (rest : List CwStore) (leaf : Leaf), SafeState s → (s.rg r).cw = c :: rest →
    (s.cycle < c.due → exec (.completionWordStore r) s = .next s) ∧
    (let now := (s.die (s.rg r).corner.die).time
     c.due ≤ s.cycle →
      (c.held = none → s.walk r (c.va % 2 ^ 56) = .hold → ∃ s', exec (.completionWordStore r) s = .next s' ∧ OnlyRegion s s' r ∧
        (s'.rg r).cw = { c with held := some now } :: rest) ∧
      (∀ t0, c.held = some t0 → (now < t0 + 1024000 → exec (.completionWordStore r) s = .next s) ∧
        (t0 + 1024000 ≤ now → ∃ s', exec (.completionWordStore r) s = .next s' ∧ (s'.rg r).cw = rest ∧ s'.mem = s.mem))) ∧
    (let pa := leaf.pa (c.va % 2 ^ 56)
     c.due ≤ s.cycle → c.held = none → s.mem.bad = [] → s.walk r (c.va % 2 ^ 56) = .leaf leaf → c.va < 2 ^ 56 → permOk leaf.word 6 = true → formRefusal 5 pa leaf.word = none →
      isHbm pa = true → pa % 8 = 0 → s.isHeld (pa / 8) = false →
      ∃ s', exec (.completionWordStore r) s = .next s' ∧ (s'.rg r).cw = rest ∧ Holds s'.mem pa 8 c.word.toNat ∧ s'.mem.isFull pa = true ∧
        MemoryElsewhere s.mem s'.mem pa 8))

/-! Engines: command tokens (R283, R330) and what the command unit does with them (R286, R302 to R304, R321 to R326) -/

/-- The E-format instructions with their opcodes (R46, R60). -/
def engineForms : List (Nat × (EForm → Instr)) :=
  [(0xB0, .scopy), (0xB1, .sgath), (0xB2, .sscat), (0xB3, .sred), (0xB4, .scomp), (0xB5, .sexp), (0xB6, .agstart), (0xB7, .agstop),
   (0xB8, .agqry), (0xB9, .darm), (0xBA, .dpost), (0xBB, .wcvt), (0xC0, .mma), (0xC1, .mldb), (0xC2, .mscale), (0xC3, .maclr),
   (0xC4, .msto), (0xC5, .mrda), (0xC6, .mswap), (0xC7, .mqry), (0xC8, .mslot), (0xC9, .mfence)]
/-- R283, R330: an E-format instruction sends one data token with pred, head, tail and poison 0, whose payload holds the opcode, the modifier, the low 32 bits of a and the
low 6 bits of b. -/
def Obligations.EngineTokens : Prop :=
  ∀ x ∈ engineForms, ∀ (w : EForm) (s : State) (t : Tile) (a a1 a2 : Act) (u v : Word) (p : BitVec 4),
    Issues s t a → w.d = .outp p → Passes s t a w.head [w.a, w.b] (some p) → s.rdScalar t a w.a = .ok (u, a1) → s.rdScalar t a1 w.b = .ok (v, a2) →
    CanSend a2 w.d →
    ∃ r e, Retires (x.2 w) s t r 0 ∧ r.sends = a.sends ++ [e] ∧ r.taken = a2.taken ∧ r.bank = a.bank ∧ e.port = p.toFin ∧
      fld e.tok.payload 0 8 = x.1 ∧ fld e.tok.payload 8 18 = w.mod.toNat ∧ fld e.tok.payload 26 32 = u.toNat % 2 ^ 32 ∧
      fld e.tok.payload 58 6 = v.toNat % 2 ^ 6 ∧ e.tok.kind = 0 ∧ e.tok.facet = a.facet ∧ e.tok.pred = false ∧ e.tok.head = false ∧
      e.tok.tail = false ∧ e.tok.poison = false

/-- The command unit of tile t takes the token k of facet f in this cycle (R286). -/
structure Takes (s : State) (t : Tile) (f : Facet) (k : Token) : Prop where
  turn : s.commandTurn t = some f
  head : s.mtHead t f 4 = some k
  plain : bit ((s.mt t).fac f).recording 4 = false
/-- The token is gone from mi4, the next facet is served next, and memory stays. -/
def TakenFrom (s s' : State) (t : Tile) (f : Facet) : Prop := TakesHead s s' t f 4 ∧ (s'.mt t).takePtr = f + 1 ∧ s'.mem = s.mem
/-- A completion is queued for mo4 (R289): a data token with pred 1 where the status is not 0, and RES, the opcode and the status. -/
def Answers (s s' : State) (t : Tile) (f : Facet) (op status : Nat) (res : Option Nat) : Prop :=
  ∃ c, (s'.mt t).pend4 = (s.mt t).pend4 ++ [c] ∧ c.facet = f ∧ c.tok.kind = 0 ∧ c.tok.facet = f ∧ c.tok.pred = decide (status ≠ 0) ∧
    fld c.tok.payload 32 8 = op ∧ fld c.tok.payload 40 5 = status ∧ ∀ v, res = some v → fld c.tok.payload 0 32 = v % 2 ^ 32
/-- R286, R323: a well-formed stream command is buffered with the fields of its token, and with DV = 1 parked in its free node; AGSTART is buffered; a malformed token
completes with status 1; a null leaves a null; AGSTOP, AGQRY, DARM, DPOST and WCVT are taken and act in the cycle after. -/
def TokensTaken : Prop :=
  ∀ (s : State) (t : Tile) (f : Facet) (k : Token), Takes s t f k →
    let field (lo n : Nat) : Nat := fld k.payload lo n
    let buffers (i : Instr) (op : Nat) : Prop := ∃ s' c, exec i s = .next s' ∧ TakenFrom s s' t f ∧
      ((s'.mt t).fac f).cmds = ((s.mt t).fac f).cmds ++ [c] ∧ c.id = s.nextId ∧ c.op = op ∧ c.mod.toNat = field 8 18 ∧ c.av.toNat = field 26 32 ∧
      c.bv.toNat = field 58 6 ∧ c.started = false ∧ c.done = false ∧ c.status = 0
    let answers (i : Instr) (op status : Nat) (res : Option Nat) (P : State → Prop) : Prop := ∃ s', exec i s = .next s' ∧ TakenFrom s s' t f ∧
      Answers s s' t f op status res ∧ P s'
    let n : Fin 32 := Fin.ofNat 32 (field 58 6)
    (∀ x ∈ ([(0xB0, .scopyCommand), (0xB1, .sgathCommand), (0xB2, .sscatCommand), (0xB3, .sredCommand), (0xB4, .scompCommand),
        (0xB5, .sexpCommand)] : List (Nat × (Tile → Facet → Instr))), isCommand x.1 k = true →
      (field 63 1 = 0 → buffers (x.2 t f) x.1) ∧
      (field 63 1 = 1 → s.node t n = DepNode.free → ∃ s', exec (x.2 t f) s = .next s' ∧ TakenFrom s s' t f ∧
        s'.node t n = { DepNode.free with parked := some k, owner := some f } ∧ ((s'.mt t).fac f).cmds = ((s.mt t).fac f).cmds)) ∧
    (isCommand 0xB6 k = true → buffers (.agstartCommand t f) 0xB6) ∧
    (k.kind ≠ 1 → malformed k = true → answers (.malformedCommandToken t f) (field 0 8) 1 none fun _ => True) ∧
    (k.kind = 1 → ∃ s' c, exec (.nullCommandToken t f) s = .next s' ∧ TakenFrom s s' t f ∧ (s'.mt t).pend4 = (s.mt t).pend4 ++ [c] ∧
      c.tok.kind = 1 ∧ c.tok.facet = f ∧ c.tok.pred = k.pred) ∧
    (∀ x ∈ ([(0xB7, .agstopCommand), (0xB8, .agqryCommand), (0xB9, .darmCommand), (0xBA, .dpostCommand), (0xBB, .wcvtCommand)] :
        List (Nat × (Tile → Facet → Instr))), isCommand x.1 k = true → (∀ h, ((s.mt t).fac f).quick.head? = some h → isCommand x.1 h = false) →
      ∃ s', exec (x.2 t f) s = .next s' ∧ TakenFrom s s' t f ∧ ((s'.mt t).fac f).quick = ((s.mt t).fac f).quick ++ [k] ∧
        (s'.mt t).pend4 = (s.mt t).pend4)
/-- R286, R303, R304, R321 to R326: a command that was taken in an earlier cycle acts and completes; a WCVT that passes its checks starts its access to the
accumulator. -/
def QuickCommands : Prop :=
  ∀ (s : State) (t : Tile) (f : Facet) (k : Token) (l : List Token), ((s.mt t).fac f).quick = k :: l → s.mtRuns t f = true →
    let field (lo n : Nat) : Nat := fld k.payload lo n
    let acted (s' : State) : Prop := ((s'.mt t).fac f).quick = l ∧ ((s'.mt t).fac f).inq = ((s.mt t).fac f).inq ∧ s'.mem = s.mem
    let answers (i : Instr) (op status : Nat) (res : Option Nat) (P : State → Prop) : Prop := ∃ s', exec i s = .next s' ∧ acted s' ∧
      Answers s s' t f op status res ∧ P s'
    let n : Fin 32 := Fin.ofNat 32 (field 58 6)
    let ag : Fin 4 := Fin.ofNat 4 (field 8 2)
    let g := s.gen t f ag
    (isCommand 0xB7 k = true →
      (g.configured = false ∨ g.haspar = true → answers (.agstopCommand t f) 0xB7 2 none fun _ => True) ∧
      (g.configured = true → g.haspar = false → s.cmdOn t f ag = none → answers (.agstopCommand t f) 0xB7 0 (some 0) fun s' => s'.gen t f ag = g)) ∧
    (isCommand 0xB8 k = true →
      (g.configured = false → answers (.agqryCommand t f) 0xB8 2 none fun _ => True) ∧
      (g.configured = true → field 10 2 = 1 → answers (.agqryCommand t f) 0xB8 0 (some g.spos) fun s' => s'.gen t f ag = g) ∧
      (g.configured = true → field 10 2 = 2 → answers (.agqryCommand t f) 0xB8 0 (some (g.spos / 2 ^ 32 % 2 ^ 16)) fun s' => s'.gen t f ag = g)) ∧
    (isCommand 0xB9 k = true →
      (s.node t n = DepNode.free → answers (.darmCommand t f) 0xB9 0 (some (field 26 32)) fun s' => (s'.node t n).count = field 26 32 ∧
        (s'.node t n).armed = true ∧ (s'.node t n).owner = some f ∧ (s'.node t n).compute = decide (field 8 1 = 1)) ∧
      ((s.node t n).foreign f = true → answers (.darmCommand t f) 0xB9 11 none fun s' => s'.node t n = s.node t n)) ∧
    (isCommand 0xBA k = true →
      ((s.node t n).foreign f = false → -32768 ≤ (s.node t n).count - field 26 32 → (s.node t n).count ≤ 32767 →
        answers (.dpostCommand t f) 0xBA 0 none fun s' => (s'.node t n).count = (s.node t n).count - field 26 32) ∧
      ((s.node t n).foreign f = true → answers (.dpostCommand t f) 0xBA 11 none fun s' => s'.node t n = s.node t n)) ∧
    (isCommand 0xBB k = true → s.locked t f = false →
      (s.wcvtPass t f (newCmd s.nextId k none) = false → answers (.wcvtCommand t f) 0xBB 2 none fun _ => True) ∧
      (∀ pa leaf, let form := if field 10 1 = 1 then 8 else 0
        s.wcvtPass t f (newCmd s.nextId k none) = true → g.paused = false →
        s.genAt t f g (g.off (field 26 32)) (formPerm form) form = .here pa leaf → accPage g leaf = true →
        ∃ s' q c, exec (.wcvtCommand t f) s = .next s' ∧ acted s' ∧ q ∈ s'.reqs ∧ q.form = form ∧ q.addr = pa ∧ q.size = 48 ∧ q.facet = f ∧
          c ∈ ((s'.mt t).fac f).cmds ∧ c.id = s.nextId ∧ c.op = 0xBB ∧ c.started = true ∧ c.done = false ∧ c.reads = [q.id]))
/-- The command unit: what it takes, and what acts in the cycle after.
Where this goes beyond the words of the rules it rests on the model's readings and choices of log 44, 45, 68. -/
def Obligations.CommandTakes : Prop := TokensTaken ∧ QuickCommands

/-! Translation (R221, R224, R257, R262 to R274) -/

/-- R262, R265, R266, R267, R269: a walk that ends in a leaf fills the edge TLB and lets the element's access go on; a refusal traps with the cause and the virtual address; MLOCK holds
it; a page fault, or a hold of 1,024 microseconds, rolls the region back. Stated while no stored bit has flipped. -/
def WalkEnds : Prop :=
  ∀ (s : State) (id : Nat) (w : Walk), s.walks.find? (fun w => w.id == id) = some w → s.mem.bad = [] →
    (∀ (t : Tile) (a : Act), w.for_ = .elem t → (s.el t).act = some a → a.wait = .walk id → w.held = none → w.result = none →
      (∀ l, s.walk w.region w.va = .leaf l → permOk l.word w.need = true → ∃ s', exec (.tableWalkComplete id) s = .next s' ∧
        (s'.el t).act = some { a with wait := .none } ∧ (s'.die w.die).tlb.head? = some l ∧ s'.walks.all (fun x => x.id != id) = true ∧
        s'.mem = s.mem ∧ (∀ u : Tile, u.key ≠ t.key → s'.el u = s.el u)) ∧
      (∀ c, (s.walk w.region w.va = .refuse c ∨ ∃ l, s.walk w.region w.va = .leaf l ∧ permOk l.word w.need = false ∧ c = 0x0C1) → c < 512 →
        ∃ s', exec (.tableWalkComplete id) s = .next s' ∧ (s'.el t).act = none ∧ fld ((s'.el t).fac a.facet).hcause 0 9 = c ∧
          ((s'.el t).fac a.facet).haddr = BitVec.ofNat 64 w.va ∧ bit ((s'.el t).fac a.facet).hstat 8 = true ∧ s'.mem = s.mem)) ∧
    (s.walk w.region w.va = .hold → w.held = none → w.result = none → ∃ s', exec (.tableWalkComplete id) s = .next s' ∧
      { s' with walks := s.walks } = s ∧ { w with held := some (s.die w.die).time } ∈ s'.walks) ∧
    ((∃ aff bits, s.walk w.region w.va = .major aff bits) → s.commitDue w.region = none → w.held = none → w.result = none → s.walkWanted w = true → (s.rg w.region).rollback = none →
      (s.rg w.region).stop = false → ∃ s', exec (.tableWalkComplete id) s = .next s' ∧ (s'.rg w.region).rollback.isSome = true ∧
        s'.walks.all (fun x => x.id != id) = true) ∧
    (∀ t0, w.held = some t0 →
      ((s.die w.die).time < t0 + 1024000 → exec (.migrationTimeout id) s = .next s) ∧
      (t0 + 1024000 ≤ (s.die w.die).time → s.walkWanted w = true → s.commitDue w.region = none → (s.rg w.region).rollback = none → (s.rg w.region).stop = false →
        ∃ s', exec (.migrationTimeout id) s = .next s' ∧ (s'.rg w.region).rollback.isSome = true ∧
          s'.walks.all (fun x => x.id != id) = true))
/-- R221, R224, R257, R271, R273, R274: the commands of a die. -/
def DieCommands : Prop :=
  (∀ (s : State) (d : DieId) (v : Word), let c := (s.die d).trcmd
    (bit c 3 = true → exec (.trcmdInvalidateRange d v) s = .next s ∧ exec (.trcmdInvalidateAsid d v) s = .next s ∧
      exec (.trcmdWake d v) s = .next s) ∧
    (bit c 3 = false → bit v 2 = true →
      (fld v 0 2 = 0 → fld v 56 6 ≤ 40 → ∃ s', exec (.trcmdInvalidateRange d v) s = .next s' ∧ bit (s'.die d).trcmd 3 = true ∧ s'.mem = s.mem ∧
        ∀ e, ∀ l, l ∈ (s'.die e).tlb ↔ l ∈ (s.die e).tlb ∧ ¬(e ∈ trDies d v ∧ l.asid = fld v 8 4 ∧
          fld v 16 40 * 2 ^ 16 < l.va + 2 ^ l.bits ∧ l.va < fld v 16 40 * 2 ^ 16 + 2 ^ (fld v 56 6 + 16))) ∧
      (fld v 0 2 = 1 → ∃ s', exec (.trcmdInvalidateAsid d v) s = .next s' ∧ bit (s'.die d).trcmd 3 = true ∧ s'.mem = s.mem ∧
        ∀ e, ∀ l, l ∈ (s'.die e).tlb ↔ l ∈ (s.die e).tlb ∧ ¬(e ∈ trDies d v ∧ l.asid = fld v 8 4)) ∧
      (fld v 0 2 = 2 → ∃ s', exec (.trcmdWake d v) s = .next s' ∧ bit (s'.die d).trcmd 3 = true ∧
        ((∀ r, (s.rg r).cw = []) → { s' with dies := s.dies, walks := s.walks } = s) ∧
        (∀ r, ∀ x ∈ (s.rg r).cw, ∀ t0, (s.rg r).corner.die ∈ trDies d v → x.held = some t0 → t0 < (s.die (s.rg r).corner.die).time →
          bit v 5 = true → { x with held := none } ∈ (s'.rg r).cw) ∧
        (∀ w ∈ s.walks, w.die ∈ trDies d v → s.heldEarlier w = true → bit v 5 = true → { w with held := none } ∈ s'.walks))) ∧
    (bit c 3 = true → ∃ s', exec (.trcmdComplete d) s = .next s' ∧ bit (s'.die d).trcmd 3 = false ∧
      (∀ i, i ≠ 3 → bit (s'.die d).trcmd i = bit c i) ∧ { s' with dies := s.dies, mts := s.mts } = s)) ∧
  (∀ (s : State) (d : DieId) (v : Word),
    (bit v 0 = true → bit (s.die d).mcpq 1 = false → ∃ s', exec (.pinQuery d v) s = .next s' ∧ bit (s'.die d).mcpq 1 = true ∧
      (s'.die d).pinSample = s.pinned (fld v 16 36) ∧ { s' with dies := s.dies } = s) ∧
    (bit (s.die d).mcpq 1 = true → exec (.pinQuery d v) s = .next s ∧ ∃ s', exec (.pinQueryComplete d) s = .next s' ∧
      bit (s'.die d).mcpq 1 = false ∧ bit (s'.die d).mcpq 2 = (s.die d).pinSample ∧ { s' with dies := s.dies } = s) ∧
    (bit v 0 = true → bit (s.die d).mccan 1 = false → ∃ s', exec (.mccanCancel d v) s = .next s' ∧ bit (s'.die d).mccan 1 = true ∧
      (∀ q ∈ s.reqs, q.deferred = true → q.inPage (fld v 16 36) = true → ∃ q' ∈ s'.reqs, q'.id = q.id ∧ q'.stage = .replied (.cause 0x085)) ∧
      ((∀ q ∈ s.reqs, q.stage ≠ .listed) → s'.mem = s.mem) ∧ s'.elements = s.elements) ∧
    (bit (s.die d).mccan 1 = true → exec (.mccanCancel d v) s = .next s ∧
      (s.reqs.any (fun q => q.deferred && q.inPage (fld (s.die d).mccan 16 36)) = false → ∃ s', exec (.mccanComplete d) s = .next s' ∧
        bit (s'.die d).mccan 1 = false ∧ { s' with dies := s.dies } = s))) ∧
  (∀ (s : State) (r : RegionId) (v : Word), let g := s.rg r
    (fld g.ctl 8 4 = 15 → ∃ s', exec (.rgtrrWrite r v) s = .next s' ∧ OnlyRegion s s' r ∧ s'.rg r = { g with trr := v &&& 0xFFFFFFFFFFE001 }) ∧
    (fld g.ctl 8 4 ≠ 15 → ∃ s', exec (.rgtrrWrite r v) s = .next s' ∧ OnlyRegion s s' r ∧ bit (s'.rg r).stat 2 = true ∧
      { s'.rg r with stat := g.stat } = g) ∧
    (g.pendcnt = 0 → exec (.rearm r) s = .next s) ∧
    (g.pendcnt ≠ 0 → ∃ s', exec (.rearm r) s = .next s' ∧ OnlyRegion s s' r ∧ (s'.rg r).pendcnt = g.pendcnt - 1 ∧
      { s'.rg r with pgr := g.pgr } = g) ∧
    (fld g.mlen 24 24 = 0 → ∃ s', exec (.rgmoorWrite r v) s = .next s' ∧ OnlyRegion s s' r ∧ s'.rg r = { g with moor := v &&& 0xFFFFFFFFFF001 }) ∧
    (fld g.mlen 24 24 ≠ 0 → exec (.rgmoorWrite r v) s = .next s))
/-- Walks and the commands of translation.
Where this goes beyond the words of the rules it rests on the model's readings and choices of log 24, 30, 67. -/
def Obligations.Translation : Prop := WalkEnds ∧ DieCommands

/-! Engines: commands at work (R287 to R289, R294, R296, R301, R310, R312, R326) -/

/-- Only what tile t's MT holds changes. -/
def OnlyMt (s s' : State) (t : Tile) : Prop := { s' with mts := s.mts } = s ∧ ∀ u : Tile, u.key ≠ t.key → s'.mt u = s.mt u
/-- Tokens join the tail of an output queue of an MT. -/
def Queued (s s' : State) (t : Tile) (p : Fin 16) (l : List Token) : Prop :=
  (s'.mt t).outq.get p = (s.mt t).outq.get p ++ l.map fun k => ⟨k, s.cycle, []⟩
/-- R289, R301: the oldest completion leaves on mo4 once its accesses are performed; a permit or a done that is due reaches its generator. -/
def CompletionsAndPermits : Prop :=
  (∀ (s : State) (t : Tile) (c : Completion) (rest : List Completion), t.isCT = false → t.inFabric = true → s.tileHalted t = false →
    (s.mt t).pend4 = c :: rest → (∀ id ∈ c.reqs, s.performed id c.scope = true) → s.mtRoom t 4 = true →
    ∃ s', exec (.commandCompletion t) s = .next s' ∧ OnlyMt s s' t ∧ Queued s s' t 4 [c.tok] ∧ (s'.mt t).pend4 = rest ∧
      { s'.mt t with pend4 := (s.mt t).pend4, outq := (s.mt t).outq } = s.mt t ∧
      ∀ p, p ≠ 4 → (s'.mt t).outq.get p = (s.mt t).outq.get p) ∧
  (∀ (s : State) (t : Tile) (f : Facet) (ag : Fin 4) (p : Nat × Nat) (l : List (Nat × Nat)), (s.gen t f ag).comingPermits = p :: l →
    s.tileHalted t = false →
    (p.1 ≤ s.cycle → ∃ s', exec (.permitArrival t f ag) s = .next s' ∧ OnlyMt s s' t ∧
      s'.gen t f ag = { s.gen t f ag with comingPermits := l, permits := (s.gen t f ag).permits ++ [p.2] } ∧
      ∀ h, h ≠ ag → s'.gen t f h = s.gen t f h) ∧
    (s.cycle < p.1 → exec (.permitArrival t f ag) s = .next s)) ∧
  (∀ (s : State) (t : Tile) (f : Facet) (ag : Fin 4) (d : Nat × Nat × Nat) (l : List (Nat × Nat × Nat)),
    (s.gen t f ag).comingDones = d :: l → s.tileHalted t = false →
    (d.1 ≤ s.cycle → ∃ s', exec (.doneArrival t f ag) s = .next s' ∧ OnlyMt s s' t ∧ (s'.gen t f ag).comingDones = l ∧
      (s'.gen t f ag).dones.find? (fun x => x.1 == d.2.1) = some (d.2.1, d.2.2 + 1) ∧
      { s'.gen t f ag with comingDones := (s.gen t f ag).comingDones, dones := (s.gen t f ag).dones } = s.gen t f ag ∧
      ∀ h, h ≠ ag → s'.gen t f h = s.gen t f h) ∧
    (s.cycle < d.1 → exec (.doneArrival t f ag) s = .next s))
/-- R326: an armed node whose COUNT is 0 launches: it is free again, and its parked command enters the buffer, or, of a compute node, a completion token
with NV and LNCH leaves; a failed node ends with status 13. -/
def NodeLaunches : Prop :=
  ∀ (s : State) (t : Tile) (i : Fin 32), t.isCT = false → t.inFabric = true → (s.node t i).armed = true → (s.node t i).count = 0 →
    let n := s.node t i
    let f := n.owner.getD 0
    s.mtRuns t f = true →
    (∀ k, n.parked = some k → n.failed = false → n.compute = false → ∃ s' c, exec (.nodeLaunch t i) s = .next s' ∧ s'.node t i = DepNode.free ∧
      ((s'.mt t).fac f).cmds = ((s.mt t).fac f).cmds ++ [c] ∧ c.op = fld k.payload 0 8 ∧ c.mod.toNat = fld k.payload 8 18 ∧
      c.av.toNat = fld k.payload 26 32 ∧ c.node = some i ∧ c.started = false ∧ c.id = s.nextId ∧ (s'.mt t).pend4 = (s.mt t).pend4 ∧
      s'.mem = s.mem) ∧
    (n.parked = none ∨ n.failed = false → n.compute = true → ∃ s' c, exec (.nodeLaunch t i) s = .next s' ∧ s'.node t i = DepNode.free ∧
      ((s'.mt t).fac f).cmds = ((s.mt t).fac f).cmds ∧ (s'.mt t).pend4 = (s.mt t).pend4 ++ [c] ∧ c.facet = f ∧ c.tok.kind = 0 ∧
      c.tok.pred = n.failed ∧ fld c.tok.payload 32 8 = 0xB9 ∧ fld c.tok.payload 40 5 = (if n.failed then 13 else 0) ∧
      fld c.tok.payload 47 5 = i.val ∧ bit c.tok.payload 52 = true ∧ bit c.tok.payload 53 = !n.failed ∧ s'.mem = s.mem)
/-- R287, R293: a command of the buffer whose generators and ports are free starts; with a status of its checks it ends by its own rule, and a generator that is not
configured gives status 2. -/
def CommandStarts : Prop :=
  ∀ (s : State) (t : Tile) (f : Facet) (k : Nat) (c : Cmd), s.cmdAt t f k = some c → c.started = false → s.mtRuns t f = true →
    s.inBuffer t f k = true → s.gensFree t f c = true → s.sparseFree t c = true →
    (∃ s', exec (.commandStart t f k) s = .next s' ∧ OnlyMt s s' t ∧
      s'.cmdAt t f k = some { c with started := true, status := s.startStatus t f c, last := (s.gen t f (c.ag 0)).count } ∧
      (s.startStatus t f c ≠ 0 → ∀ g, s'.gen t f g = s.gen t f g) ∧
      (s.startStatus t f c = 0 → ∀ g ∈ c.occupies,
        (s'.gen t f g).run = (if c.op = 0xB6 ∧ (s.gen t f g).haspar then .waiting else .running) ∧
        (s'.gen t f g).spos = (if c.op = 0xB6 then c.av.toNat * (s.gen t f g).per else 0) ∧ (s'.gen t f g).cfg = (s.gen t f g).cfg)) ∧
    ((∃ g ∈ c.occupies, (s.gen t f g).configured = false) → s.startStatus t f c = 2)
/-- Starting and ending commands.
Where this goes beyond the words of the rules it rests on the model's readings and choices of log 41, 44, 68. -/
def Obligations.CommandControl : Prop := CompletionsAndPermits ∧ NodeLaunches ∧ CommandStarts

/-- An AGSTART that walks an element now: it has started, awaits no request, and its outer iteration has begun. -/
structure Walks (s : State) (t : Tile) (f : Facet) (k : Nat) (c : Cmd) : Prop where
  found : s.cmdAt t f k = some c
  started : c.started = true
  runs : s.mtRuns t f = true
  going : c.done = false ∧ c.status = 0 ∧ c.draining = false ∧ c.reqs = []
  op : c.op = 0xB6
  notBuf : c.m 3 2 ≠ 3
  gen : (s.gen t f (c.ag 0)).run ≠ .waiting ∧ (s.gen t f (c.ag 0)).paused = false
  pos : (s.gen t f (c.ag 0)).spos < c.last
  inner : ¬((s.gen t f (c.ag 0)).spos % (s.gen t f (c.ag 0)).per = 0 ∧ (s.gen t f (c.ag 0)).outer ≤ c.iter (s.gen t f (c.ag 0)))
/-- R294, R296, R297: element SPOS of a read walk is read at its address, and its tokens leave on mo(AG) when the reads are back; a write walk takes
tokens from mi(AG) and writes what they hold; SPOS counts the elements. -/
def AgstartWalks : Prop :=
  ∀ (s : State) (t : Tile) (f : Facet) (k : Nat) (c : Cmd), Walks s t f k c →
    let ag := c.ag 0
    let g := s.gen t f ag
    let port : Fin 16 := Fin.ofNat 16 ag.val
    let form := c.form
    (c.m 2 1 = 0 →
      (∀ pa leaf, c.reads = [] → g.toks = 1 → s.locked t f = false → s.genAt t f g (g.off g.spos) (engNeed form 0) form = .here pa leaf →
        ∃ s' q, exec (.readWalkElement t f k) s = .next s' ∧ q ∈ s'.reqs ∧ q.id = s.nextId ∧ q.form = form ∧ q.addr = pa ∧ q.size = g.unit ∧
          q.stage = .travelling ∧ s'.cmdAt t f k = some { c with reads := [s.nextId] } ∧ s'.gen t f ag = g ∧ s'.mem = s.mem) ∧
      (∀ l, c.reads ≠ [] → s.engData c.reads = some l → firstCause l = none → g.bc = false → s.mtRoomN t port g.toks = true →
        ∃ s' c', exec (.readWalkElement t f k) s = .next s' ∧ Queued s s' t port (elemTokens f (okData l)) ∧
          (∀ v p b, l = [.ok (v, p, b)] → ∃ x, elemTokens f (okData l) = [x] ∧ x.payload.toNat = v % 2 ^ 64 ∧ x.kind = 0 ∧ x.facet = f ∧
            x.poison = p ∧ x.pred = b ∧ x.head = false ∧ x.tail = false) ∧
          s'.cmdAt t f k = some c' ∧ c'.pos = c.pos + 1 ∧ c'.reads = [] ∧ (s'.gen t f ag).spos = g.spos + 1 ∧ s'.mem = s.mem)) ∧
    (c.m 2 1 = 1 →
      (∀ x, c.buf.length < g.toks → s.mtHead t f port = some x → bit ((s.mt t).fac f).recording port.val = false →
        ∃ s', exec (.writeWalkElement t f k) s = .next s' ∧ OnlyMt s s' t ∧ TakesHead s s' t f port ∧
          s'.cmdAt t f k = some { c with buf := c.buf ++ [x] } ∧ s'.gen t f ag = g) ∧
      (∀ x pa leaf, c.buf = [x] → g.toks = 1 → x.kind ≠ 1 → s.locked t f = false →
        s.genAt t f g (g.off g.spos) (engNeed form 0) form = .here pa leaf →
        ∃ s' q c', exec (.writeWalkElement t f k) s = .next s' ∧ q ∈ s'.reqs ∧ q.id = s.nextId ∧ q.form = form ∧ q.addr = pa ∧
          q.size = g.unit ∧ q.data = x.payload.toNat % 2 ^ (8 * g.unit) ∧ q.poison = x.poison ∧ q.stage = .travelling ∧
          s'.cmdAt t f k = some c' ∧ c'.buf = [] ∧ c'.pos = c.pos + 1 ∧ c'.reqs = [s.nextId] ∧ (s'.gen t f ag).spos = g.spos + 1 ∧
          s'.mem = s.mem))
/-- R289: a command that has made its last access and whose requests are settled leaves the buffer and sends its completion. -/
def CommandEnds : Prop :=
  ∀ (s : State) (t : Tile) (f : Facet) (k : Nat) (c : Cmd), s.cmdAt t f k = some c → c.started = true → c.done = true → s.mtRuns t f = true →
    c.reqs = [] → c.av = 0 → c.status < 32 →
    (c.op = 0xB0 → ∃ s', exec (.readWalkElement t f k) s = .next s' ∧ Answers s s' t f 0xB0 c.status (some c.res) ∧
      ((s'.mt t).fac f).cmds = (((s.mt t).fac f).cmds.filter fun y => y.id != c.id) ∧ s'.mem = s.mem) ∧
    (c.op = 0xB5 → ∃ s', exec (.writeWalkElement t f k) s = .next s' ∧ Answers s s' t f 0xB5 c.status none ∧
      ((s'.mt t).fac f).cmds = (((s.mt t).fac f).cmds.filter fun y => y.id != c.id) ∧ s'.mem = s.mem)
/-- R310, R312: the sparse-update unit sends the tokens of a gathered row one by one on mo(DAG), in the last row of a command too, and takes an index from
mi(IAG) where ISRC = 1. -/
def SparseUnit : Prop :=
  ∀ (s : State) (t : Tile) (f : Facet) (c : Cmd), (s.allCmds t).find? (fun x => x.2.indexed && x.2.started && !x.2.done) = some (f, c) →
    s.mtRuns t f = true → c.reqs = [] → c.op = 0xB1 → c.slots = [] → c.cur = none →
    (∀ x l, c.buf = x :: l → c.draining = true → l ≠ [] → s.mtRoomN t (Fin.ofNat 16 (c.ag 2).val) 1 = true →
      ∃ s', exec (.sparseSlotIssue t) s = .next s' ∧
      Queued s s' t (Fin.ofNat 16 (c.ag 2).val) [x] ∧ { c with buf := l } ∈ ((s'.mt t).fac f).cmds ∧ s'.mem = s.mem ∧ s'.reqs = s.reqs) ∧
    (∀ x, c.buf = [] → c.status = 0 → c.draining = false → s.saving t f = false → c.m 4 1 = 1 →
      s.mtHead t f (Fin.ofNat 16 (c.ag 0).val) = some x → x.kind = 0 → x.poison = false →
      bit ((s.mt t).fac f).recording (Fin.ofNat 16 (c.ag 0).val).val = false → ∃ s', exec (.sparseSlotIssue t) s = .next s' ∧
      TakesHead s s' t f (Fin.ofNat 16 (c.ag 0).val) ∧ { c with cur := some x.payload } ∈ ((s'.mt t).fac f).cmds ∧ s'.mem = s.mem ∧
      s'.reqs = s.reqs)
/-- The work of running stream commands.
Where this goes beyond the words of the rules it rests on the model's readings and choices of log 41, 42, 43, 65. -/
def Obligations.CommandRuns : Prop := AgstartWalks ∧ CommandEnds ∧ SparseUnit

/-! The matrix unit (R328 to R345) -/

/-- The matrix unit of tile t takes the token k of facet f in this cycle (R330, R333). -/
structure MxTakes (s : State) (t : Tile) (f : Facet) (k : Token) : Prop where
  turn : s.mxTurn t = some f
  head : s.mtHead t f 6 = some k
  plain : bit ((s.mt t).fac f).recording 6 = false
/-- The token is gone from mi6, the next facet is served next, and memory stays. -/
def MxTaken (s s' : State) (t : Tile) (f : Facet) : Prop := TakesHead s s' t f 6 ∧ (s'.mt t).mxTake = f + 1 ∧ s'.mem = s.mem
/-- A completion is queued for mo6 (R330): a data token with pred 1 where the status is not 0, and RES, the opcode and the status. -/
def MxAnswers (s s' : State) (t : Tile) (f : Facet) (op status : Nat) (res : Option Nat) : Prop :=
  ∃ c, (s'.mt t).pend6 = (s.mt t).pend6 ++ [c] ∧ c.facet = f ∧ c.tok.kind = 0 ∧ c.tok.facet = f ∧ c.tok.pred = decide (status ≠ 0) ∧
    fld c.tok.payload 32 8 = op ∧ fld c.tok.payload 40 5 = status ∧ ∀ v, res = some v → fld c.tok.payload 0 32 = v % 2 ^ 32
/-- R330, R333, R345: a well-formed command that needs the array, a bank or an order is buffered with the fields of its token and with its bank and buffer
resolved through the map bits; MSWAP toggles the map bits, and an MSLOT of a slot that admits the facet answers, at take; MSCALE and MQRY are taken to act in the
next cycle; a malformed token completes with status 1, and a null leaves a null. -/
def MatrixTokens : Prop :=
  ∀ (s : State) (t : Tile) (f : Facet) (k : Token), MxTakes s t f k →
    let field (lo n : Nat) : Nat := fld k.payload lo n
    let x := s.mxf t f
    let answers (i : Instr) (op status : Nat) (res : Option Nat) (P : MxFacet → Prop) : Prop := ∃ s', exec i s = .next s' ∧ MxTaken s s' t f ∧
      MxAnswers s s' t f op status res ∧ P (s'.mxf t f)
    let buffers (i : Instr) (op : Nat) (started : Bool) : Prop := ∃ s' c, exec i s = .next s' ∧ MxTaken s s' t f ∧
      (s'.mxf t f).cmds = x.cmds ++ [c] ∧ c.id = s.nextId ∧ c.op = op ∧ c.mod.toNat = field 8 18 ∧ c.av.toNat = field 26 32 ∧
      c.bv.toNat = field 58 6 ∧ c.started = started ∧ c.done = false ∧ c.status = 0 ∧
      c.accPhys = (if bit k.payload 12 = x.amap then 0 else 1) ∧ c.bufPhys = (if bit k.payload 13 = x.bmap then 0 else 1) ∧
      { s'.mxf t f with cmds := x.cmds } = x
    (∀ y ∈ ([(0xC0, .mmaCommand), (0xC1, .mldbCommand), (0xC3, .maclrCommand), (0xC4, .mstoCommand), (0xC5, .mrdaCommand),
        (0xC9, .mfenceCommand)] : List (Nat × (Tile → Facet → Instr))), isMatrix y.1 k = true → buffers (y.2 t f) y.1 false) ∧
    (isMatrix 0xC8 k = true →
      (s.admits t f = true → bit k.payload 8 = false → answers (.mslotCommand t f) 0xC8 0 (some (s.mslotRes t)) fun y =>
        y.cmds = x.cmds.filter (fun c => c.id != s.nextId)) ∧
      (s.admits t f = false ∨ bit k.payload 8 = true → buffers (.mslotCommand t f) 0xC8 true)) ∧
    (k.kind ≠ 1 → mxMalformed k = true → answers (.malformedMatrixToken t f) (field 0 8) 1 none fun y => y = x) ∧
    (k.kind = 1 → ∃ s' c, exec (.nullMatrixToken t f) s = .next s' ∧ MxTaken s s' t f ∧ (s'.mt t).pend6 = (s.mt t).pend6 ++ [c] ∧
      c.tok.kind = 1 ∧ c.tok.facet = f ∧ c.tok.pred = k.pred ∧ s'.mxf t f = x) ∧
    (isMatrix 0xC6 k = true → answers (.mswapCommand t f) 0xC6 0 none fun y => y.amap = (x.amap ^^ bit k.payload 8) ∧
      y.bmap = (x.bmap ^^ bit k.payload 9) ∧ { y with amap := x.amap, bmap := x.bmap } = x) ∧
    (∀ y ∈ ([(0xC2, .mscaleCommand), (0xC7, .mqryCommand)] : List (Nat × (Tile → Facet → Instr))), isMatrix y.1 k = true →
      (∀ h, x.quick.head? = some h → isMatrix y.1 h = false) → ∃ s', exec (y.2 t f) s = .next s' ∧ MxTaken s s' t f ∧
      s'.mxf t f = { x with quick := x.quick ++ [k] } ∧ (s'.mt t).pend6 = (s.mt t).pend6)
/-- R333, R345: MSCALE sets a scale register and MQRY answers, in the cycle after they were taken. -/
def MatrixQuick : Prop :=
  ∀ (s : State) (t : Tile) (f : Facet) (k : Token) (l : List Token), (s.mxf t f).quick = k :: l → s.mtRuns t f = true →
    let field (lo n : Nat) : Nat := fld k.payload lo n
    let x := s.mxf t f
    let n : Fin 8 := Fin.ofNat 8 (field 58 6)
    let answers (i : Instr) (op status : Nat) (res : Option Nat) (P : MxFacet → Prop) : Prop := ∃ s', exec i s = .next s' ∧
      ((s'.mt t).fac f).inq = ((s.mt t).fac f).inq ∧ s'.mem = s.mem ∧ MxAnswers s s' t f op status res ∧ P (s'.mxf t f)
    (isMatrix 0xC2 k = true →
      (field 58 6 < 8 → answers (.mscaleCommand t f) 0xC2 0 none fun y => (y.sc.get n).toNat = field 26 32 ∧
        (∀ j, j ≠ n → y.sc.get j = x.sc.get j) ∧ { y with sc := x.sc } = { x with quick := l }) ∧
      (8 ≤ field 58 6 → answers (.mscaleCommand t f) 0xC2 2 none fun y => y = { x with quick := l })) ∧
    (isMatrix 0xC7 k = true →
      (field 8 2 = 0 → answers (.mqryCommand t f) 0xC7 0 (some x.stateWord) fun y => y = { x with quick := l }) ∧
      (field 8 2 = 1 → field 58 6 < 8 → answers (.mqryCommand t f) 0xC7 0 (some (x.sc.get n).toNat) fun y => y = { x with quick := l }) ∧
      (field 8 2 = 1 → 8 ≤ field 58 6 → answers (.mqryCommand t f) 0xC7 2 none fun y => y = { x with quick := l }) ∧
      (field 8 2 = 2 → answers (.mqryCommand t f) 0xC7 0 (some (s.slotWord t f)) fun y => y = { x with quick := l }))
/-- What the matrix unit takes from mi6, and what acts in the cycle after.
Where this goes beyond the words of the rules it rests on the model's readings and choices of log 44, 45, 46. -/
def Obligations.MatrixTakes : Prop := MatrixTokens ∧ MatrixQuick

/-- R332, R333, R336, R343, R345: a command starts when no earlier one shares a resource with it, with status 2 where a start check fails; MACLR makes its rows 0; MLDB
empties its buffer; MRDA sends its next row in 16 tokens; a finished command leaves the buffer with its completion, and an MLDB of status 0 has loaded its buffer. -/
def MatrixCommands : Prop :=
  ∀ (s : State) (t : Tile) (f : Facet) (k : Nat) (c : MxCmd), (s.mxf t f).cmds[k]? = some c → s.mtRuns t f = true →
    let x := s.mxf t f
    (c.started = false → c.done = false → (∀ y ∈ x.cmds.take k, ∀ n ∈ y.uses, n ∉ c.uses) →
      ∃ s' c', exec (.matrixCommandStart t f k) s = .next s' ∧ (s'.mxf t f).cmds[k]? = some c' ∧ c'.started = true ∧ c'.op = c.op ∧
        c'.status = (if s.mxStartOk t f c then 0 else 2) ∧ (s.mxStartOk t f c = false → c'.done = true) ∧ s'.mem = s.mem ∧
        (c.op = 0xC1 → (s'.mxf t f).b.get c.bufPhys = { cols := [], fmt := c.fmt, mx := c.mx, loaded := false, poison := false }) ∧
        (∀ b i, s'.accRow t f b i = if c.op = 0xC3 ∧ s.mxStartOk t f c = true ∧ b = c.accPhys ∧ c.frow ≤ i ∧ i < c.frow + c.rows
          then ⟨0, false⟩ else s.accRow t f b i)) ∧
    (c.done = true → c.reqs = [] → c.status < 32 → c.op < 256 → ∃ s', exec (.matrixCommandStart t f k) s = .next s' ∧
      (s'.mxf t f).cmds = (x.cmds.filter fun y => y.id != c.id) ∧ MxAnswers s s' t f c.op c.status c.result ∧ s'.mem = s.mem ∧
      (c.op = 0xC1 → c.status = 0 → ((s'.mxf t f).b.get c.bufPhys).loaded = true)) ∧
    (c.done = false → c.started = true → c.op = 0xC5 → c.read < c.rows → (s.mt t).fired = [] → s.mtRoomN t 7 16 = true →
      let r := s.accRow t f c.accPhys (c.frow + c.read)
      ∃ s' l c', exec (.matrixCommandStart t f k) s = .next s' ∧ Queued s s' t 7 l ∧ l.length = 16 ∧
        (∀ j y, l[j]? = some y → fld y.payload 0 32 = r.word (2 * j) ∧ fld y.payload 32 32 = r.word (2 * j + 1) ∧ y.kind = 0 ∧ y.facet = f ∧
          y.head = decide (j = 0) ∧ y.tail = decide (j = 15) ∧ y.poison = r.poison) ∧
        (s'.mxf t f).cmds[k]? = some c' ∧ c'.read = c.read + 1 ∧ s'.mem = s.mem ∧
        ∀ b i, s'.accRow t f b i = if c.clr = true ∧ b = c.accPhys ∧ i = c.frow + c.read then ⟨0, false⟩ else s.accRow t f b i)
/-- R334, R335, R346: the next row of an MMA is read from its tile into staging, at most four rows ahead, once its banks are free; a column burst on mi8 is taken token
by token, and the 32nd loads the buffer and completes the MLDB; a row burst that stands whole on mi7 stays until its row fires; a token that is malformed at its
place ends the command with status 3 and is followed by a discard up to a tail. -/
def MatrixOperands : Prop :=
  (∀ (s : State) (t : Tile) (f : Facet) (c : MxCmd) (m : MtMode), s.runningMma t f = some c → s.mtMode t f = some m → s.mtRuns t f = true →
    c.strm = false → c.mx = false → 2 ≤ c.phase → c.read < c.rows →
    let pa := mtBase t + 8 * m.mbase + 8 * (c.off + 8 * c.read)
    let turn := (accessOf (wordsAt pa 64)).all (s.turns.free (portTurn t (24 + f.val)))
    ((s.mxf t f).staged.length < 4 → turn = true → s.mem.bad = [] → ∃ s' r, exec (.rowStage t f) s = .next s' ∧
      (s'.mxf t f).staged = (s.mxf t f).staged ++ [r] ∧ r.cmd = c.id ∧ r.k = c.read ∧ r.data = s.mem.read pa 64 ∧
      { c with read := c.read + 1 } ∈ (s'.mxf t f).cmds ∧ s'.mem = s.mem) ∧
    ((s.mxf t f).staged.length < 4 → turn = false → ∃ s', exec (.rowStage t f) s = .next s' ∧ { s' with turns := s.turns } = s) ∧
    (4 ≤ (s.mxf t f).staged.length → exec (.rowStage t f) s = .next s)) ∧
  (∀ (s : State) (t : Tile) (f : Facet) (isB : Bool) (k : Token), let p : Fin 16 := if isB then 8 else 7
    let drop (x : MxFacet) : Bool := if isB then x.dropB else x.dropA
    s.mtHead t f p = some k → s.mtRuns t f = true → bit ((s.mt t).fac f).recording p.val = false → drop (s.mxf t f) = true →
    ∃ s', exec (.operandBurstTake t f isB) s = .next s' ∧ OnlyMt s s' t ∧ TakesHead s s' t f p ∧
      drop (s'.mxf t f) = !k.tail ∧ (s'.mxf t f).cmds = (s.mxf t f).cmds) ∧
  (∀ (s : State) (t : Tile) (f : Facet) (k : Token) (c : MxCmd), s.mtHead t f 8 = some k → s.mtRuns t f = true →
    bit ((s.mt t).fac f).recording 8 = false → (s.mxf t f).dropB = false → s.columnCmd t f = some c →
    let whole := c.burst.length + 1 = c.burstLen
    let good := k.kind ≠ 3 ∧ k.head = c.burst.isEmpty ∧ k.tail = decide whole
    (good → ¬whole → ∃ s', exec (.operandBurstTake t f true) s = .next s' ∧ OnlyMt s s' t ∧ TakesHead s s' t f 8 ∧
      { c with burst := c.burst ++ [k] } ∈ (s'.mxf t f).cmds) ∧
    (good → whole → c.read < 31 → ∃ s' c', exec (.operandBurstTake t f true) s = .next s' ∧ OnlyMt s s' t ∧ TakesHead s s' t f 8 ∧
      c' ∈ (s'.mxf t f).cmds ∧ c'.id = c.id ∧ c'.burst = [] ∧ c'.read = c.read + 1 ∧
      ((s'.mxf t f).b.get c.bufPhys).cols.length = ((s.mxf t f).b.get c.bufPhys).cols.length + 1) ∧
    (good → whole → c.read = 31 → ∃ s', exec (.operandBurstTake t f true) s = .next s' ∧ TakesHead s s' t f 8 ∧ s'.mem = s.mem ∧
      MxAnswers s s' t f 0xC1 0 (some (c.poisoned + ((c.burst ++ [k]).any (·.poison)).toNat)) ∧
      (s'.mxf t f).cmds = ((s.mxf t f).cmds.filter fun y => y.id != c.id) ∧ ((s'.mxf t f).b.get c.bufPhys).loaded = true ∧
      ((s'.mxf t f).b.get c.bufPhys).cols.length = ((s.mxf t f).b.get c.bufPhys).cols.length + 1) ∧
    (¬good → ∃ s', exec (.operandBurstTake t f true) s = .next s' ∧ OnlyMt s s' t ∧ TakesHead s s' t f 8 ∧
      { c with burst := [], status := 3 } ∈ (s'.mxf t f).cmds ∧ (s'.mxf t f).dropB = !k.tail)) ∧
  (∀ (s : State) (t : Tile) (f : Facet) (c : MxCmd), s.mtRuns t f = true → bit ((s.mt t).fac f).recording 7 = false →
    (s.mxf t f).dropA = false → s.rowCmd t f = some c →
    let l := (s.rowHead t f c).1
    ((s.rowHead t f c).2 = true → exec (.operandBurstTake t f false) s = .next s) ∧
    (∀ k, l.getLast? = some k → ({ c with burst := l.dropLast } : MxCmd).badToken k = true → ∃ s', exec (.operandBurstTake t f false) s = .next s' ∧
      OnlyMt s s' t ∧ ((s'.mt t).fac f).inq.get 7 = (((s.mt t).fac f).inq.get 7).drop l.length ∧
      { c with burst := [], status := 3 } ∈ (s'.mxf t f).cmds ∧ (s'.mxf t f).dropA = !k.tail))
/-- R335, R337, R338, R330: the next row, staged or whole on mi7, of the first facet after the one that fired last fires, one row a cycle; an accumulating row takes effect
11 cycles later and a row of results leaves on mo7 12 cycles later; an integer row's values are sums of products modulo 2^32; the oldest completion leaves on mo6. -/
def MatrixRows : Prop :=
  (∀ (s : State) (t : Tile) (f : Facet) (c : MxCmd), t.isCT = false → t.inFabric = true →
    ([(s.mt t).mxPtr + 1, (s.mt t).mxPtr + 2, (s.mt t).mxPtr + 3, (s.mt t).mxPtr] : List Facet).find? (s.mayFire t) = some f →
    s.runningMma t f = some c →
    (∀ r l, (s.mxf t f).staged = r :: l →
      ∃ s' c', exec (.rowFire t) s = .next s' ∧ OnlyMt s s' t ∧ (s'.mt t).fired = (s.mt t).fired ++ [⟨f, r, s.cycle⟩] ∧ (s'.mt t).mxPtr = f ∧
        (s'.mxf t f).staged = l ∧ c' ∈ (s'.mxf t f).cmds ∧ c'.id = c.id ∧ c'.fired = c.fired + 1) ∧
    ((s.mxf t f).staged = [] → bit ((s.mt t).fac f).recording 7 = false →
      let l := (s.rowHead t f c).1
      let v := burstValue c.mx l
      ∃ s' c', exec (.rowFire t) s = .next s' ∧ OnlyMt s s' t ∧
        (s'.mt t).fired = (s.mt t).fired ++ [⟨f, ⟨c.id, c.read, v.1, v.2.1, v.2.2⟩, s.cycle⟩] ∧ (s'.mt t).mxPtr = f ∧
        ((s'.mt t).fac f).inq.get 7 = (((s.mt t).fac f).inq.get 7).drop l.length ∧ c' ∈ (s'.mxf t f).cmds ∧ c'.id = c.id ∧
        c'.fired = c.fired + 1 ∧ c'.read = c.read + 1)) ∧
  (∀ (s : State) (t : Tile) (x : FiredRow) (c : MxCmd), s.tileFrozen t = false → s.firedCmd t x = some c →
    let v := s.rowResult t x.facet c x.row
    let i := c.frow + x.row.k
    ((s.mt t).fired.find? (fun x => (s.firedCmd t x).any fun c => !c.out) = some x →
      (s.cycle < x.cycle + 11 → exec (.rowEffect t) s = .next s) ∧
      (x.cycle + 11 ≤ s.cycle → ∃ s' c', exec (.rowEffect t) s = .next s' ∧ (s'.mt t).fired = (s.mt t).fired.erase x ∧
        c' ∈ (s'.mxf t x.facet).cmds ∧ c'.id = c.id ∧ c'.effect = c.effect + 1 ∧ s'.mem = s.mem ∧
        (∀ n, n < 32 → let old := (s.accRow t x.facet c.accPhys i).word n
          (s'.accRow t x.facet c.accPhys i).word n =
            if c.zero then v.word n else if 8 ≤ c.fmt then (old + v.word n) % 2 ^ 32 else (fAdd 0 0 old (v.word n)).1 % 2 ^ 32) ∧
        (s'.accRow t x.facet c.accPhys i).poison = (v.poison || (!c.zero && (s.accRow t x.facet c.accPhys i).poison)) ∧
        (∀ b j, (b, j) ≠ (c.accPhys, i) → s'.accRow t x.facet b j = s.accRow t x.facet b j))) ∧
    ((s.mt t).fired.find? (fun x => (s.firedCmd t x).any fun c => c.out) = some x →
      (s.cycle < x.cycle + 12 → exec (.resultBurst t) s = .next s) ∧
      (x.cycle + 12 ≤ s.cycle → ∃ s' c', exec (.resultBurst t) s = .next s' ∧ OnlyMt s s' t ∧ Queued s s' t 7 (resultTokens x.facet v) ∧
        (s'.mt t).fired = (s.mt t).fired.erase x ∧ c' ∈ (s'.mxf t x.facet).cmds ∧ c'.id = c.id ∧ c'.effect = c.effect + 1)) ∧
    (c.fmt = 8 → ∀ n, n < 32 → ∀ col, ((s.mxf t x.facet).b.get c.bufPhys).cols[n]? = some col →
      v.word n = wrapInt 32 ((List.range 64).map fun q => signedOf 8 (x.row.data / 2 ^ (8 * q) % 2 ^ 8) * signedOf 8 (col.1 / 2 ^ (8 * q) % 2 ^ 8)).sum)) ∧
  (∀ (s : State) (t : Tile) (c : Completion) (rest : List Completion), t.isCT = false → t.inFabric = true → s.tileHalted t = false →
    (s.mt t).pend6 = c :: rest → s.mtRoom t 6 = true →
    ∃ s', exec (.matrixCompletion t) s = .next s' ∧ OnlyMt s s' t ∧ Queued s s' t 6 [c.tok] ∧ (s'.mt t).pend6 = rest)
/-- The matrix unit at work.
Where this goes beyond the words of the rules it rests on the model's readings and choices of log 46, 65. -/
def Obligations.MatrixRuns : Prop := MatrixCommands ∧ MatrixOperands ∧ MatrixRows

/-! Tides, commits, rollbacks (R366 to R386) -/

/-- R368, R369, R371, R390: a tide that is due takes the next number, opens a reach, and waits at every site of every live facet; a node that has the mark at every forward port takes
it, passes it on behind what its queues hold, and a tide snapshots the node; a drain holds it. -/
def TideMarks : Prop :=
  (∀ (s : State) (r : RegionId), let g := s.rg r
    g.tides = true → g.tnext = g.ctide + 1 → g.preempt = none → g.stop = false → s.frozen r = false →
    fld g.dcut 4 2 = 0 ∨ g.live g.cutFac = false →
    (g.dueTide = true → ∃ s', exec (.tideInject r) s = .next s' ∧ (s'.rg r).tnext = (g.tnext + 1) % 2 ^ 32 ∧
      (s'.rg r).reaches = g.reaches ++ [⟨g.tnext, none, [], g.liveFacets⟩] ∧ (s'.rg r).dueTide = false ∧ (s'.rg r).ctide = g.ctide ∧ s'.mem = s.mem ∧
      (∀ f, g.live f = true → ∀ p ∈ g.markSites f, markTok f 1 g.tnext ∈ tget (s'.rg r).siteMarks p [])) ∧
    (g.dueTide = false → exec (.tideInject r) s = .next s)) ∧
  (∀ (s : State) (t : Tile) (f : Facet) (k : Token), s.nodeMark t f = some k → s.tileHalted t = false →
    let passes (s' : State) : Prop := (∀ p ∈ s.forwardPorts t f, s'.inq t f p = (s.inq t f p).drop 1) ∧
      (∀ p ∈ (s.sw t).linkedOut f, s'.outq t p = s.outq t p ++ [⟨k, s.cycle, []⟩]) ∧
      (∀ p, p ∉ (s.sw t).linkedOut f → s'.outq t p = s.outq t p) ∧ s'.mem = s.mem
    (k.markType = 1 → ∃ s', exec (.tideTake t f) s = .next s' ∧ passes s' ∧
      (s.logs t = true → s.nodeReach t f < k.markNo → s'.nodeReach t f = k.markNo)) ∧
    (k.markType = 2 → t.isCT = true ∨ s.mtStopped t f = true → ∃ s', exec (.drainTake t f) s = .next s' ∧ passes s' ∧
      s'.nodeHeld t f = true) ∧
    (k.markType ≠ 1 → exec (.tideTake t f) s = .next s) ∧ (k.markType ≠ 2 → exec (.drainTake t f) s = .next s))
/-- R374, R379, R386: the oldest reach closes once every live facet's nodes and sites have its tide and nothing of it is owed; it commits 900 cycles later, when CTIDE advances and its pending
stores are written; a store accepted while no tide runs is written 900 cycles after its acceptance. -/
def TideCommits : Prop :=
  (∀ (s : State) (r : RegionId) (x : Reach) (rest : List Reach), let g := s.rg r
    g.reaches = x :: rest → g.tides = true → s.halted r = false →
    (x.closed = none → x.n + 1 < g.tnext → (∀ f, g.live f = true → s.facetClosed r f x.n = true) →
      (∀ q ∈ s.reqs, q.owes r x.n = false) → (∀ f, g.unbalanced x f = false) →
      ∃ s', exec (.reachClose r) s = .next s' ∧ OnlyRegion s s' r ∧ s'.rg r = { g with reaches := { x with closed := some s.cycle } :: rest }) ∧
    (x.closed = none → (∃ f, g.live f = true ∧ s.facetClosed r f x.n = false) → exec (.reachClose r) s = .next s) ∧
    (∀ z, x.closed = some z → s.clasps = [] →
      (s.cycle < z + 900 → exec (.reachCommit r) s = .next s) ∧
      (z + 900 ≤ s.cycle → ∃ s', exec (.reachCommit r) s = .next s' ∧ (s'.rg r).ctide = (x.n + 1) % 2 ^ 32 ∧ (s'.rg r).reaches = rest ∧
        fld (s'.rg r).tidestat 32 3 = 0 ∧
        ((∀ d, ∀ e ∈ (s.die d).bw, e.region = r → e.going = false ∧ (e.timed = false → x.n < e.reach)) → s'.mem = s.mem) ∧
        (∀ e id a bs gl cls p, SafeState s → s.mem.bad = [] → (∀ d, ∀ e ∈ (s.die d).bw, e.region = r → e.going = false) → (s.takeEntries fun e => e.region == r && !e.timed && decide (e.reach ≤ x.n)).1 = [e] →
          e.kind = .store id a bs gl cls p → (∀ w, s.isHeld w = false) →
          (∀ i b, bs[i]? = some b → s'.mem.byte (a + i) = b) ∧ ∀ y, ¬(a ≤ y ∧ y < a + bs.length) → s'.mem.byte y = s.mem.byte y)))) ∧
  (∀ (s : State) (r : RegionId), SafeState s → s.frozen r = false → (s.rg r).rollback = none →
    (∀ d, ∀ e ∈ (s.die d).bw, e.region = r → e.going = false) →
    let due := s.takeEntries fun e => e.region == r && e.timed && decide (e.at_ + 900 ≤ s.cycle)
    (due.1 = [] → ∃ s', exec (.timedCommit r) s = .next s' ∧ s'.mem = s.mem) ∧
    (∀ e id a bs gl cls p, s.mem.bad = [] → due.1 = [e] → e.kind = .store id a bs gl cls p → (∀ w, s.isHeld w = false) →
      ∃ s', exec (.timedCommit r) s = .next s' ∧ (∀ i b, bs[i]? = some b → s'.mem.byte (a + i) = b) ∧
        (∀ y, ¬(a ≤ y ∧ y < a + bs.length) → s'.mem.byte y = s.mem.byte y) ∧ ∀ d, e ∉ (s'.die d).bw))
/-- Tides and commits.
Where this goes beyond the words of the rules it rests on the model's readings and choices of log 29, 32. -/
def Obligations.Tides : Prop := TideMarks ∧ TideCommits

/-- R366, R367, R383, R385, R368: a strike in a region's own tiles rolls it back in the same cycle, with one notice; 2,048 cycles after its trigger at the latest, the snapshot of CTIDE is restored; the sites then replay; clearing STOP
clears REPL; K, REPMAX and TEN are written together, and TEN only with a K of 1 to 8.
Where this goes beyond the words of the rules it rests on the model's readings and choices of log 29, 30, 58. -/
def Obligations.Rollbacks : Prop :=
  (∀ (s : State) (d : Option DieId) (z : Nat),
    (32 < z → exec (.strikeReport d z) s = .next s) ∧
    ((∀ r, s.strikeEffect d z r = none) → exec (.strikeReport d z) s = .next s) ∧
    (∀ r, z ≤ 32 → s.strikeEffect d z r = some true → s.frozen r = false → (s.rg r).stop = false → (s.rg r).rollback = none →
      ∃ s' b, exec (.strikeReport d z) s = .next s' ∧ (s'.rg r).rollback = some b ∧ b.cycle = s.cycle ∧ b.restored = false ∧ s'.mem = s.mem) ∧
    (∀ r, z ≤ 32 → s.strikeEffect d z r ≠ none → s.frozen r = true → ∃ s', exec (.strikeReport d z) s = .next s' ∧
      (s'.rg r).latched = (s.rg r).latched ++ [(d, z)] ∧ s'.mem = s.mem)) ∧
  (∀ (s : State) (r : RegionId) (b : Rollback), let g := s.rg r
    g.rollback = some b →
    (b.restored = false → b.cycle < s.cycle → b.cycle + 2048 ≤ s.cycle ∨ (∀ q ∈ s.reqs, q.stage ≠ .travelling ∧ q.stage ≠ .regulated) →
      ∃ s', exec (.rollbackRestore r) s = .next s' ∧ (s'.rg r).rollback = some { b with restored := true } ∧ (s'.rg r).replay = [] ∧
        (∀ x ∈ (s'.rg r).reaches, x.closed = none) ∧ (s'.rg r).ctide = g.ctide ∧
        (∀ f t y, g.tides = true → t ∈ s.nodes r f → t.isCT = true →
          ((s.el t).fac f).snaps.find? (fun y => y.tide == g.ctide) = some y →
          ((s'.el t).fac f).bank = y.bank ∧ ((s'.el t).fac f).rmode = y.rmode ∧ ((s'.el t).fac f).masks = y.masks ∧
            ((s'.el t).fac f).reach = g.ctide ∧ ((s'.el t).fac f).snaps = [y])) ∧
    (b.restored = true → g.stop = false → s.frozen r = false →
      (b.cycle + 2048 ≤ s.cycle ∨ g.tides = false → g.pendcnt = 0 → ∃ s', exec (.replayStart r) s = .next s' ∧ (s'.rg r).rollback = none ∧ s'.mem = s.mem ∧
        ∀ p, (g.ing.map (·.1)).Nodup → p ∈ g.ing.map (·.1) → tget (s'.rg r).replay p [] = s.replayOf r p) ∧
      (g.pendcnt ≠ 0 → exec (.replayStart r) s = .next s) ∧
      (s.cycle < b.cycle + 2048 → g.tides = true → exec (.replayStart r) s = .next s))) ∧
  (∀ (s : State) (r : RegionId), let g := s.rg r
    (g.stop = false → exec (.stopClear r) s = .next s) ∧
    (g.stop = true → ∃ s', exec (.stopClear r) s = .next s' ∧ OnlyRegion s s' r ∧ (s'.rg r).stop = false ∧ fld (s'.rg r).tidestat 32 3 = 0 ∧
      { s'.rg r with tidestat := g.tidestat, rollback := g.rollback } = g)) ∧
  (∀ (s : State) (r : RegionId) (v : Word), ∃ s', exec (.tideControlWrite r v) s = .next s' ∧
    (s'.rg r).tides = (bit v 4 && decide (1 ≤ fld v 0 4) && decide (fld v 0 4 ≤ 8)) ∧ fld (s'.rg r).tide 0 4 = fld v 0 4 ∧
    fld (s'.rg r).tide 5 3 = max 1 (fld v 5 3) ∧ (s'.rg r).tnext = (s.rg r).tnext ∧ s'.mem = s.mem ∧
    ((s.rg r).tides = true → (s'.rg r).tides = false → (s'.rg r).ctide = (s.rg r).tnext - 1))

/-! Pre-emption, freezes and notices (R365, R389 to R396, R447) -/

/-- R389, R390: GO with OP = 0 starts a save where none is in progress, and AUTO where an entry of higher priority waits only for the facet; once the latest tide has committed the sites stop; once
the generators stand, a drain mark waits at every site; the image is written block by block into the breakwaters; a tide is forced, and its commit ends the save. -/
def SaveSteps : Prop :=
  (∀ (s : State) (r : RegionId) (v : Word), let g := s.rg r
    (bit v 1 = true → exec (.preemptSave r v) s = .next s) ∧
    (bit v 1 = false → bit v 0 = true → g.preState = 0 ∨ g.preState = 7 → ∃ s' p, exec (.preemptSave r v) s = .next s' ∧ OnlyRegion s s' r ∧
      (s'.rg r).preState = 1 ∧ (s'.rg r).preempt = some p ∧ p.restore = false ∧ p.facet.val = fld v 2 2 ∧ bit (s'.rg r).prectl 11 = false ∧
      { s'.rg r with prectl := g.prectl, preempt := g.preempt } = g) ∧
    (bit v 1 = false → bit v 0 = false ∨ (g.preState ≠ 0 ∧ g.preState ≠ 7) → ∃ s', exec (.preemptSave r v) s = .next s' ∧ OnlyRegion s s' r ∧
      (s'.rg r).preState = g.preState ∧ fld (s'.rg r).prectl 1 5 = fld v 1 5 ∧
      bit (s'.rg r).prectl 11 = (bit g.prectl 11 && !bit v 11) ∧ { s'.rg r with prectl := g.prectl } = g)) ∧
  (∀ (s : State) (r : RegionId), let g := s.rg r
    (g.valid = true → bit g.prectl 4 = true → g.preState = 0 → g.blockedAbove (Fin.ofNat 4 (fld g.prectl 2 2)) = true →
      ∃ s' p, exec (.autoSaveStart r) s = .next s' ∧ OnlyRegion s s' r ∧ (s'.rg r).preState = 1 ∧ (s'.rg r).preempt = some p ∧
        p.restore = false ∧ p.facet.val = fld g.prectl 2 2) ∧
    (bit g.prectl 4 = false ∨ g.queue = [] → exec (.autoSaveStart r) s = .next s)) ∧
  (∀ (s : State) (r : RegionId) (p : Preempt), let g := s.rg r
    let f := p.facet
    g.preempt = some p → p.restore = false → s.halted r = false →
    (g.preState = 1 → g.replayDone f = true → g.cutHolds f = false →
      (g.tnext = g.ctide + 1 → ∃ s', exec (.saveStop r) s = .next s' ∧ OnlyRegion s s' r ∧ (s'.rg r).preState = 2 ∧
        (s'.rg r).stamps f = false) ∧
      (g.tnext ≠ g.ctide + 1 → exec (.saveStop r) s = .next s)) ∧
    (g.preState = 2 →
      ((∀ t ∈ g.mts, s.mtStopped t f = true) → ∃ s', exec (.drainInject r) s = .next s' ∧ (s'.rg r).preState = 3 ∧ s'.mem = s.mem ∧
        ∀ q ∈ g.markSites f, markTok f 2 g.tnext ∈ tget (s'.rg r).siteMarks q []) ∧
      ((∃ t ∈ g.mts, s.mtStopped t f = false) → exec (.drainInject r) s = .next s)) ∧
    (g.preState = 3 → s.drained r f = false → exec (.saveImageWrite r) s = .next s) ∧
    (g.preState = 4 → p.blocks = [] → ∃ s' q, exec (.saveImageWrite r) s = .next s' ∧ (s'.rg r).preState = 5 ∧ (s'.rg r).preempt = some q ∧
      q.forced = some g.tnext ∧ (g.tides = true → (s'.rg r).tnext = (g.tnext + 1) % 2 ^ 32) ∧ s'.mem = s.mem) ∧
    (∀ d off bs psn pa leaf, g.preState = 4 → p.blocks = [(d, off, bs, psn)] → s.saveAt r (g.ctxVa + off) = .ok pa leaf →
      s.bwRoom d r (g.tnext - 1) (wordsAt pa bs.length).length = .ok → ∃ s' q e, exec (.saveImageWrite r) s = .next s' ∧
      (s'.rg r).preState = 4 ∧ (s'.rg r).preempt = some q ∧ q.blocks = [] ∧ (s'.die d).bw = (s.die d).bw ++ [e] ∧
      e.kind = .store s.nextId pa bs (leafGl leaf) (fld leaf 52 4) psn ∧ e.region = r ∧ s'.mem = s.mem) ∧
    (∀ n, g.preState = 5 → p.forced = some n → g.tides = true →
      (g.ctide < n → exec (.saveCommit r) s = .next s) ∧
      (n ≤ g.ctide → ∃ s', exec (.saveCommit r) s = .next s' ∧ (s'.rg r).preState = 0 ∧ (s'.rg r).preempt = none ∧
        (s'.rg r).floaded f = false ∧ bit (s'.rg r).prectl 11 = true ∧ fld (s'.rg r).prectl 16 24 = p.size / 64 % 2 ^ 24 ∧
        (∀ t ∈ g.tiles, t.isCT = true → bit (s'.el t).fenable f.val = false ∧ ∀ h, ((s'.el t).fac f).handlers.get h = Handler.reset) ∧
        ((∀ q ∈ s.reqs, q.stage ≠ .listed) → s'.mem = s.mem))))
/-- R394: GO with OP = 1 loads the facet from the context image whose header names the region's size, into a quiet and unloaded facet; otherwise it fails with STATE 7. -/
def RestoreStarts : Prop :=
  ∀ (s : State) (r : RegionId) (v : Word), let g := s.rg r
    let f : Facet := Fin.ofNat 4 (fld v 2 2)
    (bit v 1 = false → exec (.preemptRestore r v) s = .next s) ∧
    (bit v 1 = true → bit v 0 = true → g.preState = 0 ∨ g.preState = 7 →
      (g.fquiet f = false ∨ g.floaded f = true ∨ g.valid = false ∨ bit g.lqstat 6 = true → ∃ s', exec (.preemptRestore r v) s = .next s' ∧
        OnlyRegion s s' r ∧ (s'.rg r).preState = 7 ∧ (s'.rg r).preempt = none) ∧
      (∀ h, g.fquiet f = true → g.floaded f = false → g.valid = true → bit g.lqstat 6 = false → s.imageBlocks r g.ctxVa 1 = some h →
        bits (get8 h.1 0) 0 16 = 0x7E9D → bits (get8 h.1 0) 16 8 = 1 → bits (get8 h.1 0x20) 0 8 = g.w → bits (get8 h.1 0x20) 8 6 = g.h →
        ∃ s' p, exec (.preemptRestore r v) s = .next s' ∧ (s'.rg r).preState = 6 ∧ (s'.rg r).preempt = some p ∧ p.restore = true ∧
          p.facet = f ∧ bit (s'.rg r).lqstat 6 = true ∧ (s'.rg r).load.isSome = true ∧ s'.mem = s.mem))
/-- Saves and restores.
Where this goes beyond the words of the rules it rests on the model's readings and choices of log 18, 47, 48, 62. -/
def Obligations.Preemption : Prop := SaveSteps ∧ RestoreStarts

/-- R365, R396, R447: a frozen region's clocks stop after the cycle that ends 16 cycles after its trigger; a release clears FROZEN and lets the latched reports act; a read of RGNOTE returns the oldest notice in the
format of R365 and removes it, and an empty FIFO reads as 0.
Where this goes beyond the words of the rules it rests on the model's readings and choices of log 34. -/
def Obligations.FreezesAndNotices : Prop :=
  (∀ (s : State) (r : RegionId), let g := s.rg r
    (g.freeze = none → exec (.freezeStop r) s = .next s ∧ exec (.freezeRelease r) s = .next s) ∧
    (∀ c, g.freeze = some c →
      (s.cycle ≤ c + 16 → exec (.freezeStop r) s = .next s) ∧
      (c + 16 < s.cycle → ∃ s', exec (.freezeStop r) s = .next s' ∧ OnlyRegion s s' r ∧ bit (s'.rg r).dtrig 28 = true ∧
        (∀ i, i ≠ 28 → bit (s'.rg r).dtrig i = bit g.dtrig i) ∧ { s'.rg r with dtrig := g.dtrig } = g) ∧
      (g.latched = [] → ∃ s', exec (.freezeRelease r) s = .next s' ∧ OnlyRegion s s' r ∧ (s'.rg r).freeze = none ∧
        bit (s'.rg r).dtrig 28 = false ∧ { s'.rg r with dtrig := g.dtrig, freeze := g.freeze } = g) ∧
      (∀ x, g.latched = [x] → g.stop = false → g.rollback = none → s.strikeEffect x.1 x.2 r = some true →
        ∃ s' b, exec (.freezeRelease r) s = .next s' ∧ (s'.rg r).freeze = none ∧ (s'.rg r).latched = [] ∧ (s'.rg r).rollback = some b ∧
          b.cycle = s.cycle))) ∧
  (∀ (s : State) (n : Notice) (l : List Notice),
    let word (w : Word) : Prop := fld w 0 9 = n.code % 512 ∧ bit w 9 = true ∧ fld w 10 2 = n.facet.val ∧ fld w 12 7 = n.x % 128 ∧
      fld w 19 5 = n.y % 32 ∧ fld w 24 6 = n.region % 64 ∧ bit w 30 = n.async ∧ bit w 31 = false ∧ fld w 32 32 = n.detail.toNat
    (∀ r, (s.rg r).notices = n :: l → ∃ s', exec (.noticeRead (.region r)) s = .next s' ∧ word s'.answer ∧
      { s' with answer := s.answer, regions := s.regions } = s ∧ (∀ q, q ≠ r → s'.rg q = s.rg q) ∧ (s'.rg r).notices = l ∧
      fld (s'.rg r).nstat 0 7 = l.length % 128) ∧
    (∀ d, (s.die d).notices = n :: l → ∃ s', exec (.noticeRead (.die d)) s = .next s' ∧ word s'.answer ∧
      { s' with answer := s.answer, dies := s.dies } = s ∧ (∀ e, e ≠ d → s'.die e = s.die e) ∧ (s'.die d).notices = l)) ∧
  (∀ (s : State) (r : RegionId), (s.rg r).notices = [] → exec (.noticeRead (.region r)) s = .next { s with answer := 0 }) ∧
  (∀ (s : State) (d : DieId), (s.die d).notices = [] → exec (.noticeRead (.die d)) s = .next { s with answer := 0 })

/-! Device time and power (R421 to R426) -/

/-- The units that the dies hold and that are on their way (R425, R426). -/
def powerUnits (s : State) : Nat :=
  ((List.finRange 8).map fun d => (s.die d).hold).sum + ((s.power.filter fun m => !m.received).map (·.units)).sum
/-- R421, R423, R424: a droop stretches one cycle of a die, at most 4 of any 1,024 of its own; a broadcast raises the dies that are behind the source PHC; a step adds DTSTEP to both PHCs and is taken by
every die with the next broadcast. -/
def DeviceTime : Prop :=
  (∀ (s : State) (d : DieId) (n : Nat), let x := s.die d
    let used := x.stretched.length
    (1 ≤ n → n ≤ 4 → x.stretch3 = 0 → x.idle = false → used < 4 → ∃ s', exec (.supplyDroop d n) s = .next s' ∧ s'.die d = { x with stretch3 := n } ∧
      (∀ e, e ≠ d → s'.die e = s.die e) ∧ { s' with dies := s.dies } = s) ∧
    (n = 0 ∨ 4 < n ∨ x.stretch3 ≠ 0 ∨ x.idle = true ∨ 4 ≤ used → exec (.supplyDroop d n) s = .next s)) ∧
  (∀ s : State, let src := s.io (if bit s.modul.dtctl 0 then 1 else 0)
    (s.castDue = false → exec .devtimeBroadcast s = .next s) ∧
    (s.castDue = true → s.modul.stepDue = false → ∃ s', exec .devtimeBroadcast s = .next s' ∧ s'.modul.lastCast = src.phc.toNat / 64 ∧
      (∀ d, (s.die d).clock < src.phc.toNat * (3 * thirdNs) + src.phcFrac → (s'.die d).time = src.phc.toNat ∧ (s'.die d).frac = src.phcFrac) ∧
      (∀ d, src.phc.toNat * (3 * thirdNs) + src.phcFrac ≤ (s.die d).clock → s'.die d = s.die d) ∧ { s' with dies := s.dies, modul := s.modul } = s) ∧
    (s.castDue = true → s.modul.stepDue = true → ∃ s', exec .devtimeBroadcast s = .next s' ∧
      (∀ d, (s'.die d).time = (src.phc + s.modul.dtstep).toNat) ∧ (∀ i, (s'.io i).phc = (s.io i).phc + s.modul.dtstep) ∧
      s'.modul.stepDue = false ∧ s'.mem = s.mem ∧ s'.elements = s.elements) ∧
    exec .devtimeStep s = .next { s with modul := { s.modul with stepDue := true } } ∧
    (∀ b, ∃ s', exec (.frequencyLockChange b) s = .next s' ∧ bit s'.modul.dtctl 2 = b ∧
      (∀ i, i ≠ 2 → bit s'.modul.dtctl i = bit s.modul.dtctl i) ∧ { s' with modul := s.modul } = s))
/-- R425, R426: an exchange conserves the units that are held or on their way; a message that arrives adds its units once, and a grant is then owed, unless its CRC fails (a free choice of log 6); an
unacknowledged message is sent again after 1 microsecond. -/
def PowerMoves : Prop :=
  (∀ s : State,
    ((s.die 0).newUs = false → exec .powerExchange s = .next s) ∧
    ((s.die 0).newUs = true → ∃ s', exec .powerExchange s = .next s' ∧ powerUnits s' = powerUnits s ∧ s'.mem = s.mem ∧
      s'.elements = s.elements ∧ s'.regions = s.regions)) ∧
  (∀ (s : State) (k : Nat) (m : PowerMsg), s.power.find? (fun y => y.id == k) = some m →
    (m.sent + s.boundaryL (min m.src.val m.dst.val) ≠ s.cycle → exec (.powerMessageReceipt k) s = .next s) ∧
    (m.sent + s.boundaryL (min m.src.val m.dst.val) = s.cycle → ∃ s', exec (.powerMessageReceipt k) s = .next s' ∧
      (Config.freePick s.free % 2 = 1 → s' = { s with free := s.free + 1 }) ∧
      (Config.freePick s.free % 2 = 0 → m.received = false →
        (s'.die m.dst).hold = ((s.die m.dst).hold + m.units) % 4096 ∧ (∀ y ∈ s'.power, y.id = k → y.received = true) ∧
        (s'.die m.dst).loans = (s.die m.dst).loans ++ (if m.repay then [] else [(m.src, m.units)]) ∧
        ∀ d, d ≠ m.dst → s'.die d = s.die d)) ∧
    (m.sent + 750 ≤ s.cycle → ∃ s', exec (.powerResend k) s = .next s' ∧ { m with sent := s.cycle } ∈ s'.power ∧
      s'.power.length = s.power.length ∧ { s' with power := s.power } = s) ∧
    (s.cycle < m.sent + 750 → exec (.powerResend k) s = .next s))
/-- Time and power.
Where this goes beyond the words of the rules it rests on the model's readings and choices of log 13, 14, 49. -/
def Obligations.TimeAndPower : Prop := DeviceTime ∧ PowerMoves

/-! The host and the Ethernet ports (R251, R431 to R439) -/

/-- R431, R251, R5: a host access outside what its path reaches, or in a denied block, is refused; a read returns the 64 bytes around the address as they are committed, and a write changes the
bytes named and no tag; a read of a register of a region's block in BAR0 returns its fields, and 0 of one that is write-only. R429, R435, R453: a byte written to BAR4 is read there, and in recovery
mode link 1 carries nothing. -/
def HostAccess : Prop :=
  ∀ (s : State) (io : Fin 2) (path : HostPath) (pa : BitVec 52),
    (s.recovery = true → io = 1 → exec (.hostRead io path pa) s = .next s ∧ ∀ l p, exec (.hostWrite io path pa l p) s = .next s) ∧
    (s.recovery = false ∨ io = 0 →
    (s.hostPa io path pa.toNat = none → path ≠ .bar4 →
      (path ≠ .bar0 → exec (.hostRead io path pa) s = .next { s with out := .abort :: s.out }) ∧ ∀ l p, exec (.hostWrite io path pa l p) s = .next s) ∧
    (∀ l p, pa.toNat + l.length ≤ 0x10000 → ∃ s', exec (.hostWrite io .bar4 pa l p) s = .next s' ∧ { s' with ios := s.ios } = s ∧
      (∀ i b, l[i]? = some b → (s'.io io).bar4Byte (pa.toNat + i) = b) ∧
      ∀ y, ¬(pa.toNat ≤ y ∧ y < pa.toNat + l.length) → (s'.io io).bar4Byte y = (s.io io).bar4Byte y) ∧
    (pa.toNat + 8 ≤ 0x10000 → ∃ l, exec (.hostRead io .bar4 pa) s = .next { s with out := .completion l false :: s.out } ∧ l.length = 8 ∧
      ∀ i b, l[i]? = some b → b = (s.io io).bar4Byte (pa.toNat + i)) ∧
    (∀ (r : RegionId), let g := s.rg r
      ∀ x ∈ ([(0x000, g.geom), (0x010, g.ctl), (0x018, g.stat), (0x020, g.trr), (0x030, 0), (0x050, g.tide), (0x090, 0)] : List (Nat × Word)),
      s.recovery = false → pa.toNat = 0x100000 + 0x10000 * r.val + x.1 →
      exec (.hostRead io .bar0 pa) s = .next { s with answer := x.2, out := .completion (bytesOf 8 x.2.toNat) false :: s.out }) ∧
    (path = .pcie → pa.toNat < 2 ^ 36 → s.hostPa io path pa.toNat = some (fld (s.io io).haper 0 3 * 2 ^ 36 + pa.toNat)) ∧
    (path = .pcie → 2 ^ 36 ≤ pa.toNat → s.hostPa io path pa.toNat = none) ∧
    (∀ a, s.hostPa io path pa.toNat = some a →
      (s.denied io a = true →
        (path = .pcie → ∃ s', exec (.hostRead io path pa) s = .next s' ∧ s'.out.head? = some .abort ∧ s'.mem = s.mem) ∧
        (∀ l p, l ≠ [] → isHbm (a + l.length - 1) = true → ∃ s', exec (.hostWrite io path pa l p) s = .next s' ∧ s'.mem = s.mem)) ∧
      (s.denied io a = false → s.mem.bad = [] → s.mem.poison = [] → (∀ d, (s.die d).bw = []) →
        ∃ s' l, exec (.hostRead io path pa) s = .next s' ∧ s'.out = .completion l false :: s.out ∧ l.length = 64 ∧
          (∀ i b, l[i]? = some b → b = s.mem.byte (a / 64 * 64 + i)) ∧ s'.mem.cells = s.mem.cells ∧ s'.mem.full = s.mem.full ∧
          s'.elements = s.elements) ∧
      (∀ l p, SafeState s → s.mem.bad = [] → l ≠ [] → isHbm (a + l.length - 1) = true → s.denied io a = false → s.denied io (a + l.length - 1) = false →
        ∃ s', exec (.hostWrite io path pa l p) s = .next s' ∧ (∀ i b, l[i]? = some b → s'.mem.byte (a + i) = b) ∧
          (∀ y, ¬(a ≤ y ∧ y < a + l.length) → s'.mem.byte y = s.mem.byte y) ∧ s'.mem.full = s.mem.full ∧ s'.elements = s.elements ∧
          s'.regions = s.regions)))

/-- R437: a good eCPRI frame whose flow entry names a site facing the port enters as one burst, a header token and its payload, or is dropped whole. R438: a whole burst of an egress port that TTMAP claims
for no stream leaves as one frame. -/
def FronthaulFrames : Prop :=
  (∀ (s : State) (io : Fin 2) (fr : EthFrame),
    (fr.fcsGood = false ∨ flowClaims fr.bytes = false ∨ ecpriOk fr.bytes = false → exec (.fronthaulFrameReceive io fr) s = .next s) ∧
    (fr.fcsGood = true → flowClaims fr.bytes = true → ecpriOk fr.bytes = true →
      ((s.io io).flow.find? (fun x => flowMatches x.2 fr) = none → exec (.fronthaulFrameReceive io fr) s = .next s) ∧
      (∀ e w, (s.io io).flow.find? (fun x => flowMatches x.2 fr) = some (e, w) →
        let r := fld w 35 5
        let p := fld w 40 6
        let l := frameBurst fr
        let fits := s.bufferUse io fr.port + 8 * l.length ≤ 4194304
        (fits → s.siteFaces io (Fin.ofNat 32 r) p = true → ∃ s' h, exec (.fronthaulFrameReceive io fr) s = .next s' ∧
          tget (s'.io io).inbox (64 * r + p) [] = tget (s.io io).inbox (64 * r + p) [] ++ l ∧ l.head? = some h ∧ h.head = true ∧
          fld h.payload 0 16 = be16 fr.bytes (typeAt fr.bytes + 6) ∧ fld h.payload 32 32 = fr.time.toNat % 2 ^ 32 ∧
          (∀ k, l.getLast? = some k → k.tail = true) ∧ { s' with ios := s.ios } = s) ∧
        (¬fits ∨ s.siteFaces io (Fin.ofNat 32 r) p = false → exec (.fronthaulFrameReceive io fr) s = .next s)))) ∧
  (∀ (s : State) (io : Fin 2) (r : RegionId) (p : Fin 64) (n : Nat), let key := 64 * r.val + p.val
    let l := tget (s.io io).outbox key []
    l.findIdx? Token.tail = some n →
    (bit (tget (s.io io).ttmap (2 * key) 0) 0 = true → exec (.fronthaulEgress io r p) s = .next s) ∧
    (bit (tget (s.io io).ttmap (2 * key) 0) 0 = false → ∃ s' h b, exec (.fronthaulEgress io r p) s = .next s' ∧ l.head? = some h ∧
      tget (s'.io io).outbox key [] = l.drop (n + 1) ∧ s'.out = .frame io (Fin.ofNat 2 (fld h.payload 32 1)) b :: s.out ∧
      b.length = 32 + 8 + 8 * n ∧ { s' with ios := s.ios, out := s.out } = s))
/-- R439: committed tokens of a port that TTMAP claims leave in a data frame of at most 90 tokens with the stream's next SEQ; 50 microseconds after the oldest unacknowledged frame all are sent
again; the next frame of a stream is delivered and acknowledged with the SEQ after it, any other is acknowledged with the SEQ expected; an acknowledgement frees the frames before its SEQ. -/
def TokenTransport : Prop :=
  (∀ (s : State) (io : Fin 2) (q : Fin 2048), let x := s.io io
    let l := tget x.outbox q.val []
    let o := x.streamPort q.val
    let y := x.sender o
    (bit (tget x.ttmap (2 * q.val) 0) 0 = true → l ≠ [] → ttBytes y + 16 + 16 * min 90 l.length ≤ 65536 →
      ∃ s' z b port, exec (.ttSend io q) s = .next s' ∧ tget (s'.io io).outbox q.val [] = l.drop 90 ∧
        ((s'.io io).sender o).next = y.next + 1 ∧ ((s'.io io).sender o).unacked = y.unacked ++ [z] ∧ z.seq = y.next ∧ z.port = q.val ∧
        z.toks = l.take 90 ∧ z.sent = x.phc.toNat ∧ s'.out = .frame io port b :: s.out ∧ ttCount b = min 90 l.length ∧ ttWord b 1 = y.next ∧
        s'.mem = s.mem) ∧
    (bit (tget x.ttmap (2 * q.val) 0) 0 = false ∨ l = [] → exec (.ttSend io q) s = .next s) ∧
    (∀ z, (x.sender q.val).unacked.head? = some z → let y := x.sender q.val
      (x.phc.toNat < z.sent + 50000 → exec (.ttRetransmit io q) s = .next s) ∧
      (z.sent + 50000 ≤ x.phc.toNat → ∃ s', exec (.ttRetransmit io q) s = .next s' ∧ s'.out.length = s.out.length + y.unacked.length ∧
        ((s'.io io).sender q.val).unacked = (y.unacked.map fun z => { z with sent := x.phc.toNat }) ∧
        ((s'.io io).sender q.val).next = y.next ∧ s'.mem = s.mem))) ∧
  (∀ (s : State) (io : Fin 2) (fr : EthFrame), fr.fcsGood = true → (s.io io).ttClaims fr.bytes = true →
    let w := ttWord fr.bytes 0
    let seq := ttWord fr.bytes 1
    let key := 64 * fld w 24 5 + fld w 29 6
    let known := ((s.io io).ttr.find? (ttStream w)).map (·.2.2.2.2)
    let inbox := tget (s.io io).inbox key []
    (0 < ttCount fr.bytes →
      (known = some seq ∨ (bit w 58 = true ∧ seq = 0) → s.siteFaces io (Fin.ofNat 32 (fld w 24 5)) (fld w 29 6) = true →
        8 * inbox.length + 8 * ttCount fr.bytes ≤ 4194304 →
        ∃ s' b, exec (.ttDataFrameReceive io fr) s = .next s' ∧ tget (s'.io io).inbox key [] = inbox ++ ttToks fr.bytes ∧
          s'.out = .frame io fr.port b :: s.out ∧ ttCount b = 0 ∧ ttWord b 1 = seq + 1 ∧
          ((s'.io io).ttr.find? (ttStream w)).map (·.2.2.2.2) = some (seq + 1) ∧ { s' with ios := s.ios, out := s.out } = s) ∧
      (known ≠ some seq → ¬(bit w 58 = true ∧ seq = 0) → ∃ b, exec (.ttDataFrameReceive io fr) s = .next { s with out := .frame io fr.port b :: s.out } ∧
        ttCount b = 0 ∧ ttWord b 1 = known.getD 0)) ∧
    (∀ q z l, ttCount fr.bytes = 0 → (s.io io).ackedPort w = some q → ((s.io io).sender q).unacked = z :: l → seq ≠ 0 ∨ z.seq = 0 →
      ∃ s', exec (.ttAckReceive io fr) s = .next s' ∧
        ((s'.io io).sender q).unacked = ((z :: l).filter fun y => !(y.seq != seq && decide ((seq - y.seq).toNat < 2 ^ 63))) ∧
        ((s'.io io).sender q).next = ((s.io io).sender q).next ∧ ((s'.io io).sender q).rst = false ∧ { s' with ios := s.ios } = s))
/-- R435, R436: an unclaimed good frame takes a free receive slot with its length and timestamp and advances RXPROD with an interrupt; a door queues transmit slots; a queued slot's frame leaves its
port and advances TXCONS with an interrupt. -/
def HostRings : Prop :=
  (∀ (s : State) (io : Fin 2) (fr : EthFrame), let x := s.io io
    let q := fr.port
    let free := (x.ringPtr q 0 + 2 ^ 16 - x.ringPtr q 16) % 2 ^ 16 < x.ringSlots q
    let pa := x.slotPa q (x.ringPtr q 0 % x.ringSlots q)
    (fr.fcsGood = false ∨ ¬free → exec (.hostRingFrameReceive io fr) s = .next s) ∧
    (SafeState s → s.mem.bad = [] → fr.fcsGood = true → flowClaims fr.bytes = false → x.ttClaims fr.bytes = false → x.ringOk q = true → fr.bytes.length ≤ 2032 →
      s.ringHas (x.slotPa q 0) = true → isHbm pa = true → free → ∃ s', exec (.hostRingFrameReceive io fr) s = .next s' ∧
      (s'.io io).ringPtr q 0 = (x.ringPtr q 0 + 1) % 2 ^ 16 ∧ s'.out = .msix (s.msixLink (74 + 2 * io.val + q.val)) (74 + 2 * io.val + q.val) :: s.out ∧
      s'.mem.read pa 8 = fr.bytes.length ∧ s'.mem.read (pa + 8) 8 = fr.time.toNat ∧
      (∀ i b, fr.bytes[i]? = some b → s'.mem.byte (pa + 16 + i) = b) ∧
      ∀ y, ¬(pa ≤ y ∧ y < pa + 16 + fr.bytes.length) → s'.mem.byte y = s.mem.byte y)) ∧
  (∀ (s : State) (io q : Fin 2) (n : BitVec 16), let old := tget (s.io io).txq q.val []
    ∃ s', exec (.txdoorWrite io q n) s = .next s' ∧ { s' with ios := s.ios } = s ∧
      (tget (s'.io io).txq q.val []).take old.length = old ∧
      (tget (s'.io io).txq q.val []).length = old.length + min n.toNat ((s.io io).ringSlots q - old.length)) ∧
  (∀ (s : State) (io q : Fin 2) (n : Nat) (rest : List Nat), let x := s.io io
    let pa := x.slotPa q (x.ringSlots q + n)
    tget x.txq q.val [] = n :: rest → x.ringOk q = true → s.ringHas pa = true → ((s.ringGet pa 16).getD 2 0).getLsbD 0 = false →
    ∃ s' b, exec (.txComplete io q) s = .next s' ∧ tget (s'.io io).txq q.val [] = rest ∧
      (s'.io io).ringPtr q 48 = (x.ringPtr q 48 + 1) % 2 ^ 16 ∧ s'.out = .msix (s.msixLink (74 + 2 * io.val + q.val)) (74 + 2 * io.val + q.val) :: .frame io q b :: s.out ∧
      b.length = min 2032 (ofBytes ((s.ringGet pa 16).take 2)) ∧ s'.mem = s.mem)
/-- The links.
Where this goes beyond the words of the rules it rests on the model's readings and choices of log 15, 50, 51, 59, 66. -/
def Obligations.HostLinks : Prop := HostAccess ∧ FronthaulFrames ∧ TokenTransport ∧ HostRings

/-! Registers and debug (R5, R166, R444 to R451) -/

/-- Registers whose written fields are stored; the others of their bits read as 0. -/
def plainWhole : List (PlainReg × Word) :=
  (((List.finRange 32).flatMap fun r => [(PlainReg.rgmbud r, 0xFFFFFFFFFFFF#64), (.rgexq r, BitVec.allOnes 64), (.rgctx r, 0xFFFFFFFFFFFFC0#64),
    (.rghur r, 0xFFFFFFFFFF03F#64), (.dtwin r, BitVec.allOnes 64), (.dbgdat r, BitVec.allOnes 64)]) ++
  ((List.finRange 2).flatMap fun io => [(PlainReg.haper io, 7#64), (.lctl io, 1#64), (.hdenyb io, 0xFFFFFFFF00001#64), (.ttself io, 0xFFFF#64)]) ++
  [(.dtstep, BitVec.allOnes 64)])
/-- R5, R12, R13, R166: what a write of a register leaves: fields that are stored, fields that keep their value, bits that a 1 clears (but flags that a commit of the same cycle has raised, R85), and registers that a write does not change. In recovery mode
nothing is written but what BAR0 still answers (R453). -/
def RegisterWrites : Prop :=
  ∀ (s : State) (v : Word),
    (∀ reg, s.recovery = true → inRecovery reg = false → exec (.registerWrite reg v) s = .next s) ∧
    (s.recovery = false →
      (∀ x ∈ plainWhole, ∃ s', exec (.registerWrite x.1 v) s = .next s' ∧ s'.readReg x.1 = v &&& x.2 ∧ s'.mem = s.mem ∧ s'.elements = s.elements) ∧
      (∀ r, ∀ x ∈ ([(.rgpgr r, 0x1FFF#64), (.rgmlen r, 0xFFFFFF#64), (.rghup r, 0xFFFF00000000#64)] : List (PlainReg × Word)),
        ∃ s', exec (.registerWrite x.1 v) s = .next s' ∧ OnlyRegion s s' r ∧ s'.readReg x.1 = (s.readReg x.1 &&& ~~~x.2) ||| (v &&& x.2)) ∧
      (∀ r, ∀ x ∈ ([(.rgstat r, 0xF#64), (.lqstat r, 0x30#64)] : List (PlainReg × Word)),
        ∃ s', exec (.registerWrite x.1 v) s = .next s' ∧ OnlyRegion s s' r ∧ s'.readReg x.1 = s.readReg x.1 &&& ~~~(v &&& x.2)) ∧
      (∀ d, ∃ s', exec (.registerWrite (.freest d) v) s = .next s' ∧ (s'.die d).freest = (s.die d).freest &&& ~~~(v &&& 1) ∧
        { s' with dies := s.dies } = s) ∧
      (∃ s', exec (.registerWrite .mbstat v) s = .next s' ∧ s'.modul.mbstat = s.modul.mbstat &&& ~~~(v &&& 0x18) ∧ { s' with modul := s.modul } = s) ∧
      (∀ r, let mask : Word := if (s.rg r).en then 0xFF001 else 0xFF007
        ∃ s', exec (.registerWrite (.rgctl r) v) s = .next s' ∧ OnlyRegion s s' r ∧
          (s'.rg r).ctl = ((s.rg r).ctl &&& ~~~mask) ||| (v &&& mask) ∧ s'.mem = s.mem) ∧
      (∀ t, ∃ s', exec (.registerWrite (.fenable t) v) s = .next s' ∧ OnlyElement s s' t ∧ (s'.el t).fenable.toNat = v.toNat % 16 ∧
        { s'.el t with fenable := (s.el t).fenable } = s.el t) ∧
      (∀ t f, bit v 8 = false ∨ bit ((s.el t).fac f).hstat 8 = false → ∃ s', exec (.registerWrite (.hstat t f) v) s = .next s' ∧ OnlyFacet s s' t f ∧
        ((s'.el t).fac f).hstat = ((s.el t).fac f).hstat &&& ~~~(v &&& 0x23F &&&
          ~~~(if ((s.el t).fac f).fresh.1 = s.cycle then ((s.el t).fac f).fresh.2.setWidth 64 else 0))) ∧
      (∀ r j f q, exec (.registerWrite .strmap v) s = .next s ∧ exec (.registerWrite .bootstat v) s = .next s ∧
        exec (.registerWrite (.mbdata j) v) s = .next s ∧ exec (.registerWrite (.rgphs r) v) s = .next s ∧
        exec (.registerWrite (.dtbcnt r q) v) s = .next s ∧ (∃ s', exec (.registerWrite (.rgphc r f q) v) s = .next s' ∧ OnlyRegion s s' r ∧
          tget (s'.rg r).phc (4 * f.val + q.val) 0 = v)))
/-- R447: a single match that reaches the trigger starts an idle window when DTRIG names it as START, and ends a running one when it names it as STOP, with a freeze where ACTION is 10; a match
while the region is frozen does nothing. -/
def Triggers : Prop :=
  ∀ (s : State) (r : RegionId) (b : Nat), let g := s.rg r
    ((g.matches_.filter fun m => decide (m.due ≤ s.cycle)) = [] → ∃ s', exec (.triggerEval r) s = .next s' ∧ OnlyRegion s s' r ∧ s'.rg r = g) ∧
    (((g.matches_.filter fun m => decide (m.due ≤ s.cycle)).map (·.bitNo)) = [b] →
      (s.frozen r = true → ∃ s', exec (.triggerEval r) s = .next s' ∧ OnlyRegion s s' r ∧ { s'.rg r with matches_ := g.matches_ } = g) ∧
      (s.frozen r = false → bit g.dtrig 26 = false → bit g.dtrig b = true →
        ∃ s', exec (.triggerEval r) s = .next s' ∧ OnlyRegion s s' r ∧ { s'.rg r with matches_ := g.matches_, dtrig := g.dtrig } = g ∧
          bit (s'.rg r).dtrig (if bit g.dtrig (12 + b) then 27 else 26) = true) ∧
      (s.frozen r = false → bit g.dtrig 26 = true → bit g.dtrig (12 + b) = true → fld g.dtrig 24 2 = 2 → g.freeze = none →
        ∃ s', exec (.triggerEval r) s = .next s' ∧ bit (s'.rg r).dtrig 26 = false ∧ (s'.rg r).freeze = some s.cycle ∧ s'.mem = s.mem) ∧
      (s.frozen r = false → bit g.dtrig 26 = true → bit g.dtrig (12 + b) = false →
        ∃ s', exec (.triggerEval r) s = .next s' ∧ OnlyRegion s s' r ∧ { s'.rg r with matches_ := g.matches_ } = g))
/-- R448, R449: GO starts a cut where none is under way and no save is, and a debug mark waits at every site that stamps the facet; the cut is held once the marks have come everywhere; its release lets
the nodes go on. -/
def Cuts : Prop :=
  ∀ (s : State) (r : RegionId), let g := s.rg r
    (∀ v, bit v 2 = false → exec (.cutStart r v) s = .next s) ∧
    (∀ v, bit v 2 = true → bit v 3 = false → let f : Facet := Fin.ofNat 4 (fld v 0 2)
      (g.preState = 0 → g.cutState = 0 → ∃ s', exec (.cutStart r v) s = .next s' ∧ (s'.rg r).cutState = 1 ∧ (s'.rg r).cutFac = f ∧
        (s'.rg r).ncut = (g.ncut + 1) % 2 ^ 32 ∧ s'.mem = s.mem ∧
        ∀ p ∈ g.sitesOf f, markTok f 3 ((g.ncut + 1) % 2 ^ 32) ∈ tget (s'.rg r).siteMarks p []) ∧
      (g.preState ≠ 0 → ∃ s', exec (.cutStart r v) s = .next s' ∧ OnlyRegion s s' r ∧ bit (s'.rg r).dcut 7 = true ∧
        (s'.rg r).cutState = g.cutState ∧ { s'.rg r with dcut := g.dcut } = g)) ∧
    (g.cutState = 1 →
      (s.cutReached r = false → exec (.cutHeld r) s = .next s) ∧
      (s.cutReached r = true → ∃ s', exec (.cutHeld r) s = .next s' ∧ (s'.rg r).cutState = 2 ∧ s'.mem = s.mem ∧ s'.elements = s.elements ∧
        s'.mts = s.mts)) ∧
    (g.cutState = 2 → ∃ s', exec (.cutRelease r) s = .next s' ∧ (s'.rg r).cutState = 0 ∧ (∀ t ∈ s.nodes r g.cutFac, s'.nodeHeld t g.cutFac = false) ∧
      s'.mem = s.mem) ∧
    (g.cutState ≠ 2 → exec (.cutRelease r) s = .next s)
/-- R444, R451: a write with GO sets BUSY where the access is permitted and in range, and ERR otherwise; when it ends BUSY clears, a read leaves a general register in DBGDAT, and a write changes it. -/
def DebugAccesses : Prop :=
  ∀ (s : State) (r : RegionId), let g := s.rg r
    (∀ v, ∃ s', exec (.debugAccess r v) s = .next s' ∧ OnlyRegion s s' r ∧ fld (s'.rg r).dbgadr 0 39 = fld v 0 39 ∧
      { s'.rg r with dbgadr := g.dbgadr } = g ∧
      (bit v 39 = true → bit g.dbgadr 40 = false →
        let ok := (s.modRg r (·.writeDbg v)).dbgOk r
        bit (s'.rg r).dbgadr 40 = ok ∧ (ok = false → bit (s'.rg r).dbgadr 41 = true)) ∧
      (bit v 39 = false → bit (s'.rg r).dbgadr 40 = bit g.dbgadr 40)) ∧
    (bit g.dbgadr 40 = false → exec (.debugAccessComplete r) s = .next s) ∧
    (bit g.dbgadr 40 = true →
      (s.dbgOk r = false → ∃ s', exec (.debugAccessComplete r) s = .next s' ∧ OnlyRegion s s' r ∧ bit (s'.rg r).dbgadr 40 = false ∧
        bit (s'.rg r).dbgadr 41 = true ∧ { s'.rg r with dbgadr := g.dbgadr } = g) ∧
      (s.dbgOk r = true → g.dbgPlace.space = 0 → (s.el g.dbgPlace.tile).act = none →
        let n := BitVec.ofNat 6 g.dbgPlace.index
        let reg (s : State) : Word := ((s.el g.dbgPlace.tile).fac g.dbgPlace.facet).bank.rg n
        (bit g.dbgadr 38 = false → ∃ s', exec (.debugAccessComplete r) s = .next s' ∧ OnlyRegion s s' r ∧ bit (s'.rg r).dbgadr 40 = false ∧
          (s'.rg r).dbgdat = reg s) ∧
        (bit g.dbgadr 38 = true → ∃ s', exec (.debugAccessComplete r) s = .next s' ∧ bit (s'.rg r).dbgadr 40 = false ∧ reg s' = g.dbgdat ∧
          s'.mem = s.mem ∧ ∀ u : Tile, u.key ≠ g.dbgPlace.tile.key → s'.el u = s.el u)))
/-- Registers and debug.
Where this goes beyond the words of the rules it rests on the model's readings and choices of log 52, 53, 55, 66. -/
def Obligations.RegistersAndDebug : Prop := RegisterWrites ∧ Triggers ∧ Cuts ∧ DebugAccesses

/-! Boot, monitors and the mailbox (R453 to R459) -/

/-- R453, R454: a reset leaves every part of the machine at reset but BOOTSTAT and the measurements, and what the outside world has still to do (log 10); slot A is started where its three checks pass, else slot B, else
none, which is recovery. -/
def Boots : Prop :=
  ∀ (s : State) (x : BootInputs), ∃ s', exec (.deviceReset x) s = .next s' ∧
    { s' with modul := State.reset.modul, free := State.reset.free, inbox := State.reset.inbox, upsets := State.reset.upsets, out := State.reset.out } = State.reset ∧
    s'.free = s.free ∧ s'.inbox = s.inbox ∧ s'.upsets = s.upsets ∧ s'.out = s.out ∧
    let a := x.slotA.rsa && x.slotA.slh && x.slotA.svn
    let b := x.slotB.rsa && x.slotB.slh && x.slotB.svn
    fld s'.modul.bootstat 0 2 = (if a then 0 else if b then 1 else 3) ∧ bit s'.modul.bootstat 8 = ((a || b) && x.loaderOk) ∧
    bit s'.modul.bootstat 9 = (!a && !b) ∧ bit s'.modul.bootstat 10 = (x.tripped || s.modul.tripped) ∧ s'.modul.measured.length = 4 ∧
    s'.modul.strmap = State.reset.modul.strmap
/-- R455: where Turox runs, a request gets one answer; a request that is not one of the seven gets an ERROR (log 16). -/
def Attests : Prop :=
  ∀ (s : State) (l : List Byte), (fld s.modul.bootstat 0 2 = 3 → exec (.spdmRequest l) s = .next s) ∧
    (fld s.modul.bootstat 0 2 ≠ 3 → ∃ s' a, exec (.spdmRequest l) s = .next s' ∧ s'.out = .spdm a :: s.out ∧ a.head? = some 0x13 ∧
      { s' with out := s.out, free := s.free } = s ∧
      ((l.getD 1 0) ∉ ([0x84, 0xE1, 0xE3, 0x81, 0x82, 0x83, 0xE0] : List Byte) → a = [0x13, 0x7F, 0x07, l.getD 1 0]))
/-- R456, R457: a sample, once in a microsecond, is stored; one at or above the warning threshold sets WARN and the mailbox's EVT; one of 620 or more resets the module. -/
def Monitors : Prop :=
  ∀ (s : State) (d : DieId) (temp vcore : BitVec 10),
    ((s.die d).newUs = false → exec (.monitorSample d temp vcore) s = .next s) ∧
    ((s.die d).newUs = true →
      (620 ≤ temp.toNat → ∃ s', exec (.monitorSample d temp vcore) s = .next s' ∧ s'.modul.tripped = true ∧ s'.elements = State.reset.elements ∧
        s'.regions = State.reset.regions ∧ s'.mem = State.reset.mem) ∧
      (temp.toNat < 620 → ∃ s', exec (.monitorSample d temp vcore) s = .next s' ∧ fld (s'.die d).hmon 0 10 = temp.toNat ∧
        fld (s'.die d).hmon 10 10 = vcore.toNat ∧ (∀ e, e ≠ d → s'.die e = s.die e) ∧ s'.mem = s.mem ∧ s'.elements = s.elements ∧
        (fld (s.die d).hmon 28 10 ≤ temp.toNat → bit (s'.die d).hmon 38 = true ∧ bit s'.modul.mbstat 4 = true) ∧
        (temp.toNat < fld (s.die d).hmon 28 10 → bit (s'.die d).hmon 38 = bit (s.die d).hmon 38 ∧ s'.modul = s.modul)))
/-- R458, R459: a command while BUSY gives STATUS 10; one that is not RESYNC, or any in recovery, STATUS 01 and DONE; RESYNC sets BUSY, takes the next sequence number and samples its first word within the
next 2,048 cycles; 64 cycles later BUSY clears and DONE is set. -/
def Mailbox : Prop :=
  ∀ (s : State) (v : Word),
    (bit v 16 = false → ∃ s', exec (.resync v) s = .next s' ∧ { s' with modul := { s'.modul with mbcmd := s.modul.mbcmd } } = s) ∧
    (bit v 16 = true →
      (bit s.modul.mbstat 0 = true → ∃ s', exec (.resync v) s = .next s' ∧ fld s'.modul.mbstat 1 2 = 2 ∧ s'.modul.resyncAt = s.modul.resyncAt ∧
        bit s'.modul.mbstat 0 = true) ∧
      (bit s.modul.mbstat 0 = false → s.recovery = true ∨ fld v 0 16 ≠ 1 → ∃ s', exec (.resync v) s = .next s' ∧ fld s'.modul.mbstat 1 2 = 1 ∧
        bit s'.modul.mbstat 3 = true ∧ bit s'.modul.mbstat 0 = false) ∧
      (bit s.modul.mbstat 0 = false → s.recovery = false → fld v 0 16 = 1 → ∃ s' c, exec (.resync v) s = .next s' ∧ bit s'.modul.mbstat 0 = true ∧
        s'.modul.resyncSeq = s.modul.resyncSeq + 1 ∧ s'.modul.resyncAt = some c ∧ s.cycle < c ∧ c ≤ s.cycle + 2048 ∧ s'.mem = s.mem)) ∧
    (s.modul.resyncAt = none → exec .resyncComplete s = .next s) ∧
    (∀ c, s.modul.resyncAt = some c →
      (s.cycle < c + 64 → exec .resyncComplete s = .next s) ∧
      (c + 64 ≤ s.cycle → ∃ s', exec .resyncComplete s = .next s' ∧ bit s'.modul.mbstat 0 = false ∧ fld s'.modul.mbstat 1 2 = 0 ∧
        bit s'.modul.mbstat 3 = true ∧ s'.modul.resyncAt = none ∧ s'.mem = s.mem ∧ s'.elements = s.elements))
/-- The module.
Where this goes beyond the words of the rules it rests on the model's readings and choices of log 10, 16, 54. -/
def Obligations.ModuleControl : Prop := Boots ∧ Attests ∧ Monitors ∧ Mailbox
end

