-- ==== Sys2Proof/Laws/Encoding.lean ====
section
/-! SUPPORT. Each field that the encoder lays down is the field that the decoder cuts out: for the codes, for the operand
specifiers, and for the five formats (R41 to R48). -/

namespace Sys2Proof

@[simp] theorem Match.ofBits_toBits (m : Match) : Match.ofBits m.toBits = m := by cases m <;> rfl
@[simp] theorem Rnd.ofBits_toBits (r : Rnd) : Rnd.ofBits r.toBits = r := by cases r <;> rfl
@[simp] theorem Esz.ofBits_toBits (e : Esz) : Esz.ofBits e.toBits = e := by cases e <;> rfl
@[simp] theorem Size.ofBits_toBits (z : Size) : Size.ofBits z.toBits = z := by cases z <;> rfl
@[simp] theorem Scope.ofBits_toBits (z : Scope) : Scope.ofBits z.toBits = z := by cases z <;> rfl
@[simp] theorem Cond.ofBits_toBits (c : Cond) : Cond.ofBits c.toBits = c := by cases c <;> rfl

/-- A specifier that is not reserved is read back (R48). -/
theorem Spec.ofBits_toBits (s : Spec) (h : s.isRsv = false) : Spec.ofBits s.toBits = s := by
  cases s with
  | g n => revert n; decide
  | v n => revert n; decide
  | inp n => revert n; decide
  | peek n => revert n; decide
  | outp n => revert n; decide
  | p n => revert n; decide
  | vz => rfl
  | lid => rfl
  | imm n => revert n; decide
  | rsv b => simp [Spec.isRsv] at h

/-- A field that lies in the lower part of a concatenation. -/
theorem cut_low {n m k lo : Nat} (x : BitVec n) (y : BitVec m) (h : lo + k ≤ m) :
    (x ++ y).extractLsb' lo k = y.extractLsb' lo k := by
  apply BitVec.eq_of_getLsbD_eq
  intro i hi
  simp only [BitVec.getLsbD_extractLsb', BitVec.getLsbD_append, show lo + i < m by omega, if_true]

/-- A field that lies in the upper part of a concatenation. -/
theorem cut_high {n m k lo : Nat} (x : BitVec n) (y : BitVec m) (h : m ≤ lo) :
    (x ++ y).extractLsb' lo k = x.extractLsb' (lo - m) k := by
  apply BitVec.eq_of_getLsbD_eq
  intro i hi
  simp only [BitVec.getLsbD_extractLsb', BitVec.getLsbD_append, show ¬ lo + i < m by omega, if_false,
    show lo + i - m = lo - m + i by omega]

/-- A field that is all of a vector. -/
theorem cut_all {n : Nat} (x : BitVec n) : x.extractLsb' 0 n = x := by
  apply BitVec.eq_of_getLsbD_eq
  intro i hi
  simp [hi]

theorem ofBool_bit (b : Bool) : (BitVec.ofBool b).getLsbD 0 = b := by cases b <;> rfl

/-- Guard, guard number and predicate match stand in bits [55:50] (R41). -/
structure HeadAt (w : Word) (op : BitVec 8) (h : Head) (d a : Spec) : Prop where
  op_ : cut w 56 8 = op
  gn : w.getLsbD 55 = h.gn
  gp : cut w 52 3 = h.gp
  pm : cut w 50 2 = h.pm.toBits
  d_ : cut w 42 8 = d.toBits
  a_ : cut w 34 8 = a.toBits

theorem Head.ofWord_of_at {w : Word} {op : BitVec 8} {h : Head} {d a : Spec} (H : HeadAt w op h d a) : Head.ofWord w = h := by
  simp only [Head.ofWord, H.gn, H.gp, H.pm, Match.ofBits_toBits]

/-- The upper 30 bits of every format. -/
theorem headAt (op : BitVec 8) (h : Head) (d a : Spec) (x : BitVec 34) : HeadAt (h.toBits op d a ++ x) op h d a where
  op_ := by simp (disch := decide) only [cut, Head.toBits, cut_high, cut_all, Nat.reduceSub]
  gn := by
    simp only [Head.toBits, BitVec.getLsbD_append, Nat.reduceLT, if_false, if_true, Nat.reduceSub, ofBool_bit]
  gp := by simp (disch := decide) only [cut, Head.toBits, cut_high, cut_low, cut_all, Nat.reduceSub]
  pm := by simp (disch := decide) only [cut, Head.toBits, cut_high, cut_low, cut_all, Nat.reduceSub]
  d_ := by simp (disch := decide) only [cut, Head.toBits, cut_high, cut_low, cut_all, Nat.reduceSub]
  a_ := by simp (disch := decide) only [cut, Head.toBits, cut_high, cut_low, cut_all, Nat.reduceSub]

/-- A word of a format is its upper 30 bits before the rest. -/
theorem RForm.toWord_eq (op : BitVec 8) (w : RForm) :
    w.toWord op = w.head.toBits op w.d w.a ++ (w.b.toBits ++ w.c.toBits ++ w.rnd.toBits ++ w.esz.toBits ++ w.fn : BitVec 34) := by
  simp only [RForm.toWord, BitVec.append_assoc, BitVec.cast_eq]
theorem BForm.toWord_eq (op : BitVec 8) (w : BForm) :
    w.toWord op = w.head.toBits op w.d w.a ++ (w.b.toBits ++ w.cond.toBits ++ w.zero ++ w.tgt : BitVec 34) := by
  simp only [BForm.toWord, BitVec.append_assoc, BitVec.cast_eq]
theorem MForm.toWord_eq (op : BitVec 8) (w : MForm) :
    w.toWord op = w.head.toBits op w.d w.a ++ (w.b.toBits ++ w.size.toBits ++ w.scope.toBits ++ w.disp : BitVec 34) := by
  simp only [MForm.toWord, BitVec.append_assoc, BitVec.cast_eq]
theorem EForm.toWord_eq (op : BitVec 8) (w : EForm) :
    w.toWord op = w.head.toBits op w.d w.a ++ (w.b.toBits ++ w.c.toBits ++ w.mod : BitVec 34) := by
  simp only [EForm.toWord, BitVec.append_assoc, BitVec.cast_eq]

theorem RForm.at_ (op : BitVec 8) (w : RForm) : HeadAt (w.toWord op) op w.head w.d w.a := by rw [w.toWord_eq]; exact headAt ..
theorem IForm.at_ (op : BitVec 8) (w : IForm) : HeadAt (w.toWord op) op w.head w.d w.a := headAt ..
theorem BForm.at_ (op : BitVec 8) (w : BForm) : HeadAt (w.toWord op) op w.head w.d w.a := by rw [w.toWord_eq]; exact headAt ..
theorem MForm.at_ (op : BitVec 8) (w : MForm) : HeadAt (w.toWord op) op w.head w.d w.a := by rw [w.toWord_eq]; exact headAt ..
theorem EForm.at_ (op : BitVec 8) (w : EForm) : HeadAt (w.toWord op) op w.head w.d w.a := by rw [w.toWord_eq]; exact headAt ..

theorem RForm.ofWord_toWord (op : BitVec 8) (w : RForm) (hd : w.d.isRsv = false) (ha : w.a.isRsv = false) (hb : w.b.isRsv = false)
    (hc : w.c.isRsv = false) : RForm.ofWord (w.toWord op) = w := by
  have H := w.at_ op
  have e1 : cut (w.toWord op) 26 8 = w.b.toBits := by simp (disch := decide) only [cut, RForm.toWord, cut_high, cut_low, cut_all, Nat.reduceSub]
  have e2 : cut (w.toWord op) 18 8 = w.c.toBits := by simp (disch := decide) only [cut, RForm.toWord, cut_high, cut_low, cut_all, Nat.reduceSub]
  have e3 : cut (w.toWord op) 15 3 = w.rnd.toBits := by simp (disch := decide) only [cut, RForm.toWord, cut_high, cut_low, cut_all, Nat.reduceSub]
  have e4 : cut (w.toWord op) 12 3 = w.esz.toBits := by simp (disch := decide) only [cut, RForm.toWord, cut_high, cut_low, cut_all, Nat.reduceSub]
  have e5 : cut (w.toWord op) 0 12 = w.fn := by simp (disch := decide) only [cut, RForm.toWord, cut_high, cut_low, cut_all, Nat.reduceSub]
  simp only [RForm.ofWord, Head.ofWord_of_at H, H.d_, H.a_, e1, e2, e3, e4, e5, Spec.ofBits_toBits _ hd, Spec.ofBits_toBits _ ha,
    Spec.ofBits_toBits _ hb, Spec.ofBits_toBits _ hc, Rnd.ofBits_toBits, Esz.ofBits_toBits]

theorem IForm.ofWord_toWord (op : BitVec 8) (w : IForm) (hd : w.d.isRsv = false) (ha : w.a.isRsv = false) :
    IForm.ofWord (w.toWord op) = w := by
  have H := w.at_ op
  have e1 : cut (w.toWord op) 0 34 = w.imm := by simp (disch := decide) only [cut, IForm.toWord, cut_low, cut_all]
  simp only [IForm.ofWord, Head.ofWord_of_at H, H.d_, H.a_, e1, Spec.ofBits_toBits _ hd, Spec.ofBits_toBits _ ha]

theorem BForm.ofWord_toWord (op : BitVec 8) (w : BForm) (hd : w.d.isRsv = false) (ha : w.a.isRsv = false) (hb : w.b.isRsv = false) :
    BForm.ofWord (w.toWord op) = w := by
  have H := w.at_ op
  have e1 : cut (w.toWord op) 26 8 = w.b.toBits := by simp (disch := decide) only [cut, BForm.toWord, cut_high, cut_low, cut_all, Nat.reduceSub]
  have e2 : cut (w.toWord op) 22 4 = w.cond.toBits := by simp (disch := decide) only [cut, BForm.toWord, cut_high, cut_low, cut_all, Nat.reduceSub]
  have e3 : cut (w.toWord op) 11 11 = w.zero := by simp (disch := decide) only [cut, BForm.toWord, cut_high, cut_low, cut_all, Nat.reduceSub]
  have e4 : cut (w.toWord op) 0 11 = w.tgt := by simp (disch := decide) only [cut, BForm.toWord, cut_high, cut_low, cut_all, Nat.reduceSub]
  simp only [BForm.ofWord, Head.ofWord_of_at H, H.d_, H.a_, e1, e2, e3, e4, Spec.ofBits_toBits _ hd, Spec.ofBits_toBits _ ha,
    Spec.ofBits_toBits _ hb, Cond.ofBits_toBits]

theorem MForm.ofWord_toWord (op : BitVec 8) (w : MForm) (hd : w.d.isRsv = false) (ha : w.a.isRsv = false) (hb : w.b.isRsv = false) :
    MForm.ofWord (w.toWord op) = w := by
  have H := w.at_ op
  have e1 : cut (w.toWord op) 26 8 = w.b.toBits := by simp (disch := decide) only [cut, MForm.toWord, cut_high, cut_low, cut_all, Nat.reduceSub]
  have e2 : cut (w.toWord op) 23 3 = w.size.toBits := by simp (disch := decide) only [cut, MForm.toWord, cut_high, cut_low, cut_all, Nat.reduceSub]
  have e3 : cut (w.toWord op) 20 3 = w.scope.toBits := by simp (disch := decide) only [cut, MForm.toWord, cut_high, cut_low, cut_all, Nat.reduceSub]
  have e4 : cut (w.toWord op) 0 20 = w.disp := by simp (disch := decide) only [cut, MForm.toWord, cut_high, cut_low, cut_all, Nat.reduceSub]
  simp only [MForm.ofWord, Head.ofWord_of_at H, H.d_, H.a_, e1, e2, e3, e4, Spec.ofBits_toBits _ hd, Spec.ofBits_toBits _ ha,
    Spec.ofBits_toBits _ hb, Size.ofBits_toBits, Scope.ofBits_toBits]

theorem EForm.ofWord_toWord (op : BitVec 8) (w : EForm) (hd : w.d.isRsv = false) (ha : w.a.isRsv = false) (hb : w.b.isRsv = false)
    (hc : w.c.isRsv = false) : EForm.ofWord (w.toWord op) = w := by
  have H := w.at_ op
  have e1 : cut (w.toWord op) 26 8 = w.b.toBits := by simp (disch := decide) only [cut, EForm.toWord, cut_high, cut_low, cut_all, Nat.reduceSub]
  have e2 : cut (w.toWord op) 18 8 = w.c.toBits := by simp (disch := decide) only [cut, EForm.toWord, cut_high, cut_low, cut_all, Nat.reduceSub]
  have e3 : cut (w.toWord op) 0 18 = w.mod := by simp (disch := decide) only [cut, EForm.toWord, cut_high, cut_low, cut_all, Nat.reduceSub]
  simp only [EForm.ofWord, Head.ofWord_of_at H, H.d_, H.a_, e1, e2, e3, Spec.ofBits_toBits _ hd, Spec.ofBits_toBits _ ha,
    Spec.ofBits_toBits _ hb, Spec.ofBits_toBits _ hc]

/-! A word that passes the decode checks names no reserved specifier (R57) -/

theorem Cls.not_rsv (c : Cls) (z : Spec) (h : c.accepts z = true) : z.isRsv = false := by
  cases c <;> cases z <;> simp_all [Cls.accepts, Spec.isRsv, Spec.isZero]

theorem checkFields_not_rsv (b : Bool) (ops : List (Cls × Spec)) (h : checkFields b ops = none) : ∀ o ∈ ops, o.2.isRsv = false := by
  simp only [checkFields] at h
  split at h
  · simp at h
  · split at h
    · simp at h
    · split at h
      · simp at h
      · rename_i _ _ h3
        simp only [Bool.not_eq_true', Bool.not_eq_false] at h3
        exact fun o ho => Cls.not_rsv o.1 o.2 (List.all_eq_true.1 h3 o ho)

theorem RForm.not_rsv (w : RForm) (z : RShape) (h : w.check z = none) :
    w.d.isRsv = false ∧ w.a.isRsv = false ∧ w.b.isRsv = false ∧ w.c.isRsv = false := by
  have := checkFields_not_rsv _ _ h
  exact ⟨this (z.d, w.d) (by simp), this (z.a, w.a) (by simp), this (z.b, w.b) (by simp), this (z.c, w.c) (by simp)⟩
theorem IForm.not_rsv (w : IForm) (d a : Cls) (b : Bool) (h : w.check d a b = none) : w.d.isRsv = false ∧ w.a.isRsv = false := by
  have := checkFields_not_rsv _ _ h
  exact ⟨this (d, w.d) (by simp), this (a, w.a) (by simp)⟩
theorem BForm.not_rsv (w : BForm) (d a b : Cls) (c : Bool) (h : w.check d a b c = none) :
    w.d.isRsv = false ∧ w.a.isRsv = false ∧ w.b.isRsv = false := by
  have := checkFields_not_rsv _ _ h
  exact ⟨this (d, w.d) (by simp), this (a, w.a) (by simp), this (b, w.b) (by simp)⟩
theorem MForm.not_rsv (w : MForm) (d a b : Cls) (z : List Size) (c e : Bool) (h : w.check d a b z c e = none) :
    w.d.isRsv = false ∧ w.a.isRsv = false ∧ w.b.isRsv = false := by
  have := checkFields_not_rsv _ _ h
  exact ⟨this (d, w.d) (by simp), this (a, w.a) (by simp), this (b, w.b) (by simp)⟩
theorem EForm.not_rsv (w : EForm) (a b : Cls) (c : Bool) (h : w.check a b c = none) :
    w.d.isRsv = false ∧ w.a.isRsv = false ∧ w.b.isRsv = false ∧ w.c.isRsv = false := by
  have := checkFields_not_rsv _ _ h
  exact ⟨this (.outPort, w.d) (by simp), this (a, w.a) (by simp), this (b, w.b) (by simp), this (.unused, w.c) (by simp)⟩

theorem RForm.roundTrip (w : RForm) (z : RShape) (op : BitVec 8) (h : w.check z = none) : RForm.ofWord (w.toWord op) = w := by
  obtain ⟨h1, h2, h3, h4⟩ := w.not_rsv z h
  exact w.ofWord_toWord op h1 h2 h3 h4
theorem IForm.roundTrip (w : IForm) (d a : Cls) (b : Bool) (op : BitVec 8) (h : w.check d a b = none) :
    IForm.ofWord (w.toWord op) = w := by
  obtain ⟨h1, h2⟩ := w.not_rsv d a b h
  exact w.ofWord_toWord op h1 h2
theorem BForm.roundTrip (w : BForm) (d a b : Cls) (c : Bool) (op : BitVec 8) (h : w.check d a b c = none) :
    BForm.ofWord (w.toWord op) = w := by
  obtain ⟨h1, h2, h3⟩ := w.not_rsv d a b c h
  exact w.ofWord_toWord op h1 h2 h3
theorem MForm.roundTrip (w : MForm) (d a b : Cls) (z : List Size) (c e : Bool) (op : BitVec 8) (h : w.check d a b z c e = none) :
    MForm.ofWord (w.toWord op) = w := by
  obtain ⟨h1, h2, h3⟩ := w.not_rsv d a b z c e h
  exact w.ofWord_toWord op h1 h2 h3
theorem EForm.roundTrip (w : EForm) (a b : Cls) (c : Bool) (op : BitVec 8) (h : w.check a b c = none) :
    EForm.ofWord (w.toWord op) = w := by
  obtain ⟨h1, h2, h3, h4⟩ := w.not_rsv a b c h
  exact w.ofWord_toWord op h1 h2 h3 h4

/-- An instruction that passes its checks and that the split of its word gives back is what its word decodes to. -/
theorem decode_of_split (w : Word) (i : Instr) (h : splitWord w = i) (hc : i.check = none) : decode w = .ok i := by
  rw [decode, h, hc]

theorem Instr.check_of_wf (i : Instr) (h : i.wf = true) : i.check = none := by
  simp only [Instr.wf, Bool.and_eq_true, Option.isNone_iff_eq_none] at h
  exact h.1.1

end Sys2Proof
end

