-- ==== Sys2Proof/Laws/Tables.lean ====
section
/-! SUPPORT. Laws of the tables, of the rising lists and of one component of a vector: read after write, writes elsewhere, and the
canonical order that every write keeps. -/

namespace Sys2Proof.Machine

@[simp] theorem tget_tset_same {α : Type} (m : Tab α) (k : Nat) (v d : α) : tget (tset m k v) k d = v := by
  induction m with
  | nil => simp [tset, tget]
  | cons x m ih =>
    obtain ⟨k', v'⟩ := x
    simp only [tset]
    split
    · simp [tget]
    · split
      · simp [tget]
      · rename_i h1 h2
        simp [tget, Ne.symm h2, ih]

theorem tget_tset_other {α : Type} (m : Tab α) (k k' : Nat) (v d : α) (h : k' ≠ k) : tget (tset m k v) k' d = tget m k' d := by
  induction m with
  | nil => simp [tset, tget, Ne.symm h]
  | cons x m ih =>
    obtain ⟨j, u⟩ := x
    simp only [tset]
    split
    · simp [tget, Ne.symm h]
    · split
      · rename_i h1 h2
        subst h2
        simp [tget, Ne.symm h]
      · simp [tget, ih]

/-- Every key of a table is at least a bound. -/
def keysAbove {α : Type} (b : Nat) (m : Tab α) : Prop := ∀ x ∈ m, b < x.1

theorem risingKeys_cons {α : Type} (k : Nat) (v : α) (m : Tab α) :
    risingKeys ((k, v) :: m) = true ↔ keysAbove k m ∧ risingKeys m = true := by
  induction m generalizing k v with
  | nil => simp [risingKeys, keysAbove]
  | cons y m ih =>
    obtain ⟨j, u⟩ := y
    simp only [risingKeys, Bool.and_eq_true, decide_eq_true_eq]
    constructor
    · rintro ⟨h1, h2⟩
      refine ⟨?_, h2⟩
      have := ((ih j u).1 h2).1
      intro x hx
      rcases List.mem_cons.1 hx with rfl | hx
      · exact h1
      · exact h1.trans (this x hx)
    · rintro ⟨h1, h2⟩
      exact ⟨h1 (j, u) (by simp), h2⟩

theorem keysAbove_tset {α : Type} (b : Nat) (m : Tab α) (k : Nat) (v : α) (h : keysAbove b m) (hk : b < k) :
    keysAbove b (tset m k v) := by
  induction m with
  | nil => simpa [tset, keysAbove] using hk
  | cons x m ih =>
    obtain ⟨j, u⟩ := x
    have h1 : b < j := h (j, u) (by simp)
    have h2 : keysAbove b m := fun x hx => h x (by simp [hx])
    simp only [tset]
    split
    · intro x hx
      simp only [List.mem_cons] at hx
      rcases hx with rfl | rfl | hx
      · exact hk
      · exact h1
      · exact h2 x hx
    · split
      · intro x hx
        simp only [List.mem_cons] at hx
        rcases hx with rfl | hx
        · exact hk
        · exact h2 x hx
      · intro x hx
        simp only [List.mem_cons] at hx
        rcases hx with rfl | hx
        · exact h1
        · exact ih h2 x hx

theorem risingKeys_tset {α : Type} (m : Tab α) (k : Nat) (v : α) (h : risingKeys m = true) : risingKeys (tset m k v) = true := by
  induction m with
  | nil => rfl
  | cons x m ih =>
    obtain ⟨j, u⟩ := x
    obtain ⟨h1, h2⟩ := (risingKeys_cons j u m).1 h
    simp only [tset]
    split
    · rename_i hk
      refine (risingKeys_cons k v _).2 ⟨?_, h⟩
      intro x hx
      rcases List.mem_cons.1 hx with rfl | hx
      · exact hk
      · exact hk.trans (h1 x hx)
    · split
      · rename_i h3 h4
        subst h4
        exact (risingKeys_cons k v m).2 ⟨h1, h2⟩
      · rename_i h3 h4
        exact (risingKeys_cons j u _).2 ⟨keysAbove_tset j m k v h1 (by omega), ih h2⟩

theorem mem_of_mem_tdel {α : Type} (m : Tab α) (k : Nat) (x : Nat × α) (h : x ∈ tdel m k) : x ∈ m := by
  induction m with
  | nil => simp [tdel] at h
  | cons y m ih =>
    simp only [tdel] at h
    split at h
    · simp [h]
    · rcases List.mem_cons.1 h with rfl | h
      · simp
      · simp [ih h]

theorem risingKeys_tdel {α : Type} (m : Tab α) (k : Nat) (h : risingKeys m = true) : risingKeys (tdel m k) = true := by
  induction m with
  | nil => rfl
  | cons x m ih =>
    obtain ⟨j, u⟩ := x
    obtain ⟨h1, h2⟩ := (risingKeys_cons j u m).1 h
    simp only [tdel]
    split
    · exact h2
    · exact (risingKeys_cons j u _).2 ⟨fun x hx => h1 x (mem_of_mem_tdel m k x hx), ih h2⟩

theorem tget_of_keysAbove {α : Type} (m : Tab α) (k : Nat) (d : α) (h : keysAbove k m) : tget m k d = d := by
  induction m with
  | nil => rfl
  | cons x m ih =>
    obtain ⟨j, u⟩ := x
    have hj : k < j := h (j, u) (by simp)
    rw [tget, if_neg (by omega)]
    exact ih fun x hx => h x (by simp [hx])

theorem tget_tdel_same {α : Type} (m : Tab α) (k : Nat) (d : α) (h : risingKeys m = true) : tget (tdel m k) k d = d := by
  induction m with
  | nil => rfl
  | cons x m ih =>
    obtain ⟨j, u⟩ := x
    obtain ⟨h1, h2⟩ := (risingKeys_cons j u m).1 h
    simp only [tdel]
    split
    · rename_i hj
      subst hj
      exact tget_of_keysAbove m j d h1
    · rename_i hj
      rw [tget, if_neg hj]
      exact ih h2

theorem tget_tdel_other {α : Type} (m : Tab α) (k k' : Nat) (d : α) (h : k' ≠ k) : tget (tdel m k) k' d = tget m k' d := by
  induction m with
  | nil => rfl
  | cons x m ih =>
    obtain ⟨j, u⟩ := x
    simp only [tdel]
    split
    · rename_i hj
      subst hj
      simp [tget, Ne.symm h]
    · simp [tget, ih]

theorem mem_tset {α : Type} (m : Tab α) (k : Nat) (v : α) (x : Nat × α) (h : x ∈ tset m k v) : x = (k, v) ∨ x ∈ m := by
  induction m with
  | nil => simpa [tset] using h
  | cons y m ih =>
    simp only [tset] at h
    split at h
    · simpa using h
    · split at h
      · rcases List.mem_cons.1 h with rfl | h
        · exact .inl rfl
        · exact .inr (by simp [h])
      · rcases List.mem_cons.1 h with rfl | h
        · exact .inr (by simp)
        · rcases ih h with rfl | h
          · exact .inl rfl
          · exact .inr (by simp [h])

/-! Rising lists of numbers -/

theorem rising_cons (k : Nat) (l : List Nat) : rising (k :: l) = true ↔ (∀ x ∈ l, k < x) ∧ rising l = true := by
  induction l generalizing k with
  | nil => simp [rising]
  | cons j l ih =>
    simp only [rising, Bool.and_eq_true, decide_eq_true_eq]
    constructor
    · rintro ⟨h1, h2⟩
      refine ⟨?_, h2⟩
      have := ((ih j).1 h2).1
      intro x hx
      rcases List.mem_cons.1 hx with rfl | hx
      · exact h1
      · exact h1.trans (this x hx)
    · rintro ⟨h1, h2⟩
      exact ⟨h1 j (by simp), h2⟩

theorem mem_sins (l : List Nat) (k x : Nat) : x ∈ sins l k ↔ x = k ∨ x ∈ l := by
  induction l with
  | nil => simp [sins]
  | cons j l ih =>
    simp only [sins]
    split
    · simp
    · split
      · rename_i h1 h2
        subst h2
        simp
      · simp only [List.mem_cons, ih]
        tauto

theorem rising_sins (l : List Nat) (k : Nat) (h : rising l = true) : rising (sins l k) = true := by
  induction l with
  | nil => rfl
  | cons j l ih =>
    obtain ⟨h1, h2⟩ := (rising_cons j l).1 h
    simp only [sins]
    split
    · rename_i hk
      refine (rising_cons k _).2 ⟨?_, h⟩
      intro x hx
      rcases List.mem_cons.1 hx with rfl | hx
      · exact hk
      · exact hk.trans (h1 x hx)
    · split
      · exact h
      · refine (rising_cons j _).2 ⟨?_, ih h2⟩
        intro x hx
        rcases (mem_sins l k x).1 hx with rfl | hx
        · omega
        · exact h1 x hx

theorem mem_of_mem_sdel (l : List Nat) (k x : Nat) (h : x ∈ sdel l k) : x ∈ l := by
  induction l with
  | nil => simp [sdel] at h
  | cons j l ih =>
    simp only [sdel] at h
    split at h
    · simp [h]
    · rcases List.mem_cons.1 h with rfl | h
      · simp
      · simp [ih h]

theorem rising_sdel (l : List Nat) (k : Nat) (h : rising l = true) : rising (sdel l k) = true := by
  induction l with
  | nil => rfl
  | cons j l ih =>
    obtain ⟨h1, h2⟩ := (rising_cons j l).1 h
    simp only [sdel]
    split
    · exact h2
    · exact (rising_cons j _).2 ⟨fun x hx => h1 x (mem_of_mem_sdel l k x hx), ih h2⟩

theorem rising_sput (l : List Nat) (k : Nat) (b : Bool) (h : rising l = true) : rising (sput l k b) = true := by
  cases b
  · exact rising_sdel l k h
  · exact rising_sins l k h

theorem mem_sdel (l : List Nat) (k x : Nat) (h : rising l = true) : x ∈ sdel l k ↔ x ∈ l ∧ x ≠ k := by
  induction l with
  | nil => simp [sdel]
  | cons j l ih =>
    obtain ⟨h1, h2⟩ := (rising_cons j l).1 h
    simp only [sdel]
    split
    · rename_i hj
      subst hj
      constructor
      · intro hx
        exact ⟨by simp [hx], by have := h1 x hx; omega⟩
      · rintro ⟨hx, hn⟩
        rcases List.mem_cons.1 hx with rfl | hx
        · exact absurd rfl hn
        · exact hx
    · rename_i hj
      simp only [List.mem_cons, ih h2]
      constructor
      · rintro (rfl | ⟨hx, hn⟩)
        · exact ⟨.inl rfl, hj⟩
        · exact ⟨.inr hx, hn⟩
      · rintro ⟨rfl | hx, hn⟩
        · exact .inl rfl
        · exact .inr ⟨hx, hn⟩

theorem mem_sput (l : List Nat) (k x : Nat) (b : Bool) (h : rising l = true) :
    x ∈ sput l k b ↔ if x = k then b = true else x ∈ l := by
  cases b
  · simp only [sput, Bool.false_eq_true, if_false, mem_sdel l k x h]
    split <;> simp_all
  · simp only [sput, if_true, mem_sins]
    split <;> simp_all

/-! Components of a vector -/

theorem vget_eq_getElem {α : Type} {n : Nat} (v : Vector α n) (i : Fin n) : v.get i = v[i.val] := rfl

@[simp] theorem vget_vset_same {α : Type} {n : Nat} (v : Vector α n) (i : Fin n) (x : α) : (vset v i x).get i = x := by
  rw [vget_eq_getElem, vset, Vector.getElem_set_self]

theorem vget_vset_other {α : Type} {n : Nat} (v : Vector α n) (i j : Fin n) (x : α) (h : j ≠ i) :
    (vset v i x).get j = v.get j := by
  rw [vget_eq_getElem, vget_eq_getElem, vset, Vector.getElem_set_ne]
  exact fun e => h (Fin.ext e.symm)

@[simp] theorem vget_vmod_same {α : Type} {n : Nat} (v : Vector α n) (i : Fin n) (f : α → α) :
    (vmod v i f).get i = f (v.get i) := by simp [vmod]

theorem vget_vmod_other {α : Type} {n : Nat} (v : Vector α n) (i j : Fin n) (f : α → α) (h : j ≠ i) :
    (vmod v i f).get j = v.get j := by rw [vmod, vget_vset_other v i j _ h]

end Sys2Proof.Machine
end

