-- ==== Sys2Proof/Laws/State.lean ====
section
/-! SUPPORT. Laws of the updates of State: for each update, every field that it leaves alone, and what the accessors read after it. -/

namespace Sys2Proof.Machine

/-! setEl -/

@[simp] theorem State.setEl_switches (s : State) (t : Tile) (e : Element) : (s.setEl t e).switches = s.switches := rfl
@[simp] theorem State.setEl_mts (s : State) (t : Tile) (e : Element) : (s.setEl t e).mts = s.mts := rfl
@[simp] theorem State.setEl_regions (s : State) (t : Tile) (e : Element) : (s.setEl t e).regions = s.regions := rfl
@[simp] theorem State.setEl_dies (s : State) (t : Tile) (e : Element) : (s.setEl t e).dies = s.dies := rfl
@[simp] theorem State.setEl_ios (s : State) (t : Tile) (e : Element) : (s.setEl t e).ios = s.ios := rfl
@[simp] theorem State.setEl_modul (s : State) (t : Tile) (e : Element) : (s.setEl t e).modul = s.modul := rfl
@[simp] theorem State.setEl_clasps (s : State) (t : Tile) (e : Element) : (s.setEl t e).clasps = s.clasps := rfl
@[simp] theorem State.setEl_mem (s : State) (t : Tile) (e : Element) : (s.setEl t e).mem = s.mem := rfl
@[simp] theorem State.setEl_holds (s : State) (t : Tile) (e : Element) : (s.setEl t e).holds = s.holds := rfl
@[simp] theorem State.setEl_reexam (s : State) (t : Tile) (e : Element) : (s.setEl t e).reexam = s.reexam := rfl
@[simp] theorem State.setEl_reqs (s : State) (t : Tile) (e : Element) : (s.setEl t e).reqs = s.reqs := rfl
@[simp] theorem State.setEl_walks (s : State) (t : Tile) (e : Element) : (s.setEl t e).walks = s.walks := rfl
@[simp] theorem State.setEl_power (s : State) (t : Tile) (e : Element) : (s.setEl t e).power = s.power := rfl
@[simp] theorem State.setEl_out (s : State) (t : Tile) (e : Element) : (s.setEl t e).out = s.out := rfl
@[simp] theorem State.setEl_answer (s : State) (t : Tile) (e : Element) : (s.setEl t e).answer = s.answer := rfl
@[simp] theorem State.setEl_moved (s : State) (t : Tile) (e : Element) : (s.setEl t e).moved = s.moved := rfl
@[simp] theorem State.setEl_turns (s : State) (t : Tile) (e : Element) : (s.setEl t e).turns = s.turns := rfl
@[simp] theorem State.setEl_upsets (s : State) (t : Tile) (e : Element) : (s.setEl t e).upsets = s.upsets := rfl
@[simp] theorem State.setEl_cycle (s : State) (t : Tile) (e : Element) : (s.setEl t e).cycle = s.cycle := rfl
@[simp] theorem State.setEl_agenda (s : State) (t : Tile) (e : Element) : (s.setEl t e).agenda = s.agenda := rfl
@[simp] theorem State.setEl_inbox (s : State) (t : Tile) (e : Element) : (s.setEl t e).inbox = s.inbox := rfl
@[simp] theorem State.setEl_cur (s : State) (t : Tile) (e : Element) : (s.setEl t e).cur = s.cur := rfl
@[simp] theorem State.setEl_free (s : State) (t : Tile) (e : Element) : (s.setEl t e).free = s.free := rfl
@[simp] theorem State.setEl_nextId (s : State) (t : Tile) (e : Element) : (s.setEl t e).nextId = s.nextId := rfl
@[simp] theorem State.setEl_sw (s : State) (t : Tile) (e : Element) (u : Tile) : (s.setEl t e).sw u = s.sw u := rfl
@[simp] theorem State.setEl_mt (s : State) (t : Tile) (e : Element) (u : Tile) : (s.setEl t e).mt u = s.mt u := rfl
@[simp] theorem State.setEl_rg (s : State) (t : Tile) (e : Element) (q : RegionId) : (s.setEl t e).rg q = s.rg q := rfl
@[simp] theorem State.setEl_die (s : State) (t : Tile) (e : Element) (q : DieId) : (s.setEl t e).die q = s.die q := rfl
@[simp] theorem State.setEl_io (s : State) (t : Tile) (e : Element) (q : Fin 2) : (s.setEl t e).io q = s.io q := rfl

/-! modEl -/

@[simp] theorem State.modEl_switches (s : State) (t : Tile) (g : Element → Element) : (s.modEl t g).switches = s.switches := rfl
@[simp] theorem State.modEl_mts (s : State) (t : Tile) (g : Element → Element) : (s.modEl t g).mts = s.mts := rfl
@[simp] theorem State.modEl_regions (s : State) (t : Tile) (g : Element → Element) : (s.modEl t g).regions = s.regions := rfl
@[simp] theorem State.modEl_dies (s : State) (t : Tile) (g : Element → Element) : (s.modEl t g).dies = s.dies := rfl
@[simp] theorem State.modEl_ios (s : State) (t : Tile) (g : Element → Element) : (s.modEl t g).ios = s.ios := rfl
@[simp] theorem State.modEl_modul (s : State) (t : Tile) (g : Element → Element) : (s.modEl t g).modul = s.modul := rfl
@[simp] theorem State.modEl_clasps (s : State) (t : Tile) (g : Element → Element) : (s.modEl t g).clasps = s.clasps := rfl
@[simp] theorem State.modEl_mem (s : State) (t : Tile) (g : Element → Element) : (s.modEl t g).mem = s.mem := rfl
@[simp] theorem State.modEl_holds (s : State) (t : Tile) (g : Element → Element) : (s.modEl t g).holds = s.holds := rfl
@[simp] theorem State.modEl_reexam (s : State) (t : Tile) (g : Element → Element) : (s.modEl t g).reexam = s.reexam := rfl
@[simp] theorem State.modEl_reqs (s : State) (t : Tile) (g : Element → Element) : (s.modEl t g).reqs = s.reqs := rfl
@[simp] theorem State.modEl_walks (s : State) (t : Tile) (g : Element → Element) : (s.modEl t g).walks = s.walks := rfl
@[simp] theorem State.modEl_power (s : State) (t : Tile) (g : Element → Element) : (s.modEl t g).power = s.power := rfl
@[simp] theorem State.modEl_out (s : State) (t : Tile) (g : Element → Element) : (s.modEl t g).out = s.out := rfl
@[simp] theorem State.modEl_answer (s : State) (t : Tile) (g : Element → Element) : (s.modEl t g).answer = s.answer := rfl
@[simp] theorem State.modEl_moved (s : State) (t : Tile) (g : Element → Element) : (s.modEl t g).moved = s.moved := rfl
@[simp] theorem State.modEl_turns (s : State) (t : Tile) (g : Element → Element) : (s.modEl t g).turns = s.turns := rfl
@[simp] theorem State.modEl_upsets (s : State) (t : Tile) (g : Element → Element) : (s.modEl t g).upsets = s.upsets := rfl
@[simp] theorem State.modEl_cycle (s : State) (t : Tile) (g : Element → Element) : (s.modEl t g).cycle = s.cycle := rfl
@[simp] theorem State.modEl_agenda (s : State) (t : Tile) (g : Element → Element) : (s.modEl t g).agenda = s.agenda := rfl
@[simp] theorem State.modEl_inbox (s : State) (t : Tile) (g : Element → Element) : (s.modEl t g).inbox = s.inbox := rfl
@[simp] theorem State.modEl_cur (s : State) (t : Tile) (g : Element → Element) : (s.modEl t g).cur = s.cur := rfl
@[simp] theorem State.modEl_free (s : State) (t : Tile) (g : Element → Element) : (s.modEl t g).free = s.free := rfl
@[simp] theorem State.modEl_nextId (s : State) (t : Tile) (g : Element → Element) : (s.modEl t g).nextId = s.nextId := rfl
@[simp] theorem State.modEl_sw (s : State) (t : Tile) (g : Element → Element) (u : Tile) : (s.modEl t g).sw u = s.sw u := rfl
@[simp] theorem State.modEl_mt (s : State) (t : Tile) (g : Element → Element) (u : Tile) : (s.modEl t g).mt u = s.mt u := rfl
@[simp] theorem State.modEl_rg (s : State) (t : Tile) (g : Element → Element) (q : RegionId) : (s.modEl t g).rg q = s.rg q := rfl
@[simp] theorem State.modEl_die (s : State) (t : Tile) (g : Element → Element) (q : DieId) : (s.modEl t g).die q = s.die q := rfl
@[simp] theorem State.modEl_io (s : State) (t : Tile) (g : Element → Element) (q : Fin 2) : (s.modEl t g).io q = s.io q := rfl

/-! modFac -/

@[simp] theorem State.modFac_switches (s : State) (t : Tile) (f : Facet) (g : FacetEl → FacetEl) : (s.modFac t f g).switches = s.switches := rfl
@[simp] theorem State.modFac_mts (s : State) (t : Tile) (f : Facet) (g : FacetEl → FacetEl) : (s.modFac t f g).mts = s.mts := rfl
@[simp] theorem State.modFac_regions (s : State) (t : Tile) (f : Facet) (g : FacetEl → FacetEl) : (s.modFac t f g).regions = s.regions := rfl
@[simp] theorem State.modFac_dies (s : State) (t : Tile) (f : Facet) (g : FacetEl → FacetEl) : (s.modFac t f g).dies = s.dies := rfl
@[simp] theorem State.modFac_ios (s : State) (t : Tile) (f : Facet) (g : FacetEl → FacetEl) : (s.modFac t f g).ios = s.ios := rfl
@[simp] theorem State.modFac_modul (s : State) (t : Tile) (f : Facet) (g : FacetEl → FacetEl) : (s.modFac t f g).modul = s.modul := rfl
@[simp] theorem State.modFac_clasps (s : State) (t : Tile) (f : Facet) (g : FacetEl → FacetEl) : (s.modFac t f g).clasps = s.clasps := rfl
@[simp] theorem State.modFac_mem (s : State) (t : Tile) (f : Facet) (g : FacetEl → FacetEl) : (s.modFac t f g).mem = s.mem := rfl
@[simp] theorem State.modFac_holds (s : State) (t : Tile) (f : Facet) (g : FacetEl → FacetEl) : (s.modFac t f g).holds = s.holds := rfl
@[simp] theorem State.modFac_reexam (s : State) (t : Tile) (f : Facet) (g : FacetEl → FacetEl) : (s.modFac t f g).reexam = s.reexam := rfl
@[simp] theorem State.modFac_reqs (s : State) (t : Tile) (f : Facet) (g : FacetEl → FacetEl) : (s.modFac t f g).reqs = s.reqs := rfl
@[simp] theorem State.modFac_walks (s : State) (t : Tile) (f : Facet) (g : FacetEl → FacetEl) : (s.modFac t f g).walks = s.walks := rfl
@[simp] theorem State.modFac_power (s : State) (t : Tile) (f : Facet) (g : FacetEl → FacetEl) : (s.modFac t f g).power = s.power := rfl
@[simp] theorem State.modFac_out (s : State) (t : Tile) (f : Facet) (g : FacetEl → FacetEl) : (s.modFac t f g).out = s.out := rfl
@[simp] theorem State.modFac_answer (s : State) (t : Tile) (f : Facet) (g : FacetEl → FacetEl) : (s.modFac t f g).answer = s.answer := rfl
@[simp] theorem State.modFac_moved (s : State) (t : Tile) (f : Facet) (g : FacetEl → FacetEl) : (s.modFac t f g).moved = s.moved := rfl
@[simp] theorem State.modFac_turns (s : State) (t : Tile) (f : Facet) (g : FacetEl → FacetEl) : (s.modFac t f g).turns = s.turns := rfl
@[simp] theorem State.modFac_upsets (s : State) (t : Tile) (f : Facet) (g : FacetEl → FacetEl) : (s.modFac t f g).upsets = s.upsets := rfl
@[simp] theorem State.modFac_cycle (s : State) (t : Tile) (f : Facet) (g : FacetEl → FacetEl) : (s.modFac t f g).cycle = s.cycle := rfl
@[simp] theorem State.modFac_agenda (s : State) (t : Tile) (f : Facet) (g : FacetEl → FacetEl) : (s.modFac t f g).agenda = s.agenda := rfl
@[simp] theorem State.modFac_inbox (s : State) (t : Tile) (f : Facet) (g : FacetEl → FacetEl) : (s.modFac t f g).inbox = s.inbox := rfl
@[simp] theorem State.modFac_cur (s : State) (t : Tile) (f : Facet) (g : FacetEl → FacetEl) : (s.modFac t f g).cur = s.cur := rfl
@[simp] theorem State.modFac_free (s : State) (t : Tile) (f : Facet) (g : FacetEl → FacetEl) : (s.modFac t f g).free = s.free := rfl
@[simp] theorem State.modFac_nextId (s : State) (t : Tile) (f : Facet) (g : FacetEl → FacetEl) : (s.modFac t f g).nextId = s.nextId := rfl
@[simp] theorem State.modFac_sw (s : State) (t : Tile) (f : Facet) (g : FacetEl → FacetEl) (u : Tile) : (s.modFac t f g).sw u = s.sw u := rfl
@[simp] theorem State.modFac_mt (s : State) (t : Tile) (f : Facet) (g : FacetEl → FacetEl) (u : Tile) : (s.modFac t f g).mt u = s.mt u := rfl
@[simp] theorem State.modFac_rg (s : State) (t : Tile) (f : Facet) (g : FacetEl → FacetEl) (q : RegionId) : (s.modFac t f g).rg q = s.rg q := rfl
@[simp] theorem State.modFac_die (s : State) (t : Tile) (f : Facet) (g : FacetEl → FacetEl) (q : DieId) : (s.modFac t f g).die q = s.die q := rfl
@[simp] theorem State.modFac_io (s : State) (t : Tile) (f : Facet) (g : FacetEl → FacetEl) (q : Fin 2) : (s.modFac t f g).io q = s.io q := rfl

/-! setAct -/

@[simp] theorem State.setAct_switches (s : State) (t : Tile) (a : Act) : (s.setAct t a).switches = s.switches := rfl
@[simp] theorem State.setAct_mts (s : State) (t : Tile) (a : Act) : (s.setAct t a).mts = s.mts := rfl
@[simp] theorem State.setAct_regions (s : State) (t : Tile) (a : Act) : (s.setAct t a).regions = s.regions := rfl
@[simp] theorem State.setAct_dies (s : State) (t : Tile) (a : Act) : (s.setAct t a).dies = s.dies := rfl
@[simp] theorem State.setAct_ios (s : State) (t : Tile) (a : Act) : (s.setAct t a).ios = s.ios := rfl
@[simp] theorem State.setAct_modul (s : State) (t : Tile) (a : Act) : (s.setAct t a).modul = s.modul := rfl
@[simp] theorem State.setAct_clasps (s : State) (t : Tile) (a : Act) : (s.setAct t a).clasps = s.clasps := rfl
@[simp] theorem State.setAct_mem (s : State) (t : Tile) (a : Act) : (s.setAct t a).mem = s.mem := rfl
@[simp] theorem State.setAct_holds (s : State) (t : Tile) (a : Act) : (s.setAct t a).holds = s.holds := rfl
@[simp] theorem State.setAct_reexam (s : State) (t : Tile) (a : Act) : (s.setAct t a).reexam = s.reexam := rfl
@[simp] theorem State.setAct_reqs (s : State) (t : Tile) (a : Act) : (s.setAct t a).reqs = s.reqs := rfl
@[simp] theorem State.setAct_walks (s : State) (t : Tile) (a : Act) : (s.setAct t a).walks = s.walks := rfl
@[simp] theorem State.setAct_power (s : State) (t : Tile) (a : Act) : (s.setAct t a).power = s.power := rfl
@[simp] theorem State.setAct_out (s : State) (t : Tile) (a : Act) : (s.setAct t a).out = s.out := rfl
@[simp] theorem State.setAct_answer (s : State) (t : Tile) (a : Act) : (s.setAct t a).answer = s.answer := rfl
@[simp] theorem State.setAct_moved (s : State) (t : Tile) (a : Act) : (s.setAct t a).moved = s.moved := rfl
@[simp] theorem State.setAct_turns (s : State) (t : Tile) (a : Act) : (s.setAct t a).turns = s.turns := rfl
@[simp] theorem State.setAct_upsets (s : State) (t : Tile) (a : Act) : (s.setAct t a).upsets = s.upsets := rfl
@[simp] theorem State.setAct_cycle (s : State) (t : Tile) (a : Act) : (s.setAct t a).cycle = s.cycle := rfl
@[simp] theorem State.setAct_agenda (s : State) (t : Tile) (a : Act) : (s.setAct t a).agenda = s.agenda := rfl
@[simp] theorem State.setAct_inbox (s : State) (t : Tile) (a : Act) : (s.setAct t a).inbox = s.inbox := rfl
@[simp] theorem State.setAct_cur (s : State) (t : Tile) (a : Act) : (s.setAct t a).cur = s.cur := rfl
@[simp] theorem State.setAct_free (s : State) (t : Tile) (a : Act) : (s.setAct t a).free = s.free := rfl
@[simp] theorem State.setAct_nextId (s : State) (t : Tile) (a : Act) : (s.setAct t a).nextId = s.nextId := rfl
@[simp] theorem State.setAct_sw (s : State) (t : Tile) (a : Act) (u : Tile) : (s.setAct t a).sw u = s.sw u := rfl
@[simp] theorem State.setAct_mt (s : State) (t : Tile) (a : Act) (u : Tile) : (s.setAct t a).mt u = s.mt u := rfl
@[simp] theorem State.setAct_rg (s : State) (t : Tile) (a : Act) (q : RegionId) : (s.setAct t a).rg q = s.rg q := rfl
@[simp] theorem State.setAct_die (s : State) (t : Tile) (a : Act) (q : DieId) : (s.setAct t a).die q = s.die q := rfl
@[simp] theorem State.setAct_io (s : State) (t : Tile) (a : Act) (q : Fin 2) : (s.setAct t a).io q = s.io q := rfl

/-! dropAct -/

@[simp] theorem State.dropAct_switches (s : State) (t : Tile) : (s.dropAct t).switches = s.switches := rfl
@[simp] theorem State.dropAct_mts (s : State) (t : Tile) : (s.dropAct t).mts = s.mts := rfl
@[simp] theorem State.dropAct_regions (s : State) (t : Tile) : (s.dropAct t).regions = s.regions := rfl
@[simp] theorem State.dropAct_dies (s : State) (t : Tile) : (s.dropAct t).dies = s.dies := rfl
@[simp] theorem State.dropAct_ios (s : State) (t : Tile) : (s.dropAct t).ios = s.ios := rfl
@[simp] theorem State.dropAct_modul (s : State) (t : Tile) : (s.dropAct t).modul = s.modul := rfl
@[simp] theorem State.dropAct_clasps (s : State) (t : Tile) : (s.dropAct t).clasps = s.clasps := rfl
@[simp] theorem State.dropAct_mem (s : State) (t : Tile) : (s.dropAct t).mem = s.mem := rfl
@[simp] theorem State.dropAct_holds (s : State) (t : Tile) : (s.dropAct t).holds = s.holds := rfl
@[simp] theorem State.dropAct_reexam (s : State) (t : Tile) : (s.dropAct t).reexam = s.reexam := rfl
@[simp] theorem State.dropAct_reqs (s : State) (t : Tile) : (s.dropAct t).reqs = s.reqs := rfl
@[simp] theorem State.dropAct_walks (s : State) (t : Tile) : (s.dropAct t).walks = s.walks := rfl
@[simp] theorem State.dropAct_power (s : State) (t : Tile) : (s.dropAct t).power = s.power := rfl
@[simp] theorem State.dropAct_out (s : State) (t : Tile) : (s.dropAct t).out = s.out := rfl
@[simp] theorem State.dropAct_answer (s : State) (t : Tile) : (s.dropAct t).answer = s.answer := rfl
@[simp] theorem State.dropAct_moved (s : State) (t : Tile) : (s.dropAct t).moved = s.moved := rfl
@[simp] theorem State.dropAct_turns (s : State) (t : Tile) : (s.dropAct t).turns = s.turns := rfl
@[simp] theorem State.dropAct_upsets (s : State) (t : Tile) : (s.dropAct t).upsets = s.upsets := rfl
@[simp] theorem State.dropAct_cycle (s : State) (t : Tile) : (s.dropAct t).cycle = s.cycle := rfl
@[simp] theorem State.dropAct_agenda (s : State) (t : Tile) : (s.dropAct t).agenda = s.agenda := rfl
@[simp] theorem State.dropAct_inbox (s : State) (t : Tile) : (s.dropAct t).inbox = s.inbox := rfl
@[simp] theorem State.dropAct_cur (s : State) (t : Tile) : (s.dropAct t).cur = s.cur := rfl
@[simp] theorem State.dropAct_free (s : State) (t : Tile) : (s.dropAct t).free = s.free := rfl
@[simp] theorem State.dropAct_nextId (s : State) (t : Tile) : (s.dropAct t).nextId = s.nextId := rfl
@[simp] theorem State.dropAct_sw (s : State) (t : Tile) (u : Tile) : (s.dropAct t).sw u = s.sw u := rfl
@[simp] theorem State.dropAct_mt (s : State) (t : Tile) (u : Tile) : (s.dropAct t).mt u = s.mt u := rfl
@[simp] theorem State.dropAct_rg (s : State) (t : Tile) (q : RegionId) : (s.dropAct t).rg q = s.rg q := rfl
@[simp] theorem State.dropAct_die (s : State) (t : Tile) (q : DieId) : (s.dropAct t).die q = s.die q := rfl
@[simp] theorem State.dropAct_io (s : State) (t : Tile) (q : Fin 2) : (s.dropAct t).io q = s.io q := rfl

/-! setSw -/

@[simp] theorem State.setSw_elements (s : State) (t : Tile) (e : Switchbox) : (s.setSw t e).elements = s.elements := rfl
@[simp] theorem State.setSw_mts (s : State) (t : Tile) (e : Switchbox) : (s.setSw t e).mts = s.mts := rfl
@[simp] theorem State.setSw_regions (s : State) (t : Tile) (e : Switchbox) : (s.setSw t e).regions = s.regions := rfl
@[simp] theorem State.setSw_dies (s : State) (t : Tile) (e : Switchbox) : (s.setSw t e).dies = s.dies := rfl
@[simp] theorem State.setSw_ios (s : State) (t : Tile) (e : Switchbox) : (s.setSw t e).ios = s.ios := rfl
@[simp] theorem State.setSw_modul (s : State) (t : Tile) (e : Switchbox) : (s.setSw t e).modul = s.modul := rfl
@[simp] theorem State.setSw_clasps (s : State) (t : Tile) (e : Switchbox) : (s.setSw t e).clasps = s.clasps := rfl
@[simp] theorem State.setSw_mem (s : State) (t : Tile) (e : Switchbox) : (s.setSw t e).mem = s.mem := rfl
@[simp] theorem State.setSw_holds (s : State) (t : Tile) (e : Switchbox) : (s.setSw t e).holds = s.holds := rfl
@[simp] theorem State.setSw_reexam (s : State) (t : Tile) (e : Switchbox) : (s.setSw t e).reexam = s.reexam := rfl
@[simp] theorem State.setSw_reqs (s : State) (t : Tile) (e : Switchbox) : (s.setSw t e).reqs = s.reqs := rfl
@[simp] theorem State.setSw_walks (s : State) (t : Tile) (e : Switchbox) : (s.setSw t e).walks = s.walks := rfl
@[simp] theorem State.setSw_power (s : State) (t : Tile) (e : Switchbox) : (s.setSw t e).power = s.power := rfl
@[simp] theorem State.setSw_out (s : State) (t : Tile) (e : Switchbox) : (s.setSw t e).out = s.out := rfl
@[simp] theorem State.setSw_answer (s : State) (t : Tile) (e : Switchbox) : (s.setSw t e).answer = s.answer := rfl
@[simp] theorem State.setSw_moved (s : State) (t : Tile) (e : Switchbox) : (s.setSw t e).moved = s.moved := rfl
@[simp] theorem State.setSw_turns (s : State) (t : Tile) (e : Switchbox) : (s.setSw t e).turns = s.turns := rfl
@[simp] theorem State.setSw_upsets (s : State) (t : Tile) (e : Switchbox) : (s.setSw t e).upsets = s.upsets := rfl
@[simp] theorem State.setSw_cycle (s : State) (t : Tile) (e : Switchbox) : (s.setSw t e).cycle = s.cycle := rfl
@[simp] theorem State.setSw_agenda (s : State) (t : Tile) (e : Switchbox) : (s.setSw t e).agenda = s.agenda := rfl
@[simp] theorem State.setSw_inbox (s : State) (t : Tile) (e : Switchbox) : (s.setSw t e).inbox = s.inbox := rfl
@[simp] theorem State.setSw_cur (s : State) (t : Tile) (e : Switchbox) : (s.setSw t e).cur = s.cur := rfl
@[simp] theorem State.setSw_free (s : State) (t : Tile) (e : Switchbox) : (s.setSw t e).free = s.free := rfl
@[simp] theorem State.setSw_nextId (s : State) (t : Tile) (e : Switchbox) : (s.setSw t e).nextId = s.nextId := rfl
@[simp] theorem State.setSw_el (s : State) (t : Tile) (e : Switchbox) (u : Tile) : (s.setSw t e).el u = s.el u := rfl
@[simp] theorem State.setSw_mt (s : State) (t : Tile) (e : Switchbox) (u : Tile) : (s.setSw t e).mt u = s.mt u := rfl
@[simp] theorem State.setSw_rg (s : State) (t : Tile) (e : Switchbox) (q : RegionId) : (s.setSw t e).rg q = s.rg q := rfl
@[simp] theorem State.setSw_die (s : State) (t : Tile) (e : Switchbox) (q : DieId) : (s.setSw t e).die q = s.die q := rfl
@[simp] theorem State.setSw_io (s : State) (t : Tile) (e : Switchbox) (q : Fin 2) : (s.setSw t e).io q = s.io q := rfl

/-! setMt -/

@[simp] theorem State.setMt_elements (s : State) (t : Tile) (e : MemTile) : (s.setMt t e).elements = s.elements := rfl
@[simp] theorem State.setMt_switches (s : State) (t : Tile) (e : MemTile) : (s.setMt t e).switches = s.switches := rfl
@[simp] theorem State.setMt_regions (s : State) (t : Tile) (e : MemTile) : (s.setMt t e).regions = s.regions := rfl
@[simp] theorem State.setMt_dies (s : State) (t : Tile) (e : MemTile) : (s.setMt t e).dies = s.dies := rfl
@[simp] theorem State.setMt_ios (s : State) (t : Tile) (e : MemTile) : (s.setMt t e).ios = s.ios := rfl
@[simp] theorem State.setMt_modul (s : State) (t : Tile) (e : MemTile) : (s.setMt t e).modul = s.modul := rfl
@[simp] theorem State.setMt_clasps (s : State) (t : Tile) (e : MemTile) : (s.setMt t e).clasps = s.clasps := rfl
@[simp] theorem State.setMt_mem (s : State) (t : Tile) (e : MemTile) : (s.setMt t e).mem = s.mem := rfl
@[simp] theorem State.setMt_holds (s : State) (t : Tile) (e : MemTile) : (s.setMt t e).holds = s.holds := rfl
@[simp] theorem State.setMt_reexam (s : State) (t : Tile) (e : MemTile) : (s.setMt t e).reexam = s.reexam := rfl
@[simp] theorem State.setMt_reqs (s : State) (t : Tile) (e : MemTile) : (s.setMt t e).reqs = s.reqs := rfl
@[simp] theorem State.setMt_walks (s : State) (t : Tile) (e : MemTile) : (s.setMt t e).walks = s.walks := rfl
@[simp] theorem State.setMt_power (s : State) (t : Tile) (e : MemTile) : (s.setMt t e).power = s.power := rfl
@[simp] theorem State.setMt_out (s : State) (t : Tile) (e : MemTile) : (s.setMt t e).out = s.out := rfl
@[simp] theorem State.setMt_answer (s : State) (t : Tile) (e : MemTile) : (s.setMt t e).answer = s.answer := rfl
@[simp] theorem State.setMt_moved (s : State) (t : Tile) (e : MemTile) : (s.setMt t e).moved = s.moved := rfl
@[simp] theorem State.setMt_turns (s : State) (t : Tile) (e : MemTile) : (s.setMt t e).turns = s.turns := rfl
@[simp] theorem State.setMt_upsets (s : State) (t : Tile) (e : MemTile) : (s.setMt t e).upsets = s.upsets := rfl
@[simp] theorem State.setMt_cycle (s : State) (t : Tile) (e : MemTile) : (s.setMt t e).cycle = s.cycle := rfl
@[simp] theorem State.setMt_agenda (s : State) (t : Tile) (e : MemTile) : (s.setMt t e).agenda = s.agenda := rfl
@[simp] theorem State.setMt_inbox (s : State) (t : Tile) (e : MemTile) : (s.setMt t e).inbox = s.inbox := rfl
@[simp] theorem State.setMt_cur (s : State) (t : Tile) (e : MemTile) : (s.setMt t e).cur = s.cur := rfl
@[simp] theorem State.setMt_free (s : State) (t : Tile) (e : MemTile) : (s.setMt t e).free = s.free := rfl
@[simp] theorem State.setMt_nextId (s : State) (t : Tile) (e : MemTile) : (s.setMt t e).nextId = s.nextId := rfl
@[simp] theorem State.setMt_el (s : State) (t : Tile) (e : MemTile) (u : Tile) : (s.setMt t e).el u = s.el u := rfl
@[simp] theorem State.setMt_sw (s : State) (t : Tile) (e : MemTile) (u : Tile) : (s.setMt t e).sw u = s.sw u := rfl
@[simp] theorem State.setMt_rg (s : State) (t : Tile) (e : MemTile) (q : RegionId) : (s.setMt t e).rg q = s.rg q := rfl
@[simp] theorem State.setMt_die (s : State) (t : Tile) (e : MemTile) (q : DieId) : (s.setMt t e).die q = s.die q := rfl
@[simp] theorem State.setMt_io (s : State) (t : Tile) (e : MemTile) (q : Fin 2) : (s.setMt t e).io q = s.io q := rfl

/-! modMt -/

@[simp] theorem State.modMt_elements (s : State) (t : Tile) (g : MemTile → MemTile) : (s.modMt t g).elements = s.elements := rfl
@[simp] theorem State.modMt_switches (s : State) (t : Tile) (g : MemTile → MemTile) : (s.modMt t g).switches = s.switches := rfl
@[simp] theorem State.modMt_regions (s : State) (t : Tile) (g : MemTile → MemTile) : (s.modMt t g).regions = s.regions := rfl
@[simp] theorem State.modMt_dies (s : State) (t : Tile) (g : MemTile → MemTile) : (s.modMt t g).dies = s.dies := rfl
@[simp] theorem State.modMt_ios (s : State) (t : Tile) (g : MemTile → MemTile) : (s.modMt t g).ios = s.ios := rfl
@[simp] theorem State.modMt_modul (s : State) (t : Tile) (g : MemTile → MemTile) : (s.modMt t g).modul = s.modul := rfl
@[simp] theorem State.modMt_clasps (s : State) (t : Tile) (g : MemTile → MemTile) : (s.modMt t g).clasps = s.clasps := rfl
@[simp] theorem State.modMt_mem (s : State) (t : Tile) (g : MemTile → MemTile) : (s.modMt t g).mem = s.mem := rfl
@[simp] theorem State.modMt_holds (s : State) (t : Tile) (g : MemTile → MemTile) : (s.modMt t g).holds = s.holds := rfl
@[simp] theorem State.modMt_reexam (s : State) (t : Tile) (g : MemTile → MemTile) : (s.modMt t g).reexam = s.reexam := rfl
@[simp] theorem State.modMt_reqs (s : State) (t : Tile) (g : MemTile → MemTile) : (s.modMt t g).reqs = s.reqs := rfl
@[simp] theorem State.modMt_walks (s : State) (t : Tile) (g : MemTile → MemTile) : (s.modMt t g).walks = s.walks := rfl
@[simp] theorem State.modMt_power (s : State) (t : Tile) (g : MemTile → MemTile) : (s.modMt t g).power = s.power := rfl
@[simp] theorem State.modMt_out (s : State) (t : Tile) (g : MemTile → MemTile) : (s.modMt t g).out = s.out := rfl
@[simp] theorem State.modMt_answer (s : State) (t : Tile) (g : MemTile → MemTile) : (s.modMt t g).answer = s.answer := rfl
@[simp] theorem State.modMt_moved (s : State) (t : Tile) (g : MemTile → MemTile) : (s.modMt t g).moved = s.moved := rfl
@[simp] theorem State.modMt_turns (s : State) (t : Tile) (g : MemTile → MemTile) : (s.modMt t g).turns = s.turns := rfl
@[simp] theorem State.modMt_upsets (s : State) (t : Tile) (g : MemTile → MemTile) : (s.modMt t g).upsets = s.upsets := rfl
@[simp] theorem State.modMt_cycle (s : State) (t : Tile) (g : MemTile → MemTile) : (s.modMt t g).cycle = s.cycle := rfl
@[simp] theorem State.modMt_agenda (s : State) (t : Tile) (g : MemTile → MemTile) : (s.modMt t g).agenda = s.agenda := rfl
@[simp] theorem State.modMt_inbox (s : State) (t : Tile) (g : MemTile → MemTile) : (s.modMt t g).inbox = s.inbox := rfl
@[simp] theorem State.modMt_cur (s : State) (t : Tile) (g : MemTile → MemTile) : (s.modMt t g).cur = s.cur := rfl
@[simp] theorem State.modMt_free (s : State) (t : Tile) (g : MemTile → MemTile) : (s.modMt t g).free = s.free := rfl
@[simp] theorem State.modMt_nextId (s : State) (t : Tile) (g : MemTile → MemTile) : (s.modMt t g).nextId = s.nextId := rfl
@[simp] theorem State.modMt_el (s : State) (t : Tile) (g : MemTile → MemTile) (u : Tile) : (s.modMt t g).el u = s.el u := rfl
@[simp] theorem State.modMt_sw (s : State) (t : Tile) (g : MemTile → MemTile) (u : Tile) : (s.modMt t g).sw u = s.sw u := rfl
@[simp] theorem State.modMt_rg (s : State) (t : Tile) (g : MemTile → MemTile) (q : RegionId) : (s.modMt t g).rg q = s.rg q := rfl
@[simp] theorem State.modMt_die (s : State) (t : Tile) (g : MemTile → MemTile) (q : DieId) : (s.modMt t g).die q = s.die q := rfl
@[simp] theorem State.modMt_io (s : State) (t : Tile) (g : MemTile → MemTile) (q : Fin 2) : (s.modMt t g).io q = s.io q := rfl

/-! modMtFac -/

@[simp] theorem State.modMtFac_elements (s : State) (t : Tile) (f : Facet) (g : MtFacet → MtFacet) : (s.modMtFac t f g).elements = s.elements := rfl
@[simp] theorem State.modMtFac_switches (s : State) (t : Tile) (f : Facet) (g : MtFacet → MtFacet) : (s.modMtFac t f g).switches = s.switches := rfl
@[simp] theorem State.modMtFac_regions (s : State) (t : Tile) (f : Facet) (g : MtFacet → MtFacet) : (s.modMtFac t f g).regions = s.regions := rfl
@[simp] theorem State.modMtFac_dies (s : State) (t : Tile) (f : Facet) (g : MtFacet → MtFacet) : (s.modMtFac t f g).dies = s.dies := rfl
@[simp] theorem State.modMtFac_ios (s : State) (t : Tile) (f : Facet) (g : MtFacet → MtFacet) : (s.modMtFac t f g).ios = s.ios := rfl
@[simp] theorem State.modMtFac_modul (s : State) (t : Tile) (f : Facet) (g : MtFacet → MtFacet) : (s.modMtFac t f g).modul = s.modul := rfl
@[simp] theorem State.modMtFac_clasps (s : State) (t : Tile) (f : Facet) (g : MtFacet → MtFacet) : (s.modMtFac t f g).clasps = s.clasps := rfl
@[simp] theorem State.modMtFac_mem (s : State) (t : Tile) (f : Facet) (g : MtFacet → MtFacet) : (s.modMtFac t f g).mem = s.mem := rfl
@[simp] theorem State.modMtFac_holds (s : State) (t : Tile) (f : Facet) (g : MtFacet → MtFacet) : (s.modMtFac t f g).holds = s.holds := rfl
@[simp] theorem State.modMtFac_reexam (s : State) (t : Tile) (f : Facet) (g : MtFacet → MtFacet) : (s.modMtFac t f g).reexam = s.reexam := rfl
@[simp] theorem State.modMtFac_reqs (s : State) (t : Tile) (f : Facet) (g : MtFacet → MtFacet) : (s.modMtFac t f g).reqs = s.reqs := rfl
@[simp] theorem State.modMtFac_walks (s : State) (t : Tile) (f : Facet) (g : MtFacet → MtFacet) : (s.modMtFac t f g).walks = s.walks := rfl
@[simp] theorem State.modMtFac_power (s : State) (t : Tile) (f : Facet) (g : MtFacet → MtFacet) : (s.modMtFac t f g).power = s.power := rfl
@[simp] theorem State.modMtFac_out (s : State) (t : Tile) (f : Facet) (g : MtFacet → MtFacet) : (s.modMtFac t f g).out = s.out := rfl
@[simp] theorem State.modMtFac_answer (s : State) (t : Tile) (f : Facet) (g : MtFacet → MtFacet) : (s.modMtFac t f g).answer = s.answer := rfl
@[simp] theorem State.modMtFac_moved (s : State) (t : Tile) (f : Facet) (g : MtFacet → MtFacet) : (s.modMtFac t f g).moved = s.moved := rfl
@[simp] theorem State.modMtFac_turns (s : State) (t : Tile) (f : Facet) (g : MtFacet → MtFacet) : (s.modMtFac t f g).turns = s.turns := rfl
@[simp] theorem State.modMtFac_upsets (s : State) (t : Tile) (f : Facet) (g : MtFacet → MtFacet) : (s.modMtFac t f g).upsets = s.upsets := rfl
@[simp] theorem State.modMtFac_cycle (s : State) (t : Tile) (f : Facet) (g : MtFacet → MtFacet) : (s.modMtFac t f g).cycle = s.cycle := rfl
@[simp] theorem State.modMtFac_agenda (s : State) (t : Tile) (f : Facet) (g : MtFacet → MtFacet) : (s.modMtFac t f g).agenda = s.agenda := rfl
@[simp] theorem State.modMtFac_inbox (s : State) (t : Tile) (f : Facet) (g : MtFacet → MtFacet) : (s.modMtFac t f g).inbox = s.inbox := rfl
@[simp] theorem State.modMtFac_cur (s : State) (t : Tile) (f : Facet) (g : MtFacet → MtFacet) : (s.modMtFac t f g).cur = s.cur := rfl
@[simp] theorem State.modMtFac_free (s : State) (t : Tile) (f : Facet) (g : MtFacet → MtFacet) : (s.modMtFac t f g).free = s.free := rfl
@[simp] theorem State.modMtFac_nextId (s : State) (t : Tile) (f : Facet) (g : MtFacet → MtFacet) : (s.modMtFac t f g).nextId = s.nextId := rfl
@[simp] theorem State.modMtFac_el (s : State) (t : Tile) (f : Facet) (g : MtFacet → MtFacet) (u : Tile) : (s.modMtFac t f g).el u = s.el u := rfl
@[simp] theorem State.modMtFac_sw (s : State) (t : Tile) (f : Facet) (g : MtFacet → MtFacet) (u : Tile) : (s.modMtFac t f g).sw u = s.sw u := rfl
@[simp] theorem State.modMtFac_rg (s : State) (t : Tile) (f : Facet) (g : MtFacet → MtFacet) (q : RegionId) : (s.modMtFac t f g).rg q = s.rg q := rfl
@[simp] theorem State.modMtFac_die (s : State) (t : Tile) (f : Facet) (g : MtFacet → MtFacet) (q : DieId) : (s.modMtFac t f g).die q = s.die q := rfl
@[simp] theorem State.modMtFac_io (s : State) (t : Tile) (f : Facet) (g : MtFacet → MtFacet) (q : Fin 2) : (s.modMtFac t f g).io q = s.io q := rfl

/-! setRg -/

@[simp] theorem State.setRg_elements (s : State) (r : RegionId) (g : Region) : (s.setRg r g).elements = s.elements := rfl
@[simp] theorem State.setRg_switches (s : State) (r : RegionId) (g : Region) : (s.setRg r g).switches = s.switches := rfl
@[simp] theorem State.setRg_mts (s : State) (r : RegionId) (g : Region) : (s.setRg r g).mts = s.mts := rfl
@[simp] theorem State.setRg_dies (s : State) (r : RegionId) (g : Region) : (s.setRg r g).dies = s.dies := rfl
@[simp] theorem State.setRg_ios (s : State) (r : RegionId) (g : Region) : (s.setRg r g).ios = s.ios := rfl
@[simp] theorem State.setRg_modul (s : State) (r : RegionId) (g : Region) : (s.setRg r g).modul = s.modul := rfl
@[simp] theorem State.setRg_clasps (s : State) (r : RegionId) (g : Region) : (s.setRg r g).clasps = s.clasps := rfl
@[simp] theorem State.setRg_mem (s : State) (r : RegionId) (g : Region) : (s.setRg r g).mem = s.mem := rfl
@[simp] theorem State.setRg_holds (s : State) (r : RegionId) (g : Region) : (s.setRg r g).holds = s.holds := rfl
@[simp] theorem State.setRg_reexam (s : State) (r : RegionId) (g : Region) : (s.setRg r g).reexam = s.reexam := rfl
@[simp] theorem State.setRg_reqs (s : State) (r : RegionId) (g : Region) : (s.setRg r g).reqs = s.reqs := rfl
@[simp] theorem State.setRg_walks (s : State) (r : RegionId) (g : Region) : (s.setRg r g).walks = s.walks := rfl
@[simp] theorem State.setRg_power (s : State) (r : RegionId) (g : Region) : (s.setRg r g).power = s.power := rfl
@[simp] theorem State.setRg_out (s : State) (r : RegionId) (g : Region) : (s.setRg r g).out = s.out := rfl
@[simp] theorem State.setRg_answer (s : State) (r : RegionId) (g : Region) : (s.setRg r g).answer = s.answer := rfl
@[simp] theorem State.setRg_moved (s : State) (r : RegionId) (g : Region) : (s.setRg r g).moved = s.moved := rfl
@[simp] theorem State.setRg_turns (s : State) (r : RegionId) (g : Region) : (s.setRg r g).turns = s.turns := rfl
@[simp] theorem State.setRg_upsets (s : State) (r : RegionId) (g : Region) : (s.setRg r g).upsets = s.upsets := rfl
@[simp] theorem State.setRg_cycle (s : State) (r : RegionId) (g : Region) : (s.setRg r g).cycle = s.cycle := rfl
@[simp] theorem State.setRg_agenda (s : State) (r : RegionId) (g : Region) : (s.setRg r g).agenda = s.agenda := rfl
@[simp] theorem State.setRg_inbox (s : State) (r : RegionId) (g : Region) : (s.setRg r g).inbox = s.inbox := rfl
@[simp] theorem State.setRg_cur (s : State) (r : RegionId) (g : Region) : (s.setRg r g).cur = s.cur := rfl
@[simp] theorem State.setRg_free (s : State) (r : RegionId) (g : Region) : (s.setRg r g).free = s.free := rfl
@[simp] theorem State.setRg_nextId (s : State) (r : RegionId) (g : Region) : (s.setRg r g).nextId = s.nextId := rfl
@[simp] theorem State.setRg_el (s : State) (r : RegionId) (g : Region) (u : Tile) : (s.setRg r g).el u = s.el u := rfl
@[simp] theorem State.setRg_sw (s : State) (r : RegionId) (g : Region) (u : Tile) : (s.setRg r g).sw u = s.sw u := rfl
@[simp] theorem State.setRg_mt (s : State) (r : RegionId) (g : Region) (u : Tile) : (s.setRg r g).mt u = s.mt u := rfl
@[simp] theorem State.setRg_die (s : State) (r : RegionId) (g : Region) (q : DieId) : (s.setRg r g).die q = s.die q := rfl
@[simp] theorem State.setRg_io (s : State) (r : RegionId) (g : Region) (q : Fin 2) : (s.setRg r g).io q = s.io q := rfl

/-! modRg -/

@[simp] theorem State.modRg_elements (s : State) (r : RegionId) (g : Region → Region) : (s.modRg r g).elements = s.elements := rfl
@[simp] theorem State.modRg_switches (s : State) (r : RegionId) (g : Region → Region) : (s.modRg r g).switches = s.switches := rfl
@[simp] theorem State.modRg_mts (s : State) (r : RegionId) (g : Region → Region) : (s.modRg r g).mts = s.mts := rfl
@[simp] theorem State.modRg_dies (s : State) (r : RegionId) (g : Region → Region) : (s.modRg r g).dies = s.dies := rfl
@[simp] theorem State.modRg_ios (s : State) (r : RegionId) (g : Region → Region) : (s.modRg r g).ios = s.ios := rfl
@[simp] theorem State.modRg_modul (s : State) (r : RegionId) (g : Region → Region) : (s.modRg r g).modul = s.modul := rfl
@[simp] theorem State.modRg_clasps (s : State) (r : RegionId) (g : Region → Region) : (s.modRg r g).clasps = s.clasps := rfl
@[simp] theorem State.modRg_mem (s : State) (r : RegionId) (g : Region → Region) : (s.modRg r g).mem = s.mem := rfl
@[simp] theorem State.modRg_holds (s : State) (r : RegionId) (g : Region → Region) : (s.modRg r g).holds = s.holds := rfl
@[simp] theorem State.modRg_reexam (s : State) (r : RegionId) (g : Region → Region) : (s.modRg r g).reexam = s.reexam := rfl
@[simp] theorem State.modRg_reqs (s : State) (r : RegionId) (g : Region → Region) : (s.modRg r g).reqs = s.reqs := rfl
@[simp] theorem State.modRg_walks (s : State) (r : RegionId) (g : Region → Region) : (s.modRg r g).walks = s.walks := rfl
@[simp] theorem State.modRg_power (s : State) (r : RegionId) (g : Region → Region) : (s.modRg r g).power = s.power := rfl
@[simp] theorem State.modRg_out (s : State) (r : RegionId) (g : Region → Region) : (s.modRg r g).out = s.out := rfl
@[simp] theorem State.modRg_answer (s : State) (r : RegionId) (g : Region → Region) : (s.modRg r g).answer = s.answer := rfl
@[simp] theorem State.modRg_moved (s : State) (r : RegionId) (g : Region → Region) : (s.modRg r g).moved = s.moved := rfl
@[simp] theorem State.modRg_turns (s : State) (r : RegionId) (g : Region → Region) : (s.modRg r g).turns = s.turns := rfl
@[simp] theorem State.modRg_upsets (s : State) (r : RegionId) (g : Region → Region) : (s.modRg r g).upsets = s.upsets := rfl
@[simp] theorem State.modRg_cycle (s : State) (r : RegionId) (g : Region → Region) : (s.modRg r g).cycle = s.cycle := rfl
@[simp] theorem State.modRg_agenda (s : State) (r : RegionId) (g : Region → Region) : (s.modRg r g).agenda = s.agenda := rfl
@[simp] theorem State.modRg_inbox (s : State) (r : RegionId) (g : Region → Region) : (s.modRg r g).inbox = s.inbox := rfl
@[simp] theorem State.modRg_cur (s : State) (r : RegionId) (g : Region → Region) : (s.modRg r g).cur = s.cur := rfl
@[simp] theorem State.modRg_free (s : State) (r : RegionId) (g : Region → Region) : (s.modRg r g).free = s.free := rfl
@[simp] theorem State.modRg_nextId (s : State) (r : RegionId) (g : Region → Region) : (s.modRg r g).nextId = s.nextId := rfl
@[simp] theorem State.modRg_el (s : State) (r : RegionId) (g : Region → Region) (u : Tile) : (s.modRg r g).el u = s.el u := rfl
@[simp] theorem State.modRg_sw (s : State) (r : RegionId) (g : Region → Region) (u : Tile) : (s.modRg r g).sw u = s.sw u := rfl
@[simp] theorem State.modRg_mt (s : State) (r : RegionId) (g : Region → Region) (u : Tile) : (s.modRg r g).mt u = s.mt u := rfl
@[simp] theorem State.modRg_die (s : State) (r : RegionId) (g : Region → Region) (q : DieId) : (s.modRg r g).die q = s.die q := rfl
@[simp] theorem State.modRg_io (s : State) (r : RegionId) (g : Region → Region) (q : Fin 2) : (s.modRg r g).io q = s.io q := rfl

/-! setDie -/

@[simp] theorem State.setDie_elements (s : State) (d : DieId) (x : Die) : (s.setDie d x).elements = s.elements := rfl
@[simp] theorem State.setDie_switches (s : State) (d : DieId) (x : Die) : (s.setDie d x).switches = s.switches := rfl
@[simp] theorem State.setDie_mts (s : State) (d : DieId) (x : Die) : (s.setDie d x).mts = s.mts := rfl
@[simp] theorem State.setDie_regions (s : State) (d : DieId) (x : Die) : (s.setDie d x).regions = s.regions := rfl
@[simp] theorem State.setDie_ios (s : State) (d : DieId) (x : Die) : (s.setDie d x).ios = s.ios := rfl
@[simp] theorem State.setDie_modul (s : State) (d : DieId) (x : Die) : (s.setDie d x).modul = s.modul := rfl
@[simp] theorem State.setDie_clasps (s : State) (d : DieId) (x : Die) : (s.setDie d x).clasps = s.clasps := rfl
@[simp] theorem State.setDie_mem (s : State) (d : DieId) (x : Die) : (s.setDie d x).mem = s.mem := rfl
@[simp] theorem State.setDie_holds (s : State) (d : DieId) (x : Die) : (s.setDie d x).holds = s.holds := rfl
@[simp] theorem State.setDie_reexam (s : State) (d : DieId) (x : Die) : (s.setDie d x).reexam = s.reexam := rfl
@[simp] theorem State.setDie_reqs (s : State) (d : DieId) (x : Die) : (s.setDie d x).reqs = s.reqs := rfl
@[simp] theorem State.setDie_walks (s : State) (d : DieId) (x : Die) : (s.setDie d x).walks = s.walks := rfl
@[simp] theorem State.setDie_power (s : State) (d : DieId) (x : Die) : (s.setDie d x).power = s.power := rfl
@[simp] theorem State.setDie_out (s : State) (d : DieId) (x : Die) : (s.setDie d x).out = s.out := rfl
@[simp] theorem State.setDie_answer (s : State) (d : DieId) (x : Die) : (s.setDie d x).answer = s.answer := rfl
@[simp] theorem State.setDie_moved (s : State) (d : DieId) (x : Die) : (s.setDie d x).moved = s.moved := rfl
@[simp] theorem State.setDie_turns (s : State) (d : DieId) (x : Die) : (s.setDie d x).turns = s.turns := rfl
@[simp] theorem State.setDie_upsets (s : State) (d : DieId) (x : Die) : (s.setDie d x).upsets = s.upsets := rfl
@[simp] theorem State.setDie_cycle (s : State) (d : DieId) (x : Die) : (s.setDie d x).cycle = s.cycle := rfl
@[simp] theorem State.setDie_agenda (s : State) (d : DieId) (x : Die) : (s.setDie d x).agenda = s.agenda := rfl
@[simp] theorem State.setDie_inbox (s : State) (d : DieId) (x : Die) : (s.setDie d x).inbox = s.inbox := rfl
@[simp] theorem State.setDie_cur (s : State) (d : DieId) (x : Die) : (s.setDie d x).cur = s.cur := rfl
@[simp] theorem State.setDie_free (s : State) (d : DieId) (x : Die) : (s.setDie d x).free = s.free := rfl
@[simp] theorem State.setDie_nextId (s : State) (d : DieId) (x : Die) : (s.setDie d x).nextId = s.nextId := rfl
@[simp] theorem State.setDie_el (s : State) (d : DieId) (x : Die) (u : Tile) : (s.setDie d x).el u = s.el u := rfl
@[simp] theorem State.setDie_sw (s : State) (d : DieId) (x : Die) (u : Tile) : (s.setDie d x).sw u = s.sw u := rfl
@[simp] theorem State.setDie_mt (s : State) (d : DieId) (x : Die) (u : Tile) : (s.setDie d x).mt u = s.mt u := rfl
@[simp] theorem State.setDie_rg (s : State) (d : DieId) (x : Die) (q : RegionId) : (s.setDie d x).rg q = s.rg q := rfl
@[simp] theorem State.setDie_io (s : State) (d : DieId) (x : Die) (q : Fin 2) : (s.setDie d x).io q = s.io q := rfl

/-! modDie -/

@[simp] theorem State.modDie_elements (s : State) (d : DieId) (g : Die → Die) : (s.modDie d g).elements = s.elements := rfl
@[simp] theorem State.modDie_switches (s : State) (d : DieId) (g : Die → Die) : (s.modDie d g).switches = s.switches := rfl
@[simp] theorem State.modDie_mts (s : State) (d : DieId) (g : Die → Die) : (s.modDie d g).mts = s.mts := rfl
@[simp] theorem State.modDie_regions (s : State) (d : DieId) (g : Die → Die) : (s.modDie d g).regions = s.regions := rfl
@[simp] theorem State.modDie_ios (s : State) (d : DieId) (g : Die → Die) : (s.modDie d g).ios = s.ios := rfl
@[simp] theorem State.modDie_modul (s : State) (d : DieId) (g : Die → Die) : (s.modDie d g).modul = s.modul := rfl
@[simp] theorem State.modDie_clasps (s : State) (d : DieId) (g : Die → Die) : (s.modDie d g).clasps = s.clasps := rfl
@[simp] theorem State.modDie_mem (s : State) (d : DieId) (g : Die → Die) : (s.modDie d g).mem = s.mem := rfl
@[simp] theorem State.modDie_holds (s : State) (d : DieId) (g : Die → Die) : (s.modDie d g).holds = s.holds := rfl
@[simp] theorem State.modDie_reexam (s : State) (d : DieId) (g : Die → Die) : (s.modDie d g).reexam = s.reexam := rfl
@[simp] theorem State.modDie_reqs (s : State) (d : DieId) (g : Die → Die) : (s.modDie d g).reqs = s.reqs := rfl
@[simp] theorem State.modDie_walks (s : State) (d : DieId) (g : Die → Die) : (s.modDie d g).walks = s.walks := rfl
@[simp] theorem State.modDie_power (s : State) (d : DieId) (g : Die → Die) : (s.modDie d g).power = s.power := rfl
@[simp] theorem State.modDie_out (s : State) (d : DieId) (g : Die → Die) : (s.modDie d g).out = s.out := rfl
@[simp] theorem State.modDie_answer (s : State) (d : DieId) (g : Die → Die) : (s.modDie d g).answer = s.answer := rfl
@[simp] theorem State.modDie_moved (s : State) (d : DieId) (g : Die → Die) : (s.modDie d g).moved = s.moved := rfl
@[simp] theorem State.modDie_turns (s : State) (d : DieId) (g : Die → Die) : (s.modDie d g).turns = s.turns := rfl
@[simp] theorem State.modDie_upsets (s : State) (d : DieId) (g : Die → Die) : (s.modDie d g).upsets = s.upsets := rfl
@[simp] theorem State.modDie_cycle (s : State) (d : DieId) (g : Die → Die) : (s.modDie d g).cycle = s.cycle := rfl
@[simp] theorem State.modDie_agenda (s : State) (d : DieId) (g : Die → Die) : (s.modDie d g).agenda = s.agenda := rfl
@[simp] theorem State.modDie_inbox (s : State) (d : DieId) (g : Die → Die) : (s.modDie d g).inbox = s.inbox := rfl
@[simp] theorem State.modDie_cur (s : State) (d : DieId) (g : Die → Die) : (s.modDie d g).cur = s.cur := rfl
@[simp] theorem State.modDie_free (s : State) (d : DieId) (g : Die → Die) : (s.modDie d g).free = s.free := rfl
@[simp] theorem State.modDie_nextId (s : State) (d : DieId) (g : Die → Die) : (s.modDie d g).nextId = s.nextId := rfl
@[simp] theorem State.modDie_el (s : State) (d : DieId) (g : Die → Die) (u : Tile) : (s.modDie d g).el u = s.el u := rfl
@[simp] theorem State.modDie_sw (s : State) (d : DieId) (g : Die → Die) (u : Tile) : (s.modDie d g).sw u = s.sw u := rfl
@[simp] theorem State.modDie_mt (s : State) (d : DieId) (g : Die → Die) (u : Tile) : (s.modDie d g).mt u = s.mt u := rfl
@[simp] theorem State.modDie_rg (s : State) (d : DieId) (g : Die → Die) (q : RegionId) : (s.modDie d g).rg q = s.rg q := rfl
@[simp] theorem State.modDie_io (s : State) (d : DieId) (g : Die → Die) (q : Fin 2) : (s.modDie d g).io q = s.io q := rfl

/-! modIo -/

@[simp] theorem State.modIo_elements (s : State) (i : Fin 2) (g : IoDie → IoDie) : (s.modIo i g).elements = s.elements := rfl
@[simp] theorem State.modIo_switches (s : State) (i : Fin 2) (g : IoDie → IoDie) : (s.modIo i g).switches = s.switches := rfl
@[simp] theorem State.modIo_mts (s : State) (i : Fin 2) (g : IoDie → IoDie) : (s.modIo i g).mts = s.mts := rfl
@[simp] theorem State.modIo_regions (s : State) (i : Fin 2) (g : IoDie → IoDie) : (s.modIo i g).regions = s.regions := rfl
@[simp] theorem State.modIo_dies (s : State) (i : Fin 2) (g : IoDie → IoDie) : (s.modIo i g).dies = s.dies := rfl
@[simp] theorem State.modIo_modul (s : State) (i : Fin 2) (g : IoDie → IoDie) : (s.modIo i g).modul = s.modul := rfl
@[simp] theorem State.modIo_clasps (s : State) (i : Fin 2) (g : IoDie → IoDie) : (s.modIo i g).clasps = s.clasps := rfl
@[simp] theorem State.modIo_mem (s : State) (i : Fin 2) (g : IoDie → IoDie) : (s.modIo i g).mem = s.mem := rfl
@[simp] theorem State.modIo_holds (s : State) (i : Fin 2) (g : IoDie → IoDie) : (s.modIo i g).holds = s.holds := rfl
@[simp] theorem State.modIo_reexam (s : State) (i : Fin 2) (g : IoDie → IoDie) : (s.modIo i g).reexam = s.reexam := rfl
@[simp] theorem State.modIo_reqs (s : State) (i : Fin 2) (g : IoDie → IoDie) : (s.modIo i g).reqs = s.reqs := rfl
@[simp] theorem State.modIo_walks (s : State) (i : Fin 2) (g : IoDie → IoDie) : (s.modIo i g).walks = s.walks := rfl
@[simp] theorem State.modIo_power (s : State) (i : Fin 2) (g : IoDie → IoDie) : (s.modIo i g).power = s.power := rfl
@[simp] theorem State.modIo_out (s : State) (i : Fin 2) (g : IoDie → IoDie) : (s.modIo i g).out = s.out := rfl
@[simp] theorem State.modIo_answer (s : State) (i : Fin 2) (g : IoDie → IoDie) : (s.modIo i g).answer = s.answer := rfl
@[simp] theorem State.modIo_moved (s : State) (i : Fin 2) (g : IoDie → IoDie) : (s.modIo i g).moved = s.moved := rfl
@[simp] theorem State.modIo_turns (s : State) (i : Fin 2) (g : IoDie → IoDie) : (s.modIo i g).turns = s.turns := rfl
@[simp] theorem State.modIo_upsets (s : State) (i : Fin 2) (g : IoDie → IoDie) : (s.modIo i g).upsets = s.upsets := rfl
@[simp] theorem State.modIo_cycle (s : State) (i : Fin 2) (g : IoDie → IoDie) : (s.modIo i g).cycle = s.cycle := rfl
@[simp] theorem State.modIo_agenda (s : State) (i : Fin 2) (g : IoDie → IoDie) : (s.modIo i g).agenda = s.agenda := rfl
@[simp] theorem State.modIo_inbox (s : State) (i : Fin 2) (g : IoDie → IoDie) : (s.modIo i g).inbox = s.inbox := rfl
@[simp] theorem State.modIo_cur (s : State) (i : Fin 2) (g : IoDie → IoDie) : (s.modIo i g).cur = s.cur := rfl
@[simp] theorem State.modIo_free (s : State) (i : Fin 2) (g : IoDie → IoDie) : (s.modIo i g).free = s.free := rfl
@[simp] theorem State.modIo_nextId (s : State) (i : Fin 2) (g : IoDie → IoDie) : (s.modIo i g).nextId = s.nextId := rfl
@[simp] theorem State.modIo_el (s : State) (i : Fin 2) (g : IoDie → IoDie) (u : Tile) : (s.modIo i g).el u = s.el u := rfl
@[simp] theorem State.modIo_sw (s : State) (i : Fin 2) (g : IoDie → IoDie) (u : Tile) : (s.modIo i g).sw u = s.sw u := rfl
@[simp] theorem State.modIo_mt (s : State) (i : Fin 2) (g : IoDie → IoDie) (u : Tile) : (s.modIo i g).mt u = s.mt u := rfl
@[simp] theorem State.modIo_rg (s : State) (i : Fin 2) (g : IoDie → IoDie) (q : RegionId) : (s.modIo i g).rg q = s.rg q := rfl
@[simp] theorem State.modIo_die (s : State) (i : Fin 2) (g : IoDie → IoDie) (q : DieId) : (s.modIo i g).die q = s.die q := rfl

/-! msix -/

@[simp] theorem State.msix_elements (s : State) (v : Nat) : (s.msix v).elements = s.elements := rfl
@[simp] theorem State.msix_switches (s : State) (v : Nat) : (s.msix v).switches = s.switches := rfl
@[simp] theorem State.msix_mts (s : State) (v : Nat) : (s.msix v).mts = s.mts := rfl
@[simp] theorem State.msix_regions (s : State) (v : Nat) : (s.msix v).regions = s.regions := rfl
@[simp] theorem State.msix_dies (s : State) (v : Nat) : (s.msix v).dies = s.dies := rfl
@[simp] theorem State.msix_ios (s : State) (v : Nat) : (s.msix v).ios = s.ios := rfl
@[simp] theorem State.msix_modul (s : State) (v : Nat) : (s.msix v).modul = s.modul := rfl
@[simp] theorem State.msix_clasps (s : State) (v : Nat) : (s.msix v).clasps = s.clasps := rfl
@[simp] theorem State.msix_mem (s : State) (v : Nat) : (s.msix v).mem = s.mem := rfl
@[simp] theorem State.msix_holds (s : State) (v : Nat) : (s.msix v).holds = s.holds := rfl
@[simp] theorem State.msix_reexam (s : State) (v : Nat) : (s.msix v).reexam = s.reexam := rfl
@[simp] theorem State.msix_reqs (s : State) (v : Nat) : (s.msix v).reqs = s.reqs := rfl
@[simp] theorem State.msix_walks (s : State) (v : Nat) : (s.msix v).walks = s.walks := rfl
@[simp] theorem State.msix_power (s : State) (v : Nat) : (s.msix v).power = s.power := rfl
@[simp] theorem State.msix_answer (s : State) (v : Nat) : (s.msix v).answer = s.answer := rfl
@[simp] theorem State.msix_moved (s : State) (v : Nat) : (s.msix v).moved = s.moved := rfl
@[simp] theorem State.msix_turns (s : State) (v : Nat) : (s.msix v).turns = s.turns := rfl
@[simp] theorem State.msix_upsets (s : State) (v : Nat) : (s.msix v).upsets = s.upsets := rfl
@[simp] theorem State.msix_cycle (s : State) (v : Nat) : (s.msix v).cycle = s.cycle := rfl
@[simp] theorem State.msix_agenda (s : State) (v : Nat) : (s.msix v).agenda = s.agenda := rfl
@[simp] theorem State.msix_inbox (s : State) (v : Nat) : (s.msix v).inbox = s.inbox := rfl
@[simp] theorem State.msix_cur (s : State) (v : Nat) : (s.msix v).cur = s.cur := rfl
@[simp] theorem State.msix_free (s : State) (v : Nat) : (s.msix v).free = s.free := rfl
@[simp] theorem State.msix_nextId (s : State) (v : Nat) : (s.msix v).nextId = s.nextId := rfl
@[simp] theorem State.msix_el (s : State) (v : Nat) (u : Tile) : (s.msix v).el u = s.el u := rfl
@[simp] theorem State.msix_sw (s : State) (v : Nat) (u : Tile) : (s.msix v).sw u = s.sw u := rfl
@[simp] theorem State.msix_mt (s : State) (v : Nat) (u : Tile) : (s.msix v).mt u = s.mt u := rfl
@[simp] theorem State.msix_rg (s : State) (v : Nat) (q : RegionId) : (s.msix v).rg q = s.rg q := rfl
@[simp] theorem State.msix_die (s : State) (v : Nat) (q : DieId) : (s.msix v).die q = s.die q := rfl
@[simp] theorem State.msix_io (s : State) (v : Nat) (q : Fin 2) : (s.msix v).io q = s.io q := rfl

/-! What the accessors read after the update of their own component -/

theorem Tile.key_inj {t u : Tile} (ht : t.y < 32) (hu : u.y < 32) (h : t.key = u.key) : t = u := by
  obtain ⟨x, y⟩ := t
  obtain ⟨x', y'⟩ := u
  simp only [Sys2Proof.Tile.key] at h ht hu
  obtain rfl : y = y' := by omega
  obtain rfl : x = x' := by omega
  rfl

@[simp] theorem State.setEl_el_same (s : State) (t : Tile) (e : Element) : (s.setEl t e).el t = e := tget_tset_same ..
theorem State.setEl_el_other (s : State) (t u : Tile) (e : Element) (h : u.key ≠ t.key) : (s.setEl t e).el u = s.el u :=
  tget_tset_other _ _ _ _ _ h
@[simp] theorem State.modEl_el_same (s : State) (t : Tile) (g : Element → Element) : (s.modEl t g).el t = g (s.el t) :=
  tget_tset_same ..
theorem State.modEl_el_other (s : State) (t u : Tile) (g : Element → Element) (h : u.key ≠ t.key) : (s.modEl t g).el u = s.el u :=
  tget_tset_other _ _ _ _ _ h
@[simp] theorem State.setAct_el_same (s : State) (t : Tile) (a : Act) : (s.setAct t a).el t = { s.el t with act := some a } :=
  tget_tset_same ..
theorem State.setAct_el_other (s : State) (t u : Tile) (a : Act) (h : u.key ≠ t.key) : (s.setAct t a).el u = s.el u :=
  tget_tset_other _ _ _ _ _ h
@[simp] theorem State.dropAct_el_same (s : State) (t : Tile) : (s.dropAct t).el t = { s.el t with act := none } :=
  tget_tset_same ..
theorem State.dropAct_el_other (s : State) (t u : Tile) (h : u.key ≠ t.key) : (s.dropAct t).el u = s.el u :=
  tget_tset_other _ _ _ _ _ h
@[simp] theorem State.modFac_el_same (s : State) (t : Tile) (f : Facet) (g : FacetEl → FacetEl) :
    (s.modFac t f g).el t = (s.el t).modFac f g := tget_tset_same ..
theorem State.modFac_el_other (s : State) (t u : Tile) (f : Facet) (g : FacetEl → FacetEl) (h : u.key ≠ t.key) :
    (s.modFac t f g).el u = s.el u := tget_tset_other _ _ _ _ _ h
@[simp] theorem State.setSw_sw_same (s : State) (t : Tile) (e : Switchbox) : (s.setSw t e).sw t = e := tget_tset_same ..
theorem State.setSw_sw_other (s : State) (t u : Tile) (e : Switchbox) (h : u.key ≠ t.key) : (s.setSw t e).sw u = s.sw u :=
  tget_tset_other _ _ _ _ _ h
@[simp] theorem State.setMt_mt_same (s : State) (t : Tile) (e : MemTile) : (s.setMt t e).mt t = e := tget_tset_same ..
theorem State.setMt_mt_other (s : State) (t u : Tile) (e : MemTile) (h : u.key ≠ t.key) : (s.setMt t e).mt u = s.mt u :=
  tget_tset_other _ _ _ _ _ h
@[simp] theorem State.modMt_mt_same (s : State) (t : Tile) (g : MemTile → MemTile) : (s.modMt t g).mt t = g (s.mt t) :=
  tget_tset_same ..
theorem State.modMt_mt_other (s : State) (t u : Tile) (g : MemTile → MemTile) (h : u.key ≠ t.key) : (s.modMt t g).mt u = s.mt u :=
  tget_tset_other _ _ _ _ _ h
@[simp] theorem State.modMtFac_mt_same (s : State) (t : Tile) (f : Facet) (g : MtFacet → MtFacet) :
    (s.modMtFac t f g).mt t = (s.mt t).modFac f g := tget_tset_same ..
theorem State.modMtFac_mt_other (s : State) (t u : Tile) (f : Facet) (g : MtFacet → MtFacet) (h : u.key ≠ t.key) :
    (s.modMtFac t f g).mt u = s.mt u := tget_tset_other _ _ _ _ _ h
@[simp] theorem State.setRg_rg_same (s : State) (r : RegionId) (g : Region) : (s.setRg r g).rg r = g := vget_vset_same ..
theorem State.setRg_rg_other (s : State) (r q : RegionId) (g : Region) (h : q ≠ r) : (s.setRg r g).rg q = s.rg q :=
  vget_vset_other _ _ _ _ h
@[simp] theorem State.modRg_rg_same (s : State) (r : RegionId) (g : Region → Region) : (s.modRg r g).rg r = g (s.rg r) :=
  vget_vset_same ..
theorem State.modRg_rg_other (s : State) (r q : RegionId) (g : Region → Region) (h : q ≠ r) : (s.modRg r g).rg q = s.rg q :=
  vget_vset_other _ _ _ _ h
@[simp] theorem State.setDie_die_same (s : State) (d : DieId) (x : Die) : (s.setDie d x).die d = x := vget_vset_same ..
theorem State.setDie_die_other (s : State) (d q : DieId) (x : Die) (h : q ≠ d) : (s.setDie d x).die q = s.die q :=
  vget_vset_other _ _ _ _ h
@[simp] theorem State.modDie_die_same (s : State) (d : DieId) (g : Die → Die) : (s.modDie d g).die d = g (s.die d) :=
  vget_vset_same ..
theorem State.modDie_die_other (s : State) (d q : DieId) (g : Die → Die) (h : q ≠ d) : (s.modDie d g).die q = s.die q :=
  vget_vset_other _ _ _ _ h
@[simp] theorem State.modIo_io_same (s : State) (i : Fin 2) (g : IoDie → IoDie) : (s.modIo i g).io i = g (s.io i) :=
  vget_vset_same ..
theorem State.modIo_io_other (s : State) (i q : Fin 2) (g : IoDie → IoDie) (h : q ≠ i) : (s.modIo i g).io q = s.io q :=
  vget_vset_other _ _ _ _ h
@[simp] theorem Element.modFac_fac_same (e : Element) (f : Facet) (g : FacetEl → FacetEl) : (e.modFac f g).fac f = g (e.fac f) :=
  vget_vmod_same ..
theorem Element.modFac_fac_other (e : Element) (f h : Facet) (g : FacetEl → FacetEl) (n : h ≠ f) : (e.modFac f g).fac h = e.fac h :=
  vget_vmod_other _ _ _ _ n
@[simp] theorem MemTile.modFac_fac_same (m : MemTile) (f : Facet) (g : MtFacet → MtFacet) : (m.modFac f g).fac f = g (m.fac f) :=
  vget_vmod_same ..
theorem MemTile.modFac_fac_other (m : MemTile) (f h : Facet) (g : MtFacet → MtFacet) (n : h ≠ f) : (m.modFac f g).fac h = m.fac h :=
  vget_vmod_other _ _ _ _ n

/-! The registers of an activation (R8): g0 and p0 keep their constant values -/

@[simp] theorem Bank.rg_zero (b : Bank) : b.rg 0 = 0 := rfl
@[simp] theorem Bank.rp_zero (b : Bank) : b.rp 0 = ⟨true, 0xFFFF⟩ := rfl
@[simp] theorem Bank.wg_zero (b : Bank) (x : Word) : b.wg 0 x = b := rfl
@[simp] theorem Bank.wp_zero (b : Bank) (x : PReg) : b.wp 0 x = b := rfl
theorem Bank.rg_wg_same (b : Bank) (n : BitVec 6) (x : Word) (h : n ≠ 0) : (b.wg n x).rg n = x := by
  rw [Bank.rg, Bank.wg, if_neg h, if_neg h, vget_vset_same]
theorem Bank.rg_wg_other (b : Bank) (n m : BitVec 6) (x : Word) (h : m ≠ n) : (b.wg n x).rg m = b.rg m := by
  have : m.toFin ≠ n.toFin := fun e => h (BitVec.eq_of_toFin_eq e)
  by_cases hn : n = 0
  · rw [hn, Bank.wg_zero]
  · rw [Bank.rg, Bank.rg, Bank.wg, if_neg hn, vget_vset_other _ _ _ _ this]
theorem Bank.rv_wv_same (b : Bank) (n : BitVec 5) (x : Vec) : (b.wv n x).rv n = x := by simp [Bank.rv, Bank.wv]
theorem Bank.rv_wv_other (b : Bank) (n m : BitVec 5) (x : Vec) (h : m ≠ n) : (b.wv n x).rv m = b.rv m := by
  have : m.toFin ≠ n.toFin := fun e => h (BitVec.eq_of_toFin_eq e)
  rw [Bank.rv, Bank.rv, Bank.wv, vget_vset_other _ _ _ _ this]
theorem Bank.rp_wp_same (b : Bank) (n : BitVec 3) (x : PReg) (h : n ≠ 0) : (b.wp n x).rp n = x := by
  rw [Bank.rp, Bank.wp, if_neg h, if_neg h, vget_vset_same]
theorem Bank.rp_wp_other (b : Bank) (n m : BitVec 3) (x : PReg) (h : m ≠ n) : (b.wp n x).rp m = b.rp m := by
  have : m.toFin ≠ n.toFin := fun e => h (BitVec.eq_of_toFin_eq e)
  by_cases hn : n = 0
  · rw [hn, Bank.wp_zero]
  · rw [Bank.rp, Bank.rp, Bank.wp, if_neg hn, vget_vset_other _ _ _ _ this]
@[simp] theorem Bank.wg_v (b : Bank) (n : BitVec 6) (x : Word) : (b.wg n x).v = b.v := by simp only [Bank.wg]; split <;> rfl
@[simp] theorem Bank.wg_p (b : Bank) (n : BitVec 6) (x : Word) : (b.wg n x).p = b.p := by simp only [Bank.wg]; split <;> rfl
@[simp] theorem Bank.wv_g (b : Bank) (n : BitVec 5) (x : Vec) : (b.wv n x).g = b.g := rfl
@[simp] theorem Bank.wv_p (b : Bank) (n : BitVec 5) (x : Vec) : (b.wv n x).p = b.p := rfl
@[simp] theorem Bank.wp_g (b : Bank) (n : BitVec 3) (x : PReg) : (b.wp n x).g = b.g := by simp only [Bank.wp]; split <;> rfl
@[simp] theorem Bank.wp_v (b : Bank) (n : BitVec 3) (x : PReg) : (b.wp n x).v = b.v := by simp only [Bank.wp]; split <;> rfl

end Sys2Proof.Machine
end

