-- ==== Sys2Proof/Laws/Notices.lean ====
section
/-! SUPPORT. What notices, causes, matches and traps can do, each said once: the parts of the state that they leave alone. -/

namespace Sys2Proof.Machine

theorem when_true (s s' : State) : when_ s true s' = .next s' := rfl
theorem when_false (s s' : State) : when_ s false s' = .next s := rfl
theorem when_next (s s' t : State) (c : Bool) (h : when_ s c s' = .next t) : (c = true ∧ t = s') ∨ (c = false ∧ t = s) := by
  cases c
  · exact .inr ⟨rfl, (Host.Outcome.next.inj h).symm⟩
  · exact .inl ⟨rfl, (Host.Outcome.next.inj h).symm⟩

/-! Notices (R365) -/

/-- A notice changes the FIFO of its region or die, and sends at most an interrupt. -/
theorem State.notify_frame (s : State) (dst : NoticeFifo) (n : Notice) :
    { s.notify dst n with regions := s.regions, dies := s.dies, out := s.out } = s := by
  cases dst <;> simp only [State.notify] <;> split <;> rfl
/-- Only the FIFO and its status word change in a region. -/
theorem State.notify_rg (s : State) (dst : NoticeFifo) (n : Notice) (r : RegionId) :
    { (s.notify dst n).rg r with notices := (s.rg r).notices, nstat := (s.rg r).nstat } = s.rg r := by
  cases dst with
  | region q =>
    by_cases h : r = q
    · subst h
      simp only [State.notify]
      split <;> simp [State.rg, State.setRg, State.msix]
    · simp only [State.notify]
      split <;> simp [State.rg, State.setRg, State.msix, vget_vset_other _ _ _ _ h]
  | die d => simp only [State.notify]; split <;> rfl
/-- Only the FIFO and its status word change in a die. -/
theorem State.notify_die (s : State) (dst : NoticeFifo) (n : Notice) (d : DieId) :
    { (s.notify dst n).die d with notices := (s.die d).notices, nstat := (s.die d).nstat } = s.die d := by
  cases dst with
  | region q => simp only [State.notify]; split <;> rfl
  | die q =>
    by_cases h : d = q
    · subst h
      simp only [State.notify]
      split <;> simp [State.die, State.setDie, State.msix]
    · simp only [State.notify]
      split <;> simp [State.die, State.setDie, State.msix, vget_vset_other _ _ _ _ h]

/-! Causes (R363) -/

theorem State.cause_eq_notify (s : State) (t : Tile) (f : Facet) (code : Nat) (async : Bool) (detail : Nat) :
    ∃ dst n, s.cause t f code async detail = s.notify dst n := by
  simp only [State.cause]
  split
  · exact ⟨_, _, rfl⟩
  · exact ⟨_, _, rfl⟩
theorem State.cause_frame (s : State) (t : Tile) (f : Facet) (code : Nat) (async : Bool) (detail : Nat) :
    { s.cause t f code async detail with regions := s.regions, dies := s.dies, out := s.out } = s := by
  obtain ⟨dst, n, h⟩ := s.cause_eq_notify t f code async detail
  rw [h, State.notify_frame]
theorem State.cause_rg (s : State) (t : Tile) (f : Facet) (code : Nat) (async : Bool) (detail : Nat) (r : RegionId) :
    { (s.cause t f code async detail).rg r with notices := (s.rg r).notices, nstat := (s.rg r).nstat } = s.rg r := by
  obtain ⟨dst, n, h⟩ := s.cause_eq_notify t f code async detail
  rw [h, State.notify_rg]
theorem State.causeRg_frame (s : State) (q : RegionId) (f : Facet) (code detail : Nat) :
    { s.causeRg q f code detail with regions := s.regions, dies := s.dies, out := s.out } = s := State.notify_frame ..
theorem State.causeRg_rg (s : State) (q : RegionId) (f : Facet) (code detail : Nat) (r : RegionId) :
    { (s.causeRg q f code detail).rg r with notices := (s.rg r).notices, nstat := (s.rg r).nstat } = s.rg r := State.notify_rg ..
@[simp] theorem State.cause_elements (s : State) (t : Tile) (f : Facet) (c : Nat) (b : Bool) (d : Nat) :
    (s.cause t f c b d).elements = s.elements := (congrArg State.elements (s.cause_frame t f c b d) :)
@[simp] theorem State.cause_switches (s : State) (t : Tile) (f : Facet) (c : Nat) (b : Bool) (d : Nat) :
    (s.cause t f c b d).switches = s.switches := (congrArg State.switches (s.cause_frame t f c b d) :)
@[simp] theorem State.cause_mts (s : State) (t : Tile) (f : Facet) (c : Nat) (b : Bool) (d : Nat) :
    (s.cause t f c b d).mts = s.mts := (congrArg State.mts (s.cause_frame t f c b d) :)
@[simp] theorem State.cause_mem (s : State) (t : Tile) (f : Facet) (c : Nat) (b : Bool) (d : Nat) :
    (s.cause t f c b d).mem = s.mem := (congrArg State.mem (s.cause_frame t f c b d) :)
@[simp] theorem State.cause_holds (s : State) (t : Tile) (f : Facet) (c : Nat) (b : Bool) (d : Nat) :
    (s.cause t f c b d).holds = s.holds := (congrArg State.holds (s.cause_frame t f c b d) :)
@[simp] theorem State.cause_reqs (s : State) (t : Tile) (f : Facet) (c : Nat) (b : Bool) (d : Nat) :
    (s.cause t f c b d).reqs = s.reqs := (congrArg State.reqs (s.cause_frame t f c b d) :)
@[simp] theorem State.cause_cycle (s : State) (t : Tile) (f : Facet) (c : Nat) (b : Bool) (d : Nat) :
    (s.cause t f c b d).cycle = s.cycle := (congrArg State.cycle (s.cause_frame t f c b d) :)
@[simp] theorem State.cause_cur (s : State) (t : Tile) (f : Facet) (c : Nat) (b : Bool) (d : Nat) :
    (s.cause t f c b d).cur = s.cur := (congrArg State.cur (s.cause_frame t f c b d) :)
@[simp] theorem State.causeRg_elements (s : State) (q : RegionId) (f : Facet) (c d : Nat) :
    (s.causeRg q f c d).elements = s.elements := (congrArg State.elements (s.causeRg_frame q f c d) :)
@[simp] theorem State.causeRg_mts (s : State) (q : RegionId) (f : Facet) (c d : Nat) :
    (s.causeRg q f c d).mts = s.mts := (congrArg State.mts (s.causeRg_frame q f c d) :)
@[simp] theorem State.causeRg_mem (s : State) (q : RegionId) (f : Facet) (c d : Nat) :
    (s.causeRg q f c d).mem = s.mem := (congrArg State.mem (s.causeRg_frame q f c d) :)
@[simp] theorem State.causeRg_cycle (s : State) (q : RegionId) (f : Facet) (c d : Nat) :
    (s.causeRg q f c d).cycle = s.cycle := (congrArg State.cycle (s.causeRg_frame q f c d) :)

/-! Matches (R445, R447) -/

/-- What a match may change: regions, dies' notices and what leaves the links. -/
def OnlyWatch (s s' : State) : Prop := { s' with regions := s.regions, dies := s.dies, out := s.out } = s
theorem OnlyWatch.refl (s : State) : OnlyWatch s s := rfl
theorem OnlyWatch.trans {a b c : State} (h : OnlyWatch a b) (k : OnlyWatch b c) : OnlyWatch a c := by
  unfold OnlyWatch at *
  rw [← h, ← k]
theorem State.dbgMatch_watch (s : State) (r : RegionId) (b x : Nat) (note : Bool) (c k : Nat) : OnlyWatch s (s.dbgMatch r b x note c k) := by
  unfold State.dbgMatch
  cases note
  · rfl
  · exact OnlyWatch.trans (b := s.modRg r _) rfl (State.causeRg_frame ..)
theorem State.dbgEvent_watch (s : State) (t : Tile) (f : Facet) (type : Nat) (ok : Word → Bool) : OnlyWatch s (s.dbgEvent t f type ok) := by
  unfold State.dbgEvent
  split
  · exact OnlyWatch.refl s
  · generalize List.finRange 8 = l
    have key : ∀ (l : List (Fin 8)) (u : State), OnlyWatch s u → OnlyWatch s (l.foldl (fun s k =>
        let g := s.rg ‹RegionId›
        if g.watches k type t f && ok (tget g.dwpval k.val 0) then
          s.dbgMatch ‹RegionId› k.val 0 (bit (tget g.dwpctl k.val 0) 17) causeWatchpoint k.val
        else s) u) := by
      intro l
      induction l with
      | nil => exact fun u h => h
      | cons k l ih =>
        intro u h
        rw [List.foldl_cons]
        refine ih _ ?_
        dsimp only
        split
        · exact h.trans (State.dbgMatch_watch ..)
        · exact h
    exact key l s (OnlyWatch.refl s)
theorem State.dbgRegWrite_watch (s : State) (t : Tile) (f : Facet) (d : Spec) : OnlyWatch s (s.dbgRegWrite t f d) := by
  unfold State.dbgRegWrite
  dsimp only
  split
  · exact State.dbgEvent_watch ..
  · exact OnlyWatch.refl s
theorem State.dbgTag_watch (s : State) (t : Tile) (f : Facet) (sp loc : Nat) (b : Bool) : OnlyWatch s (s.dbgTag t f sp loc b) :=
  State.dbgEvent_watch ..
@[simp] theorem State.dbgRegWrite_elements (s : State) (t : Tile) (f : Facet) (d : Spec) : (s.dbgRegWrite t f d).elements = s.elements :=
  (congrArg State.elements (s.dbgRegWrite_watch t f d) :)
@[simp] theorem State.dbgRegWrite_mem (s : State) (t : Tile) (f : Facet) (d : Spec) : (s.dbgRegWrite t f d).mem = s.mem :=
  (congrArg State.mem (s.dbgRegWrite_watch t f d) :)
@[simp] theorem State.dbgRegWrite_mts (s : State) (t : Tile) (f : Facet) (d : Spec) : (s.dbgRegWrite t f d).mts = s.mts :=
  (congrArg State.mts (s.dbgRegWrite_watch t f d) :)
@[simp] theorem State.dbgRegWrite_el (s : State) (t : Tile) (f : Facet) (d : Spec) (u : Tile) : (s.dbgRegWrite t f d).el u = s.el u := by
  simp only [State.el, State.dbgRegWrite_elements]

/-! Aborts and traps (R32, R38) -/

/-- An abort changes its element's activation, the holds, and which requests are re-examined. -/
theorem State.abort_frame (s : State) (t : Tile) (a : Act) :
    { s.abort t a with elements := s.elements, holds := s.holds, reexam := s.reexam } = s := rfl
@[simp] theorem State.abort_el_same (s : State) (t : Tile) (a : Act) : (s.abort t a).el t = { s.el t with act := none } :=
  State.dropAct_el_same _ t
theorem State.abort_el_other (s : State) (t u : Tile) (a : Act) (h : u.key ≠ t.key) : (s.abort t a).el u = s.el u :=
  State.dropAct_el_other _ t u h
/-- A trap ends the activation, writes HCAUSE, HADDR and TRAPPED of its facet, and raises one cause. -/
theorem State.trap_el_same (s : State) (t : Tile) (a : Act) (code : Nat) (x : Word) :
    (s.trap t a code x).el t =
      Element.modFac { s.el t with act := none } a.facet (·.trapped code a.handler.val (a.pc.toNat % 2048) x) := by
  simp only [State.trap, State.el, State.cause_elements]
  exact tget_tset_same .. |>.trans (congrArg (fun e => Element.modFac e a.facet _) (State.abort_el_same s t a))
theorem State.trap_el_other (s : State) (t u : Tile) (a : Act) (code : Nat) (x : Word) (h : u.key ≠ t.key) :
    (s.trap t a code x).el u = s.el u := by
  simp only [State.trap, State.el, State.cause_elements]
  exact (State.modFac_el_other _ t u _ _ h).trans (State.abort_el_other s t u a h)
@[simp] theorem State.trap_mem (s : State) (t : Tile) (a : Act) (code : Nat) (x : Word) : (s.trap t a code x).mem = s.mem := by
  simp only [State.trap, State.cause_mem]; rfl
@[simp] theorem State.trap_mts (s : State) (t : Tile) (a : Act) (code : Nat) (x : Word) : (s.trap t a code x).mts = s.mts := by
  simp only [State.trap, State.cause_mts]; rfl
@[simp] theorem State.trap_reqs (s : State) (t : Tile) (a : Act) (code : Nat) (x : Word) : (s.trap t a code x).reqs = s.reqs := by
  simp only [State.trap, State.cause_reqs]; rfl

end Sys2Proof.Machine
end

