-- ==== Sys2Proof/Laws/Issue.lean ====
section
/-! SUPPORT. The issue of an instruction (R54 to R57), said once: the cases in which it ends, and what each leaves. -/

namespace Sys2Proof.Machine

/-- An element with an activation in progress runs the meaning. -/
theorem withAct_next (s : State) (k : Tile → Act → State) (a : Act) (h : (s.cur.isCT && s.cur.inFabric) = true)
    (ha : (s.el s.cur).act = some a) : withAct s k = .next (k s.cur a) := by
  simp only [withAct, h, if_true, ha]
/-- Where an instruction answers a next state there was an element with an activation, and its meaning gave the state. -/
theorem withAct_inv (s s' : State) (k : Tile → Act → State) (h : withAct s k = .next s') :
    (s.cur.isCT && s.cur.inFabric) = true ∧ ∃ a, (s.el s.cur).act = some a ∧ s' = k s.cur a := by
  unfold withAct at h
  split at h
  · rename_i hc
    split at h
    · cases h
    · rename_i a ha
      exact ⟨hc, a, ha, (Host.Outcome.next.inj h).symm⟩
  · cases h

@[simp] theorem State.retire_el_same (s : State) (t : Tile) (a : Act) (busy : Nat) :
    (s.retire t a busy).el t = { s.el t with act := some { a with pc := a.pc + 1, stalled := 0, busy := busy } } :=
  State.setAct_el_same ..
theorem State.retire_el_other (s : State) (t u : Tile) (a : Act) (busy : Nat) (h : u.key ≠ t.key) :
    (s.retire t a busy).el u = s.el u := State.setAct_el_other _ _ _ _ h
theorem State.retire_frame (s : State) (t : Tile) (a : Act) (busy : Nat) : { s.retire t a busy with elements := s.elements } = s := rfl
theorem State.portWait_frame (s : State) (t : Tile) (a : Act) : { s.portWait t a with elements := s.elements } = s := rfl
theorem State.otherWait_frame (s : State) (t : Tile) (a : Act) : { s.otherWait t a with elements := s.elements } = s := rfl

/-- A finished instruction either retired with its result, or trapped. -/
theorem State.finish_cases (s : State) (t : Tile) (a0 : Act) (d : Spec) (busy : Nat) (e : Except TrapInfo Act) :
    (∃ a, e = .ok a ∧ s.finish t a0 d busy e = (s.dbgRegWrite t a.facet d).retire t a busy) ∨
    (∃ c x, e = .error (c, x) ∧ s.finish t a0 d busy e = s.trap t a0 c x) := by
  cases e with
  | ok a => exact .inl ⟨a, rfl, rfl⟩
  | error p => exact .inr ⟨p.1, p.2, rfl, rfl⟩
@[simp] theorem State.finish_mem (s : State) (t : Tile) (a0 : Act) (d : Spec) (busy : Nat) (e : Except TrapInfo Act) :
    (s.finish t a0 d busy e).mem = s.mem := by
  obtain ⟨a, -, h⟩ | ⟨c, x, -, h⟩ := s.finish_cases t a0 d busy e
  · rw [h]; exact (s.dbgRegWrite t a.facet d).setAct_mem t _ |>.trans (s.dbgRegWrite_mem t a.facet d)
  · rw [h, State.trap_mem]
theorem State.finish_el_other (s : State) (t u : Tile) (a0 : Act) (d : Spec) (busy : Nat) (e : Except TrapInfo Act) (n : u.key ≠ t.key) :
    (s.finish t a0 d busy e).el u = s.el u := by
  obtain ⟨a, -, h⟩ | ⟨c, x, -, h⟩ := s.finish_cases t a0 d busy e
  · rw [h, State.retire_el_other _ _ _ _ _ n, State.dbgRegWrite_el]
  · rw [h, State.trap_el_other _ _ _ _ _ _ n]
/-- A finished instruction that does not trap leaves its element but for the activation. -/
theorem State.finish_el_same (s : State) (t : Tile) (a0 a : Act) (d : Spec) (busy : Nat) :
    (s.finish t a0 d busy (.ok a)).el t = { s.el t with act := some { a with pc := a.pc + 1, stalled := 0, busy := busy } } := by
  simp only [State.finish, State.retire_el_same, State.dbgRegWrite_el]

/-- The ends of issue: the guard or the predicate skips the instruction, a port is waited for, a null is treated, or it executes. -/
theorem State.issue_cases (s : State) (t : Tile) (a : Act) (h : Head) (srcs : List Spec) (out : Option (BitVec 4))
    (nul : Token → State) (body : State) :
    ((a.bank.rp h.gp).scalar = h.gn ∧ s.issue t a h srcs out nul body = s.retire t a 0) ∨
    ((a.bank.rp h.gp).scalar ≠ h.gn ∧
      (((s.portsReady t a srcs && s.hasRoom t a out) = false ∧ s.issue t a h srcs out nul body = s.portWait t a) ∨
       ((s.portsReady t a srcs && s.hasRoom t a out) = true ∧
        (s.issue t a h srcs out nul body = s.retire t (a.consumeAll srcs) 0 ∨
         (∃ k, (firstPort srcs).bind (s.specTok t a) = some k ∧ k.kind = kNull ∧ s.issue t a h srcs out nul body = nul k) ∨
         s.issue t a h srcs out nul body = body)))) := by
  unfold State.issue
  by_cases hg : (a.bank.rp h.gp).scalar = h.gn
  · exact .inl ⟨hg, by simp [hg]⟩
  · refine .inr ⟨hg, ?_⟩
    rw [if_neg (by simpa using hg)]
    cases hr : (s.portsReady t a srcs && s.hasRoom t a out) with
    | false => exact .inl ⟨rfl, by simp⟩
    | true =>
      refine .inr ⟨rfl, ?_⟩
      simp only [Bool.not_true, Bool.false_eq_true, if_false]
      cases h.pm <;> cases hk : (firstPort srcs).bind (s.specTok t a) with
      | none => exact .inr (.inr rfl)
      | some k =>
        first
          | exact .inr (.inr rfl)
          | (dsimp only
             split
             · first
                 | exact .inr (.inr rfl)
                 | exact .inl rfl
                 | exact .inr (.inl ⟨k, rfl, ‹_›, rfl⟩)
             · first
                 | exact .inr (.inr rfl)
                 | exact .inl rfl)
/-- With no port among its operands, no output port and no predicate match, an instruction whose guard holds executes. -/
theorem State.issue_plain (s : State) (t : Tile) (a : Act) (h : Head) (srcs : List Spec) (nul : Token → State) (body : State)
    (hg : (a.bank.rp h.gp).scalar ≠ h.gn) (hs : ∀ x ∈ srcs, x.isPort = false) :
    s.issue t a h srcs none nul body = body := by
  have hf : firstPort srcs = none := List.find?_eq_none.2 fun x hx => by simp [hs x hx]
  have hr : ∀ (l : List Spec) (b : Act), (∀ x ∈ l, x.isPort = false) → s.portsReady t b l = true := by
    intro l
    induction l with
    | nil => intro b _; rfl
    | cons x l ih =>
      intro b hl
      simp only [State.portsReady, hl x (List.mem_cons_self ..), Bool.not_false, Bool.true_or, Bool.true_and]
      exact ih _ fun y hy => hl y (List.mem_cons_of_mem _ hy)
  unfold State.issue
  rw [if_neg (by simpa using hg), hr srcs a hs, hf]
  cases h.pm <;> rfl

end Sys2Proof.Machine
end

