-- ==== Sys2Proof/Laws/Memory.lean ====
section
/-! SUPPORT. Laws of the memory: every operation keeps the canonical form, a byte written is read back, and every other byte, tag and
poison mark stays. -/

namespace Sys2Proof.Machine

theorem Memory.wf_iff (m : Memory) : m.wf = true ↔
    risingKeys m.cells = true ∧ (∀ c ∈ m.cells, c.2 ≠ 0) ∧ rising m.full = true ∧ rising m.poison = true := by
  simp [Memory.wf, and_assoc]

theorem Memory.empty_wf : Memory.empty.wf = true := by decide

theorem Memory.putByte_wf (m : Memory) (a : Nat) (b : Byte) (h : m.wf = true) : (m.putByte a b).wf = true := by
  obtain ⟨h1, h2, h3, h4⟩ := m.wf_iff.1 h
  refine (Memory.wf_iff _).2 ⟨?_, ?_, h3, h4⟩
  · simp only [Memory.putByte, putCell]
    split
    · exact risingKeys_tdel _ _ h1
    · exact risingKeys_tset _ _ _ h1
  · simp only [Memory.putByte, putCell]
    split
    · exact fun c hc => h2 c (mem_of_mem_tdel _ _ _ hc)
    · rename_i hb
      intro c hc
      rcases mem_tset _ _ _ _ hc with rfl | hc
      · exact hb
      · exact h2 c hc

theorem Memory.putBytes_wf (l : List Byte) (m : Memory) (a : Nat) (h : m.wf = true) : (m.putBytes a l).wf = true := by
  induction l generalizing m a with
  | nil => exact h
  | cons b l ih => exact ih _ _ (m.putByte_wf a b h)

theorem Memory.putCells_wf (l : List Host.Cell) (m : Memory) (h : m.wf = true) : (m.putCells l).wf = true := by
  induction l generalizing m with
  | nil => exact h
  | cons c l ih => exact ih _ (m.putByte_wf c.1 c.2 h)

theorem Memory.write_wf (m : Memory) (a n v : Nat) (h : m.wf = true) : (m.write a n v).wf = true := Memory.putBytes_wf _ _ _ h

theorem Memory.setFull_wf (m : Memory) (a : Nat) (b : Bool) (h : m.wf = true) : (m.setFull a b).wf = true := by
  obtain ⟨h1, h2, h3, h4⟩ := m.wf_iff.1 h
  exact (Memory.wf_iff _).2 ⟨h1, h2, rising_sput _ _ _ h3, h4⟩

theorem Memory.setPoison_wf (m : Memory) (a : Nat) (b : Bool) (h : m.wf = true) : (m.setPoison a b).wf = true := by
  obtain ⟨h1, h2, h3, h4⟩ := m.wf_iff.1 h
  exact (Memory.wf_iff _).2 ⟨h1, h2, h3, rising_sput _ _ _ h4⟩

/-- GL codes and failing bursts are no part of the form. -/
@[simp] theorem Memory.wf_gl (m : Memory) (g : Tab Nat) : Memory.wf { m with gl := g } = m.wf := rfl
@[simp] theorem Memory.wf_bad (m : Memory) (g : Tab Nat) : Memory.wf { m with bad := g } = m.wf := rfl

/-! Reading after writing -/

theorem Memory.byte_putByte_same (m : Memory) (a : Nat) (b : Byte) (h : m.wf = true) : (m.putByte a b).byte a = b := by
  simp only [Memory.byte, Memory.putByte, putCell]
  split
  · rename_i hb
    rw [tget_tdel_same _ _ _ (m.wf_iff.1 h).1, hb]
  · exact tget_tset_same ..

theorem Memory.byte_putByte_other (m : Memory) (a a' : Nat) (b : Byte) (h : a' ≠ a) : (m.putByte a b).byte a' = m.byte a' := by
  simp only [Memory.byte, Memory.putByte, putCell]
  split
  · exact tget_tdel_other _ _ _ _ h
  · exact tget_tset_other _ _ _ _ _ h

theorem Memory.byte_putBytes_other (l : List Byte) (m : Memory) (a a' : Nat) (h : a' < a ∨ a + l.length ≤ a') :
    (m.putBytes a l).byte a' = m.byte a' := by
  induction l generalizing m a with
  | nil => rfl
  | cons b l ih =>
    simp only [List.length_cons] at h
    rw [Memory.putBytes, ih _ _ (by omega), Memory.byte_putByte_other _ _ _ _ (by omega)]

theorem Memory.byte_putBytes_inside (l : List Byte) (m : Memory) (a i : Nat) (hw : m.wf = true) (h : i < l.length) :
    (m.putBytes a l).byte (a + i) = l[i] := by
  induction l generalizing m a i with
  | nil => simp at h
  | cons b l ih =>
    rw [Memory.putBytes]
    cases i with
    | zero =>
      rw [Memory.byte_putBytes_other _ _ _ _ (.inl (by omega))]
      exact Memory.byte_putByte_same _ _ _ hw
    | succ i =>
      have := ih (m.putByte a b) (a + 1) i (m.putByte_wf a b hw) (by simpa using h)
      rw [show a + (i + 1) = a + 1 + i by omega, this]
      rfl

theorem length_bytesOf (n x : Nat) : (bytesOf n x).length = n := by
  induction n generalizing x with
  | zero => rfl
  | succ n ih => simp [bytesOf, ih]

theorem ofBytes_bytesOf (n x : Nat) : ofBytes (bytesOf n x) = x % 256 ^ n := by
  induction n generalizing x with
  | zero => simp [bytesOf, ofBytes, Nat.mod_one]
  | succ n ih =>
    rw [bytesOf, ofBytes, ih, BitVec.toNat_ofNat, show 256 ^ (n + 1) = 256 * 256 ^ n by ring, Nat.mod_mul]

theorem Memory.length_bytes (m : Memory) (n a : Nat) : (m.bytes a n).length = n := by
  induction n generalizing a with
  | zero => rfl
  | succ n ih => simp [Memory.bytes, ih]

theorem Memory.getElem_bytes (m : Memory) (n a i : Nat) (h : i < (m.bytes a n).length) : (m.bytes a n)[i] = m.byte (a + i) := by
  induction n generalizing a i with
  | zero => simp [Memory.bytes] at h
  | succ n ih =>
    cases i with
    | zero => simp [Memory.bytes]
    | succ i =>
      simp only [Memory.bytes, List.getElem_cons_succ]
      rw [ih (a + 1) i]
      congr 1
      omega

theorem Memory.bytes_putBytes (m : Memory) (a : Nat) (l : List Byte) (hw : m.wf = true) : (m.putBytes a l).bytes a l.length = l := by
  apply List.ext_getElem
  · rw [Memory.length_bytes]
  · intro i h1 h2
    rw [Memory.getElem_bytes, Memory.byte_putBytes_inside l m a i hw h2]

/-- A number written is read back, as far as the bytes hold it (R4). -/
theorem Memory.read_write (m : Memory) (a n v : Nat) (hw : m.wf = true) : (m.write a n v).read a n = v % 256 ^ n := by
  have := m.bytes_putBytes a (bytesOf n v) hw
  rw [length_bytesOf] at this
  rw [Memory.read, Memory.write, this, ofBytes_bytesOf]

theorem Memory.bytes_congr (m m' : Memory) (a n : Nat) (h : ∀ i, a ≤ i → i < a + n → m'.byte i = m.byte i) :
    m'.bytes a n = m.bytes a n := by
  induction n generalizing a with
  | zero => rfl
  | succ n ih =>
    rw [Memory.bytes, Memory.bytes, h a (by omega) (by omega), ih (a + 1) fun i h1 h2 => h i (by omega) (by omega)]

/-- A read outside the bytes written gives what it gave. -/
theorem Memory.read_write_other (m : Memory) (a n v b k : Nat) (h : b + k ≤ a ∨ a + n ≤ b) : (m.write a n v).read b k = m.read b k := by
  rw [Memory.read, Memory.read, Memory.bytes_congr m (m.write a n v) b k]
  intro i h1 h2
  exact Memory.byte_putBytes_other _ _ _ _ (by rw [length_bytesOf]; omega)

@[simp] theorem Memory.setFull_byte (m : Memory) (a a' : Nat) (b : Bool) : (m.setFull a b).byte a' = m.byte a' := rfl
@[simp] theorem Memory.setPoison_byte (m : Memory) (a a' : Nat) (b : Bool) : (m.setPoison a b).byte a' = m.byte a' := rfl

theorem Memory.putBytes_full (l : List Byte) (m : Memory) (a : Nat) : (m.putBytes a l).full = m.full := by
  induction l generalizing m a with
  | nil => rfl
  | cons b l ih => rw [Memory.putBytes, ih]; rfl
theorem Memory.putBytes_poison (l : List Byte) (m : Memory) (a : Nat) : (m.putBytes a l).poison = m.poison := by
  induction l generalizing m a with
  | nil => rfl
  | cons b l ih => rw [Memory.putBytes, ih]; rfl
@[simp] theorem Memory.write_full (m : Memory) (a n v : Nat) : (m.write a n v).full = m.full := Memory.putBytes_full ..
@[simp] theorem Memory.write_poison (m : Memory) (a n v : Nat) : (m.write a n v).poison = m.poison := Memory.putBytes_poison ..

/-- The tag of a word after a tag is set (R10, R214). -/
theorem Memory.isFull_setFull (m : Memory) (a a' : Nat) (b : Bool) (h : m.wf = true) :
    (m.setFull a b).isFull a' = if a' / 8 = a / 8 then b else m.isFull a' := by
  have := mem_sput m.full (a / 8) (a' / 8) b (m.wf_iff.1 h).2.2.1
  apply Bool.eq_iff_iff.2
  simp only [Memory.isFull, Memory.setFull, List.contains_iff_mem, this]
  split <;> simp

/-- No word is lost while no stored bit has flipped. -/
theorem Memory.lostWord_of_bad (m : Memory) (a : Nat) (h : m.bad = []) : m.lostWord a = false := by
  simp [Memory.lostWord, h, tget]

/-- The poison mark of a word after one is set, while no stored bit has flipped. -/
theorem Memory.isPoison_setPoison (m : Memory) (a a' : Nat) (b : Bool) (h : m.wf = true) (hb : m.bad = []) :
    (m.setPoison a b).isPoison a' = if a' / 8 = a / 8 then b else m.isPoison a' := by
  have := mem_sput m.poison (a / 8) (a' / 8) b (m.wf_iff.1 h).2.2.2
  have h' : (m.setPoison a b).bad = [] := by simp [Memory.setPoison, hb, tdel]
  apply Bool.eq_iff_iff.2
  rw [Memory.isPoison, Memory.isPoison, Memory.lostWord_of_bad _ _ h', Memory.lostWord_of_bad _ _ hb]
  simp only [Memory.setPoison, List.contains_iff_mem, Bool.or_false, this]
  split <;> simp

end Sys2Proof.Machine
end

