-- ==== Sys2Proof/Laws/PerInstr.lean ====
section
/-! SUPPORT. One lemma for each constructor of Instr: the word of a well-formed instruction decodes to it (R41 to R60). The steps of the
other agents have no word. -/

set_option maxRecDepth 4000

namespace Sys2Proof

/-- The word of a well-formed instruction, if it has one, decodes to that instruction, with every operand. -/
def Laws.RoundTrip.Statement (i : Instr) : Prop := i.wf = true → ∀ w : Word, encode i = some w → decode w = .ok i

theorem Laws.splitWord_illegal (w : Word) (h : opcodeAssigned (fld w 56 8) = false) : splitWord w = .illegalOpcode w := by
  have e : (cut w 56 8).toNat = fld w 56 8 := by
    simp only [cut, fld, BitVec.extractLsb'_toNat, Nat.shiftRight_eq_div_pow]
  unfold splitWord
  split <;> first
    | rfl
    | (rename_i hn
       rw [e] at hn
       rw [hn] at h
       exact absurd h (by decide))

theorem Laws.RoundTrip.add (w : RForm) : RoundTrip.Statement (.add w) := fun h _ e => by
  obtain rfl := Option.some.inj e
  have hc := Instr.check_of_wf _ h
  have ho := (w.at_ 0x01#8).op_
  have hr := w.roundTrip _ 0x01#8 hc
  refine decode_of_split _ _ ?_ hc
  generalize w.toWord 0x01#8 = x at ho hr
  unfold splitWord
  rw [ho, ← hr]
  rfl
theorem Laws.RoundTrip.addi (w : IForm) : RoundTrip.Statement (.addi w) := fun h _ e => by
  obtain rfl := Option.some.inj e
  have hc := Instr.check_of_wf _ h
  have ho := (w.at_ 0x02#8).op_
  have hr := w.roundTrip _ _ _ 0x02#8 hc
  refine decode_of_split _ _ ?_ hc
  generalize w.toWord 0x02#8 = x at ho hr
  unfold splitWord
  rw [ho, ← hr]
  rfl
theorem Laws.RoundTrip.sub (w : RForm) : RoundTrip.Statement (.sub w) := fun h _ e => by
  obtain rfl := Option.some.inj e
  have hc := Instr.check_of_wf _ h
  have ho := (w.at_ 0x03#8).op_
  have hr := w.roundTrip _ 0x03#8 hc
  refine decode_of_split _ _ ?_ hc
  generalize w.toWord 0x03#8 = x at ho hr
  unfold splitWord
  rw [ho, ← hr]
  rfl
theorem Laws.RoundTrip.mul (w : RForm) : RoundTrip.Statement (.mul w) := fun h _ e => by
  obtain rfl := Option.some.inj e
  have hc := Instr.check_of_wf _ h
  have ho := (w.at_ 0x04#8).op_
  have hr := w.roundTrip _ 0x04#8 hc
  refine decode_of_split _ _ ?_ hc
  generalize w.toWord 0x04#8 = x at ho hr
  unfold splitWord
  rw [ho, ← hr]
  rfl
theorem Laws.RoundTrip.muli (w : IForm) : RoundTrip.Statement (.muli w) := fun h _ e => by
  obtain rfl := Option.some.inj e
  have hc := Instr.check_of_wf _ h
  have ho := (w.at_ 0x05#8).op_
  have hr := w.roundTrip _ _ _ 0x05#8 hc
  refine decode_of_split _ _ ?_ hc
  generalize w.toWord 0x05#8 = x at ho hr
  unfold splitWord
  rw [ho, ← hr]
  rfl
theorem Laws.RoundTrip.mulh (w : RForm) : RoundTrip.Statement (.mulh w) := fun h _ e => by
  obtain rfl := Option.some.inj e
  have hc := Instr.check_of_wf _ h
  have ho := (w.at_ 0x06#8).op_
  have hr := w.roundTrip _ 0x06#8 hc
  refine decode_of_split _ _ ?_ hc
  generalize w.toWord 0x06#8 = x at ho hr
  unfold splitWord
  rw [ho, ← hr]
  rfl
theorem Laws.RoundTrip.mulhu (w : RForm) : RoundTrip.Statement (.mulhu w) := fun h _ e => by
  obtain rfl := Option.some.inj e
  have hc := Instr.check_of_wf _ h
  have ho := (w.at_ 0x07#8).op_
  have hr := w.roundTrip _ 0x07#8 hc
  refine decode_of_split _ _ ?_ hc
  generalize w.toWord 0x07#8 = x at ho hr
  unfold splitWord
  rw [ho, ← hr]
  rfl
theorem Laws.RoundTrip.div (w : RForm) : RoundTrip.Statement (.div w) := fun h _ e => by
  obtain rfl := Option.some.inj e
  have hc := Instr.check_of_wf _ h
  have ho := (w.at_ 0x08#8).op_
  have hr := w.roundTrip _ 0x08#8 hc
  refine decode_of_split _ _ ?_ hc
  generalize w.toWord 0x08#8 = x at ho hr
  unfold splitWord
  rw [ho, ← hr]
  rfl
theorem Laws.RoundTrip.divu (w : RForm) : RoundTrip.Statement (.divu w) := fun h _ e => by
  obtain rfl := Option.some.inj e
  have hc := Instr.check_of_wf _ h
  have ho := (w.at_ 0x09#8).op_
  have hr := w.roundTrip _ 0x09#8 hc
  refine decode_of_split _ _ ?_ hc
  generalize w.toWord 0x09#8 = x at ho hr
  unfold splitWord
  rw [ho, ← hr]
  rfl
theorem Laws.RoundTrip.rem (w : RForm) : RoundTrip.Statement (.rem w) := fun h _ e => by
  obtain rfl := Option.some.inj e
  have hc := Instr.check_of_wf _ h
  have ho := (w.at_ 0x0A#8).op_
  have hr := w.roundTrip _ 0x0A#8 hc
  refine decode_of_split _ _ ?_ hc
  generalize w.toWord 0x0A#8 = x at ho hr
  unfold splitWord
  rw [ho, ← hr]
  rfl
theorem Laws.RoundTrip.remu (w : RForm) : RoundTrip.Statement (.remu w) := fun h _ e => by
  obtain rfl := Option.some.inj e
  have hc := Instr.check_of_wf _ h
  have ho := (w.at_ 0x0B#8).op_
  have hr := w.roundTrip _ 0x0B#8 hc
  refine decode_of_split _ _ ?_ hc
  generalize w.toWord 0x0B#8 = x at ho hr
  unfold splitWord
  rw [ho, ← hr]
  rfl
theorem Laws.RoundTrip.and (w : RForm) : RoundTrip.Statement (.and w) := fun h _ e => by
  obtain rfl := Option.some.inj e
  have hc := Instr.check_of_wf _ h
  have ho := (w.at_ 0x10#8).op_
  have hr := w.roundTrip _ 0x10#8 hc
  refine decode_of_split _ _ ?_ hc
  generalize w.toWord 0x10#8 = x at ho hr
  unfold splitWord
  rw [ho, ← hr]
  rfl
theorem Laws.RoundTrip.andi (w : IForm) : RoundTrip.Statement (.andi w) := fun h _ e => by
  obtain rfl := Option.some.inj e
  have hc := Instr.check_of_wf _ h
  have ho := (w.at_ 0x11#8).op_
  have hr := w.roundTrip _ _ _ 0x11#8 hc
  refine decode_of_split _ _ ?_ hc
  generalize w.toWord 0x11#8 = x at ho hr
  unfold splitWord
  rw [ho, ← hr]
  rfl
theorem Laws.RoundTrip.or (w : RForm) : RoundTrip.Statement (.or w) := fun h _ e => by
  obtain rfl := Option.some.inj e
  have hc := Instr.check_of_wf _ h
  have ho := (w.at_ 0x12#8).op_
  have hr := w.roundTrip _ 0x12#8 hc
  refine decode_of_split _ _ ?_ hc
  generalize w.toWord 0x12#8 = x at ho hr
  unfold splitWord
  rw [ho, ← hr]
  rfl
theorem Laws.RoundTrip.ori (w : IForm) : RoundTrip.Statement (.ori w) := fun h _ e => by
  obtain rfl := Option.some.inj e
  have hc := Instr.check_of_wf _ h
  have ho := (w.at_ 0x13#8).op_
  have hr := w.roundTrip _ _ _ 0x13#8 hc
  refine decode_of_split _ _ ?_ hc
  generalize w.toWord 0x13#8 = x at ho hr
  unfold splitWord
  rw [ho, ← hr]
  rfl
theorem Laws.RoundTrip.xor (w : RForm) : RoundTrip.Statement (.xor w) := fun h _ e => by
  obtain rfl := Option.some.inj e
  have hc := Instr.check_of_wf _ h
  have ho := (w.at_ 0x14#8).op_
  have hr := w.roundTrip _ 0x14#8 hc
  refine decode_of_split _ _ ?_ hc
  generalize w.toWord 0x14#8 = x at ho hr
  unfold splitWord
  rw [ho, ← hr]
  rfl
theorem Laws.RoundTrip.xori (w : IForm) : RoundTrip.Statement (.xori w) := fun h _ e => by
  obtain rfl := Option.some.inj e
  have hc := Instr.check_of_wf _ h
  have ho := (w.at_ 0x15#8).op_
  have hr := w.roundTrip _ _ _ 0x15#8 hc
  refine decode_of_split _ _ ?_ hc
  generalize w.toWord 0x15#8 = x at ho hr
  unfold splitWord
  rw [ho, ← hr]
  rfl
theorem Laws.RoundTrip.andn (w : RForm) : RoundTrip.Statement (.andn w) := fun h _ e => by
  obtain rfl := Option.some.inj e
  have hc := Instr.check_of_wf _ h
  have ho := (w.at_ 0x16#8).op_
  have hr := w.roundTrip _ 0x16#8 hc
  refine decode_of_split _ _ ?_ hc
  generalize w.toWord 0x16#8 = x at ho hr
  unfold splitWord
  rw [ho, ← hr]
  rfl
theorem Laws.RoundTrip.shl (w : RForm) : RoundTrip.Statement (.shl w) := fun h _ e => by
  obtain rfl := Option.some.inj e
  have hc := Instr.check_of_wf _ h
  have ho := (w.at_ 0x18#8).op_
  have hr := w.roundTrip _ 0x18#8 hc
  refine decode_of_split _ _ ?_ hc
  generalize w.toWord 0x18#8 = x at ho hr
  unfold splitWord
  rw [ho, ← hr]
  rfl
theorem Laws.RoundTrip.shli (w : IForm) : RoundTrip.Statement (.shli w) := fun h _ e => by
  obtain rfl := Option.some.inj e
  have hc := Instr.check_of_wf _ h
  have ho := (w.at_ 0x19#8).op_
  have hr := w.roundTrip _ _ _ 0x19#8 hc
  refine decode_of_split _ _ ?_ hc
  generalize w.toWord 0x19#8 = x at ho hr
  unfold splitWord
  rw [ho, ← hr]
  rfl
theorem Laws.RoundTrip.shr (w : RForm) : RoundTrip.Statement (.shr w) := fun h _ e => by
  obtain rfl := Option.some.inj e
  have hc := Instr.check_of_wf _ h
  have ho := (w.at_ 0x1A#8).op_
  have hr := w.roundTrip _ 0x1A#8 hc
  refine decode_of_split _ _ ?_ hc
  generalize w.toWord 0x1A#8 = x at ho hr
  unfold splitWord
  rw [ho, ← hr]
  rfl
theorem Laws.RoundTrip.shri (w : IForm) : RoundTrip.Statement (.shri w) := fun h _ e => by
  obtain rfl := Option.some.inj e
  have hc := Instr.check_of_wf _ h
  have ho := (w.at_ 0x1B#8).op_
  have hr := w.roundTrip _ _ _ 0x1B#8 hc
  refine decode_of_split _ _ ?_ hc
  generalize w.toWord 0x1B#8 = x at ho hr
  unfold splitWord
  rw [ho, ← hr]
  rfl
theorem Laws.RoundTrip.sra (w : RForm) : RoundTrip.Statement (.sra w) := fun h _ e => by
  obtain rfl := Option.some.inj e
  have hc := Instr.check_of_wf _ h
  have ho := (w.at_ 0x1C#8).op_
  have hr := w.roundTrip _ 0x1C#8 hc
  refine decode_of_split _ _ ?_ hc
  generalize w.toWord 0x1C#8 = x at ho hr
  unfold splitWord
  rw [ho, ← hr]
  rfl
theorem Laws.RoundTrip.srai (w : IForm) : RoundTrip.Statement (.srai w) := fun h _ e => by
  obtain rfl := Option.some.inj e
  have hc := Instr.check_of_wf _ h
  have ho := (w.at_ 0x1D#8).op_
  have hr := w.roundTrip _ _ _ 0x1D#8 hc
  refine decode_of_split _ _ ?_ hc
  generalize w.toWord 0x1D#8 = x at ho hr
  unfold splitWord
  rw [ho, ← hr]
  rfl
theorem Laws.RoundTrip.rotl (w : RForm) : RoundTrip.Statement (.rotl w) := fun h _ e => by
  obtain rfl := Option.some.inj e
  have hc := Instr.check_of_wf _ h
  have ho := (w.at_ 0x1E#8).op_
  have hr := w.roundTrip _ 0x1E#8 hc
  refine decode_of_split _ _ ?_ hc
  generalize w.toWord 0x1E#8 = x at ho hr
  unfold splitWord
  rw [ho, ← hr]
  rfl
theorem Laws.RoundTrip.clz (w : RForm) : RoundTrip.Statement (.clz w) := fun h _ e => by
  obtain rfl := Option.some.inj e
  have hc := Instr.check_of_wf _ h
  have ho := (w.at_ 0x20#8).op_
  have hr := w.roundTrip _ 0x20#8 hc
  refine decode_of_split _ _ ?_ hc
  generalize w.toWord 0x20#8 = x at ho hr
  unfold splitWord
  rw [ho, ← hr]
  rfl
theorem Laws.RoundTrip.ctz (w : RForm) : RoundTrip.Statement (.ctz w) := fun h _ e => by
  obtain rfl := Option.some.inj e
  have hc := Instr.check_of_wf _ h
  have ho := (w.at_ 0x21#8).op_
  have hr := w.roundTrip _ 0x21#8 hc
  refine decode_of_split _ _ ?_ hc
  generalize w.toWord 0x21#8 = x at ho hr
  unfold splitWord
  rw [ho, ← hr]
  rfl
theorem Laws.RoundTrip.popc (w : RForm) : RoundTrip.Statement (.popc w) := fun h _ e => by
  obtain rfl := Option.some.inj e
  have hc := Instr.check_of_wf _ h
  have ho := (w.at_ 0x22#8).op_
  have hr := w.roundTrip _ 0x22#8 hc
  refine decode_of_split _ _ ?_ hc
  generalize w.toWord 0x22#8 = x at ho hr
  unfold splitWord
  rw [ho, ← hr]
  rfl
theorem Laws.RoundTrip.bswap (w : RForm) : RoundTrip.Statement (.bswap w) := fun h _ e => by
  obtain rfl := Option.some.inj e
  have hc := Instr.check_of_wf _ h
  have ho := (w.at_ 0x23#8).op_
  have hr := w.roundTrip _ 0x23#8 hc
  refine decode_of_split _ _ ?_ hc
  generalize w.toWord 0x23#8 = x at ho hr
  unfold splitWord
  rw [ho, ← hr]
  rfl
theorem Laws.RoundTrip.bext (w : RForm) : RoundTrip.Statement (.bext w) := fun h _ e => by
  obtain rfl := Option.some.inj e
  have hc := Instr.check_of_wf _ h
  have ho := (w.at_ 0x24#8).op_
  have hr := w.roundTrip _ 0x24#8 hc
  refine decode_of_split _ _ ?_ hc
  generalize w.toWord 0x24#8 = x at ho hr
  unfold splitWord
  rw [ho, ← hr]
  rfl
theorem Laws.RoundTrip.bins (w : RForm) : RoundTrip.Statement (.bins w) := fun h _ e => by
  obtain rfl := Option.some.inj e
  have hc := Instr.check_of_wf _ h
  have ho := (w.at_ 0x25#8).op_
  have hr := w.roundTrip _ 0x25#8 hc
  refine decode_of_split _ _ ?_ hc
  generalize w.toWord 0x25#8 = x at ho hr
  unfold splitWord
  rw [ho, ← hr]
  rfl
theorem Laws.RoundTrip.min (w : RForm) : RoundTrip.Statement (.min w) := fun h _ e => by
  obtain rfl := Option.some.inj e
  have hc := Instr.check_of_wf _ h
  have ho := (w.at_ 0x26#8).op_
  have hr := w.roundTrip _ 0x26#8 hc
  refine decode_of_split _ _ ?_ hc
  generalize w.toWord 0x26#8 = x at ho hr
  unfold splitWord
  rw [ho, ← hr]
  rfl
theorem Laws.RoundTrip.max (w : RForm) : RoundTrip.Statement (.max w) := fun h _ e => by
  obtain rfl := Option.some.inj e
  have hc := Instr.check_of_wf _ h
  have ho := (w.at_ 0x27#8).op_
  have hr := w.roundTrip _ 0x27#8 hc
  refine decode_of_split _ _ ?_ hc
  generalize w.toWord 0x27#8 = x at ho hr
  unfold splitWord
  rw [ho, ← hr]
  rfl
theorem Laws.RoundTrip.minu (w : RForm) : RoundTrip.Statement (.minu w) := fun h _ e => by
  obtain rfl := Option.some.inj e
  have hc := Instr.check_of_wf _ h
  have ho := (w.at_ 0x28#8).op_
  have hr := w.roundTrip _ 0x28#8 hc
  refine decode_of_split _ _ ?_ hc
  generalize w.toWord 0x28#8 = x at ho hr
  unfold splitWord
  rw [ho, ← hr]
  rfl
theorem Laws.RoundTrip.maxu (w : RForm) : RoundTrip.Statement (.maxu w) := fun h _ e => by
  obtain rfl := Option.some.inj e
  have hc := Instr.check_of_wf _ h
  have ho := (w.at_ 0x29#8).op_
  have hr := w.roundTrip _ 0x29#8 hc
  refine decode_of_split _ _ ?_ hc
  generalize w.toWord 0x29#8 = x at ho hr
  unfold splitWord
  rw [ho, ← hr]
  rfl
theorem Laws.RoundTrip.cmp (w : RForm) : RoundTrip.Statement (.cmp w) := fun h _ e => by
  obtain rfl := Option.some.inj e
  have hc := Instr.check_of_wf _ h
  have ho := (w.at_ 0x2A#8).op_
  have hr := w.roundTrip _ 0x2A#8 hc
  refine decode_of_split _ _ ?_ hc
  generalize w.toWord 0x2A#8 = x at ho hr
  unfold splitWord
  rw [ho, ← hr]
  rfl
theorem Laws.RoundTrip.cmpi (w : IForm) : RoundTrip.Statement (.cmpi w) := fun h _ e => by
  obtain rfl := Option.some.inj e
  have hc := Instr.check_of_wf _ h
  have ho := (w.at_ 0x2B#8).op_
  have hr := w.roundTrip _ _ _ 0x2B#8 hc
  refine decode_of_split _ _ ?_ hc
  generalize w.toWord 0x2B#8 = x at ho hr
  unfold splitWord
  rw [ho, ← hr]
  rfl
theorem Laws.RoundTrip.sel (w : RForm) : RoundTrip.Statement (.sel w) := fun h _ e => by
  obtain rfl := Option.some.inj e
  have hc := Instr.check_of_wf _ h
  have ho := (w.at_ 0x2C#8).op_
  have hr := w.roundTrip _ 0x2C#8 hc
  refine decode_of_split _ _ ?_ hc
  generalize w.toWord 0x2C#8 = x at ho hr
  unfold splitWord
  rw [ho, ← hr]
  rfl
theorem Laws.RoundTrip.limm (w : IForm) : RoundTrip.Statement (.limm w) := fun h _ e => by
  obtain rfl := Option.some.inj e
  have hc := Instr.check_of_wf _ h
  have ho := (w.at_ 0x2D#8).op_
  have hr := w.roundTrip _ _ _ 0x2D#8 hc
  refine decode_of_split _ _ ?_ hc
  generalize w.toWord 0x2D#8 = x at ho hr
  unfold splitWord
  rw [ho, ← hr]
  rfl
theorem Laws.RoundTrip.lea (w : MForm) : RoundTrip.Statement (.lea w) := fun h _ e => by
  obtain rfl := Option.some.inj e
  have hc := Instr.check_of_wf _ h
  have ho := (w.at_ 0x2E#8).op_
  have hr := w.roundTrip _ _ _ _ _ _ 0x2E#8 hc
  refine decode_of_split _ _ ?_ hc
  generalize w.toWord 0x2E#8 = x at ho hr
  unfold splitWord
  rw [ho, ← hr]
  rfl
theorem Laws.RoundTrip.chash (w : RForm) : RoundTrip.Statement (.chash w) := fun h _ e => by
  obtain rfl := Option.some.inj e
  have hc := Instr.check_of_wf _ h
  have ho := (w.at_ 0x2F#8).op_
  have hr := w.roundTrip _ 0x2F#8 hc
  refine decode_of_split _ _ ?_ hc
  generalize w.toWord 0x2F#8 = x at ho hr
  unfold splitWord
  rw [ho, ← hr]
  rfl
theorem Laws.RoundTrip.fadd (w : RForm) : RoundTrip.Statement (.fadd w) := fun h _ e => by
  obtain rfl := Option.some.inj e
  have hc := Instr.check_of_wf _ h
  have ho := (w.at_ 0x30#8).op_
  have hr := w.roundTrip _ 0x30#8 hc
  refine decode_of_split _ _ ?_ hc
  generalize w.toWord 0x30#8 = x at ho hr
  unfold splitWord
  rw [ho, ← hr]
  rfl
theorem Laws.RoundTrip.fsub (w : RForm) : RoundTrip.Statement (.fsub w) := fun h _ e => by
  obtain rfl := Option.some.inj e
  have hc := Instr.check_of_wf _ h
  have ho := (w.at_ 0x31#8).op_
  have hr := w.roundTrip _ 0x31#8 hc
  refine decode_of_split _ _ ?_ hc
  generalize w.toWord 0x31#8 = x at ho hr
  unfold splitWord
  rw [ho, ← hr]
  rfl
theorem Laws.RoundTrip.fmul (w : RForm) : RoundTrip.Statement (.fmul w) := fun h _ e => by
  obtain rfl := Option.some.inj e
  have hc := Instr.check_of_wf _ h
  have ho := (w.at_ 0x32#8).op_
  have hr := w.roundTrip _ 0x32#8 hc
  refine decode_of_split _ _ ?_ hc
  generalize w.toWord 0x32#8 = x at ho hr
  unfold splitWord
  rw [ho, ← hr]
  rfl
theorem Laws.RoundTrip.ffma (w : RForm) : RoundTrip.Statement (.ffma w) := fun h _ e => by
  obtain rfl := Option.some.inj e
  have hc := Instr.check_of_wf _ h
  have ho := (w.at_ 0x33#8).op_
  have hr := w.roundTrip _ 0x33#8 hc
  refine decode_of_split _ _ ?_ hc
  generalize w.toWord 0x33#8 = x at ho hr
  unfold splitWord
  rw [ho, ← hr]
  rfl
theorem Laws.RoundTrip.fdiv (w : RForm) : RoundTrip.Statement (.fdiv w) := fun h _ e => by
  obtain rfl := Option.some.inj e
  have hc := Instr.check_of_wf _ h
  have ho := (w.at_ 0x34#8).op_
  have hr := w.roundTrip _ 0x34#8 hc
  refine decode_of_split _ _ ?_ hc
  generalize w.toWord 0x34#8 = x at ho hr
  unfold splitWord
  rw [ho, ← hr]
  rfl
theorem Laws.RoundTrip.fsqrt (w : RForm) : RoundTrip.Statement (.fsqrt w) := fun h _ e => by
  obtain rfl := Option.some.inj e
  have hc := Instr.check_of_wf _ h
  have ho := (w.at_ 0x35#8).op_
  have hr := w.roundTrip _ 0x35#8 hc
  refine decode_of_split _ _ ?_ hc
  generalize w.toWord 0x35#8 = x at ho hr
  unfold splitWord
  rw [ho, ← hr]
  rfl
theorem Laws.RoundTrip.fmin (w : RForm) : RoundTrip.Statement (.fmin w) := fun h _ e => by
  obtain rfl := Option.some.inj e
  have hc := Instr.check_of_wf _ h
  have ho := (w.at_ 0x36#8).op_
  have hr := w.roundTrip _ 0x36#8 hc
  refine decode_of_split _ _ ?_ hc
  generalize w.toWord 0x36#8 = x at ho hr
  unfold splitWord
  rw [ho, ← hr]
  rfl
theorem Laws.RoundTrip.fmax (w : RForm) : RoundTrip.Statement (.fmax w) := fun h _ e => by
  obtain rfl := Option.some.inj e
  have hc := Instr.check_of_wf _ h
  have ho := (w.at_ 0x37#8).op_
  have hr := w.roundTrip _ 0x37#8 hc
  refine decode_of_split _ _ ?_ hc
  generalize w.toWord 0x37#8 = x at ho hr
  unfold splitWord
  rw [ho, ← hr]
  rfl
theorem Laws.RoundTrip.fcmp (w : RForm) : RoundTrip.Statement (.fcmp w) := fun h _ e => by
  obtain rfl := Option.some.inj e
  have hc := Instr.check_of_wf _ h
  have ho := (w.at_ 0x38#8).op_
  have hr := w.roundTrip _ 0x38#8 hc
  refine decode_of_split _ _ ?_ hc
  generalize w.toWord 0x38#8 = x at ho hr
  unfold splitWord
  rw [ho, ← hr]
  rfl
theorem Laws.RoundTrip.fcvt (w : RForm) : RoundTrip.Statement (.fcvt w) := fun h _ e => by
  obtain rfl := Option.some.inj e
  have hc := Instr.check_of_wf _ h
  have ho := (w.at_ 0x39#8).op_
  have hr := w.roundTrip _ 0x39#8 hc
  refine decode_of_split _ _ ?_ hc
  generalize w.toWord 0x39#8 = x at ho hr
  unfold splitWord
  rw [ho, ← hr]
  rfl
theorem Laws.RoundTrip.frsqe (w : RForm) : RoundTrip.Statement (.frsqe w) := fun h _ e => by
  obtain rfl := Option.some.inj e
  have hc := Instr.check_of_wf _ h
  have ho := (w.at_ 0x3A#8).op_
  have hr := w.roundTrip _ 0x3A#8 hc
  refine decode_of_split _ _ ?_ hc
  generalize w.toWord 0x3A#8 = x at ho hr
  unfold splitWord
  rw [ho, ← hr]
  rfl
theorem Laws.RoundTrip.frcpe (w : RForm) : RoundTrip.Statement (.frcpe w) := fun h _ e => by
  obtain rfl := Option.some.inj e
  have hc := Instr.check_of_wf _ h
  have ho := (w.at_ 0x3B#8).op_
  have hr := w.roundTrip _ 0x3B#8 hc
  refine decode_of_split _ _ ?_ hc
  generalize w.toWord 0x3B#8 = x at ho hr
  unfold splitWord
  rw [ho, ← hr]
  rfl
theorem Laws.RoundTrip.vadd (w : RForm) : RoundTrip.Statement (.vadd w) := fun h _ e => by
  obtain rfl := Option.some.inj e
  have hc := Instr.check_of_wf _ h
  have ho := (w.at_ 0x40#8).op_
  have hr := w.roundTrip _ 0x40#8 hc
  refine decode_of_split _ _ ?_ hc
  generalize w.toWord 0x40#8 = x at ho hr
  unfold splitWord
  rw [ho, ← hr]
  rfl
theorem Laws.RoundTrip.vsub (w : RForm) : RoundTrip.Statement (.vsub w) := fun h _ e => by
  obtain rfl := Option.some.inj e
  have hc := Instr.check_of_wf _ h
  have ho := (w.at_ 0x41#8).op_
  have hr := w.roundTrip _ 0x41#8 hc
  refine decode_of_split _ _ ?_ hc
  generalize w.toWord 0x41#8 = x at ho hr
  unfold splitWord
  rw [ho, ← hr]
  rfl
theorem Laws.RoundTrip.vmul (w : RForm) : RoundTrip.Statement (.vmul w) := fun h _ e => by
  obtain rfl := Option.some.inj e
  have hc := Instr.check_of_wf _ h
  have ho := (w.at_ 0x42#8).op_
  have hr := w.roundTrip _ 0x42#8 hc
  refine decode_of_split _ _ ?_ hc
  generalize w.toWord 0x42#8 = x at ho hr
  unfold splitWord
  rw [ho, ← hr]
  rfl
theorem Laws.RoundTrip.vfma (w : RForm) : RoundTrip.Statement (.vfma w) := fun h _ e => by
  obtain rfl := Option.some.inj e
  have hc := Instr.check_of_wf _ h
  have ho := (w.at_ 0x43#8).op_
  have hr := w.roundTrip _ 0x43#8 hc
  refine decode_of_split _ _ ?_ hc
  generalize w.toWord 0x43#8 = x at ho hr
  unfold splitWord
  rw [ho, ← hr]
  rfl
theorem Laws.RoundTrip.vmin (w : RForm) : RoundTrip.Statement (.vmin w) := fun h _ e => by
  obtain rfl := Option.some.inj e
  have hc := Instr.check_of_wf _ h
  have ho := (w.at_ 0x44#8).op_
  have hr := w.roundTrip _ 0x44#8 hc
  refine decode_of_split _ _ ?_ hc
  generalize w.toWord 0x44#8 = x at ho hr
  unfold splitWord
  rw [ho, ← hr]
  rfl
theorem Laws.RoundTrip.vmax (w : RForm) : RoundTrip.Statement (.vmax w) := fun h _ e => by
  obtain rfl := Option.some.inj e
  have hc := Instr.check_of_wf _ h
  have ho := (w.at_ 0x45#8).op_
  have hr := w.roundTrip _ 0x45#8 hc
  refine decode_of_split _ _ ?_ hc
  generalize w.toWord 0x45#8 = x at ho hr
  unfold splitWord
  rw [ho, ← hr]
  rfl
theorem Laws.RoundTrip.vabsmax (w : RForm) : RoundTrip.Statement (.vabsmax w) := fun h _ e => by
  obtain rfl := Option.some.inj e
  have hc := Instr.check_of_wf _ h
  have ho := (w.at_ 0x46#8).op_
  have hr := w.roundTrip _ 0x46#8 hc
  refine decode_of_split _ _ ?_ hc
  generalize w.toWord 0x46#8 = x at ho hr
  unfold splitWord
  rw [ho, ← hr]
  rfl
theorem Laws.RoundTrip.vred (w : RForm) : RoundTrip.Statement (.vred w) := fun h _ e => by
  obtain rfl := Option.some.inj e
  have hc := Instr.check_of_wf _ h
  have ho := (w.at_ 0x47#8).op_
  have hr := w.roundTrip _ 0x47#8 hc
  refine decode_of_split _ _ ?_ hc
  generalize w.toWord 0x47#8 = x at ho hr
  unfold splitWord
  rw [ho, ← hr]
  rfl
theorem Laws.RoundTrip.vscan (w : RForm) : RoundTrip.Statement (.vscan w) := fun h _ e => by
  obtain rfl := Option.some.inj e
  have hc := Instr.check_of_wf _ h
  have ho := (w.at_ 0x48#8).op_
  have hr := w.roundTrip _ 0x48#8 hc
  refine decode_of_split _ _ ?_ hc
  generalize w.toWord 0x48#8 = x at ho hr
  unfold splitWord
  rw [ho, ← hr]
  rfl
theorem Laws.RoundTrip.vdot (w : RForm) : RoundTrip.Statement (.vdot w) := fun h _ e => by
  obtain rfl := Option.some.inj e
  have hc := Instr.check_of_wf _ h
  have ho := (w.at_ 0x49#8).op_
  have hr := w.roundTrip _ 0x49#8 hc
  refine decode_of_split _ _ ?_ hc
  generalize w.toWord 0x49#8 = x at ho hr
  unfold splitWord
  rw [ho, ← hr]
  rfl
theorem Laws.RoundTrip.viadd (w : RForm) : RoundTrip.Statement (.viadd w) := fun h _ e => by
  obtain rfl := Option.some.inj e
  have hc := Instr.check_of_wf _ h
  have ho := (w.at_ 0x50#8).op_
  have hr := w.roundTrip _ 0x50#8 hc
  refine decode_of_split _ _ ?_ hc
  generalize w.toWord 0x50#8 = x at ho hr
  unfold splitWord
  rw [ho, ← hr]
  rfl
theorem Laws.RoundTrip.visub (w : RForm) : RoundTrip.Statement (.visub w) := fun h _ e => by
  obtain rfl := Option.some.inj e
  have hc := Instr.check_of_wf _ h
  have ho := (w.at_ 0x51#8).op_
  have hr := w.roundTrip _ 0x51#8 hc
  refine decode_of_split _ _ ?_ hc
  generalize w.toWord 0x51#8 = x at ho hr
  unfold splitWord
  rw [ho, ← hr]
  rfl
theorem Laws.RoundTrip.vimul (w : RForm) : RoundTrip.Statement (.vimul w) := fun h _ e => by
  obtain rfl := Option.some.inj e
  have hc := Instr.check_of_wf _ h
  have ho := (w.at_ 0x52#8).op_
  have hr := w.roundTrip _ 0x52#8 hc
  refine decode_of_split _ _ ?_ hc
  generalize w.toWord 0x52#8 = x at ho hr
  unfold splitWord
  rw [ho, ← hr]
  rfl
theorem Laws.RoundTrip.vand (w : RForm) : RoundTrip.Statement (.vand w) := fun h _ e => by
  obtain rfl := Option.some.inj e
  have hc := Instr.check_of_wf _ h
  have ho := (w.at_ 0x53#8).op_
  have hr := w.roundTrip _ 0x53#8 hc
  refine decode_of_split _ _ ?_ hc
  generalize w.toWord 0x53#8 = x at ho hr
  unfold splitWord
  rw [ho, ← hr]
  rfl
theorem Laws.RoundTrip.vor (w : RForm) : RoundTrip.Statement (.vor w) := fun h _ e => by
  obtain rfl := Option.some.inj e
  have hc := Instr.check_of_wf _ h
  have ho := (w.at_ 0x54#8).op_
  have hr := w.roundTrip _ 0x54#8 hc
  refine decode_of_split _ _ ?_ hc
  generalize w.toWord 0x54#8 = x at ho hr
  unfold splitWord
  rw [ho, ← hr]
  rfl
theorem Laws.RoundTrip.vxor (w : RForm) : RoundTrip.Statement (.vxor w) := fun h _ e => by
  obtain rfl := Option.some.inj e
  have hc := Instr.check_of_wf _ h
  have ho := (w.at_ 0x55#8).op_
  have hr := w.roundTrip _ 0x55#8 hc
  refine decode_of_split _ _ ?_ hc
  generalize w.toWord 0x55#8 = x at ho hr
  unfold splitWord
  rw [ho, ← hr]
  rfl
theorem Laws.RoundTrip.vshl (w : RForm) : RoundTrip.Statement (.vshl w) := fun h _ e => by
  obtain rfl := Option.some.inj e
  have hc := Instr.check_of_wf _ h
  have ho := (w.at_ 0x56#8).op_
  have hr := w.roundTrip _ 0x56#8 hc
  refine decode_of_split _ _ ?_ hc
  generalize w.toWord 0x56#8 = x at ho hr
  unfold splitWord
  rw [ho, ← hr]
  rfl
theorem Laws.RoundTrip.vshr (w : RForm) : RoundTrip.Statement (.vshr w) := fun h _ e => by
  obtain rfl := Option.some.inj e
  have hc := Instr.check_of_wf _ h
  have ho := (w.at_ 0x57#8).op_
  have hr := w.roundTrip _ 0x57#8 hc
  refine decode_of_split _ _ ?_ hc
  generalize w.toWord 0x57#8 = x at ho hr
  unfold splitWord
  rw [ho, ← hr]
  rfl
theorem Laws.RoundTrip.vsra (w : RForm) : RoundTrip.Statement (.vsra w) := fun h _ e => by
  obtain rfl := Option.some.inj e
  have hc := Instr.check_of_wf _ h
  have ho := (w.at_ 0x58#8).op_
  have hr := w.roundTrip _ 0x58#8 hc
  refine decode_of_split _ _ ?_ hc
  generalize w.toWord 0x58#8 = x at ho hr
  unfold splitWord
  rw [ho, ← hr]
  rfl
theorem Laws.RoundTrip.vpopc (w : RForm) : RoundTrip.Statement (.vpopc w) := fun h _ e => by
  obtain rfl := Option.some.inj e
  have hc := Instr.check_of_wf _ h
  have ho := (w.at_ 0x6E#8).op_
  have hr := w.roundTrip _ 0x6E#8 hc
  refine decode_of_split _ _ ?_ hc
  generalize w.toWord 0x6E#8 = x at ho hr
  unfold splitWord
  rw [ho, ← hr]
  rfl
theorem Laws.RoundTrip.vcmp (w : RForm) : RoundTrip.Statement (.vcmp w) := fun h _ e => by
  obtain rfl := Option.some.inj e
  have hc := Instr.check_of_wf _ h
  have ho := (w.at_ 0x59#8).op_
  have hr := w.roundTrip _ 0x59#8 hc
  refine decode_of_split _ _ ?_ hc
  generalize w.toWord 0x59#8 = x at ho hr
  unfold splitWord
  rw [ho, ← hr]
  rfl
theorem Laws.RoundTrip.vicmp (w : RForm) : RoundTrip.Statement (.vicmp w) := fun h _ e => by
  obtain rfl := Option.some.inj e
  have hc := Instr.check_of_wf _ h
  have ho := (w.at_ 0x5A#8).op_
  have hr := w.roundTrip _ 0x5A#8 hc
  refine decode_of_split _ _ ?_ hc
  generalize w.toWord 0x5A#8 = x at ho hr
  unfold splitWord
  rw [ho, ← hr]
  rfl
theorem Laws.RoundTrip.vsel (w : RForm) : RoundTrip.Statement (.vsel w) := fun h _ e => by
  obtain rfl := Option.some.inj e
  have hc := Instr.check_of_wf _ h
  have ho := (w.at_ 0x5B#8).op_
  have hr := w.roundTrip _ 0x5B#8 hc
  refine decode_of_split _ _ ?_ hc
  generalize w.toWord 0x5B#8 = x at ho hr
  unfold splitWord
  rw [ho, ← hr]
  rfl
theorem Laws.RoundTrip.vsplat (w : RForm) : RoundTrip.Statement (.vsplat w) := fun h _ e => by
  obtain rfl := Option.some.inj e
  have hc := Instr.check_of_wf _ h
  have ho := (w.at_ 0x60#8).op_
  have hr := w.roundTrip _ 0x60#8 hc
  refine decode_of_split _ _ ?_ hc
  generalize w.toWord 0x60#8 = x at ho hr
  unfold splitWord
  rw [ho, ← hr]
  rfl
theorem Laws.RoundTrip.vperm (w : RForm) : RoundTrip.Statement (.vperm w) := fun h _ e => by
  obtain rfl := Option.some.inj e
  have hc := Instr.check_of_wf _ h
  have ho := (w.at_ 0x61#8).op_
  have hr := w.roundTrip _ 0x61#8 hc
  refine decode_of_split _ _ ?_ hc
  generalize w.toWord 0x61#8 = x at ho hr
  unfold splitWord
  rw [ho, ← hr]
  rfl
theorem Laws.RoundTrip.vextr (w : RForm) : RoundTrip.Statement (.vextr w) := fun h _ e => by
  obtain rfl := Option.some.inj e
  have hc := Instr.check_of_wf _ h
  have ho := (w.at_ 0x62#8).op_
  have hr := w.roundTrip _ 0x62#8 hc
  refine decode_of_split _ _ ?_ hc
  generalize w.toWord 0x62#8 = x at ho hr
  unfold splitWord
  rw [ho, ← hr]
  rfl
theorem Laws.RoundTrip.vins (w : RForm) : RoundTrip.Statement (.vins w) := fun h _ e => by
  obtain rfl := Option.some.inj e
  have hc := Instr.check_of_wf _ h
  have ho := (w.at_ 0x63#8).op_
  have hr := w.roundTrip _ 0x63#8 hc
  refine decode_of_split _ _ ?_ hc
  generalize w.toWord 0x63#8 = x at ho hr
  unfold splitWord
  rw [ho, ← hr]
  rfl
theorem Laws.RoundTrip.vcvt (w : RForm) : RoundTrip.Statement (.vcvt w) := fun h _ e => by
  obtain rfl := Option.some.inj e
  have hc := Instr.check_of_wf _ h
  have ho := (w.at_ 0x64#8).op_
  have hr := w.roundTrip _ 0x64#8 hc
  refine decode_of_split _ _ ?_ hc
  generalize w.toWord 0x64#8 = x at ho hr
  unfold splitWord
  rw [ho, ← hr]
  rfl
theorem Laws.RoundTrip.vcvts (w : RForm) : RoundTrip.Statement (.vcvts w) := fun h _ e => by
  obtain rfl := Option.some.inj e
  have hc := Instr.check_of_wf _ h
  have ho := (w.at_ 0x65#8).op_
  have hr := w.roundTrip _ 0x65#8 hc
  refine decode_of_split _ _ ?_ hc
  generalize w.toWord 0x65#8 = x at ho hr
  unfold splitWord
  rw [ho, ← hr]
  rfl
theorem Laws.RoundTrip.vpack (w : RForm) : RoundTrip.Statement (.vpack w) := fun h _ e => by
  obtain rfl := Option.some.inj e
  have hc := Instr.check_of_wf _ h
  have ho := (w.at_ 0x66#8).op_
  have hr := w.roundTrip _ 0x66#8 hc
  refine decode_of_split _ _ ?_ hc
  generalize w.toWord 0x66#8 = x at ho hr
  unfold splitWord
  rw [ho, ← hr]
  rfl
theorem Laws.RoundTrip.vunpk (w : RForm) : RoundTrip.Statement (.vunpk w) := fun h _ e => by
  obtain rfl := Option.some.inj e
  have hc := Instr.check_of_wf _ h
  have ho := (w.at_ 0x67#8).op_
  have hr := w.roundTrip _ 0x67#8 hc
  refine decode_of_split _ _ ?_ hc
  generalize w.toWord 0x67#8 = x at ho hr
  unfold splitWord
  rw [ho, ← hr]
  rfl
theorem Laws.RoundTrip.vrsqe (w : RForm) : RoundTrip.Statement (.vrsqe w) := fun h _ e => by
  obtain rfl := Option.some.inj e
  have hc := Instr.check_of_wf _ h
  have ho := (w.at_ 0x68#8).op_
  have hr := w.roundTrip _ 0x68#8 hc
  refine decode_of_split _ _ ?_ hc
  generalize w.toWord 0x68#8 = x at ho hr
  unfold splitWord
  rw [ho, ← hr]
  rfl
theorem Laws.RoundTrip.vrcpe (w : RForm) : RoundTrip.Statement (.vrcpe w) := fun h _ e => by
  obtain rfl := Option.some.inj e
  have hc := Instr.check_of_wf _ h
  have ho := (w.at_ 0x69#8).op_
  have hr := w.roundTrip _ 0x69#8 hc
  refine decode_of_split _ _ ?_ hc
  generalize w.toWord 0x69#8 = x at ho hr
  unfold splitWord
  rw [ho, ← hr]
  rfl
theorem Laws.RoundTrip.vcmul (w : RForm) : RoundTrip.Statement (.vcmul w) := fun h _ e => by
  obtain rfl := Option.some.inj e
  have hc := Instr.check_of_wf _ h
  have ho := (w.at_ 0x6A#8).op_
  have hr := w.roundTrip _ 0x6A#8 hc
  refine decode_of_split _ _ ?_ hc
  generalize w.toWord 0x6A#8 = x at ho hr
  unfold splitWord
  rw [ho, ← hr]
  rfl
theorem Laws.RoundTrip.vcmac (w : RForm) : RoundTrip.Statement (.vcmac w) := fun h _ e => by
  obtain rfl := Option.some.inj e
  have hc := Instr.check_of_wf _ h
  have ho := (w.at_ 0x6B#8).op_
  have hr := w.roundTrip _ 0x6B#8 hc
  refine decode_of_split _ _ ?_ hc
  generalize w.toWord 0x6B#8 = x at ho hr
  unfold splitWord
  rw [ho, ← hr]
  rfl
theorem Laws.RoundTrip.vconj (w : RForm) : RoundTrip.Statement (.vconj w) := fun h _ e => by
  obtain rfl := Option.some.inj e
  have hc := Instr.check_of_wf _ h
  have ho := (w.at_ 0x6C#8).op_
  have hr := w.roundTrip _ 0x6C#8 hc
  refine decode_of_split _ _ ?_ hc
  generalize w.toWord 0x6C#8 = x at ho hr
  unfold splitWord
  rw [ho, ← hr]
  rfl
theorem Laws.RoundTrip.vbfly (w : RForm) : RoundTrip.Statement (.vbfly w) := fun h _ e => by
  obtain rfl := Option.some.inj e
  have hc := Instr.check_of_wf _ h
  have ho := (w.at_ 0x6D#8).op_
  have hr := w.roundTrip _ 0x6D#8 hc
  refine decode_of_split _ _ ?_ hc
  generalize w.toWord 0x6D#8 = x at ho hr
  unfold splitWord
  rw [ho, ← hr]
  rfl
theorem Laws.RoundTrip.ld (w : MForm) : RoundTrip.Statement (.ld w) := fun h _ e => by
  obtain rfl := Option.some.inj e
  have hc := Instr.check_of_wf _ h
  have ho := (w.at_ 0x70#8).op_
  have hr := w.roundTrip _ _ _ _ _ _ 0x70#8 hc
  refine decode_of_split _ _ ?_ hc
  generalize w.toWord 0x70#8 = x at ho hr
  unfold splitWord
  rw [ho, ← hr]
  rfl
theorem Laws.RoundTrip.st (w : MForm) : RoundTrip.Statement (.st w) := fun h _ e => by
  obtain rfl := Option.some.inj e
  have hc := Instr.check_of_wf _ h
  have ho := (w.at_ 0x71#8).op_
  have hr := w.roundTrip _ _ _ _ _ _ 0x71#8 hc
  refine decode_of_split _ _ ?_ hc
  generalize w.toWord 0x71#8 = x at ho hr
  unfold splitWord
  rw [ho, ← hr]
  rfl
theorem Laws.RoundTrip.ldv (w : MForm) : RoundTrip.Statement (.ldv w) := fun h _ e => by
  obtain rfl := Option.some.inj e
  have hc := Instr.check_of_wf _ h
  have ho := (w.at_ 0x72#8).op_
  have hr := w.roundTrip _ _ _ _ _ _ 0x72#8 hc
  refine decode_of_split _ _ ?_ hc
  generalize w.toWord 0x72#8 = x at ho hr
  unfold splitWord
  rw [ho, ← hr]
  rfl
theorem Laws.RoundTrip.stv (w : MForm) : RoundTrip.Statement (.stv w) := fun h _ e => by
  obtain rfl := Option.some.inj e
  have hc := Instr.check_of_wf _ h
  have ho := (w.at_ 0x73#8).op_
  have hr := w.roundTrip _ _ _ _ _ _ 0x73#8 hc
  refine decode_of_split _ _ ?_ hc
  generalize w.toWord 0x73#8 = x at ho hr
  unfold splitWord
  rw [ho, ← hr]
  rfl
theorem Laws.RoundTrip.ldw (w : MForm) : RoundTrip.Statement (.ldw w) := fun h _ e => by
  obtain rfl := Option.some.inj e
  have hc := Instr.check_of_wf _ h
  have ho := (w.at_ 0x74#8).op_
  have hr := w.roundTrip _ _ _ _ _ _ 0x74#8 hc
  refine decode_of_split _ _ ?_ hc
  generalize w.toWord 0x74#8 = x at ho hr
  unfold splitWord
  rw [ho, ← hr]
  rfl
theorem Laws.RoundTrip.ldc (w : MForm) : RoundTrip.Statement (.ldc w) := fun h _ e => by
  obtain rfl := Option.some.inj e
  have hc := Instr.check_of_wf _ h
  have ho := (w.at_ 0x75#8).op_
  have hr := w.roundTrip _ _ _ _ _ _ 0x75#8 hc
  refine decode_of_split _ _ ?_ hc
  generalize w.toWord 0x75#8 = x at ho hr
  unfold splitWord
  rw [ho, ← hr]
  rfl
theorem Laws.RoundTrip.stf (w : MForm) : RoundTrip.Statement (.stf w) := fun h _ e => by
  obtain rfl := Option.some.inj e
  have hc := Instr.check_of_wf _ h
  have ho := (w.at_ 0x76#8).op_
  have hr := w.roundTrip _ _ _ _ _ _ 0x76#8 hc
  refine decode_of_split _ _ ?_ hc
  generalize w.toWord 0x76#8 = x at ho hr
  unfold splitWord
  rw [ho, ← hr]
  rfl
theorem Laws.RoundTrip.stx (w : MForm) : RoundTrip.Statement (.stx w) := fun h _ e => by
  obtain rfl := Option.some.inj e
  have hc := Instr.check_of_wf _ h
  have ho := (w.at_ 0x77#8).op_
  have hr := w.roundTrip _ _ _ _ _ _ 0x77#8 hc
  refine decode_of_split _ _ ?_ hc
  generalize w.toWord 0x77#8 = x at ho hr
  unfold splitWord
  rw [ho, ← hr]
  rfl
theorem Laws.RoundTrip.tage (w : MForm) : RoundTrip.Statement (.tage w) := fun h _ e => by
  obtain rfl := Option.some.inj e
  have hc := Instr.check_of_wf _ h
  have ho := (w.at_ 0x78#8).op_
  have hr := w.roundTrip _ _ _ _ _ _ 0x78#8 hc
  refine decode_of_split _ _ ?_ hc
  generalize w.toWord 0x78#8 = x at ho hr
  unfold splitWord
  rw [ho, ← hr]
  rfl
theorem Laws.RoundTrip.tagq (w : MForm) : RoundTrip.Statement (.tagq w) := fun h _ e => by
  obtain rfl := Option.some.inj e
  have hc := Instr.check_of_wf _ h
  have ho := (w.at_ 0x79#8).op_
  have hr := w.roundTrip _ _ _ _ _ _ 0x79#8 hc
  refine decode_of_split _ _ ?_ hc
  generalize w.toWord 0x79#8 = x at ho hr
  unfold splitWord
  rw [ho, ← hr]
  rfl
theorem Laws.RoundTrip.send (w : RForm) : RoundTrip.Statement (.send w) := fun h _ e => by
  obtain rfl := Option.some.inj e
  have hc := Instr.check_of_wf _ h
  have ho := (w.at_ 0x80#8).op_
  have hr := w.roundTrip _ 0x80#8 hc
  refine decode_of_split _ _ ?_ hc
  generalize w.toWord 0x80#8 = x at ho hr
  unfold splitWord
  rw [ho, ← hr]
  rfl
theorem Laws.RoundTrip.sendn (w : RForm) : RoundTrip.Statement (.sendn w) := fun h _ e => by
  obtain rfl := Option.some.inj e
  have hc := Instr.check_of_wf _ h
  have ho := (w.at_ 0x81#8).op_
  have hr := w.roundTrip _ 0x81#8 hc
  refine decode_of_split _ _ ?_ hc
  generalize w.toWord 0x81#8 = x at ho hr
  unfold splitWord
  rw [ho, ← hr]
  rfl
theorem Laws.RoundTrip.sende (w : RForm) : RoundTrip.Statement (.sende w) := fun h _ e => by
  obtain rfl := Option.some.inj e
  have hc := Instr.check_of_wf _ h
  have ho := (w.at_ 0x82#8).op_
  have hr := w.roundTrip _ 0x82#8 hc
  refine decode_of_split _ _ ?_ hc
  generalize w.toWord 0x82#8 = x at ho hr
  unfold splitWord
  rw [ho, ← hr]
  rfl
theorem Laws.RoundTrip.sendh (w : RForm) : RoundTrip.Statement (.sendh w) := fun h _ e => by
  obtain rfl := Option.some.inj e
  have hc := Instr.check_of_wf _ h
  have ho := (w.at_ 0x83#8).op_
  have hr := w.roundTrip _ 0x83#8 hc
  refine decode_of_split _ _ ?_ hc
  generalize w.toWord 0x83#8 = x at ho hr
  unfold splitWord
  rw [ho, ← hr]
  rfl
theorem Laws.RoundTrip.sendt (w : RForm) : RoundTrip.Statement (.sendt w) := fun h _ e => by
  obtain rfl := Option.some.inj e
  have hc := Instr.check_of_wf _ h
  have ho := (w.at_ 0x84#8).op_
  have hr := w.roundTrip _ 0x84#8 hc
  refine decode_of_split _ _ ?_ hc
  generalize w.toWord 0x84#8 = x at ho hr
  unfold splitWord
  rw [ho, ← hr]
  rfl
theorem Laws.RoundTrip.recv (w : RForm) : RoundTrip.Statement (.recv w) := fun h _ e => by
  obtain rfl := Option.some.inj e
  have hc := Instr.check_of_wf _ h
  have ho := (w.at_ 0x85#8).op_
  have hr := w.roundTrip _ 0x85#8 hc
  refine decode_of_split _ _ ?_ hc
  generalize w.toWord 0x85#8 = x at ho hr
  unfold splitWord
  rw [ho, ← hr]
  rfl
theorem Laws.RoundTrip.peek (w : RForm) : RoundTrip.Statement (.peek w) := fun h _ e => by
  obtain rfl := Option.some.inj e
  have hc := Instr.check_of_wf _ h
  have ho := (w.at_ 0x86#8).op_
  have hr := w.roundTrip _ 0x86#8 hc
  refine decode_of_split _ _ ?_ hc
  generalize w.toWord 0x86#8 = x at ho hr
  unfold splitWord
  rw [ho, ← hr]
  rfl
theorem Laws.RoundTrip.tagr (w : RForm) : RoundTrip.Statement (.tagr w) := fun h _ e => by
  obtain rfl := Option.some.inj e
  have hc := Instr.check_of_wf _ h
  have ho := (w.at_ 0x87#8).op_
  have hr := w.roundTrip _ 0x87#8 hc
  refine decode_of_split _ _ ?_ hc
  generalize w.toWord 0x87#8 = x at ho hr
  unfold splitWord
  rw [ho, ← hr]
  rfl
theorem Laws.RoundTrip.drop (w : RForm) : RoundTrip.Statement (.drop w) := fun h _ e => by
  obtain rfl := Option.some.inj e
  have hc := Instr.check_of_wf _ h
  have ho := (w.at_ 0x88#8).op_
  have hr := w.roundTrip _ 0x88#8 hc
  refine decode_of_split _ _ ?_ hc
  generalize w.toWord 0x88#8 = x at ho hr
  unfold splitWord
  rw [ho, ← hr]
  rfl
theorem Laws.RoundTrip.fwd (w : RForm) : RoundTrip.Statement (.fwd w) := fun h _ e => by
  obtain rfl := Option.some.inj e
  have hc := Instr.check_of_wf _ h
  have ho := (w.at_ 0x89#8).op_
  have hr := w.roundTrip _ 0x89#8 hc
  refine decode_of_split _ _ ?_ hc
  generalize w.toWord 0x89#8 = x at ho hr
  unfold splitWord
  rw [ho, ← hr]
  rfl
theorem Laws.RoundTrip.br (w : BForm) : RoundTrip.Statement (.br w) := fun h _ e => by
  obtain rfl := Option.some.inj e
  have hc := Instr.check_of_wf _ h
  have ho := (w.at_ 0x90#8).op_
  have hr := w.roundTrip _ _ _ _ 0x90#8 hc
  refine decode_of_split _ _ ?_ hc
  generalize w.toWord 0x90#8 = x at ho hr
  unfold splitWord
  rw [ho, ← hr]
  rfl
theorem Laws.RoundTrip.brc (w : BForm) : RoundTrip.Statement (.brc w) := fun h _ e => by
  obtain rfl := Option.some.inj e
  have hc := Instr.check_of_wf _ h
  have ho := (w.at_ 0x91#8).op_
  have hr : BForm.ofWord (w.toWord 0x91#8) = w := by
    simp only [Instr.check] at hc
    split at hc
    · exact w.roundTrip _ _ _ _ _ hc
    · simp at hc
  refine decode_of_split _ _ ?_ hc
  generalize w.toWord 0x91#8 = x at ho hr
  unfold splitWord
  rw [ho, ← hr]
  rfl
theorem Laws.RoundTrip.call (w : BForm) : RoundTrip.Statement (.call w) := fun h _ e => by
  obtain rfl := Option.some.inj e
  have hc := Instr.check_of_wf _ h
  have ho := (w.at_ 0x92#8).op_
  have hr := w.roundTrip _ _ _ _ 0x92#8 hc
  refine decode_of_split _ _ ?_ hc
  generalize w.toWord 0x92#8 = x at ho hr
  unfold splitWord
  rw [ho, ← hr]
  rfl
theorem Laws.RoundTrip.ret (w : RForm) : RoundTrip.Statement (.ret w) := fun h _ e => by
  obtain rfl := Option.some.inj e
  have hc := Instr.check_of_wf _ h
  have ho := (w.at_ 0x93#8).op_
  have hr := w.roundTrip _ 0x93#8 hc
  refine decode_of_split _ _ ?_ hc
  generalize w.toWord 0x93#8 = x at ho hr
  unfold splitWord
  rw [ho, ← hr]
  rfl
theorem Laws.RoundTrip.loop (w : BForm) : RoundTrip.Statement (.loop w) := fun h _ e => by
  obtain rfl := Option.some.inj e
  have hc := Instr.check_of_wf _ h
  have ho := (w.at_ 0x94#8).op_
  have hr := w.roundTrip _ _ _ _ 0x94#8 hc
  refine decode_of_split _ _ ?_ hc
  generalize w.toWord 0x94#8 = x at ho hr
  unfold splitWord
  rw [ho, ← hr]
  rfl
theorem Laws.RoundTrip.endAct (w : RForm) : RoundTrip.Statement (.endAct w) := fun h _ e => by
  obtain rfl := Option.some.inj e
  have hc := Instr.check_of_wf _ h
  have ho := (w.at_ 0x95#8).op_
  have hr := w.roundTrip _ 0x95#8 hc
  refine decode_of_split _ _ ?_ hc
  generalize w.toWord 0x95#8 = x at ho hr
  unfold splitWord
  rw [ho, ← hr]
  rfl
theorem Laws.RoundTrip.yield (w : RForm) : RoundTrip.Statement (.yield w) := fun h _ e => by
  obtain rfl := Option.some.inj e
  have hc := Instr.check_of_wf _ h
  have ho := (w.at_ 0x96#8).op_
  have hr := w.roundTrip _ 0x96#8 hc
  refine decode_of_split _ _ ?_ hc
  generalize w.toWord 0x96#8 = x at ho hr
  unfold splitWord
  rw [ho, ← hr]
  rfl
theorem Laws.RoundTrip.abort (w : RForm) : RoundTrip.Statement (.abort w) := fun h _ e => by
  obtain rfl := Option.some.inj e
  have hc := Instr.check_of_wf _ h
  have ho := (w.at_ 0x97#8).op_
  have hr := w.roundTrip _ 0x97#8 hc
  refine decode_of_split _ _ ?_ hc
  generalize w.toWord 0x97#8 = x at ho hr
  unfold splitWord
  rw [ho, ← hr]
  rfl
theorem Laws.RoundTrip.halt (w : RForm) : RoundTrip.Statement (.halt w) := fun h _ e => by
  obtain rfl := Option.some.inj e
  have hc := Instr.check_of_wf _ h
  have ho := (w.at_ 0x98#8).op_
  have hr := w.roundTrip _ 0x98#8 hc
  refine decode_of_split _ _ ?_ hc
  generalize w.toWord 0x98#8 = x at ho hr
  unfold splitWord
  rw [ho, ← hr]
  rfl
theorem Laws.RoundTrip.trap (w : IForm) : RoundTrip.Statement (.trap w) := fun h _ e => by
  obtain rfl := Option.some.inj e
  have hc := Instr.check_of_wf _ h
  have ho := (w.at_ 0x99#8).op_
  have hr := w.roundTrip _ _ _ 0x99#8 hc
  refine decode_of_split _ _ ?_ hc
  generalize w.toWord 0x99#8 = x at ho hr
  unfold splitWord
  rw [ho, ← hr]
  rfl
theorem Laws.RoundTrip.arm (w : RForm) : RoundTrip.Statement (.arm w) := fun h _ e => by
  obtain rfl := Option.some.inj e
  have hc := Instr.check_of_wf _ h
  have ho := (w.at_ 0x9A#8).op_
  have hr := w.roundTrip _ 0x9A#8 hc
  refine decode_of_split _ _ ?_ hc
  generalize w.toWord 0x9A#8 = x at ho hr
  unfold splitWord
  rw [ho, ← hr]
  rfl
theorem Laws.RoundTrip.mask (w : RForm) : RoundTrip.Statement (.mask w) := fun h _ e => by
  obtain rfl := Option.some.inj e
  have hc := Instr.check_of_wf _ h
  have ho := (w.at_ 0x9B#8).op_
  have hr := w.roundTrip _ 0x9B#8 hc
  refine decode_of_split _ _ ?_ hc
  generalize w.toWord 0x9B#8 = x at ho hr
  unfold splitWord
  rw [ho, ← hr]
  rfl
theorem Laws.RoundTrip.mfs (w : RForm) : RoundTrip.Statement (.mfs w) := fun h _ e => by
  obtain rfl := Option.some.inj e
  have hc := Instr.check_of_wf _ h
  have ho := (w.at_ 0x9C#8).op_
  have hr := w.roundTrip _ 0x9C#8 hc
  refine decode_of_split _ _ ?_ hc
  generalize w.toWord 0x9C#8 = x at ho hr
  unfold splitWord
  rw [ho, ← hr]
  rfl
theorem Laws.RoundTrip.mts (w : RForm) : RoundTrip.Statement (.mts w) := fun h _ e => by
  obtain rfl := Option.some.inj e
  have hc := Instr.check_of_wf _ h
  have ho := (w.at_ 0x9D#8).op_
  have hr := w.roundTrip _ 0x9D#8 hc
  refine decode_of_split _ _ ?_ hc
  generalize w.toWord 0x9D#8 = x at ho hr
  unfold splitWord
  rw [ho, ← hr]
  rfl
theorem Laws.RoundTrip.fence (w : MForm) : RoundTrip.Statement (.fence w) := fun h _ e => by
  obtain rfl := Option.some.inj e
  have hc := Instr.check_of_wf _ h
  have ho := (w.at_ 0x9E#8).op_
  have hr := w.roundTrip _ _ _ _ _ _ 0x9E#8 hc
  refine decode_of_split _ _ ?_ hc
  generalize w.toWord 0x9E#8 = x at ho hr
  unfold splitWord
  rw [ho, ← hr]
  rfl
theorem Laws.RoundTrip.order (w : MForm) : RoundTrip.Statement (.order w) := fun h _ e => by
  obtain rfl := Option.some.inj e
  have hc := Instr.check_of_wf _ h
  have ho := (w.at_ 0x9F#8).op_
  have hr := w.roundTrip _ _ _ _ _ _ 0x9F#8 hc
  refine decode_of_split _ _ ?_ hc
  generalize w.toWord 0x9F#8 = x at ho hr
  unfold splitWord
  rw [ho, ← hr]
  rfl
theorem Laws.RoundTrip.mld (w : MForm) : RoundTrip.Statement (.mld w) := fun h _ e => by
  obtain rfl := Option.some.inj e
  have hc := Instr.check_of_wf _ h
  have ho := (w.at_ 0xA0#8).op_
  have hr := w.roundTrip _ _ _ _ _ _ 0xA0#8 hc
  refine decode_of_split _ _ ?_ hc
  generalize w.toWord 0xA0#8 = x at ho hr
  unfold splitWord
  rw [ho, ← hr]
  rfl
theorem Laws.RoundTrip.mst (w : MForm) : RoundTrip.Statement (.mst w) := fun h _ e => by
  obtain rfl := Option.some.inj e
  have hc := Instr.check_of_wf _ h
  have ho := (w.at_ 0xA1#8).op_
  have hr := w.roundTrip _ _ _ _ _ _ 0xA1#8 hc
  refine decode_of_split _ _ ?_ hc
  generalize w.toWord 0xA1#8 = x at ho hr
  unfold splitWord
  rw [ho, ← hr]
  rfl
theorem Laws.RoundTrip.mldw (w : MForm) : RoundTrip.Statement (.mldw w) := fun h _ e => by
  obtain rfl := Option.some.inj e
  have hc := Instr.check_of_wf _ h
  have ho := (w.at_ 0xA2#8).op_
  have hr := w.roundTrip _ _ _ _ _ _ 0xA2#8 hc
  refine decode_of_split _ _ ?_ hc
  generalize w.toWord 0xA2#8 = x at ho hr
  unfold splitWord
  rw [ho, ← hr]
  rfl
theorem Laws.RoundTrip.mldc (w : MForm) : RoundTrip.Statement (.mldc w) := fun h _ e => by
  obtain rfl := Option.some.inj e
  have hc := Instr.check_of_wf _ h
  have ho := (w.at_ 0xA3#8).op_
  have hr := w.roundTrip _ _ _ _ _ _ 0xA3#8 hc
  refine decode_of_split _ _ ?_ hc
  generalize w.toWord 0xA3#8 = x at ho hr
  unfold splitWord
  rw [ho, ← hr]
  rfl
theorem Laws.RoundTrip.mstf (w : MForm) : RoundTrip.Statement (.mstf w) := fun h _ e => by
  obtain rfl := Option.some.inj e
  have hc := Instr.check_of_wf _ h
  have ho := (w.at_ 0xA4#8).op_
  have hr := w.roundTrip _ _ _ _ _ _ 0xA4#8 hc
  refine decode_of_split _ _ ?_ hc
  generalize w.toWord 0xA4#8 = x at ho hr
  unfold splitWord
  rw [ho, ← hr]
  rfl
theorem Laws.RoundTrip.mstx (w : MForm) : RoundTrip.Statement (.mstx w) := fun h _ e => by
  obtain rfl := Option.some.inj e
  have hc := Instr.check_of_wf _ h
  have ho := (w.at_ 0xA5#8).op_
  have hr := w.roundTrip _ _ _ _ _ _ 0xA5#8 hc
  refine decode_of_split _ _ ?_ hc
  generalize w.toWord 0xA5#8 = x at ho hr
  unfold splitWord
  rw [ho, ← hr]
  rfl
theorem Laws.RoundTrip.mtage (w : MForm) : RoundTrip.Statement (.mtage w) := fun h _ e => by
  obtain rfl := Option.some.inj e
  have hc := Instr.check_of_wf _ h
  have ho := (w.at_ 0xA6#8).op_
  have hr := w.roundTrip _ _ _ _ _ _ 0xA6#8 hc
  refine decode_of_split _ _ ?_ hc
  generalize w.toWord 0xA6#8 = x at ho hr
  unfold splitWord
  rw [ho, ← hr]
  rfl
theorem Laws.RoundTrip.mtagq (w : MForm) : RoundTrip.Statement (.mtagq w) := fun h _ e => by
  obtain rfl := Option.some.inj e
  have hc := Instr.check_of_wf _ h
  have ho := (w.at_ 0xA7#8).op_
  have hr := w.roundTrip _ _ _ _ _ _ 0xA7#8 hc
  refine decode_of_split _ _ ?_ hc
  generalize w.toWord 0xA7#8 = x at ho hr
  unfold splitWord
  rw [ho, ← hr]
  rfl
theorem Laws.RoundTrip.matom (w : RForm) : RoundTrip.Statement (.matom w) := fun h _ e => by
  obtain rfl := Option.some.inj e
  have hc := Instr.check_of_wf _ h
  have ho := (w.at_ 0xA8#8).op_
  have hr := w.roundTrip _ 0xA8#8 hc
  refine decode_of_split _ _ ?_ hc
  generalize w.toWord 0xA8#8 = x at ho hr
  unfold splitWord
  rw [ho, ← hr]
  rfl
theorem Laws.RoundTrip.mcas (w : RForm) : RoundTrip.Statement (.mcas w) := fun h _ e => by
  obtain rfl := Option.some.inj e
  have hc := Instr.check_of_wf _ h
  have ho := (w.at_ 0xA9#8).op_
  have hr := w.roundTrip _ 0xA9#8 hc
  refine decode_of_split _ _ ?_ hc
  generalize w.toWord 0xA9#8 = x at ho hr
  unfold splitWord
  rw [ho, ← hr]
  rfl
theorem Laws.RoundTrip.tld (w : MForm) : RoundTrip.Statement (.tld w) := fun h _ e => by
  obtain rfl := Option.some.inj e
  have hc := Instr.check_of_wf _ h
  have ho := (w.at_ 0xAA#8).op_
  have hr := w.roundTrip _ _ _ _ _ _ 0xAA#8 hc
  refine decode_of_split _ _ ?_ hc
  generalize w.toWord 0xAA#8 = x at ho hr
  unfold splitWord
  rw [ho, ← hr]
  rfl
theorem Laws.RoundTrip.tst (w : MForm) : RoundTrip.Statement (.tst w) := fun h _ e => by
  obtain rfl := Option.some.inj e
  have hc := Instr.check_of_wf _ h
  have ho := (w.at_ 0xAB#8).op_
  have hr := w.roundTrip _ _ _ _ _ _ 0xAB#8 hc
  refine decode_of_split _ _ ?_ hc
  generalize w.toWord 0xAB#8 = x at ho hr
  unfold splitWord
  rw [ho, ← hr]
  rfl
theorem Laws.RoundTrip.scopy (w : EForm) : RoundTrip.Statement (.scopy w) := fun h _ e => by
  obtain rfl := Option.some.inj e
  have hc := Instr.check_of_wf _ h
  have ho := (w.at_ 0xB0#8).op_
  have hr := w.roundTrip _ _ _ 0xB0#8 hc
  refine decode_of_split _ _ ?_ hc
  generalize w.toWord 0xB0#8 = x at ho hr
  unfold splitWord
  rw [ho, ← hr]
  rfl
theorem Laws.RoundTrip.sgath (w : EForm) : RoundTrip.Statement (.sgath w) := fun h _ e => by
  obtain rfl := Option.some.inj e
  have hc := Instr.check_of_wf _ h
  have ho := (w.at_ 0xB1#8).op_
  have hr := w.roundTrip _ _ _ 0xB1#8 hc
  refine decode_of_split _ _ ?_ hc
  generalize w.toWord 0xB1#8 = x at ho hr
  unfold splitWord
  rw [ho, ← hr]
  rfl
theorem Laws.RoundTrip.sscat (w : EForm) : RoundTrip.Statement (.sscat w) := fun h _ e => by
  obtain rfl := Option.some.inj e
  have hc := Instr.check_of_wf _ h
  have ho := (w.at_ 0xB2#8).op_
  have hr := w.roundTrip _ _ _ 0xB2#8 hc
  refine decode_of_split _ _ ?_ hc
  generalize w.toWord 0xB2#8 = x at ho hr
  unfold splitWord
  rw [ho, ← hr]
  rfl
theorem Laws.RoundTrip.sred (w : EForm) : RoundTrip.Statement (.sred w) := fun h _ e => by
  obtain rfl := Option.some.inj e
  have hc := Instr.check_of_wf _ h
  have ho := (w.at_ 0xB3#8).op_
  have hr := w.roundTrip _ _ _ 0xB3#8 hc
  refine decode_of_split _ _ ?_ hc
  generalize w.toWord 0xB3#8 = x at ho hr
  unfold splitWord
  rw [ho, ← hr]
  rfl
theorem Laws.RoundTrip.scomp (w : EForm) : RoundTrip.Statement (.scomp w) := fun h _ e => by
  obtain rfl := Option.some.inj e
  have hc := Instr.check_of_wf _ h
  have ho := (w.at_ 0xB4#8).op_
  have hr := w.roundTrip _ _ _ 0xB4#8 hc
  refine decode_of_split _ _ ?_ hc
  generalize w.toWord 0xB4#8 = x at ho hr
  unfold splitWord
  rw [ho, ← hr]
  rfl
theorem Laws.RoundTrip.sexp (w : EForm) : RoundTrip.Statement (.sexp w) := fun h _ e => by
  obtain rfl := Option.some.inj e
  have hc := Instr.check_of_wf _ h
  have ho := (w.at_ 0xB5#8).op_
  have hr := w.roundTrip _ _ _ 0xB5#8 hc
  refine decode_of_split _ _ ?_ hc
  generalize w.toWord 0xB5#8 = x at ho hr
  unfold splitWord
  rw [ho, ← hr]
  rfl
theorem Laws.RoundTrip.agstart (w : EForm) : RoundTrip.Statement (.agstart w) := fun h _ e => by
  obtain rfl := Option.some.inj e
  have hc := Instr.check_of_wf _ h
  have ho := (w.at_ 0xB6#8).op_
  have hr := w.roundTrip _ _ _ 0xB6#8 hc
  refine decode_of_split _ _ ?_ hc
  generalize w.toWord 0xB6#8 = x at ho hr
  unfold splitWord
  rw [ho, ← hr]
  rfl
theorem Laws.RoundTrip.agstop (w : EForm) : RoundTrip.Statement (.agstop w) := fun h _ e => by
  obtain rfl := Option.some.inj e
  have hc := Instr.check_of_wf _ h
  have ho := (w.at_ 0xB7#8).op_
  have hr := w.roundTrip _ _ _ 0xB7#8 hc
  refine decode_of_split _ _ ?_ hc
  generalize w.toWord 0xB7#8 = x at ho hr
  unfold splitWord
  rw [ho, ← hr]
  rfl
theorem Laws.RoundTrip.agqry (w : EForm) : RoundTrip.Statement (.agqry w) := fun h _ e => by
  obtain rfl := Option.some.inj e
  have hc := Instr.check_of_wf _ h
  have ho := (w.at_ 0xB8#8).op_
  have hr := w.roundTrip _ _ _ 0xB8#8 hc
  refine decode_of_split _ _ ?_ hc
  generalize w.toWord 0xB8#8 = x at ho hr
  unfold splitWord
  rw [ho, ← hr]
  rfl
theorem Laws.RoundTrip.darm (w : EForm) : RoundTrip.Statement (.darm w) := fun h _ e => by
  obtain rfl := Option.some.inj e
  have hc := Instr.check_of_wf _ h
  have ho := (w.at_ 0xB9#8).op_
  have hr := w.roundTrip _ _ _ 0xB9#8 hc
  refine decode_of_split _ _ ?_ hc
  generalize w.toWord 0xB9#8 = x at ho hr
  unfold splitWord
  rw [ho, ← hr]
  rfl
theorem Laws.RoundTrip.dpost (w : EForm) : RoundTrip.Statement (.dpost w) := fun h _ e => by
  obtain rfl := Option.some.inj e
  have hc := Instr.check_of_wf _ h
  have ho := (w.at_ 0xBA#8).op_
  have hr := w.roundTrip _ _ _ 0xBA#8 hc
  refine decode_of_split _ _ ?_ hc
  generalize w.toWord 0xBA#8 = x at ho hr
  unfold splitWord
  rw [ho, ← hr]
  rfl
theorem Laws.RoundTrip.wcvt (w : EForm) : RoundTrip.Statement (.wcvt w) := fun h _ e => by
  obtain rfl := Option.some.inj e
  have hc := Instr.check_of_wf _ h
  have ho := (w.at_ 0xBB#8).op_
  have hr := w.roundTrip _ _ _ 0xBB#8 hc
  refine decode_of_split _ _ ?_ hc
  generalize w.toWord 0xBB#8 = x at ho hr
  unfold splitWord
  rw [ho, ← hr]
  rfl
theorem Laws.RoundTrip.mma (w : EForm) : RoundTrip.Statement (.mma w) := fun h _ e => by
  obtain rfl := Option.some.inj e
  have hc := Instr.check_of_wf _ h
  have ho := (w.at_ 0xC0#8).op_
  have hr := w.roundTrip _ _ _ 0xC0#8 hc
  refine decode_of_split _ _ ?_ hc
  generalize w.toWord 0xC0#8 = x at ho hr
  unfold splitWord
  rw [ho, ← hr]
  rfl
theorem Laws.RoundTrip.mldb (w : EForm) : RoundTrip.Statement (.mldb w) := fun h _ e => by
  obtain rfl := Option.some.inj e
  have hc := Instr.check_of_wf _ h
  have ho := (w.at_ 0xC1#8).op_
  have hr := w.roundTrip _ _ _ 0xC1#8 hc
  refine decode_of_split _ _ ?_ hc
  generalize w.toWord 0xC1#8 = x at ho hr
  unfold splitWord
  rw [ho, ← hr]
  rfl
theorem Laws.RoundTrip.mscale (w : EForm) : RoundTrip.Statement (.mscale w) := fun h _ e => by
  obtain rfl := Option.some.inj e
  have hc := Instr.check_of_wf _ h
  have ho := (w.at_ 0xC2#8).op_
  have hr := w.roundTrip _ _ _ 0xC2#8 hc
  refine decode_of_split _ _ ?_ hc
  generalize w.toWord 0xC2#8 = x at ho hr
  unfold splitWord
  rw [ho, ← hr]
  rfl
theorem Laws.RoundTrip.maclr (w : EForm) : RoundTrip.Statement (.maclr w) := fun h _ e => by
  obtain rfl := Option.some.inj e
  have hc := Instr.check_of_wf _ h
  have ho := (w.at_ 0xC3#8).op_
  have hr := w.roundTrip _ _ _ 0xC3#8 hc
  refine decode_of_split _ _ ?_ hc
  generalize w.toWord 0xC3#8 = x at ho hr
  unfold splitWord
  rw [ho, ← hr]
  rfl
theorem Laws.RoundTrip.msto (w : EForm) : RoundTrip.Statement (.msto w) := fun h _ e => by
  obtain rfl := Option.some.inj e
  have hc := Instr.check_of_wf _ h
  have ho := (w.at_ 0xC4#8).op_
  have hr := w.roundTrip _ _ _ 0xC4#8 hc
  refine decode_of_split _ _ ?_ hc
  generalize w.toWord 0xC4#8 = x at ho hr
  unfold splitWord
  rw [ho, ← hr]
  rfl
theorem Laws.RoundTrip.mrda (w : EForm) : RoundTrip.Statement (.mrda w) := fun h _ e => by
  obtain rfl := Option.some.inj e
  have hc := Instr.check_of_wf _ h
  have ho := (w.at_ 0xC5#8).op_
  have hr := w.roundTrip _ _ _ 0xC5#8 hc
  refine decode_of_split _ _ ?_ hc
  generalize w.toWord 0xC5#8 = x at ho hr
  unfold splitWord
  rw [ho, ← hr]
  rfl
theorem Laws.RoundTrip.mswap (w : EForm) : RoundTrip.Statement (.mswap w) := fun h _ e => by
  obtain rfl := Option.some.inj e
  have hc := Instr.check_of_wf _ h
  have ho := (w.at_ 0xC6#8).op_
  have hr := w.roundTrip _ _ _ 0xC6#8 hc
  refine decode_of_split _ _ ?_ hc
  generalize w.toWord 0xC6#8 = x at ho hr
  unfold splitWord
  rw [ho, ← hr]
  rfl
theorem Laws.RoundTrip.mqry (w : EForm) : RoundTrip.Statement (.mqry w) := fun h _ e => by
  obtain rfl := Option.some.inj e
  have hc := Instr.check_of_wf _ h
  have ho := (w.at_ 0xC7#8).op_
  have hr := w.roundTrip _ _ _ 0xC7#8 hc
  refine decode_of_split _ _ ?_ hc
  generalize w.toWord 0xC7#8 = x at ho hr
  unfold splitWord
  rw [ho, ← hr]
  rfl
theorem Laws.RoundTrip.mslot (w : EForm) : RoundTrip.Statement (.mslot w) := fun h _ e => by
  obtain rfl := Option.some.inj e
  have hc := Instr.check_of_wf _ h
  have ho := (w.at_ 0xC8#8).op_
  have hr := w.roundTrip _ _ _ 0xC8#8 hc
  refine decode_of_split _ _ ?_ hc
  generalize w.toWord 0xC8#8 = x at ho hr
  unfold splitWord
  rw [ho, ← hr]
  rfl
theorem Laws.RoundTrip.mfence (w : EForm) : RoundTrip.Statement (.mfence w) := fun h _ e => by
  obtain rfl := Option.some.inj e
  have hc := Instr.check_of_wf _ h
  have ho := (w.at_ 0xC9#8).op_
  have hr := w.roundTrip _ _ _ 0xC9#8 hc
  refine decode_of_split _ _ ?_ hc
  generalize w.toWord 0xC9#8 = x at ho hr
  unfold splitWord
  rw [ho, ← hr]
  rfl
theorem Laws.RoundTrip.illegalOpcode (w : Word) : RoundTrip.Statement (.illegalOpcode w) := fun h _ e => by
  obtain rfl := Option.some.inj e
  have hc := Instr.check_of_wf _ h
  refine decode_of_split _ _ (splitWord_illegal _ ?_) hc
  simpa [Instr.wf, Instr.opcodeOk, Instr.check, Instr.argsOk] using h
theorem Laws.RoundTrip.handlerDispatch (t : Tile) : RoundTrip.Statement (.handlerDispatch t) := fun _ _ e => by cases e
theorem Laws.RoundTrip.stallAbort (t : Tile) : RoundTrip.Statement (.stallAbort t) := fun _ _ e => by cases e
theorem Laws.RoundTrip.markRemoval (t : Tile) (port : Fin 16) (f : Facet) : RoundTrip.Statement (.markRemoval t port f) := fun _ _ e => by cases e
theorem Laws.RoundTrip.windowWriteApply (t : Tile) (f : Facet) (reg : WinReg) (v : Word) : RoundTrip.Statement (.windowWriteApply t f reg v) := fun _ _ e => by cases e
theorem Laws.RoundTrip.boundaryArrival (t : Tile) (entry : Fin 32) : RoundTrip.Statement (.boundaryArrival t entry) := fun _ _ e => by cases e
theorem Laws.RoundTrip.creditReturn (t : Tile) (entry : Fin 32) : RoundTrip.Statement (.creditReturn t entry) := fun _ _ e => by cases e
theorem Laws.RoundTrip.busDelivery (d : DieId) (bus : BusId) : RoundTrip.Statement (.busDelivery d bus) := fun _ _ e => by cases e
theorem Laws.RoundTrip.ingressAccept (r : RegionId) (p : Fin 64) : RoundTrip.Statement (.ingressAccept r p) := fun _ _ e => by cases e
theorem Laws.RoundTrip.fquietSet (r : RegionId) (f : Facet) : RoundTrip.Statement (.fquietSet r f) := fun _ _ e => by cases e
theorem Laws.RoundTrip.swapDue (r : RegionId) : RoundTrip.Statement (.swapDue r) := fun _ _ e => by cases e
theorem Laws.RoundTrip.slotBoundary (r : RegionId) : RoundTrip.Statement (.slotBoundary r) := fun _ _ e => by cases e
theorem Laws.RoundTrip.resizeComplete (r : RegionId) : RoundTrip.Statement (.resizeComplete r) := fun _ _ e => by cases e
theorem Laws.RoundTrip.entrySelect (r : RegionId) : RoundTrip.Statement (.entrySelect r) := fun _ _ e => by cases e
theorem Laws.RoundTrip.loadStart (r : RegionId) (d : DieId) : RoundTrip.Statement (.loadStart r d) := fun _ _ e => by cases e
theorem Laws.RoundTrip.loadFrame (r : RegionId) (d : DieId) : RoundTrip.Statement (.loadFrame r d) := fun _ _ e => by cases e
theorem Laws.RoundTrip.waveArrival (r : RegionId) (col : Nat) : RoundTrip.Statement (.waveArrival r col) := fun _ _ e => by cases e
theorem Laws.RoundTrip.loadPass (r : RegionId) : RoundTrip.Statement (.loadPass r) := fun _ _ e => by cases e
theorem Laws.RoundTrip.completionWordStore (r : RegionId) : RoundTrip.Statement (.completionWordStore r) := fun _ _ e => by cases e
theorem Laws.RoundTrip.freewApply (d : DieId) : RoundTrip.Statement (.freewApply d) := fun _ _ e => by cases e
theorem Laws.RoundTrip.requestLeave (t : Tile) (f : Facet) : RoundTrip.Statement (.requestLeave t f) := fun _ _ e => by cases e
theorem Laws.RoundTrip.breakwaterAccept (id : Nat) : RoundTrip.Statement (.breakwaterAccept id) := fun _ _ e => by cases e
theorem Laws.RoundTrip.lockstepTimeout (r : RegionId) : RoundTrip.Statement (.lockstepTimeout r) := fun _ _ e => by cases e
theorem Laws.RoundTrip.homeAccess (id : Nat) : RoundTrip.Statement (.homeAccess id) := fun _ _ e => by cases e
theorem Laws.RoundTrip.reexamination (id : Nat) : RoundTrip.Statement (.reexamination id) := fun _ _ e => by cases e
theorem Laws.RoundTrip.mooringFormatDone (r : RegionId) : RoundTrip.Statement (.mooringFormatDone r) := fun _ _ e => by cases e
theorem Laws.RoundTrip.budgetExpiry (id : Nat) : RoundTrip.Statement (.budgetExpiry id) := fun _ _ e => by cases e
theorem Laws.RoundTrip.requestReply (id : Nat) : RoundTrip.Statement (.requestReply id) := fun _ _ e => by cases e
theorem Laws.RoundTrip.watchWake (id : Nat) : RoundTrip.Statement (.watchWake id) := fun _ _ e => by cases e
theorem Laws.RoundTrip.asyncTrap (id : Nat) : RoundTrip.Statement (.asyncTrap id) := fun _ _ e => by cases e
theorem Laws.RoundTrip.fifoPush (t : Tile) (f : Facet) : RoundTrip.Statement (.fifoPush t f) := fun _ _ e => by cases e
theorem Laws.RoundTrip.fifoPop (t : Tile) (f : Facet) : RoundTrip.Statement (.fifoPop t f) := fun _ _ e => by cases e
theorem Laws.RoundTrip.lineInput (t : Tile) (f : Facet) : RoundTrip.Statement (.lineInput t f) := fun _ _ e => by cases e
theorem Laws.RoundTrip.regulatorGrant (d : DieId) (cls : Fin 16) : RoundTrip.Statement (.regulatorGrant d cls) := fun _ _ e => by cases e
theorem Laws.RoundTrip.tableWalkComplete (id : Nat) : RoundTrip.Statement (.tableWalkComplete id) := fun _ _ e => by cases e
theorem Laws.RoundTrip.migrationTimeout (id : Nat) : RoundTrip.Statement (.migrationTimeout id) := fun _ _ e => by cases e
theorem Laws.RoundTrip.trcmdComplete (d : DieId) : RoundTrip.Statement (.trcmdComplete d) := fun _ _ e => by cases e
theorem Laws.RoundTrip.commandStart (t : Tile) (f : Facet) (k : Nat) : RoundTrip.Statement (.commandStart t f k) := fun _ _ e => by cases e
theorem Laws.RoundTrip.readWalkElement (t : Tile) (f : Facet) (k : Nat) : RoundTrip.Statement (.readWalkElement t f k) := fun _ _ e => by cases e
theorem Laws.RoundTrip.writeWalkElement (t : Tile) (f : Facet) (k : Nat) : RoundTrip.Statement (.writeWalkElement t f k) := fun _ _ e => by cases e
theorem Laws.RoundTrip.sparseSlotIssue (t : Tile) : RoundTrip.Statement (.sparseSlotIssue t) := fun _ _ e => by cases e
theorem Laws.RoundTrip.permitArrival (t : Tile) (f : Facet) (ag : Fin 4) : RoundTrip.Statement (.permitArrival t f ag) := fun _ _ e => by cases e
theorem Laws.RoundTrip.doneArrival (t : Tile) (f : Facet) (ag : Fin 4) : RoundTrip.Statement (.doneArrival t f ag) := fun _ _ e => by cases e
theorem Laws.RoundTrip.commandCompletion (t : Tile) : RoundTrip.Statement (.commandCompletion t) := fun _ _ e => by cases e
theorem Laws.RoundTrip.nodeLaunch (t : Tile) (node : Fin 32) : RoundTrip.Statement (.nodeLaunch t node) := fun _ _ e => by cases e
theorem Laws.RoundTrip.matrixCommandStart (t : Tile) (f : Facet) (k : Nat) : RoundTrip.Statement (.matrixCommandStart t f k) := fun _ _ e => by cases e
theorem Laws.RoundTrip.rowStage (t : Tile) (f : Facet) : RoundTrip.Statement (.rowStage t f) := fun _ _ e => by cases e
theorem Laws.RoundTrip.operandBurstTake (t : Tile) (f : Facet) (isB : Bool) : RoundTrip.Statement (.operandBurstTake t f isB) := fun _ _ e => by cases e
theorem Laws.RoundTrip.rowFire (t : Tile) : RoundTrip.Statement (.rowFire t) := fun _ _ e => by cases e
theorem Laws.RoundTrip.rowEffect (t : Tile) : RoundTrip.Statement (.rowEffect t) := fun _ _ e => by cases e
theorem Laws.RoundTrip.resultBurst (t : Tile) : RoundTrip.Statement (.resultBurst t) := fun _ _ e => by cases e
theorem Laws.RoundTrip.matrixCompletion (t : Tile) : RoundTrip.Statement (.matrixCompletion t) := fun _ _ e => by cases e
theorem Laws.RoundTrip.rollbackRestore (r : RegionId) : RoundTrip.Statement (.rollbackRestore r) := fun _ _ e => by cases e
theorem Laws.RoundTrip.replayStart (r : RegionId) : RoundTrip.Statement (.replayStart r) := fun _ _ e => by cases e
theorem Laws.RoundTrip.tideInject (r : RegionId) : RoundTrip.Statement (.tideInject r) := fun _ _ e => by cases e
theorem Laws.RoundTrip.tideTake (t : Tile) (f : Facet) : RoundTrip.Statement (.tideTake t f) := fun _ _ e => by cases e
theorem Laws.RoundTrip.drainTake (t : Tile) (f : Facet) : RoundTrip.Statement (.drainTake t f) := fun _ _ e => by cases e
theorem Laws.RoundTrip.reachClose (r : RegionId) : RoundTrip.Statement (.reachClose r) := fun _ _ e => by cases e
theorem Laws.RoundTrip.reachCommit (r : RegionId) : RoundTrip.Statement (.reachCommit r) := fun _ _ e => by cases e
theorem Laws.RoundTrip.timedCommit (r : RegionId) : RoundTrip.Statement (.timedCommit r) := fun _ _ e => by cases e
theorem Laws.RoundTrip.autoSaveStart (r : RegionId) : RoundTrip.Statement (.autoSaveStart r) := fun _ _ e => by cases e
theorem Laws.RoundTrip.saveStop (r : RegionId) : RoundTrip.Statement (.saveStop r) := fun _ _ e => by cases e
theorem Laws.RoundTrip.drainInject (r : RegionId) : RoundTrip.Statement (.drainInject r) := fun _ _ e => by cases e
theorem Laws.RoundTrip.saveImageWrite (r : RegionId) : RoundTrip.Statement (.saveImageWrite r) := fun _ _ e => by cases e
theorem Laws.RoundTrip.saveCommit (r : RegionId) : RoundTrip.Statement (.saveCommit r) := fun _ _ e => by cases e
theorem Laws.RoundTrip.freezeStop (r : RegionId) : RoundTrip.Statement (.freezeStop r) := fun _ _ e => by cases e
theorem Laws.RoundTrip.powerMessageReceipt (k : Nat) : RoundTrip.Statement (.powerMessageReceipt k) := fun _ _ e => by cases e
theorem Laws.RoundTrip.powerResend (k : Nat) : RoundTrip.Statement (.powerResend k) := fun _ _ e => by cases e
theorem Laws.RoundTrip.ttSend (io : Fin 2) (q : Fin 2048) : RoundTrip.Statement (.ttSend io q) := fun _ _ e => by cases e
theorem Laws.RoundTrip.ttRetransmit (io : Fin 2) (q : Fin 2048) : RoundTrip.Statement (.ttRetransmit io q) := fun _ _ e => by cases e
theorem Laws.RoundTrip.fronthaulEgress (io : Fin 2) (r : RegionId) (p : Fin 64) : RoundTrip.Statement (.fronthaulEgress io r p) := fun _ _ e => by cases e
theorem Laws.RoundTrip.txComplete (io : Fin 2) (q : Fin 2) : RoundTrip.Statement (.txComplete io q) := fun _ _ e => by cases e
theorem Laws.RoundTrip.triggerEval (r : RegionId) : RoundTrip.Statement (.triggerEval r) := fun _ _ e => by cases e
theorem Laws.RoundTrip.cutHeld (r : RegionId) : RoundTrip.Statement (.cutHeld r) := fun _ _ e => by cases e
theorem Laws.RoundTrip.mccanComplete (d : DieId) : RoundTrip.Statement (.mccanComplete d) := fun _ _ e => by cases e
theorem Laws.RoundTrip.pinQueryComplete (d : DieId) : RoundTrip.Statement (.pinQueryComplete d) := fun _ _ e => by cases e
theorem Laws.RoundTrip.debugAccessComplete (r : RegionId) : RoundTrip.Statement (.debugAccessComplete r) := fun _ _ e => by cases e
theorem Laws.RoundTrip.delayLineArrival (r : RegionId) (p : Fin 64) : RoundTrip.Statement (.delayLineArrival r p) := fun _ _ e => by cases e
theorem Laws.RoundTrip.malformedCommandToken (t : Tile) (f : Facet) : RoundTrip.Statement (.malformedCommandToken t f) := fun _ _ e => by cases e
theorem Laws.RoundTrip.nullCommandToken (t : Tile) (f : Facet) : RoundTrip.Statement (.nullCommandToken t f) := fun _ _ e => by cases e
theorem Laws.RoundTrip.scopyCommand (t : Tile) (f : Facet) : RoundTrip.Statement (.scopyCommand t f) := fun _ _ e => by cases e
theorem Laws.RoundTrip.sgathCommand (t : Tile) (f : Facet) : RoundTrip.Statement (.sgathCommand t f) := fun _ _ e => by cases e
theorem Laws.RoundTrip.sscatCommand (t : Tile) (f : Facet) : RoundTrip.Statement (.sscatCommand t f) := fun _ _ e => by cases e
theorem Laws.RoundTrip.sredCommand (t : Tile) (f : Facet) : RoundTrip.Statement (.sredCommand t f) := fun _ _ e => by cases e
theorem Laws.RoundTrip.scompCommand (t : Tile) (f : Facet) : RoundTrip.Statement (.scompCommand t f) := fun _ _ e => by cases e
theorem Laws.RoundTrip.sexpCommand (t : Tile) (f : Facet) : RoundTrip.Statement (.sexpCommand t f) := fun _ _ e => by cases e
theorem Laws.RoundTrip.agstartCommand (t : Tile) (f : Facet) : RoundTrip.Statement (.agstartCommand t f) := fun _ _ e => by cases e
theorem Laws.RoundTrip.agstopCommand (t : Tile) (f : Facet) : RoundTrip.Statement (.agstopCommand t f) := fun _ _ e => by cases e
theorem Laws.RoundTrip.agqryCommand (t : Tile) (f : Facet) : RoundTrip.Statement (.agqryCommand t f) := fun _ _ e => by cases e
theorem Laws.RoundTrip.darmCommand (t : Tile) (f : Facet) : RoundTrip.Statement (.darmCommand t f) := fun _ _ e => by cases e
theorem Laws.RoundTrip.dpostCommand (t : Tile) (f : Facet) : RoundTrip.Statement (.dpostCommand t f) := fun _ _ e => by cases e
theorem Laws.RoundTrip.wcvtCommand (t : Tile) (f : Facet) : RoundTrip.Statement (.wcvtCommand t f) := fun _ _ e => by cases e
theorem Laws.RoundTrip.malformedMatrixToken (t : Tile) (f : Facet) : RoundTrip.Statement (.malformedMatrixToken t f) := fun _ _ e => by cases e
theorem Laws.RoundTrip.nullMatrixToken (t : Tile) (f : Facet) : RoundTrip.Statement (.nullMatrixToken t f) := fun _ _ e => by cases e
theorem Laws.RoundTrip.mmaCommand (t : Tile) (f : Facet) : RoundTrip.Statement (.mmaCommand t f) := fun _ _ e => by cases e
theorem Laws.RoundTrip.mldbCommand (t : Tile) (f : Facet) : RoundTrip.Statement (.mldbCommand t f) := fun _ _ e => by cases e
theorem Laws.RoundTrip.mscaleCommand (t : Tile) (f : Facet) : RoundTrip.Statement (.mscaleCommand t f) := fun _ _ e => by cases e
theorem Laws.RoundTrip.maclrCommand (t : Tile) (f : Facet) : RoundTrip.Statement (.maclrCommand t f) := fun _ _ e => by cases e
theorem Laws.RoundTrip.mstoCommand (t : Tile) (f : Facet) : RoundTrip.Statement (.mstoCommand t f) := fun _ _ e => by cases e
theorem Laws.RoundTrip.mrdaCommand (t : Tile) (f : Facet) : RoundTrip.Statement (.mrdaCommand t f) := fun _ _ e => by cases e
theorem Laws.RoundTrip.mswapCommand (t : Tile) (f : Facet) : RoundTrip.Statement (.mswapCommand t f) := fun _ _ e => by cases e
theorem Laws.RoundTrip.mqryCommand (t : Tile) (f : Facet) : RoundTrip.Statement (.mqryCommand t f) := fun _ _ e => by cases e
theorem Laws.RoundTrip.mslotCommand (t : Tile) (f : Facet) : RoundTrip.Statement (.mslotCommand t f) := fun _ _ e => by cases e
theorem Laws.RoundTrip.mfenceCommand (t : Tile) (f : Facet) : RoundTrip.Statement (.mfenceCommand t f) := fun _ _ e => by cases e
theorem Laws.RoundTrip.trappedClear (t : Tile) (f : Facet) : RoundTrip.Statement (.trappedClear t f) := fun _ _ e => by cases e
theorem Laws.RoundTrip.haltedClear (t : Tile) (f : Facet) : RoundTrip.Statement (.haltedClear t f) := fun _ _ e => by cases e
theorem Laws.RoundTrip.fenableClear (t : Tile) (f : Facet) : RoundTrip.Statement (.fenableClear t f) := fun _ _ e => by cases e
theorem Laws.RoundTrip.routeAdvance : RoundTrip.Statement (.routeAdvance) := fun _ _ e => by cases e
theorem Laws.RoundTrip.rggeomWrite (r : RegionId) (v : Word) : RoundTrip.Statement (.rggeomWrite r v) := fun _ _ e => by cases e
theorem Laws.RoundTrip.rgnewWrite (r : RegionId) (v : Word) : RoundTrip.Statement (.rgnewWrite r v) := fun _ _ e => by cases e
theorem Laws.RoundTrip.portRegisterWrite (r : RegionId) (dir : PortDir) (p : Fin 64) (v : Word) : RoundTrip.Statement (.portRegisterWrite r dir p v) := fun _ _ e => by cases e
theorem Laws.RoundTrip.rateUpdate (r : RegionId) (p : Fin 64) (rate : BitVec 11) : RoundTrip.Statement (.rateUpdate r p rate) := fun _ _ e => by cases e
theorem Laws.RoundTrip.lqdoorPush (r : RegionId) (w : DoorWrite) (data : BitVec 512) : RoundTrip.Statement (.lqdoorPush r w data) := fun _ _ e => by cases e
theorem Laws.RoundTrip.lqctlCancel (r : RegionId) (v : Word) : RoundTrip.Statement (.lqctlCancel r v) := fun _ _ e => by cases e
theorem Laws.RoundTrip.seedtPush (r : RegionId) (p : Fin 64) (v : Word) : RoundTrip.Statement (.seedtPush r p v) := fun _ _ e => by cases e
theorem Laws.RoundTrip.seedFlush (r : RegionId) (p : Fin 64) : RoundTrip.Statement (.seedFlush r p) := fun _ _ e => by cases e
theorem Laws.RoundTrip.freewWrite (d : DieId) (frame : BitVec 256) : RoundTrip.Statement (.freewWrite d frame) := fun _ _ e => by cases e
theorem Laws.RoundTrip.rgmoorWrite (r : RegionId) (v : Word) : RoundTrip.Statement (.rgmoorWrite r v) := fun _ _ e => by cases e
theorem Laws.RoundTrip.mccanCancel (d : DieId) (v : Word) : RoundTrip.Statement (.mccanCancel d v) := fun _ _ e => by cases e
theorem Laws.RoundTrip.rgtrrWrite (r : RegionId) (v : Word) : RoundTrip.Statement (.rgtrrWrite r v) := fun _ _ e => by cases e
theorem Laws.RoundTrip.rearm (r : RegionId) : RoundTrip.Statement (.rearm r) := fun _ _ e => by cases e
theorem Laws.RoundTrip.trcmdInvalidateRange (d : DieId) (v : Word) : RoundTrip.Statement (.trcmdInvalidateRange d v) := fun _ _ e => by cases e
theorem Laws.RoundTrip.trcmdInvalidateAsid (d : DieId) (v : Word) : RoundTrip.Statement (.trcmdInvalidateAsid d v) := fun _ _ e => by cases e
theorem Laws.RoundTrip.trcmdWake (d : DieId) (v : Word) : RoundTrip.Statement (.trcmdWake d v) := fun _ _ e => by cases e
theorem Laws.RoundTrip.pinQuery (d : DieId) (v : Word) : RoundTrip.Statement (.pinQuery d v) := fun _ _ e => by cases e
theorem Laws.RoundTrip.strikeReport (die : Option DieId) (zone : Nat) : RoundTrip.Statement (.strikeReport die zone) := fun _ _ e => by cases e
theorem Laws.RoundTrip.tideControlWrite (r : RegionId) (v : Word) : RoundTrip.Statement (.tideControlWrite r v) := fun _ _ e => by cases e
theorem Laws.RoundTrip.stopClear (r : RegionId) : RoundTrip.Statement (.stopClear r) := fun _ _ e => by cases e
theorem Laws.RoundTrip.preemptSave (r : RegionId) (v : Word) : RoundTrip.Statement (.preemptSave r v) := fun _ _ e => by cases e
theorem Laws.RoundTrip.preemptRestore (r : RegionId) (v : Word) : RoundTrip.Statement (.preemptRestore r v) := fun _ _ e => by cases e
theorem Laws.RoundTrip.freezeRelease (r : RegionId) : RoundTrip.Statement (.freezeRelease r) := fun _ _ e => by cases e
theorem Laws.RoundTrip.noticeRead (fifo : NoticeFifo) : RoundTrip.Statement (.noticeRead fifo) := fun _ _ e => by cases e
theorem Laws.RoundTrip.devtimeBroadcast : RoundTrip.Statement (.devtimeBroadcast) := fun _ _ e => by cases e
theorem Laws.RoundTrip.devtimeStep : RoundTrip.Statement (.devtimeStep) := fun _ _ e => by cases e
theorem Laws.RoundTrip.powerExchange : RoundTrip.Statement (.powerExchange) := fun _ _ e => by cases e
theorem Laws.RoundTrip.hostRead (io : Fin 2) (path : HostPath) (pa : BitVec 52) : RoundTrip.Statement (.hostRead io path pa) := fun _ _ e => by cases e
theorem Laws.RoundTrip.hostWrite (io : Fin 2) (path : HostPath) (pa : BitVec 52) (data : List Byte) (poison : Bool) : RoundTrip.Statement (.hostWrite io path pa data poison) := fun _ _ e => by cases e
theorem Laws.RoundTrip.fronthaulFrameReceive (io : Fin 2) (frame : EthFrame) : RoundTrip.Statement (.fronthaulFrameReceive io frame) := fun _ _ e => by cases e
theorem Laws.RoundTrip.ttDataFrameReceive (io : Fin 2) (frame : EthFrame) : RoundTrip.Statement (.ttDataFrameReceive io frame) := fun _ _ e => by cases e
theorem Laws.RoundTrip.ttAckReceive (io : Fin 2) (frame : EthFrame) : RoundTrip.Statement (.ttAckReceive io frame) := fun _ _ e => by cases e
theorem Laws.RoundTrip.hostRingFrameReceive (io : Fin 2) (frame : EthFrame) : RoundTrip.Statement (.hostRingFrameReceive io frame) := fun _ _ e => by cases e
theorem Laws.RoundTrip.txdoorWrite (io : Fin 2) (q : Fin 2) (n : BitVec 16) : RoundTrip.Statement (.txdoorWrite io q n) := fun _ _ e => by cases e
theorem Laws.RoundTrip.rgtenWrite (r : RegionId) (v : Word) : RoundTrip.Statement (.rgtenWrite r v) := fun _ _ e => by cases e
theorem Laws.RoundTrip.monitorSample (d : DieId) (temp : BitVec 10) (vcore : BitVec 10) : RoundTrip.Statement (.monitorSample d temp vcore) := fun _ _ e => by cases e
theorem Laws.RoundTrip.deviceReset (flash : BootInputs) : RoundTrip.Statement (.deviceReset flash) := fun _ _ e => by cases e
theorem Laws.RoundTrip.spdmRequest (req : List Byte) : RoundTrip.Statement (.spdmRequest req) := fun _ _ e => by cases e
theorem Laws.RoundTrip.resync (v : Word) : RoundTrip.Statement (.resync v) := fun _ _ e => by cases e
theorem Laws.RoundTrip.resyncComplete : RoundTrip.Statement (.resyncComplete) := fun _ _ e => by cases e
theorem Laws.RoundTrip.cutStart (r : RegionId) (v : Word) : RoundTrip.Statement (.cutStart r v) := fun _ _ e => by cases e
theorem Laws.RoundTrip.cutRelease (r : RegionId) : RoundTrip.Statement (.cutRelease r) := fun _ _ e => by cases e
theorem Laws.RoundTrip.debugAccess (r : RegionId) (v : Word) : RoundTrip.Statement (.debugAccess r v) := fun _ _ e => by cases e
theorem Laws.RoundTrip.registerWrite (reg : PlainReg) (v : Word) : RoundTrip.Statement (.registerWrite reg v) := fun _ _ e => by cases e
theorem Laws.RoundTrip.supplyDroop (d : DieId) (ns3 : Nat) : RoundTrip.Statement (.supplyDroop d ns3) := fun _ _ e => by cases e
theorem Laws.RoundTrip.frequencyLockChange (locked : Bool) : RoundTrip.Statement (.frequencyLockChange locked) := fun _ _ e => by cases e

end Sys2Proof
end

