-- ==== Sys2Proof/Tests/Slice0.lean ====
section
/-! SUPPORT. Tests of the model: ill-formed terms that the check refuses, words of the spec's examples and what they decode to, and
single instructions on small states. The expected results are the spec's own examples or computed by hand from its rules. -/

namespace Sys2Proof.Tests

open Sys2Proof Sys2Proof.Machine

set_option Elab.async false

/-! Small states -/

def tile0 : Tile := ⟨0, 0⟩
def always : Head := ⟨false, 0, .always⟩
/-- An activation of handler 0 of facet 0 at index 0, its facet at reset. -/
def act0 : Act := FacetEl.reset.start 0 0
/-- The machine after reset with the activation a in the issue slot of tile (0, 0). -/
def here (a : Act) : State := State.setAct { State.reset with cur := tile0 } tile0 a
/-- The activation after an instruction. -/
def ran (i : Instr) (a : Act) : Option Act := match exec i (here a) with
  | .next s => (s.el tile0).act
  | _ => none
/-- The state after an instruction. -/
def ranState (i : Instr) (a : Act) : Option State := match exec i (here a) with
  | .next s => some s
  | _ => none
/-- act0 with g registers set. -/
def gs (l : List (BitVec 6 × Word)) : Act := l.foldl (fun a x => a.wg x.1 x.2) act0
def gOf (n : BitVec 6) (i : Instr) (a : Act) : Option Word := (ran i a).map fun b => b.bank.rg n
def pcOf (i : Instr) (a : Act) : Option Word := (ran i a).map (·.pc)
/-- act0 with v registers set, each element to a value of its own. -/
def vs (l : List (BitVec 5 × Vec)) : Act := { act0 with bank := { act0.bank with v := l.foldl (fun b x => b.set x.1.toFin x.2) act0.bank.v } }
/-- Element j of width k of a v register after an instruction. -/
def vOf (n : BitVec 5) (k j : Nat) (i : Instr) (a : Act) : Option Nat := (ran i a).map fun b => fld (b.bank.rv n) (k * j) k
/-- The cause of the trap that an instruction takes, and its HADDR. -/
def trapOf (i : Instr) (a : Act) : Option (Nat × Word) := (ranState i a).map fun s =>
  (fld ((s.el tile0).fac a.facet).hcause 0 9, ((s.el tile0).fac a.facet).haddr)
def r3 (d a b c : Spec) : RForm := ⟨always, d, a, b, c, .dyn, .dflt, 0⟩

/-! Terms that are not well formed: one for each check -/

/-- A field that the description does not name: rnd of ADD (R42, R57). -/
theorem test_wf_refuses_field : (Instr.add ⟨always, .g 3, .g 1, .g 2, .g 0, .rz, .dflt, 0⟩).check = some .reservedField := by decide +kernel
/-- An operand in a field that ADD does not use (R48, R57). -/
theorem test_wf_refuses_unused : (Instr.add (r3 (.g 3) (.g 1) (.g 2) (.g 1))).check = some .reservedField := by decide +kernel
/-- A predicate match without a port operand (R47). -/
theorem test_wf_refuses_match : (Instr.add ⟨⟨false, 0, .predTrue⟩, .g 3, .g 1, .g 2, .g 0, .dyn, .dflt, 0⟩).check = some .reservedField := by
  decide +kernel
/-- A reserved specifier (R48). -/
theorem test_wf_refuses_specifier : (Instr.add (r3 (.g 3) (.rsv 0x9A) (.g 2) (.g 0))).check = some .reservedOperand := by decide +kernel
/-- A vector register as a scalar source (R50, R96). -/
theorem test_wf_refuses_class : (Instr.add (r3 (.g 3) (.v 0) (.g 2) (.g 0))).check = some .operandClass := by decide +kernel
/-- An output port as a source (R50). -/
theorem test_wf_refuses_source_port : (Instr.add (r3 (.g 3) (.outp 0) (.g 2) (.g 0))).check = some .operandClass := by decide +kernel
/-- A shift distance above 63 (R106). -/
theorem test_wf_refuses_shift : (Instr.shli ⟨always, .g 3, .g 1, 64⟩).check = some .reservedField := by decide +kernel
/-- LOOP on g0 (R117). -/
theorem test_wf_refuses_loop : (Instr.loop ⟨always, .g 0, .g 0, .g 0, .always, 0, 2⟩).check = some .operandClass := by decide +kernel
/-- The reserved scope code of FENCE (R123, R238). -/
theorem test_wf_refuses_scope : (Instr.fence ⟨always, .g 0, .g 0, .g 0, .b, .rsv, 0⟩).check = some .reservedField := by decide +kernel
/-- An assigned opcode under the constructor for unassigned ones (R60). -/
theorem test_wf_refuses_opcode : (Instr.illegalOpcode 0x0100000000000000).wf = false := by decide +kernel
/-- The same ADD without a fault is well formed. -/
theorem test_wf_accepts : (Instr.add (r3 (.g 3) (.g 1) (.g 2) (.g 0))).wf = true := by decide +kernel

/-! Words of the spec's examples (R41 to R60 and the examples of each chapter) -/

theorem test_decode_ld : decode 0x7000100001800100 = .ok (.ld ⟨always, .g 4, .g 0, .g 0, .d, .act, 0x100⟩) := by rfl
theorem test_decode_add : decode 0x0102018010000000 = .ok (.add (r3 (.outp 0) (.inp 0) (.g 4) (.g 0))) := by rfl
theorem test_decode_end : decode 0x9500000000000000 = .ok (.endAct (r3 (.g 0) (.g 0) (.g 0) (.g 0))) := by rfl
theorem test_decode_guarded : decode 0x01B2018010000000 = .ok (.add { r3 (.outp 0) (.inp 0) (.g 4) (.g 0) with head := ⟨true, 3, .always⟩ }) := by rfl
theorem test_decode_cmp : decode 0x2A0248171C000003 = .ok (.cmp { r3 (.p 2) (.g 5) (.imm 7) (.g 0) with fn := 3 }) := by rfl
theorem test_decode_brc : decode 0x9100000C10C00005 = .ok (.brc ⟨always, .g 0, .g 3, .g 4, .lt, 0, 5⟩) := by rfl
theorem test_decode_loop : decode 0x9400240000000002 = .ok (.loop ⟨always, .g 9, .g 0, .g 0, .always, 0, 2⟩) := by rfl
theorem test_decode_vbfly : decode 0x6D01150509100003 = .ok (.vbfly { r3 (.v 5) (.v 1) (.v 2) (.v 4) with fn := 3 }) := by rfl
theorem test_decode_ldc : decode 0x75001C0C01800040 = .ok (.ldc ⟨always, .g 7, .g 3, .g 0, .d, .act, 0x40⟩) := by rfl
theorem test_decode_sendh : decode 0x830E058000000000 = .ok (.sendh { r3 (.outp 1) (.inp 0) (.g 0) (.g 0) with head := ⟨false, 0, .nullSkip⟩ }) := by rfl
theorem test_decode_brc_tp : decode 0x910001C402C0000C = .ok (.brc ⟨always, .g 0, .peek 1, .g 0, .tp, 0, 12⟩) := by rfl
theorem test_decode_addi : decode 0x0202000500000000 = .ok (.addi ⟨always, .outp 0, .g 1, 0x100000000⟩) := by rfl
theorem test_decode_fcmp : decode 0x3802441014000040 = .ok (.fcmp { r3 (.p 1) (.g 4) (.g 5) (.g 0) with fn := 0x040 }) := by rfl
theorem test_decode_cmp_geu :
    decode 0x2A92441B10000006 = .ok (.cmp { r3 (.p 1) (.g 6) (.imm 4) (.g 0) with head := ⟨true, 1, .always⟩, fn := 6 }) := by rfl

theorem test_decode_send_pp : decode 0x8002000402440002 = .ok (.send { r3 (.outp 0) (.g 1) (.g 0) (.p 1) with fn := 2 }) := by rfl
theorem test_decode_mldc : decode 0xA3001C0C01D00008 = .ok (.mldc ⟨always, .g 7, .g 3, .g 0, .d, .device, 8⟩) := by rfl
theorem test_decode_matom : decode 0xA800141B040000F0 = .ok (.matom { r3 (.g 5) (.g 6) (.imm 1) (.g 0) with fn := 0x0F0 }) := by rfl
theorem test_decode_fence : decode 0x9E00000000500000 = .ok (.fence ⟨always, .g 0, .g 0, .g 0, .b, .device, 0⟩) := by rfl
theorem test_decode_order : decode 0x9F02081000500000 = .ok (.order ⟨always, .outp 2, .g 4, .g 0, .b, .device, 0⟩) := by rfl
theorem test_decode_mldw : decode 0xA2000C1401800000 = .ok (.mldw ⟨always, .g 3, .g 5, .g 0, .d, .act, 0⟩) := by rfl
theorem test_decode_mstf : decode 0xA40000100DB00100 = .ok (.mstf ⟨always, .g 0, .g 4, .g 3, .d, .region, 0x100⟩) := by rfl
theorem test_decode_vins : decode 0x630105040C041000 = .ok (.vins { r3 (.v 1) (.v 1) (.g 3) (.g 1) with esz := .e8 }) := by rfl
theorem test_decode_sgath : decode 0xB102141C200180A9 = .ok (.sgath ⟨always, .outp 5, .g 7, .g 8, .g 0, 0x180A9⟩) := by rfl
theorem test_decode_mma : decode 0xC002141F440006A5 = .ok (.mma ⟨always, .outp 5, .g 7, .imm 17, .g 0, 0x6A5⟩) := by rfl
theorem test_decode_nop : decode 0x1200000000000000 = .ok (.or (r3 (.g 0) (.g 0) (.g 0) (.g 0))) := by rfl

/-! Scalar instructions -/

theorem test_add_wraps : gOf 3 (.add (r3 (.g 3) (.g 1) (.g 2) (.g 0))) (gs [(1, BitVec.allOnes 64), (2, 1)]) = some 0 := by decide +kernel
theorem test_add_word : gOf 3 (.add { r3 (.g 3) (.g 1) (.g 2) (.g 0) with esz := .e32 }) (gs [(1, 0x7FFFFFFF), (2, 1)]) = some 0xFFFFFFFF80000000 := by
  decide +kernel
theorem test_sub_order : gOf 3 (.sub (r3 (.g 3) (.g 1) (.g 2) (.g 0))) (gs [(1, 5), (2, 9)]) = some 0xFFFFFFFFFFFFFFFC := by decide +kernel
theorem test_mulhu : gOf 3 (.mulhu (r3 (.g 3) (.g 1) (.g 2) (.g 0))) (gs [(1, BitVec.allOnes 64), (2, 2)]) = some 1 := by decide +kernel
theorem test_mulh : gOf 3 (.mulh (r3 (.g 3) (.g 1) (.g 2) (.g 0))) (gs [(1, BitVec.allOnes 64), (2, 2)]) = some (BitVec.allOnes 64) := by
  decide +kernel
theorem test_div_by_zero : gOf 3 (.div (r3 (.g 3) (.g 1) (.g 2) (.g 0))) (gs [(1, 7)]) = some (BitVec.allOnes 64) := by decide +kernel
theorem test_rem_by_zero : gOf 3 (.rem (r3 (.g 3) (.g 1) (.g 2) (.g 0))) (gs [(1, 7)]) = some 7 := by decide +kernel
theorem test_div_minimum :
    gOf 3 (.div (r3 (.g 3) (.g 1) (.g 2) (.g 0))) (gs [(1, 0x8000000000000000), (2, BitVec.allOnes 64)]) = some 0x8000000000000000 := by
  decide +kernel
theorem test_rem_sign : gOf 3 (.rem (r3 (.g 3) (.g 1) (.g 2) (.g 0))) (gs [(1, 0xFFFFFFFFFFFFFFF9), (2, 4)]) = some 0xFFFFFFFFFFFFFFFD := by
  decide +kernel
theorem test_andn : gOf 3 (.andn (r3 (.g 3) (.g 1) (.g 2) (.g 0))) (gs [(1, 0xFF), (2, 0x0F)]) = some 0xF0 := by decide +kernel
theorem test_shl_width : gOf 3 (.shl (r3 (.g 3) (.g 1) (.g 2) (.g 0))) (gs [(1, 1), (2, 64)]) = some 0 := by decide +kernel
theorem test_sra_beyond : gOf 3 (.sra (r3 (.g 3) (.g 1) (.g 2) (.g 0))) (gs [(1, 0x8000000000000000), (2, 100)]) = some (BitVec.allOnes 64) := by
  decide +kernel
theorem test_rotl : gOf 3 (.rotl (r3 (.g 3) (.g 1) (.g 2) (.g 0))) (gs [(1, 0x8000000000000001), (2, 65)]) = some 3 := by decide +kernel
theorem test_clz_zero : gOf 3 (.clz (r3 (.g 3) (.g 1) (.g 0) (.g 0))) act0 = some 64 := by decide +kernel
theorem test_ctz : gOf 3 (.ctz (r3 (.g 3) (.g 1) (.g 0) (.g 0))) (gs [(1, 0x50)]) = some 4 := by decide +kernel
theorem test_popc : gOf 3 (.popc (r3 (.g 3) (.g 1) (.g 0) (.g 0))) (gs [(1, 0xF0F1)]) = some 9 := by decide +kernel
theorem test_bswap : gOf 3 (.bswap (r3 (.g 3) (.g 1) (.g 0) (.g 0))) (gs [(1, 0x0123456789ABCDEF)]) = some 0xEFCDAB8967452301 := by decide +kernel
/-- The constant built by two LIMM and a BINS (R107). -/
theorem test_bins_constant :
    gOf 1 (.bins { r3 (.g 1) (.g 1) (.g 2) (.g 0) with fn := 0x820 }) (gs [(1, 0x89ABCDEF), (2, 0x01234567)]) = some 0x0123456789ABCDEF := by
  decide +kernel
theorem test_limm : gOf 1 (.limm ⟨always, .g 1, .g 0, 0x89ABCDEF⟩) act0 = some 0x89ABCDEF := by decide +kernel
theorem test_limm_sign : gOf 1 (.limm ⟨always, .g 1, .g 0, 0x200000000⟩) act0 = some 0xFFFFFFFE00000000 := by decide +kernel
theorem test_g0_discards : gOf 0 (.limm ⟨always, .g 0, .g 0, 1⟩) act0 = some 0 := by decide +kernel
theorem test_bext : gOf 3 (.bext { r3 (.g 3) (.g 1) (.g 0) (.g 0) with fn := 0x208 }) (gs [(1, 0x0123456789ABCDEF)]) = some 0xCD := by decide +kernel
theorem test_minu : gOf 3 (.minu (r3 (.g 3) (.g 1) (.g 2) (.g 0))) (gs [(1, BitVec.allOnes 64), (2, 2)]) = some 2 := by decide +kernel
theorem test_min : gOf 3 (.min (r3 (.g 3) (.g 1) (.g 2) (.g 0))) (gs [(1, BitVec.allOnes 64), (2, 2)]) = some (BitVec.allOnes 64) := by decide +kernel
theorem test_cmp_to_p : (ran (.cmp { r3 (.p 2) (.g 5) (.imm 7) (.g 0) with fn := 3 }) (gs [(5, 6)])).map (fun a => a.bank.rp 2)
    = some ⟨true, 0xFFFF⟩ := by decide +kernel
theorem test_sel : gOf 3 (.sel (r3 (.g 3) (.g 1) (.g 2) (.g 0))) (gs [(1, 5), (2, 9)]) = some 9 := by decide +kernel
theorem test_lea : gOf 3 (.lea ⟨always, .g 3, .g 1, .g 2, .d, .act, 0xFFFF8⟩) (gs [(1, 0x100), (2, 3)]) = some 0x110 := by decide +kernel
theorem test_guard_false : gOf 3 (.limm ⟨⟨true, 0, .always⟩, .g 3, .g 0, 1⟩) act0 = some 0 := by decide +kernel
/-- 1.0 + 2^-24 in FP32 is a tie that goes to the even 1.0 (R80). -/
theorem test_fadd_tie : gOf 3 (.fadd (r3 (.g 3) (.g 1) (.g 2) (.g 0))) (gs [(1, 0x3F800000), (2, 0x33800000)]) = some 0x3F800000 := by decide +kernel
theorem test_fadd_up :
    gOf 3 (.fadd { r3 (.g 3) (.g 1) (.g 2) (.g 0) with rnd := .ru }) (gs [(1, 0x3F800000), (2, 0x33800000)]) = some 0x3F800001 := by decide +kernel
/-- The conversions of R88's table to E4M3: 464.0 is a tie that goes to 448, and 500.0 overflows in the plain form. -/
theorem test_fcvt_tie : gOf 3 (.fcvt { r3 (.g 3) (.g 1) (.g 0) (.g 0) with fn := 0x030 }) (gs [(1, 0x43E80000)]) = some 0x7E := by decide +kernel
theorem test_fcvt_overflow : gOf 3 (.fcvt { r3 (.g 3) (.g 1) (.g 0) (.g 0) with fn := 0x030 }) (gs [(1, 0x43FA0000)]) = some 0x7F := by decide +kernel
theorem test_fcvt_saturates : gOf 3 (.fcvt { r3 (.g 3) (.g 1) (.g 0) (.g 0) with fn := 0x130 }) (gs [(1, 0x43FA0000)]) = some 0x7E := by decide +kernel

/-! Vector instructions: the butterfly of chapter 5, the sum of chapter 3 -/

def butterfly : Act := vs [(1, 0xF83003E8), (2, 0x4000), (4, 0xA57E5A82)]
theorem test_vbfly_sum : vOf 3 32 0 (.vbfly (r3 (.v 3) (.v 1) (.v 2) (.v 4))) butterfly = some 0xCAEF3129 := by decide +kernel
theorem test_vbfly_difference : vOf 5 32 0 (.vbfly { r3 (.v 5) (.v 1) (.v 2) (.v 4) with fn := 3 }) butterfly = some 0x12B9EB54 := by decide +kernel
theorem test_vred_tree :
    gOf 3 (.vred (r3 (.g 3) (.v 1) (.g 0) (.g 0))) (vs [(1, 0x3F8000003F8000003F8000004B800000)]) = some 0x4B800001 := by decide +kernel
theorem test_vcmul_clamps : vOf 3 32 0 (.vcmul (r3 (.v 3) (.v 1) (.v 1) (.g 0))) (vs [(1, 0x8000)]) = some 0x7FFF := by decide +kernel
theorem test_vins : vOf 1 8 2 (.vins { r3 (.v 1) (.v 1) (.g 3) (.g 1) with esz := .e8 }) (gs [(3, 0x1AB), (1, 66)]) = some 0xAB := by decide +kernel
theorem test_vextr : gOf 3 (.vextr { r3 (.g 3) (.v 1) (.g 2) (.g 0) with esz := .e8 }) (vs [(1, 0xCD)]) = some 0xCD := by decide +kernel

/-! Control, channels, local memory and traps -/

/-- LOOP of chapter 4: taken while the value before was above 1, then to the next index. -/
theorem test_loop_taken : pcOf (.loop ⟨always, .g 9, .g 0, .g 0, .always, 0, 2⟩) (gs [(9, 4)]) = some 2 := by decide +kernel
theorem test_loop_falls : pcOf (.loop ⟨always, .g 9, .g 0, .g 0, .always, 0, 2⟩) (gs [(9, 1)]) = some 1 := by decide +kernel
theorem test_brc_signed : pcOf (.brc ⟨always, .g 0, .g 3, .g 4, .lt, 0, 5⟩) (gs [(3, BitVec.allOnes 64)]) = some 5 := by decide +kernel
theorem test_call_link : gOf 9 (.call ⟨always, .g 9, .g 0, .g 0, .always, 0, 7⟩) act0 = some 1 := by decide +kernel
theorem test_ret : pcOf (.ret (r3 (.g 0) (.g 1) (.g 0) (.g 0))) (gs [(1, 9)]) = some 9 := by decide +kernel
theorem test_sendh_opens : (ran (.sendh (r3 (.outp 1) (.g 1) (.g 0) (.g 0))) (gs [(1, 7)])).map (fun a => (a.bursts, a.sends.map (·.tok)))
    = some (2, [⟨7, 0b00000100⟩]) := by decide +kernel
theorem test_sendt_without_burst : trapOf (.sendt (r3 (.outp 1) (.g 1) (.g 0) (.g 0))) act0 = some (0x00A, 0x81) := by decide +kernel
theorem test_st_buffers : (ran (.st ⟨always, .g 0, .g 1, .g 2, .h, .act, 4⟩) (gs [(1, 0x10), (2, 0x1234)])).map (·.stores)
    = some [.loc [(0x10000000000014, 0x34), (0x10000000000015, 0x12)] none] := by decide +kernel
theorem test_ld_alignment : trapOf (.ld ⟨always, .g 3, .g 1, .g 0, .d, .act, 4⟩) act0 = some (0x005, 4) := by decide +kernel
theorem test_ld_bounds : trapOf (.ld ⟨always, .g 3, .g 1, .g 0, .d, .act, 0⟩) (gs [(1, 0x10000)]) = some (0x006, 0x10000) := by decide +kernel
theorem test_trap_cause : trapOf (.trap ⟨always, .g 0, .g 0, 3⟩) act0 = some (0x013, 0) := by decide +kernel
theorem test_mts_privileged : (trapOf (.mts { r3 (.g 0) (.g 1) (.g 0) (.g 0) with fn := 0x005 }) act0).map (·.1) = some 0x008 := by decide +kernel
theorem test_mfs_window : gOf 3 (.mfs { r3 (.g 3) (.g 0) (.g 0) (.g 0) with fn := 0x008 }) act0 = some 0x800 := by decide +kernel
theorem test_mask : (ran (.mask (r3 (.g 3) (.g 1) (.imm 0x3F) (.g 0))) (gs [(1, 6)])).map (·.masks) = some 6 := by decide +kernel
/-- The token of chapter 13's SGATH carries payload 0x8C00_0000_4180_A9B1. -/
theorem test_sgath_token : (ran (.sgath ⟨always, .outp 5, .g 7, .g 8, .g 0, 0x180A9⟩) (gs [(7, 0x10), (8, 0x23)])).map (fun a => a.sends.map (·.tok.payload))
    = some [0x8C0000004180A9B1] := by decide +kernel
/-- The token of chapter 14's MMA carries payload 0x4405_0008_0006_A5C0. -/
theorem test_mma_token : (ran (.mma ⟨always, .outp 5, .g 7, .imm 17, .g 0, 0x6A5⟩) (gs [(7, 0x01400200)])).map (fun a => a.sends.map (·.tok.payload))
    = some [0x440500080006A5C0] := by decide +kernel
/-- END writes the buffered store and gives the facet the activation's registers (R31). -/
theorem test_end_commits : (ranState (.endAct (r3 (.g 0) (.g 0) (.g 0) (.g 0))) { gs [(1, 5)] with stores := [.loc [(0x10000000000100, 9)] (some (0x2000000000020, true))] }).map
    (fun s => (((s.el tile0).fac 0).bank.rg 1, s.mem.byte 0x10000000000100, s.mem.isFull 0x10000000000100)) = some (5, 9, true) := by decide +kernel

end Sys2Proof.Tests
end

