-- ==== Sys2Proof/Tests/Witness.lean ====
section
/-! SUPPORT. Witnesses: for each statement with hypotheses, concrete states and operands that meet the hypotheses of each clause together, at
boundary values of their ranges. -/

namespace Sys2Proof.Tests

open Sys2Proof Sys2Proof.Machine

set_option Elab.async false

/-! Whole machine -/

def endWord : Word := 0x9500000000000000
/-- The machine with an activation in progress at tile (0, 0) whose issue slot comes next, and the word w at its index. -/
def atIssue (w : Word) (a : Act) : State :=
  { (here a).modEl tile0 (fun e => { e with istore := if w = 0 then [] else [(0, w)] }) with agenda := [.issue tile0] }
theorem witness_safe_step : SafeState (atIssue endWord act0) ∧ (∃ s', step (atIssue endWord act0) = .next s') :=
  ⟨(by decide +kernel : (atIssue endWord act0).mem.wf = true), _, rfl⟩
theorem witness_step_decoded : let s := atIssue endWord act0
    s.agenda = .issue tile0 :: [] ∧ tile0.isCT = true ∧ tile0.inFabric = true ∧ (s.el tile0).act = some act0 ∧ act0.busy = 0 ∧ act0.wait = .none ∧
    ((s.el tile0).fac act0.facet).fetchOut act0.pc = false ∧ (decode ((s.el tile0).fetch act0.facet act0.pc)).toOption.isSome = true := by
  decide +kernel
def oneEvent (i : Instr) : State := { State.reset with agenda := [.event i] }
theorem witness_step_event_runs :
    ((oneEvent .devtimeStep).recovery && barWrite .devtimeStep) = false ∧ (oneEvent .devtimeStep).postponed .devtimeStep = false := by decide +kernel
theorem witness_step_event_waits : let s := (oneEvent (.rggeomWrite 0 1)).modRg 0 fun g => { g with lqstat := 0x40 }
    s.agenda = [.event (.rggeomWrite 0 1)] ∧ (s.recovery && barWrite (.rggeomWrite 0 1)) = false ∧ s.postponed (.rggeomWrite 0 1) = true := by
  decide +kernel
theorem witness_step_event_dropped : let s := { oneEvent (.rggeomWrite 0 1) with modul := { Module.reset with bootstat := 0x200 } }
    (s.recovery && barWrite (.rggeomWrite 0 1)) = true := by decide +kernel
theorem witness_step_idle : State.reset.agenda = [] := rfl
theorem witness_round_trip : (Instr.add (r3 (.g 63) (.imm 63) (.p 7) (.g 0))).wf = true ∧
    ∃ w, encode (.add (r3 (.g 63) (.imm 63) (.p 7) (.g 0))) = some w ∧ decode w = .ok (.add (r3 (.g 63) (.imm 63) (.p 7) (.g 0))) :=
  ⟨by decide +kernel, _, rfl, rfl⟩
/-- Fetches at the limit of the window, and at the limit of the instruction store. -/
theorem witness_fetch_bounds : FacetEl.reset.islim.toNat ≤ (0x800 : Word).toNat ∧
    (let fe := { FacetEl.reset with isbase := 1 }; (0x7FF : Word).toNat < fe.islim.toNat ∧ 2048 ≤ fe.isbase.toNat + (0x7FF : Word).toNat) := by
  decide +kernel
def causeAt (w : Word) : Option DecodeCause := match decode (((atIssue w act0).el tile0).fetch act0.facet act0.pc) with
  | .error c => some c
  | .ok _ => none
theorem witness_decode_traps : causeAt 0x1000c0408000001 = some .reservedField ∧ causeAt 0x1000e6808000000 = some .reservedOperand ∧
    causeAt 0x1000d0008000000 = some .operandClass ∧ act0.pc.toNat < FacetEl.reset.islim.toNat ∧
    FacetEl.reset.isbase.toNat + act0.pc.toNat < 2048 := by decide +kernel

/-! The issue slot -/

def issuesB (s : State) (t : Tile) (a : Act) : Bool :=
  decide (s.cur = t) && t.isCT && t.inFabric && decide ((s.el t).act = some a)
theorem issues_of {s : State} {t : Tile} {a : Act} (h : issuesB s t a = true) : Issues s t a := by
  simp only [issuesB, Bool.and_eq_true, decide_eq_true_eq] at h
  exact ⟨h.1.1.1, h.1.1.2, h.1.2, h.2⟩
def passesB (s : State) (t : Tile) (a : Act) (h : Head) (srcs : List Spec) (out : Option (BitVec 4)) : Bool :=
  decide ((a.bank.rp h.gp).scalar ≠ h.gn) && s.portsReady t a srcs && s.hasRoom t a out && matchOk h.pm ((firstPort srcs).bind (s.specTok t a))
theorem passes_of {s : State} {t : Tile} {a : Act} {h : Head} {srcs : List Spec} {out : Option (BitVec 4)}
    (p : passesB s t a h srcs out = true) : Passes s t a h srcs out := by
  simp only [passesB, Bool.and_eq_true, decide_eq_true_eq] at p
  exact ⟨p.1.1.1, p.1.1.2, p.1.2, p.2⟩
def canSendB (a : Act) : Spec → Bool
  | .outp p => decide (a.sendsTo p < 16) && decide (a.sends.length < 32)
  | _ => true
theorem canSend_of {a : Act} {d : Spec} (h : canSendB a d = true) : CanSend a d := by
  intro p e
  subst e
  simpa [canSendB] using h
/-- What a scalar operand reads, where it reads. -/
def readOf (s : State) (a : Act) (x : Spec) : Option Word := (s.rdScalar tile0 a x).toOption.map (·.1)

theorem witness_issues : Issues (here act0) tile0 act0 := issues_of (by decide +kernel)

/-- The room of a port with 15 tokens queued and one send buffered, and a port that is full. -/
def withSends (n : Nat) (a : Act) : Act := { a with sends := (List.replicate n ⟨1, ⟨0, 0⟩, []⟩) }
/-- n tokens stand in output queue 1. -/
def fullOut (n : Nat) (a : Act) : State := (here a).modEl tile0 fun e => { e with outq := vset e.outq 1 (List.replicate n ⟨⟨0, 0⟩, 0, []⟩) }
/-- Tokens at input port 0 of facet 0 of tile (0, 0). -/
def withTokens (l : List Token) (a : Act) : State :=
  { (here a).modFac tile0 0 (fun fe => { fe with inq := vset fe.inq 0 (l.map fun k => ⟨k, 0, none⟩) }) with cycle := 1 }
def ports : RForm := r3 (.outp 1) (.inp 0) (.g 2) (.g 0)

theorem witness_guard_false : Issues (here act0) tile0 act0 ∧ ¬Guarded act0 ⟨true, 0, .always⟩ ∧ ¬Guarded act0 ⟨false, 1, .always⟩ :=
  ⟨issues_of (by decide +kernel), by unfold Guarded; decide +kernel, by unfold Guarded; decide +kernel⟩
theorem witness_port_wait : Guarded act0 ports.head ∧ (here act0).portsReady tile0 act0 [ports.a, ports.b, ports.c] = false ∧
    (here act0).portsReady tile0 act0 [ports.a] = false ∧ (here act0).portsReady tile0 act0 [ports.a, ports.b] = false ∧
    (fullOut 16 act0).hasRoom tile0 act0 ports.d.outPort = false ∧ (fullOut 15 (withSends 1 act0)).hasRoom tile0 (withSends 1 act0) (some 1) = false :=
  ⟨by unfold Guarded; decide +kernel, by decide +kernel, by decide +kernel, by decide +kernel, by decide +kernel, by decide +kernel⟩

/-- A token of facet 0 with payload 7 and the pred bit b, and one that is poisoned. -/
def plainTok (b : Bool) : Token := mkTok 0 0 b false false false 7
def poisonTok : Token := mkTok 0 0 false false false true 7
def matching (m : Match) : RForm := { r3 (.g 3) (.inp 0) (.g 2) (.g 0) with head := ⟨false, 0, m⟩ }
theorem witness_predicate_mismatch : ∀ b : Bool, let s := withTokens [plainTok b] act0
    issuesB s tile0 act0 = true ∧ s.portsReady tile0 act0 [.inp 0, .g 2, .g 0] = true ∧ s.portsReady tile0 act0 [.inp 0, .g 2] = true ∧
    s.hasRoom tile0 act0 (Spec.g 3).outPort = true ∧ (firstPort [.inp 0, .g 2, .g 0]).bind (s.specTok tile0 act0) = some (plainTok b) ∧
    (plainTok b).pred = b ∧ (act0.bank.rp 0).scalar ≠ (matching .predTrue).head.gn := by decide +kernel

theorem witness_operand_reads : let s := withTokens [plainTok true] act0; let z := withTokens [poisonTok] act0
    s.portTok tile0 act0 0 = some (plainTok true) ∧ (plainTok true).poison = false ∧ z.portTok tile0 act0 0 = some poisonTok ∧
    poisonTok.poison = true ∧ s.rdScalar tile0 act0 (.p 7) = .ok (0, act0) := by decide +kernel
theorem witness_result_ports : act0.sendsTo 1 < 16 ∧ act0.sends.length < 32 ∧ (withSends 15 act0).sendsTo 1 < 16 ∧
    16 ≤ (withSends 16 act0).sendsTo 1 ∧ 32 ≤ (withSends 32 act0).sends.length ∧ (withSends 31 act0).sends.length < 32 := by decide +kernel

/-! Scalar and vector results -/

def aScalar : Act := gs [(1, 5), (2, 9)]
/-- The operands of a scalar instruction of three sources, to each class of destination. -/
theorem witness_scalar_gives (d : Spec) (hd : d ∈ [Spec.g 63, .g 0, .p 7, .p 0, .outp 15]) :
    Issues (here aScalar) tile0 aScalar ∧ Passes (here aScalar) tile0 aScalar always [.g 1, .g 2, .g 0] d.outPort ∧
    rd3 aScalar ((here aScalar).rdScalar tile0) (.g 1) (.g 2) (.g 0) = .ok (5, 9, 0, aScalar) ∧ CanSend aScalar d := by
  refine ⟨issues_of (by decide +kernel), passes_of ?_, rfl, canSend_of ?_⟩ <;> simp only [List.mem_cons, List.not_mem_nil, or_false] at hd <;>
    rcases hd with rfl | rfl | rfl | rfl | rfl <;> decide +kernel
/-- Division by 0, a bit field at either end, the keys of a hash: the operands are the same, the 32-bit forms are other values of esz. -/
theorem witness_width_forms : Esz.dflt ≠ .e32 ∧ Esz.e64 ≠ .e32 ∧ rd3 act0 ((here act0).rdScalar tile0) (.g 1) (.g 2) (.g 0) = .ok (0, 0, 0, act0) := by
  decide +kernel
theorem witness_compare_conditions : ∀ c : Fin 6, 1 ≤ fld (BitVec.ofNat 12 (c.val + 1)) 0 4 ∧ fld (BitVec.ofNat 12 (c.val + 1)) 0 4 ≤ 6 ∧
    1 ≤ fld (BitVec.ofNat 34 ((c.val + 1) * 2 ^ 30)) 30 4 ∧ fld (BitVec.ofNat 34 ((c.val + 1) * 2 ^ 30)) 30 4 ≤ 6 := by decide +kernel
theorem witness_immediate_gives : Passes (here aScalar) tile0 aScalar always [.g 1] none ∧
    (here aScalar).rdScalar tile0 aScalar (.g 1) = .ok (5, aScalar) ∧ CanSend aScalar (.g 3) :=
  ⟨passes_of (by decide +kernel), rfl, canSend_of rfl⟩
theorem witness_lea : Passes (here aScalar) tile0 aScalar always [.g 1, .g 2] none ∧ (here aScalar).rdScalar tile0 aScalar (.g 2) = .ok (9, aScalar) :=
  ⟨passes_of (by decide +kernel), rfl⟩
/-- Half a unit, which is a tie, and just above it. -/
theorem witness_rounding : (-3 : Int) < -1 ∧ 6 % 2 ^ ((-1 : Int) - -3).toNat ≠ 0 ∧ 2 * (2 * 1) * 4 = 2 * 6 + 4 ∧ 4 % 2 ^ ((-1 : Int) - -3).toNat = 0 := by
  decide
theorem witness_float : ∀ c ∈ ([0, 1, 2] : List Nat), rd3 aScalar (fun a sp => (here aScalar).rdFp tile0 a c sp) (.g 1) (.g 2) (.g 0) = .ok (5, 9, 0, aScalar) := by
  decide +kernel
theorem witness_float_convert : ∀ c : Fin 12, let fn : BitVec 12 := BitVec.ofNat 12 c.val
    rd3 aScalar (fun a sp => if fld fn 0 4 < 8 then (here aScalar).rdFp tile0 a (fld fn 0 4) sp else (here aScalar).rdScalar tile0 a sp)
      (.g 1) (.g 2) (.g 0) = .ok (5, 9, 0, aScalar) := by decide +kernel
theorem witness_vector_gives : Issues (here butterfly) tile0 butterfly ∧ Passes (here butterfly) tile0 butterfly always [] none ∧
    (r3 (.v 31) (.v 1) (.v 2) (.v 4)).d = .v 31 ∧ eszWidth .e8 = 8 ∧ eszWidth .e16 = 16 ∧ eszWidth .dflt = 32 :=
  ⟨issues_of (by decide +kernel), passes_of (by decide +kernel), rfl, rfl, rfl, rfl⟩
/-- Of the moves: the last part of an unpacking, both widths of a packing, and the last part of a widening and of a narrowing conversion. -/
theorem witness_vector_moves : 16 * 3 + 16 ≤ 512 / 8 ∧ 16 * 1 + 16 ≤ 512 / 16 ∧ (eszWidth .e8 = 8 ∨ eszWidth .e8 = 16) ∧
    3 * min (codeWidth 0) (codeWidth 3) < max (codeWidth 0) (codeWidth 3) ∧ 7 * min (codeWidth 0) (codeWidth 5) < max (codeWidth 0) (codeWidth 5) ∧
    (r3 (.p 7) (.v 1) (.v 2) (.g 0)).d = .p 7 ∧ (7 : BitVec 3) ≠ 0 ∧ (r3 (.v 3) (.v 1) (.v 2) (.p 7)).c = .p 7 := by decide
theorem witness_vector_scalar : Passes (here aScalar) tile0 aScalar always [.g 1] none ∧ (here aScalar).rdFp tile0 aScalar 0 (.g 1) = .ok (5, aScalar) ∧
    Passes (here aScalar) tile0 aScalar always [.g 1, .g 2] none ∧
    rd3 aScalar ((here aScalar).rdScalar tile0) (.g 1) (.g 2) (.g 0) = .ok (5, 9, 0, aScalar) :=
  ⟨passes_of (by decide +kernel), rfl, passes_of (by decide +kernel), rfl⟩

/-! Local memory -/

/-- The machine with the word of offset 0x100 of tile (0, 0) full or empty, and 5 in it. -/
def withWord (full : Bool) (a : Act) : State :=
  { here a with mem := { Memory.empty with cells := [(0x10000000000100, 5)], full := if full then [0x2000000000020] else [] } }
def at100 : Act := gs [(1, 0x100)]
theorem witness_local_window : InWindow FacetEl.reset 0xFFFF 1 ∧ InWindow FacetEl.reset 0xFFF8 8 ∧ InWindow FacetEl.reset 0 64 := by
  unfold InWindow; decide +kernel
theorem witness_local_reads : ∀ full : Bool, let s := withWord full at100; let pa := localPa tile0 ((s.el tile0).fac 0) 0x100
    issuesB s tile0 at100 = true ∧ s.rdScalar tile0 at100 (.g 1) = .ok (0x100, at100) ∧ s.localTag at100 pa = full ∧ s.localBad at100 pa 64 = false ∧
    s.localBad at100 pa 8 = false ∧ at100.stores.length < 16 := by decide +kernel
theorem witness_local_access : Passes (withWord true at100) tile0 at100 always [.g 1, .g 2] none ∧ CanSend at100 (.g 3) ∧
    InWindow (((withWord true at100).el tile0).fac 0) 0x100 8 ∧ InWindow (((withWord true at100).el tile0).fac 0) 0x100 64 :=
  ⟨passes_of (by decide +kernel), canSend_of rfl, by unfold InWindow; decide +kernel, by unfold InWindow; decide +kernel⟩
/-- An offset that is not aligned, one just past the window, and one past local memory under a base. -/
theorem witness_local_traps : (0x101 : Word).toNat % 8 ≠ 0 ∧ (0x108 : Word).toNat % 64 ≠ 0 ∧ (0x10000 : Word).toNat % 8 = 0 ∧
    FacetEl.reset.actlim.toNat < (0x10000 : Word).toNat + 8 ∧
    (let fe := { FacetEl.reset with actbase := 0xFFF8 }; (8 : Word).toNat % 8 = 0 ∧ 0x10000 < fe.actbase.toNat + (8 : Word).toNat + 8) := by
  decide +kernel
/-- A handler without limit on its retries, in an element with 15 entries in the mooring list. -/
def nearlyMoored (full : Bool) : State :=
  let m : Moor := ⟨0x2000000000040, 0, 1, true, none⟩
  let s := (withWord full at100).modEl tile0 fun e => { e with moors := List.replicate 15 m }
  s.modFac tile0 0 fun fe => { fe with handlers := vset fe.handlers 0 { Handler.reset with entry := 0xF00000 } }
theorem witness_tag_wait : ∀ full : Bool, let s := nearlyMoored full; let fe := (s.el tile0).fac 0
    (fe.handlers.get 0).rexp = 15 ∧ (s.el tile0).moors.length < 16 ∧ s.localTag at100 (localPa tile0 fe 0x100) = full ∧
    s.rdScalar tile0 at100 (.g 1) = .ok (0x100, at100) ∧ s.rdScalar tile0 at100 (.g 2) = .ok (0, at100) := by decide +kernel

/-! Channels and control -/

theorem witness_sends : Passes (here act0) tile0 act0 always [.g 1] (some 15) ∧ act0.sendsTo 15 < 16 ∧ act0.sends.length < 32 ∧
    bit act0.bursts 15 = false ∧ bit ({ act0 with bursts := 0x8000 } : Act).bursts 15 = true :=
  ⟨passes_of (by decide +kernel), by decide +kernel, by decide +kernel, by decide +kernel, by decide +kernel⟩
theorem witness_tokens : let s := withTokens [plainTok false] act0
    Issues s tile0 act0 ∧ s.portTok tile0 act0 0 = some (plainTok false) ∧ Passes s tile0 act0 always [.inp 0] none ∧
    Passes s tile0 act0 always [.inp 0] (some 1) ∧ ((plainTok false).head = true → bit act0.bursts 1 = false) ∧
    ((plainTok false).tail = true → (plainTok false).head = true ∨ bit act0.bursts 1 = true) :=
  ⟨issues_of (by decide +kernel), by decide +kernel, passes_of (by decide +kernel), passes_of (by decide +kernel), by decide +kernel, by decide +kernel⟩
theorem witness_branches : let s := withTokens [plainTok true] aScalar
    Passes s tile0 aScalar always [] none ∧ Passes s tile0 aScalar always [.g 1, .g 2] none ∧ s.rdScalar tile0 aScalar (.g 1) = .ok (5, aScalar) ∧
    1 < (aScalar.bank.rg 1).toNat ∧ (aScalar.bank.rg 3).toNat ≤ 1 ∧ Passes s tile0 aScalar always [.p 7, .g 0] none ∧
    Passes s tile0 aScalar always [.inp 0, .g 0] none ∧ s.specTok tile0 aScalar (.inp 0) = some (plainTok true) ∧
    Passes s tile0 aScalar always [.g 1] none :=
  ⟨passes_of (by decide +kernel), passes_of (by decide +kernel), by decide +kernel, by decide +kernel, by decide +kernel, passes_of (by decide +kernel),
    passes_of (by decide +kernel), by decide +kernel, passes_of (by decide +kernel)⟩
theorem witness_commit : (here aScalar).commitBlock tile0 aScalar = .go ∧
    ((((nearlyMoored true).el tile0).fac 0).handlers.get 0).rexp = 15 := by decide +kernel
theorem witness_trap : Passes (here act0) tile0 act0 always [] none ∧ (15 : BitVec 34).toNat < 16 := ⟨passes_of (by decide +kernel), by decide⟩
theorem witness_special : let s := here aScalar
    Passes s tile0 aScalar always [.g 1] none ∧ s.rdScalar tile0 aScalar (.g 1) = .ok (5, aScalar) ∧ bit (5 : Word) 8 = false ∧ bit (5 : Word) 9 = false ∧
    (0x0C : Nat) ∉ ([0x01, 0x09, 0x0A, 0x0B] : List Nat) ∧ Passes s tile0 aScalar always [.g 1, .g 2] none ∧ Passes s tile0 aScalar always [] none :=
  ⟨passes_of (by decide +kernel), rfl, by decide, by decide, by decide, passes_of (by decide +kernel), passes_of (by decide +kernel)⟩
/-- A device request of the facet that stands in the outbound queue. -/
def aReq : Req := { id := 5, src := .elem tile0 0 0 0, form := 1, loc := 0x40, addr := 0x40, size := 8, region := some 0, die := 0, facet := 0, reach := 0 }
def outstanding : State := { (here act0).modFac tile0 0 (fun fe => { fe with outbound := [5] }) with reqs := [aReq] }
theorem witness_fences : ∀ sc ∈ [Scope.pair, .region, .die, .device, .system],
    (here act0).facetPerformed tile0 0 sc = true ∧ outstanding.facetPerformed tile0 0 sc = false := by decide +kernel
theorem witness_order : Passes (here act0) tile0 act0 always [.g 1] (some 15) ∧ (here act0).rdScalar tile0 act0 (.g 1) = .ok (0, act0) :=
  ⟨passes_of (by decide +kernel), rfl⟩

/-! Device memory -/

/-- Region 0 is the 4 by 4 rectangle at (0, 0), with translation on and one leaf that maps the first 64 KiB, all permissions and enforced. -/
def aLeaf : Leaf := ⟨0, 0, 16, 0x273⟩
def mapped (s : State) : State :=
  (s.modRg 0 fun g => { g with geom := 0x84040000, trr := 1 }).modDie 0 fun d => { d with tlb := [aLeaf] }
def at40 : Act := gs [(1, 0x40)]
/-- Offset 0x38 from 0x40 to 0x78, and the last word of the page. -/
theorem witness_device_where : ∀ form ∈ [0, 1, 2, 3, 4, 5, 6, 7, 8, 9], let s := mapped (here at40)
    issuesB s tile0 at40 = true ∧ s.elemWhere tile0 0 0x40 8 form = .here 0x40 0x273 ∧ s.elemWhere tile0 0 0xFFF8 8 form = .here 0xFFF8 0x273 ∧
    s.locked tile0 0 = false ∧ s.rdScalar tile0 at40 (.g 1) = .ok (0x40, at40) ∧ at40.stores.length < 16 := by decide +kernel
/-- Under null-skip the address is the token of i1, and the data that of i0, a null or not. -/
def skipping : MForm := ⟨⟨false, 0, .nullSkip⟩, .g 3, .inp 1, .inp 0, .d, .act, 0⟩
def twoTokens (k : Token) : State := (withTokens [k] at40).modFac tile0 0 fun fe => { fe with inq := vset fe.inq 1 [⟨plainTok false, 0, none⟩] }
theorem witness_null_data : (∀ k ∈ [(⟨0, 0x10⟩ : Token), plainTok false], let s := twoTokens k
      issuesB s tile0 at40 = true ∧ passesB s tile0 at40 skipping.head [.inp 1, .inp 0] none = true ∧
      s.nullData tile0 at40 skipping = decide (k.kind = 1) ∧ (s.rdScalar tile0 at40 (.inp 1)).toOption.isSome = true ∧
      (s.rdStoreData tile0 at40 skipping).toOption.isSome = true) ∧
    (⟨0, 0x10⟩ : Token).kind = 1 := by decide +kernel
theorem witness_device_operands : let s := mapped (here at40)
    (∀ w : MForm, w.head = always → s.nullData tile0 at40 w = false) ∧ Passes s tile0 at40 always [.g 1, .g 2] none ∧ Passes s tile0 at40 always [.g 1, .g 2, .g 0] none ∧
    rd3 at40 (s.rdScalar tile0) (.g 1) (.g 2) (.g 0) = .ok (0x40, 0, 0, at40) ∧
    s.rdStoreData tile0 at40 ⟨always, .g 0, .g 1, .g 2, .d, .act, 0⟩ = .ok (0, at40) ∧
    s.rdStoreData tile0 at40 ⟨always, .g 0, .g 1, .v 2, .v, .act, 0⟩ = .ok (0, at40) ∧ s.elemWhere tile0 0 0x40 64 1 = .here 0x40 0x273 :=
  ⟨fun w h => by simp [State.nullData, h, always], passes_of (by decide +kernel), passes_of (by decide +kernel), rfl, by decide +kernel, by decide +kernel,
    by decide +kernel⟩
/-- The paired MT has an area of 16 words, and the last of them is at offset 120. -/
def anMt : Tile := ⟨1, 0⟩
def aMode : MtMode := ⟨0, 0, 0x100, 16, 4⟩
def paired (s : State) : State := s.modMtFac anMt 0 fun x => { x with mode := some aMode }
theorem witness_pair : let s := paired (here act0)
    tile0.pair = anMt ∧ s.mtMode tile0.pair 0 = some aMode ∧ (120 : Word).toNat % 8 = 0 ∧ (120 : Word).toNat + 8 ≤ 8 * aMode.msize ∧
    aMode.mbase + aMode.msize ≤ 0x20000 ∧ s.reqs = [] ∧ act0.stores = [] ∧ (∀ d, (s.die d).bw = []) ∧
    (List.range 8).all (fun i => !s.mem.isPoison (mtBase tile0.pair + 8 * aMode.mbase + 120 + i)) = true ∧
    s.rdScalar tile0 act0 (.g 1) = .ok (0, act0) ∧ s.mem.bad = [] ∧ s.nullData tile0 act0 ⟨always, .g 3, .g 1, .g 0, .d, .act, 0⟩ = false ∧
    s.rdStoreData tile0 act0 ⟨always, .g 0, .g 1, .g 2, .d, .act, 0⟩ = .ok (0, act0) := by decide +kernel
/-- The bank of the area's first word, free and in use; a load to each class of destination. -/
theorem witness_pair_turn : let pa := mtBase tile0.pair + 8 * aMode.mbase
    let s := paired (here act0); let q := s.newReq tile0 act0 0 0 pa 8 .act pairLeaf
    (accessOf q.words).all (s.turns.free (portTurn tile0 255)) = true ∧
    (accessOf q.words).all (({ s with turns := s.turns.take 1 (accessOf q.words) } : State).turns.free (portTurn tile0 255)) = false ∧
    ∀ d ∈ [Spec.g 63, .p 7, .v 31, .outp 15], ((act0.deliverLoad d 0xFFFF 9 false 0).toOption.isSome = true) := by decide +kernel

/-- Request 5 of the activation of tile (0, 0) has been answered with r. -/
def waits (truth : Bool) : Act := { act0 with wait := .reply 5 (.g 3) 0xFFFF truth }
def answered (form : Nat) (cas truth : Bool) (r : Reply) : State :=
  let s : State := { here (waits truth) with reqs := [{ aReq with form := form, cas := cas, stage := .replied r }], nextId := 6 }
  s.modFac tile0 0 fun fe => { fe with handlers := vset fe.handlers 0 { Handler.reset with entry := 0xF00000 } }
theorem answered_of (form : Nat) (cas truth : Bool) (r : Reply) :
    Answered (answered form cas truth r) tile0 (waits truth) 5 { aReq with form := form, cas := cas, stage := .replied r } (.g 3) 0xFFFF truth r :=
  ⟨rfl, rfl, ⟨_, _, _, rfl⟩, rfl, rfl⟩
/-- Plain and waiting loads, a tag query, consuming loads and both outcomes of an MCAS, poison, causes at either end, a refusal and a watch. -/
theorem witness_replies : (∃ q, Answered (answered 0 false false (.data 9 false)) tile0 (waits false) 5 q (.g 3) 0xFFFF false (.data 9 false) ∧ q.form = 0) ∧
    (∃ q, Answered (answered 2 false false (.data 9 false)) tile0 (waits false) 5 q (.g 3) 0xFFFF false (.data 9 false) ∧ q.form = 2) ∧
    (∃ q, Answered (answered 7 false true (.truth true)) tile0 (waits true) 5 q (.g 3) 0xFFFF true (.truth true) ∧ q.form = 7) ∧
    (∃ q, Answered (answered 3 false false (.data 9 false)) tile0 (waits false) 5 q (.g 3) 0xFFFF false (.data 9 false) ∧ q.form = 3) ∧
    (∃ q, Answered (answered 8 true false (.data 9 false)) tile0 (waits false) 5 q (.g 3) 0xFFFF false (.data 9 false) ∧ q.form = 8 ∧ q.cas = true ∧ 9 ≠ q.data) ∧
    (∃ q, Answered (answered 9 true false (.data 0 false)) tile0 (waits false) 5 q (.g 3) 0xFFFF false (.data 0 false) ∧ q.form = 9 ∧ 0 = q.data) ∧
    (∃ q, Answered (answered 0 false false (.data 9 true)) tile0 (waits false) 5 q (.g 3) 0xFFFF false (.data 9 true) ∧ q.form = 0) ∧
    (∃ q, Answered (answered 0 false false (.cause 511)) tile0 (waits false) 5 q (.g 3) 0xFFFF false (.cause 511) ∧ 511 < 512) ∧
    (∃ q, Answered (answered 2 false false .refused) tile0 (waits false) 5 q (.g 3) 0xFFFF false .refused ∧
      ((((answered 2 false false .refused).el tile0).fac 0).handlers.get 0).rexp = 15) ∧
    (∃ q, Answered (answered 2 false false (.wait 7)) tile0 (waits false) 5 q (.g 3) 0xFFFF false (.wait 7) ∧
      ((answered 2 false false (.wait 7)).el tile0).moors.length < 16) :=
  ⟨⟨_, answered_of .., rfl⟩, ⟨_, answered_of .., rfl⟩, ⟨_, answered_of .., rfl⟩, ⟨_, answered_of .., rfl⟩, ⟨_, answered_of .., rfl, rfl, by decide⟩,
    ⟨_, answered_of .., rfl, rfl⟩, ⟨_, answered_of .., rfl⟩, ⟨_, answered_of .., by decide⟩, ⟨_, answered_of .., by decide +kernel⟩,
    ⟨_, answered_of .., by decide +kernel⟩⟩
/-- A watch that is met, and a store that returns with a cause after its commit. -/
def late (form : Nat) (r : Reply) : State := { here act0 with reqs := [{ aReq with form := form, stage := .replied r }] }
theorem witness_late : (late 0xA (.truth true)).findReq 5 = some { aReq with form := 0xA, stage := .replied (.truth true) } ∧
    (late 0xA (.truth true)).waitPending 5 = false ∧ (late 1 (.cause 0x081)).findReq 5 = some { aReq with stage := .replied (.cause 0x081) } ∧
    ({ aReq with stage := .replied (.cause 0x081) } : Req).asks = false ∧ (late 1 (.cause 0x081)).waitPending 5 = false ∧ 0x081 < 512 ∧ 0 < 2048 ∧
    (late 0xA (.truth true)).locked tile0 0 = false ∧ (late 1 (.cause 0x081)).dropsReplies tile0 = false ∧
    (let s := (late 1 (.cause 0x081)).modRg 0 fun g => { g with geom := 0x84040000, rollback := some ⟨0, false, false⟩ }
     s.dropsReplies tile0 = true ∧ s.findReq 5 = some { aReq with stage := .replied (.cause 0x081) } ∧ s.waitPending 5 = false) := by
  decide +kernel

/-! Requests on their way -/

theorem witness_request_leaves : ((outstanding.el tile0).fac 0).outbound = [5] ∧ outstanding.findReq 5 = some aReq ∧ aReq.stage = .queued ∧
    outstanding.mayLeave tile0 0 aReq = true ∧ outstanding.locked tile0 0 = false := by decide +kernel
def onWay (q : Req) : State := { mapped (here act0) with reqs := [q], nextId := 6 }
def travel (form : Nat) : Req := { aReq with form := form, stage := .travelling }
theorem witness_breakwater : (onWay (travel 1)).findReq 5 = some (travel 1) ∧ (travel 1).region = some 0 ∧ (travel 1).bwClass = true ∧
    (onWay (travel 1)).inOrder (travel 1) = true ∧ (travel 1).confirm = false ∧ isHbm (travel 1).addr = true ∧
    (onWay (travel 1)).bwRoom 0 0 0 (travel 1).words.length = .ok := by decide +kernel
def atHomeB (s : State) (id : Nat) (q : Req) : Bool :=
  decide (s.findReq id = some q) && decide (q.stage = .travelling) && !q.bwClass && s.inOrder q && s.lockOk q && !s.regulates q && !s.behindOwn q &&
  !s.behindPending q && !s.behindParked q && (accessOf q.words).all (s.turns.free (reqTurn id)) &&
  !q.words.any (fun w => s.reexam.contains w) && !s.homeRefuses q && !s.behindHold q
theorem atHome_of {s : State} {id : Nat} {q : Req} (h : atHomeB s id q = true) : AtHome s id q := by
  simp only [atHomeB, Bool.and_eq_true, decide_eq_true_eq, Bool.not_eq_true'] at h
  obtain ⟨⟨⟨⟨⟨⟨⟨⟨⟨⟨⟨⟨h1, h2⟩, h3⟩, h4⟩, h5⟩, h6⟩, h7⟩, h8⟩, h9⟩, h10⟩, h11⟩, h12⟩, h13⟩ := h
  exact ⟨h1, h2, h3, h4, h5, h6, h7, h8, h9, h10, h11, h12, h13⟩
/-- The word of the request is full. -/
def full40 (s : State) : State := { s with mem := { Memory.empty with full := [8] } }
theorem witness_home_met : (∀ form ∈ [4, 6], AtHome (onWay (travel form)) 5 (travel form)) ∧
    (∀ form ∈ [0, 2, 5], AtHome (full40 (onWay (travel form))) 5 (travel form)) ∧
    (∀ form ∈ [4, 5, 6], (onWay (travel form)).needMet (travel form) = true ∧ (onWay (travel form)).homeRoom (travel form) = .ok) ∧
    (∀ form ∈ [0, 2], (full40 (onWay (travel form))).needMet (travel form) = true ∧ (full40 (onWay (travel form))).homeRoom (travel form) = .ok) ∧
    (onWay (travel 2)).mem.wf = true ∧ (full40 (onWay (travel 2))).mem.wf = true ∧ (travel 2).addr % 8 = 0 ∧ (travel 2).size = 8 ∧ (travel 2).overlay = [] ∧
    (onWay (travel 2)).mem.bad = [] ∧ (full40 (onWay (travel 2))).mem.bad = [] ∧ (travel 4).cover = 0xFF ∧ (∀ d, ((onWay (travel 2)).die d).bw = []) :=
  ⟨fun f h => atHome_of ((by decide +kernel : ∀ f ∈ [4, 6], atHomeB (onWay (travel f)) 5 (travel f) = true) f h),
    fun f h => atHome_of ((by decide +kernel : ∀ f ∈ [0, 2, 5], atHomeB (full40 (onWay (travel f))) 5 (travel f) = true) f h),
    by decide +kernel, by decide +kernel, by decide +kernel, by decide +kernel, by decide, by decide, by decide, by decide +kernel⟩
/-- A filling store that covers the low half of its word. -/
theorem witness_home_cover : AtHome (onWay { travel 4 with cover := 0x0F }) 5 { travel 4 with cover := 0x0F } ∧
    (onWay { travel 4 with cover := 0x0F }).needMet { travel 4 with cover := 0x0F } = true := ⟨atHome_of (by decide +kernel), by decide +kernel⟩
theorem witness_home_unmet : (∀ form ∈ [2, 3, 9], AtHome (onWay (travel form)) 5 (travel form)) ∧ AtHome (full40 (onWay (travel 4))) 5 (travel 4) ∧
    (∀ form ∈ [2, 3, 9], (onWay (travel form)).needMet (travel form) = false ∧ (onWay (travel form)).reqs.all (fun p => !p.deferred) = true ∧
      (travel form).src.isElem = true ∧ 5 < (onWay (travel form)).nextId) ∧ (full40 (onWay (travel 4))).needMet (travel 4) = false :=
  ⟨fun f h => atHome_of ((by decide +kernel : ∀ f ∈ [2, 3, 9], atHomeB (onWay (travel f)) 5 (travel f) = true) f h), atHome_of (by decide +kernel),
    by decide +kernel, by decide +kernel⟩
def defers (form : Nat) : Req := { aReq with form := form, stage := .slot }
/-- Requests under re-examination: a watch and a filling store whose need is met, and a filling store whose need is not. -/
def examined (q : Req) (isFull : Bool) : State := { (if isFull then full40 (onWay q) else onWay q) with reexam := [8] }
theorem witness_deferred : (∀ x ∈ [(0xA, true), (4, false)], let q := defers x.1; let s := examined q x.2
      s.mem.wf = true ∧ s.findReq 5 = some q ∧ q.deferred = true ∧ q.words.find? (fun w => s.reexam.contains w) = some 8 ∧
      (s.deferredOf 8).head?.map (·.id) = some 5 ∧ s.needMet q = true ∧
      s.homeRoom q = .ok ∧ s.behindHold q = false ∧ s.behindPending q = false ∧ s.mem.bad = [] ∧ q.confirm = false ∧ q.cover = 0xFF ∧
      q.stage = .slot ∧ (accessOf q.words).all (s.turns.free (reqTurn 5)) = true) ∧
    (examined (defers 4) true).needMet (defers 4) = false ∧
    (defers 4).arrived + (defers 4).budget * 1000 ≤ (examined (defers 4) false).homeTime (defers 4).addr ∧
    (examined { defers 4 with budget := 1 } false).homeTime 0x40 < 0 + 1 * 1000 := by decide +kernel

/-! Controllers and the ports of an MT -/

def anItem : LockItem := ⟨0, 0, 1, 0, 0, 0, 0, 0, 0, 0⟩
def region0 (f : Region → Region) : State := { State.reset.modRg 0 f with cycle := 64 }
theorem witness_lockstep : let s := region0 fun g => { g with lockPrim := [anItem] }
    (s.rg 0).lockPrim.find? (fun y => decide (y.cycle + 64 ≤ s.cycle)) = some anItem ∧ (s.rg 0).stop = false := by decide +kernel
/-- A request that waits at its regulator: with its allowance used up, and with just enough left. -/
def waitingReq : Req := { aReq with stage := .regulated }
def regulated (missing : Nat) : State :=
  { State.reset.modDie 0 (fun d => { d with regcfg := [(0, 1)], regCredit := [(0, missing)] }) with reqs := [waitingReq] }
theorem witness_regulator : (∀ missing ∈ [224000, 224001], let s := regulated missing
      (s.reqs.filter fun q => q.stage == .regulated && dieOfPa q.addr == 0).find? (fun q => q.cls == 0 &&
        !(s.reqs.filter fun q => q.stage == .regulated && dieOfPa q.addr == 0).any
          (fun p => decide (p.src.tile = q.src.tile) && decide (p.order < q.order))) = some waitingReq) ∧
    bit (regCfg ((regulated 0).die 0) 0) 0 = true ∧ max 256 (fld (regCfg ((regulated 0).die 0) 0) 22 20) * 1000 < 224001 + 32 * 2 ^ waitingReq.gl * 1000 ∧
    224000 + 32 * 2 ^ waitingReq.gl * 1000 ≤ max 256 (fld (regCfg ((regulated 0).die 0) 0) 22 20) * 1000 := by decide +kernel
theorem witness_mooring_format : let s := region0 fun g => { g with moor := 1 }
    bit (s.rg 0).moor 0 = true ∧ bit (s.rg 0).moor 1 = false := by decide +kernel

/-- An MT with a FIFO or a line buffer of 16 words, a token on mi5, and the words of tags given; its pointers at the last word. -/
def ported (mode : Nat) (k : Token) (full : List Nat) : State :=
  { (State.reset.modMtFac anMt 0 fun x => { x with mode := some { aMode with mode := mode }, wp := 15, rp := 15, inq := vset x.inq 5 [⟨k, 0, none⟩] }) with
    cycle := 1, mem := { Memory.empty with full := full } }
def lastWord : Nat := areaWord anMt aMode 15
theorem witness_fifo : (∀ b : Bool, let s := ported 1 (plainTok true) (if b then [lastWord] else [])
      s.mem.wf = true ∧ s.mtMode anMt 0 = some { aMode with mode := 1 } ∧ s.mtRuns anMt 0 = true ∧ s.mtLogRoom anMt 1 = .ok ∧
      bit ((s.mt anMt).fac 0).recording 5 = false ∧ s.mtHead anMt 0 5 = some (plainTok true) ∧ s.isHeld lastWord = false ∧ s.mtRoom anMt 5 = true ∧
      s.mem.isFull (8 * lastWord) = b ∧ s.mem.bad = [] ∧ 0 < aMode.msize ∧
      (accessOf [lastWord]).all (s.turns.free (portTurn anMt 0)) = true ∧ (accessOf [lastWord]).all (s.turns.free (portTurn anMt 4)) = true ∧
      (let z : State := { s with turns := s.turns.take 1 (accessOf [lastWord]) }
       (accessOf [lastWord]).all (z.turns.free (portTurn anMt 0)) = false ∧ (accessOf [lastWord]).all (z.turns.free (portTurn anMt 4)) = false ∧
       z.mtRuns anMt 0 = true ∧ z.mtLogRoom anMt 1 = .ok ∧ z.mtHead anMt 0 5 = some (plainTok true))) ∧
    (plainTok true).kind ≠ 1 ∧ (ported 1 ⟨0, 0x10⟩ []).mtHead anMt 0 5 = some ⟨0, 0x10⟩ ∧ (⟨0, 0x10⟩ : Token).kind = 1 := by decide +kernel
theorem witness_line : let s := ported 2 (plainTok true) []
    0 < aMode.bufw ∧ s.mtHead anMt 0 5 = some (plainTok true) ∧ 15 / aMode.bufw * aMode.bufw + aMode.bufw - 1 = 15 ∧ s.isHeld lastWord = false ∧
    s.mem.isFull (8 * lastWord) = false ∧ (ported 2 ⟨0, 0x10⟩ []).mtHead anMt 0 5 = some ⟨0, 0x10⟩ ∧
    (accessOf [lastWord]).all (s.turns.free (portTurn anMt 0)) = true ∧
    (accessOf [lastWord]).all (({ s with turns := s.turns.take 1 (accessOf [lastWord]) } : State).turns.free (portTurn anMt 0)) = false := by decide +kernel

/-! The element's own steps -/

theorem witness_trapped : ∀ b : Bool, bit ((((State.reset.modFac tile0 0 fun fe => { fe with hstat := if b then 0x100 else 0 }).el tile0).fac 0)).hstat 8 = b := by
  decide +kernel
/-- Handlers 0 and 63 of facet 0, of priorities 3 and 7, are armed and run without a port. -/
def runnable : State :=
  let s := State.reset.modEl tile0 fun e => { e with fenable := 1 }
  let h (p : Nat) : Handler := { Handler.reset with entry := BitVec.ofNat 32 (2 * 2 ^ 15 + p * 2 ^ 17), arm := true }
  let s := s.modFac tile0 0 fun fe => { fe with handlers := vset (vset fe.handlers 0 (h 3)) 63 (h 7) }
  { s with cycle := 1 }
theorem witness_dispatch : tile0.isCT = true ∧ tile0.inFabric = true ∧ (runnable.el tile0).act = none ∧
    (runnable.el tile0).select (runnable.waiting tile0) = some ((0, 63), 7) ∧ (runnable.waiting tile0).length = 2 := by decide +kernel
theorem witness_stall_abort : let s := runnable.setAct tile0 { act0 with stalled := 64 }
    (s.el tile0).act = some { act0 with stalled := 64 } ∧ s.waiting tile0 ≠ [] ∧ ({ act0 with stalled := 63 } : Act).stalled < 64 ∧
    ({ act0 with stores := [.hold aReq] } : Act).holds = true := by decide +kernel
/-- A mark waits in the input queue behind the token that the activation has taken. -/
theorem witness_stall_mark : let a : Act := { act0 with stalled := 64, taken := vset act0.taken 0 1 }
    let s := (withTokens [plainTok true, markTok 0 1 1] a)
    (s.el tile0).act = some a ∧ s.anyMark tile0 = true ∧ s.waiting tile0 = [] := by decide +kernel
/-- A tide mark that its node has taken stands at the head of a back port of tile (0, 0) of region 0. -/
def aMark : Token := markTok 0 1 1
def marked : State :=
  let s := State.reset.modRg 0 fun g =>
    { g with geom := 0x84040000, tide := 0x20072, tideCfg := vset g.tideCfg 0 { TideCfg.none with backPorts := [(0, 1)] } }
  let s := s.setSw tile0 { Switchbox.reset with routes := vset Switchbox.reset.routes 0 [(32, 0x20)] }
  { s.modFac tile0 0 (fun fe => { fe with reach := 1, inq := vset fe.inq 0 [⟨aMark, 0, none⟩] }) with cycle := 1 }
theorem witness_mark_removal : (marked.el tile0).act = none ∧ marked.headMark tile0 0 0 = some aMark ∧ (marked.backPorts tile0 0).contains 0 = true ∧
    marked.hasTaken tile0 0 aMark = true := by decide +kernel
theorem witness_window_writes : ∀ reg ∈ [WinReg.actbase, .actlim, .isbase, .islim, .rmode, .masks],
    let s := State.reset.modFac tile0 0 fun fe => { fe with writes := [(reg, BitVec.allOnes 64)] }
    (((s.el tile0).fac 0).writes.contains (reg, BitVec.allOnes 64) = true) ∧ (s.el tile0).act = none ∧
    ((here act0).el tile0).act = some act0 ∧ act0.facet = 0 := by decide +kernel

/-! The fabric -/

/-- One token in output queue 0 of tile (0, 0), which entry e selects. -/
def routed (e : Nat) : State :=
  let s := State.reset.setSw tile0 { Switchbox.reset with routes := vset Switchbox.reset.routes 0 [(e, 0x60)] }
  { s.modEl tile0 (fun x => { x with outq := vset x.outq 0 [⟨plainTok true, 0, []⟩] }) with cycle := 1 }
theorem witness_route_track : let s := routed 8
    s.places = [.outq tile0 0] ∧ s.tileFrozen tile0 = false ∧ s.outq tile0 0 = [⟨plainTok true, 0, []⟩] ∧ 0 < s.cycle ∧ s.hasMoved (.outq tile0 0) = false ∧
    (s.sw tile0).users (s.effFacet tile0 (plainTok true)) 0 48 0x20 = [8] ∧ crosses tile0 8 = false ∧
    0 < (s.sw tile0).slots (s.effFacet tile0 (plainTok true)) 8 ∧ s.hop tile0 8 = Hop.empty ∧
    (∀ g, g ≠ s.effFacet tile0 (plainTok true) → (s.sw tile0).sel g 8 = 0x3F) := by decide +kernel
theorem witness_route_port : let s := routed 47
    s.places = [.outq tile0 0] ∧ (s.sw tile0).users (s.effFacet tile0 (plainTok true)) 0 48 0x20 = [47] ∧ 47 = 32 + (15 : Fin 16).val ∧
    s.inq tile0 0 15 = [] := by decide +kernel
def edgeTile : Tile := ⟨15, 0⟩
def onLink (c : Nat) : State :=
  { State.reset.setSw edgeTile { Switchbox.reset with hops := [(8, { Hop.empty with flight := [⟨plainTok true, 7, none⟩], returning := [7] })] } with cycle := c }
theorem witness_boundary : (∀ c ∈ [6, 7], ((onLink c).hop edgeTile 8).flight = [⟨plainTok true, 7, none⟩] ∧ ((onLink c).hop edgeTile 8).returning = [7] ∧
    (onLink c).tileFrozen (offersAt edgeTile 8) = false) ∧ (onLink 6).cycle < 7 ∧ 7 ≤ (onLink 7).cycle := by decide +kernel
/-- A token on row bus 31 of die 7 that no tile takes, and one that tile (127, 31) takes into port 15. -/
def corner : Tile := ⟨127, 31⟩
def onBus (bid : Byte) (c : Nat) : State :=
  let s := State.reset.setSw corner { Switchbox.reset with routes := vset Switchbox.reset.routes 0 [(47, 0x30)] }
  { s.modDie 7 (fun d => { d with rowBus := [(31, [⟨plainTok true, bid, 0xFF, 5, none⟩])] }) with cycle := c }
theorem witness_bus : (∀ x ∈ [(0xFF, 6), (0xFF, 7), (0x7F, 7)], let s := onBus x.1 x.2
      s.busQueue 7 (.row 31) = [⟨plainTok true, x.1, 0xFF, 5, none⟩] ∧ risingKeys (s.die 7).rowBus = true ∧ risingKeys (s.die 7).colBus = true) ∧
    (onBus 0xFF 6).turns.used.contains (busTurn 7 (.row 31)) = false ∧ (onBus 0x7F 7).turns.used.contains (busTurn 7 (.row 31)) = false ∧
    ({ onBus 0xFF 7 with turns := ⟨[busTurn 7 (.row 31)], [], []⟩ } : State).turns.used.contains (busTurn 7 (.row 31)) = true ∧
    (onBus 0xFF 6).cycle < 5 + 2 ∧ 5 + 2 ≤ (onBus 0xFF 7).cycle ∧
    (busTiles 7 (.row 31)).filter ((onBus 0xFF 7).busTakes (.row 31) ⟨plainTok true, 0xFF, 0xFF, 5, none⟩) = [] ∧
    (busTiles 7 (.row 31)).filter ((onBus 0x7F 7).busTakes (.row 31) ⟨plainTok true, 0x7F, 0xFF, 5, none⟩) = [corner] ∧
    (onBus 0x7F 7).tileFrozen corner = false ∧
    ((onBus 0x7F 7).sw corner).users ((onBus 0x7F 7).effFacet corner (plainTok true)) 32 16 0x30 = [47] ∧ (onBus 0x7F 7).inq corner 0 15 = [] := by
  decide +kernel
/-- Region 0 has a site at the west edge of its corner, track 0, on port 63; port i0 of facet 0 selects the track. -/
def siteWord : Word := 0x23000
def sited (f : Region → Region) : State :=
  let s := State.reset.modRg 0 fun g => f
    { g with geom := 0x84040000, ctl := 0xF11, ing := [(63, siteWord)], credit := [(63, 1024)], seeds := [(63, [plainTok true])], seedTurn := [(63, true)] }
  let s := (s.setSw tile0 { Switchbox.reset with routes := vset Switchbox.reset.routes 0 [(32, 0x18)] })
  let s := s.setSw ⟨2, 0⟩ { Switchbox.reset with routes := vset Switchbox.reset.routes 0 [(32, 0x18)] }
  { s with cycle := 64 }
theorem witness_site : let s := sited id; let g := s.rg 0; let w := g.ingOf 63; let t := siteTile w; let f := g.stampOf w
    siteEn w = true ∧ s.regionOf t = some 0 ∧ t.isCT = true ∧ s.halted 0 = false ∧ s.tileFrozen t = false ∧ s.hasMoved (.site 0 63) = false ∧
    s.loadStops 0 63 f = false ∧ g.en = true ∧ g.tides = false ∧ g.saveStops f = false ∧
    g.cutStops f = false ∧ g.floaded f = true ∧ 1024 ≤ tget g.credit 63 0 ∧ (g.tideCfg.get f).lock = false ∧ tget g.replay 63 [] = [] ∧
    tget g.siteMarks 63 [] = [] ∧ tget g.upcallQ 63 [] = [] ∧ tget g.seeds 63 [] = [plainTok true] ∧ tget g.seedTurn 63 false = true ∧
    (∀ d, (s.die d).bw = []) ∧ (plainTok true).isMark = false ∧ (s.sw t).users f 0 48 (siteTrack w) = [32] ∧ s.inq t f 0 = [] ∧
    siteEn (g.ingOf 62) = false := by decide +kernel
theorem witness_delay_line : let s := sited fun g => { g with delay := [(63, [⟨plainTok true, 64, none⟩])] }
    let w := (s.rg 0).ingOf 63; let m : Tile := ⟨(siteTile w).x + 2, (siteTile w).y⟩
    tget (s.rg 0).delay 63 [] = [⟨plainTok true, 64, none⟩] ∧ 64 ≤ s.cycle ∧ ({ s with cycle := 63 } : State).cycle < 64 ∧ s.halted 0 = false ∧ s.tileFrozen m = false ∧ s.inq m 0 0 = [] ∧
    (s.sw m).users (s.effFacet m (plainTok true)) 0 48 (siteTrack w) = [32] ∧ tget (s.rg 0).delay 62 [] = [] := by decide +kernel

/-! Regions -/

theorem witness_geometry : let s := sited id; let g := s.rg 0
    g.lbusy = false ∧ ((sited fun g => { g with lqstat := 0x40 }).rg 0).lbusy = true ∧ bit (0x3F000000 : Word) 31 = false ∧
    geomOk 0x84080000 = true ∧ s.geomFree 0 0x84080000 = true ∧ geomOk 0x80040000 = false ∧ s.geomFree 1 0x84040000 = false ∧ geomOk 0x84040000 = true ∧
    g.valid = true ∧ g.spareFacet = true ∧ g.sitesOn 0x84080000 = true ∧ (State.reset.rg 0).valid = false ∧ g.sitesOn 0x84040004 = false := by
  decide +kernel
theorem witness_resize : let g := ((sited fun g => { g with resize := some 1, new_ := 0x84080000 }).rg 0)
    g.resize = some 1 ∧ bit g.new_ 31 = true ∧ g.ifac ≠ 1 ∧ g.fquiet 1 = true := by decide +kernel
theorem witness_ports : let s := sited id
    s.portRefused 0 .egress 62 (0x80000 : Word) = true ∧ s.portRefused 0 .ingress 62 siteWord = true ∧ s.portRefused 0 .ingress 63 siteWord = false ∧ s.portRefused 0 .egress 63 siteWord = false ∧
    siteEn siteWord = true ∧ siteEn (((State.reset.modRg 0 fun g => { g with geom := 0x84040000 }).rg 0).ingOf 63) = false ∧
    (State.reset.modRg 0 fun g => { g with geom := 0x84040000 }).portRefused 0 .ingress 63 siteWord = false ∧
    s.rateMax 0 63 < (1025 : BitVec 11).toNat ∧ (1024 : BitVec 11).toNat ≤ s.rateMax 0 63 := by decide +kernel
theorem witness_quiet : let s := sited fun g => { g with ctl := 0xE01 }
    (s.rg 0).fquiet 0 = false ∧ 32 ≤ (s.rg 0).quiet.get 0 ∧ s.quietNow 0 0 = true ∧
    ((sited fun g => { g with ctl := 0xE01, quiet := vset g.quiet 0 31 }).rg 0).quiet.get 0 < 32 := by decide +kernel
/-- The schedule runs, and its head entry names facet f at device time 0. -/
def swapping (f : Word) : State := sited fun g => { g with ctl := 0x40F31, swapfc := [(0, 0x80 ||| f)] }
theorem witness_swap_loaded : let s := swapping 1; let g := s.rg 0
    s.swapDue 0 = [0] ∧ g.dies.all (fun d => (g.swapped ++ s.swapDue 0).contains d) = true ∧ g.swapFac ≠ g.ifac ∧ g.floaded g.swapFac = true := by
  decide +kernel
theorem witness_swap_refused : let s := swapping 2; let g := s.rg 0
    s.swapDue 0 ≠ [] ∧ g.swapFac ≠ g.ifac ∧ g.floaded g.swapFac = false ∧ (sited id).swapDue 0 = [] := by decide +kernel
/-- A descriptor for facet 0 with ACT 01 and an image at virtual address 0. -/
def aDesc : BitVec 512 := BitVec.ofNat 512 (2 ^ 137)
theorem witness_door_writes : (let good (w : DoorWrite) (e : BitVec 512) : Bool := w.bytes == 64 && w.off % 64 == 0 && !descBad e
     good ⟨0, 64⟩ aDesc = true ∧ good ⟨4032, 64⟩ aDesc = true ∧ good ⟨0, 32⟩ aDesc = false ∧ good ⟨8, 64⟩ aDesc = false ∧ good ⟨0, 64⟩ 1 = false) ∧
    ((sited fun g => { g with queue := [aDesc] }).rg 0).queue.length ≤ 8 := by decide +kernel
theorem witness_doorbells : descBad (1 : BitVec 512) = true ∧ descBad aDesc = false ∧
    ((sited fun g => { g with queue := List.replicate 7 aDesc }).rg 0).queue.length < 8 ∧
    8 ≤ ((sited fun g => { g with queue := List.replicate 8 aDesc }).rg 0).queue.length ∧
    bit (0xF : Word) 3 = true ∧ ((sited fun g => { g with queue := List.replicate 8 aDesc }).rg 0).queue[fld (0xF : Word) 0 3]? = some aDesc ∧
    ((sited id).rg 0).load = none ∧ bit (7 : Word) 3 = false ∧ fld (0x20 : Word) 4 2 = 2 ∧ fld (0x30 : Word) 4 2 ≠ 2 ∧
    (tget ((sited fun g => { g with seeds := [(0, List.replicate 15 aMark)] }).rg 0).seeds 0 []).length < 16 ∧
    descCwva (BitVec.ofNat 512 (2 ^ 195)) ≠ 0 := by decide +kernel
/-- Route frames for a free tile: one entry, and the CID and RID; and a frame that is refused. -/
def routeFrame : BitVec 256 := BitVec.ofNat 256 (3 * 2 ^ 252 + 1 * 2 ^ 216 + 0x003F)
def idFrame : BitVec 256 := BitVec.ofNat 256 (3 * 2 ^ 252 + 1 * 2 ^ 236 + 0x1234)
def freew (k : BitVec 256) : State := State.reset.modDie 0 fun d => { d with freew := some k }
theorem witness_freew_routes : let s := freew routeFrame
    (s.die 0).freew = some routeFrame ∧ (s.die 0).loader = none ∧ s.nextLoad 0 = none ∧ s.freewOk 0 routeFrame = true ∧
    risingKeys ((s.sw (freeTile 0 routeFrame)).routes.get 0) = true ∧ frUnit routeFrame = 0 ∧ frN routeFrame = 1 := by decide +kernel
theorem witness_freew_ids : let s := freew idFrame
    s.nextLoad 0 = none ∧ s.freewOk 0 idFrame = true ∧ risingKeys ((s.sw (freeTile 0 idFrame)).routes.get 0) = true ∧ frUnit idFrame = 1 := by
  decide +kernel
theorem witness_freew_refused : (freew 0).freewOk 0 0 = false ∧ (freew 0).nextLoad 0 = none ∧
    ((State.reset.modDie 0 fun d => { d with freew := some 0, loader := some 31 }).die 0).loader ≠ none ∧
    ((freew 0).die 0).tookAt ≠ (freew 0).cycle + 1 ∧ ((freew routeFrame).die 0).tookAt ≠ (freew routeFrame).cycle + 1 ∧
    ((freew idFrame).die 0).tookAt ≠ (freew idFrame).cycle + 1 ∧
    (let s := State.reset.modDie 0 fun d => { d with freew := some 0, tookAt := 1 }
     (s.die 0).freew = some 0 ∧ (s.die 0).tookAt = s.cycle + 1) := by decide +kernel

/-! Loads -/

/-- A queue of two entries for facet 0, an image at address 0, and a page table that maps the first 2^26 bytes: root 0x10000, then 0x12000, 0x14000. -/
def booted (s : State) : State := { s with modul := { s.modul with bootstat := 0x100 } }
def urgent : BitVec 512 := BitVec.ofNat 512 (2 ^ 137 + 5 * 2 ^ 128)
def queued (f : Region → Region) : State := booted (sited fun g => f { g with queue := [aDesc, urgent], ctl := 0xF01 })
theorem witness_select : ((queued id).rg 0).choose = some (urgent, 1) ∧ ((queued id).rg 0).entryFacet urgent = some 0 ∧ ((queued id).rg 0).valid = true ∧
    (queued id).ldrok = true ∧ ((queued id).rg 0).load = none ∧ (∀ q ∈ (queued id).reqs, q.stage ≠ .listed) ∧
    tile0 ∈ ((queued id).rg 0).tiles ∧ anMt ∈ ((queued id).rg 0).tiles := by decide +kernel
def aLoad (started : Bool) (ph : LoadPhase) : Load := ⟨urgent, 1, 0, [⟨0, started, [], false⟩], ph, false⟩
def loading (started : Bool) (ph : LoadPhase) : State := queued fun g => { g with load := some (aLoad started ph), trr := 1 ||| 0x10000 }
theorem witness_load_start : ((loading false .frames).rg 0).load = some (aLoad false .frames) ∧
    (aLoad false .frames).ofDie 0 = some ⟨0, false, [], false⟩ ∧ ((loading false .frames).die 0).loader = none ∧
    (loading false .frames).nextLoad 0 = some 0 := by decide +kernel
/-- The die's loader serves the load, and the image is refused: no table maps it. -/
theorem witness_load_refused : let s := (loading true .frames).modDie 0 fun d => { d with loader := some 0 }
    (s.rg 0).load = some (aLoad true .frames) ∧ (s.die 0).loader = some 0 ∧
    s.readImage 0 (descImg urgent + 32 * 0) = .refused 12 ∧ 12 < 32 ∧ (s.rg 0).fquiet 0 = true ∧ (s.die 0).tookAt ≠ s.cycle + 1 := by decide +kernel
/-- The facet is not quiet, and the loader has taken a frame in this cycle. -/
theorem witness_load_idles : let s := (loading true .frames).modDie 0 fun d => { d with loader := some 0, tookAt := 65 }
    (s.die 0).tookAt = s.cycle + 1 ∧ (s.rg 0).load = some (aLoad true .frames) ∧
    ((s.modRg 0 fun g => { g with ctl := 0xE01 }).rg 0).fquiet (aLoad true .frames).facet = false := by decide +kernel
/-- The root at 0x10000 names the node at 0x12000, whose entry 0 is the word given; a header frame of a 4 by 4 image of 2 frames stands at byte 0. -/
def tabled (leaf : BitVec 16) (s : State) : State :=
  let header : List Host.Cell := [(0, 0x9C), (1, 0x7E), (2, 1), (4, 4), (5, 4), (8, 2), (31, 0x80)]
  let table : List Host.Cell := [(0x10000, 1), (0x10001, 0x20), (0x10002, 1)]
  { s with mem := { Memory.empty with cells := header ++ table ++
      ([(0x12000, leaf.setWidth 8), (0x12001, leaf.extractLsb' 8 8)] : List Host.Cell).filter fun x => x.2 != 0 } }
def goodFrame : FrameRead → Bool
  | .frame k s => (s.frameErr (s.rg 0) 0 ⟨0, true, [], false⟩ k).isNone
  | _ => false
def mustWait : FrameRead → Bool
  | .wait => true
  | _ => false
theorem witness_load_frame : let s := tabled 0x273 ((loading true .frames).modDie 0 fun d => { d with loader := some 0 })
    s.mem.wf = true ∧ goodFrame (s.readImage 0 (descImg urgent)) = true := by decide +kernel
theorem witness_load_waits : mustWait ((tabled 0x277 (loading true .frames)).readImage 0 (descImg urgent)) = true := by decide +kernel
theorem witness_wave : let s := loading true (.wave 63); let g := s.rg 0
    g.load = some (aLoad true (.wave 63)) ∧ g.tides = false ∧ 0 < fld g.target 16 8 ∧ 3 < fld g.target 16 8 ∧ s.cycle = 63 + 1 + s.waveDelay g 0 ∧
    s.cycle ≠ 63 + 1 + s.waveDelay g 3 ∧ s.cycle < 63 + 2 + s.waveDelay g (fld g.target 16 8 - 1) ∧
    59 + 2 + s.waveDelay g (fld g.target 16 8 - 1) ≤ s.cycle ∧ (aLoad true (.wave 63)).restore = false := by decide +kernel
theorem witness_load_act : descAct urgent ≠ 0 ∧ descAct urgent ≠ 2 ∧ descAct (0 : BitVec 512) = 0 ∧ descAct (BitVec.ofNat 512 (2 ^ 138)) = 2 ∧
    descCwva (0 : BitVec 512) = 0 := by decide +kernel
/-- A completion word that is due, at a word of the mapped page. -/
def aCw : CwStore := ⟨0x40, 0x105, 0, 64, none⟩
def storing : State := tabled 0x273 (queued fun g => { g with cw := [aCw], trr := 1 ||| 0x10000 })
/-- The word's walk meets MLOCK; it has been held since device time 0. -/
def holding (held : Option Nat) (time : Nat) : State :=
  (tabled 0x277 (queued fun g => { g with cw := [{ aCw with held := held }], trr := 1 ||| 0x10000 })).modDie 0 fun d => { d with time := time }
theorem witness_completion_word_held : (holding none 0).mem.wf = true ∧ (holding none 0).walk 0 (aCw.va % 2 ^ 56) = .hold ∧
    ((holding none 0).rg 0).cw = [aCw] ∧ aCw.due ≤ (holding none 0).cycle ∧ aCw.held = none ∧
    (∀ time ∈ [1023999, 1024000], ((holding (some 0) time).rg 0).cw = [{ aCw with held := some 0 }] ∧
      ((holding (some 0) time).die ((holding (some 0) time).rg 0).corner.die).time = time) ∧ (holding (some 0) 1024000).mem.wf = true ∧
    (holding (some 0) 1023999).mem.wf = true := by decide +kernel
theorem witness_completion_word : storing.mem.wf = true ∧ (storing.rg 0).cw = [aCw] ∧ aCw.due ≤ storing.cycle ∧ aCw.va < 2 ^ 56 ∧
    storing.walk 0 (aCw.va % 2 ^ 56) = .leaf ⟨0, 0, 36, 0x273⟩ ∧ permOk 0x273 6 = true ∧ formRefusal 5 0x40 0x273 = none ∧ isHbm 0x40 = true ∧
    storing.isHeld (0x40 / 8) = false ∧ 63 < aCw.due ∧ aCw.held = none ∧ storing.mem.bad = [] := by decide +kernel

/-! Engines -/

theorem witness_engine_tokens : Passes (here act0) tile0 act0 always [.g 1, .imm 63] (some 15) ∧ (here act0).rdScalar tile0 act0 (.g 1) = .ok (0, act0) ∧
    (here act0).rdScalar tile0 act0 (.imm 63) = .ok (BitVec.allOnes 64, act0) ∧ CanSend act0 (.outp 15) :=
  ⟨passes_of (by decide +kernel), rfl, by decide +kernel, canSend_of (by decide +kernel)⟩
/-- A command token with an opcode, a modifier and the low bits of a and b. -/
def cmdTok (op m av bv : Nat) : Token := mkTok 0 0 false false false false (op + m * 2 ^ 8 + av * 2 ^ 26 + bv * 2 ^ 58)
/-- The MT's area has 16 words; generator 0 walks 4 words of 8 bytes of it, generator 1 is a wide accumulator's walk; the token waits at port p. -/
def aGen : Gen :=
  { Gen.reset with cfg := ⟨#[some (BitVec.ofNat 192 (3 * 2 ^ 56 + 1 * 2 ^ 59 + 2 ^ 128)), some (BitVec.ofNat 192 (4 + 8 * 2 ^ 24)), none], rfl⟩ }
def accGen : Gen :=
  { Gen.reset with cfg := ⟨#[some (BitVec.ofNat 192 (6 * 2 ^ 56 + 1 * 2 ^ 59 + 2 ^ 128)), some (BitVec.ofNat 192 (2 + 64 * 2 ^ 24)), none], rfl⟩ }
def engined (p : Fin 16) (k : Token) : State :=
  { (State.reset.modMtFac anMt 0 fun x =>
      { x with mode := some aMode, gens := vset (vset x.gens 0 aGen) 1 accGen, inq := vset x.inq p [⟨k, 0, none⟩] }) with cycle := 1, nextId := 6 }
theorem takes_of {s : State} {k : Token} (h : (decide (s.commandTurn anMt = some 0) && decide (s.mtHead anMt 0 4 = some k) &&
    !bit ((s.mt anMt).fac 0).recording 4) = true) : Takes s anMt 0 k := by
  simp only [Bool.and_eq_true, decide_eq_true_eq, Bool.not_eq_true'] at h
  exact ⟨h.1.1, h.1.2, h.2⟩
theorem witness_takes_copy : Takes (engined 4 (cmdTok 0xB0 8 0 0x3F)) anMt 0 (cmdTok 0xB0 8 0 0x3F) ∧ isCommand 0xB0 (cmdTok 0xB0 8 0 0x3F) = true ∧
    fld (cmdTok 0xB0 8 0 0x3F).payload 63 1 = 1 ∧ (engined 4 (cmdTok 0xB0 8 0 0x3F)).node anMt 31 = DepNode.free ∧
    isCommand 0xB0 (cmdTok 0xB0 8 0 0) = true ∧ fld (cmdTok 0xB0 8 0 0).payload 63 1 = 0 :=
  ⟨takes_of (by decide +kernel), by decide +kernel, by decide +kernel, by decide +kernel, by decide +kernel, by decide +kernel⟩
theorem witness_takes_others : isCommand 0xB1 (cmdTok 0xB1 8 0 0) = true ∧ isCommand 0xB2 (cmdTok 0xB2 8 0 0) = true ∧
    isCommand 0xB3 (cmdTok 0xB3 8 0 0) = true ∧ isCommand 0xB4 (cmdTok 0xB4 0 0 0) = true ∧ isCommand 0xB5 (cmdTok 0xB5 0 0 0) = true ∧
    isCommand 0xB6 (cmdTok 0xB6 0 0 0) = true ∧ malformed (cmdTok 0xAF 0 0 0) = true ∧ (cmdTok 0xAF 0 0 0).kind ≠ 1 ∧
    isCommand 0xB7 (cmdTok 0xB7 3 0 0) = true ∧ isCommand 0xB7 (cmdTok 0xB7 0 0 0) = true ∧ isCommand 0xB8 (cmdTok 0xB8 4 0 0) = true ∧
    isCommand 0xB8 (cmdTok 0xB8 8 0 0) = true ∧ isCommand 0xB9 (cmdTok 0xB9 1 0x7FFF 31) = true ∧ isCommand 0xBA (cmdTok 0xBA 0 0x7FFF 31) = true := by
  decide +kernel
/-- Each of the commands that act in the next cycle is taken, while another of its kind does not wait in the stage. -/
theorem witness_takes_quick : ∀ k ∈ [cmdTok 0xB7 0 0 0, cmdTok 0xB8 4 0 0, cmdTok 0xB9 1 0x7FFF 31, cmdTok 0xBA 0 0x7FFF 31, cmdTok 0xBB 1 1 0],
    let s := engined 4 k
    s.commandTurn anMt = some 0 ∧ s.mtHead anMt 0 4 = some k ∧ bit ((s.mt anMt).fac 0).recording 4 = false ∧ ((s.mt anMt).fac 0).quick = [] := by
  decide +kernel
/-- The token k was taken in the cycle before. -/
def quickly (k : Token) : State := (engined 0 ⟨0, 0⟩).modMtFac anMt 0 fun x => { x with quick := [k] }
theorem witness_quick_wcvt : let k := cmdTok 0xBB 1 1 0; let s := quickly k; let g := s.gen anMt 0 1
    ((s.mt anMt).fac 0).quick = [k] ∧ s.mtRuns anMt 0 = true ∧ isCommand 0xBB k = true ∧ s.locked anMt 0 = false ∧
    s.wcvtPass anMt 0 (newCmd 6 k none) = true ∧ s.nextId = 6 ∧ g.paused = false ∧
    s.genAt anMt 0 g (g.off 1) (formPerm 0) 0 = .here (mtBase anMt + 8 * aMode.mbase + 64) pairLeaf ∧ accPage g pairLeaf = true ∧
    (quickly (cmdTok 0xBB 0 1 0)).wcvtPass anMt 0 (newCmd 6 (cmdTok 0xBB 0 1 0) none) = false := by decide +kernel
theorem witness_quick_queries : let s := quickly (cmdTok 0xB8 4 0 0)
    (s.gen anMt 0 0).configured = true ∧ (s.gen anMt 0 0).haspar = false ∧ s.cmdOn anMt 0 0 = none ∧ (s.gen anMt 0 3).configured = false ∧
    fld (cmdTok 0xB8 4 0 0).payload 10 2 = 1 ∧ fld (cmdTok 0xB8 8 0 0).payload 10 2 = 2 ∧ s.mtRuns anMt 0 = true := by decide +kernel
def otherNode : DepNode := { DepNode.free with count := 1, owner := some 1 }
theorem witness_quick_nodes : let s := (quickly (cmdTok 0xBA 0 0x7FFF 31)).setNode anMt 31 otherNode
    (s.node anMt 31).foreign 0 = true ∧ (s.node anMt 30).foreign 0 = false ∧ s.node anMt 30 = DepNode.free ∧
    -32768 ≤ (s.node anMt 30).count - 32767 ∧ (s.node anMt 30).count - 32767 ≤ 32767 := by decide +kernel
theorem witness_takes_null : Takes (engined 4 ⟨0, 0x18⟩) anMt 0 ⟨0, 0x18⟩ ∧ (⟨0, 0x18⟩ : Token).kind = 1 := ⟨takes_of (by decide +kernel), by decide +kernel⟩

/-! Translation -/

/-- A walk of region 0 for the activation of tile (0, 0), over the table of tabled. -/
def aWalk (held result : Option Nat) : Walk := ⟨7, 0, 0, 0, 0x40, 1, .elem tile0, result, held⟩
def walking (leaf : BitVec 16) (held : Option Nat) (time : Nat) : State :=
  let a : Act := { act0 with wait := .walk 7 }
  let s := State.setAct { State.reset with walks := [aWalk held none] } tile0 a
  tabled leaf ((s.modRg 0 fun g => { g with geom := 0x84040000, trr := 0x10001 }).modDie 0 fun d => { d with time := time })
theorem witness_walk_found : let s := walking 0x273 none 0
    s.walks.find? (fun w => w.id == 7) = some (aWalk none none) ∧ (s.el tile0).act = some { act0 with wait := .walk 7 } ∧ s.walkWanted (aWalk none none) = true ∧
    (s.rg 0).rollback = none ∧ (s.rg 0).stop = false ∧ s.mem.bad = [] ∧ s.commitDue 0 = none := by decide +kernel
theorem witness_walk_leaf : (walking 0x273 none 0).walk 0 0x40 = .leaf ⟨0, 0, 36, 0x273⟩ ∧ permOk 0x273 1 = true := by decide +kernel
theorem witness_walk_refused : (walking 0x203 none 0).walk 0 0x40 = .leaf ⟨0, 0, 36, 0x203⟩ ∧ permOk 0x203 1 = false ∧
    (walking 0x002 none 0).walk 0 0x40 = .refuse causeUnmapped ∧ causeUnmapped < 512 := by decide +kernel
theorem witness_walk_holds : (walking 0x277 none 0).walk 0 0x40 = .hold := by decide +kernel
theorem witness_walk_faults : (walking 0x00A none 0).walk 0 0x40 = .major 0 36 ∧ (walking 0x00A none 0).commitDue 0 = none ∧
    (walking 0x00A none 0).walkWanted (aWalk none none) = true := by decide +kernel
theorem witness_walk_timeout : ∀ time ∈ [1023999, 1024000], let s := walking 0x277 (some 0) time
    s.walks.find? (fun w => w.id == 7) = some (aWalk (some 0) none) ∧ s.walkWanted (aWalk (some 0) none) = true ∧ (s.die 0).time = time ∧
    s.mem.bad = [] ∧ s.commitDue 0 = none ∧ (s.rg 0).rollback = none ∧ (s.rg 0).stop = false := by decide +kernel
theorem witness_die_commands : bit ((State.reset.modDie 0 fun d => { d with trcmd := 8 }).die 0).trcmd 3 = true ∧ bit (State.reset.die 0).trcmd 3 = false ∧
    bit (4 : Word) 2 = true ∧ fld (4 : Word) 0 2 = 0 ∧ fld (0x2800000000000004 : Word) 56 6 ≤ 40 ∧ fld (5 : Word) 0 2 = 1 ∧ fld (6 : Word) 0 2 = 2 ∧
    (0 : DieId) ∈ trDies 7 0x36 ∧ (walking 0x277 (some 0) 1).heldEarlier (aWalk (some 0) none) = true ∧ bit (0x36 : Word) 5 = true ∧ fld (0x36 : Word) 0 2 = 2 := by
  decide +kernel
/-- A command that wakes the walks of the corner's die, of a region whose completion word is held; and one without completion words. -/
theorem witness_wake_words : let s := holding (some 0) 1
    (s.rg 0).cw = [{ aCw with held := some 0 }] ∧ (s.rg 0).corner.die ∈ trDies 7 0x36 ∧ 0 < (s.die (s.rg 0).corner.die).time ∧
    bit (s.die 7).trcmd 3 = false ∧ (∀ r, (State.reset.rg r).cw = []) := by decide +kernel
theorem witness_pin_and_cancel : bit (1 : Word) 0 = true ∧ bit (State.reset.die 0).mcpq 1 = false ∧
    bit ((State.reset.modDie 0 fun d => { d with mcpq := 2, mccan := 2 }).die 0).mcpq 1 = true ∧ bit (State.reset.die 0).mccan 1 = false ∧
    (examined (defers 4) true).pinned 0 = true ∧ (defers 4).deferred = true ∧ (defers 4).inPage 0 = true ∧
    ([] : List Req).any (fun q => q.deferred && q.inPage 0) = false ∧ (∀ q ∈ (examined (defers 4) true).reqs, q.stage ≠ .listed) := by decide +kernel
theorem witness_region_commands : fld (State.reset.rg 0).ctl 8 4 = 15 ∧
    fld ((sited fun g => { g with ctl := 0xE01 }).rg 0).ctl 8 4 ≠ 15 ∧ (State.reset.rg 0).pendcnt = 0 ∧
    ((State.reset.modRg 0 fun g => { g with pgr := 0x10000 }).rg 0).pendcnt ≠ 0 ∧ fld (State.reset.rg 0).mlen 24 24 = 0 ∧
    fld ((State.reset.modRg 0 fun g => { g with mlen := 0x1000000 }).rg 0).mlen 24 24 ≠ 0 := by decide +kernel

/-! Engines: commands at work -/

def aDone : Completion := ⟨0, plainTok true, .pair, [5]⟩
theorem witness_completion : let s := (engined 0 ⟨0, 0⟩).modMt anMt fun m => { m with pend4 := [aDone], pend6 := [aDone] }
    anMt.isCT = false ∧ anMt.inFabric = true ∧ s.tileHalted anMt = false ∧ (s.mt anMt).pend4 = [aDone] ∧ (s.mt anMt).pend6 = [aDone] ∧
    (∀ id ∈ aDone.reqs, s.performed id aDone.scope = true) ∧ s.mtRoom anMt 4 = true ∧ s.mtRoom anMt 6 = true := by decide +kernel
def coming : State := (engined 0 ⟨0, 0⟩).modGen anMt 0 3 fun g => { g with comingPermits := [(1, 2)], comingDones := [(2, 0, 3)] }
theorem witness_arrivals : (coming.gen anMt 0 3).comingPermits = [(1, 2)] ∧ 1 ≤ coming.cycle ∧ (coming.gen anMt 0 3).comingDones = [(2, 0, 3)] ∧
    coming.cycle < 2 ∧ coming.tileHalted anMt = false := by decide +kernel
def armed (parked : Option Token) (failed compute : Bool) : State :=
  (engined 0 ⟨0, 0⟩).setNode anMt 31 ⟨0, true, compute, failed, parked, some 3⟩
theorem witness_launch_parked : let s := armed (some (cmdTok 0xB1 8 0 0x3F)) false false; let n := s.node anMt 31
    n.armed = true ∧ n.count = 0 ∧ s.mtRuns anMt (n.owner.getD 0) = true ∧ n.parked = some (cmdTok 0xB1 8 0 0x3F) ∧ n.failed = false ∧ n.compute = false := by
  decide +kernel
/-- A compute node that has failed, and one with a parked command. -/
theorem witness_launch_compute : (let n := (armed none true true).node anMt 31
      n.armed = true ∧ n.count = 0 ∧ (armed none true true).mtRuns anMt (n.owner.getD 0) = true ∧ n.parked = none ∧ n.compute = true ∧ n.failed = true) ∧
    (let n := (armed (some (cmdTok 0xB1 8 0 0x3F)) false true).node anMt 31;
      n.armed = true ∧ n.count = 0 ∧ n.parked.isSome = true ∧ n.compute = true ∧ n.failed = false) := by decide +kernel
/-- A command of facet 0 of the MT, with number 5. -/
def aCmd (op m : Nat) : Cmd := { newCmd 5 (cmdTok op m 0 0) none with last := 4 }
def commanded (p : Fin 16) (l : List Token) (c : Cmd) : State :=
  (engined 0 ⟨0, 0⟩).modMtFac anMt 0 fun x =>
    { x with cmds := [c], inq := vset x.inq p (l.map fun k => ⟨k, 0, none⟩),
             gens := vmod x.gens 0 fun g => { g with run := if c.started then .running else .idle, outer := 4 } }
theorem witness_command_start : let s := commanded 0 [] (aCmd 0xB6 0)
    s.cmdAt anMt 0 0 = some (aCmd 0xB6 0) ∧ (aCmd 0xB6 0).started = false ∧ s.mtRuns anMt 0 = true ∧ s.gensFree anMt 0 (aCmd 0xB6 0) = true ∧
    s.sparseFree anMt (aCmd 0xB6 0) = true ∧ s.inBuffer anMt 0 0 = true ∧ s.startStatus anMt 0 (aCmd 0xB6 0) = 0 := by decide +kernel
theorem witness_command_start_fails : let s := commanded 0 [] (aCmd 0xB6 3)
    s.startStatus anMt 0 (aCmd 0xB6 3) ≠ 0 ∧ (∃ g ∈ (aCmd 0xB6 3).occupies, (s.gen anMt 0 g).configured = false) := by decide +kernel
/-- An AGSTART that reads, and one that writes. -/
def walker (write : Nat) (f : Cmd → Cmd) : Cmd := f { aCmd 0xB6 (4 * write) with started := true }
theorem walks_of {s : State} {c : Cmd} (h : (decide (s.cmdAt anMt 0 0 = some c) && c.started && s.mtRuns anMt 0 && (!c.done && decide (c.status = 0) &&
    !c.draining && decide (c.reqs = [])) && decide (c.op = 0xB6) && decide (c.m 3 2 ≠ 3) &&
    (decide ((s.gen anMt 0 (c.ag 0)).run ≠ .waiting) && !(s.gen anMt 0 (c.ag 0)).paused) && decide ((s.gen anMt 0 (c.ag 0)).spos < c.last) &&
    decide (¬((s.gen anMt 0 (c.ag 0)).spos % (s.gen anMt 0 (c.ag 0)).per = 0 ∧ (s.gen anMt 0 (c.ag 0)).outer ≤ c.iter (s.gen anMt 0 (c.ag 0))))) = true) :
    Walks s anMt 0 0 c := by
  simp only [Bool.and_eq_true, decide_eq_true_eq, Bool.not_eq_true'] at h
  obtain ⟨⟨⟨⟨⟨⟨⟨⟨h1, h2⟩, h3⟩, ⟨⟨h4, h5⟩, h6⟩, h7⟩, h8⟩, h9⟩, h10, h11⟩, h12⟩, h13⟩ := h
  exact ⟨h1, h2, h3, ⟨h4, h5, h6, h7⟩, h8, h9, ⟨h10, h11⟩, h12, h13⟩
theorem witness_read_walk : let c := walker 0 id; let s := commanded 0 [] c
    Walks s anMt 0 0 c ∧ c.m 2 1 = 0 ∧ c.reads = [] ∧ (s.gen anMt 0 0).toks = 1 ∧ s.locked anMt 0 = false ∧
    s.genAt anMt 0 (s.gen anMt 0 0) ((s.gen anMt 0 0).off (s.gen anMt 0 0).spos) (engNeed c.form 0) c.form = .here (mtBase anMt + 8 * aMode.mbase) pairLeaf :=
  ⟨walks_of (by decide +kernel), by decide +kernel, by decide +kernel, by decide +kernel, by decide +kernel, by decide +kernel⟩
theorem witness_read_back : let c := walker 0 fun c => { c with reads := [9] }; let s : State := { commanded 0 [] c with reqs := [{ aReq with id := 9, src := .engine anMt 0 5, stage := .replied (.data 7 true) }] }
    Walks s anMt 0 0 c ∧ c.reads ≠ [] ∧ (s.engData c.reads).map firstCause = some none ∧ (s.gen anMt 0 0).bc = false ∧ s.mtRoomN anMt 0 1 = true :=
  ⟨walks_of (by decide +kernel), by decide +kernel, by decide +kernel, by decide +kernel, by decide +kernel⟩
theorem witness_write_take : let c := walker 1 id; let s := commanded 0 [plainTok true] c
    Walks s anMt 0 0 c ∧ c.m 2 1 = 1 ∧ c.buf.length < (s.gen anMt 0 0).toks ∧ s.mtHead anMt 0 0 = some (plainTok true) ∧
    bit ((s.mt anMt).fac 0).recording 0 = false :=
  ⟨walks_of (by decide +kernel), by decide +kernel, by decide +kernel, by decide +kernel, by decide +kernel⟩
theorem witness_write_issue : let c := walker 1 fun c => { c with buf := [plainTok true] }; let s := commanded 0 [] c
    Walks s anMt 0 0 c ∧ c.buf = [plainTok true] ∧ (plainTok true).kind ≠ 1 ∧
    s.genAt anMt 0 (s.gen anMt 0 0) ((s.gen anMt 0 0).off (s.gen anMt 0 0).spos) (engNeed c.form 0) c.form = .here (mtBase anMt + 8 * aMode.mbase) pairLeaf :=
  ⟨walks_of (by decide +kernel), by decide +kernel, by decide +kernel, by decide +kernel⟩
theorem witness_command_ends : ∀ op ∈ [0xB0, 0xB5], let c := { aCmd op 0 with started := true, done := true, status := 31 }
    (commanded 0 [] c).cmdAt anMt 0 0 = some c ∧ (commanded 0 [] c).mtRuns anMt 0 = true ∧ c.reqs = [] ∧ c.av = 0 ∧ c.status < 32 ∧ c.op = op := by
  decide +kernel
def gatherer (f : Cmd → Cmd) : Cmd := f { aCmd 0xB1 0x18 with started := true }
theorem witness_sparse : (let c := gatherer fun c => { c with buf := [plainTok true, plainTok false], draining := true }; let s := commanded 0 [] c
      (s.allCmds anMt).find? (fun x => x.2.indexed && x.2.started && !x.2.done) = some (0, c) ∧ s.mtRuns anMt 0 = true ∧ c.reqs = [] ∧ c.op = 0xB1 ∧
      c.slots = [] ∧ c.cur = none ∧ c.draining = true ∧ s.mtRoomN anMt (Fin.ofNat 16 (c.ag 2).val) 1 = true) ∧
    (let c := gatherer id; let s := commanded 0 [plainTok true] c
      (s.allCmds anMt).find? (fun x => x.2.indexed && x.2.started && !x.2.done) = some (0, c) ∧ c.buf = [] ∧ c.slots = [] ∧ c.cur = none ∧
      c.status = 0 ∧ c.draining = false ∧ s.saving anMt 0 = false ∧ c.m 4 1 = 1 ∧ s.mtHead anMt 0 (Fin.ofNat 16 (c.ag 0).val) = some (plainTok true) ∧
      (plainTok true).kind = 0 ∧ (plainTok true).poison = false ∧ bit ((s.mt anMt).fac 0).recording (Fin.ofNat 16 (c.ag 0).val).val = false) := by
  decide +kernel

/-! The matrix unit -/

theorem mxTakes_of {s : State} {k : Token} (h : (decide (s.mxTurn anMt = some 0) && decide (s.mtHead anMt 0 6 = some k) &&
    !bit ((s.mt anMt).fac 0).recording 6) = true) : MxTakes s anMt 0 k := by
  simp only [Bool.and_eq_true, decide_eq_true_eq, Bool.not_eq_true'] at h
  exact ⟨h.1.1, h.1.2, h.2⟩
theorem witness_matrix_takes : MxTakes (engined 6 (cmdTok 0xC2 0 0 7)) anMt 0 (cmdTok 0xC2 0 0 7) ∧ isMatrix 0xC2 (cmdTok 0xC2 0 0 7) = true ∧
    fld (cmdTok 0xC2 0 0 7).payload 58 6 < 8 ∧ 8 ≤ fld (cmdTok 0xC2 0 0 8).payload 58 6 ∧ isMatrix 0xC2 (cmdTok 0xC2 0 0 8) = true ∧
    isMatrix 0xC0 (cmdTok 0xC0 0x6A5 0x1400200 0x11) = true ∧ isMatrix 0xC1 (cmdTok 0xC1 8 0 0) = true ∧ isMatrix 0xC3 (cmdTok 0xC3 0x10 0 0) = true ∧
    isMatrix 0xC4 (cmdTok 0xC4 0 0 0) = true ∧ isMatrix 0xC5 (cmdTok 0xC5 0x30 0 0) = true ∧ isMatrix 0xC8 (cmdTok 0xC8 0 0 0) = true ∧
    isMatrix 0xC9 (cmdTok 0xC9 0 0 0) = true ∧ isMatrix 0xC6 (cmdTok 0xC6 3 0 0) = true ∧ isMatrix 0xC7 (cmdTok 0xC7 0 0 0) = true ∧
    isMatrix 0xC7 (cmdTok 0xC7 1 0 7) = true ∧ fld (cmdTok 0xC7 1 0 7).payload 8 2 = 1 ∧ isMatrix 0xC7 (cmdTok 0xC7 2 0 0) = true ∧
    fld (cmdTok 0xC7 2 0 0).payload 8 2 = 2 ∧ mxMalformed (cmdTok 0xCA 0 0 0) = true ∧ (cmdTok 0xCA 0 0 0).kind ≠ 1 :=
  ⟨mxTakes_of (by decide +kernel), by decide +kernel⟩
/-- An MSLOT of a slot that admits the facet, one that waits for the next slot, and one of a slot that is another facet's; an MSCALE and an MQRY. -/
theorem witness_matrix_slots : (∀ k ∈ [cmdTok 0xC8 0 0 0, cmdTok 0xC8 1 0 0, cmdTok 0xC2 0 0 7, cmdTok 0xC7 0 0 0], let s := engined 6 k
      s.mxTurn anMt = some 0 ∧ s.mtHead anMt 0 6 = some k ∧ (s.mxf anMt 0).quick = [] ∧ s.admits anMt 0 = true) ∧
    isMatrix 0xC8 (cmdTok 0xC8 1 0 0) = true ∧ bit (cmdTok 0xC8 0 0 0).payload 8 = false ∧ bit (cmdTok 0xC8 1 0 0).payload 8 = true := by decide +kernel
/-- The tokens were taken in the cycle before. -/
def mxQuickly (k : Token) : State := (engined 0 ⟨0, 0⟩).modMx anMt 0 fun x => { x with quick := [k] }
theorem witness_matrix_quick : ∀ k ∈ [cmdTok 0xC2 0 0 7, cmdTok 0xC2 0 0 8, cmdTok 0xC7 0 0 0, cmdTok 0xC7 1 0 7, cmdTok 0xC7 1 0 8, cmdTok 0xC7 2 0 0],
    ((mxQuickly k).mxf anMt 0).quick = [k] ∧ (mxQuickly k).mtRuns anMt 0 = true ∧ (isMatrix 0xC2 k || isMatrix 0xC7 k) = true := by decide +kernel
def aMx (op m av : Nat) : MxCmd :=
  { id := 5, op := op, mod := BitVec.ofNat 18 m, av := BitVec.ofNat 32 av, bv := 0, accPhys := 0, bufPhys := 0, sigma := 0, taken := 0, started := true,
    phase := 2, read := 0, fired := 0, effect := 0, poisoned := 0, burst := [], reqs := [], status := 0, done := false }
def matrixed (f : MxFacet → MxFacet) : State := (engined 0 ⟨0, 0⟩).modMx anMt 0 f
/-- A clearing of the last row starts, and one of a row past the bank fails its check. -/
theorem witness_matrix_start : (let c := { aMx 0xC3 0 (31 * 2 ^ 22) with started := false }; let s := matrixed fun x => { x with cmds := [c] }
      (s.mxf anMt 0).cmds[0]? = some c ∧ s.mtRuns anMt 0 = true ∧ c.done = false ∧ s.mxStartOk anMt 0 c = true) ∧
    (let c := { aMx 0xC3 0 (31 * 2 ^ 22 + 2 ^ 17) with started := false }; let s := matrixed fun x => { x with cmds := [c] }
      s.mxStartOk anMt 0 c = false) := by decide +kernel
theorem witness_matrix_ends : let c := { aMx 0xC1 0 0 with done := true, status := 0 }; let s := matrixed fun x => { x with cmds := [c] }
    (s.mxf anMt 0).cmds[0]? = some c ∧ c.reqs = [] ∧ c.status < 32 ∧ c.op < 256 := by decide +kernel
theorem witness_matrix_sends_row : let c := aMx 0xC5 0x20 (31 * 2 ^ 22); let s := matrixed fun x => { x with cmds := [c] }
    (s.mxf anMt 0).cmds[0]? = some c ∧ c.done = false ∧ c.started = true ∧ c.read < c.rows ∧ (s.mt anMt).fired = [] ∧ s.mtRoomN anMt 7 16 = true ∧ c.clr = true := by
  decide +kernel
def rowOf (k : Nat) : ARow := ⟨5, k, 0x01, 0, false⟩
theorem witness_row_stage : let c := { aMx 0xC0 8 (15 * 2 ^ 17) with read := 3 }
    (∀ n ∈ [3, 4], let s := matrixed fun x => { x with cmds := [c], staged := (List.range n).map rowOf }
      s.runningMma anMt 0 = some c ∧ s.mtMode anMt 0 = some aMode ∧ s.mtRuns anMt 0 = true ∧ (s.mxf anMt 0).staged.length = n) ∧
    c.strm = false ∧ c.mx = false ∧ 2 ≤ c.phase ∧ c.read < c.rows ∧
    (let s := matrixed fun x => { x with cmds := [c] }; let banks := accessOf (wordsAt (mtBase anMt + 8 * aMode.mbase + 8 * (c.off + 8 * c.read)) 64)
     s.mem.bad = [] ∧ banks.all (s.turns.free (portTurn anMt 24)) = true ∧
     banks.all (({ s with turns := s.turns.take 1 banks } : State).turns.free (portTurn anMt 24)) = false) := by decide +kernel
def burstTok (head tail : Bool) : Token := mkTok 0 0 false head tail false 1
def bursting (p : Fin 16) (c : MxCmd) (l : List Token) (drop : Bool) : State :=
  ((engined 0 ⟨0, 0⟩).modMtFac anMt 0 fun x => { x with inq := vset x.inq p (l.map fun k => ⟨k, 0, none⟩) }).modMx anMt 0 fun x =>
    { x with cmds := [c], dropA := drop, dropB := drop }
theorem witness_burst_drop : ∀ p ∈ [(7 : Fin 16), 8], let s := bursting p (aMx 0xC0 0x48 0) [burstTok false true] true
    s.mtHead anMt 0 p = some (burstTok false true) ∧ (s.mxf anMt 0).dropA = true ∧ (s.mxf anMt 0).dropB = true ∧ s.mtRuns anMt 0 = true ∧
    bit ((s.mt anMt).fac 0).recording p.val = false := by decide +kernel
/-- A column burst: its first token, its last one of the first and of the last column, and a first token without head. -/
theorem witness_column_burst : let c := aMx 0xC1 0x48 0
    let most := burstTok true false :: List.replicate 6 (burstTok false false)
    (let s := bursting 8 c [burstTok true false] false
     s.columnCmd anMt 0 = some c ∧ s.mtHead anMt 0 8 = some (burstTok true false) ∧ (s.mxf anMt 0).dropB = false ∧ ¬(c.burst.length + 1 = c.burstLen) ∧
       (burstTok true false).kind ≠ 3 ∧ (burstTok true false).head = c.burst.isEmpty ∧ (burstTok true false).tail = false ∧
       (burstTok false false).head ≠ c.burst.isEmpty) ∧
    (∀ n ∈ [0, 30, 31], let b := { c with burst := most, read := n }; let s := bursting 8 b [burstTok false true] false
      s.columnCmd anMt 0 = some b ∧ s.mtHead anMt 0 8 = some (burstTok false true) ∧ b.burst.length + 1 = b.burstLen ∧
        (burstTok false true).head = b.burst.isEmpty ∧ (burstTok false true).tail = true) := by decide +kernel
/-- A row burst that stands whole on mi7, and one whose second token has a head. -/
def wholeBurst : List Token := burstTok true false :: List.replicate 6 (burstTok false false) ++ [burstTok false true]
theorem witness_row_burst : let c := aMx 0xC0 0x48 0
    (let s := bursting 7 c wholeBurst false
     s.rowCmd anMt 0 = some c ∧ s.rowHead anMt 0 c = (wholeBurst, true) ∧ (s.mxf anMt 0).dropA = false ∧ s.mtRuns anMt 0 = true ∧
       bit ((s.mt anMt).fac 0).recording 7 = false) ∧
    (let s := bursting 7 c [burstTok true false, burstTok true false] false
     s.rowCmd anMt 0 = some c ∧ (s.rowHead anMt 0 c).1.getLast? = some (burstTok true false) ∧
       ({ c with burst := (s.rowHead anMt 0 c).1.dropLast } : MxCmd).badToken (burstTok true false) = true) := by decide +kernel
theorem witness_row_fire_burst : let c := aMx 0xC0 0x48 0; let s := bursting 7 c wholeBurst false
    ([(s.mt anMt).mxPtr + 1, (s.mt anMt).mxPtr + 2, (s.mt anMt).mxPtr + 3, (s.mt anMt).mxPtr] : List Facet).find? (s.mayFire anMt) = some 0 ∧
    s.runningMma anMt 0 = some c ∧ (s.mxf anMt 0).staged = [] := by decide +kernel
theorem witness_row_fire : let c := { aMx 0xC0 8 0 with read := 1 }; let s := matrixed fun x => { x with cmds := [c], staged := [rowOf 0] }
    ([(s.mt anMt).mxPtr + 1, (s.mt anMt).mxPtr + 2, (s.mt anMt).mxPtr + 3, (s.mt anMt).mxPtr] : List Facet).find? (s.mayFire anMt) = some 0 ∧
    s.runningMma anMt 0 = some c ∧ (s.mxf anMt 0).staged = [rowOf 0] := by decide +kernel
def fired (out : Bool) (cycle : Nat) : State :=
  { (matrixed fun x => { x with cmds := [aMx 0xC0 (if out then 0x108 else 8) 0] }).modMt anMt (fun m => { m with fired := [⟨0, rowOf 0, 10⟩] }) with cycle := cycle }
theorem witness_row_effect : ∀ cycle ∈ [20, 21], let s := fired false cycle
    s.tileFrozen anMt = false ∧ s.firedCmd anMt ⟨0, rowOf 0, 10⟩ = some (aMx 0xC0 8 0) ∧
    (s.mt anMt).fired.find? (fun x => (s.firedCmd anMt x).any fun c => !c.out) = some ⟨0, rowOf 0, 10⟩ ∧ (aMx 0xC0 8 0).fmt = 8 := by decide +kernel
theorem witness_row_result : ∀ cycle ∈ [21, 22], let s := fired true cycle
    (s.mt anMt).fired.find? (fun x => (s.firedCmd anMt x).any fun c => c.out) = some ⟨0, rowOf 0, 10⟩ ∧ s.cycle = cycle := by decide +kernel

/-! Tides, commits and rollbacks -/

/-- Region 0 runs tides of 2 microseconds; TNEXT and CTIDE as given. -/
def tidal (tnext ctide : Nat) (f : Region → Region) : State :=
  sited fun g => f { g with tide := BitVec.ofNat 64 (tnext * 2 ^ 16 + 0x31), tidestat := BitVec.ofNat 64 ctide, reaches := [⟨ctide, none, [], 0xF⟩] }
theorem witness_tide_inject : ∀ b : Bool, let s := tidal 1 0 fun g => { g with dueTide := b }; let g := s.rg 0
    g.tides = true ∧ g.tnext = g.ctide + 1 ∧ g.preempt = none ∧ g.stop = false ∧ s.frozen 0 = false ∧ fld g.dcut 4 2 = 0 ∧ g.dueTide = b ∧ g.live 0 = true ∧
    g.markSites 0 = [63] := by decide +kernel
/-- A mark stands at the head of the one forward port of tile (0, 0). -/
def tideHead (k : Token) : State := (tidal 2 0 id).modFac tile0 0 fun fe => { fe with inq := vset fe.inq 0 [⟨k, 0, none⟩] }
theorem witness_tide_take : (∀ n ∈ [1, 2], (tideHead (markTok 0 n 1)).nodeMark tile0 0 = some (markTok 0 n 1) ∧ (markTok 0 n 1).markType = n) ∧
    (tideHead (markTok 0 1 1)).tileHalted tile0 = false ∧ (tideHead (markTok 0 2 1)).tileHalted tile0 = false ∧ tile0.isCT = true ∧
    (tideHead (markTok 0 1 1)).logs tile0 = true ∧ (tideHead (markTok 0 1 1)).nodeReach tile0 0 < (markTok 0 1 1).markNo ∧
    (tideHead (markTok 0 1 1)).forwardPorts tile0 0 = [0] := by decide +kernel
/-- Reach 0 of region 0, whose nodes stand in the reach given. -/
def reached (n : Nat) : State :=
  ((tidal 2 0 id).modFac tile0 0 fun fe => { fe with reach := n }).modFac ⟨2, 0⟩ 0 fun fe => { fe with reach := n }
theorem witness_reach_close : (reached 1).rg 0 = (reached 0).rg 0 ∧ ((reached 1).rg 0).reaches = [⟨0, none, [], 0xF⟩] ∧ ((reached 1).rg 0).tides = true ∧
    (reached 1).halted 0 = false ∧ 0 + 1 < ((reached 1).rg 0).tnext ∧
    (∀ f, ((reached 1).rg 0).live f = true → (reached 1).facetClosed 0 f 0 = true) ∧ (∀ q ∈ (reached 1).reqs, q.owes 0 0 = false) ∧
    (∀ f, ((reached 1).rg 0).unbalanced ⟨0, none, [], 0xF⟩ f = false) ∧ ((reached 0).rg 0).live 0 = true ∧ (reached 0).facetClosed 0 0 0 = false := by
  decide +kernel
def aStore (timed : Bool) (c : Nat) : BwEntry := ⟨3, 0, 0, c, 2, timed, false, .store 5 0x40 [1, 2, 3, 4, 5, 6, 7, 8] 1 0 false⟩
def closedAt (l : List BwEntry) (c : Nat) : State :=
  { (tidal 2 0 fun g => { g with reaches := [⟨0, some 64, [], 0xF⟩] }).modDie 0 (fun d => { d with bw := l }) with cycle := c }
theorem witness_reach_commit : (∀ c ∈ [963, 964], ((closedAt [aStore false 10] c).rg 0).reaches = [⟨0, some 64, [], 0xF⟩] ∧
      ((closedAt [aStore false 10] c).rg 0).tides = true ∧ (closedAt [aStore false 10] c).halted 0 = false ∧ (closedAt [aStore false 10] c).cycle = c) ∧
    (closedAt [aStore false 10] 964).clasps = [] ∧
    (∀ d, ∀ e ∈ ((closedAt [] 964).die d).bw, e.region = 0 → e.timed = false → (0 : Nat) < e.reach) ∧
    ((closedAt [aStore false 10] 964).takeEntries fun e => e.region == 0 && !e.timed && decide (e.reach ≤ 0)).1 = [aStore false 10] ∧
    (aStore false 10).going = false ∧ (closedAt [aStore false 10] 964).mem.bad = [] := by decide +kernel
/-- The cut of a facet that is not live holds a tide back no longer. -/
theorem witness_tide_cut : ((tidal 1 0 fun g => { g with dcut := 0x13, cutFac := 3 }).rg 0).live ((tidal 1 0 fun g => { g with dcut := 0x13, cutFac := 3 }).rg 0).cutFac = false ∧
    fld ((tidal 1 0 fun g => { g with dcut := 0x13, cutFac := 3 }).rg 0).dcut 4 2 ≠ 0 := by decide +kernel
theorem witness_reach_commit_safe : SafeState (closedAt [aStore false 10] 964) ∧ ∀ w, (closedAt [aStore false 10] 964).isHeld w = false :=
  ⟨(by decide +kernel : (closedAt [aStore false 10] 964).mem.wf = true), fun _ => rfl⟩
/-- A store that region 0 made in cycle c while no tide ran. -/
def timedAt (c : Nat) : State := { (sited id).modDie 0 (fun d => { d with bw := [aStore true c] }) with cycle := 1000 }
theorem witness_timed_commit : (timedAt 100).frozen 0 = false ∧ ((timedAt 100).rg 0).rollback = none ∧
    ((timedAt 101).takeEntries fun e => e.region == 0 && e.timed && decide (e.at_ + 900 ≤ (timedAt 101).cycle)).1 = [] ∧
    ((timedAt 100).takeEntries fun e => e.region == 0 && e.timed && decide (e.at_ + 900 ≤ (timedAt 100).cycle)).1 = [aStore true 100] := by decide +kernel
theorem witness_timed_commit_safe : SafeState (timedAt 100) ∧ ∀ w, (timedAt 100).isHeld w = false ∧ (timedAt 100).mem.bad = [] ∧
    (∀ d, ∀ e ∈ ((timedAt 100).die d).bw, e.going = false) :=
  ⟨(by decide +kernel : (timedAt 100).mem.wf = true), fun _ => ⟨rfl, rfl, by decide +kernel⟩⟩

theorem witness_strike : (sited id).strikeEffect (some 0) 0 0 = some true ∧ (sited id).strikeEffect (some 0) 32 0 = some true ∧ (sited id).frozen 0 = false ∧
    ((sited id).rg 0).stop = false ∧ ((sited id).rg 0).rollback = none ∧ (∀ r, (sited id).strikeEffect (some 7) 31 r = none) ∧
    (sited fun g => { g with freeze := some 47 }).strikeEffect (some 0) 0 0 ≠ none ∧ (sited fun g => { g with freeze := some 47 }).frozen 0 = true ∧
    (sited fun g => { g with freeze := some 48 }).frozen 0 = false := by decide +kernel
def rolledBack (restored : Bool) (cycle : Nat) (f : Region → Region) : State :=
  { tidal 1 0 fun g => f { g with rollback := some ⟨64, false, restored⟩ } with cycle := cycle }
def withSnap (s : State) : State := s.modEl tile0 fun e => { e.modFac 0 (fun x => { x with snaps := [e.snap 0 0] }) with undo := [] }
theorem witness_restore : let s := withSnap (rolledBack false 2112 id); let g := s.rg 0
    g.rollback = some ⟨64, false, false⟩ ∧ 64 + 2048 ≤ s.cycle ∧ 64 < s.cycle ∧ g.tides = true ∧ (s.nodes 0 0).contains tile0 = true ∧ tile0.isCT = true ∧
    ∃ y, ((s.el tile0).fac 0).snaps.find? (fun y => y.tide == g.ctide) = some y :=
  ⟨by decide +kernel, by decide +kernel, by decide +kernel, by decide +kernel, by decide +kernel, by decide +kernel, Option.isSome_iff_exists.mp (by decide +kernel)⟩
/-- Nothing of the region is on its way: the snapshot is restored in the cycle after the trigger; and where no tide runs the replay starts at once. -/
theorem witness_restore_early : let s := withSnap (rolledBack false 65 id)
    (s.rg 0).rollback = some ⟨64, false, false⟩ ∧ 64 < s.cycle ∧ s.cycle < 64 + 2048 ∧ (∀ q ∈ s.reqs, q.stage ≠ .travelling ∧ q.stage ≠ .regulated) ∧
    ((rolledBack true 65 fun g => { g with tide := 0 }).rg 0).tides = false ∧ ((rolledBack true 65 fun g => { g with tide := 0 }).rg 0).pendcnt = 0 ∧
    (rolledBack true 65 id).frozen 0 = false := by decide +kernel
theorem witness_replay_start : let s := rolledBack true 2112 id; let g := s.rg 0
    g.rollback = some ⟨64, false, true⟩ ∧ g.stop = false ∧ s.frozen 0 = false ∧ 64 + 2048 ≤ s.cycle ∧ g.pendcnt = 0 ∧ (g.ing.map (·.1)).Nodup ∧
    63 ∈ g.ing.map (·.1) ∧ ((rolledBack true 2112 fun g => { g with pgr := 0x10000 }).rg 0).pendcnt ≠ 0 ∧
    (rolledBack true 2111 id).cycle < 64 + 2048 ∧ ((rolledBack true 2111 id).rg 0).tides = true := by decide +kernel
theorem witness_stop : ((sited id).rg 0).stop = false ∧ ((sited fun g => { g with tidestat := 0x800000000 }).rg 0).stop = true := by decide +kernel
theorem witness_tide_control : ((tidal 1 0 id).rg 0).tides = true ∧ (((tidal 1 0 id).writeTide 0 0x19).rg 0).tides = false := by decide +kernel

/-! Saves, restores, freezes and notices -/

theorem witness_preempt_save : bit (2 : Word) 1 = true ∧ bit (1 : Word) 1 = false ∧ bit (1 : Word) 0 = true ∧ bit (0 : Word) 0 = false ∧
    (∀ n ∈ [0, 7], ((sited fun g => { g with prectl := BitVec.ofNat 64 (n * 256) }).rg 0).preState = n) ∧
    ((sited fun g => { g with prectl := 0x600 }).rg 0).preState = 6 := by decide +kernel
/-- Facet 0 is loaded and busy, and an entry of priority 5 waits for it. -/
def blocked : State := sited fun g => { g with ctl := 0xE10, prectl := 0x10, queue := [BitVec.ofNat 512 (5 * 2 ^ 128)] }
theorem witness_auto_save : (blocked.rg 0).valid = true ∧ bit (blocked.rg 0).prectl 4 = true ∧ (blocked.rg 0).preState = 0 ∧
    (blocked.rg 0).blockedAbove (Fin.ofNat 4 (fld (blocked.rg 0).prectl 2 2)) = true ∧ bit ((sited id).rg 0).prectl 4 = false ∧
    ((sited id).rg 0).queue = [] := by decide +kernel
def aSave : Preempt := ⟨false, 0, 10, [], [], 0x4000, [], 20, none⟩
def saving (state tnext : Nat) (p : Preempt) : State := tidal tnext 0 fun g => { g with prectl := BitVec.ofNat 64 (state * 256), preempt := some p }
theorem witness_save_stop : (∀ n ∈ [1, 2], let s := saving 1 n aSave; let g := s.rg 0
      g.preempt = some aSave ∧ s.halted 0 = false ∧ g.preState = 1 ∧ g.replayDone 0 = true ∧ g.cutHolds 0 = false ∧ g.tnext = n ∧ g.ctide = 0) ∧
    aSave.restore = false := by decide +kernel
/-- A generator of the MT (1, 0) still has a permit on its way. -/
def unsettled : State := (saving 2 1 aSave).modGen anMt 0 3 fun g => { g with comingPermits := [(1, 2)] }
theorem witness_drain_inject : (∀ t ∈ ((saving 2 1 aSave).rg 0).mts, (saving 2 1 aSave).mtStopped t 0 = true) ∧ ((saving 2 1 aSave).rg 0).preState = 2 ∧
    (saving 2 1 aSave).halted 0 = false ∧ (unsettled.rg 0).mts.contains anMt = true ∧ unsettled.mtStopped anMt 0 = false ∧ (unsettled.rg 0).preState = 2 ∧
    unsettled.halted 0 = false := by decide +kernel
theorem witness_save_drains : ((saving 3 1 aSave).rg 0).preState = 3 ∧ (saving 3 1 aSave).drained 0 0 = false ∧ (saving 3 1 aSave).halted 0 = false := by
  decide +kernel
theorem witness_save_written : ((saving 4 1 aSave).rg 0).preState = 4 ∧ aSave.blocks = [] ∧ ((saving 4 1 aSave).rg 0).tides = true ∧
    (saving 4 1 aSave).halted 0 = false := by decide +kernel
def aBlock : DieId × Nat × List Byte × Bool := (0, 64, List.replicate 64 7, false)
def blockState : State :=
  let s := saving 4 1 { aSave with blocks := [aBlock] }
  tabled 0x273 (s.modRg 0 fun g => { g with trr := 1 ||| 0x10000 })
theorem witness_save_block : (match blockState.saveAt 0 ((blockState.rg 0).ctxVa + 64) with
      | .ok pa _ => decide (blockState.bwRoom 0 0 ((blockState.rg 0).tnext - 1) (wordsAt pa 64).length = .ok)
      | _ => false) = true ∧ (blockState.rg 0).preState = 4 ∧ (blockState.rg 0).preempt = some { aSave with blocks := [aBlock] } ∧
    aBlock.2.2.1.length = 64 ∧ blockState.halted 0 = false := by decide +kernel
def forcedAt (n ctide : Nat) : State :=
  tidal (ctide + 1) ctide fun g => { g with prectl := 0x500, preempt := some { aSave with forced := some n } }
theorem witness_save_commit : ∀ c ∈ [0, 1], ((forcedAt 1 c).rg 0).preState = 5 ∧ ((forcedAt 1 c).rg 0).preempt = some { aSave with forced := some 1 } ∧
    ((forcedAt 1 c).rg 0).tides = true ∧ ((forcedAt 1 c).rg 0).ctide = c ∧ (forcedAt 1 c).halted 0 = false ∧
    (∀ q ∈ (forcedAt 1 c).reqs, q.stage ≠ .listed) := by decide +kernel
theorem witness_restore_fails : let g (ctl geom lqstat : Word) : Region := ((sited fun g => { g with ctl := ctl, geom := geom, lqstat := lqstat }).rg 0)
    bit (3 : Word) 1 = true ∧ bit (3 : Word) 0 = true ∧ (g 0xE01 0x84040000 0).fquiet 0 = false ∧ (g 0xF11 0x84040000 0).floaded 0 = true ∧
    (g 0xF01 0x4040000 0).valid = false ∧ bit (g 0xF01 0x84040000 0x40).lqstat 6 = true ∧ (g 0xE01 0x84040000 0).preState = 0 := by decide +kernel
/-- A context image of a 4 by 4 region stands at byte 0. -/
def imaged : State :=
  let s := tabled 0x273 (sited fun g => { g with ctl := 0xF01, trr := 1 ||| 0x10000 })
  let header : List Host.Cell := [(0, 0x9D), (1, 0x7E), (2, 1), (0x20, 4), (0x21, 4)]
  { s with mem := { s.mem with cells := header ++ s.mem.cells.filter fun c => decide (64 ≤ c.1) } }
theorem witness_restore_image : let g := imaged.rg 0
    g.fquiet 0 = true ∧ g.floaded 0 = false ∧ g.valid = true ∧ bit g.lqstat 6 = false ∧ imaged.mem.wf = true ∧
    ((imaged.imageBlocks 0 g.ctxVa 1).map fun h => (bits (get8 h.1 0) 0 16, bits (get8 h.1 0) 16 8, bits (get8 h.1 0x20) 0 8 == g.w,
      bits (get8 h.1 0x20) 8 6 == g.h)) = some (0x7E9D, 1, true, true) := by decide +kernel
theorem witness_freeze : (State.reset.rg 0).freeze = none ∧ (∀ c ∈ [47, 48], ((sited fun g => { g with freeze := some c }).rg 0).freeze = some c) ∧
    (sited id).cycle = 64 ∧ ((sited id).rg 0).latched = [] ∧
    (let s := sited fun g => { g with freeze := some 10, latched := [(some 0, 0)] }
     (s.rg 0).latched = [(some 0, 0)] ∧ (s.rg 0).stop = false ∧ (s.rg 0).rollback = none ∧ s.strikeEffect (some 0) 0 0 = some true) := by decide +kernel
def aNotice : Notice := ⟨0x1FF, 3, 127, 31, 63, true, 0xFFFFFFFF⟩
theorem witness_notices : ((sited fun g => { g with notices := [aNotice] }).rg 0).notices = [aNotice] ∧
    ((State.reset.modDie 7 fun d => { d with notices := [aNotice] }).die 7).notices = [aNotice] ∧ (State.reset.rg 31).notices = [] ∧
    (State.reset.die 7).notices = [] := by decide +kernel

/-! Device time, power and the links -/

theorem witness_droop : (∀ n ∈ [1, 4], 1 ≤ n ∧ n ≤ 4) ∧ ((State.reset.die 7).stretch3 = 0) ∧
    (∀ n ∈ [3, 4], ((State.reset.modDie 7 fun d => { d with stretched := List.replicate n 10 }).die 7).stretched.length = n) ∧
    (State.reset.die 7).idle = false ∧ ((State.reset.modDie 7 fun d => { d with idle := true }).die 7).idle = true ∧
    ((State.reset.modDie 7 fun d => { d with stretch3 := 2 }).die 7).stretch3 ≠ 0 := by decide +kernel
def castAt (phc : Word) (step : Bool) : State :=
  let s := (State.reset.modIo 0 fun x => { x with phc := phc }).modDie 7 fun d => { d with time := 640 }
  { s with modul := { s.modul with stepDue := step, dtstep := 5 } }
theorem witness_broadcast : (castAt 63 false).castDue = false ∧ (∀ b : Bool, (castAt 64 b).castDue = true ∧ (castAt 64 b).modul.stepDue = b) ∧
    ((castAt 64 false).die 0).clock < ((castAt 64 false).io 0).phc.toNat * (3 * thirdNs) + ((castAt 64 false).io 0).phcFrac ∧
    ((castAt 64 false).io 0).phc.toNat * (3 * thirdNs) + ((castAt 64 false).io 0).phcFrac ≤ ((castAt 64 false).die 7).clock := by decide +kernel
def inMicrosecond (prev : Nat) : State := State.reset.modDie 0 fun d => { d with prev := prev, time := prev + 1 }
theorem witness_microsecond : ((inMicrosecond 998).die 0).newUs = false ∧ ((inMicrosecond 999).die 0).newUs = true := by decide +kernel
def aMsg : PowerMsg := ⟨9, 2, 3, 40, 100, false, false⟩
def messaged (cycle : Nat) : State := { State.reset with power := [aMsg], cycle := cycle }
theorem witness_power_message : (∀ c ∈ [105, 106, 849, 850], (messaged c).power.find? (fun y => y.id == 9) = some aMsg) ∧
    aMsg.sent + (messaged 105).boundaryL (min aMsg.src.val aMsg.dst.val) ≠ 105 ∧ aMsg.sent + (messaged 106).boundaryL (min aMsg.src.val aMsg.dst.val) = 106 ∧
    aMsg.received = false ∧ 849 < aMsg.sent + 750 ∧ aMsg.sent + 750 ≤ 850 := by decide +kernel

/-- The deny map at 1 MiB denies block 1. -/
def denying : State :=
  { State.reset.modIo 0 (fun x => { x with hdenyb := 0x100001, haper := 7 }) with mem := { Memory.empty with cells := [(0x100000, 2)] } }
theorem witness_host_access : State.reset.hostPa 0 .pcie (0x1000000000#52).toNat = none ∧ (0xFFFFFFFFF#52).toNat < 2 ^ 36 ∧
    State.reset.hostPa 0 .pcie (0xFFFFFFFFF#52).toNat = some 0xFFFFFFFFF ∧ denying.hostPa 0 .pcie 0 = some 0x7000000000 ∧
    denying.hostPa 0 .cxlMem (0x10040#52).toNat = some 0x10040 ∧ denying.denied 0 0x10040 = true ∧ denying.denied 0 0x20000 = false ∧
    denying.denied 0 0x20007 = false ∧ isHbm (0x20000 + 8 - 1) = true ∧ denying.hostPa 0 .cxlMem (0x20000#52).toNat = some 0x20000 ∧
    denying.mem.bad = [] ∧ denying.mem.poison = [] ∧ (∀ d, (denying.die d).bw = []) := by decide +kernel
/-- Reads of registers of region 31's block in BAR0. -/
theorem witness_bar_reads : (∀ x ∈ [0x000, 0x010, 0x018, 0x020, 0x030, 0x050, 0x090], (BitVec.ofNat 52 (0x2F0000 + x)).toNat = 0x100000 + 0x10000 * (31 : RegionId).val + x) ∧
    (booted State.reset).recovery = false ∧ State.reset.hostPa 0 .bar0 (0x2F0000#52).toNat = none ∧
    ({ State.reset with modul := { State.reset.modul with bootstat := 0x200 } } : State).recovery = true ∧ (0xFFF8#52).toNat + 8 ≤ 0x10000 := by decide +kernel
theorem witness_host_access_safe : SafeState denying := (by decide +kernel : denying.mem.wf = true)

/-- An eCPRI frame of type 0 for flow 7 with 4 bytes of payload, as it arrives at port 1. -/
def eCpri (good : Bool) (version : Byte) : EthFrame :=
  ⟨1, 0x123456789, good, List.replicate 12 0 ++ [0xAE, 0xFE] ++ [version, 0, 0, 8, 0, 7, 0, 0] ++ [1, 2, 3, 4]⟩
/-- Port 0 of region 1 faces the west I/O die, and port 63 faces nothing; a flow entry names one of them. -/
def flowing (port : Nat) : State :=
  (State.reset.modRg 1 fun g => { g with ing := [(0, 0x23000), (63, 0x23107)] }).modIo 0 fun x =>
    { x with flow := [(5, BitVec.ofNat 64 (3 + 7 * 8 + 0xFFFF * 2 ^ 19 + 2 ^ 35 + port * 2 ^ 40))] }
theorem witness_fronthaul : (eCpri true 0x10).fcsGood = true ∧ (eCpri false 0x10).fcsGood = false ∧ flowClaims (eCpri true 0x10).bytes = true ∧
    ecpriOk (eCpri true 0x10).bytes = true ∧ ecpriOk (eCpri true 0x20).bytes = false ∧
    (State.reset.io 0).flow.find? (fun x => flowMatches x.2 (eCpri true 0x10)) = none ∧
    (∀ p ∈ [0, 63], ∃ w, ((flowing p).io 0).flow.find? (fun x => flowMatches x.2 (eCpri true 0x10)) = some (5, w) ∧ fld w 35 5 = 1 ∧ fld w 40 6 = p) ∧
    (flowing 0).bufferUse 0 1 + 8 * (frameBurst (eCpri true 0x10)).length ≤ 4194304 ∧ (flowing 0).siteFaces 0 (Fin.ofNat 32 1) 0 = true ∧
    (flowing 63).siteFaces 0 (Fin.ofNat 32 1) 63 = false := by
  refine ⟨by decide, by decide, by decide, by decide, by decide, by decide +kernel, ?_, by decide +kernel, by decide +kernel, by decide +kernel⟩
  intro p hp
  fin_cases hp
  · exact ⟨_, by rfl, by decide +kernel, by decide +kernel⟩
  · exact ⟨_, by rfl, by decide +kernel, by decide +kernel⟩
def outgoing (claim : Bool) (l : List Token) : State :=
  State.reset.modIo 1 fun x => { x with outbox := [(2047, l)], ttmap := if claim then [(4094, 1)] else [] }
theorem witness_egress_frame : ∀ b : Bool, let l := [mkTok 0 0 false true false false 0x100000000, mkTok 0 0 false false true false 9, plainTok true]
    (tget ((outgoing b l).io 1).outbox (64 * 31 + 63) []).findIdx? Token.tail = some 1 ∧
    bit (tget ((outgoing b l).io 1).ttmap (2 * (64 * 31 + 63)) 0) 0 = b := by decide +kernel
def sending (phc : Word) : State :=
  (outgoing true [plainTok true]).modIo 1 fun x => { x with phc := phc, tts := [(2047, ⟨4, [⟨3, [plainTok false], 1000, 2047⟩], false⟩)] }
theorem witness_tt_send : let x := (sending 0).io 1
    x.streamPort 2047 = 2047 ∧
    bit (tget x.ttmap (2 * 2047) 0) 0 = true ∧ tget x.outbox 2047 [] ≠ [] ∧
    ttBytes (x.sender 2047) + 16 + 16 * min 90 (tget x.outbox 2047 []).length ≤ 65536 ∧ bit (tget x.ttmap (2 * 2046) 0) 0 = false := by decide +kernel
theorem witness_tt_resend : (∀ t ∈ [50999, 51000], (((sending (BitVec.ofNat 64 t)).io 1).sender 2047).unacked.head? = some ⟨3, [plainTok false], 1000, 2047⟩ ∧
    ((sending (BitVec.ofNat 64 t)).io 1).phc.toNat = t) ∧ (⟨3, [plainTok false], 1000, 2047⟩ : TtFrame).sent + 50000 = 51000 := by decide +kernel
/-- A transport frame for port 0 of region 1 of device 0 from device 2, with one token or none. -/
def ttFrame (toks : Nat) (rst : Bool) (seq : Nat) : EthFrame :=
  let w := 1 + 2 ^ 24 + toks * 2 ^ 35 + 2 * 2 ^ 42 + (if rst then 2 ^ 58 else 0)
  ⟨0, 0, true, List.replicate 12 0 ++ [0x88, 0xB5] ++ List.replicate 18 0 ++ bytesOf 8 w ++ bytesOf 8 seq ++ bytesOf 16 0⟩
theorem witness_tt_data : (let fr := ttFrame 1 true 0; let x := (flowing 0).io 0
      fr.fcsGood = true ∧ x.ttClaims fr.bytes = true ∧ 0 < ttCount fr.bytes ∧ bit (ttWord fr.bytes 0) 58 = true ∧ ttWord fr.bytes 1 = 0 ∧
      (flowing 0).siteFaces 0 (Fin.ofNat 32 (fld (ttWord fr.bytes 0) 24 5)) (fld (ttWord fr.bytes 0) 29 6) = true ∧
      8 * (tget x.inbox (64 * fld (ttWord fr.bytes 0) 24 5 + fld (ttWord fr.bytes 0) 29 6) []).length + 8 * ttCount fr.bytes ≤ 4194304) ∧
    (let fr := ttFrame 1 false 3; let x (seq : Word) := ((flowing 0).modIo 0 fun x => { x with ttr := [(2, 0, 1, 0, seq)] }).io 0
      fr.fcsGood = true ∧ (x 3).ttClaims fr.bytes = true ∧ 0 < ttCount fr.bytes ∧
      ((x 3).ttr.find? (ttStream (ttWord fr.bytes 0))).map (·.2.2.2.2) = some (ttWord fr.bytes 1) ∧
      ((x 2).ttr.find? (ttStream (ttWord fr.bytes 0))).map (·.2.2.2.2) ≠ some (ttWord fr.bytes 1) ∧
      ¬(bit (ttWord fr.bytes 0) 58 = true ∧ ttWord fr.bytes 1 = 0)) := by decide +kernel
theorem witness_tt_ack : let fr := ttFrame 0 false 4
    let x := (State.reset.modIo 0 fun x => { x with ttmap := [(4094, BitVec.ofNat 64 (1 + 2 * 2 ^ 7 + 2 ^ 23))],
                                                     tts := [(2047, ⟨4, [⟨3, [plainTok false], 1000, 2047⟩], false⟩)] }).io 0
    fr.fcsGood = true ∧ x.ttClaims fr.bytes = true ∧ ttCount fr.bytes = 0 ∧ x.ackedPort (ttWord fr.bytes 0) = some 2047 ∧
    (x.sender 2047).unacked = [⟨3, [plainTok false], 1000, 2047⟩] ∧ ttWord fr.bytes 1 ≠ 0 := by decide +kernel
/-- Port 1 has rings of 16 slots at 4 KiB, all but one of them or all of them full. -/
def ringed (prod : Nat) (txq : List Nat) : State :=
  State.reset.modIo 0 fun x => { x with hring := [(2, BitVec.ofNat 64 (4 * 2 ^ 52 + 2 ^ 12)), (3, BitVec.ofNat 64 prod)], txq := [(1, txq)] }
def plainFrame (good : Bool) (n : Nat) : EthFrame := ⟨1, 77, good, List.replicate n 0x55⟩
theorem witness_rings : (let x := (ringed 15 []).io 0; let fr := plainFrame true 2032
      fr.fcsGood = true ∧ flowClaims fr.bytes = false ∧ x.ttClaims fr.bytes = false ∧ x.ringOk 1 = true ∧ fr.bytes.length ≤ 2032 ∧
      (ringed 15 []).ringHas (x.slotPa 1 0) = true ∧ isHbm (x.slotPa 1 (x.ringPtr 1 0 % x.ringSlots 1)) = true ∧
      (x.ringPtr 1 0 + 2 ^ 16 - x.ringPtr 1 16) % 2 ^ 16 < x.ringSlots 1) ∧
    (plainFrame false 64).fcsGood = false ∧
    (let x := (ringed 16 []).io 0; ¬((x.ringPtr 1 0 + 2 ^ 16 - x.ringPtr 1 16) % 2 ^ 16 < x.ringSlots 1)) ∧
    (let s := ringed 0 [15]; let x := s.io 0; let pa := x.slotPa 1 (x.ringSlots 1 + 15)
      tget x.txq 1 [] = [15] ∧ x.ringOk 1 = true ∧ s.ringHas pa = true ∧ ((s.ringGet pa 16).getD 2 0).getLsbD 0 = false) := by decide +kernel
theorem witness_rings_safe : SafeState (ringed 15 []) ∧ (ringed 15 []).mem.bad = [] := ⟨(by decide +kernel : (ringed 15 []).mem.wf = true), rfl⟩

/-! Registers, debug, boot and the mailbox -/

theorem witness_registers : ({ State.reset with modul := { State.reset.modul with bootstat := 0x200 } } : State).recovery = true ∧ inRecovery (.rgctl 0) = false ∧ inRecovery .mbstat = true ∧ (booted State.reset).recovery = false ∧
    (State.reset.rg 0).en = false ∧ ((sited id).rg 0).en = true ∧ bit (0xFF : Word) 8 = false ∧ bit (0x100 : Word) 8 = true ∧
    bit ((State.reset.el tile0).fac 0).hstat 8 = false ∧
    (let s := State.reset.modFac tile0 0 fun fe => { fe with hstat := 0x3F, fresh := (0, 0x15) }
     ((s.el tile0).fac 0).fresh.1 = s.cycle ∧ ((s.el tile0).fac 0).fresh.1 ≠ ({ s with cycle := 1 } : State).cycle) := by decide +kernel
theorem witness_registers_whole : plainWhole.length = 32 * 6 + 2 * 4 + 1 := by decide +kernel
def matching1 (dtrig : Word) (due : Nat) (freeze : Option Nat) : State :=
  sited fun g => { g with matches_ := [⟨11, due⟩], dtrig := dtrig, freeze := freeze }
theorem witness_trigger_due : (((matching1 0 65 none).rg 0).matches_.filter fun m => decide (m.due ≤ 64)).map (·.bitNo) = [] ∧
    (((matching1 0 64 none).rg 0).matches_.filter fun m => decide (m.due ≤ 64)).map (·.bitNo) = [11] ∧ (matching1 0 64 none).cycle = 64 ∧
    (matching1 0 64 (some 40)).frozen 0 = true ∧ (matching1 0 64 none).frozen 0 = false := by decide +kernel
/-- Match bit 11 starts the window; it starts and stops it; it stops the running one with a freeze; it leaves the running one alone. -/
theorem witness_trigger_acts : (bit (0x800 : Word) 26 = false ∧ bit (0x800 : Word) 11 = true ∧ bit (0x800 : Word) (12 + 11) = false) ∧
    (bit (0x800800 : Word) 26 = false ∧ bit (0x800800 : Word) 11 = true ∧ bit (0x800800 : Word) (12 + 11) = true) ∧
    (bit (0x6800000 : Word) 26 = true ∧ bit (0x6800000 : Word) (12 + 11) = true ∧ fld (0x6800000 : Word) 24 2 = 2) ∧
    bit (0x4000000 : Word) 26 = true ∧ bit (0x4000000 : Word) (12 + 11) = false := by decide +kernel
theorem witness_trigger_state (d : Word) : ((matching1 d 64 none).rg 0).dtrig = d ∧ ((matching1 d 64 none).rg 0).freeze = none := ⟨rfl, rfl⟩
def cutting (dcut : Word) (held : Bool) : State :=
  let s := sited fun g => { g with dcut := dcut }
  (s.modFac tile0 0 fun fe => { fe with held := held }).modFac ⟨2, 0⟩ 0 fun fe => { fe with held := held }
theorem witness_cuts : bit (8 : Word) 2 = false ∧ bit (4 : Word) 2 = true ∧ bit (4 : Word) 3 = false ∧ ((cutting 0 false).rg 0).preState = 0 ∧
    ((cutting 0 false).rg 0).cutState = 0 ∧ ((cutting 0 false).rg 0).sitesOf 0 = [63] ∧ ((saving 1 1 aSave).rg 0).preState ≠ 0 ∧
    (∀ b : Bool, ((cutting 0x10 b).rg 0).cutState = 1 ∧ (cutting 0x10 b).cutReached 0 = b) ∧ ((cutting 0x20 true).rg 0).cutState = 2 ∧
    (cutting 0x20 true).nodes 0 ((cutting 0x20 true).rg 0).cutFac ≠ [] := by decide +kernel
/-- An access to general register 63 of a trapped facet. -/
def debugging (write : Bool) (hstat : Word) : State :=
  let w : Word := BitVec.ofNat 64 (63 * 2 ^ 18 + (if write then 2 ^ 38 else 0) + 2 ^ 40)
  (sited fun g => { g with dbgadr := w, dbgdat := 77 }).modFac tile0 0 fun fe => { fe with hstat := hstat }
theorem witness_debug_go : bit (0x8000000000 : Word) 39 = true ∧ bit ((sited id).rg 0).dbgadr 40 = false ∧ bit (0x7FFFFFFFFF : Word) 39 = false := by decide +kernel
theorem witness_debug_refused : ((sited id).modRg 0 (·.writeDbg 0x8000FC0000)).dbgOk 0 = false := by decide +kernel
theorem witness_debug_read : let s := debugging false 0x100
    bit (s.rg 0).dbgadr 40 = true ∧ bit (s.rg 0).dbgadr 38 = false ∧ s.dbgOk 0 = true ∧ (debugging false 0).dbgOk 0 = false ∧
    (s.rg 0).dbgPlace.space = 0 ∧ (s.el (s.rg 0).dbgPlace.tile).act = none := by decide +kernel
theorem witness_debug_write : let s := debugging true 0x100
    bit (s.rg 0).dbgadr 40 = true ∧ bit (s.rg 0).dbgadr 38 = true ∧ s.dbgOk 0 = true ∧ (debugging true 0).dbgOk 0 = false ∧
    (s.rg 0).dbgPlace.space = 0 ∧ (s.el (s.rg 0).dbgPlace.tile).act = none := by decide +kernel
theorem witness_attest : fld State.reset.modul.bootstat 0 2 = 3 ∧ fld (booted State.reset).modul.bootstat 0 2 ≠ 3 ∧
    (([0x13, 0x85] : List Byte).getD 1 0) ∉ ([0x84, 0xE1, 0xE3, 0x81, 0x82, 0x83, 0xE0] : List Byte) := by decide +kernel
theorem witness_monitor : ((inMicrosecond 998).die 0).newUs = false ∧ ((inMicrosecond 999).die 0).newUs = true ∧ 620 ≤ (620#10).toNat ∧ (619#10).toNat < 620 ∧
    (let d := ((inMicrosecond 999).modDie 0 fun d => { d with hmon := BitVec.ofNat 64 (500 * 2 ^ 28) }).die 0
     fld d.hmon 28 10 ≤ (500#10).toNat ∧ (499#10).toNat < fld d.hmon 28 10) := by decide +kernel
def boxed (busy : Bool) (at_ : Option Nat) (cycle : Nat) : State :=
  let s := booted State.reset
  { s with modul := { s.modul with mbstat := if busy then 1 else 0, resyncAt := at_ }, cycle := cycle }
theorem witness_mailbox : bit (0xFFFF : Word) 16 = false ∧ bit (0x10001 : Word) 16 = true ∧ fld (0x10001 : Word) 0 16 = 1 ∧ fld (0x10000 : Word) 0 16 ≠ 1 ∧
    (∀ b : Bool, bit (boxed b none 0).modul.mbstat 0 = b) ∧ (let s : State := { State.reset with modul := { State.reset.modul with bootstat := 0x200 } }
     s.recovery = true ∧ bit s.modul.mbstat 0 = false) ∧
    (boxed false none 0).recovery = false ∧ (boxed false none 0).modul.resyncAt = none ∧
    (∀ c ∈ [163, 164], (boxed true (some 100) c).modul.resyncAt = some 100 ∧ (boxed true (some 100) c).cycle = c) := by decide +kernel

end Sys2Proof.Tests
end

section
/-! SUPPORT. Laws of the bit fields (R4): the bits of a word whose field has been replaced, and what its fields read after it. -/

namespace Sys2Proof

/-- A word whose field is replaced, as the number made of the bits above the field, the new field, and the bits below. -/
theorem setFld_eq_ofNat {k : Nat} (w : BitVec k) (lo n v : Nat) :
    setFld w lo n v = BitVec.ofNat k (2 ^ lo * (2 ^ n * (w.toNat / 2 ^ lo / 2 ^ n) + v % 2 ^ n) + w.toNat % 2 ^ lo) := by
  have part (x : Nat) : BitVec.ofNat k (2 ^ lo * (2 ^ n * (w.toNat / 2 ^ lo / 2 ^ n) + x) + w.toNat % 2 ^ lo) =
      BitVec.ofNat k (2 ^ lo * (2 ^ n * (w.toNat / 2 ^ lo / 2 ^ n)) + w.toNat % 2 ^ lo) + BitVec.ofNat k (x * 2 ^ lo) := by
    rw [← BitVec.ofNat_add]
    congr 1
    ring
  have whole : w = BitVec.ofNat k (2 ^ lo * (2 ^ n * (w.toNat / 2 ^ lo / 2 ^ n) + fld w lo n) + w.toNat % 2 ^ lo) := by
    rw [fld, Nat.div_add_mod, Nat.div_add_mod, BitVec.ofNat_toNat, BitVec.setWidth_eq]
  rw [part] at whole ⊢
  conv_lhs => rw [setFld]; enter [1, 1]; rw [whole]
  rw [BitVec.add_sub_cancel]

/-- Bits within the field are those of the new value; the others stay. -/
theorem bit_setFld {k : Nat} (w : BitVec k) (lo n v i : Nat) :
    bit (setFld w lo n v) i = if lo ≤ i ∧ i < lo + n then decide (i < k) && v.testBit (i - lo) else bit w i := by
  have bits : bit (setFld w lo n v) i = (decide (i < k) &&
      if i < lo then w.toNat.testBit i else if i - lo < n then v.testBit (i - lo) else w.toNat.testBit i) := by
    rw [bit, setFld_eq_ofNat, BitVec.getLsbD_ofNat, Nat.testBit_two_pow_mul_add _ (Nat.mod_lt _ (by positivity)),
      Nat.testBit_two_pow_mul_add _ (Nat.mod_lt _ (by positivity)), Nat.testBit_mod_two_pow, Nat.testBit_mod_two_pow,
      Nat.testBit_div_two_pow, Nat.testBit_div_two_pow]
    grind
  have high (h : ¬i < k) : bit w i = false := BitVec.getLsbD_of_ge _ _ (by omega)
  rw [bits, BitVec.testBit_toNat, ← bit]
  grind

theorem bit_setFld_other {k : Nat} (w : BitVec k) (lo n v i : Nat) (h : i < lo ∨ lo + n ≤ i) : bit (setFld w lo n v) i = bit w i := by
  rw [bit_setFld, if_neg (by omega)]
theorem bit_setBit_same {k : Nat} (w : BitVec k) (i : Nat) (b : Bool) (h : i < k) : bit (setBit w i b) i = b := by
  rw [setBit, bit_setFld, if_pos (by omega)]
  cases b <;> simp [h]
theorem bit_setBit_other {k : Nat} (w : BitVec k) (i j : Nat) (b : Bool) (h : j ≠ i) : bit (setBit w i b) j = bit w j :=
  bit_setFld_other _ _ _ _ _ (by omega)

theorem testBit_fld {k : Nat} (w : BitVec k) (lo n i : Nat) : (fld w lo n).testBit i = (decide (i < n) && bit w (lo + i)) := by
  rw [fld, Nat.testBit_mod_two_pow, Nat.testBit_div_two_pow, BitVec.testBit_toNat, bit, Nat.add_comm]
/-- A field is read off the bits that it is made of. -/
theorem fld_congr {k : Nat} {w x : BitVec k} {lo n : Nat} (h : ∀ i < n, bit w (lo + i) = bit x (lo + i)) : fld w lo n = fld x lo n := by
  refine Nat.eq_of_testBit_eq fun i => ?_
  rw [testBit_fld, testBit_fld]
  by_cases hi : i < n
  · rw [h i hi]
  · simp [hi]
@[simp] theorem fld_mod {k : Nat} (w : BitVec k) (lo n : Nat) : fld w lo n % 2 ^ n = fld w lo n := Nat.mod_mod ..
theorem fld_setFld_same {k : Nat} (w : BitVec k) (lo n v : Nat) (h : lo + n ≤ k) : fld (setFld w lo n v) lo n = v % 2 ^ n := by
  refine Nat.eq_of_testBit_eq fun i => ?_
  rw [testBit_fld, Nat.testBit_mod_two_pow, bit_setFld]
  by_cases hi : i < n
  · rw [if_pos (by omega), decide_eq_true (by omega : lo + i < k), Nat.add_sub_cancel_left, Bool.true_and]
  · simp [hi]
theorem fld_setFld_other {k : Nat} (w : BitVec k) (lo n v lo' n' : Nat) (h : lo' + n' ≤ lo ∨ lo + n ≤ lo') :
    fld (setFld w lo n v) lo' n' = fld w lo' n' := fld_congr fun _ _ => bit_setFld_other _ _ _ _ _ (by omega)
theorem fld_setBit_other {k : Nat} (w : BitVec k) (i : Nat) (b : Bool) (lo n : Nat) (h : i < lo ∨ lo + n ≤ i) :
    fld (setBit w i b) lo n = fld w lo n := fld_setFld_other _ _ _ _ _ _ (by omega)

end Sys2Proof
end

section
/-! SUPPORT. What stays outside one region, outside one facet of an element, and outside the nodes of a facet: each update said once, and
composed. -/

namespace Sys2Proof.Machine

theorem when_of_true {s s' : State} {c : Bool} (h : c = true) : when_ s c s' = .next s' := by rw [h, when_true]
theorem when_of_false {s s' : State} {c : Bool} (h : c = false) : when_ s c s' = .next s := by rw [h, when_false]

/-! One region -/

theorem onlyRegion_trans {a b c : State} {r : RegionId} (h : OnlyRegion a b r) (k : OnlyRegion b c r) : OnlyRegion a c r := by
  obtain ⟨hs, hr⟩ := h
  obtain ⟨ks, kr⟩ := k
  refine ⟨?_, fun q hq => (kr q hq).trans (hr q hq)⟩
  rw [← hs, ← ks]
theorem State.modRg_only (s : State) (r : RegionId) (h : Region → Region) : OnlyRegion s (s.modRg r h) r :=
  ⟨rfl, fun q hq => s.modRg_rg_other r q h hq⟩

/-! One element and one facet of it -/

theorem State.modEl_only (s : State) (t : Tile) (h : Element → Element) : OnlyElement s (s.modEl t h) t :=
  ⟨rfl, fun u hu => s.modEl_el_other t u h hu⟩
theorem State.modFac_only (s : State) (t : Tile) (f : Facet) (h : FacetEl → FacetEl) : OnlyFacet s (s.modFac t f h) t f := by
  refine ⟨s.modEl_only t _, fun g hg => ?_, ?_⟩
  · rw [State.modFac_el_same, Element.modFac_fac_other _ _ _ _ hg]
  · rw [State.modFac_el_same]; rfl
/-- Elements and MTs are found by the key of their tile. -/
theorem State.el_congr (s : State) {t u : Tile} (h : u.key = t.key) : s.el u = s.el t := by rw [State.el, h, State.el]
theorem State.mt_congr (s : State) {t u : Tile} (h : u.key = t.key) : s.mt u = s.mt t := by rw [State.mt, h, State.mt]

/-! Causes of a region leave its registers but the FIFO's -/

@[simp] theorem State.causeRg_rg_dtrig (s : State) (q : RegionId) (f : Facet) (c d : Nat) (r : RegionId) :
    ((s.causeRg q f c d).rg r).dtrig = (s.rg r).dtrig := (congrArg Region.dtrig (s.causeRg_rg q f c d r) :)
@[simp] theorem State.causeRg_rg_freeze (s : State) (q : RegionId) (f : Facet) (c d : Nat) (r : RegionId) :
    ((s.causeRg q f c d).rg r).freeze = (s.rg r).freeze := (congrArg Region.freeze (s.causeRg_rg q f c d r) :)
@[simp] theorem State.causeRg_rg_dcut (s : State) (q : RegionId) (f : Facet) (c d : Nat) (r : RegionId) :
    ((s.causeRg q f c d).rg r).dcut = (s.rg r).dcut := (congrArg Region.dcut (s.causeRg_rg q f c d r) :)

/-! Nodes: what a node does with a mark stays within the elements and the MTs (R371, R448) -/

/-- Only elements and MTs change. -/
def OnlyNodes (s s' : State) : Prop := { s' with elements := s.elements, mts := s.mts } = s

theorem OnlyNodes.refl (s : State) : OnlyNodes s s := rfl
theorem OnlyNodes.trans {a b c : State} (h : OnlyNodes a b) (k : OnlyNodes b c) : OnlyNodes a c := by
  unfold OnlyNodes at *
  rw [← h, ← k]
theorem OnlyNodes.foldl {α : Type} {step : State → α → State} (h : ∀ s x, OnlyNodes s (step s x)) (l : List α) (s : State) :
    OnlyNodes s (l.foldl step s) := by
  induction l generalizing s with
  | nil => exact .refl s
  | cons x l ih => exact (h s x).trans (ih _)
theorem OnlyNodes.ite {s a b : State} (c : Prop) [Decidable c] (ha : OnlyNodes s a) (hb : OnlyNodes s b) : OnlyNodes s (if c then a else b) := by
  split
  · exact ha
  · exact hb
theorem OnlyNodes.mem {s s' : State} (h : OnlyNodes s s') : s'.mem = s.mem :=
  (congrArg State.mem (show { s' with elements := s.elements, mts := s.mts } = s from h) :)
theorem OnlyNodes.rg {s s' : State} (h : OnlyNodes s s') (r : RegionId) : s'.rg r = s.rg r :=
  (congrArg (State.rg · r) (show { s' with elements := s.elements, mts := s.mts } = s from h) :)

theorem State.modFac_nodes (s : State) (t : Tile) (f : Facet) (h : FacetEl → FacetEl) : OnlyNodes s (s.modFac t f h) := rfl
theorem State.modMtFac_nodes (s : State) (t : Tile) (f : Facet) (h : MtFacet → MtFacet) : OnlyNodes s (s.modMtFac t f h) := rfl
theorem State.modEl_nodes (s : State) (t : Tile) (h : Element → Element) : OnlyNodes s (s.modEl t h) := rfl
theorem State.modMt_nodes (s : State) (t : Tile) (h : MemTile → MemTile) : OnlyNodes s (s.modMt t h) := rfl
theorem State.dropHeads_nodes (s : State) (t : Tile) (f : Facet) (ports : List (Fin 16)) : OnlyNodes s (s.dropHeads t f ports) :=
  .foldl (fun s _ => .ite _ (s.modFac_nodes ..) (s.modMtFac_nodes ..)) ports s
theorem State.passMark_nodes (s : State) (t : Tile) (f : Facet) (k : Token) : OnlyNodes s (s.passMark t f k) :=
  .foldl (fun s _ => .ite _ (s.modEl_nodes ..) (s.modMt_nodes ..)) _ s
theorem State.holdNode_nodes (s : State) (t : Tile) (f : Facet) (b : Bool) : OnlyNodes s (s.holdNode t f b) :=
  .ite _ (s.modFac_nodes ..) (s.modMtFac_nodes ..)
theorem State.snapNode_nodes (s : State) (t : Tile) (f : Facet) (n : Nat) (m : BitVec 16) : OnlyNodes s (s.snapNode t f n m) :=
  .ite _ (s.modEl_nodes ..) (s.modMt_nodes ..)
theorem State.takeTide_nodes (s : State) (t : Tile) (f : Facet) (k : Token) (b : Bool) : OnlyNodes s (s.takeTide t f k b) :=
  (s.dropHeads_nodes ..).trans ((OnlyNodes.ite _ (State.snapNode_nodes ..) (.refl _)).trans (State.passMark_nodes ..))
theorem State.takeHold_nodes (s : State) (t : Tile) (f : Facet) (k : Token) (b : Bool) : OnlyNodes s (s.takeHold t f k b) :=
  (s.dropHeads_nodes ..).trans ((State.passMark_nodes ..).trans (State.holdNode_nodes ..))
theorem State.rootsTake_nodes (s : State) (r : RegionId) (f : Facet) (k : Token) : OnlyNodes s (s.rootsTake r f k) :=
  .foldl (fun s _ => .ite _ (.ite _ (s.takeTide_nodes ..) (s.takeHold_nodes ..)) (.refl s)) _ s

/-! The hold of a node (R390, R448) -/

@[simp] theorem State.holdNode_nodeHeld (s : State) (t : Tile) (f : Facet) (b : Bool) : (s.holdNode t f b).nodeHeld t f = b := by
  unfold State.holdNode State.nodeHeld
  cases t.isCT <;> simp
/-- Letting one node go holds no other, not even one whose tile has the same key. -/
theorem State.holdNode_nodeHeld_false (s : State) (t u : Tile) (f : Facet) (h : s.nodeHeld u f = false) :
    (s.holdNode t f false).nodeHeld u f = false := by
  unfold State.nodeHeld at *
  by_cases hk : u.key = t.key
  · rw [State.el_congr _ hk, State.mt_congr _ hk] at *
    cases ht : t.isCT <;> cases hu : u.isCT <;> simp_all [State.holdNode]
  · cases ht : t.isCT <;> simp only [State.holdNode, ht, if_true, if_false, Bool.false_eq_true, State.modFac_mt, State.modMtFac_el,
      State.modFac_el_other _ _ _ _ _ hk, State.modMtFac_mt_other _ _ _ _ _ hk] <;> exact h
/-- Once the nodes of a list are let go, none of them is held. -/
theorem State.foldl_holdNode_nodeHeld (l : List Tile) (f : Facet) (s : State) (t : Tile) (h : t ∈ l ∨ s.nodeHeld t f = false) :
    (l.foldl (fun s t => s.holdNode t f false) s).nodeHeld t f = false := by
  induction l generalizing s with
  | nil => exact h.resolve_left (List.not_mem_nil)
  | cons u l ih =>
    refine ih _ ?_
    rcases h with h | h
    · rcases List.mem_cons.1 h with rfl | h
      · exact .inr (s.holdNode_nodeHeld t f false)
      · exact .inl h
    · exact .inr (s.holdNode_nodeHeld_false u t f h)

/-! Marks that wait at sites (R369, R448) -/

/-- A mark stands among those of a port to which it was added, and of a port at which it stood before. -/
theorem mem_foldl_tmod (ports : List Nat) (k : Token) (m : Tab (List Token)) (p : Nat) (h : p ∈ ports ∨ k ∈ tget m p []) :
    k ∈ tget (ports.foldl (fun m p => tmod m p [] (· ++ [k])) m) p [] := by
  induction ports generalizing m with
  | nil => exact h.resolve_left (List.not_mem_nil)
  | cons q ports ih =>
    refine ih _ ?_
    by_cases hq : p = q
    · subst hq
      exact .inr (by simp [tmod])
    · simp only [tmod, tget_tset_other _ _ _ _ _ hq]
      exact h.imp_left fun h => (List.mem_cons.1 h).resolve_left hq
theorem Region.mem_queueMark (g : Region) (ports : List Nat) (k : Token) (p : Nat) (h : p ∈ ports) :
    k ∈ tget (g.queueMark ports k).siteMarks p [] := mem_foldl_tmod ports k g.siteMarks p (.inl h)

end Sys2Proof.Machine
end

section
/-! SUPPORT. Writes of registers, the trigger, cuts and debug accesses (R5, R166, R444 to R451): the arms of exec, what each leaves, and
the statement about them. -/

namespace Sys2Proof.Machine

/-! The meanings -/

theorem exec_registerWrite (reg : PlainReg) (v : Word) (s : State) : exec (.registerWrite reg v) s = execRegisterWrite reg v s := rfl
theorem exec_triggerEval (r : RegionId) (s : State) : exec (.triggerEval r) s = execTriggerEval r s := rfl
theorem exec_cutStart (r : RegionId) (v : Word) (s : State) : exec (.cutStart r v) s = execCutStart r v s := rfl
theorem exec_cutHeld (r : RegionId) (s : State) : exec (.cutHeld r) s = execCutHeld r s := rfl
theorem exec_cutRelease (r : RegionId) (s : State) : exec (.cutRelease r) s = execCutRelease r s := rfl
theorem exec_debugAccess (r : RegionId) (v : Word) (s : State) : exec (.debugAccess r v) s = .next (s.writeDbg r v) := rfl
theorem exec_debugAccessComplete (r : RegionId) (s : State) : exec (.debugAccessComplete r) s = execDebugAccessComplete r s := rfl

/-! Writes of registers (R5, R166) -/

/-- Outside recovery mode a write does what the register lets it do (R453). -/
theorem registerWrite_next {s : State} (h : s.recovery = false) (reg : PlainReg) (v : Word) :
    exec (.registerWrite reg v) s = .next (s.writeReg reg v) := when_of_true (by rw [h]; rfl)
theorem registerWrite_recovery {s : State} {reg : PlainReg} (h : s.recovery = true) (hr : inRecovery reg = false) (v : Word) :
    exec (.registerWrite reg v) s = .next s := when_of_false (by rw [h, hr]; rfl)

/-- A change of what sites stamp touches the phases alone (R452). -/
theorem Region.phaseStamps_frame (old g : Region) (f : Facet) : { old.phaseStamps g f with phs := g.phs } = g := by
  unfold Region.phaseStamps
  split
  · rfl
  · split <;> rfl
theorem Region.foldl_phaseStamps_frame (old : Region) (l : List Facet) (g : Region) :
    { l.foldl (fun g f => old.phaseStamps g f) g with phs := g.phs } = g := by
  induction l generalizing g with
  | nil => rfl
  | cons f l ih =>
    have := congrArg (fun x : Region => { x with phs := g.phs }) (ih (old.phaseStamps g f))
    exact this.trans (old.phaseStamps_frame g f)
theorem Region.restamp_frame (old : Region) (h : Region → Region) : { old.restamp h with phs := (h old).phs } = h old :=
  old.foldl_phaseStamps_frame _ _
theorem Region.restamp_ctl (old : Region) (h : Region → Region) : (old.restamp h).ctl = (h old).ctl :=
  (congrArg Region.ctl (old.restamp_frame h) :)
/-- A write of RGCTL (R166). -/
theorem Region.writeCtl_ctl (g : Region) (v : Word) : (g.writeCtl v).ctl = rw g.ctl v (if g.en then 0xFF001 else 0xFF007) := by
  rw [Region.writeCtl, Region.restamp_ctl]




theorem writeReg_plainWhole (s : State) (v : Word) : ∀ x ∈ plainWhole,
    (s.writeReg x.1 v).readReg x.1 = v &&& x.2 ∧ (s.writeReg x.1 v).mem = s.mem ∧ (s.writeReg x.1 v).elements = s.elements := by
  intro x hx
  simp only [plainWhole, List.mem_append, List.mem_flatMap, List.mem_cons, List.not_mem_nil, or_false] at hx
  rcases hx with (⟨r, -, rfl | rfl | rfl | rfl | rfl | rfl⟩ | ⟨io, -, rfl | rfl | rfl | rfl⟩) | rfl <;>
    exact ⟨by simp [-BitVec.reduceAllOnes, State.writeReg, State.readReg], rfl, rfl⟩
/-- Fields that are stored, beside bits that keep their value. -/
theorem writeReg_rw (s : State) (v : Word) (r : RegionId) :
    ∀ x ∈ ([(.rgpgr r, 0x1FFF#64), (.rgmlen r, 0xFFFFFF#64), (.rghup r, 0xFFFF00000000#64)] : List (PlainReg × Word)),
      OnlyRegion s (s.writeReg x.1 v) r ∧ (s.writeReg x.1 v).readReg x.1 = (s.readReg x.1 &&& ~~~x.2) ||| (v &&& x.2) := by
  intro x hx
  simp only [List.mem_cons, List.not_mem_nil, or_false] at hx
  rcases hx with rfl | rfl | rfl <;> exact ⟨s.modRg_only .., by simp only [State.writeReg, State.readReg, State.modRg_rg_same, rw, BitVec.ofNat_eq_ofNat]⟩
/-- Bits that a 1 clears. -/
theorem writeReg_w1c (s : State) (v : Word) (r : RegionId) :
    ∀ x ∈ ([(.rgstat r, 0xF#64), (.lqstat r, 0x30#64)] : List (PlainReg × Word)),
      OnlyRegion s (s.writeReg x.1 v) r ∧ (s.writeReg x.1 v).readReg x.1 = s.readReg x.1 &&& ~~~(v &&& x.2) := by
  intro x hx
  simp only [List.mem_cons, List.not_mem_nil, or_false] at hx
  rcases hx with rfl | rfl <;> exact ⟨s.modRg_only .., by simp [State.writeReg, State.readReg, w1c]⟩
theorem writeReg_rgctl (s : State) (v : Word) (r : RegionId) : let mask : Word := if (s.rg r).en then 0xFF001 else 0xFF007
    OnlyRegion s (s.writeReg (.rgctl r) v) r ∧ ((s.writeReg (.rgctl r) v).rg r).ctl = ((s.rg r).ctl &&& ~~~mask) ||| (v &&& mask) ∧
      (s.writeReg (.rgctl r) v).mem = s.mem :=
  ⟨s.modRg_only .., by rw [State.writeReg, State.modRg_rg_same, Region.writeCtl_ctl, rw], rfl⟩
theorem writeReg_fenable (s : State) (v : Word) (t : Tile) : let s' := s.writeReg (.fenable t) v
    OnlyElement s s' t ∧ (s'.el t).fenable.toNat = v.toNat % 16 ∧ { s'.el t with fenable := (s.el t).fenable } = s.el t :=
  ⟨s.modEl_only .., by simp [State.writeReg], by simp [State.writeReg]⟩
/-- The bits of HSTAT that a write leaves 1 although a 1 is written: flags that a commit of this cycle has raised (R85). -/
def State.freshFlags (s : State) (fe : FacetEl) : Word := if fe.fresh.1 = s.cycle then fe.fresh.2.setWidth 64 else 0
/-- A write of HSTAT that clears no trap clears bits of HSTAT alone (R13, R85). -/
theorem State.writeHstat_eq (s : State) (t : Tile) (f : Facet) (v : Word) (h : bit v 8 = false ∨ bit ((s.el t).fac f).hstat 8 = false) :
    s.writeHstat t f v = s.modFac t f fun fe => { fe with hstat := fe.hstat &&& ~~~(v &&& 0x23F &&& ~~~s.freshFlags fe) } := by
  have keep : (bit v 8 && bit ((s.el t).fac f).hstat 8) = false := by
    rcases h with h | h <;> simp [h]
  simp only [State.writeHstat, keep, Bool.false_eq_true, if_false]
  rfl
theorem writeReg_hstat (s : State) (v : Word) (t : Tile) (f : Facet) (h : bit v 8 = false ∨ bit ((s.el t).fac f).hstat 8 = false) :
    let s' := s.writeReg (.hstat t f) v
    OnlyFacet s s' t f ∧ ((s'.el t).fac f).hstat = ((s.el t).fac f).hstat &&& ~~~(v &&& 0x23F &&& ~~~s.freshFlags ((s.el t).fac f)) := by
  simp only [State.writeReg, s.writeHstat_eq t f v h]
  exact ⟨s.modFac_only .., by simp⟩

/-- Each register of R5, R12, R13 and R166 by the lemma of its kind; in recovery mode none (R453). -/
theorem registerWrites : RegisterWrites := by
  intro s v
  refine ⟨fun reg h hr => registerWrite_recovery h hr v, fun h => ?_⟩
  have next (reg : PlainReg) {P : State → Prop} (hP : P (s.writeReg reg v)) : ∃ s', exec (.registerWrite reg v) s = .next s' ∧ P s' :=
    ⟨_, registerWrite_next h reg v, hP⟩
  refine ⟨fun x hx => next _ (writeReg_plainWhole s v x hx), fun r x hx => next _ (writeReg_rw s v r x hx),
    fun r x hx => next _ (writeReg_w1c s v r x hx), fun d => next _ ⟨?_, rfl⟩, next _ ⟨rfl, rfl⟩, fun r => next _ (writeReg_rgctl s v r),
    fun t => next _ (writeReg_fenable s v t), fun t f hv => next _ (writeReg_hstat s v t f hv), fun r j f q => ?_⟩
  · simp [State.writeReg, w1c]
  · exact ⟨registerWrite_next h .., registerWrite_next h .., registerWrite_next h .., registerWrite_next h .., registerWrite_next h ..,
      next _ ⟨s.modRg_only .., by simp [State.writeReg]⟩⟩

/-! The trigger (R447) -/

/-- One match that names START alone starts an idle window; where it names STOP too, the window is done at once. -/
theorem State.trigger_idle {s : State} {r : RegionId} {b : Nat} (h : bit (s.rg r).dtrig 26 = false) (hb : bit (s.rg r).dtrig b = true) :
    s.trigger r [b] =
      s.modRg r fun g => { g with dtrig := setBit (s.rg r).dtrig (if bit (s.rg r).dtrig (12 + b) then 27 else 26) true } := by
  cases hs : bit (s.rg r).dtrig (12 + b) <;> simp [State.trigger, h, hb, hs]
/-- One match that names no STOP leaves a running window alone. -/
theorem State.trigger_runs {s : State} {r : RegionId} {b : Nat} (h : bit (s.rg r).dtrig 26 = true)
    (hb : bit (s.rg r).dtrig (12 + b) = false) : s.trigger r [b] = s := by
  simp [State.trigger, h, hb]
/-- One match that names STOP ends a running window. -/
theorem State.trigger_stops {s : State} {r : RegionId} {b : Nat} (h : bit (s.rg r).dtrig 26 = true)
    (hb : bit (s.rg r).dtrig (12 + b) = true) :
    s.trigger r [b] = (s.modRg r fun g => { g with dtrig := setBit (s.rg r).dtrig 26 false }).trigAct r b := by
  simp [State.trigger, h, hb]
theorem State.trigAct_freeze {s : State} {r : RegionId} (b : Nat) (ha : fld (s.rg r).dtrig 24 2 = 2) (hf : (s.rg r).freeze = none) :
    s.trigAct r b = (s.modRg r fun g => { g with freeze := some s.cycle }).causeRg r 0 causeFreeze b := by
  simp [State.trigAct, ha, hf]

/-- The region once the matches that have reached the trigger are taken. -/
def State.afterMatches (s : State) (r : RegionId) : State := (s.takeMatches r).2
theorem State.afterMatches_only (s : State) (r : RegionId) : OnlyRegion s (s.afterMatches r) r := s.modRg_only ..
@[simp] theorem State.afterMatches_rg (s : State) (r : RegionId) :
    (s.afterMatches r).rg r = { s.rg r with matches_ := (s.rg r).matches_.filter fun m => !decide (m.due ≤ s.cycle) } := s.modRg_rg_same ..
@[simp] theorem State.afterMatches_cycle (s : State) (r : RegionId) : (s.afterMatches r).cycle = s.cycle := rfl
@[simp] theorem State.afterMatches_mem (s : State) (r : RegionId) : (s.afterMatches r).mem = s.mem := rfl
theorem triggerEval_idle {s : State} {r : RegionId} (h : ((s.rg r).matches_.filter fun m => decide (m.due ≤ s.cycle)) = []) :
    exec (.triggerEval r) s = .next (s.afterMatches r) := by
  rw [exec_triggerEval, execTriggerEval, if_pos (by simp [State.takeMatches, h]), State.afterMatches]
theorem triggerEval_frozen {s : State} {r : RegionId} (h : s.frozen r = true) :
    exec (.triggerEval r) s = .next (s.afterMatches r) := by
  rw [exec_triggerEval, execTriggerEval, if_pos (by simp [h]), State.afterMatches]
theorem triggerEval_match {s : State} {r : RegionId} {b : Nat}
    (h : ((s.rg r).matches_.filter fun m => decide (m.due ≤ s.cycle)).map (·.bitNo) = [b]) (hf : s.frozen r = false) :
    exec (.triggerEval r) s = .next ((s.afterMatches r).trigger r [b]) := by
  have hits : (s.takeMatches r).1 = [b] := h
  rw [exec_triggerEval, execTriggerEval, if_neg (by simp [hits, hf]), hits, State.afterMatches]

/-- The four things a single match can meet: a frozen region, an idle window, a running one that it stops, and one that it leaves (R447). -/
theorem triggers : Triggers := by
  intro s r b g
  have only := s.afterMatches_only r
  refine ⟨fun h => ⟨_, triggerEval_idle h, only, ?_⟩, fun h => ⟨fun hf => ⟨_, triggerEval_frozen hf, only, ?_⟩, fun hf h26 hb => ?_,
    fun hf h26 hb ha hz => ?_, fun hf h26 hb => ?_⟩⟩
  · have none_due : (g.matches_.filter fun m => !decide (m.due ≤ s.cycle)) = g.matches_ := by
      simpa [List.filter_eq_self, List.filter_eq_nil_iff] using h
    rw [State.afterMatches_rg, none_due]
  · rw [State.afterMatches_rg]
  · refine ⟨_, triggerEval_match h hf, ?_⟩
    rw [State.trigger_idle (by simpa using h26) (by simpa using hb)]
    refine ⟨onlyRegion_trans only (State.modRg_only ..), by simp [g], ?_⟩
    simp only [State.afterMatches_rg, State.modRg_rg_same]
    exact bit_setBit_same _ _ _ (by split <;> omega)
  · refine ⟨_, triggerEval_match h hf, ?_⟩
    have act : fld (setBit g.dtrig 26 false) 24 2 = 2 := (fld_setBit_other _ _ _ _ _ (by omega)).trans ha
    rw [State.trigger_stops (by simpa using h26) (by simpa using hb), State.trigAct_freeze b (by simpa using act) (by simpa using hz)]
    refine ⟨?_, ?_, ?_⟩
    · rw [State.causeRg_rg_dtrig, State.modRg_rg_same, State.modRg_rg_same]
      exact bit_setBit_same _ _ _ (by omega)
    · rw [State.causeRg_rg_freeze, State.modRg_rg_same, State.modRg_cycle, State.afterMatches_cycle]
    · rw [State.causeRg_mem, State.modRg_mem, State.modRg_mem, State.afterMatches_mem]
  · refine ⟨_, triggerEval_match h hf, ?_⟩
    rw [State.trigger_runs (by simpa using h26) (by simpa using hb)]
    exact ⟨only, by rw [State.afterMatches_rg]⟩

/-! Cuts (R448, R449) -/

theorem Region.cutState_writeCut (g : Region) (v : Word) : (g.writeCut v).cutState = g.cutState := by
  simp [Region.cutState, Region.writeCut, fld_setBit_other, fld_setFld_other]
theorem Region.ncut_writeCut (g : Region) (v : Word) : (g.writeCut v).ncut = g.ncut := by
  simp [Region.ncut, Region.writeCut, fld_setBit_other, fld_setFld_other]
theorem Region.fac_writeCut (g : Region) (v : Word) : fld (g.writeCut v).dcut 0 2 = fld v 0 2 := by
  rw [Region.writeCut, fld_setBit_other _ _ _ _ _ (by omega), fld_setBit_other _ _ _ _ _ (by omega), fld_setFld_same _ _ _ _ (by omega), fld_mod]
/-- A refused cut changes DCUT alone. -/
theorem Region.refuseCut_writeCut_frame (g : Region) (v : Word) : { (g.writeCut v).refuseCut with dcut := g.dcut } = g := by
  rw [Region.refuseCut, Region.writeCut]
/-- What DCUT and the sites hold once a cut has begun (R448). -/
theorem State.beginCut_rg (s : State) (r : RegionId) : let g := s.rg r
    let f : Facet := Fin.ofNat 4 (fld g.dcut 0 2)
    let n := (g.ncut + 1) % 2 ^ 32
    (s.beginCut r).rg r = { g.queueMark (g.sitesOf f) (markTok f markDebug n) with
      dcut := setFld (setFld g.dcut 8 32 n) 4 2 1, cutFac := f, cutMarks := [] } :=
  ((State.rootsTake_nodes _ _ _ _).rg r).trans (s.modRg_rg_same r _)
theorem State.beginCut_mem (s : State) (r : RegionId) : (s.beginCut r).mem = s.mem := (State.rootsTake_nodes _ _ _ _).mem
/-- A write of DCUT with GO and without RELEASE. -/
theorem cutStart_go {s : State} {r : RegionId} {v : Word} (hgo : bit v 2 = true) (hrel : bit v 3 = false) :
    exec (.cutStart r v) s = .next ((s.modRg r (·.writeCut v)).goCut r) := by
  rw [exec_cutStart, execCutStart, when_of_true hgo]
  simp [State.writeCut, hgo, hrel]
theorem State.endCut_rg_cutState (s : State) (r : RegionId) : ((s.endCut r).rg r).cutState = 0 := by
  rw [State.endCut, (OnlyNodes.foldl (fun s t => s.holdNode_nodes t _ false) _ _).rg r, State.modRg_rg_same, Region.cutState]
  exact fld_setFld_same _ _ _ _ (by omega)
theorem State.endCut_mem (s : State) (r : RegionId) : (s.endCut r).mem = s.mem :=
  (OnlyNodes.foldl (fun s t => s.holdNode_nodes t _ false) _ _).mem
theorem State.endCut_nodeHeld (s : State) (r : RegionId) (t : Tile) (h : t ∈ s.nodes r (s.rg r).cutFac) :
    (s.endCut r).nodeHeld t (s.rg r).cutFac = false := State.foldl_holdNode_nodeHeld _ _ _ t (.inl h)

/-- A cut from GO to its release (R448, R449). -/
theorem cuts : Cuts := by
  intro s r g
  refine ⟨fun v h => when_of_false h, fun v hgo hrel => ⟨fun hp hc => ?_, fun hp => ?_⟩, fun hc => ⟨fun h => ?_, fun h => ?_⟩, fun hc => ?_,
    fun hc => ?_⟩
  · refine ⟨_, cutStart_go hgo hrel, ?_⟩
    have start : (s.modRg r (·.writeCut v)).goCut r = (s.modRg r (·.writeCut v)).beginCut r := by
      have hp' : (g.writeCut v).preState = 0 := hp
      rw [State.goCut, State.modRg_rg_same, if_neg (not_not.2 hp'), if_neg (not_not.2 ((g.cutState_writeCut v).trans hc))]
    rw [start, State.beginCut_mem, State.beginCut_rg, State.modRg_rg_same, Region.fac_writeCut, Region.ncut_writeCut]
    refine ⟨?_, rfl, ?_, rfl, fun p hp => Region.mem_queueMark _ _ _ p hp⟩
    · exact fld_setFld_same _ _ _ _ (by omega)
    · rw [Region.ncut, fld_setFld_other _ _ _ _ _ _ (by omega), fld_setFld_same _ _ _ _ (by omega), Nat.mod_mod]
  · refine ⟨_, cutStart_go hgo hrel, ?_⟩
    have refuse : (s.modRg r (·.writeCut v)).goCut r = (s.modRg r (·.writeCut v)).modRg r Region.refuseCut := by
      have hp' : (g.writeCut v).preState ≠ 0 := hp
      rw [State.goCut, State.modRg_rg_same, if_pos hp']
    rw [refuse]
    refine ⟨onlyRegion_trans (State.modRg_only ..) (State.modRg_only ..), ?_⟩
    simp only [State.modRg_rg_same]
    exact ⟨bit_setBit_same _ _ _ (by omega), (fld_setBit_other _ _ _ _ _ (by omega)).trans (g.cutState_writeCut v), Region.refuseCut_writeCut_frame ..⟩
  · exact when_of_false (by simp [h])
  · exact ⟨_, when_of_true (by rw [h, hc]; rfl), by simp [Region.cutState, fld_setFld_same], by simp, by simp, by simp⟩
  · exact ⟨_, when_of_true (beq_iff_eq.2 hc), s.endCut_rg_cutState r, s.endCut_nodeHeld r, s.endCut_mem r⟩
  · exact when_of_false (beq_false_of_ne hc)

/-! Debug accesses (R444, R451) -/

/-- A write of DBGADR changes the low 39 bits and may clear ERR; every other bit stays (R444). -/
theorem Region.writeDbg_frame (g : Region) (v : Word) : { g.writeDbg v with dbgadr := g.dbgadr } = g := by rw [Region.writeDbg]
theorem Region.fld_writeDbg (g : Region) (v : Word) : fld (g.writeDbg v).dbgadr 0 39 = fld v 0 39 := by
  rw [Region.writeDbg, fld_setBit_other _ _ _ _ _ (by omega), fld_setFld_same _ _ _ _ (by omega), fld_mod]
theorem Region.busy_writeDbg (g : Region) (v : Word) : bit (g.writeDbg v).dbgadr 40 = bit g.dbgadr 40 := by
  rw [Region.writeDbg, bit_setBit_other _ _ _ _ (by omega), bit_setFld_other _ _ _ _ _ (by omega)]

/-- DBGADR once an access has started (R451): BUSY, or ERR where it is refused. -/
def startedDbg (w : Word) (ok : Bool) : Word := setBit w (if ok then 40 else 41) true
theorem fld_startedDbg (w : Word) (ok : Bool) : fld (startedDbg w ok) 0 39 = fld w 0 39 :=
  fld_setBit_other _ _ _ _ _ (by split <;> omega)
theorem busy_startedDbg (w : Word) (ok : Bool) (h : bit w 40 = false) : bit (startedDbg w ok) 40 = ok := by
  cases ok
  · exact (bit_setBit_other _ _ _ _ (by decide)).trans h
  · exact bit_setBit_same _ _ _ (by decide)
theorem err_startedDbg (w : Word) : bit (startedDbg w false) 41 = true := bit_setBit_same _ _ _ (by decide)

/-- A write of DBGADR that starts an access: GO is written and none is under way. -/
theorem State.writeDbg_go {s : State} {r : RegionId} {v : Word} (hgo : bit v 39 = true) (hb : bit (s.rg r).dbgadr 40 = false) :
    s.writeDbg r v = (s.modRg r (·.writeDbg v)).modRg r fun g =>
      { g with dbgadr := startedDbg g.dbgadr ((s.modRg r (·.writeDbg v)).dbgOk r) } := by
  simp only [State.writeDbg, hgo, hb, Bool.not_false, Bool.and_self, if_true]
  rfl
theorem State.writeDbg_plain {s : State} {r : RegionId} {v : Word} (h : bit v 39 = false ∨ bit (s.rg r).dbgadr 40 = true) :
    s.writeDbg r v = s.modRg r (·.writeDbg v) := by
  rcases h with h | h <;> simp [State.writeDbg, h]

/-- An access ends with BUSY clear (R451). -/
def State.clearDbg (s : State) (r : RegionId) : State := s.modRg r fun g => { g with dbgadr := setBit g.dbgadr 40 false }
theorem State.clearDbg_only (s : State) (r : RegionId) : OnlyRegion s (s.clearDbg r) r := s.modRg_only ..
@[simp] theorem State.clearDbg_rg (s : State) (r : RegionId) :
    (s.clearDbg r).rg r = { s.rg r with dbgadr := setBit (s.rg r).dbgadr 40 false } := s.modRg_rg_same ..
@[simp] theorem State.clearDbg_el (s : State) (r : RegionId) (t : Tile) : (s.clearDbg r).el t = s.el t := rfl
@[simp] theorem State.clearDbg_mem (s : State) (r : RegionId) : (s.clearDbg r).mem = s.mem := rfl
theorem debugAccessComplete_refused {s : State} {r : RegionId} (hb : bit (s.rg r).dbgadr 40 = true) (h : s.dbgOk r = false) :
    exec (.debugAccessComplete r) s = .next ((s.clearDbg r).modRg r fun g => { g with dbgadr := setBit g.dbgadr 41 true }) := by
  rw [exec_debugAccessComplete, execDebugAccessComplete, when_of_true hb, State.endDbg, if_pos (by rw [h]; rfl), State.clearDbg]
theorem debugAccessComplete_read {s : State} {r : RegionId} (hb : bit (s.rg r).dbgadr 40 = true) (h : s.dbgOk r = true)
    (hw : bit (s.rg r).dbgadr 38 = false) :
    exec (.debugAccessComplete r) s = .next ((s.clearDbg r).modRg r fun g => { g with dbgdat := s.dbgRead (s.rg r).dbgPlace }) := by
  rw [exec_debugAccessComplete, execDebugAccessComplete, when_of_true hb, State.endDbg, if_neg (by simp [h]), if_neg (by simp [hw]), State.clearDbg]
theorem debugAccessComplete_write {s : State} {r : RegionId} (hb : bit (s.rg r).dbgadr 40 = true) (h : s.dbgOk r = true)
    (hw : bit (s.rg r).dbgadr 38 = true) :
    exec (.debugAccessComplete r) s = .next ((s.clearDbg r).dbgWrite (s.rg r).dbgPlace (s.rg r).dbgdat) := by
  rw [exec_debugAccessComplete, execDebugAccessComplete, when_of_true hb, State.endDbg, if_neg (by simp [h]), if_pos hw, State.clearDbg]

/-- Space 0 outside an activation is the general registers of the facet's bank (R451). -/
theorem State.dbgRead_general {s : State} {x : DbgPlace} (hs : x.space = 0) (ha : (s.el x.tile).act = none) :
    s.dbgRead x = ((s.el x.tile).fac x.facet).bank.rg (BitVec.ofNat 6 x.index) := by
  simp [State.dbgRead, State.dbgBank, State.dbgAct, hs, ha]
theorem State.dbgWrite_general {s : State} {x : DbgPlace} (hs : x.space = 0) (ha : (s.el x.tile).act = none) (v : Word) :
    s.dbgWrite x v = s.modFac x.tile x.facet fun fe => { fe with bank := fe.bank.wg (BitVec.ofNat 6 x.index) v } := by
  simp [State.dbgWrite, State.dbgSetBank, State.dbgAct, Element.modFac, hs, ha]
/-- A permitted access to space 0 names one of g1 to g63. -/
theorem State.dbgOk_general {s : State} {r : RegionId} (h : s.dbgOk r = true) (hs : (s.rg r).dbgPlace.space = 0) :
    BitVec.ofNat 6 (s.rg r).dbgPlace.index ≠ 0 := by
  simp only [State.dbgOk, Bool.and_eq_true] at h
  obtain ⟨⟨-, range⟩, -⟩ := h
  simp only [State.dbgInRange, hs, if_true, Bool.and_eq_true, decide_eq_true_eq] at range
  obtain ⟨-, lo, hi⟩ := range
  intro zero
  have low : (s.rg r).dbgPlace.index % 2 ^ 6 = 0 := (BitVec.toNat_ofNat ..).symm.trans (congrArg BitVec.toNat zero)
  omega

/-- An access from GO to its end (R444, R451). -/
theorem debugAccesses : DebugAccesses := by
  intro s r g
  refine ⟨fun v => ⟨_, exec_debugAccess r v s, ?_⟩, fun hb => when_of_false hb,
    fun hb => ⟨fun h => ⟨_, debugAccessComplete_refused hb h, ?_⟩, fun h hs ha => ⟨fun hw => ⟨_, debugAccessComplete_read hb h hw, ?_⟩,
      fun hw => ⟨_, debugAccessComplete_write hb h hw, ?_⟩⟩⟩⟩
  · by_cases go : bit v 39 = true ∧ bit g.dbgadr 40 = false
    · obtain ⟨hgo, hb⟩ := go
      rw [State.writeDbg_go hgo hb]
      refine ⟨onlyRegion_trans (s.modRg_only ..) (State.modRg_only ..), ?_⟩
      simp only [State.modRg_rg_same]
      refine ⟨(fld_startedDbg ..).trans (g.fld_writeDbg v), g.writeDbg_frame v, fun _ _ => ?_, fun h => absurd (hgo.symm.trans h) (by decide)⟩
      exact ⟨busy_startedDbg _ _ ((g.busy_writeDbg v).trans hb), fun hok => by rw [hok]; exact err_startedDbg _⟩
    · have plain : bit v 39 = false ∨ bit g.dbgadr 40 = true := by
        cases h : bit v 39 <;> simp_all
      rw [State.writeDbg_plain plain]
      refine ⟨s.modRg_only .., ?_⟩
      simp only [State.modRg_rg_same]
      exact ⟨g.fld_writeDbg v, g.writeDbg_frame v, fun hgo hb => absurd ⟨hgo, hb⟩ go, fun _ => g.busy_writeDbg v⟩
  · refine ⟨onlyRegion_trans (s.clearDbg_only r) (State.modRg_only ..), ?_⟩
    simp only [State.modRg_rg_same, State.clearDbg_rg]
    exact ⟨(bit_setBit_other _ _ _ _ (by omega)).trans (bit_setBit_same _ _ _ (by omega)), bit_setBit_same _ _ _ (by omega), rfl⟩
  · refine ⟨onlyRegion_trans (s.clearDbg_only r) (State.modRg_only ..), ?_⟩
    simp only [State.modRg_rg_same, State.clearDbg_rg]
    exact ⟨bit_setBit_same _ _ _ (by omega), State.dbgRead_general hs ha⟩
  · rw [State.dbgWrite_general hs (by simpa using ha)]
    refine ⟨?_, ?_, rfl, fun u hu => ?_⟩
    · rw [State.modFac_rg, State.clearDbg_rg]
      exact bit_setBit_same _ _ _ (by omega)
    · simp only [State.modFac_el_same, Element.modFac_fac_same]
      exact Bank.rg_wg_same _ _ _ (State.dbgOk_general h hs)
    · rw [State.modFac_el_other _ _ _ _ _ hu, State.clearDbg_el]

/-- Settles O59: the four parts, each read off what one write, one match, one step of a cut or one access leaves. -/
theorem registersAndDebug : Obligations.RegistersAndDebug := ⟨registerWrites, triggers, cuts, debugAccesses⟩

end Sys2Proof.Machine
end

section
/-! SUPPORT. The issue slot, said once: what a slot that is free to issue does with the word at its index, the meaning that an instruction
runs where it passes every stage of issue, and what its retirement and its trap leave (R11, R26, R38, R54 to R57, R445). -/

namespace Sys2Proof.Machine

/-! What a debug match leaves alone (R445) -/

theorem Region.sameButDebug_trans {a b c : Region} (h : b.sameButDebug a) (k : c.sameButDebug b) : c.sameButDebug a := by
  unfold Region.sameButDebug at *
  rw [← h, ← k]
/-- A state that differs in its elements, its interrupts, what its regions keep for debug and notices, and no more. -/
theorem SameMachine.of_frame {s s' : State} (h : { s' with elements := s.elements, regions := s.regions, out := s.out } = s)
    (hr : ∀ r, (s'.rg r).sameButDebug (s.rg r)) : SameMachine s s' where
  mem := (congrArg State.mem h :)
  switches := (congrArg State.switches h :)
  mts := (congrArg State.mts h :)
  regions := hr
  dies := (congrArg State.dies h :)
  ios := (congrArg State.ios h :)
  modul := (congrArg State.modul h :)
  clasps := (congrArg State.clasps h :)
  holds := (congrArg State.holds h :)
  reexam := (congrArg State.reexam h :)
  reqs := (congrArg State.reqs h :)
  walks := (congrArg State.walks h :)
  power := (congrArg State.power h :)
  cycle := (congrArg State.cycle h :)
  agenda := (congrArg State.agenda h :)
  inbox := (congrArg State.inbox h :)
  cur := (congrArg State.cur h :)
  free := (congrArg State.free h :)
  nextId := (congrArg State.nextId h :)
  moved := (congrArg State.moved h :)
  upsets := (congrArg State.upsets h :)

/-- What a debug match changes: matches on their way and notices of regions, and what leaves the links. -/
def OnlyDebug (s s' : State) : Prop :=
  { s' with regions := s.regions, out := s.out } = s ∧ ∀ r, (s'.rg r).sameButDebug (s.rg r)
theorem OnlyDebug.refl (s : State) : OnlyDebug s s := ⟨rfl, fun _ => rfl⟩
theorem OnlyDebug.trans {a b c : State} (h : OnlyDebug a b) (k : OnlyDebug b c) : OnlyDebug a c := by
  obtain ⟨hs, hr⟩ := h
  obtain ⟨ks, kr⟩ := k
  refine ⟨?_, fun r => Region.sameButDebug_trans (hr r) (kr r)⟩
  rw [← hs, ← ks]
/-- After a debug match, a change of elements alone leaves the rest of the machine. -/
theorem OnlyDebug.sameMachine {s s' : State} (h : OnlyDebug s s') (l : Tab Element) : SameMachine s { s' with elements := l } :=
  .of_frame (congrArg (fun x : State => { x with elements := s.elements }) h.1) h.2
theorem State.causeRg_debug (s : State) (q : RegionId) (f : Facet) (code detail : Nat) : OnlyDebug s (s.causeRg q f code detail) := by
  refine ⟨?_, fun r => ?_⟩
  · simp only [State.causeRg, State.notify]
    split <;> rfl
  · exact congrArg (fun g : Region => { g with matches_ := (s.rg r).matches_ }) (s.causeRg_rg q f code detail r)
theorem State.dbgMatch_debug (s : State) (r : RegionId) (b x : Nat) (note : Bool) (c k : Nat) : OnlyDebug s (s.dbgMatch r b x note c k) := by
  have sent : OnlyDebug s (s.modRg r fun g => { g with matches_ := g.matches_ ++ [⟨b, s.cycle + 2 + x⟩] }) := by
    refine ⟨rfl, fun q => ?_⟩
    by_cases hq : q = r
    · rw [hq, State.modRg_rg_same]; rfl
    · rw [State.modRg_rg_other _ _ _ _ hq]; rfl
  cases note
  · exact sent
  · exact sent.trans (State.causeRg_debug ..)
theorem OnlyDebug.foldl {α : Type} {step : State → α → State} (h : ∀ s x, OnlyDebug s (step s x)) (l : List α) (s : State) :
    OnlyDebug s (l.foldl step s) := by
  induction l generalizing s with
  | nil => exact .refl s
  | cons x l ih => exact (h s x).trans (ih _)
theorem State.dbgEvent_debug (s : State) (t : Tile) (f : Facet) (type : Nat) (ok : Word → Bool) : OnlyDebug s (s.dbgEvent t f type ok) := by
  unfold State.dbgEvent
  split
  · exact .refl s
  · refine .foldl (fun s k => ?_) _ s
    dsimp only
    split
    · exact State.dbgMatch_debug ..
    · exact .refl s
theorem State.dbgRegWrite_debug (s : State) (t : Tile) (f : Facet) (d : Spec) : OnlyDebug s (s.dbgRegWrite t f d) := by
  unfold State.dbgRegWrite
  dsimp only
  split
  · exact State.dbgEvent_debug ..
  · exact .refl s

/-! The stages of issue (R54 to R57) -/

/-- An element's instruction runs its meaning at the tile and the activation whose slot is worked. -/
theorem Issues.withAct_eq {s : State} {t : Tile} {a : Act} (h : Issues s t a) (k : Tile → Act → State) : withAct s k = .next (k t a) := by
  obtain ⟨rfl, ct, inFabric, act⟩ := h
  exact withAct_next s k a (by rw [ct, inFabric]; rfl) act
/-- An instruction that passes every stage executes. -/
theorem Passes.issue_eq {s : State} {t : Tile} {a : Act} {h : Head} {srcs : List Spec} {out : Option (BitVec 4)}
    (p : Passes s t a h srcs out) (nul : Token → State) (body : State) : s.issue t a h srcs out nul body = body := by
  obtain ⟨guard, ports, room, pm⟩ := p
  have go : (!(s.portsReady t a srcs && s.hasRoom t a out)) = false := by rw [ports, room]; rfl
  unfold State.issue
  rw [if_neg (by simpa [Guarded] using guard), go]
  cases hm : h.pm <;> cases hk : (firstPort srcs).bind (s.specTok t a) <;> simp_all [matchOk]

/-- The activation is b after a debug match, and nothing else of the element or the machine has changed. -/
theorem OnlyDebug.slotFrame {s s' : State} (h : OnlyDebug s s') (t : Tile) (b : Act) : SlotFrame s (s'.setAct t b) t := by
  have same (u : Tile) : s'.el u = s.el u := (congrArg (State.el · u) h.1 :)
  refine ⟨fun u hu => ?_, ?_, h.sameMachine _⟩
  · rw [State.setAct_el_other _ _ _ _ hu, same]
  · rw [State.setAct_el_same, same]
/-- An instruction whose meaning finishes with the activation r retires with it. -/
theorem retires_of_finish {i : Instr} {s : State} {t : Tile} {a r : Act} {d : Spec} {busy : Nat}
    (h : exec i s = .next (s.finish t a d busy (.ok r))) : Retires i s t r busy :=
  ⟨_, h, by rw [State.finish_el_same], (s.dbgRegWrite_debug t r.facet d).slotFrame t _⟩

/-! What a trap writes (R14, R38) -/

/-- HCAUSE after a trap, field by field: CODE, HIDX, VALID, PCIDX and COUNT, with 0 between them. -/
structure HCauseFields (w old : Word) (code hidx pcidx : Nat) : Prop where
  code_ : fld w 0 9 = code % 512
  hidx_ : fld w 9 6 = hidx % 64
  valid : fld w 15 1 = 1
  pcidx_ : fld w 16 11 = pcidx % 2048
  gap : fld w 27 5 = 0
  count : fld w 32 8 = min 255 (fld old 32 8 + 1)
  high : fld w 40 24 = 0
theorem hcauseOf_fields (old : Word) (code hidx pcidx : Nat) : HCauseFields (hcauseOf old code hidx pcidx) old code hidx pcidx := by
  have small : min 255 (fld old 32 8 + 1) < 256 := by omega
  constructor <;> simp only [hcauseOf, fld, BitVec.toNat_ofNat] at small ⊢ <;> omega
theorem HCauseFields.bit_valid {w old : Word} {code hidx pcidx : Nat} (h : HCauseFields w old code hidx pcidx) : bit w 15 = true := by
  have := testBit_fld w 15 1 0
  rw [h.valid] at this
  exact this.symm

@[simp] theorem State.trap_act (s : State) (t : Tile) (a : Act) (code : Nat) (x : Word) : ((s.trap t a code x).el t).act = none := by
  rw [State.trap_el_same]; rfl
@[simp] theorem State.trap_fac_same (s : State) (t : Tile) (a : Act) (code : Nat) (x : Word) :
    ((s.trap t a code x).el t).fac a.facet = ((s.el t).fac a.facet).trapped code a.handler.val (a.pc.toNat % 2048) x := by
  rw [State.trap_el_same, Element.modFac_fac_same]; rfl
theorem State.trap_fac_other (s : State) (t : Tile) (a : Act) (code : Nat) (x : Word) (f : Facet) (h : f ≠ a.facet) :
    ((s.trap t a code x).el t).fac f = (s.el t).fac f := by
  rw [State.trap_el_same, Element.modFac_fac_other _ _ _ _ h]; rfl
theorem FacetEl.trapped_hcause (fe : FacetEl) (code hidx pcidx : Nat) (x : Word) :
    HCauseFields (fe.trapped code hidx pcidx x).hcause fe.hcause code hidx pcidx := hcauseOf_fields ..
theorem FacetEl.trapped_hstat (fe : FacetEl) (code hidx pcidx : Nat) (x : Word) : bit (fe.trapped code hidx pcidx x).hstat 8 = true :=
  bit_setBit_same _ _ _ (by decide)
theorem FacetEl.trapped_hstat_other (fe : FacetEl) (code hidx pcidx : Nat) (x : Word) (i : Nat) (h : i ≠ 8) :
    bit (fe.trapped code hidx pcidx x).hstat i = bit fe.hstat i := bit_setBit_other _ _ _ _ h

/-! The word at the index of a free slot (R11, R57) -/

/-- The slot of a compute tile of the fabric, whose activation waits for nothing and is not busy. -/
structure FreeSlot (s : State) (t : Tile) (a : Act) : Prop where
  ct : t.isCT = true
  inFabric : t.inFabric = true
  act : (s.el t).act = some a
  busy : a.busy = 0
  wait : a.wait = .none
section
variable {s : State} {t : Tile} {a : Act} (h : FreeSlot s t a)
include h
theorem FreeSlot.fetchSlot_outside (out : ((s.el t).fac a.facet).fetchOut a.pc = true) :
    s.fetchSlot t = .done (State.trap { s with cur := t } t a causeFetchBounds a.pc) := by
  obtain ⟨ct, inFabric, act, busy, wait⟩ := h
  have act' : (State.el { s with cur := t } t).act = some a := act
  have out' : ((State.el { s with cur := t } t).fac a.facet).fetchOut a.pc = true := out
  simp [State.fetchSlot, ct, inFabric, act', busy, wait, out']
theorem FreeSlot.fetchSlot_undecoded (inside : ((s.el t).fac a.facet).fetchOut a.pc = false) {c : DecodeCause}
    (bad : decode ((s.el t).fetch a.facet a.pc) = .error c) :
    s.fetchSlot t = .done (State.trap { s with cur := t } t a (decodeCode c) 0) := by
  obtain ⟨ct, inFabric, act, busy, wait⟩ := h
  have act' : (State.el { s with cur := t } t).act = some a := act
  have inside' : ((State.el { s with cur := t } t).fac a.facet).fetchOut a.pc = false := inside
  have bad' : decode ((State.el { s with cur := t } t).fetch a.facet a.pc) = .error c := bad
  simp [State.fetchSlot, ct, inFabric, act', busy, wait, inside', bad']
theorem FreeSlot.fetchSlot_decoded (inside : ((s.el t).fac a.facet).fetchOut a.pc = false) {i : Instr}
    (good : decode ((s.el t).fetch a.facet a.pc) = .ok i) : s.fetchSlot t = .run i { s with cur := t } := by
  obtain ⟨ct, inFabric, act, busy, wait⟩ := h
  have act' : (State.el { s with cur := t } t).act = some a := act
  have inside' : ((State.el { s with cur := t } t).fac a.facet).fetchOut a.pc = false := inside
  have good' : decode ((State.el { s with cur := t } t).fetch a.facet a.pc) = .ok i := good
  simp [State.fetchSlot, ct, inFabric, act', busy, wait, inside', good']
end

/-! One item of the agenda (log 1) -/

theorem step_run {s s' : State} {w : Work} {rest : List Work} {i : Instr} (h : s.agenda = w :: rest)
    (hw : State.work { s with agenda := rest } w = .run i s') : step s = exec i s' := by
  simp [step, h, hw]
theorem step_done {s s' : State} {w : Work} {rest : List Work} (h : s.agenda = w :: rest)
    (hw : State.work { s with agenda := rest } w = .done s') : step s = .next s' := by
  simp [step, h, hw]

end Sys2Proof.Machine
end

section
/-! SUPPORT. The step of the machine and the machine after reset (R8 to R16, R26, log 1). -/

namespace Sys2Proof.Machine

/-- A write through BAR0 is dropped in recovery mode (R453). -/
theorem State.work_dropped {s : State} {i : Instr} (h : (s.recovery && barWrite i) = true) : s.work (.event i) = .done s := by
  rw [State.work, if_pos h]
/-- An event that waits stands in the inbox again. -/
theorem State.work_postponed {s : State} {i : Instr} (h : (s.recovery && barWrite i) = false) (hp : s.postponed i = true) :
    s.work (.event i) = .done { s with inbox := s.inbox ++ [i] } := by
  rw [State.work, if_neg (by simp [h]), if_pos hp]
theorem State.work_event {s : State} {i : Instr} (h : (s.recovery && barWrite i) = false) (hp : s.postponed i = false) :
    s.work (.event i) = .run i s := by
  rw [State.work, if_neg (by simp [h]), if_neg (by simp [hp])]

/-- Settles O4: the issue slot runs what its word decodes to, an event is dropped, put back or run, and an empty agenda begins a cycle. -/
theorem stepRunsDecoded : Obligations.StepRunsDecoded := by
  refine ⟨fun s t rest a i agenda ct inFabric act busy wait inside good => ?_,
    fun s i rest agenda => ⟨fun h => ?_, fun h hp => ?_, fun h hp => ?_⟩, fun s agenda => ?_⟩
  · have free : FreeSlot { s with agenda := rest } t a := ⟨ct, inFabric, act, busy, wait⟩
    exact step_run agenda (free.fetchSlot_decoded inside good)
  · exact step_done agenda (State.work_dropped h)
  · exact step_done agenda (State.work_postponed h hp)
  · exact step_run agenda (State.work_event h hp)
  · simp [step, agenda]

@[simp] theorem State.reset_el (t : Tile) : State.reset.el t = Element.reset := rfl
@[simp] theorem Element.reset_fac (f : Facet) : Element.reset.fac f = FacetEl.reset := by simp [Element.fac, Element.reset, vget_eq_getElem]
@[simp] theorem State.reset_rg (r : RegionId) : State.reset.rg r = Region.reset := by simp [State.rg, State.reset, vget_eq_getElem]
@[simp] theorem State.reset_routes (t : Tile) (f : Facet) : (State.reset.sw t).routes.get f = [] := by
  show (Vector.replicate 4 []).get f = []
  simp [vget_eq_getElem]
/-- The registers of a bank after reset (R8). -/
theorem Bank.reset_registers :
    (∀ n, Bank.reset.rg n = 0) ∧ (∀ n, Bank.reset.rv n = 0) ∧ ∀ n, n ≠ 0 → Bank.reset.rp n = ⟨false, 0⟩ := by
  refine ⟨fun n => ?_, fun n => ?_, fun n hn => ?_⟩
  · rw [Bank.rg]; split <;> simp [Bank.reset, vget_eq_getElem]
  · simp [Bank.rv, Bank.reset, vget_eq_getElem]
  · rw [Bank.rp, if_neg hn]; simp [Bank.reset, vget_eq_getElem]
/-- No facet is loaded and each is quiet (R166). -/
theorem Region.reset_facets : ∀ f, Region.reset.fquiet f = true ∧ Region.reset.floaded f = false := by decide

/-- Settles O1: the reset value of each part of the state, by the lemma of the part. -/
theorem resetState : Obligations.ResetState := by
  obtain ⟨general, vector, predicate⟩ := Bank.reset_registers
  refine ⟨fun t => ⟨rfl, rfl⟩, fun t f => ?_, fun a => rfl, fun r => ?_, fun t f k => ?_, rfl, Memory.empty_wf⟩
  · simp only [State.reset_el, Element.reset_fac]
    exact ⟨general, vector, predicate, rfl, rfl, rfl, rfl, rfl, rfl, rfl, rfl, rfl, fun p => by simp [FacetEl.reset, vget_eq_getElem]⟩
  · rw [State.reset_rg]
    exact ⟨rfl, rfl, rfl, Region.reset_facets⟩
  · rw [State.reset_routes, tget]

end Sys2Proof.Machine
end

section
/-! SUPPORT. Traps: what takes one and what it writes and leaves, and what clears it (R11, R37 to R39, R57, R60, R119). -/

namespace Sys2Proof.Machine

theorem exec_trap (w : IForm) (s : State) : exec (.trap w) s = execTrap w s := rfl
theorem exec_illegalOpcode (w : Word) (s : State) : exec (.illegalOpcode w) s = execIllegalOpcode w s := rfl

/-- From s to s' the activation a of tile t has trapped with a cause and HADDR: HCAUSE, HADDR and TRAPPED of its facet are written, and no
other register, element or byte (R38). -/
structure Trapped (s s' : State) (t : Tile) (a : Act) (code : Nat) (x : Word) : Prop where
  ended : (s'.el t).act = none
  code_ : fld ((s'.el t).fac a.facet).hcause 0 9 = code
  hidx : fld ((s'.el t).fac a.facet).hcause 9 6 = a.handler.val
  hcause : HCauseFields ((s'.el t).fac a.facet).hcause ((s.el t).fac a.facet).hcause code a.handler.val (a.pc.toNat % 2048)
  haddr : ((s'.el t).fac a.facet).haddr = x
  trapped : bit ((s'.el t).fac a.facet).hstat 8 = true
  hstat : ∀ i, i ≠ 8 → bit ((s'.el t).fac a.facet).hstat i = bit ((s.el t).fac a.facet).hstat i
  registers : { (s'.el t).fac a.facet with hcause := ((s.el t).fac a.facet).hcause, haddr := ((s.el t).fac a.facet).haddr,
                                           hstat := ((s.el t).fac a.facet).hstat } = (s.el t).fac a.facet
  bank : ((s'.el t).fac a.facet).bank = ((s.el t).fac a.facet).bank
  facets : ∀ f, f ≠ a.facet → (s'.el t).fac f = (s.el t).fac f
  elements : ∀ u : Tile, u.key ≠ t.key → s'.el u = s.el u
  mem : s'.mem = s.mem
theorem State.trap_trapped (s : State) (t : Tile) (a : Act) {code : Nat} (x : Word) (h : code < 512) :
    Trapped s (s.trap t a code x) t a code x := by
  have fields := FacetEl.trapped_hcause ((s.el t).fac a.facet) code a.handler.val (a.pc.toNat % 2048) x
  have facet := s.trap_fac_same t a code x
  exact {
    ended := s.trap_act ..
    code_ := by rw [facet]; exact fields.code_.trans (Nat.mod_eq_of_lt h)
    hidx := by rw [facet]; exact fields.hidx_.trans (Nat.mod_eq_of_lt a.handler.isLt)
    hcause := by rw [facet]; exact fields
    haddr := by rw [facet]; rfl
    trapped := by rw [facet]; exact FacetEl.trapped_hstat ..
    hstat := by rw [facet]; exact FacetEl.trapped_hstat_other _ _ _ _ _
    registers := by rw [facet]; rfl
    bank := by rw [facet]; rfl
    facets := fun f hf => s.trap_fac_other t a code x f hf
    elements := fun u hu => s.trap_el_other t u a code x hu
    mem := s.trap_mem .. }

/-- A free slot whose fetch or decode check fails ends in a trap. -/
theorem step_trapped {s : State} {t : Tile} {rest : List Work} {a : Act} {code : Nat} {x : Word} (agenda : s.agenda = .issue t :: rest)
    (hc : code < 512)
    (h : State.fetchSlot { s with agenda := rest } t = .done (State.trap { s with agenda := rest, cur := t } t a code x)) :
    ∃ s', step s = .next s' ∧ Trapped s s' t a code x := by
  obtain ⟨ended, code_, hidx, hcause, haddr, trapped, hstat, registers, bank, facets, elements, mem⟩ :=
    State.trap_trapped { s with agenda := rest, cur := t } t a x hc
  exact ⟨_, step_done agenda h, ended, code_, hidx, hcause, haddr, trapped, hstat, registers, bank, facets, elements, mem⟩

/-- Settles O6: the slot is free, so the fetch or the decode check that fails traps with its own cause. -/
theorem fetchAndDecodeTraps : Obligations.FetchAndDecodeTraps := by
  intro s t rest a agenda ct inFabric act busy wait fe trapsWith
  have free : FreeSlot { s with agenda := rest } t a := ⟨ct, inFabric, act, busy, wait⟩
  have traps {code : Nat} {x : Word} (h : ∃ s', step s = .next s' ∧ Trapped s s' t a code x) : trapsWith code x := by
    obtain ⟨s', next, h⟩ := h
    exact ⟨s', next, h.ended, h.code_, h.hidx, h.hcause.bit_valid, h.haddr, h.trapped, h.bank, h.mem⟩
  have undecoded (inside : fe.fetchOut a.pc = false) {c : DecodeCause} (hc : decodeCode c < 512)
      (bad : decode ((s.el t).fetch a.facet a.pc) = .error c) : trapsWith (decodeCode c) 0 :=
    traps (step_trapped agenda hc (free.fetchSlot_undecoded inside bad))
  refine ⟨fun h => ?_, fun lim base => ?_⟩
  · have out : fe.fetchOut a.pc = true := by simpa [FacetEl.fetchOut] using h
    exact traps (step_trapped agenda (by decide) (free.fetchSlot_outside out))
  · have inside : fe.fetchOut a.pc = false := by simpa [FacetEl.fetchOut] using ⟨lim, base⟩
    exact ⟨undecoded inside (c := .reservedField) (by decide), undecoded inside (c := .reservedOperand) (by decide),
      undecoded inside (c := .operandClass) (by decide)⟩

/-- Settles O28: TRAP and the unassigned opcode each take a trap with HADDR 0, and a trap writes HCAUSE, HADDR and TRAPPED alone. -/
theorem trapTaken : Obligations.TrapTaken := by
  intro s t a issues fe traps
  have taken {i : Instr} {code : Nat} (hc : code < 512) (h : exec i s = .next (s.trap t a code 0)) : traps i code := by
    have k := s.trap_trapped t a 0 hc
    have pcidx : a.pc.toNat % 2048 % 2048 = fld a.pc 0 11 := by simp [fld]
    exact ⟨_, h, k.ended, k.code_, k.hidx, k.hcause.valid, k.hcause.pcidx_.trans pcidx, k.hcause.gap, k.hcause.count, k.hcause.high,
      k.haddr, k.trapped, k.hstat, k.registers, k.facets, k.elements, k.mem⟩
  refine ⟨fun w passes small => taken (by omega) ?_, fun w => taken (by decide) ?_⟩
  · rw [exec_trap, execTrap, issues.withAct_eq, passes.issue_eq, Nat.mod_eq_of_lt small, causeProgramTrap]
  · rw [exec_illegalOpcode, execIllegalOpcode, issues.withAct_eq, causeIllegalOpcode]

/-- Settles O38: the clearing is a change of one facet, and each register's bits after it are read off the two bits that it writes. -/
theorem trapCleared : Obligations.TrapCleared := by
  intro s t f fe
  refine ⟨fun h => when_of_false h, fun h => ⟨s.clearTrap t f, when_of_true h, s.modFac_only .., ?_⟩⟩
  simp only [State.clearTrap, State.modFac_el_same, Element.modFac_fac_same]
  exact ⟨bit_setBit_same _ _ _ (by decide), fun i hi => bit_setBit_other _ _ _ _ hi, bit_setBit_same _ _ _ (by decide),
    fun i hi => bit_setBit_other _ _ _ _ hi, fun x => by simp [vget_eq_getElem, fe], rfl⟩

end Sys2Proof.Machine
end

section
/-! SUPPORT. Scalar operands and results (R8, R16, R18, R29, R48 to R53, R96): what each class of specifier reads, and where each class of
destination puts a value. -/

namespace Sys2Proof.Machine

/-! Tags of tokens (R16) -/

/-- The tag of a token, field by field. -/
theorem mkTok_tag (f : Facet) (kind : Nat) (pred head tail poison : Bool) (v : Nat) :
    let k := mkTok f kind pred head tail poison v
    k.facet = f ∧ k.kind = kind % 4 ∧ k.pred = pred ∧ k.head = head ∧ k.tail = tail ∧ k.poison = poison := by
  have small : kind % 4 < 4 := Nat.mod_lt _ (by decide)
  simp only [mkTok, mkTag, Token.facet, Token.kind, Token.pred, Token.head, Token.tail, Token.poison]
  generalize kind % 4 = n at small ⊢
  revert f n pred head tail poison
  decide
@[simp] theorem mkTok_payload (f : Facet) (kind : Nat) (pred head tail poison : Bool) (v : Nat) :
    (mkTok f kind pred head tail poison v).payload = BitVec.ofNat 64 v := rfl

/-! Sources (R48, R49, R53, R96) -/

/-- A p register as a value: its mask below its scalar bit (R53). -/
theorem PReg.toWord_toNat (p : PReg) : p.toWord.toNat = p.scalar.toNat * 0x10000 + p.mask.toNat := by
  have := p.mask.isLt
  have := p.scalar.toNat_lt
  rw [PReg.toWord, BitVec.toNat_ofNat]
  omega
theorem PReg.toWord_fields (p : PReg) : p.toWord.setWidth 16 = p.mask ∧ p.toWord.getLsbD 16 = p.scalar ∧ p.toWord.toNat < 2 ^ 17 := by
  have hm := p.mask.isLt
  have hs := p.scalar.toNat_lt
  have value := p.toWord_toNat
  refine ⟨BitVec.eq_of_toNat_eq ?_, ?_, by omega⟩
  · rw [BitVec.toNat_setWidth, value]; omega
  · rw [← BitVec.testBit_toNat, value, Nat.testBit_eq_decide_div_mod_eq]
    cases p.scalar <;> simp <;> omega

/-- A port that offers no poisoned token gives the token's value, and the consuming form consumes it (R17, R18, R27). -/
theorem State.rdScalar_port {s : State} {t : Tile} {a : Act} {p : BitVec 4} {k : Token} (h : s.portTok t a p = some k) (clean : k.poison = false) :
    s.rdScalar t a (.inp p) = .ok (k.value, a.take p) ∧ s.rdScalar t a (.peek p) = .ok (k.value, a) := by
  simp [State.rdScalar, State.specTok, h, clean, Act.consume]
/-- A poisoned token traps, with the operand's specifier in HADDR (R18). -/
theorem State.rdScalar_poisoned {s : State} {t : Tile} {a : Act} {p : BitVec 4} {k : Token} (h : s.portTok t a p = some k)
    (bad : k.poison = true) : s.rdScalar t a (.inp p) = .error (causePoisonedOperand, 0x60 ||| p.setWidth 64) ∧
      s.rdScalar t a (.peek p) = .error (causePoisonedOperand, 0x70 ||| p.setWidth 64) := by
  simp [State.rdScalar, State.specTok, h, bad, Spec.toBits, BitVec.setWidth_or]
/-- A scalar read changes at most the tokens taken. -/
theorem State.rdScalar_taken {s : State} {t : Tile} {a a' : Act} {sp : Spec} {x : Word} (h : s.rdScalar t a sp = .ok (x, a')) :
    { a' with taken := a.taken } = a := by
  have consumed : { a.consume sp with taken := a.taken } = a := by cases sp <;> rfl
  unfold State.rdScalar at h
  split at h
  case h_4 | h_5 =>
    split at h
    · cases h; rfl
    · split at h
      · cases h
      · cases h; exact consumed
  all_goals cases h; rfl

theorem operandReads : OperandReads := by
  intro s t a
  refine ⟨rfl, fun n hn => ?_, ?_, fun n x hn h => ?_, fun n => rfl, fun p k tok => ⟨State.rdScalar_poisoned tok, fun clean => ?_⟩⟩
  · rw [State.rdScalar, Bank.rg, if_neg hn]
  · rw [State.rdScalar, Bank.rp_zero]
    simp [PReg.toWord]
  · rw [State.rdScalar, Bank.rp, if_neg hn] at h
    cases h
    exact PReg.toWord_fields _
  · obtain ⟨consuming, peeking⟩ := State.rdScalar_port tok clean
    exact ⟨peeking, _, consuming, vget_vmod_same .., fun q hq => vget_vmod_other _ _ _ _ hq, rfl⟩

/-! Destinations (R29, R50, R53) -/

/-- A token that neither begins nor ends a burst enters the commit buffer of sends while neither limit is reached (R29, R148). -/
theorem Act.send_plain {a : Act} {p : BitVec 4} {k : Token} (wait : List (Nat × Scope)) (room : a.sendsTo p < 16) (all : a.sends.length < 32)
    (head : k.head = false) (tail : k.tail = false) :
    a.send p k wait = .ok { a with sends := a.sends ++ [⟨p.toFin, k, a.fenceWait ++ wait⟩],
                                   bursts := setBit a.bursts p.toNat (bit a.bursts p.toNat) } := by
  rw [Act.send, if_neg (by omega)]
  simp [head, tail]
/-- A send past either limit traps, with the port's specifier in HADDR (R29). -/
theorem Act.send_overflow {a : Act} {p : BitVec 4} (h : 16 ≤ a.sendsTo p ∨ 32 ≤ a.sends.length) (k : Token) (wait : List (Nat × Scope)) :
    a.send p k wait = .error (causeSendOverflow, 0x80 ||| p.setWidth 64) := if_pos h

theorem resultDelivery : ResultDelivery := by
  intro a v
  refine ⟨⟨rfl, rfl⟩, fun n hn => ?_, fun n hn => ?_, fun p room all => ?_, fun p h => Act.send_overflow h _ _⟩
  · exact ⟨_, rfl, Bank.rg_wg_same _ _ _ hn, fun m hm => Bank.rg_wg_other _ _ _ _ hm, Bank.wg_v .., Bank.wg_p .., rfl⟩
  · exact ⟨_, rfl, Bank.rp_wp_same _ _ _ hn, fun m hm => Bank.rp_wp_other _ _ _ _ hm, Bank.wp_g .., Bank.wp_v .., rfl⟩
  · obtain ⟨facet, kind, pred, head, tail, poison⟩ := mkTok_tag a.facet kData false false false false v.toNat
    exact ⟨_, _, Act.send_plain [] room all head tail, rfl, rfl, by simp, facet, kind, pred, head, tail, poison, rfl⟩

/-- Settles O8: the sources class by class, and the destinations class by class. -/
theorem operandsAndResults : Obligations.OperandsAndResults := ⟨operandReads, resultDelivery⟩

end Sys2Proof.Machine
end

section
/-! SUPPORT. Local memory (R9, R30, R34 to R38, R143): what the window checks answer, what a local store buffers, and what stops a local
access. -/

namespace Sys2Proof.Machine

/-! The window checks (R9) -/

theorem FacetEl.localByte_inside {fe : FacetEl} {off : Word} {n : Nat} (h : InWindow fe off n) :
    fe.localByte off n = .ok (fe.actbase.toNat + off.toNat) := by
  obtain ⟨aligned, window, memory⟩ := h
  rw [FacetEl.localByte, if_neg (by omega), if_neg (by omega)]
theorem FacetEl.localByte_misaligned {fe : FacetEl} {off : Word} {n : Nat} (h : off.toNat % n ≠ 0) :
    fe.localByte off n = .error (causeLocalAlignment, off) := if_pos h
theorem FacetEl.localByte_beyond {fe : FacetEl} {off : Word} {n : Nat} (h : off.toNat % n = 0 ∧
    (fe.actlim.toNat < off.toNat + n ∨ 0x10000 < fe.actbase.toNat + off.toNat + n)) : fe.localByte off n = .error (causeLocalBounds, off) := by
  obtain ⟨aligned, outside⟩ := h
  rw [FacetEl.localByte, if_neg (by omega), if_pos outside]

section
variable {s : State} {t : Tile} {a a1 : Act} {w : MForm} {n : Nat} {x : Word} (read : s.rdScalar t a w.a = .ok (x, a1))
include read
theorem State.localAddr_inside (h : InWindow ((s.el t).fac a.facet) (locOf x w.disp) n) :
    s.localAddr t a w n = .ok (locOf x w.disp, localPa t ((s.el t).fac a.facet) (locOf x w.disp), a1) := by
  simp [State.localAddr, read, FacetEl.localByte_inside h, localPa]
theorem State.localAddr_stopped {e : TrapInfo} (h : ((s.el t).fac a.facet).localByte (locOf x w.disp) n = .error e) :
    s.localAddr t a w n = .error e := by
  simp [State.localAddr, read, h]
variable {a2 : Act} {y : Word} (data : s.rdScalar t a1 w.b = .ok (y, a2))
include data
theorem State.localStoreOps_inside (h : InWindow ((s.el t).fac a.facet) (locOf x w.disp) n) :
    s.localStoreOps t a w n = .ok (locOf x w.disp, localPa t ((s.el t).fac a.facet) (locOf x w.disp), y, a2) := by
  simp [State.localStoreOps, read, data, FacetEl.localByte_inside h, localPa]
theorem State.localStoreOps_stopped {e : TrapInfo} (h : ((s.el t).fac a.facet).localByte (locOf x w.disp) n = .error e) :
    s.localStoreOps t a w n = .error e := by
  simp [State.localStoreOps, read, data, h]
end

/-! What a local store buffers (R30, R143) -/

theorem Act.addStore_room {a : Act} (h : a.stores.length < 16) (e : StoreEnt) : a.addStore e = .ok { a with stores := a.stores ++ [e] } :=
  if_neg (by omega)
/-- Byte number j of a list stands j addresses above the first. -/
theorem getElem?_cellsAt (l : List Byte) (p j : Nat) : (cellsAt p l)[j]? = l[j]?.map fun b => (p + j, b) := by
  induction l generalizing p j with
  | nil => rfl
  | cons b l ih =>
    cases j with
    | zero => rfl
    | succ j => simp [cellsAt, ih, Nat.add_assoc, Nat.add_comm 1]
/-- The bytes of a list from an address on that lie in the lanes of a mask, at their addresses (R143). -/
def maskedCells (mask : BitVec 16) (p : Nat) (l : List Byte) : List Host.Cell :=
  (cellsAt p l).zipIdx.filterMap fun x => if bit mask (x.2 / 4) then some x.1 else none
theorem mem_maskedCells (mask : BitVec 16) (p i : Nat) (l : List Byte) (b : Byte) :
    (p + i, b) ∈ maskedCells mask p l ↔ bit mask (i / 4) = true ∧ l[i]? = some b := by
  simp only [maskedCells, List.mem_filterMap, Option.ite_none_right_eq_some, Option.some.injEq, Prod.exists, List.mk_mem_zipIdx_iff_getElem?,
    getElem?_cellsAt, Option.map_eq_some_iff, Prod.mk.injEq]
  constructor
  · rintro ⟨q, c, j, ⟨c', byte, rfl, rfl⟩, on, hq, rfl⟩
    obtain rfl : j = i := by omega
    exact ⟨on, byte⟩
  · rintro ⟨on, byte⟩
    exact ⟨p + i, b, i, ⟨b, byte, rfl, rfl⟩, on, rfl, rfl⟩

/-! The meanings -/

theorem exec_ld (w : MForm) (s : State) : exec (.ld w) s = execLd w s := rfl
theorem exec_st (w : MForm) (s : State) : exec (.st w) s = execSt w s := rfl
theorem exec_ldv (w : MForm) (s : State) : exec (.ldv w) s = execLdv w s := rfl
theorem exec_stv (w : MForm) (s : State) : exec (.stv w) s = execStv w s := rfl
theorem exec_ldw (w : MForm) (s : State) : exec (.ldw w) s = execLdw w s := rfl
theorem exec_ldc (w : MForm) (s : State) : exec (.ldc w) s = execLdc w s := rfl
theorem exec_stf (w : MForm) (s : State) : exec (.stf w) s = execStf w s := rfl
theorem exec_stx (w : MForm) (s : State) : exec (.stx w) s = execStx w s := rfl
theorem exec_tage (w : MForm) (s : State) : exec (.tage w) s = execTage w s := rfl
theorem exec_tagq (w : MForm) (s : State) : exec (.tagq w) s = execTagq w s := rfl
theorem State.finish_error (s : State) (t : Tile) (a : Act) (d : Spec) (busy c : Nat) (x : Word) :
    s.finish t a d busy (.error (c, x)) = s.trap t a c x := rfl

section
variable {s : State} {t : Tile} {a : Act} {w : MForm} (issues : Issues s t a) (passes : Passes s t a w.head [w.a, w.b] w.d.outPort)
include issues passes
/-- A local access that passes the stages of issue runs its body (R145). -/
theorem State.localOp_eq (body : Tile → Act → State) : s.localOp w body = .next (body t a) := by
  rw [State.localOp, issues.withAct_eq, passes.issue_eq]

/-- A check of the address that fails is the trap of every form that reads one address, whatever it does afterwards. -/
theorem exec_word_stopped {c : Nat} {x : Word} (h : s.localAddr t a w 8 = .error (c, x)) :
    ∀ mk ∈ [Instr.ldw, .ldc, .tage, .tagq], exec (mk w) s = .next (s.trap t a c x) := by
  simp only [List.mem_cons, List.not_mem_nil, or_false, forall_eq_or_imp, forall_eq, exec_ldw, exec_ldc, exec_tage, exec_tagq, execLdw,
    execLdc, execTage, execTagq, State.localOp_eq issues passes, h, State.finish_error, and_self]
theorem exec_vector_stopped {c : Nat} {x : Word} (h : s.localAddr t a w 64 = .error (c, x)) :
    ∀ mk ∈ [Instr.ldv, .stv], exec (mk w) s = .next (s.trap t a c x) := by
  simp only [List.mem_cons, List.not_mem_nil, or_false, forall_eq_or_imp, forall_eq, exec_ldv, exec_stv, execLdv, execStv,
    State.localOp_eq issues passes, h, State.finish_error, and_self]
theorem exec_ld_stopped {c : Nat} {x : Word} (h : s.localAddr t a w w.size.bytes = .error (c, x)) :
    exec (.ld w) s = .next (s.trap t a c x) := by
  simp only [exec_ld, execLd, State.localOp_eq issues passes, h, State.finish_error]
/-- The stores read both operands before the check, and trap alike. -/
theorem exec_st_stopped {c : Nat} {x : Word} (h : s.localStoreOps t a w w.size.bytes = .error (c, x)) :
    exec (.st w) s = .next (s.trap t a c x) := by
  simp only [exec_st, execSt, State.localOp_eq issues passes, h, State.finish_error]
theorem exec_filling_stopped {c : Nat} {x : Word} (h : s.localStoreOps t a w 8 = .error (c, x)) :
    exec (.stf w) s = .next (s.trap t a c x) ∧ exec (.stx w) s = .next (s.trap t a c x) := by
  simp only [exec_stf, exec_stx, execStf, execStx, State.localOp_eq issues passes, h, State.finish_error, and_self]

end

theorem localTraps : LocalTraps := by
  intro w s t a a' x issues passes read fe off traps beyond
  have taken {i : Instr} {code : Nat} (hc : code < 512) (h : exec i s = .next (s.trap t a code off)) : traps i code := by
    have k := s.trap_trapped t a off hc
    exact ⟨_, h, k.ended, k.code_, k.haddr, k.trapped, k.bank, k.mem⟩
  have addrStopped {n c : Nat} (h : fe.localByte off n = .error (c, off)) : s.localAddr t a w n = .error (c, off) :=
    State.localAddr_stopped read h
  have forms {c : Nat} (hc : c < 512) :
      (fe.localByte off 8 = .error (c, off) → ∀ mk ∈ [Instr.ldw, .ldc, .tage, .tagq], traps (mk w) c) ∧
      (fe.localByte off 64 = .error (c, off) → ∀ mk ∈ [Instr.ldv, .stv], traps (mk w) c) ∧
      (fe.localByte off w.size.bytes = .error (c, off) → traps (.ld w) c) :=
    ⟨fun h mk hm => taken hc (exec_word_stopped issues passes (addrStopped h) mk hm),
      fun h mk hm => taken hc (exec_vector_stopped issues passes (addrStopped h) mk hm),
      fun h => taken hc (exec_ld_stopped issues passes (addrStopped h))⟩
  have stores {c : Nat} (hc : c < 512) {y : Word} {a'' : Act} (data : s.rdScalar t a' w.b = .ok (y, a'')) :
      (fe.localByte off 8 = .error (c, off) → traps (.stf w) c ∧ traps (.stx w) c) ∧
      (fe.localByte off w.size.bytes = .error (c, off) → traps (.st w) c) := by
    refine ⟨fun h => ?_, fun h => taken hc (exec_st_stopped issues passes (State.localStoreOps_stopped read data h))⟩
    obtain ⟨stf, stx⟩ := exec_filling_stopped issues passes (State.localStoreOps_stopped read data h)
    exact ⟨taken hc stf, taken hc stx⟩
  obtain ⟨word, vector, ld⟩ := forms (c := causeLocalAlignment) (by decide)
  obtain ⟨word', vector', ld'⟩ := forms (c := causeLocalBounds) (by decide)
  refine ⟨fun h => word (FacetEl.localByte_misaligned h), fun h => vector (FacetEl.localByte_misaligned h),
    fun h => ld (FacetEl.localByte_misaligned h), fun h => word' (FacetEl.localByte_beyond h), fun h => vector' (FacetEl.localByte_beyond h),
    fun h => ld' (FacetEl.localByte_beyond h), fun y a'' data => ?_⟩
  obtain ⟨filling, st⟩ := stores (c := causeLocalAlignment) (by decide) data
  obtain ⟨filling', st'⟩ := stores (c := causeLocalBounds) (by decide) data
  exact ⟨fun h => filling (FacetEl.localByte_misaligned h), fun h => st (FacetEl.localByte_misaligned h),
    fun h => filling' (FacetEl.localByte_beyond h), fun h => st' (FacetEl.localByte_beyond h)⟩

/-! A tag that a waiting form does not find (R34, R35, R37) -/

/-- Without a limit on retries, an abort that counts only aborts (R37). -/
theorem State.abortCount_unlimited {s : State} {t : Tile} {a : Act} (h : (((s.el t).fac a.facet).handlers.get a.handler).rexp = 15)
    (haddr : Word) : s.abortCount t a haddr = (s.abort t a, true) := if_pos h
/-- An entry for which there is room is put behind those of other handlers, and its handler is moored (R35). -/
theorem Element.moor_room {e : Element} {m : Moor}
    (h : (e.moors.filter fun x : Moor => !(x.facet == m.facet && x.handler == m.handler)).length < 16) :
    e.moor m = { e with moors := (e.moors.filter fun x : Moor => !(x.facet == m.facet && x.handler == m.handler)) ++ [m] }.modFac m.facet
      (·.setMoored m.handler true) := by
  simp only [Element.moor, decide_eq_true h, if_true]

section
variable {s : State} {t : Tile} {a : Act} {w : MForm} (issues : Issues s t a) (passes : Passes s t a w.head [w.a, w.b] w.d.outPort)
include issues passes
/-- The waiting loads moor at an empty word, for its filling. -/
theorem exec_load_waits {off : Word} {p : Nat} {a' : Act} (h : s.localAddr t a w 8 = .ok (off, p, a')) (empty : s.localTag a p = false) :
    exec (.ldw w) s = .next (s.localFail t a off p true) ∧ exec (.ldc w) s = .next (s.localFail t a off p true) := by
  simp only [exec_ldw, exec_ldc, execLdw, execLdc, State.localOp_eq issues passes, h, empty, Bool.not_false, if_true, and_self]
/-- The waiting store moors at a full word, for its emptying. -/
theorem exec_store_waits {off y : Word} {p : Nat} {a' : Act} (h : s.localStoreOps t a w 8 = .ok (off, p, y, a'))
    (full : s.localTag a p = true) : exec (.stf w) s = .next (s.localFail t a off p false) := by
  simp only [exec_stf, execStf, State.localOp_eq issues passes, h, full, if_true]
end

theorem tagWait : TagWait := by
  intro w s t a a1 a2 x y issues passes read fe off pa others inside unlimited room moors
  have moored {i : Instr} {full : Bool} (h : exec i s = .next (s.localFail t a off pa full)) : moors i full := by
    have room' : (((s.abort t a).el t).moors.filter fun x : Moor => !(x.facet == a.facet && x.handler == a.handler)).length < 16 := by
      rw [State.abort_el_same]; exact room
    refine ⟨_, h, ?_⟩
    simp only [State.localFail, State.abortMoor, State.abortCount_unlimited unlimited, if_true, State.moorHandler, State.modEl_el_same,
      State.modEl_mem]
    rw [Element.moor_room room', State.abort_el_same, Element.modFac_fac_same]
    exact ⟨rfl, rfl, by simp [FacetEl.setMoored], rfl, rfl, rfl⟩
  refine ⟨fun empty => ?_, fun data full => moored (exec_store_waits issues passes (State.localStoreOps_inside read data inside) full)⟩
  obtain ⟨ldw, ldc⟩ := exec_load_waits issues passes (State.localAddr_inside read inside) empty
  exact ⟨moored ldw, moored ldc⟩

/-- Settles O23: a check of R9 that fails is the trap of every form, and a tag of the other state is the mooring of the waiting ones. -/
theorem localStops : Obligations.LocalStops := ⟨localTraps, tagWait⟩

/-! Stores -/

section
variable {s : State} {t : Tile} {a : Act} {w : MForm} (issues : Issues s t a) (passes : Passes s t a w.head [w.a, w.b] w.d.outPort)
include issues passes
theorem exec_st_buffers {off y : Word} {p : Nat} {b : Act} (h : s.localStoreOps t a w w.size.bytes = .ok (off, p, y, b)) :
    exec (.st w) s = .next (s.finish t a w.d 0 (b.addStore (.loc (cellsAt p (bytesOf w.size.bytes y.toNat)) none))) := by
  simp only [exec_st, execSt, State.localOp_eq issues passes, h]
theorem exec_stf_buffers {off y : Word} {p : Nat} {b : Act} (h : s.localStoreOps t a w 8 = .ok (off, p, y, b))
    (empty : s.localTag a p = false) :
    exec (.stf w) s = .next (s.finish t a w.d 0 (b.addStore (.loc (cellsAt p (bytesOf 8 y.toNat)) (some (p / 8, true))))) := by
  simp only [exec_stf, execStf, State.localOp_eq issues passes, h, empty, Bool.false_eq_true, if_false]
theorem exec_stx_buffers {off y : Word} {p : Nat} {b : Act} (h : s.localStoreOps t a w 8 = .ok (off, p, y, b)) :
    exec (.stx w) s = .next (s.finish t a w.d 0 (b.addStore (.loc (cellsAt p (bytesOf 8 y.toNat)) (some (p / 8, true))))) := by
  simp only [exec_stx, execStx, State.localOp_eq issues passes, h]
theorem exec_tage_buffers {off : Word} {p : Nat} {b : Act} (h : s.localAddr t a w 8 = .ok (off, p, b)) :
    exec (.tage w) s = .next (s.finish t a w.d 0 (b.addStore (.loc [] (some (p / 8, false))))) := by
  simp only [exec_tage, execTage, State.localOp_eq issues passes, h]
theorem exec_stv_buffers {off : Word} {p : Nat} {b : Act} (h : s.localAddr t a w 64 = .ok (off, p, b)) :
    exec (.stv w) s = .next (s.finish t a w.d 0 (b.addStore (.loc
      (maskedCells (a.writeMask w.head) p (bytesOf 64 (rdVec a 32 (immInt 32) w.b).toNat)) none))) := by
  simp only [exec_stv, execStv, State.localOp_eq issues passes, h, maskedCells]
end

/-- Settles O22: inside the window each form finishes with one entry more in the commit buffer. -/
theorem localStores : Obligations.LocalStores := by
  intro w s t a a1 a2 x y issues passes read room fe off pa buffers
  have kept {b c : Act} {sp : Spec} {z : Word} (h : s.rdScalar t b sp = .ok (z, c)) : c.stores = b.stores :=
    (congrArg Act.stores (State.rdScalar_taken h) :)
  have stores1 : a1.stores = a.stores := kept read
  have buffered {i : Instr} {b : Act} {e : StoreEnt} (same : b.stores = a.stores)
      (h : exec i s = .next (s.finish t a w.d 0 (b.addStore e))) : buffers i b e := by
    rw [Act.addStore_room (by rw [same]; exact room), same] at h
    exact retires_of_finish h
  have addr {n : Nat} (inside : InWindow fe off n) : s.localAddr t a w n = .ok (off, pa, a1) := State.localAddr_inside read inside
  refine ⟨fun data => ?_, fun inside => buffered stores1 (exec_tage_buffers issues passes (addr inside)),
    fun inside => ⟨_, buffered stores1 (exec_stv_buffers issues passes (addr inside)), fun i b => ?_⟩⟩
  · have stores2 : a2.stores = a.stores := (kept data).trans stores1
    have ops {n : Nat} (inside : InWindow fe off n) : s.localStoreOps t a w n = .ok (off, pa, y, a2) :=
      State.localStoreOps_inside read data inside
    exact ⟨fun inside => buffered stores2 (exec_st_buffers issues passes (ops inside)),
      fun inside => ⟨fun empty => buffered stores2 (exec_stf_buffers issues passes (ops inside) empty),
        buffered stores2 (exec_stx_buffers issues passes (ops inside))⟩⟩
  · rw [mem_maskedCells]
    refine ⟨fun ⟨on, byte⟩ => ⟨?_, on, byte⟩, fun ⟨_, on, byte⟩ => ⟨on, byte⟩⟩
    obtain ⟨short, -⟩ := List.getElem?_eq_some_iff.1 byte
    rwa [length_bytesOf] at short

end Sys2Proof.Machine
end

section
/-! SUPPORT. The ends of an activation (R31, R118): each part of a commit and what it leaves alone, and the statement about END, HALT, ABORT
and YIELD. -/

namespace Sys2Proof.Machine

theorem exec_endAct (w : RForm) (s : State) : exec (.endAct w) s = execEnd w s := rfl
theorem exec_halt (w : RForm) (s : State) : exec (.halt w) s = execHalt w s := rfl
theorem exec_yield (w : RForm) (s : State) : exec (.yield w) s = execYield w s := rfl
theorem exec_abort (w : RForm) (s : State) : exec (.abort w) s = execAbort w s := rfl

/-! Undo entries (R373) -/

/-- Only the undo log of tile t's element changes. -/
def OnlyUndo (s s' : State) (t : Tile) : Prop := OnlyElement s s' t ∧ { s'.el t with undo := (s.el t).undo } = s.el t
theorem OnlyUndo.refl (s : State) (t : Tile) : OnlyUndo s s t := ⟨⟨rfl, fun _ _ => rfl⟩, rfl⟩
theorem OnlyUndo.trans {a b c : State} {t : Tile} (h : OnlyUndo a b t) (k : OnlyUndo b c t) : OnlyUndo a c t := by
  obtain ⟨⟨hs, ho⟩, he⟩ := h
  obtain ⟨⟨ks, ko⟩, ke⟩ := k
  refine ⟨⟨?_, fun u hu => (ko u hu).trans (ho u hu)⟩, ?_⟩
  · rw [← hs, ← ks]
  · rw [← he, ← ke]
theorem State.logLocal_undo (s : State) (t : Tile) (f : Facet) (word : Nat) : OnlyUndo s (s.logLocal t f word) t := by
  unfold State.logLocal
  split
  · exact ⟨s.modEl_only t _, by rw [State.modEl_el_same]⟩
  · exact .refl s t
theorem State.logWords_undo (s : State) (t : Tile) (f : Facet) (l : List Nat) :
    OnlyUndo s (l.foldl (fun s w => s.logLocal t f w) s) t := by
  induction l generalizing s with
  | nil => exact .refl s t
  | cons w l ih => exact (s.logLocal_undo t f w).trans (ih _)

/-! Handlers that a tag change wakes (R36) -/

/-- Of the elements only that of tile t changes, and of it only the mooring list and moored bits; memory stays. -/
structure OnlyWakes (s s' : State) (t : Tile) : Prop where
  mem : s'.mem = s.mem
  others : ∀ u : Tile, u.key ≠ t.key → s'.el u = s.el u
  own : { s'.el t with moors := (s.el t).moors, facets := (s.el t).facets } = s.el t
  facet : ∀ f, { (s'.el t).fac f with handlers := ((s.el t).fac f).handlers } = (s.el t).fac f
  handler : ∀ (f : Facet) (h : Fin 64),
    { ((s'.el t).fac f).handlers.get h with moored := (((s.el t).fac f).handlers.get h).moored } = ((s.el t).fac f).handlers.get h
theorem OnlyWakes.refl (s : State) (t : Tile) : OnlyWakes s s t := ⟨rfl, fun _ _ => rfl, rfl, fun _ => rfl, fun _ _ => rfl⟩
theorem OnlyWakes.trans {a b c : State} {t : Tile} (h : OnlyWakes a b t) (k : OnlyWakes b c t) : OnlyWakes a c t where
  mem := k.mem.trans h.mem
  others := fun u hu => (k.others u hu).trans (h.others u hu)
  own := by rw [← h.own, ← k.own]
  facet := fun f => by rw [← h.facet f, ← k.facet f]
  handler := fun f x => by rw [← h.handler f x, ← k.handler f x]
theorem OnlyWakes.foldl {α : Type} {step : State → α → State} {t : Tile} (h : ∀ s x, OnlyWakes s (step s x) t) (l : List α) (s : State) :
    OnlyWakes s (l.foldl step s) t := by
  induction l generalizing s with
  | nil => exact .refl s t
  | cons x l ih => exact (h s x).trans (ih _)
/-- A change outside the elements and the memory. -/
theorem OnlyWakes.of_same {s s' : State} (he : s'.elements = s.elements) (hm : s'.mem = s.mem) (t : Tile) : OnlyWakes s s' t := by
  have same (u : Tile) : s'.el u = s.el u := by rw [State.el, he, State.el]
  exact ⟨hm, fun u _ => same u, by rw [same], fun f => by rw [same], fun f h => by rw [same]⟩
theorem State.setMoored_wakes (s : State) (t : Tile) (f : Facet) (h : Fin 64) (b : Bool) :
    OnlyWakes s (s.modFac t f (·.setMoored h b)) t := by
  refine ⟨rfl, fun u hu => State.modFac_el_other _ _ _ _ _ hu, by rw [State.modFac_el_same]; rfl, fun g => ?_, fun g x => ?_⟩ <;>
    rw [State.modFac_el_same]
  · by_cases hg : g = f
    · rw [hg, Element.modFac_fac_same]; rfl
    · rw [Element.modFac_fac_other _ _ _ _ hg]
  · by_cases hg : g = f
    · rw [hg, Element.modFac_fac_same, FacetEl.setMoored]
      by_cases hx : x = h
      · rw [hx, vget_vmod_same]
      · rw [vget_vmod_other _ _ _ _ hx]
    · rw [Element.modFac_fac_other _ _ _ _ hg]
theorem State.unmoor_wakes (s : State) (t : Tile) (word : Nat) (full : Bool) : OnlyWakes s (s.unmoor t word full) t := by
  unfold State.unmoor
  refine .trans (b := s.setEl t _) ⟨rfl, fun u hu => State.setEl_el_other _ _ _ _ hu, ?_, fun f => ?_, fun f x => ?_⟩
    (.foldl (fun s (m : Moor) => s.setMoored_wakes t m.facet m.handler false) _ _) <;> rw [State.setEl_el_same]
  · rfl
  · rfl
theorem State.localTagChange_wakes (s : State) (t : Tile) (f : Facet) (word : Nat) (full : Bool) :
    OnlyWakes s (s.localTagChange t f word full) t := by
  have watched := (s.unmoor t word full).dbgTag_watch t f 0 (8 * word - localBase t) full
  have elements : (s.localTagChange t f word full).elements = (s.unmoor t word full).elements := (congrArg State.elements watched :)
  have mem : (s.localTagChange t f word full).mem = (s.unmoor t word full).mem := (congrArg State.mem watched :)
  exact (s.unmoor_wakes t word full).trans (.of_same elements mem t)

/-! The parts of a commit (R31) -/

/-- A commit may raise its facet's phase, which lies outside the elements and the memory (R452). -/
theorem State.phaseCommit_same (s : State) (t : Tile) (f : Facet) :
    (s.phaseCommit t f).elements = s.elements ∧ (s.phaseCommit t f).mem = s.mem := by
  unfold State.phaseCommit
  split
  · split <;> exact ⟨rfl, rfl⟩
  · exact ⟨rfl, rfl⟩
/-- Sends enter the output queues, each behind those before it. -/
theorem Element.emit_outq (e : Element) (cycle : Nat) (l : List SendEnt) (p : Fin 16) :
    ((e.emit cycle l).outq.get p).map (·.tok) = (e.outq.get p).map (·.tok) ++ (l.filter (·.port == p)).map (·.tok) := by
  unfold Element.emit
  induction l generalizing e with
  | nil => simp
  | cons x l ih =>
    rw [List.foldl_cons, ih]
    by_cases hp : x.port = p
    · subst hp; simp
    · rw [vget_vmod_other _ _ _ _ (Ne.symm hp), List.filter_cons_of_neg (by simpa using hp)]
theorem Element.emit_frame (e : Element) (cycle : Nat) (l : List SendEnt) : { e.emit cycle l with outq := e.outq } = e := by
  unfold Element.emit
  induction l generalizing e with
  | nil => rfl
  | cons x l ih =>
    exact congrArg (fun y : Element => { y with outq := e.outq }) (ih { e with outq := vmod e.outq x.port (· ++ [⟨x.tok, cycle, x.wait⟩]) })
@[simp] theorem Element.emit_fac (e : Element) (cycle : Nat) (l : List SendEnt) (f : Facet) : (e.emit cycle l).fac f = e.fac f :=
  (congrArg (Element.fac · f) (e.emit_frame cycle l) :)
/-- The record of a snapshot is no register of the facet (R371). -/
theorem FacetEl.addRecord_frame (fe : FacetEl) (l : List (Nat × Token)) : { fe.addRecord l with snaps := fe.snaps } = fe := by
  unfold FacetEl.addRecord
  split <;> rfl
theorem Act.handlersAfter_own (a : Act) (hs : Vector Handler 64) :
    ((a.handlersAfter hs).get a.handler).retry = 0 ∧ ((a.handlersAfter hs).get a.handler).arm = false := by
  simp [Act.handlersAfter]

/-- An element after the commit of the activation a: its facet with what a leaves, its output queues with what a sends. -/
def Element.committed (e : Element) (a : Act) (halt : Bool) (ids : List Nat) (cycle : Nat) : Element :=
  (e.modFac a.facet fun fe => (fe.addRecord (fe.recordOf a.taken)).committed a halt ids cycle).emit cycle a.sends
/-- The words that the commit changes are logged. -/
def State.commitLogged (s : State) (t : Tile) (a : Act) : State := (wordsOf a.stores).foldl (fun s w => s.logLocal t a.facet w) s
/-- The device requests that the commit queues. -/
def State.commitReqs (s : State) (t : Tile) (a : Act) : List Req :=
  (devReqs a.stores).map fun r => { r with reach := ((s.el t).fac a.facet).reach, stage := .queued }
/-- Memory, requests and the element change. -/
def State.commitChanged (s : State) (t : Tile) (a : Act) (halt : Bool) : State :=
  let u := s.commitLogged t a
  State.modEl { u with mem := a.stores.foldl Memory.applyEnt u.mem, reqs := u.reqs ++ s.commitReqs t a } t
    (·.committed a halt ((s.commitReqs t a).map (·.id)) u.cycle)
/-- The tags that differ from those before wake handlers. -/
def State.commitWoken (s : State) (t : Tile) (f : Facet) (before : List (Nat × Bool)) : State :=
  before.foldl (fun s x =>
    let now := s.mem.isFull (8 * x.1)
    if now = x.2 then s else s.localTagChange t f x.1 now) s
theorem State.commitApply_eq (s : State) (t : Tile) (a : Act) (halt : Bool) : s.commitApply t a halt =
    (((s.commitChanged t a halt).commitWoken t a.facet ((tagWords a.stores).map fun w => (w, s.mem.isFull (8 * w)))).phaseCommit t
      a.facet).dropAct t := rfl
theorem State.commitWoken_wakes (s : State) (t : Tile) (f : Facet) (before : List (Nat × Bool)) :
    OnlyWakes s (s.commitWoken t f before) t := by
  refine .foldl (fun s x => ?_) _ _
  dsimp only
  split
  · exact .refl s t
  · exact State.localTagChange_wakes ..

/-! The element after a commit -/

theorem FacetEl.addRecord_hstat (fe : FacetEl) (l : List (Nat × Token)) : (fe.addRecord l).hstat = fe.hstat :=
  (congrArg FacetEl.hstat (fe.addRecord_frame l) :)
theorem FacetEl.addRecord_inq (fe : FacetEl) (l : List (Nat × Token)) : (fe.addRecord l).inq = fe.inq :=
  (congrArg FacetEl.inq (fe.addRecord_frame l) :)
section
variable (e : Element) (a : Act) (halt : Bool) (ids : List Nat) (cycle : Nat)
theorem Element.committed_fac_same : (e.committed a halt ids cycle).fac a.facet =
    ((e.fac a.facet).addRecord ((e.fac a.facet).recordOf a.taken)).committed a halt ids cycle := by
  rw [Element.committed, Element.emit_fac, Element.modFac_fac_same]
theorem Element.committed_fac_other (f : Facet) (h : f ≠ a.facet) : (e.committed a halt ids cycle).fac f = e.fac f := by
  rw [Element.committed, Element.emit_fac, Element.modFac_fac_other _ _ _ _ h]
end

section
variable (s : State) (t : Tile) (a : Act) (halt : Bool)
theorem State.commitLogged_undo : OnlyUndo s (s.commitLogged t a) t := s.logWords_undo t a.facet (wordsOf a.stores)
theorem State.commitLogged_fac (f : Facet) : ((s.commitLogged t a).el t).fac f = (s.el t).fac f :=
  (congrArg (Element.fac · f) (s.commitLogged_undo t a).2 :)
theorem State.commitChanged_el : (s.commitChanged t a halt).el t =
    ((s.commitLogged t a).el t).committed a halt ((s.commitReqs t a).map (·.id)) (s.commitLogged t a).cycle := State.modEl_el_same ..
theorem State.commitChanged_el_other (u : Tile) (h : u.key ≠ t.key) : (s.commitChanged t a halt).el u = s.el u :=
  (State.modEl_el_other _ _ _ _ h).trans ((s.commitLogged_undo t a).1.2 u h)
theorem State.commitChanged_mem : (s.commitChanged t a halt).mem = a.stores.foldl Memory.applyEnt s.mem :=
  congrArg (a.stores.foldl Memory.applyEnt) (congrArg State.mem (s.commitLogged_undo t a).1.1 :)
theorem State.commitChanged_fac : ((s.commitChanged t a halt).el t).fac a.facet =
    (((s.el t).fac a.facet).addRecord (((s.el t).fac a.facet).recordOf a.taken)).committed a halt ((s.commitReqs t a).map (·.id))
      (s.commitLogged t a).cycle := by
  rw [State.commitChanged_el, Element.committed_fac_same, State.commitLogged_fac]
theorem State.commitChanged_fac_other (f : Facet) (h : f ≠ a.facet) : ((s.commitChanged t a halt).el t).fac f = (s.el t).fac f := by
  rw [State.commitChanged_el, Element.committed_fac_other _ _ _ _ _ _ h, State.commitLogged_fac]
theorem State.commitChanged_outq (p : Fin 16) : (((s.commitChanged t a halt).el t).outq.get p).map (·.tok) =
    ((s.el t).outq.get p).map (·.tok) ++ (a.sends.filter (·.port == p)).map (·.tok) := by
  have outq : ((s.commitLogged t a).el t).outq = (s.el t).outq := (congrArg Element.outq (s.commitLogged_undo t a).2 :)
  rw [State.commitChanged_el, Element.committed, Element.emit_outq, ← outq]
  rfl
/-- After its element, a commit changes only moored bits and what lies outside the elements, and ends the activation. -/
theorem State.commitApply_ends : ∃ x, OnlyWakes (s.commitChanged t a halt) x t ∧ s.commitApply t a halt = x.dropAct t := by
  obtain ⟨elements, mem⟩ := State.phaseCommit_same ((s.commitChanged t a halt).commitWoken t a.facet
    ((tagWords a.stores).map fun w => (w, s.mem.isFull (8 * w)))) t a.facet
  exact ⟨_, (State.commitWoken_wakes ..).trans (.of_same elements mem t), s.commitApply_eq t a halt⟩

/-- A commit leaves what R31 says, and in HSTAT the flags of the activation, and HALTED where it is a HALT. -/
theorem State.commitApply_commits : Commits s (s.commitApply t a halt) t a ∧
    (((s.commitApply t a halt).el t).fac a.facet).hstat =
      (if halt then setBit (a.hstat ((s.el t).fac a.facet)) 9 true else a.hstat ((s.el t).fac a.facet)) := by
  obtain ⟨x, wakes, ends⟩ := s.commitApply_ends t a halt
  have element : (x.dropAct t).el t = { x.el t with act := none } := State.dropAct_el_same ..
  have facet (f : Facet) : ((x.dropAct t).el t).fac f = (x.el t).fac f := by rw [element]; rfl
  have outq : ((x.dropAct t).el t).outq = ((s.commitChanged t a halt).el t).outq := by
    rw [element]; exact (congrArg Element.outq wakes.own :)
  have own := wakes.facet a.facet
  have handler := wakes.handler a.facet a.handler
  rw [State.commitChanged_fac] at own handler
  rw [ends]
  refine ⟨{ ended := ?_, bank := ?_, rmode := ?_, masks := ?_, taken := fun p => ?_, sends := fun p => ?_, others := fun f hf => ?_,
            mem := ?_, retry := ?_, elsewhere := fun u hu => ?_ }, ?_⟩
  · rw [element]
  · rw [facet]; exact (congrArg FacetEl.bank own :)
  · rw [facet]; exact (congrArg FacetEl.rmode own :)
  · rw [facet]; exact (congrArg FacetEl.masks own :)
  · have inq := (congrArg FacetEl.inq own :)
    simp only [FacetEl.committed, FacetEl.addRecord_inq] at inq
    rw [facet, inq]
    simp [vget_eq_getElem]
  · rw [outq, State.commitChanged_outq]
  · have kept := wakes.facet f
    rw [State.commitChanged_fac_other _ _ _ _ _ hf] at kept
    rw [facet]
    exact ⟨(congrArg FacetEl.bank kept :), (congrArg FacetEl.inq kept :)⟩
  · exact wakes.mem.trans (s.commitChanged_mem t a halt)
  · obtain ⟨retry, arm⟩ := a.handlersAfter_own (((s.el t).fac a.facet).addRecord (((s.el t).fac a.facet).recordOf a.taken)).handlers
    rw [facet]
    exact ⟨(congrArg Handler.retry handler :).trans retry, (congrArg Handler.arm handler :).trans arm⟩
  · exact (State.dropAct_el_other _ _ _ hu).trans ((wakes.others u hu).trans (s.commitChanged_el_other t a halt u hu))
  · have hstat := (congrArg FacetEl.hstat own :)
    simp only [FacetEl.committed, Act.hstat, FacetEl.addRecord_hstat] at hstat
    rw [facet, hstat]
    rfl
end

/-- Settles O27: END and HALT are commits that nothing blocks, YIELD and an uncounted ABORT are aborts. -/
theorem activationEnds : Obligations.ActivationEnds := by
  intro w s t a issues passes
  refine ⟨fun go => ?_, ?_⟩
  · have commit (halt : Bool) : s.commit t a halt = s.commitApply t a halt := by rw [State.commit, go]
    obtain ⟨ended, hstat⟩ := s.commitApply_commits t a false
    obtain ⟨halted, hstat'⟩ := s.commitApply_commits t a true
    refine ⟨⟨_, ?_, ended, hstat⟩, ⟨_, ?_, halted, ?_⟩⟩
    · rw [exec_endAct, execEnd, issues.withAct_eq, passes.issue_eq, commit]
    · rw [exec_halt, execHalt, issues.withAct_eq, passes.issue_eq, commit]
    · rw [hstat', if_pos rfl]
      exact bit_setBit_same _ _ _ (by decide)
  · intro gone
    have aborted {i : Instr} (h : exec i s = .next (s.abort t a)) : gone i :=
      ⟨_, h, s.abort_el_same t a, rfl, fun u hu => s.abort_el_other t u a hu, rfl⟩
    refine ⟨aborted ?_, fun unlimited => aborted ?_⟩
    · rw [exec_yield, execYield, issues.withAct_eq, passes.issue_eq]
    · rw [exec_abort, execAbort, issues.withAct_eq, passes.issue_eq, State.abortCount_unlimited unlimited]

end Sys2Proof.Machine
end

section
/-! SUPPORT. The steps of an element's own logic (R13, R17, R24 to R26, R33, R40): which handler selection names, whose age changes, and what
the supervisor's steps leave. -/

namespace Sys2Proof.Machine

theorem exec_stallAbort (t : Tile) (s : State) : exec (.stallAbort t) s = execStallAbort t s := rfl
theorem exec_markRemoval (t : Tile) (p : Fin 16) (f : Facet) (s : State) : exec (.markRemoval t p f) s = execMarkRemoval t p f s := rfl

/-! Selection (R24) -/

/-- The candidate that the rotation picks is one of them. -/
theorem mem_of_pickRot {ptr : Nat} {l : List (Facet × Fin 64)} {x : Facet × Fin 64} (h : pickRot ptr l = some x) : x ∈ l := by
  induction l generalizing x with
  | nil => cases h
  | cons y l ih =>
    rw [pickRot] at h
    cases hp : pickRot ptr l with
    | none =>
      simp only [hp, Option.some.injEq] at h
      exact h ▸ List.mem_cons_self ..
    | some z =>
      simp only [hp] at h
      split at h <;> cases h
      · exact List.mem_cons_self ..
      · exact List.mem_cons_of_mem _ (ih hp)
theorem le_foldl_max {α : Type} (pri : α → Nat) (l : List α) (m : Nat) :
    m ≤ l.foldl (fun m x => max m (pri x)) m ∧ ∀ x ∈ l, pri x ≤ l.foldl (fun m x => max m (pri x)) m := by
  induction l generalizing m with
  | nil => exact ⟨le_refl m, fun x hx => absurd hx (List.not_mem_nil)⟩
  | cons y l ih =>
    obtain ⟨start, rest⟩ := ih (max m (pri y))
    refine ⟨(Nat.le_max_left ..).trans start, fun x hx => ?_⟩
    rcases List.mem_cons.1 hx with rfl | hx
    · exact (Nat.le_max_right ..).trans start
    · exact rest x hx
/-- A handler of an element. -/
def Element.handler (e : Element) (x : Facet × Fin 64) : Handler := (e.fac x.1).handlers.get x.2
/-- Selection names a candidate of the highest effective priority. -/
theorem Element.select_highest {e : Element} {l : List (Facet × Fin 64)} {x : Facet × Fin 64} {level : Fin 8}
    (h : e.select l = some (x, level)) : x ∈ l ∧ ∀ y ∈ l, (e.handler y).effPri ≤ (e.handler x).effPri := by
  obtain ⟨z, picked, hz⟩ := Option.map_eq_some_iff.1 h
  cases hz
  obtain ⟨mem, top⟩ := List.mem_filter.1 (mem_of_pickRot picked)
  exact ⟨mem, fun y hy => ((le_foldl_max _ l 0).2 y hy).trans (eq_of_beq top).ge⟩

/-- Each handler of an element is a candidate at most once. -/
theorem State.waiting_nodup (s : State) (t : Tile) : (s.waiting t).Nodup := by
  refine List.Nodup.filter _ (List.nodup_flatMap.2 ⟨fun f _ => ?_, ?_⟩)
  · split
    · exact ((List.nodup_finRange 64).filter _).map fun a b h => (Prod.mk.inj h).2
    · exact List.nodup_nil
  · refine (List.nodup_finRange 4).imp fun {f g} hne x hf hg => hne ?_
    have facet {k : Facet} (h : x ∈ if bit (s.el t).fenable k.val then
        ((List.finRange 64).filter (fun h => s.runnable t k h)).map (fun h => (k, h)) else []) : x.1 = k := by
      split at h
      · obtain ⟨h, -, rfl⟩ := List.mem_map.1 h; rfl
      · cases h
    exact (facet hf).symm.trans (facet hg)

/-! Aging (R25) -/

/-- The age of one handler set anew. -/
def Element.setAge (e : Element) (x : Facet × Fin 64) (chosen : Option (Facet × Fin 64)) : Element :=
  e.modFac x.1 fun fe =>
    { fe with handlers := vmod fe.handlers x.2 fun h => { h with age := if chosen = some x then 0 else min 1024 (h.age + 1) } }
theorem Element.ageAll_cons (e : Element) (x : Facet × Fin 64) (l : List (Facet × Fin 64)) (chosen : Option (Facet × Fin 64)) :
    e.ageAll (x :: l) chosen = (e.setAge x chosen).ageAll l chosen := rfl
theorem Element.setAge_same (e : Element) (x : Facet × Fin 64) (chosen : Option (Facet × Fin 64)) :
    ((e.setAge x chosen).handler x).age = if chosen = some x then 0 else min 1024 ((e.handler x).age + 1) := by
  simp [Element.handler, Element.setAge]
theorem Element.setAge_other (e : Element) {x y : Facet × Fin 64} (chosen : Option (Facet × Fin 64)) (h : y ≠ x) :
    (e.setAge x chosen).handler y = e.handler y := by
  rw [Element.handler, Element.setAge]
  by_cases hf : y.1 = x.1
  · have hh : y.2 ≠ x.2 := fun k => h (Prod.ext hf k)
    rw [hf, Element.modFac_fac_same, vget_vmod_other _ _ _ _ hh, ← hf, Element.handler]
  · rw [Element.modFac_fac_other _ _ _ _ hf, Element.handler]
theorem Element.ageAll_other (l : List (Facet × Fin 64)) (e : Element) (chosen : Option (Facet × Fin 64)) (y : Facet × Fin 64) (h : y ∉ l) :
    (e.ageAll l chosen).handler y = e.handler y := by
  induction l generalizing e with
  | nil => rfl
  | cons x l ih =>
    obtain ⟨hx, hl⟩ := not_or.1 (mt List.mem_cons.2 h)
    rw [Element.ageAll_cons, ih _ hl, Element.setAge_other _ _ hx]
theorem Element.ageAll_age (l : List (Facet × Fin 64)) (nodup : l.Nodup) (e : Element) (chosen : Option (Facet × Fin 64))
    (y : Facet × Fin 64) (h : y ∈ l) :
    ((e.ageAll l chosen).handler y).age = if chosen = some y then 0 else min 1024 ((e.handler y).age + 1) := by
  induction l generalizing e with
  | nil => exact absurd h (List.not_mem_nil)
  | cons x l ih =>
    obtain ⟨hx, hl⟩ := List.nodup_cons.1 nodup
    rw [Element.ageAll_cons]
    rcases List.mem_cons.1 h with rfl | h
    · rw [Element.ageAll_other _ _ _ _ hx, Element.setAge_same]
    · rw [ih hl _ h, Element.setAge_other _ _ (fun k => hx (by rwa [← k]))]

/-- The element in which the handler x, chosen among the candidates l, starts at a level of rotation. -/
def Element.started (e : Element) (l : List (Facet × Fin 64)) (x : Facet × Fin 64) (level : Fin 8) : Element :=
  { (e.ageAll l (some x)).modFac x.1 id with
    act := some ((e.fac x.1).start x.1 x.2), curFacet := x.1, rot := vset e.rot level (BitVec.ofNat 8 (rotIndex x + 1)) }
theorem Element.started_handler (e : Element) (l : List (Facet × Fin 64)) (x : Facet × Fin 64) (level : Fin 8) (y : Facet × Fin 64) :
    (e.started l x level).handler y = (e.ageAll l (some x)).handler y := by
  have same : (e.started l x level).fac y.1 = (e.ageAll l (some x)).fac y.1 := by
    by_cases hf : y.1 = x.1
    · rw [hf]; exact Element.modFac_fac_same ..
    · exact Element.modFac_fac_other _ _ _ _ hf
  rw [Element.handler, same, Element.handler]
theorem State.dispatch_eq {s : State} {t : Tile} {x : Facet × Fin 64} {level : Fin 8} (idle : (s.el t).act = none)
    (selected : (s.el t).select (s.waiting t) = some (x, level)) :
    s.dispatch t = { s.setEl t ((s.el t).started (s.waiting t) x level) with agenda := .issue t :: s.agenda } := by
  simp only [State.dispatch, idle, selected]
  rfl

/-- An idle element that selects a handler starts it, and its issue slot is the next item of work. -/
theorem dispatch : Dispatch := by
  intro s t f h level ct inFabric idle selected
  obtain ⟨candidate, highest⟩ := Element.select_highest selected
  have nonempty : (s.waiting t).isEmpty = false := List.isEmpty_eq_false_iff_exists_mem.2 ⟨_, candidate⟩
  have run : exec (.handlerDispatch t) s = .next (s.dispatch t) := when_of_true (by rw [ct, inFabric, nonempty]; rfl)
  have element : (s.dispatch t).el t = (s.el t).started (s.waiting t) (f, h) level := by
    rw [State.dispatch_eq idle selected]; exact State.setEl_el_same ..
  have age (x : Facet × Fin 64) (hx : x ∈ s.waiting t) : (((s.dispatch t).el t).handler x).age =
      if some (f, h) = some x then 0 else min 1024 (((s.el t).handler x).age + 1) := by
    rw [element, Element.started_handler, Element.ageAll_age _ (s.waiting_nodup t) _ _ _ hx]
  have entry : fld (((s.el t).fac f).handlers.get h).entry 0 11 < 2 ^ 64 := (Nat.mod_lt _ (by decide)).trans (by decide)
  refine ⟨candidate, highest, s.dispatch t, ((s.el t).fac f).start f h, run, by rw [element]; rfl, ?_, rfl, rfl, ?_, rfl, rfl, rfl, rfl, rfl,
    rfl, rfl, rfl, fun p => ?_, by rw [element]; rfl, ?_, fun x hx hne => ?_, fun u hu => ?_, ?_⟩
  · rw [State.dispatch_eq idle selected]
  · exact Nat.mod_eq_of_lt entry
  · simp [FacetEl.start, vget_eq_getElem]
  · exact (age _ candidate).trans (if_pos rfl)
  · exact (age x hx).trans (if_neg fun k => hne (Option.some.inj k).symm)
  · rw [State.dispatch_eq idle selected]; exact State.setEl_el_other _ _ _ _ hu
  · rw [State.dispatch_eq idle selected]; rfl

/-! Marks (R17) -/

theorem State.headMark_nonempty {s : State} {t : Tile} {f : Facet} {p : Fin 16} {k : Token} (h : s.headMark t f p = some k) :
    0 < (s.inq t f p).length := by
  rw [State.headMark] at h
  cases hq : s.inq t f p with
  | nil => rw [hq] at h; cases h
  | cons x q => exact Nat.succ_pos _
/-- The end of a back port's recording takes the head of the port's queue, and changes elements and MTs alone (R371). -/
theorem State.endBack_inq (s : State) (t : Tile) (f : Facet) (p : Fin 16) (k : Token) :
    (s.endBack t f p k).inq t f p = (s.inq t f p).drop 1 := by
  unfold State.endBack State.dropHeads State.inq State.modInq
  cases t.isCT <;> by_cases hk : k.markType = markTide <;> simp [hk]
theorem State.endBack_nodes (s : State) (t : Tile) (f : Facet) (p : Fin 16) (k : Token) : OnlyNodes s (s.endBack t f p k) :=
  (s.dropHeads_nodes t f [p]).trans (.ite _ (.ite _ (State.modFac_nodes ..) (State.modMtFac_nodes ..)) (.refl _))

/-! Window registers (R12, R40) -/

/-- The low three bits cleared. -/
theorem toNat_and_clearLow {n : Nat} (x : BitVec n) : (x &&& (BitVec.allOnes n <<< 3)).toNat = x.toNat / 8 * 8 := by
  refine Nat.eq_of_testBit_eq fun i => ?_
  rw [BitVec.testBit_toNat, show 8 = 2 ^ 3 from rfl, Nat.testBit_mul_two_pow, Nat.testBit_div_two_pow, BitVec.testBit_toNat]
  simp only [BitVec.getLsbD_and, BitVec.getLsbD_shiftLeft, BitVec.getLsbD_allOnes]
  by_cases hi : i < n
  · by_cases low : i < 3
    · simp [low, show ¬3 ≤ i by omega]
    · simp [low, hi, show 3 ≤ i by omega, show i - 3 < n by omega]
  · simp [hi, BitVec.getLsbD_of_ge x (i - 3 + 3) (by omega)]
theorem FacetEl.writeWin_actbase (fe : FacetEl) (v : Word) : (fe.writeWin .actbase v).actbase.toNat = v.toNat % 2 ^ 16 / 8 * 8 :=
  (toNat_and_clearLow (v.setWidth 16)).trans (by rw [BitVec.toNat_setWidth])
theorem FacetEl.writeWin_actlim (fe : FacetEl) (v : Word) : (fe.writeWin .actlim v).actlim.toNat = v.toNat % 2 ^ 17 / 8 * 8 :=
  (toNat_and_clearLow (v.setWidth 17)).trans (by rw [BitVec.toNat_setWidth])

/-! The supervisor's steps -/

/-- A write of a window register that has arrived changes its facet as writeWin says, and is no longer waiting (R40). -/
theorem windowWrite_applies {s : State} {t : Tile} {f : Facet} {reg : WinReg} {v : Word} (idle : ∀ a, (s.el t).act = some a → a.facet ≠ f)
    (arrived : ((s.el t).fac f).writes.contains (reg, v) = true) :
    exec (.windowWriteApply t f reg v) s =
      .next (s.modFac t f fun fe => { fe.writeWin reg v with writes := fe.writes.erase (reg, v) }) := by
  have free : s.facetIdle t f = true := by
    unfold State.facetIdle
    cases ha : (s.el t).act with
    | none => rfl
    | some a => simpa using idle a ha
  exact when_of_true (by rw [arrived, free]; rfl)
theorem stallAbort_aborts {s : State} {t : Tile} {a : Act} (act : (s.el t).act = some a) (stalled : 64 ≤ a.stalled)
    (reason : s.waiting t ≠ [] ∨ s.anyMark t = true ∨ a.holds = true) : exec (.stallAbort t) s = .next (s.abort t a) := by
  rw [exec_stallAbort, execStallAbort, act]
  refine when_of_true ?_
  rw [decide_eq_true stalled]
  rcases reason with h | h | h <;> simp [h]
theorem stallAbort_waits {s : State} {t : Tile} {a : Act} (act : (s.el t).act = some a) (short : a.stalled < 64) :
    exec (.stallAbort t) s = .next s := by
  rw [exec_stallAbort, execStallAbort, act]
  exact when_of_false (by rw [decide_eq_false (by omega)]; rfl)
theorem markRemoval_back {s : State} {t : Tile} {p : Fin 16} {f : Facet} {k : Token} (inFabric : t.inFabric = true)
    (idle : (s.el t).act = none) (mark : s.headMark t f p = some k) (back : (s.backPorts t f).contains p = true)
    (taken : s.hasTaken t f k = true) : exec (.markRemoval t p f) s = .next (s.endBack t f p k) := by
  rw [exec_markRemoval, execMarkRemoval, if_neg (by simp [inFabric, idle]), mark]
  exact (if_pos back).trans (when_of_true taken)

theorem supervisorActs : SupervisorActs := by
  refine ⟨fun s t a act stalled reason => ⟨_, stallAbort_aborts act stalled reason, ?_⟩, fun s t a act short => stallAbort_waits act short,
    fun s t p f k ct inFabric idle mark back taken => ⟨markRemoval_back inFabric idle mark back taken, (s.endBack_nodes t f p k).mem, ?_⟩,
    fun s t f v idle => ?_, fun s t f reg v a act same => when_of_false ?_, fun s t f => ⟨_, rfl, s.modFac_only .., ?_⟩,
    fun s t f => ⟨_, rfl, s.modEl_only .., ?_⟩⟩
  · rw [State.abort_el_same]
    exact ⟨rfl, rfl, rfl, fun u hu => State.abort_el_other _ _ _ _ hu⟩
  · have := State.headMark_nonempty mark
    rw [State.endBack_inq, List.length_drop]
    omega
  · intro writes
    have applied {reg : WinReg} {P : FacetEl → FacetEl → Prop}
        (hp : ∀ fe : FacetEl, P fe { fe.writeWin reg v with writes := fe.writes.erase (reg, v) }) : writes reg P := fun arrived => by
      refine ⟨_, windowWrite_applies idle arrived, s.modFac_only .., ?_⟩
      rw [State.modFac_el_same, Element.modFac_fac_same]
      exact ⟨hp _, rfl⟩
    clear_value writes
    exact ⟨applied fun fe => ⟨fe.writeWin_actbase v, rfl⟩, applied fun fe => ⟨fe.writeWin_actlim v, rfl⟩,
      applied fun fe => ⟨BitVec.toNat_setWidth .., rfl⟩, applied fun fe => ⟨BitVec.toNat_setWidth .., rfl⟩,
      applied fun fe => ⟨BitVec.toNat_setWidth .., rfl⟩, applied fun fe => ⟨rfl, rfl⟩⟩
  · simp [State.facetIdle, act, same]
  · rw [State.modFac_el_same, Element.modFac_fac_same]
    exact ⟨bit_setBit_same _ _ _ (by decide), fun i hi => bit_setBit_other _ _ _ _ hi, rfl⟩
  · rw [State.modEl_el_same]
    exact ⟨bit_setBit_same _ _ _ f.isLt, fun i hi => bit_setBit_other _ _ _ _ hi, rfl⟩

/-- Settles O39: the dispatch of a handler, and the supervisor's steps one by one. -/
theorem elementSteps : Obligations.ElementSteps := ⟨dispatch, supervisorActs⟩

end Sys2Proof.Machine
end

section
/-! SUPPORT. Words and instructions (R41 to R46, R57 to R60): a word is what its fields, laid side by side, spell; the instruction that a word is
split into has that word; and decoding and encoding are inverse to each other. -/

namespace Sys2Proof

/-! A field's bits are those that were cut out of the word (R41 to R48) -/

theorem Spec.toBits_ofBits (b : Byte) : (Spec.ofBits b).toBits = b := by revert b; decide
theorem Match.toBits_ofBits (b : BitVec 2) : (Match.ofBits b).toBits = b := by revert b; decide
theorem Rnd.toBits_ofBits (b : BitVec 3) : (Rnd.ofBits b).toBits = b := by revert b; decide
theorem Esz.toBits_ofBits (b : BitVec 3) : (Esz.ofBits b).toBits = b := by revert b; decide
theorem Size.toBits_ofBits (b : BitVec 3) : (Size.ofBits b).toBits = b := by revert b; decide
theorem Scope.toBits_ofBits (b : BitVec 3) : (Scope.ofBits b).toBits = b := by revert b; decide
theorem Cond.toBits_ofBits (b : BitVec 4) : (Cond.ofBits b).toBits = b := by revert b; decide

/-- Two neighbouring fields are one field. -/
theorem cut_append (w : Word) (lo m n : Nat) : cut w (lo + m) n ++ cut w lo m = cut w lo (n + m) :=
  BitVec.extractLsb'_append_extractLsb'_eq_extractLsb' rfl
/-- One bit is a field of width 1. -/
theorem ofBool_cut (w : Word) (i : Nat) : BitVec.ofBool (w.getLsbD i) = cut w i 1 := by
  apply BitVec.eq_of_getLsbD_eq
  intro j hj
  obtain rfl : j = 0 := by omega
  simp

section
variable {w : Word} {op : BitVec 8} (hop : cut w 56 8 = op)
include hop
theorem Head.toBits_ofWord : (Head.ofWord w).toBits op (.ofBits (cut w 42 8)) (.ofBits (cut w 34 8)) = cut w 34 30 := by
  simp only [Head.toBits, Head.ofWord, Spec.toBits_ofBits, Match.toBits_ofBits, ofBool_cut, ← hop]
  rw [cut_append w 55 1 8, cut_append w 52 3 9, cut_append w 50 2 12, cut_append w 42 8 14, cut_append w 34 8 22]
theorem RForm.toWord_ofWord : (RForm.ofWord w).toWord op = w := by
  simp only [RForm.toWord, RForm.ofWord, Head.toBits_ofWord hop, Spec.toBits_ofBits, Rnd.toBits_ofBits, Esz.toBits_ofBits]
  rw [cut_append w 26 8 30, cut_append w 18 8 38, cut_append w 15 3 46, cut_append w 12 3 49, cut_append w 0 12 52]
  exact cut_all w
theorem IForm.toWord_ofWord : (IForm.ofWord w).toWord op = w := by
  simp only [IForm.toWord, IForm.ofWord, Head.toBits_ofWord hop]
  rw [cut_append w 0 34 30]
  exact cut_all w
theorem BForm.toWord_ofWord : (BForm.ofWord w).toWord op = w := by
  simp only [BForm.toWord, BForm.ofWord, Head.toBits_ofWord hop, Spec.toBits_ofBits, Cond.toBits_ofBits]
  rw [cut_append w 26 8 30, cut_append w 22 4 38, cut_append w 11 11 42, cut_append w 0 11 53]
  exact cut_all w
theorem MForm.toWord_ofWord : (MForm.ofWord w).toWord op = w := by
  simp only [MForm.toWord, MForm.ofWord, Head.toBits_ofWord hop, Spec.toBits_ofBits, Size.toBits_ofBits, Scope.toBits_ofBits]
  rw [cut_append w 26 8 30, cut_append w 23 3 38, cut_append w 20 3 41, cut_append w 0 20 44]
  exact cut_all w
theorem EForm.toWord_ofWord : (EForm.ofWord w).toWord op = w := by
  simp only [EForm.toWord, EForm.ofWord, Head.toBits_ofWord hop, Spec.toBits_ofBits]
  rw [cut_append w 26 8 30, cut_append w 18 8 38, cut_append w 0 18 46]
  exact cut_all w
end

theorem opcode_eq {w : Word} {n : Nat} (h : (cut w 56 8).toNat = n) : cut w 56 8 = BitVec.ofNat 8 n := by
  rw [← h, BitVec.ofNat_toNat, BitVec.setWidth_eq]
theorem opcode_toNat (w : Word) : (cut w 56 8).toNat = fld w 56 8 := by
  simp only [cut, fld, BitVec.extractLsb'_toNat, Nat.shiftRight_eq_div_pow]

/-- The instruction that a word is split into, opcode by opcode: it has that word, it is no step of another agent, and it stands for an
unassigned opcode only where the opcode is none of those of R58. -/
theorem splitWord_sound (w : Word) : encode (splitWord w) = some w ∧ (splitWord w).argsOk = true ∧ (splitWord w).opcodeOk = true := by
  unfold splitWord
  split
  case h_161 =>
    refine ⟨rfl, rfl, ?_⟩
    have opcode := opcode_toNat w
    generalize (cut w 56 8).toNat = n at *
    simp only [Instr.opcodeOk, opcodeAssigned, ← opcode, Bool.not_eq_true', Bool.or_eq_false_iff, Bool.and_eq_false_iff,
      decide_eq_false_iff_not, imp_false] at *
    omega
  all_goals
    rename_i h
    have hop := opcode_eq h
    refine ⟨?_, rfl, rfl⟩
    simp only [encode, RForm.toWord_ofWord hop, IForm.toWord_ofWord hop, BForm.toWord_ofWord hop, MForm.toWord_ofWord hop,
      EForm.toWord_ofWord hop]

/-- What a word decodes to is what its opcode and format give, where that passes its checks (R57). -/
theorem splitWord_of_decode {w : Word} {i : Instr} (h : decode w = .ok i) : splitWord w = i ∧ i.check = none := by
  unfold decode at h
  split at h
  case h_1 => cases h
  case h_2 good =>
    cases h
    exact ⟨rfl, good⟩

/-- Each constructor by its own law; the steps of the other agents have no word. -/
theorem Laws.decode_encode (i : Instr) : RoundTrip.Statement i := by
  cases i with
  | add w => exact RoundTrip.add w | addi w => exact RoundTrip.addi w | sub w => exact RoundTrip.sub w | mul w => exact RoundTrip.mul w
  | muli w => exact RoundTrip.muli w | mulh w => exact RoundTrip.mulh w | mulhu w => exact RoundTrip.mulhu w
  | div w => exact RoundTrip.div w | divu w => exact RoundTrip.divu w | rem w => exact RoundTrip.rem w | remu w => exact RoundTrip.remu w
  | and w => exact RoundTrip.and w | andi w => exact RoundTrip.andi w | or w => exact RoundTrip.or w | ori w => exact RoundTrip.ori w
  | xor w => exact RoundTrip.xor w | xori w => exact RoundTrip.xori w | andn w => exact RoundTrip.andn w | shl w => exact RoundTrip.shl w
  | shli w => exact RoundTrip.shli w | shr w => exact RoundTrip.shr w | shri w => exact RoundTrip.shri w | sra w => exact RoundTrip.sra w
  | srai w => exact RoundTrip.srai w | rotl w => exact RoundTrip.rotl w | clz w => exact RoundTrip.clz w | ctz w => exact RoundTrip.ctz w
  | popc w => exact RoundTrip.popc w | bswap w => exact RoundTrip.bswap w | bext w => exact RoundTrip.bext w
  | bins w => exact RoundTrip.bins w | min w => exact RoundTrip.min w | max w => exact RoundTrip.max w | minu w => exact RoundTrip.minu w
  | maxu w => exact RoundTrip.maxu w | cmp w => exact RoundTrip.cmp w | cmpi w => exact RoundTrip.cmpi w | sel w => exact RoundTrip.sel w
  | limm w => exact RoundTrip.limm w | lea w => exact RoundTrip.lea w | chash w => exact RoundTrip.chash w
  | fadd w => exact RoundTrip.fadd w | fsub w => exact RoundTrip.fsub w | fmul w => exact RoundTrip.fmul w
  | ffma w => exact RoundTrip.ffma w | fdiv w => exact RoundTrip.fdiv w | fsqrt w => exact RoundTrip.fsqrt w
  | fmin w => exact RoundTrip.fmin w | fmax w => exact RoundTrip.fmax w | fcmp w => exact RoundTrip.fcmp w
  | fcvt w => exact RoundTrip.fcvt w | frsqe w => exact RoundTrip.frsqe w | frcpe w => exact RoundTrip.frcpe w
  | vadd w => exact RoundTrip.vadd w | vsub w => exact RoundTrip.vsub w | vmul w => exact RoundTrip.vmul w
  | vfma w => exact RoundTrip.vfma w | vmin w => exact RoundTrip.vmin w | vmax w => exact RoundTrip.vmax w
  | vabsmax w => exact RoundTrip.vabsmax w | vred w => exact RoundTrip.vred w | vscan w => exact RoundTrip.vscan w
  | vdot w => exact RoundTrip.vdot w | viadd w => exact RoundTrip.viadd w | visub w => exact RoundTrip.visub w
  | vimul w => exact RoundTrip.vimul w | vand w => exact RoundTrip.vand w | vor w => exact RoundTrip.vor w
  | vxor w => exact RoundTrip.vxor w | vshl w => exact RoundTrip.vshl w | vshr w => exact RoundTrip.vshr w
  | vsra w => exact RoundTrip.vsra w | vpopc w => exact RoundTrip.vpopc w | vcmp w => exact RoundTrip.vcmp w
  | vicmp w => exact RoundTrip.vicmp w | vsel w => exact RoundTrip.vsel w | vsplat w => exact RoundTrip.vsplat w
  | vperm w => exact RoundTrip.vperm w | vextr w => exact RoundTrip.vextr w | vins w => exact RoundTrip.vins w
  | vcvt w => exact RoundTrip.vcvt w | vcvts w => exact RoundTrip.vcvts w | vpack w => exact RoundTrip.vpack w
  | vunpk w => exact RoundTrip.vunpk w | vrsqe w => exact RoundTrip.vrsqe w | vrcpe w => exact RoundTrip.vrcpe w
  | vcmul w => exact RoundTrip.vcmul w | vcmac w => exact RoundTrip.vcmac w | vconj w => exact RoundTrip.vconj w
  | vbfly w => exact RoundTrip.vbfly w | ld w => exact RoundTrip.ld w | st w => exact RoundTrip.st w | ldv w => exact RoundTrip.ldv w
  | stv w => exact RoundTrip.stv w | ldw w => exact RoundTrip.ldw w | ldc w => exact RoundTrip.ldc w | stf w => exact RoundTrip.stf w
  | stx w => exact RoundTrip.stx w | tage w => exact RoundTrip.tage w | tagq w => exact RoundTrip.tagq w
  | send w => exact RoundTrip.send w | sendn w => exact RoundTrip.sendn w | sende w => exact RoundTrip.sende w
  | sendh w => exact RoundTrip.sendh w | sendt w => exact RoundTrip.sendt w | recv w => exact RoundTrip.recv w
  | peek w => exact RoundTrip.peek w | tagr w => exact RoundTrip.tagr w | drop w => exact RoundTrip.drop w
  | fwd w => exact RoundTrip.fwd w | br w => exact RoundTrip.br w | brc w => exact RoundTrip.brc w | call w => exact RoundTrip.call w
  | ret w => exact RoundTrip.ret w | loop w => exact RoundTrip.loop w | endAct w => exact RoundTrip.endAct w
  | yield w => exact RoundTrip.yield w | abort w => exact RoundTrip.abort w | halt w => exact RoundTrip.halt w
  | trap w => exact RoundTrip.trap w | arm w => exact RoundTrip.arm w | mask w => exact RoundTrip.mask w | mfs w => exact RoundTrip.mfs w
  | mts w => exact RoundTrip.mts w | fence w => exact RoundTrip.fence w | order w => exact RoundTrip.order w
  | mld w => exact RoundTrip.mld w | mst w => exact RoundTrip.mst w | mldw w => exact RoundTrip.mldw w | mldc w => exact RoundTrip.mldc w
  | mstf w => exact RoundTrip.mstf w | mstx w => exact RoundTrip.mstx w | mtage w => exact RoundTrip.mtage w
  | mtagq w => exact RoundTrip.mtagq w | matom w => exact RoundTrip.matom w | mcas w => exact RoundTrip.mcas w
  | tld w => exact RoundTrip.tld w | tst w => exact RoundTrip.tst w | scopy w => exact RoundTrip.scopy w
  | sgath w => exact RoundTrip.sgath w | sscat w => exact RoundTrip.sscat w | sred w => exact RoundTrip.sred w
  | scomp w => exact RoundTrip.scomp w | sexp w => exact RoundTrip.sexp w | agstart w => exact RoundTrip.agstart w
  | agstop w => exact RoundTrip.agstop w | agqry w => exact RoundTrip.agqry w | darm w => exact RoundTrip.darm w
  | dpost w => exact RoundTrip.dpost w | wcvt w => exact RoundTrip.wcvt w | mma w => exact RoundTrip.mma w
  | mldb w => exact RoundTrip.mldb w | mscale w => exact RoundTrip.mscale w | maclr w => exact RoundTrip.maclr w
  | msto w => exact RoundTrip.msto w | mrda w => exact RoundTrip.mrda w | mswap w => exact RoundTrip.mswap w
  | mqry w => exact RoundTrip.mqry w | mslot w => exact RoundTrip.mslot w | mfence w => exact RoundTrip.mfence w
  | illegalOpcode w => exact RoundTrip.illegalOpcode w | resync w => exact RoundTrip.resync w
  | _ => exact fun _ _ e => by cases e

/-- Settles O3: a well-formed instruction is read back by the law of its constructor, and a word that decodes is spelled by the fields that were
cut out of it. -/
theorem encodingRoundTrip : Obligations.EncodingRoundTrip := by
  refine ⟨fun i w wf => Laws.decode_encode i wf w, fun w i h => ?_⟩
  obtain ⟨rfl, check⟩ := splitWord_of_decode h
  obtain ⟨word, args, opcode⟩ := splitWord_sound w
  exact ⟨by rw [Instr.wf, check, args, opcode]; rfl, word⟩

/-- Settles O5: the decoder is evaluated on each word. -/
theorem decodeWords : Obligations.DecodeWords := ⟨rfl, rfl, rfl, rfl, rfl, rfl, rfl, rfl, rfl⟩

end Sys2Proof
end

section
/-! SUPPORT. The stages of issue and the branches (R27, R29, R33, R44, R54, R55, R114 to R117): how an instruction ends that the guard,
the ports or the predicate match keep from executing, which instructions pass the stages on which operands, and where a branch goes. -/

namespace Sys2Proof.Machine

/-! Instructions that change nothing but their activation -/

/-- An instruction that does no more than give the tile another activation, after a debug match, leaves all else. -/
theorem Becomes.of_setAct {i : Instr} {s s' : State} {t : Tile} {b : Act} (h : exec i s = .next (s'.setAct t b)) (k : OnlyDebug s s') :
    Becomes i s t b := ⟨_, h, by rw [State.setAct_el_same], k.slotFrame t b⟩
theorem Retires.of_retire {i : Instr} {s : State} {t : Tile} {r : Act} {busy : Nat} (h : exec i s = .next (s.retire t r busy)) :
    Retires i s t r busy := .of_setAct h (.refl s)

/-- The predicate match fails on the token k (R41, R55). -/
def Mismatches (pm : Match) (k : Token) : Prop := pm = .predTrue ∧ k.pred = false ∨ pm = .predFalse ∧ k.pred = true

/-! How the stages of issue end before execution (R54, R55, R57) -/

section
variable {s : State} {t : Tile} {a : Act} {h : Head} {srcs : List Spec} {out : Option (BitVec 4)}
theorem State.issue_unguarded (g : ¬Guarded a h) (nul : Token → State) (body : State) :
    s.issue t a h srcs out nul body = s.retire t a 0 :=
  if_pos (by simpa [Guarded] using g)
theorem State.issue_waits (g : Guarded a h) (missing : s.portsReady t a srcs = false ∨ s.hasRoom t a out = false) (nul : Token → State)
    (body : State) : s.issue t a h srcs out nul body = s.portWait t a := by
  have stuck : (s.portsReady t a srcs && s.hasRoom t a out) = false := by
    rcases missing with e | e <;> simp [e]
  rw [State.issue, if_neg (by simpa [Guarded] using g), stuck]
  rfl
theorem State.issue_mismatch (g : Guarded a h) (ports : s.portsReady t a srcs = true) (room : s.hasRoom t a out = true) {k : Token}
    (tok : (firstPort srcs).bind (s.specTok t a) = some k) (bad : Mismatches h.pm k)
    (nul : Token → State) (body : State) : s.issue t a h srcs out nul body = s.retire t (a.consumeAll srcs) 0 := by
  rw [State.issue, if_neg (by simpa [Guarded] using g), ports, room, tok]
  obtain ⟨pm, pred⟩ | ⟨pm, pred⟩ := bad <;> simp [pm, pred]
end

/-- The instruction runs the stages of issue with this guard, on these sources and this output port, whatever it then does with a null and in
execution (R57). -/
def Staged (i : Instr) (h : Head) (srcs : List Spec) (out : Option (BitVec 4)) : Prop :=
  ∃ (nul : State → Tile → Act → Token → State) (body : State → Tile → Act → State),
    ∀ s, exec i s = withAct s fun t a => s.issue t a h srcs out (nul s t a) (body s t a)

section
variable {i : Instr} {s : State} {t : Tile} {a : Act} {h : Head} {srcs : List Spec} {out : Option (BitVec 4)} {k : Token}
  (st : Staged i h srcs out) (issues : Issues s t a)
include st issues
theorem Staged.unguarded (g : ¬Guarded a h) : Retires i s t a 0 := by
  obtain ⟨nul, body, run⟩ := st
  exact .of_retire (by rw [run, issues.withAct_eq, State.issue_unguarded g])
theorem Staged.waits (g : Guarded a h) (missing : s.portsReady t a srcs = false ∨ s.hasRoom t a out = false) :
    Becomes i s t { a with stalled := a.stalled + 1 } := by
  obtain ⟨nul, body, run⟩ := st
  exact .of_setAct (by rw [run, issues.withAct_eq, State.issue_waits g missing, State.portWait]) (.refl s)
theorem Staged.mismatch (g : Guarded a h) (ports : s.portsReady t a srcs = true) (room : s.hasRoom t a out = true)
    (tok : (firstPort srcs).bind (s.specTok t a) = some k) (bad : Mismatches h.pm k) :
    Retires i s t (a.consumeAll srcs) 0 := by
  obtain ⟨nul, body, run⟩ := st
  exact .of_retire (by rw [run, issues.withAct_eq, State.issue_mismatch g ports room tok bad])
end

/-! Which instructions run the stages, and on which operands -/

theorem scalarRs_staged : ∀ mk ∈ scalarRs, ∀ w, Staged (mk w) w.head [w.a, w.b, w.c] w.d.outPort := by
  intro mk hm w
  fin_cases hm
  all_goals
    exact ⟨_, _, fun s => by
      simp only [exec, execAdd, execSub, execMul, execMulh, execMulhu, execDiv, execDivu, execRem, execRemu, execAnd, execOr, execXor,
        execAndn, execShl, execShr, execSra, execRotl, execClz, execCtz, execPopc, execBswap, execBext, execBins, execMin, execMax,
        execMinu, execMaxu, execCmp, execSel, execChash, execFadd, execFsub, execFmul, execFfma, execFdiv, execFsqrt, execFmin, execFmax,
        execFcmp, execFcvt, execFrsqe, execFrcpe, execMatom, execMcas, intR, fpR, State.scalarR, State.devAtomic]
      rfl⟩
theorem vectorRs_staged : ∀ mk ∈ vectorRs, ∀ w, Staged (mk w) w.head [] none := by
  intro mk hm w
  fin_cases hm
  all_goals
    exact ⟨_, _, fun s => by
      simp only [exec, execVadd, execVsub, execVmul, execVfma, execVmin, execVmax, execVabsmax, execVscan, execViadd, execVisub, execVimul,
        execVand, execVor, execVxor, execVshl, execVshr, execVsra, execVpopc, execVcmp, execVicmp, execVsel, execVperm, execVcvt,
        execVcvts, execVpack, execVunpk, execVrsqe, execVrcpe, execVcmul, execVcmac, execVconj, execVbfly, vfpR, vintR, vcvt, State.vecR]
      rfl⟩
theorem immediateIs_staged : ∀ mk ∈ immediateIs, ∀ w, Staged (mk w) w.head [w.a] w.d.outPort := by
  intro mk hm w
  fin_cases hm
  all_goals
    exact ⟨_, _, fun s => by
      simp only [exec, execAddi, execMuli, execAndi, execOri, execXori, execShli, execShri, execSrai, execCmpi, execLimm, State.scalarI]
      rfl⟩
theorem addressMs_staged : ∀ mk ∈ addressMs, ∀ w, Staged (mk w) w.head [w.a, w.b] w.d.outPort := by
  intro mk hm w
  fin_cases hm
  all_goals
    exact ⟨_, _, fun s => by
      simp only [exec, execLea, execLd, execSt, execLdv, execStv, execLdw, execLdc, execStf, execStx, execTage, execTagq, execMld, execMst,
        execMldw, execMldc, execMstf, execMstx, execMtage, execMtagq, execTld, execTst, State.devLoad, State.devStore, State.devOp,
        State.localOp]
      rfl⟩
theorem commandEs_staged : ∀ mk ∈ commandEs, ∀ w, Staged (mk w) w.head [w.a, w.b] w.d.outPort := by
  intro mk hm w
  fin_cases hm
  all_goals
    exact ⟨_, _, fun s => by
      simp only [exec, execScopy, execSgath, execSscat, execSred, execScomp, execSexp, execAgstart, execAgstop, execAgqry, execDarm,
        execDpost, execWcvt, execMma, execMldb, execMscale, execMaclr, execMsto, execMrda, execMswap, execMqry, execMslot, execMfence,
        State.engineToken]
      rfl⟩
/-- The format-R instructions outside the two lists, each with operands of its own. -/
def otherRs : List (RForm → Instr) :=
  [.vred, .vdot, .vsplat, .vextr, .vins, .endAct, .yield, .abort, .halt, .ret, .arm, .mask, .mfs, .mts, .recv, .peek, .tagr, .drop]
theorem otherRs_staged : ∀ mk ∈ otherRs, ∀ w, ∃ srcs out, Staged (mk w) w.head srcs out := by
  intro mk hm w
  fin_cases hm
  all_goals
    exact ⟨_, _, _, _, fun s => by
      simp only [exec, execVred, execVdot, execVsplat, execVextr, execVins, execEnd, execYield, execAbort, execHalt, execRet, execArm,
        execMask, execMfs, execMts, execRecv, execPeek, execTagr, execDrop]
      rfl⟩
theorem branches_staged : ∀ mk ∈ [Instr.br, .brc, .call, .loop], ∀ w : BForm, ∃ srcs out, Staged (mk w) w.head srcs out := by
  intro mk hm w
  fin_cases hm
  all_goals
    exact ⟨_, _, _, _, fun s => by
      simp only [exec, execBr, execBrc, execCall, execLoop]
      rfl⟩
theorem trap_staged (w : IForm) : Staged (.trap w) w.head [] none := ⟨_, _, fun s => by rw [exec_trap, execTrap]⟩
theorem fence_staged (w : MForm) : Staged (.fence w) w.head [] none := ⟨_, _, fun s => by simp only [exec, execFence]; rfl⟩

theorem guardFalse : GuardFalse := by
  intro s t a issues
  refine ⟨fun mk hm w g => ?_, fun mk hm w g => ?_, fun mk hm w g => ?_, fun mk hm w g => ?_, fun mk hm w g => ?_⟩
  · rcases List.mem_append.1 hm with hm | other
    · rcases List.mem_append.1 hm with scalar | vector
      · exact (scalarRs_staged mk scalar w).unguarded issues g
      · exact (vectorRs_staged mk vector w).unguarded issues g
    · obtain ⟨srcs, out, st⟩ := otherRs_staged mk other w
      exact st.unguarded issues g
  · rcases List.mem_append.1 hm with immediate | trap
    · exact (immediateIs_staged mk immediate w).unguarded issues g
    · obtain rfl := List.mem_singleton.1 trap
      exact (trap_staged w).unguarded issues g
  · rcases List.mem_append.1 hm with address | fence
    · exact (addressMs_staged mk address w).unguarded issues g
    · obtain rfl := List.mem_singleton.1 fence
      exact (fence_staged w).unguarded issues g
  · obtain ⟨srcs, out, st⟩ := branches_staged mk hm w
    exact st.unguarded issues g
  · exact (commandEs_staged mk hm w).unguarded issues g

theorem portWait : PortWait := fun _ _ _ issues =>
  ⟨fun mk hm w => (scalarRs_staged mk hm w).waits issues, fun mk hm w => (immediateIs_staged mk hm w).waits issues,
    fun mk hm w => (addressMs_staged mk hm w).waits issues, fun mk hm w => (commandEs_staged mk hm w).waits issues⟩

theorem predicateMismatch : PredicateMismatch := fun _ _ _ _ issues =>
  ⟨fun mk hm w => (scalarRs_staged mk hm w).mismatch issues, fun mk hm w => (commandEs_staged mk hm w).mismatch issues⟩

/-- Settles O7: every instruction of the lists runs the same stages, and each stage ends the issue in its own way. -/
theorem issueStages : Obligations.IssueStages := ⟨guardFalse, portWait, predicateMismatch⟩

/-! Where a branch goes (R44, R114 to R117) -/

theorem exec_br (w : BForm) (s : State) : exec (.br w) s = execBr w s := rfl
theorem exec_brc (w : BForm) (s : State) : exec (.brc w) s = execBrc w s := rfl
theorem exec_call (w : BForm) (s : State) : exec (.call w) s = execCall w s := rfl
theorem exec_loop (w : BForm) (s : State) : exec (.loop w) s = execLoop w s := rfl
theorem exec_ret (w : RForm) (s : State) : exec (.ret w) s = execRet w s := rfl

/-- An instruction that finishes with a jump goes to its index. -/
theorem jumpsTo_of_finishJump {i : Instr} {s : State} {t : Tile} {a r : Act} {d : Spec} {pc : Word}
    (h : exec i s = .next (s.finishJump t a d (.ok (r.jump pc)))) : JumpsTo i s t r pc :=
  .of_setAct h (s.dbgRegWrite_debug t r.facet d)

theorem Act.consume_pc (a : Act) (sp : Spec) : (a.consume sp).pc = a.pc := by cases sp <;> rfl
theorem State.rdScalar_pc {s : State} {t : Tile} {a a' : Act} {sp : Spec} {x : Word} (h : s.rdScalar t a sp = .ok (x, a')) : a'.pc = a.pc :=
  (congrArg Act.pc (State.rdScalar_taken h) :)

section
variable {s : State} {t : Tile} {a : Act}
/-- BRC on two values (R44, R115). -/
theorem State.brCond_values {w : BForm} {a1 a2 : Act} {x y : Word} (hx : s.rdScalar t a w.a = .ok (x, a1))
    (hy : s.rdScalar t a1 w.b = .ok (y, a2)) (hc : w.cond ∈ [Cond.eq, .ne, .lt, .ge, .ltu, .geu]) :
    s.brCond t a w = .ok (condHolds w.cond x y, a2) := by
  simp only [List.mem_cons, List.not_mem_nil, or_false] at hc
  rcases hc with h | h | h | h | h | h <;> simp [State.brCond, h, hx, hy]
/-- BRC on a predicate (R115). -/
theorem State.brCond_pred {w : BForm} {n : BitVec 3} (ha : w.a = .p n) :
    (w.cond = .ps → s.brCond t a w = .ok ((a.bank.rp n).scalar, a)) ∧ (w.cond = .pc → s.brCond t a w = .ok (!(a.bank.rp n).scalar, a)) := by
  have other : (Cond.pc == Cond.ps) = false := rfl
  constructor <;> intro h <;> simp [State.brCond, h, ha, other]
/-- BRC on the tag of a token (R115). -/
theorem State.brCond_tag {w : BForm} {k : Token} (hk : s.specTok t a w.a = some k) :
    (w.cond = .er → s.brCond t a w = .ok (k.kind == kEor, a.consume w.a)) ∧
    (w.cond = .nl → s.brCond t a w = .ok (k.kind == kNull, a.consume w.a)) ∧
    (w.cond = .tp → s.brCond t a w = .ok (k.pred, a.consume w.a)) := by
  refine ⟨fun h => ?_, fun h => ?_, fun h => ?_⟩ <;> simp [State.brCond, h, hk]

variable (issues : Issues s t a)
include issues
theorem br_jumps {w : BForm} (passes : Passes s t a w.head [] none) : JumpsTo (.br w) s t a (w.tgt.setWidth 64) :=
  jumpsTo_of_finishJump (by rw [exec_br, execBr, issues.withAct_eq, passes.issue_eq])
theorem call_jumps {w : BForm} (passes : Passes s t a w.head [] none) {n : BitVec 6} (hd : w.d = .g n) :
    JumpsTo (.call w) s t (a.wg n (a.pc + 1)) (w.tgt.setWidth 64) :=
  jumpsTo_of_finishJump (d := w.d) (a := a) (by rw [exec_call, execCall, issues.withAct_eq, passes.issue_eq, hd])
theorem loop_jumps {w : BForm} (passes : Passes s t a w.head [] none) {n : BitVec 6} (hd : w.d = .g n) :
    (1 < (a.bank.rg n).toNat → JumpsTo (.loop w) s t (a.wg n (a.bank.rg n - 1)) (w.tgt.setWidth 64)) ∧
    ((a.bank.rg n).toNat ≤ 1 → JumpsTo (.loop w) s t (a.wg n 0) (a.pc + 1)) := by
  refine ⟨fun h => jumpsTo_of_finishJump (d := w.d) (a := a) ?_, fun h => jumpsTo_of_finishJump (d := w.d) (a := a) ?_⟩
  · simp only [exec_loop, execLoop, issues.withAct_eq, passes.issue_eq, hd, if_pos h]
  · simp only [exec_loop, execLoop, issues.withAct_eq, passes.issue_eq, hd, if_neg (Nat.not_lt.2 h)]
    rfl
/-- BRC goes to its target where its condition holds, and to the next index where it does not. -/
theorem brc_jumps {w : BForm} (passes : Passes s t a w.head [w.a, w.b] none) {b : Bool} {r : Act} (hc : s.brCond t a w = .ok (b, r))
    (pc : r.pc = a.pc) : JumpsTo (.brc w) s t r (if b then w.tgt.setWidth 64 else a.pc + 1) := by
  refine jumpsTo_of_finishJump (d := w.d) (a := a) ?_
  simp only [exec_brc, execBrc, issues.withAct_eq, passes.issue_eq, hc, ← pc]
  cases b <;> rfl
theorem ret_jumps {w : RForm} (passes : Passes s t a w.head [w.a] none) {x : Word} {a1 : Act} (hx : s.rdScalar t a w.a = .ok (x, a1)) :
    JumpsTo (.ret w) s t a1 x :=
  jumpsTo_of_finishJump (d := w.d) (a := a) (by simp only [exec_ret, execRet, issues.withAct_eq, passes.issue_eq, hx])
end

/-- Settles O26: each branch finishes with a jump, and BRC evaluates the condition of its code on values, a predicate or a tag. -/
theorem branchResults : Obligations.BranchResults := by
  intro w v s t a a1 a2 x y issues target
  refine ⟨fun passes => ⟨br_jumps issues passes, fun n hd => ⟨call_jumps issues passes hd, loop_jumps issues passes hd⟩⟩,
    fun passes => ⟨fun hx hy => ?_, fun n ha => ?_, fun k hk => ?_⟩, fun passes read => ret_jumps issues passes read⟩
  · have pc : a2.pc = a.pc := (State.rdScalar_pc hy).trans (State.rdScalar_pc hx)
    have compared {c : Cond} (hc : c ∈ [Cond.eq, .ne, .lt, .ge, .ltu, .geu]) (h : w.cond = c) :
        JumpsTo (.brc w) s t a2 (if condHolds c x y then target else a.pc + 1) := by
      subst h
      exact brc_jumps issues passes (State.brCond_values hx hy hc) pc
    exact ⟨compared (by decide), compared (by decide), compared (by decide), compared (by decide), compared (by decide),
      compared (by decide)⟩
  · obtain ⟨set, clear⟩ := State.brCond_pred (s := s) (t := t) (a := a) ha
    refine ⟨fun h => brc_jumps issues passes (set h) rfl, fun h => ?_⟩
    have jump := brc_jumps issues passes (clear h) rfl
    cases hp : (a.bank.rp n).scalar <;> simpa [hp] using jump
  · obtain ⟨eor, null, pred⟩ := State.brCond_tag hk
    have pc := a.consume_pc w.a
    have kinds {c : Nat} (h : s.brCond t a w = .ok (k.kind == c, a.consume w.a)) :
        JumpsTo (.brc w) s t (a.consume w.a) (if k.kind = c then target else a.pc + 1) := by
      simpa using brc_jumps issues passes h pc
    exact ⟨fun h => kinds (eor h), fun h => kinds (null h), fun h => brc_jumps issues passes (pred h) pc⟩

end Sys2Proof.Machine
end

section
/-! SUPPORT. The rounding of a magnitude to a multiple of a power of two (R80, step 1): the equation of each case of roundAt, and why the
midpoint rule of rn gives the nearest multiple. -/

namespace Sys2Proof

/-! The cases of roundAt below the unit: exact, and inexact in each mode -/
section
variable {m : Nat} {e q : Int} (below : e < q) (neg : Bool)
include below

theorem roundAt_of_dvd (exact : m % 2 ^ (q - e).toNat = 0) (mode : Nat) :
    roundAt mode neg m e q = (m / 2 ^ (q - e).toNat, false) := by
  simp only [roundAt, if_neg (Int.not_le.2 below), if_pos exact]

/-- The inexact flag is that of the remainder, in every mode. -/
theorem roundAt_inexact (mode : Nat) : (roundAt mode neg m e q).2 = decide (m % 2 ^ (q - e).toNat ≠ 0) := by
  by_cases exact : m % 2 ^ (q - e).toNat = 0
  · simp [roundAt_of_dvd below neg exact, exact]
  · simp [roundAt, Int.not_le.2 below, exact]

variable (inexact : m % 2 ^ (q - e).toNat ≠ 0)
include inexact

theorem roundAt_rz : (roundAt 1 neg m e q).1 = m / 2 ^ (q - e).toNat := by
  simp [roundAt, Int.not_le.2 below, inexact]

theorem roundAt_ru : (roundAt 2 neg m e q).1 = m / 2 ^ (q - e).toNat + (if neg then 0 else 1) := by
  cases neg <;> simp [roundAt, Int.not_le.2 below, inexact]

theorem roundAt_rd : (roundAt 3 neg m e q).1 = m / 2 ^ (q - e).toNat + (if neg then 1 else 0) := by
  cases neg <;> simp [roundAt, Int.not_le.2 below, inexact]

/-- rn goes up past the midpoint, and at the midpoint from an odd quotient. -/
theorem roundAt_rn : (roundAt 0 neg m e q).1 =
    let u := 2 ^ (q - e).toNat
    if u < 2 * (m % u) ∨ (2 * (m % u) = u ∧ m / u % 2 = 1) then m / u + 1 else m / u := by
  simp [roundAt, Int.not_le.2 below, inexact]
end

/-- The multiple of u that rn picks is within half a unit of m, and it is even where two multiples are equally near. -/
theorem nearest_of_midpoint_rule {m u r : Nat} (pos : 0 < u)
    (rule : r = if u < 2 * (m % u) ∨ (2 * (m % u) = u ∧ m / u % 2 = 1) then m / u + 1 else m / u) :
    2 * r * u ≤ 2 * m + u ∧ 2 * m ≤ 2 * r * u + u ∧ ((2 * r * u = 2 * m + u ∨ 2 * m = 2 * r * u + u) → r % 2 = 0) := by
  have parts : m / u * u + m % u = m := Nat.div_add_mod' m u
  have small : m % u < u := Nat.mod_lt m pos
  split at rule
  next up =>
    have twice : 2 * r * u = 2 * (m / u * u) + 2 * u := by rw [rule]; ring
    omega
  next down =>
    have twice : 2 * r * u = 2 * (m / u * u) := by rw [rule]; ring
    omega

/-- Settles O16: the flag and the directed modes are read off roundAt, and rn keeps the midpoint rule. -/
theorem roundingIsCorrect : Obligations.RoundingIsCorrect := by
  intro m e q neg below u
  refine ⟨roundAt_inexact below neg, fun mode exact => ?_, fun inexact => ?_⟩
  · rw [roundAt_of_dvd below neg exact]
    exact Nat.div_mul_cancel (Nat.dvd_of_mod_eq_zero exact)
  · exact ⟨roundAt_rz below neg inexact, roundAt_ru below neg inexact, roundAt_rd below neg inexact,
      nearest_of_midpoint_rule (Nat.two_pow_pos _) (roundAt_rn below neg inexact)⟩

end Sys2Proof
end

section
/-! SUPPORT. The shapes of the scalar instructions (R51, R57, R97, R102): a result that finds room in its destination is delivered, and the
instruction retires with it. -/

namespace Sys2Proof.Machine

/-! Deliveries that find room (R29, R50, R102) -/

/-- A value reaches every destination but a port whose commit buffer is full. -/
theorem Act.deliver_room {a : Act} {d : Spec} (room : CanSend a d) (v : Word) : ∃ r, a.deliver d v = .ok r := by
  cases d
  case outp p =>
    obtain ⟨port, all⟩ := room p rfl
    obtain ⟨-, -, -, head, tail, -⟩ := mkTok_tag a.facet kData false false false false v.toNat
    exact ⟨_, Act.send_plain [] port all head tail⟩
  all_goals exact ⟨_, rfl⟩

/-- A truth value too, in the form that R102 gives to the class of the destination. -/
theorem Act.deliverTruth_room {a : Act} {d : Spec} (room : CanSend a d) (b : Bool) :
    ∃ r, a.deliverTruth d b = .ok r ∧ TruthReaches a r d b := by
  cases d
  case outp p =>
    obtain ⟨port, all⟩ := room p rfl
    obtain ⟨facet, kind, pred, head, tail, -⟩ := mkTok_tag a.facet kData b false false false b.toNat
    exact ⟨_, Act.send_plain [] port all head tail, _, rfl, rfl, by cases b <;> rfl, pred, kind, facet, rfl⟩
  all_goals exact ⟨_, rfl, rfl⟩

theorem Act.raise_none (a : Act) : a.raise 0 = a := by simp [Act.raise]

/-! The shapes -/

/-- How a scalar instruction reads a source: in a floating-point format, or as it is (R108). -/
def State.rdSource (s : State) (t : Tile) : Option Nat → Act → Spec → Except TrapInfo (Word × Act)
  | some c => fun a sp => s.rdFp t a c sp
  | none => s.rdScalar t

/-- Past the stages of issue, a scalar instruction reads its sources and finishes with the delivery of its result. -/
theorem State.scalarR_finish {s : State} {t : Tile} {a a' : Act} {w : RForm} {x y z : Word} {fp : Option Nat} (issues : Issues s t a)
    (passes : Passes s t a w.head [w.a, w.b, w.c] w.d.outPort) (read : rd3 a (s.rdSource t fp) w.a w.b w.c = .ok (x, y, z, a'))
    (k : Deliver) (busy : Nat) (f : Act → Word → Word → Word → Word × Flags) :
    s.scalarR w fp k busy f =
      .next (s.finish t a w.d busy ((a'.raise (f a x y z).2).deliverAs k w.d (f a x y z).1)) := by
  cases fp <;> simp only [State.rdSource] at read <;> simp only [State.scalarR, issues.withAct_eq, passes.issue_eq, read]

section
variable {i : Instr} {s : State} {t : Tile} {a a' : Act} {w : RForm} {x y z : Word} {fp : Option Nat} {busy : Nat}
  {f : Act → Word → Word → Word → Word × Flags} (issues : Issues s t a) (passes : Passes s t a w.head [w.a, w.b, w.c] w.d.outPort)
  (read : rd3 a (s.rdSource t fp) w.a w.b w.c = .ok (x, y, z, a')) (room : CanSend a' w.d)
include issues passes read room
theorem scalarR_value (run : exec i s = s.scalarR w fp .value busy f) :
    ∃ r, (a'.raise (f a x y z).2).deliver w.d (f a x y z).1 = .ok r ∧ Retires i s t r busy := by
  obtain ⟨r, given⟩ := Act.deliver_room (a := a'.raise (f a x y z).2) room (f a x y z).1
  exact ⟨r, given, retires_of_finish (by rw [run, State.scalarR_finish issues passes read, Act.deliverAs, given])⟩
theorem scalarR_truth (run : exec i s = s.scalarR w fp .truth busy f) :
    ∃ r, Retires i s t r busy ∧ TruthReaches (a'.raise (f a x y z).2) r w.d ((f a x y z).1 != 0) := by
  obtain ⟨r, given, reaches⟩ := Act.deliverTruth_room (a := a'.raise (f a x y z).2) room ((f a x y z).1 != 0)
  exact ⟨r, retires_of_finish (by rw [run, State.scalarR_finish issues passes read, Act.deliverAs, given]), reaches⟩
end

section
variable {i : Instr} {s : State} {t : Tile} {a a' : Act} {w : IForm} {x : Word} {f : Word → BitVec 34 → Word} (issues : Issues s t a)
  (passes : Passes s t a w.head [w.a] w.d.outPort) (read : s.rdScalar t a w.a = .ok (x, a')) (room : CanSend a' w.d)
include issues passes read
theorem State.scalarI_finish (k : Deliver) : s.scalarI w k f = .next (s.finish t a w.d 0 (a'.deliverAs k w.d (f x w.imm))) := by
  simp only [State.scalarI, issues.withAct_eq, passes.issue_eq, read]
include room
theorem scalarI_value (run : exec i s = s.scalarI w .value f) :
    ∃ r, a'.deliver w.d (f x w.imm) = .ok r ∧ Retires i s t r 0 := by
  obtain ⟨r, given⟩ := Act.deliver_room room (f x w.imm)
  exact ⟨r, given, retires_of_finish (by rw [run, State.scalarI_finish issues passes read, Act.deliverAs, given])⟩
theorem scalarI_truth (run : exec i s = s.scalarI w .truth f) :
    ∃ r, Retires i s t r 0 ∧ TruthReaches a' r w.d (f x w.imm != 0) := by
  obtain ⟨r, given, reaches⟩ := Act.deliverTruth_room room (f x w.imm != 0)
  exact ⟨r, retires_of_finish (by rw [run, State.scalarI_finish issues passes read, Act.deliverAs, given]), reaches⟩
end

end Sys2Proof.Machine
end

section
/-! SUPPORT. Numbers modulo a power of two as words (R4, R98): the model computes integer results on numbers, and each of its functions is an
operation of bit vectors, at every width. -/

namespace Sys2Proof

/-! Signed values, wrapping and extension (R98) -/

theorem ofNat_toNat_self {n : Nat} (x : BitVec n) : BitVec.ofNat n x.toNat = x := by rw [BitVec.ofNat_toNat, BitVec.setWidth_eq]
/-- The signed value of the low bits is that of the word they spell. -/
theorem signedOf_eq_toInt (n u : Nat) : signedOf n u = (BitVec.ofNat n u).toInt := by
  cases n with
  | zero => simp [signedOf, BitVec.toInt, Nat.mod_one]
  | succ k =>
    have half : u % 2 ^ (k + 1) < 2 ^ k ↔ 2 * (u % 2 ^ (k + 1)) < 2 ^ (k + 1) := by
      rw [pow_succ' 2 k]
      omega
    simp only [signedOf, BitVec.toInt, BitVec.toNat_ofNat, Nat.add_sub_cancel, Nat.succ_ne_zero, if_false, half]
theorem signedOf_toNat {n : Nat} (x : BitVec n) : signedOf n x.toNat = x.toInt := by
  rw [signedOf_eq_toInt, ofNat_toNat_self]
theorem wrapInt_eq_toNat (n : Nat) (i : Int) : wrapInt n i = (BitVec.ofInt n i).toNat := (BitVec.toNat_ofInt i).symm
theorem ofNat_wrapInt (n : Nat) (i : Int) : BitVec.ofNat n (wrapInt n i) = BitVec.ofInt n i := by
  rw [wrapInt_eq_toNat, ofNat_toNat_self]
theorem sfld_low {k n : Nat} (x : BitVec k) : sfld x 0 n = (x.setWidth n).toInt := by
  simp only [← signedOf_toNat, BitVec.toNat_setWidth, sfld, signedOf, fld, pow_zero, Nat.div_one, Nat.mod_mod]

/-! The shape of a loop over the bits or the bytes of a word -/

theorem popNat_eq_length_filter (n x : Nat) : popNat n x = ((List.range n).filter x.testBit).length := by
  have counted (l : List Nat) (c : Nat) :
      l.foldl (fun c i => if x.testBit i then c + 1 else c) c = c + (l.filter x.testBit).length := by
    induction l generalizing c with
    | nil => rfl
    | cons i l ih =>
      rw [List.foldl_cons, ih, List.filter_cons]
      split
      · rw [List.length_cons]; omega
      · rfl
  rw [popNat, counted, Nat.zero_add]
/-- The first index that a predicate picks is the number of those before it. -/
theorem find?_range_getD (p : Nat → Bool) (n : Nat) :
    ((List.range n).find? p).getD n = ((List.range n).takeWhile fun i => !p i).length := by
  have from_ (n k : Nat) : ((List.range' k n).find? p).getD (k + n) = k + ((List.range' k n).takeWhile fun i => !p i).length := by
    induction n generalizing k with
    | zero => rfl
    | succ n ih =>
      cases hk : p k
      · simpa [List.range'_succ, hk, Nat.add_assoc, Nat.add_comm 1] using ih (k + 1)
      · simp [List.range'_succ, hk]
  simpa [List.range_eq_range'] using from_ n 0
theorem bitLen_eq_size (x : Nat) : bitLen x = x.size := by
  unfold bitLen
  split
  next zero => rw [zero, Nat.size_zero]
  next pos => exact le_antisymm (Nat.lt_size.2 (Nat.log2_self_le pos)) (Nat.size_le.2 Nat.lt_log2_self)
theorem bytesOf_eq_map (n x : Nat) : bytesOf n x = (List.range n).map fun i => BitVec.ofNat 8 (x / 2 ^ (8 * i)) := by
  induction n generalizing x with
  | zero => rfl
  | succ n ih =>
    rw [bytesOf, ih, List.range_succ_eq_map, List.map_cons, List.map_map]
    congr 1
    · simp
    · refine List.map_congr_left fun i _ => ?_
      rw [Nat.div_div_eq_div_mul, Function.comp_apply, Nat.mul_succ, Nat.add_comm, pow_add]
      rfl
/-- The bytes of a number read from the last to the first. -/
theorem ofBytes_reverse (l : List Byte) : ofBytes l.reverse = l.foldl (fun v b => 256 * v + b.toNat) 0 := by
  rw [← List.foldr_reverse]
  induction l.reverse with
  | nil => rfl
  | cons b l ih => rw [ofBytes, ih, List.foldr_cons, Nat.add_comm]

end Sys2Proof

namespace Sys2Proof.Machine

/-- A result extended with its sign, and one extended with zeros (R98). -/
theorem extTo_signed (n u : Nat) : extTo true n u = (BitVec.ofNat n u).signExtend 64 := by
  rw [extTo, if_pos rfl, ofNat_wrapInt, signedOf_eq_toInt, BitVec.signExtend]
theorem extTo_unsigned (n u : Nat) : extTo false n u = (BitVec.ofNat n u).setWidth 64 := by
  rw [extTo, if_neg (by decide), ← BitVec.toNat_ofNat, BitVec.ofNat_toNat]

/-! What each function of Machine/Integer.lean is on words of n bits -/
section
variable {n : Nat} (x y : BitVec n)

theorem ofNat_shlN (b : Nat) : BitVec.ofNat n (shlN n x.toNat b) = if n ≤ b then 0 else x <<< b := by
  unfold shlN
  split
  · rfl
  · apply BitVec.eq_of_toNat_eq
    simp [Nat.shiftLeft_eq]
theorem ofNat_shrN (b : Nat) : BitVec.ofNat n (shrN n x.toNat b) = if n ≤ b then 0 else x >>> b := by
  unfold shrN
  split
  · rfl
  · rw [← Nat.shiftRight_eq_div_pow, ← BitVec.toNat_ushiftRight, ofNat_toNat_self]
theorem ofNat_sraN (b : Nat) : BitVec.ofNat n (sraN n x.toNat b) = x.sshiftRight (min b n) := by
  rw [sraN, ofNat_wrapInt, signedOf_toNat, BitVec.sshiftRight_eq, Int.shiftRight_eq_div_pow]
/-- The bits that a rotation brings round fill the place below those that it moves up. -/
theorem toNat_rotateLeft_add (k : Nat) (small : k < n) : (x.rotateLeft k).toNat = x.toNat * 2 ^ k % 2 ^ n + x.toNat / 2 ^ (n - k) := by
  have round : x.toNat / 2 ^ (n - k) < 2 ^ k := by
    rw [Nat.div_lt_iff_lt_mul (by positivity), ← pow_add, Nat.add_sub_cancel' small.le]
    exact x.isLt
  have up : x.toNat * 2 ^ k % 2 ^ n = (x.toNat % 2 ^ (n - k)) <<< k := by
    rw [Nat.shiftLeft_eq, ← Nat.mul_mod_mul_right, ← pow_add, Nat.sub_add_cancel small.le]
  rw [BitVec.toNat_rotateLeft, Nat.mod_eq_of_lt small, Nat.shiftLeft_eq, Nat.shiftRight_eq_div_pow, up, Nat.shiftLeft_add_eq_or_of_lt round]
theorem ofNat_rotlN (pos : 0 < n) (b : Nat) : BitVec.ofNat n (rotlN n x.toNat b) = x.rotateLeft (b % n) := by
  apply BitVec.eq_of_toNat_eq
  rw [BitVec.toNat_ofNat, rotlN, Nat.mod_mod, ← Nat.mod_add_mod, ← toNat_rotateLeft_add x _ (Nat.mod_lt b pos)]
  exact Nat.mod_eq_of_lt (BitVec.isLt _)

theorem toNat_eq_zero_iff : x.toNat = 0 ↔ x = 0 := by simp [← BitVec.toNat_inj]
theorem ofNat_divN : BitVec.ofNat n (divN n x.toNat y.toNat) = if y = 0 then BitVec.allOnes n else x.sdiv y := by
  simp only [divN, toNat_eq_zero_iff]
  split
  · apply BitVec.eq_of_toNat_eq
    simp
  · apply BitVec.eq_of_toInt_eq
    rw [ofNat_wrapInt, signedOf_toNat, signedOf_toNat, BitVec.toInt_ofInt, BitVec.toInt_sdiv]
theorem ofNat_remN : BitVec.ofNat n (remN n x.toNat y.toNat) = if y = 0 then x else x.srem y := by
  simp only [remN, toNat_eq_zero_iff]
  split
  · simp
  · rw [ofNat_wrapInt, signedOf_toNat, signedOf_toNat, ← BitVec.toInt_srem, BitVec.ofInt_toInt]
theorem ofNat_divuN : BitVec.ofNat n (divuN n x.toNat y.toNat) = if y = 0 then BitVec.allOnes n else x / y := by
  simp only [divuN, toNat_eq_zero_iff]
  split
  · apply BitVec.eq_of_toNat_eq
    simp
  · rw [← BitVec.toNat_udiv, ofNat_toNat_self]
theorem ofNat_remuN : BitVec.ofNat n (remuN x.toNat y.toNat) = if y = 0 then x else x % y := by
  simp only [remuN, toNat_eq_zero_iff]
  split
  · simp
  · rw [← BitVec.toNat_umod, ofNat_toNat_self]

theorem intCond_eq_compares {c : Nat} (low : 1 ≤ c) (high : c ≤ 6) : intCond n c x.toNat y.toNat = compares n c x y := by
  have equal : (x.toNat == y.toNat) = (x == y) := by simp [← BitVec.toNat_inj]
  obtain rfl | rfl | rfl | rfl | rfl | rfl : c = 1 ∨ c = 2 ∨ c = 3 ∨ c = 4 ∨ c = 5 ∨ c = 6 := by omega
  · exact equal
  · exact congrArg (!·) equal
  · simp only [intCond, compares, signedOf_toNat, BitVec.slt]
  · simp only [intCond, compares, signedOf_toNat, BitVec.sle, ge_iff_le]
  · rfl
  · rfl
end

end Sys2Proof.Machine
end

section
/-! SUPPORT. The integer instructions (R97 to R105): what an instruction of that shape delivers, and the result of each row of the table. -/

namespace Sys2Proof.Machine

/-! The meanings -/

theorem exec_add (w : RForm) (s : State) : exec (.add w) s = execAdd w s := rfl
theorem exec_sub (w : RForm) (s : State) : exec (.sub w) s = execSub w s := rfl
theorem exec_mul (w : RForm) (s : State) : exec (.mul w) s = execMul w s := rfl
theorem exec_mulh (w : RForm) (s : State) : exec (.mulh w) s = execMulh w s := rfl
theorem exec_mulhu (w : RForm) (s : State) : exec (.mulhu w) s = execMulhu w s := rfl
theorem exec_and (w : RForm) (s : State) : exec (.and w) s = execAnd w s := rfl
theorem exec_or (w : RForm) (s : State) : exec (.or w) s = execOr w s := rfl
theorem exec_xor (w : RForm) (s : State) : exec (.xor w) s = execXor w s := rfl
theorem exec_andn (w : RForm) (s : State) : exec (.andn w) s = execAndn w s := rfl
theorem exec_min (w : RForm) (s : State) : exec (.min w) s = execMin w s := rfl
theorem exec_max (w : RForm) (s : State) : exec (.max w) s = execMax w s := rfl
theorem exec_minu (w : RForm) (s : State) : exec (.minu w) s = execMinu w s := rfl
theorem exec_maxu (w : RForm) (s : State) : exec (.maxu w) s = execMaxu w s := rfl
theorem exec_shl (w : RForm) (s : State) : exec (.shl w) s = execShl w s := rfl
theorem exec_shr (w : RForm) (s : State) : exec (.shr w) s = execShr w s := rfl
theorem exec_sra (w : RForm) (s : State) : exec (.sra w) s = execSra w s := rfl
theorem exec_rotl (w : RForm) (s : State) : exec (.rotl w) s = execRotl w s := rfl
theorem exec_div (w : RForm) (s : State) : exec (.div w) s = execDiv w s := rfl
theorem exec_rem (w : RForm) (s : State) : exec (.rem w) s = execRem w s := rfl
theorem exec_divu (w : RForm) (s : State) : exec (.divu w) s = execDivu w s := rfl
theorem exec_remu (w : RForm) (s : State) : exec (.remu w) s = execRemu w s := rfl
theorem exec_clz (w : RForm) (s : State) : exec (.clz w) s = execClz w s := rfl
theorem exec_ctz (w : RForm) (s : State) : exec (.ctz w) s = execCtz w s := rfl
theorem exec_popc (w : RForm) (s : State) : exec (.popc w) s = execPopc w s := rfl
theorem exec_bswap (w : RForm) (s : State) : exec (.bswap w) s = execBswap w s := rfl
theorem exec_bext (w : RForm) (s : State) : exec (.bext w) s = execBext w s := rfl
theorem exec_bins (w : RForm) (s : State) : exec (.bins w) s = execBins w s := rfl
theorem exec_chash (w : RForm) (s : State) : exec (.chash w) s = execChash w s := rfl

/-! The shape -/

theorem eszScalar_le (e : Esz) : eszScalar e ≤ 64 := by cases e <;> decide
theorem eszScalar_pos (e : Esz) : 0 < eszScalar e := by cases e <;> decide
theorem eszScalar_wide {e : Esz} (h : e ≠ .e32) : eszScalar e = 64 := by
  cases e
  case e32 => exact absurd rfl h
  all_goals rfl

/-- What an integer function of the model gives of two sources: their low n bits, and the whole of b (R98). -/
def onLow (n : Nat) (f : Nat → Nat → Nat → Nat → Nat) (x y : Word) : Nat := f n (x.setWidth n).toNat (y.setWidth n).toNat y.toNat

/-- An integer instruction delivers what its function gives, extended (R98). -/
theorem intR_delivers {i : Instr} {w : RForm} {s : State} {t : Tile} {a a' : Act} {x y z : Word} {signed : Bool} {busy : Nat}
    {f : Nat → Nat → Nat → Nat → Nat} (run : exec i s = intR w s signed busy f) (issues : Issues s t a)
    (passes : Passes s t a w.head [w.a, w.b, w.c] w.d.outPort) (read : rd3 a (s.rdScalar t) w.a w.b w.c = .ok (x, y, z, a'))
    (room : CanSend a' w.d) :
    ∃ r, a'.deliver w.d (extTo signed (eszScalar w.esz) (onLow (eszScalar w.esz) f x y)) = .ok r ∧ Retires i s t r busy := by
  obtain ⟨r, given, retires⟩ := scalarR_value issues passes (fp := none) read room run
  refine ⟨r, ?_, retires⟩
  rw [onLow, BitVec.toNat_setWidth, BitVec.toNat_setWidth]
  rwa [Act.raise_none] at given

section
variable {mk : RForm → Instr} {busy : RForm → Nat} {f : Nat → Nat → Nat → Nat → Nat}
theorem intR_gives {signed : Bool} {v : RForm → Word → Word → Word} (run : ∀ w s, exec (mk w) s = intR w s signed (busy w) f)
    (value : ∀ w x y, extTo signed (eszScalar w.esz) (onLow (eszScalar w.esz) f x y) = v w x y) : ScalarGives mk busy v := by
  intro w s t a a' x y z issues passes read room
  rw [← value w x y]
  exact intR_delivers (run w s) issues passes read room
variable {v : (w : RForm) → Word → Word → BitVec (eszScalar w.esz)}
/-- A row whose Ext column says signed. -/
theorem intR_signed (run : ∀ w s, exec (mk w) s = intR w s true (busy w) f)
    (value : ∀ w x y, BitVec.ofNat (eszScalar w.esz) (onLow (eszScalar w.esz) f x y) = v w x y) :
    ScalarGives mk busy fun w x y => (v w x y).signExtend 64 :=
  intR_gives run fun w x y => by rw [extTo_signed, value]
/-- A row whose Ext column says unsigned. -/
theorem intR_unsigned (run : ∀ w s, exec (mk w) s = intR w s false (busy w) f)
    (value : ∀ w x y, BitVec.ofNat (eszScalar w.esz) (onLow (eszScalar w.esz) f x y) = v w x y) :
    ScalarGives mk busy fun w x y => (v w x y).setWidth 64 :=
  intR_gives run fun w x y => by rw [extTo_unsigned, value]
end

/-- The difference of two words, computed without going below 0. -/
theorem ofNat_add_pow_sub {n : Nat} (x y : BitVec n) : BitVec.ofNat n (x.toNat + 2 ^ n - y.toNat) = x - y := by
  rw [BitVec.sub_def, Nat.add_comm, Nat.sub_add_comm y.isLt.le]
theorem toNat_and_not {n : Nat} (x y : BitVec n) : x.toNat &&& (2 ^ n - 1 - y.toNat) = (x &&& ~~~y).toNat := by
  rw [BitVec.toNat_and, BitVec.toNat_not]

/-- Settles O9: the function of each row on the low bits is the row's operation at the width of esz. -/
theorem integerArithmetic : Obligations.IntegerArithmetic := by
  have low (w : RForm) : eszScalar w.esz ≤ 64 := eszScalar_le w.esz
  dsimp only [Obligations.IntegerArithmetic]
  refine ⟨intR_signed exec_add fun w x y => ?add, intR_signed exec_sub fun w x y => ?sub, intR_signed exec_mul fun w x y => ?mul,
    intR_signed exec_mulh fun w x y => ?mulh, intR_gives exec_mulhu fun w x y => ?mulhu, intR_signed exec_and fun w x y => ?and,
    intR_signed exec_or fun w x y => ?or, intR_signed exec_xor fun w x y => ?xor, intR_signed exec_andn fun w x y => ?andn,
    intR_gives exec_min fun w x y => ?min, intR_gives exec_max fun w x y => ?max, intR_gives exec_minu fun w x y => ?minu,
    intR_gives exec_maxu fun w x y => ?maxu⟩
  case add => rw [onLow, BitVec.ofNat_add, ofNat_toNat_self, ofNat_toNat_self, BitVec.setWidth_add _ _ (low w)]
  case sub =>
    rw [onLow, ofNat_add_pow_sub, BitVec.sub_eq_add_neg, BitVec.sub_eq_add_neg, BitVec.setWidth_add _ _ (low w),
      BitVec.setWidth_neg_of_le (low w)]
  case mul => rw [onLow, BitVec.ofNat_mul, ofNat_toNat_self, ofNat_toNat_self, BitVec.setWidth_mul _ _ (low w)]
  case mulh =>
    rw [onLow, ofNat_wrapInt, signedOf_toNat, signedOf_toNat, Nat.cast_pow]
    rfl
  case mulhu =>
    have small := Nat.div_lt_of_lt_mul (Nat.mul_lt_mul'' (x.setWidth (eszScalar w.esz)).isLt (y.setWidth (eszScalar w.esz)).isLt)
    rw [onLow, extTo, if_neg (by decide), Nat.mod_eq_of_lt small]
  case and => rw [onLow, ← BitVec.toNat_and, ofNat_toNat_self, BitVec.setWidth_and]
  case or => rw [onLow, ← BitVec.toNat_or, ofNat_toNat_self, BitVec.setWidth_or]
  case xor => rw [onLow, ← BitVec.toNat_xor, ofNat_toNat_self, BitVec.setWidth_xor]
  case andn => rw [onLow, toNat_and_not, ofNat_toNat_self, BitVec.setWidth_and, BitVec.setWidth_not (low w)]
  case min | max =>
    simp only [onLow, extTo_signed, signedOf_toNat, BitVec.sle_eq_decide, decide_eq_true_eq, ge_iff_le]
    split <;> rw [ofNat_toNat_self, sx]
  case minu =>
    simp only [onLow, extTo_unsigned, Nat.min_def, ← BitVec.le_def]
    split <;> rw [ofNat_toNat_self, zx]
  case maxu =>
    rw [onLow, extTo_unsigned, max_comm, Nat.max_def]
    simp only [← BitVec.le_def]
    split <;> rw [ofNat_toNat_self, zx]

/-- Settles O10: the shift functions on the low bits are the shifts and the rotation of words, for every amount. -/
theorem shiftResults : Obligations.ShiftResults :=
  ⟨intR_signed exec_shl fun _ _ y => ofNat_shlN _ y.toNat, intR_unsigned exec_shr fun _ _ y => ofNat_shrN _ y.toNat,
    intR_signed exec_sra fun _ _ y => ofNat_sraN _ y.toNat, intR_signed exec_rotl fun w _ y => ofNat_rotlN _ (eszScalar_pos w.esz) y.toNat⟩

theorem signExtend_allOnes (e : Esz) : (BitVec.allOnes (eszScalar e)).signExtend 64 = BitVec.allOnes 64 := by cases e <;> decide
theorem setWidth_allOnes (e : Esz) : (BitVec.allOnes 64).setWidth (eszScalar e) = BitVec.allOnes (eszScalar e) := by cases e <;> decide
/-- Settles O11: division and remainder of the low bits, with the corner of a divisor 0 kept apart. -/
theorem divisionResults : Obligations.DivisionResults := by
  dsimp only [Obligations.DivisionResults]
  refine ⟨intR_gives exec_div fun w x y => ?div, intR_gives exec_rem fun w x y => ?rem, intR_gives exec_divu fun w x y => ?divu,
    intR_gives exec_remu fun w x y => ?remu⟩
  case div => rw [onLow, extTo_signed, ofNat_divN, apply_ite (BitVec.signExtend 64), signExtend_allOnes]
  case rem => rw [onLow, extTo_signed, ofNat_remN, apply_ite (BitVec.signExtend 64), sx]
  case divu =>
    rw [onLow, extTo_unsigned, ofNat_divuN, apply_ite (BitVec.setWidth 64), zx, setWidth_allOnes]
  case remu => rw [onLow, extTo_unsigned, ofNat_remuN, apply_ite (BitVec.setWidth 64), zx]

/-! Bits and bytes (R101, R105) -/

/-- A number of bits or bytes of a word is its own zero extension. -/
theorem extTo_count (e : Esz) {k : Nat} (h : k ≤ eszScalar e) : extTo false (eszScalar e) k = BitVec.ofNat 64 k := by
  have small : k < 2 ^ eszScalar e := lt_of_le_of_lt h Nat.lt_two_pow_self
  rw [extTo, if_neg (by decide), Nat.mod_eq_of_lt small]
theorem clzN_toNat {n : Nat} (x : BitVec n) : clzN n x.toNat = n - x.toNat.size := by rw [clzN, bitLen_eq_size]
theorem testBit_low {n : Nat} (x : Word) {i : Nat} (h : i ∈ List.range n) : (x.setWidth n).toNat.testBit i = x.getLsbD i := by
  rw [BitVec.testBit_toNat, BitVec.getLsbD_setWidth, decide_eq_true (List.mem_range.1 h), Bool.true_and]
theorem popNat_low (n : Nat) (x : Word) : popNat n (x.setWidth n).toNat = ((List.range n).filter fun i => x.getLsbD i).length := by
  rw [popNat_eq_length_filter, List.filter_congr fun i h => testBit_low x h]
theorem ctzN_low (n : Nat) (x : Word) : ctzN n (x.setWidth n).toNat = ((List.range n).takeWhile fun i => !x.getLsbD i).length := by
  have first : ctzN n (x.setWidth n).toNat = ((List.range n).find? (x.setWidth n).toNat.testBit).getD n := by
    unfold ctzN
    split
    next zero =>
      have none_ : (List.range n).find? (Nat.testBit 0) = none := List.find?_eq_none.2 fun i _ => by simp
      rw [zero, none_, Option.getD_none]
    next => rfl
  rw [first, ← List.head?_filter, List.filter_congr fun i h => testBit_low x h, List.head?_filter, find?_range_getD]
theorem fld_setWidth {k lo m : Nat} (n : Nat) (x : BitVec k) (h : lo + m ≤ n) : fld (x.setWidth n) lo m = fld x lo m := by
  refine Nat.eq_of_testBit_eq fun i => ?_
  rw [testBit_fld, testBit_fld, bit, BitVec.getLsbD_setWidth, ← bit]
  by_cases hi : i < m
  · rw [decide_eq_true (by omega : lo + i < n), Bool.true_and]
  · rw [decide_eq_false hi, Bool.false_and, Bool.false_and]
theorem revBytes_low (n : Nat) (x : Word) :
    revBytes (n / 8) (x.setWidth n).toNat = (List.range (n / 8)).foldl (fun v i => 256 * v + fld x (8 * i) 8) 0 := by
  rw [revBytes, ofBytes_reverse, bytesOf_eq_map, List.foldl_map]
  refine List.foldl_ext _ _ _ fun v i h => ?_
  have inside : 8 * i + 8 ≤ n := by have := List.mem_range.1 h; omega
  rw [← fld_setWidth n x inside, BitVec.toNat_ofNat, fld]

/-- On 64 bits the sources are whole and the extension changes nothing. -/
theorem intR_wide {i : Instr} {w : RForm} {s : State} {t : Tile} {a a' : Act} {x y z : Word} {busy : Nat}
    {f : Nat → Nat → Nat → Nat → Nat} (run : exec i s = intR w s false busy f) (wide : w.esz ≠ .e32) (issues : Issues s t a)
    (passes : Passes s t a w.head [w.a, w.b, w.c] w.d.outPort) (read : rd3 a (s.rdScalar t) w.a w.b w.c = .ok (x, y, z, a'))
    (room : CanSend a' w.d) :
    ∃ r, a'.deliver w.d (BitVec.ofNat 64 (f 64 x.toNat y.toNat y.toNat)) = .ok r ∧ Retires i s t r busy := by
  have delivers := intR_delivers run issues passes read room
  rwa [eszScalar_wide wide, extTo_unsigned, onLow, BitVec.setWidth_eq, BitVec.setWidth_eq, BitVec.setWidth_eq] at delivers

theorem allOnes_shiftRight {n l : Nat} (h : l ≤ n) : (2 ^ n - 1) >>> (n - l) = 2 ^ l - 1 := by
  refine Nat.eq_of_testBit_eq fun i => ?_
  rw [Nat.testBit_shiftRight, Nat.testBit_two_pow_sub_one, Nat.testBit_two_pow_sub_one]
  exact decide_eq_decide.2 (by omega)
theorem fieldMask_eq_toNat (fn : BitVec 12) : fieldMask fn = (bitFieldMask fn).toNat := by
  have width : (if fld fn 6 6 = 0 then 64 else fld fn 6 6) ≤ 64 := by
    have : fld fn 6 6 < 2 ^ 6 := Nat.mod_lt _ (by decide)
    split <;> omega
  rw [fieldMask, bitFieldMask, BitVec.toNat_shiftLeft, BitVec.toNat_ushiftRight, BitVec.toNat_allOnes, allOnes_shiftRight width,
    Nat.shiftLeft_eq]
/-- The field that BEXT takes out (R101). -/
theorem ofNat_extract (x m : Word) (p : Nat) : BitVec.ofNat 64 ((x.toNat &&& m.toNat) / 2 ^ p) = (x &&& m) >>> p := by
  rw [← BitVec.toNat_and, ← Nat.shiftRight_eq_div_pow, ← BitVec.toNat_ushiftRight, ofNat_toNat_self]
/-- The field that BINS puts in (R101). -/
theorem ofNat_insert (x y m : Word) (p : Nat) :
    BitVec.ofNat 64 ((x.toNat &&& (2 ^ 64 - 1 - m.toNat)) ||| (y.toNat * 2 ^ p &&& m.toNat)) = (x &&& ~~~m) ||| ((y <<< p) &&& m) := by
  have moved : BitVec.ofNat 64 (y.toNat * 2 ^ p) = y <<< p := by
    rw [← Nat.shiftLeft_eq]
    exact BitVec.eq_of_toNat_eq (by rw [BitVec.toNat_ofNat, BitVec.toNat_shiftLeft])
  rw [toNat_and_not, BitVec.ofNat_or, BitVec.ofNat_and, moved, ofNat_toNat_self, ofNat_toNat_self]

/-- Settles O12: each count is at most the width, so its extension is itself; a reversal and a field are those of the low bits. -/
theorem bitResults : Obligations.BitResults := by
  dsimp only [Obligations.BitResults]
  refine ⟨intR_gives exec_clz fun w x _ => ?clz, intR_gives exec_ctz fun w x _ => ?ctz, intR_gives exec_popc fun w x _ => ?popc,
    intR_signed exec_bswap fun w x _ => ?bswap, fun w s t a a' x y z wide issues passes read room => ⟨?bext, ?bins⟩⟩
  case clz => rw [onLow, clzN_toNat, extTo_count _ (Nat.sub_le ..)]
  case ctz =>
    have short := (List.takeWhile_sublist (l := List.range (eszScalar w.esz)) fun i => !x.getLsbD i).length_le
    rw [onLow, ctzN_low, extTo_count _ (by simpa using short)]
  case popc =>
    have short := List.length_filter_le (fun i => x.getLsbD i) (List.range (eszScalar w.esz))
    rw [onLow, popNat_low, extTo_count _ (by simpa using short)]
  case bswap => rw [onLow, revBytes_low, BitVec.setWidth_ofNat_of_le (eszScalar_le w.esz)]
  case bext =>
    have delivers := intR_wide (exec_bext w s) wide issues passes read room
    rwa [fieldMask_eq_toNat, ofNat_extract] at delivers
  case bins =>
    have delivers := intR_wide (exec_bins w s) wide issues passes read room
    rwa [fieldMask_eq_toNat, ofNat_insert] at delivers

/-! The counter hash (R104) -/

theorem chashM_eq_toNat : chashM = (0xA3B195C42E6F0D57 : Word).toNat := rfl
/-- A round on numbers below 2^64 is the round on words, whatever the multiplier. -/
theorem mix_toNat (m k x : Word) (c sh : Nat) :
    (let u := (x.toNat ^^^ ((k.toNat + c) % 2 ^ 64)) * m.toNat % 2 ^ 64
     u ^^^ (u / 2 ^ sh)) =
    (let u := (x ^^^ (k + BitVec.ofNat 64 c)) * m
     u ^^^ (u >>> sh)).toNat := by
  simp only [BitVec.toNat_xor, BitVec.toNat_mul, BitVec.toNat_add, BitVec.toNat_ushiftRight, BitVec.toNat_ofNat, Nat.add_mod_mod,
    Nat.shiftRight_eq_div_pow]
theorem chashRound_toNat (k x : Word) (c sh : Nat) : chashRound k.toNat x.toNat c sh = (hashRound k x (BitVec.ofNat 64 c) sh).toNat := by
  rw [hashRound, ← mix_toNat, chashRound, chashM_eq_toNat]
theorem chash_toNat (c k : Word) : chash c.toNat k.toNat = (counterHash c k).toNat := by
  simp only [chash, counterHash, chashRound_toNat]
  rfl

/-- A word is read off its bits from the top down after its upper bits were added into lower ones. -/
theorem xorShift_injective {n sh : Nat} (pos : 0 < sh) {u v : BitVec n} (h : u ^^^ (u >>> sh) = v ^^^ (v >>> sh)) : u = v := by
  have bits (d i : Nat) (top : n ≤ i + d) : u.getLsbD i = v.getLsbD i := by
    induction d using Nat.strong_induction_on generalizing i with
    | _ d ih =>
      by_cases out : n ≤ i
      · rw [BitVec.getLsbD_of_ge _ _ out, BitVec.getLsbD_of_ge _ _ out]
      · have above : u.getLsbD (sh + i) = v.getLsbD (sh + i) := ih (d - sh) (by omega) _ (by omega)
        have mixed := congrArg (BitVec.getLsbD · i) h
        simp only [BitVec.getLsbD_xor, BitVec.getLsbD_ushiftRight, above] at mixed
        exact Bool.xor_left_inj.1 mixed
  exact BitVec.eq_of_getLsbD_eq fun i _ => bits n i (by omega)
/-- A round loses nothing: the multiplier is odd. -/
theorem hashRound_injective {k c x x' : Word} {sh : Nat} (pos : 0 < sh) (h : hashRound k x c sh = hashRound k x' c sh) : x = x' := by
  have inverse : (0xA3B195C42E6F0D57 : Word) * 0x2625ad36caf42e67 = 1 := by decide
  have product : (x ^^^ (k + c)) * 0xA3B195C42E6F0D57 = (x' ^^^ (k + c)) * 0xA3B195C42E6F0D57 := xorShift_injective pos h
  have keyed : x ^^^ (k + c) = x' ^^^ (k + c) := by
    have back := congrArg (· * (0x2625ad36caf42e67 : Word)) product
    simpa only [BitVec.mul_assoc, inverse, mul_one] using back
  exact (BitVec.xor_left_inj _).1 keyed

/-- Settles O13: the hash of the model is the four rounds on words, and each round is injective. -/
theorem counterHash : Obligations.CounterHash := by
  refine ⟨fun w s t a a' x y z wide issues passes read room => ?_, fun k c c' h => ?_⟩
  · have delivers := intR_wide (exec_chash w s) wide issues passes read room
    rwa [chash_toNat, ofNat_toNat_self] at delivers
  · exact hashRound_injective (by decide) (hashRound_injective (by decide) (hashRound_injective (by decide)
      (hashRound_injective (by decide) h)))

end Sys2Proof.Machine
end

section
/-! SUPPORT. Comparisons, the choice of SEL and the immediate forms (R102, R103, R106, R107). -/

namespace Sys2Proof.Machine

/-! The meanings -/

theorem exec_cmp (w : RForm) (s : State) : exec (.cmp w) s = execCmp w s := rfl
theorem exec_sel (w : RForm) (s : State) : exec (.sel w) s = execSel w s := rfl
theorem exec_cmpi (w : IForm) (s : State) : exec (.cmpi w) s = execCmpi w s := rfl
theorem exec_addi (w : IForm) (s : State) : exec (.addi w) s = execAddi w s := rfl
theorem exec_muli (w : IForm) (s : State) : exec (.muli w) s = execMuli w s := rfl
theorem exec_andi (w : IForm) (s : State) : exec (.andi w) s = execAndi w s := rfl
theorem exec_ori (w : IForm) (s : State) : exec (.ori w) s = execOri w s := rfl
theorem exec_xori (w : IForm) (s : State) : exec (.xori w) s = execXori w s := rfl
theorem exec_shli (w : IForm) (s : State) : exec (.shli w) s = execShli w s := rfl
theorem exec_shri (w : IForm) (s : State) : exec (.shri w) s = execShri w s := rfl
theorem exec_srai (w : IForm) (s : State) : exec (.srai w) s = execSrai w s := rfl
theorem exec_limm (w : IForm) (s : State) : exec (.limm w) s = execLimm w s := rfl
theorem exec_lea (w : MForm) (s : State) : exec (.lea w) s = execLea w s := rfl

/-! Comparisons and SEL (R102, R103, R106) -/

/-- A truth value that was put into a word is read back from it. -/
theorem truthWord_ne_zero (b : Bool) : ((if b then 1 else 0 : Word) != 0) = b := by cases b <;> rfl
/-- The signed immediate of 30 bits that CMPI compares with (R106). -/
theorem wrapInt_sfld_low {k : Nat} (i : BitVec k) : wrapInt 64 (sfld i 0 30) = ((i.setWidth 30).signExtend 64).toNat := by
  rw [sfld_low, wrapInt_eq_toNat, BitVec.signExtend]

/-- Settles O14: CMP and CMPI deliver the condition of their code on words, and SEL delivers the source that its condition picks. -/
theorem compareAndSelect : Obligations.CompareAndSelect := by
  refine ⟨fun w s t a a' x y z issues passes read room => ⟨fun low high => ?cmp, ?sel⟩,
    fun w s t a a' x issues passes read room low high => ?cmpi⟩
  case cmp =>
    obtain ⟨r, retires, reaches⟩ := scalarR_truth issues passes (fp := none) read room (exec_cmp w s)
    refine ⟨r, retires, ?_⟩
    rwa [Act.raise_none, truthWord_ne_zero, ← BitVec.toNat_setWidth, ← BitVec.toNat_setWidth, intCond_eq_compares _ _ low high] at reaches
  case sel =>
    obtain ⟨r, given, retires⟩ := scalarR_value issues passes (fp := none) read room (exec_sel w s)
    refine ⟨r, ?_, retires⟩
    rw [Act.raise_none] at given
    exact given
  case cmpi =>
    obtain ⟨r, retires, reaches⟩ := scalarI_truth issues passes read room (exec_cmpi w s)
    refine ⟨r, retires, ?_⟩
    rwa [truthWord_ne_zero, wrapInt_sfld_low, intCond_eq_compares _ _ low high] at reaches

/-! Immediate forms and LEA (R106, R107) -/

theorem immediate_gives {mk : IForm → Instr} {v f : Word → BitVec 34 → Word} (run : ∀ w s, exec (mk w) s = State.scalarI s w .value f)
    (value : ∀ x i, f x i = v x i) : ImmediateGives mk v := by
  intro w s t a a' x issues passes read room
  rw [← value]
  exact scalarI_value issues passes read room (run w s)
theorem lea_delivers {w : MForm} {s : State} {t : Tile} {a a1 a2 : Act} {x y : Word} (issues : Issues s t a)
    (passes : Passes s t a w.head [w.a, w.b] w.d.outPort) (hx : s.rdScalar t a w.a = .ok (x, a1)) (hy : s.rdScalar t a1 w.b = .ok (y, a2))
    (room : CanSend a2 w.d) :
    ∃ r, a2.deliver w.d (x + y * BitVec.ofNat 64 w.size.bytes + w.disp.signExtend 64) = .ok r ∧ Retires (.lea w) s t r 0 := by
  obtain ⟨r, given⟩ := Act.deliver_room room (x + y * BitVec.ofNat 64 w.size.bytes + w.disp.signExtend 64)
  have read : rd3 a (s.rdScalar t) w.a w.b (.g 0) = .ok (x, y, 0, a2) := by simp only [rd3, hx, hy]; rfl
  exact ⟨r, given, retires_of_finish (a := a) (d := w.d) (by
    simp only [exec_lea, execLea, issues.withAct_eq, passes.issue_eq, read, given])⟩

/-- Settles O15: the arithmetic forms compute on words, and the shifts by an immediate are those of 64 bits. -/
theorem immediateResults : Obligations.ImmediateResults :=
  ⟨immediate_gives exec_addi fun _ _ => rfl, immediate_gives exec_muli fun _ _ => rfl, immediate_gives exec_andi fun _ _ => rfl,
    immediate_gives exec_ori fun _ _ => rfl, immediate_gives exec_xori fun _ _ => rfl, immediate_gives exec_shli fun x i => ofNat_shlN x i.toNat,
    immediate_gives exec_shri fun x i => ofNat_shrN x i.toNat, immediate_gives exec_srai fun x i => ofNat_sraN x i.toNat,
    immediate_gives exec_limm fun _ _ => rfl, fun _ _ _ _ _ _ _ _ => lea_delivers⟩

end Sys2Proof.Machine
end

section
/-! SUPPORT. The scalar floating-point instructions (R97, R108 to R112): each applies the operation of its row to the low bits of its sources. -/

namespace Sys2Proof.Machine

/-! The meanings -/

theorem exec_fadd (w : RForm) (s : State) : exec (.fadd w) s = execFadd w s := rfl
theorem exec_fsub (w : RForm) (s : State) : exec (.fsub w) s = execFsub w s := rfl
theorem exec_fmul (w : RForm) (s : State) : exec (.fmul w) s = execFmul w s := rfl
theorem exec_ffma (w : RForm) (s : State) : exec (.ffma w) s = execFfma w s := rfl
theorem exec_fdiv (w : RForm) (s : State) : exec (.fdiv w) s = execFdiv w s := rfl
theorem exec_fsqrt (w : RForm) (s : State) : exec (.fsqrt w) s = execFsqrt w s := rfl
theorem exec_fmin (w : RForm) (s : State) : exec (.fmin w) s = execFmin w s := rfl
theorem exec_fmax (w : RForm) (s : State) : exec (.fmax w) s = execFmax w s := rfl
theorem exec_fcmp (w : RForm) (s : State) : exec (.fcmp w) s = execFcmp w s := rfl
theorem exec_fcvt (w : RForm) (s : State) : exec (.fcvt w) s = execFcvt w s := rfl
theorem exec_frsqe (w : RForm) (s : State) : exec (.frsqe w) s = execFrsqe w s := rfl
theorem exec_frcpe (w : RForm) (s : State) : exec (.frcpe w) s = execFrcpe w s := rfl

/-- An instruction in the format of fn[3:0] delivers the bits and raises the flags of its function (R108). -/
theorem fpR_gives {mk : RForm → Instr} {busy : Nat → Nat} {f : Nat → Nat → Nat → Nat → Nat → Nat × Flags}
    (run : ∀ w s, exec (mk w) s = fpR w s .value busy f) : FloatGives mk busy f := by
  rintro w s t a a' x y z c rfl issues passes read room
  exact scalarR_value issues passes (fp := some _) read room (run w s)

/-- The source of FCVT is read in its floating-point format, and an integer source as it is (R111). -/
theorem State.rdSource_fcvt (s : State) (t : Tile) (src : Nat) :
    s.rdSource t (if src < 8 then some src else none) = fun a sp => if src < 8 then s.rdFp t a src sp else s.rdScalar t a sp := by
  by_cases h : src < 8 <;> simp only [h, if_true, if_false] <;> rfl

theorem boolWord_ne_zero (b : Bool) : (BitVec.ofNat 64 b.toNat != 0) = b := by cases b <;> rfl

/-- Settles O17: the rows in one format share their shape, and the estimates, FCMP and FCVT have sources or deliveries of their own. -/
theorem scalarFloatResults : Obligations.ScalarFloatResults := by
  refine ⟨fpR_gives exec_fadd, fpR_gives exec_fsub, fpR_gives exec_fmul, fpR_gives exec_ffma, fpR_gives exec_fdiv, fpR_gives exec_fsqrt,
    fpR_gives exec_fmin, fpR_gives exec_fmax, fun w s t a a' x y z issues passes read room => ?estimates,
    fun w s t a a' x y z issues passes room => ⟨fun read => ?fcmp, fun read => ?fcvt⟩⟩
  case estimates =>
    have root := scalarR_value issues passes (fp := some 0) read room (exec_frsqe w s)
    have reciprocal := scalarR_value issues passes (fp := some 0) read room (exec_frcpe w s)
    exact ⟨root, reciprocal⟩
  case fcmp =>
    obtain ⟨r, retires, reaches⟩ := scalarR_truth issues passes (fp := some _) read room (exec_fcmp w s)
    refine ⟨r, retires, ?_⟩
    rwa [boolWord_ne_zero] at reaches
  case fcvt =>
    rw [← State.rdSource_fcvt] at read
    have converted := scalarR_value issues passes read room (exec_fcvt w s)
    exact converted

end Sys2Proof.Machine
end

section
/-! SUPPORT. Handlers, special registers and order (R12, R120 to R124, R244, R245): what ARM, MASK, MFS, MTS, FENCE and ORDER do past the stages
of issue. -/

namespace Sys2Proof.Machine

/-! The meanings -/

theorem exec_arm (w : RForm) (s : State) : exec (.arm w) s = execArm w s := rfl
theorem exec_mask (w : RForm) (s : State) : exec (.mask w) s = execMask w s := rfl
theorem exec_mfs (w : RForm) (s : State) : exec (.mfs w) s = execMfs w s := rfl
theorem exec_mts (w : RForm) (s : State) : exec (.mts w) s = execMts w s := rfl
theorem exec_fence (w : MForm) (s : State) : exec (.fence w) s = execFence w s := rfl
theorem exec_order (w : MForm) (s : State) : exec (.order w) s = execOrder w s := rfl

/-! What MTS writes (R122) -/
section
variable {a : Act} {sel : Nat} {x : Word}
theorem Act.setSpecial_hstat (flags : bit x 8 = false ∧ bit x 9 = false) :
    a.setSpecial 1 x = .ok { a with raised := a.raised &&& ~~~(x.setWidth 6), cleared := a.cleared ||| x.setWidth 6 } := by
  simp [Act.setSpecial, flags]
theorem Act.setSpecial_rmode : a.setSpecial 9 x = .ok { a with rmode := x.setWidth 2 } := rfl
theorem Act.setSpecial_prio : a.setSpecial 10 x = .ok { a with prio := some (x.setWidth 3) } := rfl
theorem Act.setSpecial_masks : a.setSpecial 11 x = .ok { a with masks := x } := rfl
theorem Act.setSpecial_refused (h : sel ∉ [0x01, 0x09, 0x0A, 0x0B]) : a.setSpecial sel x = .error (causePrivilegedWrite, 0) := by
  simp only [List.mem_cons, List.not_mem_nil, or_false, not_or] at h
  obtain ⟨hstat, rmode, prio, masks⟩ := h
  rw [Act.setSpecial, if_neg hstat, if_neg rmode, if_neg prio, if_neg masks]
end

/-! What MFS reads of PRIO (R12, R122): what MTS wrote, or else the level of the handler's entry -/
section
variable {s : State} {t : Tile} {a : Act}
theorem State.special_prio_written {q : BitVec 3} (h : a.prio = some q) : (s.special t a 0x0A).toNat = q.toNat := by
  change ((a.prio.getD _).setWidth 64).toNat = _
  rw [h, Option.getD_some, BitVec.toNat_setWidth_of_le (by decide)]
theorem State.special_prio_entry (h : a.prio = none) :
    (s.special t a 0x0A).toNat = fld (((s.el t).fac a.facet).handlers.get a.handler).entry 17 3 := by
  change ((a.prio.getD _).setWidth 64).toNat = _
  rw [h, Option.getD_none, BitVec.toNat_setWidth_of_le (by decide), BitVec.toNat_ofNat, Handler.pri, fld_mod]
end

/-- Settles O29: ARM and MTS finish with the change of one register of the activation, or a trap, MASK and MFS with a delivery. -/
theorem handlerAndSpecialRegisters : Obligations.HandlerAndSpecialRegisters := by
  intro w s t a a1 a2 x y issues
  refine ⟨fun passes read => ?one, fun passes hx hy room => ?mask, fun passes room => ?mfs⟩
  case one =>
    have arms : a1.arms = a.arms := (congrArg Act.arms (State.rdScalar_taken read) :)
    have writes {r : Act} (h : a1.setSpecial (fld w.fn 0 8) x = .ok r) : Retires (.mts w) s t r 0 :=
      retires_of_finish (a := a) (d := w.d) (by simp only [exec_mts, execMts, issues.withAct_eq, passes.issue_eq, read, h])
    refine ⟨?_, fun h => writes (h ▸ Act.setSpecial_rmode), fun h => writes (h ▸ Act.setSpecial_prio),
      fun h => writes (h ▸ Act.setSpecial_masks), fun h b8 b9 => writes (h ▸ Act.setSpecial_hstat ⟨b8, b9⟩), fun h => ?_⟩
    · rw [← arms]
      exact retires_of_finish (a := a) (d := w.d) (by simp only [exec_arm, execArm, issues.withAct_eq, passes.issue_eq, read])
    · have trapped := s.trap_trapped t a 0 (code := causePrivilegedWrite) (by decide)
      refine ⟨_, ?_, trapped.ended, trapped.code_, trapped.trapped, trapped.bank⟩
      simp only [exec_mts, execMts, issues.withAct_eq, passes.issue_eq, read, Act.setSpecial_refused h]
      rfl
  case mask =>
    obtain ⟨r, given⟩ := Act.deliver_room (a := { a2 with masks := (a.masks &&& ~~~y) ||| (x &&& y) }) room a.masks
    exact ⟨r, given, retires_of_finish (a := a) (d := w.d) (by
      simp only [exec_mask, execMask, issues.withAct_eq, passes.issue_eq, hx, hy, given])⟩
  case mfs =>
    obtain ⟨r, given⟩ := Act.deliver_room room (s.special t a (fld w.fn 0 8))
    refine ⟨s.special t a (fld w.fn 0 8), r, given, retires_of_finish (a := a) (d := w.d) ?_, ?_⟩
    · simp only [exec_mfs, execMfs, issues.withAct_eq, passes.issue_eq, given]
    · generalize fld w.fn 0 8 = sel
      have reads {k : Nat} {v : Word} (e : s.special t a k = v) (h : sel = k) : s.special t a sel = v := by rw [h, e]
      have widens {k n : Nat} {v : BitVec n} (small : n ≤ 64) (e : s.special t a k = v.setWidth 64) (h : sel = k) :
          (s.special t a sel).toNat = v.toNat := by rw [h, e, BitVec.toNat_setWidth_of_le small]
      refine ⟨reads rfl, reads rfl, reads rfl, fun h => ?facet, widens (by decide) rfl, widens (by decide) rfl, widens (by decide) rfl,
        widens (by decide) rfl, widens (by decide) rfl, fun h => ?prio, reads rfl, widens (by decide) rfl, reads rfl⟩
      case facet =>
        have small : (s.el t).curFacet.val < 2 ^ 64 := (s.el t).curFacet.isLt.trans (by decide)
        rw [reads (v := BitVec.ofNat 64 (s.el t).curFacet.val) rfl h, BitVec.toNat_ofNat, Nat.mod_eq_of_lt small]
      case prio =>
        rw [h]
        cases written : a.prio with
        | some q => exact State.special_prio_written written
        | none => exact State.special_prio_entry written

/-! FENCE and ORDER (R123, R124) -/

theorem Scope.orders_of_local {sc : Scope} (h : sc = .act ∨ sc = .elem) : Scope.orders sc = false := by rcases h with rfl | rfl <;> rfl
theorem Scope.orders_of_wide {sc : Scope} (h : sc ∈ [Scope.pair, .region, .die, .device, .system]) : Scope.orders sc = true := by
  revert sc
  decide
/-- A scalar read that succeeds changes the count of tokens taken, and no more. -/
theorem State.rdScalar_only_taken {s : State} {t : Tile} {a a' : Act} {sp : Spec} {x : Word} (h : s.rdScalar t a sp = .ok (x, a')) :
    ∃ l, a' = { a with taken := l } := ⟨a'.taken, by rw [← State.rdScalar_taken h]⟩

section
variable {w : MForm} {s : State} {t : Tile} {a : Act} (issues : Issues s t a)
include issues
theorem exec_fence_passed (passes : Passes s t a w.head [] none) : exec (.fence w) s = .next (
    if Scope.orders w.scope then
      if s.facetPerformed t a.facet w.scope then s.retire t { a with fences := a.fences ++ [(a.reqs, w.scope)] } 0 else s.otherWait t a
    else s.retire t a 0) := by
  rw [exec_fence, execFence, issues.withAct_eq, passes.issue_eq]
theorem order_retires {p : BitVec 4} {x : Word} {a' r : Act} (port : w.d = .outp p) (passes : Passes s t a w.head [w.a] (some p))
    (read : s.rdScalar t a w.a = .ok (x, a'))
    (sent : a'.send p (mkTok a.facet kData false false false false x.toNat) (a'.orderWait w.scope) = .ok r) : Retires (.order w) s t r 0 :=
  retires_of_finish (a := a) (d := w.d) (by simp only [exec_order, execOrder, issues.withAct_eq, port, passes.issue_eq, read, sent])
end

/-- Settles O30: a FENCE retires or waits by its scope and the facet's earlier requests, and the token of an ORDER enters the commit buffer
with what it waits for. -/
theorem fenceAndOrder : Obligations.FenceAndOrder := by
  intro w s t a a' x issues
  refine ⟨fun passes => ?fence, fun p port passes read room all => ?order⟩
  case fence =>
    have runs := exec_fence_passed issues passes
    refine ⟨fun near => ?_, fun wide performed => ?_, fun wide owed => ?_⟩
    · rw [Scope.orders_of_local near] at runs
      exact .of_retire runs
    · rw [Scope.orders_of_wide wide, performed] at runs
      exact .of_retire runs
    · rw [Scope.orders_of_wide wide, owed] at runs
      exact .of_setAct runs (.refl s)
  case order =>
    obtain ⟨-, -, -, head, tail, -⟩ := mkTok_tag a.facet kData false false false false x.toNat
    obtain ⟨l, rfl⟩ := State.rdScalar_only_taken read
    have sent := Act.send_plain (a := { a with taken := l }) (p := p) (Act.orderWait { a with taken := l } w.scope) room all head tail
    exact ⟨_, order_retires issues port passes read sent, rfl, rfl, rfl⟩

end Sys2Proof.Machine
end

section
/-! SUPPORT. The channel instructions (R18, R19, R147 to R149): when a token enters the commit buffer of sends, and what RECV, PEEK, TAGR, DROP and
FWD do with the next token of a port. -/

namespace Sys2Proof.Machine

/-! The meanings -/

theorem exec_send (w : RForm) (s : State) : exec (.send w) s = execSend w s := rfl
theorem exec_sendn (w : RForm) (s : State) : exec (.sendn w) s = execSendn w s := rfl
theorem exec_sende (w : RForm) (s : State) : exec (.sende w) s = execSende w s := rfl
theorem exec_sendh (w : RForm) (s : State) : exec (.sendh w) s = execSendh w s := rfl
theorem exec_sendt (w : RForm) (s : State) : exec (.sendt w) s = execSendt w s := rfl
theorem exec_recv (w : RForm) (s : State) : exec (.recv w) s = execRecv w s := rfl
theorem exec_peek (w : RForm) (s : State) : exec (.peek w) s = execPeek w s := rfl
theorem exec_tagr (w : RForm) (s : State) : exec (.tagr w) s = execTagr w s := rfl
theorem exec_drop (w : RForm) (s : State) : exec (.drop w) s = execDrop w s := rfl
theorem exec_fwd (w : RForm) (s : State) : exec (.fwd w) s = execFwd w s := rfl

/-- An instruction that ends with a delivery that finds room retires with what is delivered. -/
theorem deliver_retires {i : Instr} {s : State} {t : Tile} {a b : Act} {d : Spec} {v : Word} {busy : Nat} (room : CanSend b d)
    (run : exec i s = .next (s.finish t a d busy (b.deliver d v))) : ∃ r, b.deliver d v = .ok r ∧ Retires i s t r busy := by
  obtain ⟨r, given⟩ := Act.deliver_room room v
  exact ⟨r, given, retires_of_finish (by rw [run, given])⟩

/-! Sends (R29, R147, R148) -/

/-- A head that finds no burst open, and a tail that is a head too or finds one open, enter the commit buffer as any other token does (R148). -/
theorem Act.send_burst {a : Act} {p : BitVec 4} {k : Token} (wait : List (Nat × Scope)) (room : a.sendsTo p < 16) (all : a.sends.length < 32)
    (opens : k.head = true → bit a.bursts p.toNat = false) (closes : k.tail = true → k.head = true ∨ bit a.bursts p.toNat = true) :
    a.send p k wait = .ok { a with sends := a.sends ++ [⟨p.toFin, k, a.fenceWait ++ wait⟩],
                                   bursts := setBit a.bursts p.toNat ((bit a.bursts p.toNat || k.head) && !k.tail) } := by
  have fresh : (k.head && bit a.bursts p.toNat) = false := by simpa using opens
  have ends : (k.tail && !k.head && !bit a.bursts p.toNat) = false := by
    cases ht : k.tail
    · rfl
    · rcases closes ht with h | h <;> simp [h]
  rw [Act.send, if_neg (by omega)]
  simp only [fresh, ends, Bool.false_eq_true, if_false]
theorem Act.consume_only_taken (a : Act) (sp : Spec) : ∃ l, a.consume sp = { a with taken := l } := by
  cases sp <;> exact ⟨_, rfl⟩

section
variable {s : State} {t : Tile} {a : Act} {w : RForm} {p : BitVec 4} (issues : Issues s t a) (port : w.d = .outp p)
  (passes : Passes s t a w.head [w.a] (some p))
include issues port passes
theorem State.sendForm_value {x : Word} {a' : Act} (read : s.rdScalar t a w.a = .ok (x, a')) (kind : Nat) (head tail : Bool) :
    s.sendForm w kind true head tail =
      .next (s.finish t a w.d 0 (a'.send p (mkTok a.facet kind (s.sendPred t a w) head tail false x.toNat) [])) := by
  simp only [State.sendForm, issues.withAct_eq, port, passes.issue_eq, if_true, read]
theorem State.sendForm_empty (kind : Nat) (head tail : Bool) : s.sendForm w kind false head tail =
    .next (s.finish t a w.d 0 ((a.consumeAll [w.a]).send p (mkTok a.facet kind (s.sendPred t a w) head tail false 0) [])) := by
  simp only [State.sendForm, issues.withAct_eq, port, passes.issue_eq, Bool.false_eq_true, if_false]
theorem exec_fwd_passed {k : Token} (tok : s.specTok t a w.a = some k) :
    exec (.fwd w) s = .next (s.finish t a w.d 0 ((a.consume w.a).send p k [])) := by
  simp only [exec_fwd, execFwd, issues.withAct_eq, port, passes.issue_eq, tok]
end

/-- An instruction that ends with the send of a token that keeps the burst rules retires with the token behind the earlier sends. -/
theorem send_retires {i : Instr} {s : State} {t : Tile} {a : Act} {d : Spec} {p : BitVec 4} {k : Token} {l : Vector Nat 16}
    (room : a.sendsTo p < 16) (all : a.sends.length < 32) (opens : k.head = true → bit a.bursts p.toNat = false)
    (closes : k.tail = true → k.head = true ∨ bit a.bursts p.toNat = true)
    (run : exec i s = .next (s.finish t a d 0 (Act.send { a with taken := l } p k []))) :
    ∃ r, Retires i s t r 0 ∧ r.sends = a.sends ++ [⟨p.toFin, k, a.fenceWait⟩] ∧ r.taken = l ∧ r.bank = a.bank ∧ r.stores = a.stores ∧
      bit r.bursts p.toNat = ((bit a.bursts p.toNat || k.head) && !k.tail) := by
  rw [Act.send_burst (a := { a with taken := l }) [] room all opens closes] at run
  exact ⟨_, retires_of_finish run, by rw [List.append_nil]; rfl, rfl, rfl, rfl, bit_setBit_same _ _ _ p.isLt⟩

/-- Settles O24: each form ends with the send of its token, from an activation in which only the tokens taken have changed. -/
theorem sendResults : Obligations.SendResults := by
  intro w s t a a' p x issues port passes room all opened pr sends
  have sent {i : Instr} {kind v : Nat} {head tail : Bool} {b : Act} (only : ∃ l, b = { a with taken := l })
      (opens : head = true → opened = false) (closes : tail = true → head = true ∨ opened = true)
      (run : exec i s = .next (s.finish t a w.d 0 (b.send p (mkTok a.facet kind pr head tail false v) []))) :
      sends i b kind head tail v := by
    obtain ⟨l, rfl⟩ := only
    obtain ⟨-, -, -, headBit, tailBit, -⟩ := mkTok_tag a.facet kind pr head tail false v
    have retired := send_retires room all (by rwa [headBit]) (by rwa [headBit, tailBit]) run
    rwa [headBit, tailBit] at retired
  refine ⟨fun read => ?_, ?sendn⟩
  case sendn =>
    exact sent (a.consume_only_taken w.a) nofun nofun (State.sendForm_empty issues port passes kNull false false)
  have only := State.rdScalar_only_taken read
  have value := State.sendForm_value issues port passes read
  exact ⟨sent only nofun nofun (value kData false false), sent only nofun nofun (value kEor false false),
    fun closed => sent only (fun _ => closed) (fun _ => .inl rfl) (value kData true (bit w.fn 2)),
    fun isOpen => sent only nofun (fun _ => .inr isOpen) (value kData false true)⟩

/-! The next token of a port (R18, R149) -/

/-- An instruction whose consuming source finds its token passes the stages of issue with the peeking form too. -/
theorem Passes.peeking {s : State} {t : Tile} {a : Act} {h : Head} {p : BitVec 4} {out : Option (BitVec 4)}
    (passes : Passes s t a h [.inp p] out) : Passes s t a h [.peek p] out := by
  obtain ⟨guard, ports, room, pm⟩ := passes
  exact ⟨guard, by simpa [State.portsReady, State.specTok, Spec.isPort] using ports, room, pm⟩

section
variable {s : State} {t : Tile} {a : Act} {w : RForm} {p : BitVec 4} (issues : Issues s t a) (port : w.a = .inp p)
include issues
theorem exec_recv_passed {x : Word} {a' : Act} (passes : Passes s t a w.head [w.a] none) (read : s.rdScalar t a w.a = .ok (x, a')) :
    exec (.recv w) s = .next (s.finish t a w.d 0 (a'.deliver w.d x)) := by
  simp only [exec_recv, execRecv, issues.withAct_eq, passes.issue_eq, read]
theorem exec_drop_passed (passes : Passes s t a w.head [w.a] none) :
    exec (.drop w) s = .next (s.finish t a w.d 0 (.ok (a.consume w.a))) := by
  rw [exec_drop, execDrop, issues.withAct_eq, passes.issue_eq]
theorem exec_tagr_passed {k : Token} (passes : Passes s t a w.head [w.a] w.d.outPort) (tok : s.specTok t a w.a = some k) :
    exec (.tagr w) s = .next (s.finish t a w.d 0 ((a.consume w.a).deliver w.d (k.tag.setWidth 64))) := by
  simp only [exec_tagr, execTagr, issues.withAct_eq, passes.issue_eq, tok]
include port
theorem exec_peek_passed {k : Token} (passes : Passes s t a w.head [w.a] none) (tok : s.portTok t a p = some k)
    (clean : k.poison = false) : exec (.peek w) s = .next (s.finish t a w.d 0 (a.deliver w.d k.value)) := by
  have offered : s.specTok t a (.peek p) = some k := tok
  rw [port] at passes
  simp only [exec_peek, execPeek, issues.withAct_eq, port, Spec.asPeek, passes.peeking.issue_eq, offered, clean,
    Bool.false_eq_true, if_false]
end

/-- Settles O25: each form finishes with the token's payload, its tag, the token itself or nothing, and only PEEK leaves the token. -/
theorem tokenResults : Obligations.TokenResults := by
  intro w s t a p k issues port tok took
  have offered : s.specTok t a w.a = some k := by rw [port]; exact tok
  have consumed : a.consume w.a = { a with taken := took } := by rw [port]; rfl
  refine ⟨fun passes => ⟨fun clean n general => ⟨?recv, ?peek⟩, ?drop⟩, fun passes room => ?tagr,
    fun o out passes room all opens closes => ?fwd⟩
  case recv =>
    obtain ⟨consuming, -⟩ := State.rdScalar_port tok clean
    have run := exec_recv_passed issues passes (by rw [port]; exact consuming)
    rw [general] at run
    exact ⟨_, retires_of_finish run, rfl, rfl⟩
  case peek =>
    have run := exec_peek_passed issues port passes tok clean
    rw [general] at run
    exact ⟨_, retires_of_finish run, rfl, rfl⟩
  case drop =>
    have run := exec_drop_passed issues passes
    rw [consumed] at run
    exact ⟨_, retires_of_finish run, rfl, rfl⟩
  case tagr =>
    have run := exec_tagr_passed issues passes offered
    rw [consumed] at run
    exact deliver_retires room run
  case fwd =>
    have run := exec_fwd_passed issues out passes offered
    rw [consumed] at run
    obtain ⟨r, retires, sends, taken, bank, -⟩ := send_retires room all opens closes run
    exact ⟨r, retires, sends, taken, bank⟩

end Sys2Proof.Machine
end

section
/-! SUPPORT. Vectors as lists of elements (R4, R78, R127, R128): the elements that a vector is made of, what a write under a mask leaves in each, and
what the activation keeps beside its register. -/

namespace Sys2Proof

theorem fld_lt {k : Nat} (w : BitVec k) (lo n : Nat) : fld w lo n < 2 ^ n := Nat.mod_lt _ (by positivity)
theorem fld_ofNat {k lo n : Nat} (h : lo + n ≤ k) (x : Nat) : fld (BitVec.ofNat k x) lo n = x / 2 ^ lo % 2 ^ n := by
  refine Nat.eq_of_testBit_eq fun i => ?_
  rw [testBit_fld, bit, BitVec.getLsbD_ofNat, Nat.testBit_mod_two_pow, Nat.testBit_div_two_pow, Nat.add_comm i]
  by_cases hi : i < n
  · rw [decide_eq_true (by omega : lo + i < k), Bool.true_and]
  · simp [hi]
theorem wrapInt_lt (n : Nat) (i : Int) : wrapInt n i < 2 ^ n := by rw [wrapInt_eq_toNat]; exact BitVec.isLt _

end Sys2Proof

namespace Sys2Proof.Machine

/-! Elements of a vector (R78) -/

/-- An element of width k that the vector holds ends below its bit 512. -/
theorem element_fits {k j : Nat} (h : j < 512 / k) : k * j + k ≤ 512 := by
  rw [← Nat.mul_succ, Nat.mul_comm]
  exact Nat.mul_le_of_le_div k _ _ h
theorem ofElems_element (k : Nat) (l : List Nat) (j : Nat) : ofElems k l / 2 ^ (k * j) % 2 ^ k = l[j]?.getD 0 % 2 ^ k := by
  induction l generalizing j with
  | nil => simp [ofElems]
  | cons x l ih =>
    cases j with
    | zero => simp [ofElems]
    | succ j =>
      have above : ofElems k (x :: l) / 2 ^ k = ofElems k l := by
        rw [ofElems, Nat.add_mul_div_left _ _ (by positivity), Nat.div_eq_of_lt (Nat.mod_lt _ (by positivity)), Nat.zero_add]
      rw [Nat.mul_succ, Nat.add_comm, pow_add, ← Nat.div_div_eq_div_mul, above, ih, List.getElem?_cons_succ]
theorem fld_vecOf {k j : Nat} (h : j < 512 / k) (l : List Nat) : fld (vecOf k l) (k * j) k = l[j]?.getD 0 % 2 ^ k := by
  rw [vecOf, fld_ofNat (element_fits h), ofElems_element]
@[simp] theorem length_elems (k : Nat) (v : Vec) : (elems k v).length = 512 / k := by simp [elems]
theorem getElem?_elems {k j : Nat} (v : Vec) (h : j < 512 / k) : (elems k v)[j]? = some (fld v (k * j) k) := by simp [elems, h]
theorem getElem?_map_elems {α : Type} {k j : Nat} (v : Vec) (h : j < 512 / k) (f : Nat → α) :
    ((elems k v).map f)[j]? = some (f (fld v (k * j) k)) := by rw [List.getElem?_map, getElem?_elems v h]; rfl
theorem getElem?_zip_elems {k j : Nat} (v x : Vec) (h : j < 512 / k) :
    ((elems k v).zip (elems k x))[j]? = some (fld v (k * j) k, fld x (k * j) k) :=
  List.getElem?_zip_eq_some.2 ⟨getElem?_elems v h, getElem?_elems x h⟩
theorem getElem?_map_zip_zip_elems {α : Type} {k j : Nat} (v x y : Vec) (h : j < 512 / k) (f : Nat × Nat × Nat → α) :
    (((elems k v).zip ((elems k x).zip (elems k y))).map f)[j]? = some (f (fld v (k * j) k, fld x (k * j) k, fld y (k * j) k)) := by
  have triple : ((elems k v).zip ((elems k x).zip (elems k y)))[j]? = some (fld v (k * j) k, fld x (k * j) k, fld y (k * j) k) :=
    List.getElem?_zip_eq_some.2 ⟨getElem?_elems v h, getElem?_zip_elems x y h⟩
  rw [List.getElem?_map, triple]; rfl
theorem getElem?_map_zip_elems {α : Type} {k j : Nat} (v x : Vec) (h : j < 512 / k) (f : Nat × Nat → α) :
    (((elems k v).zip (elems k x)).map f)[j]? = some (f (fld v (k * j) k, fld x (k * j) k)) := by
  rw [List.getElem?_map, getElem?_zip_elems v x h]; rfl

/-! Writes under a mask (R127, R128) -/

theorem fld_mergeElems {k j x : Nat} {l : List Nat} (h : j < 512 / k) (e : l[j]? = some x) (mask : BitVec 16) (old : Vec) :
    fld (mergeElems k mask old l) (k * j) k = if laneOn mask k j then x % 2 ^ k else fld old (k * j) k := by
  have pair : (l.zip (elems k old))[j]? = some (x, fld old (k * j) k) := List.getElem?_zip_eq_some.2 ⟨e, getElem?_elems old h⟩
  have merged : ((l.zip (elems k old)).zipIdx.map fun y => if laneOn mask k y.2 then y.1.1 else y.1.2)[j]? =
      some (if laneOn mask k j then x else fld old (k * j) k) := by
    simp [pair]
  rw [mergeElems, fld_vecOf h, merged, Option.getD_some, apply_ite (· % 2 ^ k), fld_mod]
/-- A lane of 32 bits is written where its own bit of the mask is one. -/
theorem laneOn_lane (mask : BitVec 16) (j : Nat) : laneOn mask 32 j = bit mask j := by
  rw [laneOn, Nat.mul_div_cancel_left _ (by decide)]

section
variable {a : Act} {n : BitVec 5} {k j : Nat} {l : List (Nat × Flags)} {q : Nat × Flags} (h : j < 512 / k) (e : l[j]? = some q) (mask : BitVec 16)
include h e
/-- An element of a vector result: the new one where its lane is written, and the old one elsewhere. -/
theorem Act.fld_putVec : fld ((a.putVec (.v n) k mask l).bank.rv n) (k * j) k =
    if laneOn mask k j then q.1 % 2 ^ k else fld (a.bank.rv n) (k * j) k := by
  have value : (l.map (·.1))[j]? = some q.1 := by rw [List.getElem?_map, e]; rfl
  rw [← fld_mergeElems h value mask (a.bank.rv n)]
  exact congrArg (fld · (k * j) k) (Bank.rv_wv_same ..)
theorem Act.fld_putVec_of_lt (small : q.1 < 2 ^ k) : fld ((a.putVec (.v n) k mask l).bank.rv n) (k * j) k =
    if laneOn mask k j then q.1 else fld (a.bank.rv n) (k * j) k := by
  rw [Act.fld_putVec h e, Nat.mod_eq_of_lt small]
end
/-- A vector result changes one v register and the flags raised. -/
theorem Act.putVec_frame (a : Act) (n : BitVec 5) (k : Nat) (mask : BitVec 16) (l : List (Nat × Flags)) :
    let r := a.putVec (.v n) k mask l
    (∀ m, m ≠ n → r.bank.rv m = a.bank.rv m) ∧ r.bank.g = a.bank.g ∧ r.bank.p = a.bank.p ∧
      { r with bank := a.bank, raised := a.raised } = a :=
  ⟨fun _ hm => Bank.rv_wv_other _ _ _ _ hm, rfl, rfl, rfl⟩

end Sys2Proof.Machine
end

section
/-! SUPPORT. Local loads (R9, R30, R143, R144): the bytes that a load inside the window reads, and what each form gives of them. -/

namespace Sys2Proof.Machine

/-! Numbers that little-endian bytes spell (R4) -/

theorem ofBytes_lt (l : List Byte) : ofBytes l < 256 ^ l.length := by
  induction l with
  | nil => simp [ofBytes]
  | cons b l ih =>
    have := b.isLt
    rw [ofBytes, List.length_cons, pow_succ]
    omega
theorem ofBytes_append (l m : List Byte) : ofBytes (l ++ m) = ofBytes l + 256 ^ l.length * ofBytes m := by
  induction l with
  | nil => simp [ofBytes]
  | cons b l ih =>
    rw [List.cons_append, ofBytes, ofBytes, ih, List.length_cons]
    ring

@[simp] theorem State.length_localBytes (s : State) (a : Act) (p n : Nat) : (s.localBytes a p n).length = n := by
  induction n generalizing p with
  | zero => rfl
  | succ n ih => rw [State.localBytes, List.length_cons, ih]
theorem State.localBytes_add (s : State) (a : Act) (p m n : Nat) :
    s.localBytes a p (m + n) = s.localBytes a p m ++ s.localBytes a (p + m) n := by
  induction m generalizing p with
  | zero => rw [Nat.zero_add]; rfl
  | succ m ih => rw [Nat.succ_add, State.localBytes, State.localBytes, ih, List.cons_append, Nat.add_right_comm p 1 m, Nat.add_assoc p m 1]
/-- The number that some of the bytes spell is cut out of the number that all of them spell. -/
theorem State.ofBytes_localBytes_cut (s : State) (a : Act) (p i n m : Nat) :
    ofBytes (s.localBytes a p (i + (n + m))) / 256 ^ i % 256 ^ n = ofBytes (s.localBytes a (p + i) n) := by
  have low (p n : Nat) : ofBytes (s.localBytes a p n) < 256 ^ n := by
    have := ofBytes_lt (s.localBytes a p n)
    rwa [State.length_localBytes] at this
  rw [State.localBytes_add, State.localBytes_add, ofBytes_append, ofBytes_append, State.length_localBytes, State.length_localBytes,
    Nat.add_mul_div_left _ _ (by positivity), Nat.div_eq_of_lt (low p i), Nat.zero_add, Nat.add_mul_mod_self_left,
    Nat.mod_eq_of_lt (low (p + i) n)]
/-- Lane j of the 64 bytes from an address on is made of the four bytes that stand 4 j above it. -/
theorem State.fld_localBytes (s : State) (a : Act) (p : Nat) {j : Nat} (h : j < 16) :
    fld (BitVec.ofNat 512 (ofBytes (s.localBytes a p 64))) (32 * j) 32 = ofBytes (s.localBytes a (p + 4 * j) 4) := by
  have cut := s.ofBytes_localBytes_cut a p (4 * j) 4 (60 - 4 * j)
  rw [show 4 * j + (4 + (60 - 4 * j)) = 64 by omega] at cut
  rw [fld_ofNat (by omega), ← cut, show 32 * j = 8 * (4 * j) by ring, pow_mul]
  rfl

theorem State.localLoad_clean {s : State} {a : Act} {p n : Nat} (h : s.localBad a p n = false) (off : Word) :
    s.localLoad a off p n = .ok (ofBytes (s.localBytes a p n)) := by
  rw [State.localLoad, h]
  rfl

/-! The forms (R143, R144) -/

section
variable {s : State} {t : Tile} {a : Act} {w : MForm} (issues : Issues s t a) (passes : Passes s t a w.head [w.a, w.b] w.d.outPort)
include issues passes
theorem exec_ld_reads {off : Word} {p : Nat} {b : Act} (h : s.localAddr t a w w.size.bytes = .ok (off, p, b))
    (clean : s.localBad a p w.size.bytes = false) :
    exec (.ld w) s = .next (s.finish t a w.d 0 (b.deliver w.d (BitVec.ofNat 64 (ofBytes (s.localBytes a p w.size.bytes))))) := by
  simp only [exec_ld, execLd, State.localOp_eq issues passes, h, State.localLoad_clean clean]
theorem exec_ldv_reads {off : Word} {p : Nat} {b : Act} (h : s.localAddr t a w 64 = .ok (off, p, b)) (clean : s.localBad a p 64 = false) :
    exec (.ldv w) s = .next (s.finish t a w.d 0 (.ok (b.putVec w.d 32 (a.writeMask w.head)
      ((elems 32 (BitVec.ofNat 512 (ofBytes (s.localBytes a p 64)))).map fun x => (x, 0))))) := by
  simp only [exec_ldv, execLdv, State.localOp_eq issues passes, h, State.localLoad_clean clean]
section
variable {off : Word} {p : Nat} {b : Act} (h : s.localAddr t a w 8 = .ok (off, p, b))
include h
theorem exec_tagq_reads : exec (.tagq w) s = .next (s.finish t a w.d 0 (b.deliverTruth w.d (s.localTag a p))) := by
  simp only [exec_tagq, execTagq, State.localOp_eq issues passes, h]
variable (full : s.localTag a p = true) (clean : s.localBad a p 8 = false)
include full clean
theorem exec_ldw_reads :
    exec (.ldw w) s = .next (s.finish t a w.d 0 (b.deliver w.d (BitVec.ofNat 64 (ofBytes (s.localBytes a p 8))))) := by
  simp only [exec_ldw, execLdw, State.localOp_eq issues passes, h, full, Bool.not_true, Bool.false_eq_true, if_false,
    State.localLoad_clean clean]
theorem exec_ldc_reads (room : b.stores.length < 16) :
    exec (.ldc w) s = .next (s.finish t a w.d 0 (Act.deliver { b with stores := b.stores ++ [.loc [] (some (p / 8, false))] } w.d
      (BitVec.ofNat 64 (ofBytes (s.localBytes a p 8))))) := by
  simp only [exec_ldc, execLdc, State.localOp_eq issues passes, h, full, Bool.not_true, Bool.false_eq_true, if_false,
    State.localLoad_clean clean, Act.addStore_room room]
end
end

/-- Settles O21: inside the window, with no error in the word and the tag full where the form waits for it, each form finishes with what it
delivers of the bytes or the tag. -/
theorem localLoads : Obligations.LocalLoads := by
  intro w s t a a' x issues passes read room fe off pa
  obtain ⟨l, rfl⟩ := State.rdScalar_only_taken read
  have addr {n : Nat} (inside : InWindow fe off n) : s.localAddr t a w n = .ok (off, pa, { a with taken := l }) :=
    State.localAddr_inside read inside
  refine ⟨fun inside clean => deliver_retires room (exec_ld_reads issues passes (addr inside) clean), fun n vector inside clean => ?ldv,
    fun inside full clean => ⟨deliver_retires room (exec_ldw_reads issues passes (addr inside) full clean),
      fun buffer => deliver_retires room (exec_ldc_reads issues passes (addr inside) full clean buffer)⟩,
    fun inside => ?tagq⟩
  case ldv =>
    have run := exec_ldv_reads issues passes (addr inside) clean
    rw [vector] at run
    refine ⟨_, retires_of_finish run, fun j hj => ?_⟩
    rw [← s.fld_localBytes a pa hj]
    exact Act.fld_putVec_of_lt (a := { a with taken := l }) hj (getElem?_map_elems _ hj _) _ (fld_lt ..)
  case tagq =>
    obtain ⟨r, given, reaches⟩ := Act.deliverTruth_room room (s.localTag a pa)
    exact ⟨r, retires_of_finish (by rw [exec_tagq_reads issues passes (addr inside), given]), reaches⟩

end Sys2Proof.Machine
end

section
/-! SUPPORT. The element-wise vector instructions (R127 to R129, R133, R140, R141): what an instruction of that shape writes in each element, and the
function of each row of the table. -/

namespace Sys2Proof.Machine

/-! The meanings -/

theorem exec_vadd (w : RForm) (s : State) : exec (.vadd w) s = execVadd w s := rfl
theorem exec_vsub (w : RForm) (s : State) : exec (.vsub w) s = execVsub w s := rfl
theorem exec_vmul (w : RForm) (s : State) : exec (.vmul w) s = execVmul w s := rfl
theorem exec_vfma (w : RForm) (s : State) : exec (.vfma w) s = execVfma w s := rfl
theorem exec_vmin (w : RForm) (s : State) : exec (.vmin w) s = execVmin w s := rfl
theorem exec_vmax (w : RForm) (s : State) : exec (.vmax w) s = execVmax w s := rfl
theorem exec_vabsmax (w : RForm) (s : State) : exec (.vabsmax w) s = execVabsmax w s := rfl
theorem exec_vrsqe (w : RForm) (s : State) : exec (.vrsqe w) s = execVrsqe w s := rfl
theorem exec_vrcpe (w : RForm) (s : State) : exec (.vrcpe w) s = execVrcpe w s := rfl
theorem exec_vcmul (w : RForm) (s : State) : exec (.vcmul w) s = execVcmul w s := rfl
theorem exec_vcmac (w : RForm) (s : State) : exec (.vcmac w) s = execVcmac w s := rfl
theorem exec_vconj (w : RForm) (s : State) : exec (.vconj w) s = execVconj w s := rfl
theorem exec_vbfly (w : RForm) (s : State) : exec (.vbfly w) s = execVbfly w s := rfl
theorem exec_viadd (w : RForm) (s : State) : exec (.viadd w) s = execViadd w s := rfl
theorem exec_visub (w : RForm) (s : State) : exec (.visub w) s = execVisub w s := rfl
theorem exec_vimul (w : RForm) (s : State) : exec (.vimul w) s = execVimul w s := rfl
theorem exec_vand (w : RForm) (s : State) : exec (.vand w) s = execVand w s := rfl
theorem exec_vor (w : RForm) (s : State) : exec (.vor w) s = execVor w s := rfl
theorem exec_vxor (w : RForm) (s : State) : exec (.vxor w) s = execVxor w s := rfl
theorem exec_vshl (w : RForm) (s : State) : exec (.vshl w) s = execVshl w s := rfl
theorem exec_vshr (w : RForm) (s : State) : exec (.vshr w) s = execVshr w s := rfl
theorem exec_vsra (w : RForm) (s : State) : exec (.vsra w) s = execVsra w s := rfl
theorem exec_vpopc (w : RForm) (s : State) : exec (.vpopc w) s = execVpopc w s := rfl

/-! The shape -/

/-- An instruction of this shape writes in each element what its function gives of the elements of the sources, modulo the element's
width. -/
theorem vecR_gives {mk : RForm → Instr} {width : RForm → Nat} {conv : RForm → BitVec 6 → Nat} {f : RForm → Nat → Nat → Nat → Nat → Nat × Flags}
    (run : ∀ w s, exec (mk w) s = s.vecR w (width w) (conv w) fun a x y z => f w (a.mode w.rnd) x y z) : VectorGives mk width conv f := by
  rintro w s t a n k rfl vector issues passes
  have finished := run w s
  simp only [State.vecR, issues.withAct_eq, passes.issue_eq, vector] at finished
  exact ⟨_, retires_of_finish finished, fun j hj => Act.fld_putVec hj (getElem?_map_zip_zip_elems _ _ _ hj _) _, Act.putVec_frame ..⟩
/-- Only the bits of a result that its element holds count. -/
theorem VectorGives.of_mod {mk : RForm → Instr} {width : RForm → Nat} {conv : RForm → BitVec 6 → Nat}
    {f g : RForm → Nat → Nat → Nat → Nat → Nat × Flags} (h : VectorGives mk width conv g)
    (value : ∀ w m x y z, (g w m x y z).1 % 2 ^ width w = (f w m x y z).1 % 2 ^ width w) : VectorGives mk width conv f := by
  rintro w s t a n k rfl vector issues passes
  simp only [← value]
  exact h w s t a n _ rfl vector issues passes

/-! The functions of integer elements (R133) -/

/-- The shape of the integer element instructions, whose functions see the width and two elements. -/
theorem vintR_gives {mk : RForm → Instr} {f : RForm → Nat → Nat → Nat → Nat × Flags} (run : ∀ w s, exec (mk w) s = vintR w s (f w)) :
    VectorGives mk (fun w => eszWidth w.esz) (fun w => immInt (eszWidth w.esz)) fun w _ x y _ => f w (eszWidth w.esz) x y :=
  vecR_gives run
theorem shlN_mod (n x y : Nat) : shlN n x y % 2 ^ n = (if n ≤ y then 0 else x * 2 ^ y) % 2 ^ n := by
  unfold shlN
  split
  · rfl
  · exact Nat.mod_mod ..
theorem sraN_eq_sshiftRight (n x y : Nat) : sraN n x y = ((BitVec.ofNat n x).sshiftRight (min y n)).toNat := by
  rw [sraN, wrapInt_eq_toNat, signedOf_eq_toInt, BitVec.sshiftRight_eq, Int.shiftRight_eq_div_pow]

theorem vectorFloatResults : VectorFloatResults :=
  ⟨vecR_gives exec_vadd, vecR_gives exec_vsub, vecR_gives exec_vmul, vecR_gives exec_vfma, vecR_gives exec_vmin, vecR_gives exec_vmax,
    vecR_gives exec_vabsmax, vecR_gives exec_vrsqe, vecR_gives exec_vrcpe, vecR_gives exec_vcmul, vecR_gives exec_vcmac,
    vecR_gives exec_vconj, vecR_gives exec_vbfly⟩
theorem vectorIntegerResults : VectorIntegerResults :=
  ⟨vintR_gives exec_viadd, vintR_gives exec_visub, vintR_gives exec_vimul, vintR_gives exec_vand, vintR_gives exec_vor,
    vintR_gives exec_vxor, (vintR_gives exec_vshl).of_mod fun _ _ x y _ => shlN_mod _ x y, vintR_gives exec_vshr,
    (vintR_gives exec_vsra).of_mod fun _ _ x y _ => congrArg (· % _) (sraN_eq_sshiftRight _ x y),
    (vintR_gives exec_vpopc).of_mod fun _ _ x _ _ => congrArg (· % _) (popNat_eq_length_filter _ x)⟩

/-- Settles O18: the instructions of each part share their shape, and the function of each row is that of the model up to the element's width. -/
theorem vectorElementResults : Obligations.VectorElementResults := ⟨vectorFloatResults, vectorIntegerResults⟩

end Sys2Proof.Machine
end

section
/-! SUPPORT. The vector instructions that move, pack, convert, choose and compare elements (R131, R134 to R139): the list of elements that each
computes, and what stands in it. -/

namespace Sys2Proof.Machine

/-! The meanings -/

theorem exec_vperm (w : RForm) (s : State) : exec (.vperm w) s = execVperm w s := rfl
theorem exec_vsel (w : RForm) (s : State) : exec (.vsel w) s = execVsel w s := rfl
theorem exec_vunpk (w : RForm) (s : State) : exec (.vunpk w) s = execVunpk w s := rfl
theorem exec_vpack (w : RForm) (s : State) : exec (.vpack w) s = execVpack w s := rfl
theorem exec_vscan (w : RForm) (s : State) : exec (.vscan w) s = execVscan w s := rfl
theorem exec_vcvt (w : RForm) (s : State) : exec (.vcvt w) s = execVcvt w s := rfl
theorem exec_vcvts (w : RForm) (s : State) : exec (.vcvts w) s = execVcvts w s := rfl
theorem exec_vicmp (w : RForm) (s : State) : exec (.vicmp w) s = execVicmp w s := rfl
theorem exec_vcmp (w : RForm) (s : State) : exec (.vcmp w) s = execVcmp w s := rfl

/-! Reductions and prefixes (R94, R130, R131) -/

@[simp] theorem length_redLeaves (op : Nat) (mask : BitVec 16) (v : Vec) : (redLeaves op mask v).length = 16 := by simp [redLeaves]
theorem length_scanGo (node : Nat → Nat → Nat × Flags) (l : List Nat) (acc : Nat) (fl : Flags) : (scanGo node acc fl l).length = l.length := by
  induction l generalizing acc fl with
  | nil => rfl
  | cons x l ih => rw [scanGo, List.length_cons, ih, List.length_cons]
@[simp] theorem length_scan (node : Nat → Nat → Nat × Flags) (l : List Nat) : (scan node l).length = l.length := by
  cases l with
  | nil => rfl
  | cons x l => rw [scan, List.length_cons, length_scanGo, List.length_cons]

/-! Packing and unpacking (R139) -/

theorem unpacked_lt {n : Nat} (h : n ≤ 32) (x : Vec) (lo : Nat) (unsigned : Bool) :
    (if unsigned then fld x lo n else wrapInt 32 (signedOf n (fld x lo n))) < 2 ^ 32 := by
  split
  · exact (fld_lt x lo n).trans_le (Nat.pow_le_pow_right (by decide) h)
  · exact wrapInt_lt _ _
theorem packElem_lt (fn : BitVec 12) (n x : Nat) : (packElem fn n x).1 < 2 ^ n := by
  unfold packElem
  split
  · exact wrapInt_lt _ _
  · exact Nat.mod_lt _ (by positivity)
theorem getElem?_unpacked {α : Type} {k lo j : Nat} (v : Vec) (h : j < 16) (inside : lo + j < 512 / k) (f : Nat → α) :
    ((((elems k v).drop lo).take 16).map f)[j]? = some (f (fld v (k * (lo + j)) k)) := by
  rw [List.getElem?_map, List.getElem?_take_of_lt h, List.getElem?_drop, getElem?_elems v inside]; rfl
/-- The elements of VPACK: the lanes of a, those of b, and zeros. -/
def packElems (fn : BitVec 12) (n : Nat) (x y : Vec) : List (Nat × Flags) :=
  (elems 32 x ++ elems 32 y).map (packElem fn n) ++ List.replicate (512 / n - 32) (0, 0)
theorem getElem?_packElems {n j : Nat} (fn : BitVec 12) (x y : Vec) (h : j < 512 / n) : (packElems fn n x y)[j]? =
    some (if j < 16 then packElem fn n (fld x (32 * j) 32) else if j < 32 then packElem fn n (fld y (32 * (j - 16)) 32) else (0, 0)) := by
  rw [packElems, List.map_append, List.append_assoc]
  by_cases low : j < 16
  · rw [List.getElem?_append_left (by simpa using low), getElem?_map_elems x low, if_pos low]
  rw [List.getElem?_append_right (by simpa using low), if_neg low]
  simp only [List.length_map, length_elems, Nat.reduceDiv]
  by_cases high : j < 32
  · rw [List.getElem?_append_left (by simp; omega), getElem?_map_elems y (by omega), if_pos high]
  · rw [List.getElem?_append_right (by simp; omega), if_neg high, List.getElem?_replicate, if_pos (by simp; omega)]

/-! Conversions (R137) -/

theorem codeWidth_pow (c : Nat) : ∃ e, codeWidth c = 2 ^ e := by
  unfold codeWidth
  split
  case h_6 | h_9 => exact ⟨2, rfl⟩
  case h_4 | h_5 | h_7 | h_8 => exact ⟨3, rfl⟩
  case h_2 | h_3 => exact ⟨4, rfl⟩
  case h_11 => exact ⟨6, rfl⟩
  all_goals exact ⟨5, rfl⟩
theorem codeWidth_dvd {c d : Nat} (h : codeWidth c ≤ codeWidth d) : codeWidth c ∣ codeWidth d := by
  obtain ⟨e, he⟩ := codeWidth_pow c
  obtain ⟨f, hf⟩ := codeWidth_pow d
  rw [he, hf] at h ⊢
  exact pow_dvd_pow 2 ((Nat.pow_le_pow_iff_right (by decide)).1 h)
/-- A part of the narrower vector that the part number may name lies within it. -/
theorem part_fits {n m part : Nat} (dvd : n ∣ m) (h : part * n < m) : part * (512 / m) + 512 / m ≤ 512 / n := by
  obtain ⟨q, rfl⟩ := dvd
  have pos : 0 < n := Nat.pos_of_ne_zero (by rintro rfl; simp at h)
  have below : part + 1 ≤ q := Nat.lt_of_mul_lt_mul_right (a := n) (by rwa [Nat.mul_comm q])
  rw [Nat.le_div_iff_mul_le pos, ← Nat.succ_mul]
  calc (part + 1) * (512 / (n * q)) * n ≤ q * (512 / (n * q)) * n := by gcongr
    _ = n * q * (512 / (n * q)) := by ring
    _ ≤ 512 := Nat.mul_div_le _ _
/-- The elements of the destination of VCVT and VCVTS (R137): those of one part converted, the others as they were. -/
def cvtElems (src dst part : Nat) (conv : Nat → Nat × Flags) (v old : Vec) : List (Nat × Flags) :=
  let ws := codeWidth src; let wd := codeWidth dst
  let n := 512 / max ws wd
  let first := if ws ≥ wd then part * n else 0
  ((elems wd old).take first).map (fun x => (x, (0 : Flags))) ++
    (if ws ≥ wd then elems ws v else ((elems ws v).drop (part * n)).take n).map conv ++
    ((elems wd old).drop (first + n)).map (fun x => (x, (0 : Flags)))
/-- One element converted (R111, R137). -/
def cvtElem (src dst : Nat) (sat : Bool) (mode x : Nat) : Nat × Flags :=
  ((convert src dst sat mode x).1 % 2 ^ codeWidth dst, (convert src dst sat mode x).2)
/-- A list in which some neighbouring elements are replaced by as many others. -/
theorem getElem?_splice {α : Type} {l m : List α} {first j : Nat} (fits : first + m.length ≤ l.length) :
    (l.take first ++ m ++ l.drop (first + m.length))[j]? = if first ≤ j ∧ j < first + m.length then m[j - first]? else l[j]? := by
  have before : (l.take first).length = first := by rw [List.length_take]; omega
  by_cases low : j < first
  · rw [List.append_assoc, List.getElem?_append_left (by omega), List.getElem?_take_of_lt low, if_neg (by omega)]
  by_cases mid : j < first + m.length
  · rw [List.append_assoc, List.getElem?_append_right (by omega), List.getElem?_append_left (by omega), before, if_pos (by omega)]
  · rw [List.getElem?_append_right (by rw [List.length_append]; omega), List.getElem?_drop, List.length_append, before, if_neg (by omega),
      Nat.add_sub_cancel' (by omega)]
theorem getElem?_cvtElems {src dst part j : Nat} (conv : Nat → Nat × Flags) (v old : Vec)
    (named : part * min (codeWidth src) (codeWidth dst) < max (codeWidth src) (codeWidth dst)) (h : j < 512 / codeWidth dst) :
    let ws := codeWidth src; let wd := codeWidth dst; let n := 512 / max ws wd
    (cvtElems src dst part conv v old)[j]? = some (if wd ≤ ws → part * n ≤ j ∧ j < part * n + n then
      conv (fld v (ws * (if wd ≤ ws then j - part * n else part * n + j)) ws) else (fld old (wd * j) wd, 0)) := by
  dsimp only
  rw [cvtElems]
  by_cases narrow : codeWidth dst ≤ codeWidth src
  · rw [min_eq_right narrow, max_eq_left narrow] at named
    rw [max_eq_left narrow]
    simp only [ge_iff_le, narrow, if_true, true_imp_iff]
    have fits := part_fits (codeWidth_dvd narrow) named
    have length : ((elems (codeWidth src) v).map conv).length = 512 / codeWidth src := by simp
    have spliced := getElem?_splice (l := (elems (codeWidth dst) old).map fun x => (x, (0 : Flags))) (m := (elems (codeWidth src) v).map conv)
      (first := part * (512 / codeWidth src)) (j := j) (by simpa using fits)
    rw [length, ← List.map_take, ← List.map_drop] at spliced
    rw [spliced]
    split
    next inside => rw [getElem?_map_elems v (by omega)]
    next => rw [getElem?_map_elems old h]
  · have wide : codeWidth src ≤ codeWidth dst := by omega
    rw [min_eq_left wide, max_eq_right wide] at named
    rw [max_eq_right wide]
    simp only [ge_iff_le, narrow, if_false, false_imp_iff, if_true, List.take_zero, List.map_nil, List.nil_append, Nat.zero_add]
    have fits := part_fits (codeWidth_dvd wide) named
    rw [List.getElem?_append_left (by simp; omega), List.getElem?_map, List.getElem?_take_of_lt h, List.getElem?_drop,
      getElem?_elems v (by omega)]
    rfl

/-! Truth values (R134) -/

/-- The comparisons of VICMP in elements of width k, and those of VCMP in format f. -/
def intTruths (w : RForm) (a : Act) (k : Nat) : List (Bool × Flags) :=
  ((elems k (rdVec a k (immInt k) w.a)).zip (elems k (rdVec a k (immInt k) w.b))).map fun p => (intCond k (fld w.fn 4 4) p.1 p.2, 0)
def fpTruths (w : RForm) (a : Act) (f : Nat) : List (Bool × Flags) :=
  ((elems (fmtWidth f) (rdVec a (fmtWidth f) (immFp f) w.a)).zip (elems (fmtWidth f) (rdVec a (fmtWidth f) (immFp f) w.b))).map fun p =>
    fCmp f (fld w.fn 4 4) p.1 p.2
/-- Bit j of a lane mask made of the bits of a list. -/
theorem getLsbD_ofElems_one {j : Nat} (h : j < 16) (l : List Nat) :
    (BitVec.ofNat 16 (ofElems 1 l)).getLsbD j = decide (l[j]?.getD 0 % 2 = 1) := by
  have element := ofElems_element 1 l j
  rw [Nat.one_mul, pow_one] at element
  rw [BitVec.getLsbD_ofNat, decide_eq_true h, Bool.true_and, Nat.testBit_eq_decide_div_mod_eq, element]
theorem fld_one {k : Nat} (x : BitVec k) (i : Nat) : fld x i 1 = (bit x i).toNat := by
  rw [bit, ← BitVec.testBit_toNat, Nat.toNat_testBit, fld, pow_one]
/-- The truth values of a comparison in a p register: under the mask bit by bit, and the scalar bit says whether one is true. -/
theorem Act.putTruths_pred (a : Act) {n : BitVec 3} (hn : n ≠ 0) (k : Nat) (mask : BitVec 16) (l : List (Bool × Flags)) :
    let r := a.putTruths (.p n) k mask l
    (r.bank.rp n).scalar = ((r.bank.rp n).mask != 0) ∧ ∀ j q, j < 16 → l[j]? = some q →
      (r.bank.rp n).mask.getLsbD j = if bit mask j then q.1 else (a.bank.rp n).mask.getLsbD j := by
  dsimp only
  rw [Act.putTruths]
  simp only [Act.wp, Act.raise, Bank.rp_wp_same _ _ _ hn]
  refine ⟨trivial, fun j q hj e => ?_⟩
  have odd (b : Bool) : decide (b.toNat % 2 = 1) = b := by cases b <;> rfl
  rw [getLsbD_ofElems_one hj]
  simp only [List.getElem?_map, List.getElem?_zipIdx, e, Option.map_some, Option.getD_some, Nat.zero_add, fld_one, ← apply_ite Bool.toNat, odd]
  rfl
theorem Act.putTruths_vec (a : Act) {n : BitVec 5} {k j : Nat} {q : Bool × Flags} (h : j < 512 / k) {l : List (Bool × Flags)}
    (e : l[j]? = some q) (mask : BitVec 16) : fld ((a.putTruths (.v n) k mask l).bank.rv n) (k * j) k =
      if laneOn mask k j then if q.1 then 2 ^ k - 1 else 0 else fld (a.bank.rv n) (k * j) k := by
  have small : (if q.1 then 2 ^ k - 1 else 0) < 2 ^ k := by
    have := Nat.two_pow_pos k
    split <;> omega
  have value : (l.map fun x => (if x.1 then 2 ^ k - 1 else 0, x.2))[j]? = some (if q.1 then 2 ^ k - 1 else 0, q.2) := by
    rw [List.getElem?_map, e]; rfl
  exact Act.fld_putVec_of_lt h value mask small

/-! The meanings past the stages of issue -/

section
variable {w : RForm} {s : State} {t : Tile} {a : Act} (issues : Issues s t a) (passes : Passes s t a w.head [] none)
include issues passes
theorem exec_vpack_passed : exec (.vpack w) s = .next (s.finish t a w.d 0 (.ok (a.putVec w.d (eszWidth w.esz) (a.writeMask w.head)
    (packElems w.fn (eszWidth w.esz) (rdVec a 32 (immInt 32) w.a) (rdVec a 32 (immInt 32) w.b))))) := by
  simp only [exec_vpack, execVpack, issues.withAct_eq, passes.issue_eq, packElems]
theorem exec_vcvt_passed {n : BitVec 5} (vector : w.d = .v n) (sat : Bool) : exec (if sat then .vcvts w else .vcvt w) s =
    .next (s.finish t a w.d 0 (.ok (a.putVec (.v n) (codeWidth (fld w.fn 4 4)) (a.writeMask w.head)
      (cvtElems (fld w.fn 0 4) (fld w.fn 4 4) (fld w.fn 8 3) (cvtElem (fld w.fn 0 4) (fld w.fn 4 4) sat (a.mode w.rnd))
        (rdVec a (codeWidth (fld w.fn 0 4)) (immCode (fld w.fn 0 4)) w.a) (a.bank.rv n))))) := by
  have run : exec (if sat then .vcvts w else .vcvt w) s = vcvt w s sat := by
    cases sat
    · exact exec_vcvt w s
    · exact exec_vcvts w s
  simp only [run, vcvt, issues.withAct_eq, passes.issue_eq, vector, cvtElems]
  rfl
theorem exec_vicmp_passed : exec (.vicmp w) s =
    .next (s.finish t a w.d 0 (.ok (a.putTruths w.d (eszWidth w.esz) (a.writeMask w.head) (intTruths w a (eszWidth w.esz))))) := by
  simp only [exec_vicmp, execVicmp, issues.withAct_eq, passes.issue_eq, intTruths]
theorem exec_vcmp_passed : exec (.vcmp w) s =
    .next (s.finish t a w.d 0 (.ok (a.putTruths w.d (fmtWidth (fld w.fn 0 4)) (a.writeMask w.head) (fpTruths w a (fld w.fn 0 4))))) := by
  simp only [exec_vcmp, execVcmp, issues.withAct_eq, passes.issue_eq, fpTruths]
end

/-- Settles O19: each instruction finishes with its list of elements, and an element of the destination is that of the list under the mask. -/
theorem vectorMoves : Obligations.VectorMoves := by
  intro w s t a issues old on z
  refine ⟨fun n vector passes => ⟨?vperm, fun p choice => ?vsel, ?vunpk, fun narrow => ?vpack, ?vscan, fun sat => ?vcvt, ?vicmp, ?vcmp⟩,
    fun n hn pred passes => ⟨fun lanes => ?vicmpPred, fun single => ?vcmpPred⟩⟩
  case vperm =>
    have run := exec_vperm w s
    simp only [execVperm, issues.withAct_eq, passes.issue_eq, vector] at run
    refine ⟨_, retires_of_finish run, fun j hj => ?_⟩
    refine Act.fld_putVec_of_lt hj (getElem?_map_elems _ hj _) _ ?_
    dsimp only
    split
    · exact Nat.two_pow_pos 32
    · exact fld_lt ..
  case vsel =>
    have run := exec_vsel w s
    simp only [execVsel, issues.withAct_eq, passes.issue_eq, vector, choice] at run
    refine ⟨_, retires_of_finish run, fun j hj => ?_⟩
    rw [Act.fld_putVec_of_lt hj (getElem?_map_elems _ hj _) _ (fld_lt ..), fld_mergeElems hj (getElem?_elems _ hj), laneOn_lane (Bank.rp ..).mask,
      fld_mod]
  case vunpk =>
    have run := exec_vunpk w s
    simp only [execVunpk, issues.withAct_eq, passes.issue_eq, vector] at run
    refine ⟨_, retires_of_finish run, fun j hj fits => ?_⟩
    have inside : 16 * fld w.fn 0 3 + j < 512 / z := by omega
    have narrow : 16 * z ≤ 512 := Nat.mul_le_of_le_div _ _ _ (by omega)
    exact Act.fld_putVec_of_lt hj (getElem?_unpacked _ hj inside _) _ (unpacked_lt (by omega) _ _ _)
  case vpack =>
    have run := exec_vpack_passed issues passes
    rw [vector] at run
    refine ⟨_, retires_of_finish run, fun j hj => ?_⟩
    rw [Act.fld_putVec hj (getElem?_packElems _ _ _ hj)]
    simp only [apply_ite Prod.fst, apply_ite (· % 2 ^ z), Nat.zero_mod, Nat.mod_eq_of_lt (packElem_lt ..)]
    rfl
  case vscan =>
    have run := exec_vscan w s
    simp only [execVscan, issues.withAct_eq, passes.issue_eq, vector] at run
    refine ⟨_, retires_of_finish run, fun j hj => ?_⟩
    have step := List.getElem?_eq_getElem (l := scan (redNode (fld w.fn 0 4) (a.mode w.rnd))
      (redLeaves (fld w.fn 0 4) (a.writeMask w.head) (rdVec a 32 (redImm (fld w.fn 0 4)) w.a))) (i := j) (by simpa using hj)
    exact ⟨_, step, Act.fld_putVec hj step _⟩
  case vcvt =>
    intro src dst ws wd part c named
    refine ⟨_, retires_of_finish (exec_vcvt_passed issues passes vector sat), fun j hj => ?_⟩
    refine (Act.fld_putVec_of_lt hj (getElem?_cvtElems _ _ _ named hj) _ ?_).trans ?_
    · split
      · exact Nat.mod_lt _ (by positivity)
      · exact fld_lt ..
    · rw [ite_and]
      by_cases covered : wd ≤ ws → part * c ≤ j ∧ j < part * c + c
      · rw [if_pos covered, if_pos covered]; rfl
      · rw [if_neg covered, if_neg covered]
  case vicmp =>
    have run := exec_vicmp_passed issues passes
    rw [vector] at run
    exact ⟨_, retires_of_finish run, fun j hj => Act.putTruths_vec a hj (getElem?_map_zip_elems _ _ hj _) _⟩
  case vcmp =>
    have run := exec_vcmp_passed issues passes
    rw [vector] at run
    exact ⟨_, retires_of_finish run, fun j hj => Act.putTruths_vec a hj (getElem?_map_zip_elems _ _ hj _) _⟩
  case vicmpPred =>
    have run := exec_vicmp_passed issues passes
    rw [pred, show eszWidth w.esz = 32 from lanes] at run
    obtain ⟨scalar, bits⟩ := a.putTruths_pred hn 32 (a.writeMask w.head) (intTruths w a 32)
    refine ⟨_, retires_of_finish run, scalar, fun j hj => ?_⟩
    rw [bits j _ hj (getElem?_map_zip_elems _ _ hj _), ← laneOn_lane]
  case vcmpPred =>
    have run := exec_vcmp_passed issues passes
    rw [pred, single] at run
    obtain ⟨scalar, bits⟩ := a.putTruths_pred hn 32 (a.writeMask w.head) (fpTruths w a 0)
    refine ⟨_, retires_of_finish run, scalar, fun j hj => ?_⟩
    exact (bits j _ hj (getElem?_map_zip_elems _ _ hj _)).trans (by rw [← laneOn_lane]; rfl)

end Sys2Proof.Machine
end

section
/-! SUPPORT. The vector instructions with a scalar operand or result (R130, R132, R136). -/

namespace Sys2Proof.Machine

/-! The meanings -/

theorem exec_vred (w : RForm) (s : State) : exec (.vred w) s = execVred w s := rfl
theorem exec_vdot (w : RForm) (s : State) : exec (.vdot w) s = execVdot w s := rfl
theorem exec_vextr (w : RForm) (s : State) : exec (.vextr w) s = execVextr w s := rfl
theorem exec_vsplat (w : RForm) (s : State) : exec (.vsplat w) s = execVsplat w s := rfl
theorem exec_vins (w : RForm) (s : State) : exec (.vins w) s = execVins w s := rfl

/-- The result of VRED extended with its sign where the operation is on signed or unsigned integers, as the row says (R130). -/
theorem extTo_reduced (op u : Nat) :
    extTo (3 ≤ op) 32 u = if 3 ≤ op then sx 32 (BitVec.ofNat 64 u) else zx 32 (BitVec.ofNat 64 u) := by
  have low : (BitVec.ofNat 64 u).setWidth 32 = BitVec.ofNat 32 u := BitVec.setWidth_ofNat_of_le (by decide) u
  split
  next signed => rw [decide_eq_true signed, extTo_signed, sx, low]
  next plain => rw [decide_eq_false plain, extTo_unsigned, zx, low]
theorem elements_pos (e : Esz) : 0 < 512 / eszWidth e := by cases e <;> decide
/-- An element of a vector in which one element has been replaced (R136). -/
theorem fld_setFld_element {k i j : Nat} (v : Vec) (x : Nat) (hi : i < 512 / k) :
    fld (setFld v (k * i) k x) (k * j) k = if j = i then x % 2 ^ k else fld v (k * j) k := by
  split
  next same => rw [same, fld_setFld_same _ _ _ _ (element_fits hi)]
  next other =>
    refine fld_setFld_other _ _ _ _ _ _ ?_
    rw [← Nat.mul_succ, ← Nat.mul_succ]
    rcases Nat.lt_or_gt_of_ne other with below | above
    · exact .inl (Nat.mul_le_mul_left k below)
    · exact .inr (Nat.mul_le_mul_left k above)

/-- Three scalar reads that succeed change the count of tokens taken, and no more. -/
theorem rd3_only_taken {s : State} {t : Tile} {a a' : Act} {u v y : Spec} {p q r : Word} (h : rd3 a (s.rdScalar t) u v y = .ok (p, q, r, a')) :
    ∃ l, a' = { a with taken := l } := by
  unfold rd3 at h
  split at h
  · cases h
  next read1 =>
    obtain ⟨l, rfl⟩ := State.rdScalar_only_taken read1
    split at h
    · cases h
    next read2 =>
      obtain ⟨l, rfl⟩ := State.rdScalar_only_taken read2
      split at h
      · cases h
      next read3 =>
        obtain ⟨l, rfl⟩ := State.rdScalar_only_taken read3
        cases h
        exact ⟨l, rfl⟩

/-- Settles O20: VRED, VDOT and VEXTR finish with a delivery, VSPLAT and VINS with a list of elements in the activation that took the tokens. -/
theorem vectorScalarResults : Obligations.VectorScalarResults := by
  intro w s t a a' x y c issues z
  refine ⟨fun passes room => ?vred, fun passes read room => ?vdot, fun passes read room => ?vextr, fun n vector passes read => ?vsplat,
    fun n vector passes read => ?vins⟩
  case vred =>
    intro op q
    rw [← extTo_reduced]
    exact deliver_retires (a := a) (b := a.raise q.2) room (by rw [exec_vred, execVred, issues.withAct_eq, passes.issue_eq])
  case vdot =>
    exact deliver_retires (a := a) (b := a'.raise _) room (by simp only [exec_vdot, execVdot, issues.withAct_eq, passes.issue_eq, read])
  case vextr =>
    exact deliver_retires (a := a) room (by simp only [exec_vextr, execVextr, issues.withAct_eq, passes.issue_eq, read, z])
  case vsplat =>
    have run := exec_vsplat w s
    simp only [execVsplat, issues.withAct_eq, passes.issue_eq, read, vector] at run
    obtain ⟨l, rfl⟩ := State.rdScalar_only_taken read
    refine ⟨_, retires_of_finish run, rfl, fun j hj => ?_⟩
    exact Act.fld_putVec_of_lt (a := { a with taken := l }) hj (List.getElem?_replicate_of_lt hj) _ (Nat.mod_lt _ (by positivity))
  case vins =>
    have run := exec_vins w s
    simp only [execVins, issues.withAct_eq, passes.issue_eq, read, vector] at run
    obtain ⟨l, rfl⟩ := rd3_only_taken read
    refine ⟨_, retires_of_finish run, rfl, fun j hj => ?_⟩
    rw [← fld_setFld_element _ _ (Nat.mod_lt _ (elements_pos w.esz))]
    exact Act.fld_putVec_of_lt (a := { a with taken := l }) hj (getElem?_map_elems _ hj _) _ (fld_lt ..)

end Sys2Proof.Machine
end

section
/-! SUPPORT. Region registers (R163 to R180): writes of rectangles and the end of a resize, port registers, rates, quiet facets and the slot
sequencer. -/

namespace Sys2Proof.Machine

/-! What a change of stamps and a cause leave of a region -/

/-- A change of a region with what it does to the phases is that change, but for the phases (R452). -/
theorem Region.restamp_eq (old : Region) (h : Region → Region) : ∃ w, old.restamp h = { h old with phs := w } :=
  ⟨_, (congrArg (fun g : Region => { g with phs := (old.restamp h).phs }) (old.restamp_frame h) :)⟩
/-- A cause of a region enters its FIFO, and no more of a region changes (R365). -/
theorem State.causeRg_rg_eq (s : State) (q : RegionId) (f : Facet) (code detail : Nat) (r : RegionId) :
    ∃ l w, (s.causeRg q f code detail).rg r = { s.rg r with notices := l, nstat := w } :=
  let g' := (s.causeRg q f code detail).rg r
  ⟨_, _, (congrArg (fun g : Region => { g with notices := g'.notices, nstat := g'.nstat }) (s.causeRg_rg q f code detail r) :)⟩

/-! Rectangles (R165, R179, R180) -/

theorem exec_rggeomWrite (r : RegionId) (v : Word) (s : State) : exec (.rggeomWrite r v) s = execRggeomWrite r v s := rfl
theorem exec_rgnewWrite (r : RegionId) (v : Word) (s : State) : exec (.rgnewWrite r v) s = execRgnewWrite r v s := rfl
theorem exec_resizeComplete (r : RegionId) (s : State) : exec (.resizeComplete r) s = execResizeComplete r s := rfl

section
variable {s : State} {r : RegionId} {v : Word}
theorem State.writeGeom_taken (h : bit (v &&& geomMask) 31 = false ∨ (geomOk (v &&& geomMask) = true ∧ s.geomFree r (v &&& geomMask) = true)) :
    s.writeGeom r v = s.modRg r fun g => { g with geom := v &&& geomMask } := by
  rcases h with h | ⟨ok, free⟩
  · rw [State.writeGeom, if_neg (by simp [h])]
  · rw [State.writeGeom, if_neg (by simp [ok, free])]
theorem State.writeGeom_refused (valid : bit (v &&& geomMask) 31 = true)
    (h : geomOk (v &&& geomMask) = false ∨ s.geomFree r (v &&& geomMask) = false) :
    s.writeGeom r v = s.modRg r fun g => { g with geom := setBit (v &&& geomMask) 31 false }.geoErr := by
  rcases h with h | h <;> rw [State.writeGeom, if_pos (by simp [valid, h])]
theorem State.writeNew_cancel (h : bit (v &&& geomMask) 31 = false) :
    s.writeNew r v = s.modRg r fun g => { g with new_ := v &&& geomMask, resize := none } := by
  rw [State.writeNew, if_pos (by simp [h])]
theorem State.writeNew_taken (valid : bit (v &&& geomMask) 31 = true) (inForce : (s.rg r).valid = true) (ok : geomOk (v &&& geomMask) = true)
    (free : s.geomFree r (v &&& geomMask) = true) (spare : (s.rg r).spareFacet = true) (sites : (s.rg r).sitesOn (v &&& geomMask) = true) :
    s.writeNew r v = s.modRg r fun g => { g with new_ := v &&& geomMask, resize := some g.ifac } := by
  rw [State.writeNew, if_neg (by simp [valid]), if_pos (by simp [inForce, ok, free, spare, sites])]
theorem State.writeNew_refused (valid : bit (v &&& geomMask) 31 = true)
    (h : (s.rg r).valid = false ∨ geomOk (v &&& geomMask) = false ∨ s.geomFree r (v &&& geomMask) = false ∨ (s.rg r).spareFacet = false ∨
      (s.rg r).sitesOn (v &&& geomMask) = false) :
    s.writeNew r v = s.modRg r fun g => { g with new_ := setBit (v &&& geomMask) 31 false, resize := none }.geoErr := by
  rcases h with h | h | h | h | h <;> rw [State.writeNew, if_neg (by simp [valid]), if_neg (by simp [h])]

/-- A write of a rectangle acts while the loader is idle (R200). -/
theorem rggeomWrite_idle (idle : (s.rg r).lbusy = false) : exec (.rggeomWrite r v) s = .next (s.writeGeom r v) :=
  when_of_true (by rw [idle]; rfl)
theorem rgnewWrite_idle (idle : (s.rg r).lbusy = false) : exec (.rgnewWrite r v) s = .next (s.writeNew r v) :=
  when_of_true (by rw [idle]; rfl)
end

theorem Region.geoErr_stat (g : Region) : bit g.geoErr.stat 2 = true := bit_setBit_same _ _ _ (by decide)

/-- Settles O41: a write is taken or refused by the checks of its rectangle, and a resize ends with RGNEW as RGGEOM. -/
theorem regionGeometry : Obligations.RegionGeometry := by
  refine ⟨fun s r v => ⟨fun busy => ?busy, fun idle => ⟨fun taken => ?geom, fun valid bad => ?badGeom, fun valid inForce ok free spare sites => ?new,
    fun valid bad => ?badNew, fun gone => ?cancel⟩⟩, fun s r f old valid swapped quiet => ?resize⟩
  case busy => exact ⟨when_of_false (by rw [busy]; rfl), when_of_false (by rw [busy]; rfl)⟩
  case geom =>
    refine ⟨_, rggeomWrite_idle idle, ?_⟩
    rw [State.writeGeom_taken taken]
    exact ⟨s.modRg_only r _, s.modRg_rg_same r _⟩
  case badGeom =>
    refine ⟨_, rggeomWrite_idle idle, ?_⟩
    rw [State.writeGeom_refused valid bad]
    refine ⟨s.modRg_only r _, ?_⟩
    rw [State.modRg_rg_same, Region.geoErr, Region.valid]
    exact ⟨bit_setBit_same _ _ _ (by decide), bit_setBit_same _ _ _ (by decide), rfl⟩
  case new =>
    refine ⟨_, rgnewWrite_idle idle, ?_⟩
    rw [State.writeNew_taken valid inForce ok free spare sites]
    exact ⟨s.modRg_only r _, s.modRg_rg_same r _⟩
  case badNew =>
    refine ⟨_, rgnewWrite_idle idle, ?_⟩
    rw [State.writeNew_refused valid bad]
    refine ⟨s.modRg_only r _, ?_⟩
    rw [State.modRg_rg_same, Region.geoErr]
    exact ⟨bit_setBit_same _ _ _ (by decide), bit_setBit_same _ _ _ (by decide), rfl⟩
  case cancel =>
    refine ⟨_, rgnewWrite_idle idle, ?_⟩
    rw [State.writeNew_cancel gone]
    exact ⟨s.modRg_only r _, s.modRg_rg_same r _⟩
  case resize =>
    have run : exec (.resizeComplete r) s = .next (s.modRg r Region.resized) := by
      rw [exec_resizeComplete, execResizeComplete, old]
      exact when_of_true (by simp [valid, swapped, quiet])
    refine ⟨_, run, s.modRg_only r _, ?_⟩
    rw [State.modRg_rg_same]
    exact ⟨rfl, bit_setBit_same _ _ _ (by decide), rfl, rfl⟩

/-! Port registers and rates (R167, R169, R427, R457) -/

theorem exec_portRegisterWrite (r : RegionId) (dir : PortDir) (p : Fin 64) (v : Word) (s : State) :
    exec (.portRegisterWrite r dir p v) s = .next (s.writePort r dir p.val v) := rfl
theorem exec_rateUpdate (r : RegionId) (p : Fin 64) (v : BitVec 11) (s : State) : exec (.rateUpdate r p v) s = execRateUpdate r p v s := rfl

theorem State.writePort_refused {s : State} {r : RegionId} {dir : PortDir} {p : Nat} {v : Word} (h : s.portRefused r dir p v = true) :
    s.writePort r dir p v = s.modRg r Region.geoErr := if_pos h
theorem State.writePort_ingress {s : State} {r : RegionId} {p : Nat} {v : Word} (h : s.portRefused r .ingress p v = false) :
    s.writePort r .ingress p v = s.modRg r (·.putPort .ingress p (v &&& 0x3FFFFF)) := if_neg (by simp [h])
theorem State.writePort_egress {s : State} {r : RegionId} {p : Nat} {v : Word} (h : s.portRefused r .egress p v = false) :
    s.writePort r .egress p v = s.modRg r (·.putPort .egress p (v &&& 0x3FFFF)) := if_neg (by simp [h])

/-- An ingress port that goes into use begins with a full bucket (R169). -/
theorem Region.putPort_ingress (g : Region) (p : Nat) (v : Word) : let g' := g.putPort .ingress p v
    g'.ingOf p = v ∧ g'.egr = g.egr ∧
      (siteEn v = true → siteEn (g.ingOf p) = false → tget g'.credit p 0 = bucketDepth (g.bucketOf p) * 1024) := by
  obtain ⟨w, put⟩ := g.restamp_eq fun g =>
    { g with ing := tset g.ing p v,
             credit := if siteEn v && !siteEn (g.ingOf p) then tset g.credit p (bucketDepth (g.bucketOf p) * 1024) else g.credit }
  simp only [Region.putPort, put]
  refine ⟨tget_tset_same .., trivial, fun on off => ?_⟩
  rw [on, off]
  exact tget_tset_same ..

theorem Region.setRate_bucket (g : Region) (p q : Nat) (n : Nat) :
    (g.setRate p n).bucketOf q = if q = p then setFld (g.bucketOf p) 0 11 n else g.bucketOf q := by
  split
  next same => rw [same]; exact tget_tset_same ..
  next other => exact tget_tset_other _ _ _ _ _ other

/-! Quiet facets (R163) -/

theorem exec_fquietSet (r : RegionId) (f : Facet) (s : State) : exec (.fquietSet r f) s = execFquietSet r f s := rfl

theorem Region.setQuiet_eq (g : Region) (f : Facet) : ∃ w, g.setQuiet f = { g with ctl := setBit g.ctl (8 + f.val) true, phs := w } := by
  unfold Region.setQuiet
  dsimp only
  split
  · exact ⟨_, rfl⟩
  · exact ⟨_, rfl⟩

/-! The slot sequencer (R171 to R173) -/

theorem exec_swapDue (r : RegionId) (s : State) : exec (.swapDue r) s = execSwapDue r s := rfl
theorem exec_slotBoundary (r : RegionId) (s : State) : exec (.slotBoundary r) s = execSlotBoundary r s := rfl

theorem swapDue_runs {s : State} {r : RegionId} (h : s.swapDue r ≠ []) : exec (.swapDue r) s = .next (s.swapStep r (s.swapDue r)) :=
  when_of_true (by simpa using h)

/-- The entry at the head leaves the schedule (R171). -/
theorem Region.consumeSwap_head (g : Region) :
    bit (tget g.consumeSwap.swapfc g.swapHead 0) 7 = false ∧ g.consumeSwap.swapHead = (g.swapHead + 1) % 64 ∧ g.consumeSwap.ifac = g.ifac := by
  refine ⟨?_, fld_setFld_same _ _ _ _ (by decide), congrArg (Fin.ofNat 4) (fld_setFld_other _ _ _ _ _ _ (by decide))⟩
  rw [Region.consumeSwap, tget_tset_same]
  exact bit_setBit_same _ _ _ (by decide)
theorem Region.setIfac_eq (g : Region) (f : Facet) : ∃ w, g.setIfac f = { g with ctl := setFld g.ctl 1 2 f.val, phs := w } := g.restamp_eq _
theorem Region.setIfac_ifac (g : Region) (f : Facet) : (g.setIfac f).ifac = f := by
  obtain ⟨w, set⟩ := g.setIfac_eq f
  have read : fld (setFld g.ctl 1 2 f.val) 1 2 = f.val := by
    rw [fld_setFld_same _ _ _ _ (by decide)]
    exact Nat.mod_eq_of_lt f.isLt
  rw [set, Region.ifac, read]
  exact Fin.ofNat_val_eq_self f
theorem Region.setIfac_swapHead (g : Region) (f : Facet) : (g.setIfac f).swapHead = g.swapHead := by
  obtain ⟨w, set⟩ := g.setIfac_eq f
  rw [set]
  exact fld_setFld_other _ _ _ _ _ _ (by decide)

/-- A swap that every die of the region has consumed gives IFAC its facet (R172). -/
theorem State.swapStep_taken {s : State} {r : RegionId} {due : List DieId}
    (loaded : (s.rg r).swapFac = (s.rg r).ifac ∨ (s.rg r).floaded (s.rg r).swapFac = true)
    (all : (s.rg r).dies.all (fun d => ((s.rg r).swapped ++ due).contains d) = true) :
    s.swapStep r due = s.modRg r fun g => g.consumeSwap.setIfac (s.rg r).swapFac := by
  have go : ¬(decide ((s.rg r).swapFac ≠ (s.rg r).ifac) && !(s.rg r).floaded (s.rg r).swapFac) = true := by
    rcases loaded with h | h <;> simp [h]
  rw [State.swapStep, if_neg go, if_pos all]
theorem State.swapStep_unloaded {s : State} {r : RegionId} {due : List DieId} (other : (s.rg r).swapFac ≠ (s.rg r).ifac)
    (unloaded : (s.rg r).floaded (s.rg r).swapFac = false) : s.swapStep r due =
      (s.modRg r fun g => g.restamp fun g => { g.consumeSwap with stat := setBit g.stat 0 true }).causeRg r (s.rg r).ifac causeSwapUnloaded
        (s.rg r).swapHead := by
  rw [State.swapStep, if_pos (by simp [other, unloaded])]

/-- A die takes up the slot of its own counter (R173). -/
def Die.takeSlot (x : Die) : Die := { x with slot := slotAt x.time }
theorem Die.takeSlot_twice (x : Die) : x.takeSlot.takeSlot = x.takeSlot := rfl
/-- Dies that take up a change of their own, which twice is once. -/
theorem State.foldl_modDie_die {h : Die → Die} (twice : ∀ x, h (h x) = h x) (l : List DieId) (s : State) (d : DieId) :
    (l.foldl (fun s d => s.modDie d h) s).die d = if d ∈ l then h (s.die d) else s.die d := by
  induction l generalizing s with
  | nil => rfl
  | cons e l ih =>
    rw [List.foldl_cons, ih]
    by_cases same : d = e
    · rw [same, State.modDie_die_same, twice, ite_self, if_pos List.mem_cons_self]
    · simp only [State.modDie_die_other _ _ _ _ same, List.mem_cons, same, false_or]
theorem State.foldl_modDie_frame (h : Die → Die) (l : List DieId) (s : State) : { l.foldl (fun s d => s.modDie d h) s with dies := s.dies } = s := by
  induction l generalizing s with
  | nil => rfl
  | cons e l ih => exact congrArg (fun x : State => { x with dies := s.dies }) (ih (s.modDie e h))

/-- Settles O42: a port register, a rate and a quiet facet are one change of the region each; a due swap consumes its entry and gives IFAC the
facet or sets SWAPERR; and the dies of the region take up the slot of their time. -/
theorem portsAndSwaps : Obligations.PortsAndSwaps := by
  refine ⟨fun s r dir p v => ⟨fun bad => ?badPort, fun good => ?port⟩, fun s r p v => ⟨fun above => ?above, fun within_ => ?rate⟩,
    fun s r f busy => ⟨fun short => ?short, fun long quiet => ?quiet⟩,
    fun s r => ⟨fun none_ => ?idle, fun due loaded all => ?swap, fun due other unloaded => ?unloaded⟩, fun s r => ?slots⟩
  case badPort =>
    refine ⟨_, exec_portRegisterWrite r dir p v s, ?_⟩
    rw [State.writePort_refused bad]
    refine ⟨s.modRg_only r _, ?_⟩
    rw [State.modRg_rg_same]
    exact ⟨Region.geoErr_stat _, rfl⟩
  case port =>
    refine ⟨_, exec_portRegisterWrite r dir p v s, ?_⟩
    cases dir with
    | ingress =>
      rw [State.writePort_ingress good]
      refine ⟨s.modRg_only r _, fun _ => ?_, fun h => by cases h⟩
      rw [State.modRg_rg_same]
      exact (s.rg r).putPort_ingress p.val (v &&& 0x3FFFFF)
    | egress =>
      rw [State.writePort_egress good]
      refine ⟨s.modRg_only r _, (fun h => by cases h), fun _ => ?_⟩
      rw [State.modRg_rg_same]
      exact ⟨tget_tset_same .., rfl⟩
  case above => exact when_of_false (decide_eq_false (Nat.not_le.2 above))
  case rate =>
    refine ⟨_, when_of_true (decide_eq_true within_), s.modRg_only r _, ?_⟩
    simp only [State.modRg_rg_same, Region.setRate_bucket, if_true]
    refine ⟨?_, fun i hi => bit_setFld_other _ _ _ _ _ (.inr hi), fun q hq => if_neg hq, rfl⟩
    rw [fld_setFld_same _ _ _ _ (by decide)]
    exact Nat.mod_eq_of_lt v.isLt
  case short => exact when_of_false (by simp [Nat.not_le.2 short])
  case quiet =>
    obtain ⟨w, set⟩ := (s.rg r).setQuiet_eq f
    refine ⟨_, when_of_true (by simp [busy, long, quiet]), s.modRg_only r _, ?_⟩
    rw [State.modRg_rg_same, set]
    exact ⟨bit_setBit_same _ _ _ (by omega), fun i hi => bit_setBit_other _ _ _ _ hi, rfl⟩
  case idle => exact when_of_false (by rw [none_]; rfl)
  case swap =>
    obtain ⟨w, set⟩ := (s.rg r).consumeSwap.setIfac_eq (s.rg r).swapFac
    obtain ⟨consumed, head, -⟩ := (s.rg r).consumeSwap_head
    refine ⟨_, swapDue_runs due, ?_⟩
    rw [State.swapStep_taken loaded all]
    refine ⟨s.modRg_only r _, ?_⟩
    rw [State.modRg_rg_same]
    exact ⟨Region.setIfac_ifac _ _, by rw [set]; exact consumed, (Region.setIfac_swapHead _ _).trans head, by rw [set]; rfl⟩
  case unloaded =>
    obtain ⟨consumed, head, ifac⟩ := (s.rg r).consumeSwap_head
    refine ⟨_, swapDue_runs due, ?_⟩
    rw [State.swapStep_unloaded other unloaded]
    obtain ⟨l, n, cause⟩ := State.causeRg_rg_eq (s.modRg r fun g => g.restamp fun g => { g.consumeSwap with stat := setBit g.stat 0 true }) r
      (s.rg r).ifac causeSwapUnloaded (s.rg r).swapHead r
    obtain ⟨w, stamped⟩ := (s.rg r).restamp_eq fun g => { g.consumeSwap with stat := setBit g.stat 0 true }
    rw [cause, State.modRg_rg_same, stamped]
    exact ⟨ifac, bit_setBit_same _ _ _ (by decide), consumed, head, State.causeRg_mem ..⟩
  case slots =>
    exact ⟨_, exec_slotBoundary r s, State.foldl_modDie_frame Die.takeSlot _ s, State.foldl_modDie_die Die.takeSlot_twice _ s⟩

end Sys2Proof.Machine
end

section
/-! SUPPORT. The loader (R164, R192 to R195): what a selection clears, the start of a load on a die, and what a frame that is taken or refused
leaves. -/

namespace Sys2Proof.Machine

theorem exec_entrySelect (r : RegionId) (s : State) : exec (.entrySelect r) s = execEntrySelect r s := rfl
theorem exec_loadStart (r : RegionId) (d : DieId) (s : State) : exec (.loadStart r d) s = execLoadStart r d s := rfl
theorem exec_loadFrame (r : RegionId) (d : DieId) (s : State) : exec (.loadFrame r d) s = execLoadFrame r d s := rfl

/-! Watches that a load cancels (R236) -/

/-- Regions keep everything but USED of their mooring lists, no request is added, and memory stays where no request is on a list. -/
structure CancelsWatches (s s' : State) : Prop where
  regions : ∀ q, { s'.rg q with mlen := (s.rg q).mlen } = s.rg q
  reqs : s'.reqs ⊆ s.reqs
  mem : (∀ q ∈ s.reqs, q.stage ≠ .listed) → s'.mem = s.mem

theorem CancelsWatches.of_same {s s' : State} (regions : s'.regions = s.regions) (reqs : s'.reqs = s.reqs) (mem : s'.mem = s.mem) :
    CancelsWatches s s' := ⟨fun q => by rw [State.rg, regions]; rfl, fun _ h => reqs ▸ h, fun _ => mem⟩
theorem CancelsWatches.trans {a b c : State} (h : CancelsWatches a b) (k : CancelsWatches b c) : CancelsWatches a c where
  regions q := by rw [← h.regions q, ← k.regions q]
  reqs := List.Subset.trans k.reqs h.reqs
  mem unlisted := (k.mem fun q hq => unlisted q (h.reqs hq)).trans (h.mem unlisted)
theorem CancelsWatches.foldl {α : Type} {step : State → α → State} (h : ∀ s x, CancelsWatches s (step s x)) (l : List α) (s : State) :
    CancelsWatches s (l.foldl step s) := by
  induction l generalizing s with
  | nil => exact .of_same rfl rfl rfl
  | cons x l ih => exact (h s x).trans (ih _)

/-- A request leaves its list: memory and its region's USED change, and no more. -/
theorem State.undefer_frame (s : State) (q : Req) : { s.undefer q with regions := s.regions, mem := s.mem } = s := by
  unfold State.undefer
  split
  · dsimp only
    split <;> rfl
  · rfl
theorem State.undefer_rg (s : State) (q : Req) (r : RegionId) : { (s.undefer q).rg r with mlen := (s.rg r).mlen } = s.rg r := by
  have used (s : State) (o : RegionId) (n : Region → Word) :
      { (s.modRg o fun g => { g with mlen := n g }).rg r with mlen := (s.rg r).mlen } = s.rg r := by
    by_cases same : r = o
    · rw [same, State.modRg_rg_same]
    · rw [State.modRg_rg_other _ _ _ _ same]
  unfold State.undefer
  split
  · dsimp only
    split
    · exact used (s.setNext ..) _ _
    · exact used s _ _
  · rfl
theorem State.undefer_unlisted (s : State) {q : Req} (h : q.stage ≠ .listed) : s.undefer q = s := by
  unfold State.undefer
  split
  next listed _ => exact absurd listed h
  · rfl

theorem State.cancelWatch_frame (s : State) (id : Nat) : { s.cancelWatch id with regions := s.regions, mem := s.mem, reqs := s.reqs } = s := by
  unfold State.cancelWatch
  split
  next q _ => exact congrArg (fun x : State => { x with reqs := s.reqs }) (s.undefer_frame q)
  · rfl
theorem State.cancelWatch_cancels (s : State) (id : Nat) : CancelsWatches s (s.cancelWatch id) := by
  unfold State.cancelWatch
  split
  next q found =>
    have reqs : (s.undefer q).reqs = s.reqs := (congrArg State.reqs (s.undefer_frame q) :)
    refine ⟨s.undefer_rg q, fun x hx => reqs ▸ (List.mem_filter.1 hx).1, fun unlisted => ?_⟩
    exact (congrArg State.mem (s.undefer_unlisted (unlisted q (List.mem_of_find?_eq_some found))) :)
  · exact .of_same rfl rfl rfl
theorem State.foldl_cancelWatch_frame (l : List Nat) (s : State) :
    { l.foldl State.cancelWatch s with regions := s.regions, mem := s.mem, reqs := s.reqs } = s := by
  induction l generalizing s with
  | nil => rfl
  | cons id l ih =>
    have := congrArg (fun x : State => { x with regions := s.regions, mem := s.mem, reqs := s.reqs }) (ih (s.cancelWatch id))
    exact this.trans (s.cancelWatch_frame id)

/-! One tile at a selection (R194) -/

/-- What the cycle of selection does to one tile. -/
def State.clearTile (s : State) (t : Tile) (f : Facet) : State :=
  (if t.isCT then s.modEl t fun e => { e with fenable := setBit e.fenable f.val false } else s).clearFacet t f
/-- What is left of a facet of an element: the facet is disabled, its windows are open and it has no handler. -/
structure Element.FacetCleared (e : Element) (f : Facet) : Prop where
  disabled : bit e.fenable f.val = false
  islim : (e.fac f).islim = 0x800
  actlim : (e.fac f).actlim = 0x10000
  handlers : ∀ h, (e.fac f).handlers.get h = Handler.reset

/-- A memory tile's routes are cleared, and the facet has no mode. -/
theorem State.clearTile_of_mt (s : State) {t : Tile} (f : Facet) (mt : t.isCT = false) : ∃ (b : Switchbox) (h : MemTile → MemTile),
    s.clearTile t f = (s.setSw t b).modMt t h ∧ b.routes.get f = [] ∧ ∀ m, ((h m).fac f).mode = none := by
  simp only [State.clearTile, State.clearFacet, mt, Bool.false_eq_true, if_false]
  refine ⟨_, _, rfl, vget_vset_same .., fun m => ?_⟩
  exact (congrArg MtFacet.mode (MemTile.modFac_fac_same m f _) :)
/-- A compute tile's routes are cleared, its watches are cancelled, and the facet of its element is cleared, its registers apart. -/
theorem State.clearTile_of_ct (s : State) {t : Tile} (f : Facet) (ct : t.isCT = true) :
    ∃ (b : Switchbox) (l : List Nat) (g h : Element → Element),
      s.clearTile t f = (l.foldl State.cancelWatch ((s.modEl t g).setSw t b)).modEl t h ∧ b.routes.get f = [] ∧
        ∀ e, (h (g e)).FacetCleared f ∧ ((h (g e)).fac f).bank = (e.fac f).bank := by
  simp only [State.clearTile, State.clearFacet, ct, if_true]
  have none_ (h : Fin 64) : (Vector.replicate 64 Handler.reset).get h = Handler.reset := Vector.getElem_replicate ..
  refine ⟨_, _, _, _, rfl, vget_vset_same .., fun e => ⟨⟨bit_setBit_same _ _ _ (by omega), ?_, ?_, fun h => ?_⟩, ?_⟩⟩ <;>
    simp [Element.fac, Element.modFac, none_]

theorem State.clearTile_cancels (s : State) (t : Tile) (f : Facet) : CancelsWatches s (s.clearTile t f) := by
  cases kind : t.isCT with
  | false =>
    obtain ⟨b, h, eq, -⟩ := s.clearTile_of_mt f kind
    rw [eq]
    exact .of_same rfl rfl rfl
  | true =>
    obtain ⟨b, l, g, h, eq, -⟩ := s.clearTile_of_ct f kind
    have cancelled := CancelsWatches.foldl State.cancelWatch_cancels l ((s.modEl t g).setSw t b)
    rw [eq]
    exact .trans (b := (s.modEl t g).setSw t b) (.of_same rfl rfl rfl) (cancelled.trans (.of_same rfl rfl rfl))

theorem State.setSw_routes (s : State) (t u : Tile) {b : Switchbox} {f : Facet} (h : b.routes.get f = []) :
    ((s.setSw t b).sw u).routes.get f = if u.key = t.key then [] else (s.sw u).routes.get f := by
  split
  next same =>
    have : (s.setSw t b).sw u = b := (congrArg (tget _ · Switchbox.reset) same).trans (s.setSw_sw_same t b)
    rw [this, h]
  next other => rw [State.setSw_sw_other _ _ _ _ other]
theorem State.clearTile_routes (s : State) (t u : Tile) (f : Facet) :
    ((s.clearTile t f).sw u).routes.get f = if u.key = t.key then [] else (s.sw u).routes.get f := by
  cases kind : t.isCT with
  | false =>
    obtain ⟨b, h, eq, none_, -⟩ := s.clearTile_of_mt f kind
    rw [eq, State.modMt_sw, State.setSw_routes _ _ _ none_]
  | true =>
    obtain ⟨b, l, g, h, eq, none_, -⟩ := s.clearTile_of_ct f kind
    have kept := congrArg (State.sw · u) (State.foldl_cancelWatch_frame l ((s.modEl t g).setSw t b))
    rw [eq, State.modEl_sw, show (l.foldl State.cancelWatch _).sw u = _ from kept, State.setSw_routes _ _ _ none_, State.modEl_sw]
theorem State.clearTile_mode (s : State) (t u : Tile) (f : Facet) :
    (((s.clearTile t f).mt u).fac f).mode = if t.isCT = false ∧ u.key = t.key then none else ((s.mt u).fac f).mode := by
  cases kind : t.isCT with
  | false =>
    obtain ⟨b, h, eq, -, mode⟩ := s.clearTile_of_mt f kind
    rw [eq]
    by_cases same : u.key = t.key
    · rw [State.mt_congr _ same, State.modMt_mt_same, mode, if_pos ⟨rfl, same⟩]
    · rw [State.modMt_mt_other _ _ _ _ same, State.setSw_mt, if_neg fun h => same h.2]
  | true =>
    obtain ⟨b, l, g, h, eq, -⟩ := s.clearTile_of_ct f kind
    have kept := congrArg (State.mt · u) (State.foldl_cancelWatch_frame l ((s.modEl t g).setSw t b))
    rw [eq, State.modEl_mt, show (l.foldl State.cancelWatch _).mt u = _ from kept, if_neg fun h => Bool.noConfusion h.1]
    rfl
/-- A selection clears a compute tile's facet, its registers apart, and leaves the elements of other tiles. -/
theorem State.clearTile_el (s : State) (t u : Tile) (f : Facet) :
    (((s.clearTile t f).el u).fac f).bank = ((s.el u).fac f).bank ∧
      (if t.isCT = true ∧ u.key = t.key then ((s.clearTile t f).el u).FacetCleared f else (s.clearTile t f).el u = s.el u) := by
  cases kind : t.isCT with
  | false =>
    obtain ⟨b, h, eq, -⟩ := s.clearTile_of_mt f kind
    rw [eq, if_neg fun h => Bool.noConfusion h.1]
    exact ⟨rfl, rfl⟩
  | true =>
    obtain ⟨b, l, g, h, eq, -, cleared⟩ := s.clearTile_of_ct f kind
    have kept (v : Tile) : (l.foldl State.cancelWatch ((s.modEl t g).setSw t b)).el v = (s.modEl t g).el v :=
      (congrArg (State.el · v) (State.foldl_cancelWatch_frame l ((s.modEl t g).setSw t b)) :)
    rw [eq]
    by_cases same : u.key = t.key
    · obtain ⟨facet, bank⟩ := cleared (s.el t)
      rw [if_pos ⟨rfl, same⟩, State.el_congr _ same, State.el_congr s same, State.modEl_el_same, kept, State.modEl_el_same]
      exact ⟨bank, facet⟩
    · rw [if_neg fun h => same h.2, State.modEl_el_other _ _ _ _ same, kept, State.modEl_el_other _ _ _ _ same]
      exact ⟨rfl, rfl⟩

/-! The cycle of selection (R192, R194) -/

/-- What one step of a fold makes and no step undoes holds in the end. -/
theorem foldl_of_mem {α σ : Type} {step : σ → α → σ} {P : σ → Prop} (keep : ∀ s x, P s → P (step s x)) {x : α} (made : ∀ s, P (step s x))
    (l : List α) (s : σ) (h : P s ∨ x ∈ l) : P (l.foldl step s) := by
  induction l generalizing s with
  | nil => exact h.resolve_right List.not_mem_nil
  | cons y l ih =>
    refine ih _ ?_
    rcases h with h | h
    · exact .inl (keep s y h)
    · rcases List.mem_cons.1 h with rfl | h
      · exact .inl (made s)
      · exact .inr h

section
variable (s : State) (f : Facet) {l : List Tile} {t : Tile}
theorem State.foldl_clearTile_routes (h : t ∈ l) : ((l.foldl (fun s t => s.clearTile t f) s).sw t).routes.get f = [] := by
  refine foldl_of_mem (P := fun s : State => (s.sw t).routes.get f = []) (fun s u h => ?_) (fun s => ?_) l s (.inr h)
  · rw [State.clearTile_routes, h, ite_self]
  · rw [State.clearTile_routes, if_pos rfl]
theorem State.foldl_clearTile_mode (h : t ∈ l) (mt : t.isCT = false) : (((l.foldl (fun s t => s.clearTile t f) s).mt t).fac f).mode = none := by
  refine foldl_of_mem (P := fun s : State => ((s.mt t).fac f).mode = none) (fun s u h => ?_) (fun s => ?_) l s (.inr h)
  · rw [State.clearTile_mode, h, ite_self]
  · rw [State.clearTile_mode, if_pos ⟨mt, rfl⟩]
theorem State.foldl_clearTile_cleared (h : t ∈ l) (ct : t.isCT = true) : ((l.foldl (fun s t => s.clearTile t f) s).el t).FacetCleared f := by
  refine foldl_of_mem (P := fun s : State => (s.el t).FacetCleared f) (fun s u h => ?_) (fun s => ?_) l s (.inr h)
  · have := (s.clearTile_el u t f).2
    split at this
    · exact this
    · rwa [this]
  · have := (s.clearTile_el t t f).2
    rwa [if_pos ⟨ct, rfl⟩] at this
theorem State.foldl_clearTile_bank (l : List Tile) (t : Tile) :
    (((l.foldl (fun s t => s.clearTile t f) s).el t).fac f).bank = ((s.el t).fac f).bank := by
  induction l generalizing s with
  | nil => rfl
  | cons u l ih => exact (ih _).trans (s.clearTile_el u t f).1
end

/-- A region in the cycle of selection, before its tiles are cleared (R194, R452). -/
def Region.selecting (g : Region) (e : BitVec 512) (idx : Nat) (f : Facet) (restore : Bool) : Region :=
  Region.setPhase
    { g with load := some ⟨e, idx, f, g.dies.map fun d => ⟨d, false, [], false⟩, .frames, restore⟩,
             lqstat := setBit g.lqstat 6 true, ctl := setBit g.ctl (4 + f.val) false,
             phc := g.phc.filter (fun x => x.1 / 4 != f.val), hopSnap := g.hopSnap.filter (fun x => x.2.2.tok.facet != f),
             tideCfg := vset g.tideCfg f TideCfg.none } f 1
theorem State.beginLoad_eq (s : State) (r : RegionId) (e : BitVec 512) (idx : Nat) (f : Facet) (restore : Bool) :
    s.beginLoad r e idx f restore = (s.rg r).tiles.foldl (fun s t => s.clearTile t f) (s.modRg r (·.selecting e idx f restore)) := by
  unfold State.beginLoad
  simp only [State.modRg_rg_same]
  rfl

/-- An eligible entry is selected where no load is in progress (R192). -/
theorem entrySelect_chosen {s : State} {r : RegionId} {e : BitVec 512} {i : Nat} {f : Facet} (chosen : (s.rg r).choose = some (e, i))
    (facet : (s.rg r).entryFacet e = some f) :
    exec (.entrySelect r) s = when_ s ((s.rg r).load.isNone && (s.rg r).valid && s.ldrok) (s.beginLoad r e i f false) := by
  simp only [exec_entrySelect, execEntrySelect, chosen, facet]
/-- A selection clears each tile of the region, and of the regions it changes its own. -/
theorem State.beginLoad_cancels (s : State) (r : RegionId) (e : BitVec 512) (i : Nat) (f : Facet) :
    CancelsWatches (s.modRg r (·.selecting e i f false)) (s.beginLoad r e i f false) := by
  rw [State.beginLoad_eq]
  exact .foldl (fun s t => s.clearTile_cancels t f) _ _
theorem State.beginLoad_rg (s : State) (r : RegionId) (e : BitVec 512) (i : Nat) (f : Facet) : let g := (s.beginLoad r e i f false).rg r
    g.load = some ⟨e, i, f, (s.rg r).dies.map fun d => ⟨d, false, [], false⟩, .frames, false⟩ ∧ g.queue = (s.rg r).queue ∧
      g.lqstat = setBit (s.rg r).lqstat 6 true ∧ g.ctl = setBit (s.rg r).ctl (4 + f.val) false := by
  have same := (s.beginLoad_cancels r e i f).regions r
  rw [State.modRg_rg_same] at same
  exact ⟨(congrArg Region.load same :), (congrArg Region.queue same :), (congrArg Region.lqstat same :), (congrArg Region.ctl same :)⟩
theorem State.beginLoad_lbusy (s : State) (r : RegionId) (e : BitVec 512) (i : Nat) (f : Facet) :
    ((s.beginLoad r e i f false).rg r).lbusy = true := by
  obtain ⟨-, -, lqstat, -⟩ := s.beginLoad_rg r e i f
  rw [Region.lbusy, lqstat]
  exact bit_setBit_same _ _ _ (by decide)
theorem State.beginLoad_floaded (s : State) (r : RegionId) (e : BitVec 512) (i : Nat) (f : Facet) :
    ((s.beginLoad r e i f false).rg r).floaded f = false := by
  obtain ⟨-, -, -, ctl⟩ := s.beginLoad_rg r e i f
  rw [Region.floaded, ctl]
  exact bit_setBit_same _ _ _ (by omega)

/-! The start of a load on a die (R193) -/

/-- What a load keeps for a die is found again after it is replaced. -/
theorem Load.ofDie_setDie {l : Load} {d : DieId} {x y : DieLoad} (h : l.ofDie d = some x) (same : y.die = x.die) :
    (l.setDie y).ofDie d = some y := by
  have keys : ((fun z : DieLoad => z.die == d) ∘ fun z => if z.die = y.die then y else z) = fun z => z.die == d := by
    funext z
    dsimp only [Function.comp]
    split
    next e => rw [e]
    · rfl
  rw [Load.ofDie] at h
  rw [Load.ofDie, Load.setDie, List.find?_map, keys, h, Option.map_some, if_pos same.symm]

/-! A load that is rejected (R195) -/

theorem State.freeLoaders_loader {s : State} {r : RegionId} {d : DieId} (h : (s.die d).loader = some r) :
    ((s.freeLoaders r).die d).loader = none := by
  rw [State.die, vget_eq_getElem] at h
  simp only [State.freeLoaders, State.die, vget_eq_getElem, Vector.getElem_map, h, if_true]
theorem State.causeRg_die (s : State) (q : RegionId) (f : Facet) (code detail : Nat) (d : DieId) :
    (s.causeRg q f code detail).die d = s.die d := by
  simp only [State.causeRg, State.notify]
  split <;> rfl
theorem State.oweCw_eq (s : State) (r : RegionId) (e : BitVec 512) (f : Facet) (ok : Bool) (code : Nat) :
    (s.oweCw r e f ok code).dies = s.dies ∧ ∃ l, (s.oweCw r e f ok code).rg r = { s.rg r with cw := l } := by
  unfold State.oweCw
  split
  · exact ⟨rfl, _, rfl⟩
  · exact ⟨rfl, _, s.modRg_rg_same r _⟩

/-- LQSTAT after a rejection: LDERR, LERRFR, LBUSY 0 and the number of entries left. -/
def Region.rejectedLqstat (g : Region) (code frame left : Nat) : Word := setFld (setBit (g.loadErr code frame).lqstat 6 false) 0 4 left
theorem Region.rejectedLqstat_lbusy (g : Region) (code frame left : Nat) : bit (g.rejectedLqstat code frame left) 6 = false :=
  (bit_setFld_other _ _ _ _ _ (by decide)).trans (bit_setBit_same _ _ _ (by decide))
theorem Region.rejectedLqstat_code (g : Region) (code frame left : Nat) : fld (g.rejectedLqstat code frame left) 7 5 = code % 2 ^ 5 := by
  rw [Region.rejectedLqstat, fld_setFld_other _ _ _ _ _ _ (by decide), fld_setBit_other _ _ _ _ _ (by decide), Region.loadErr,
    fld_setFld_other _ _ _ _ _ _ (by decide), fld_setFld_same _ _ _ _ (by decide)]
theorem Region.rejectedLqstat_frame (g : Region) (code frame left : Nat) : fld (g.rejectedLqstat code frame left) 16 24 = frame % 2 ^ 24 := by
  rw [Region.rejectedLqstat, fld_setFld_other _ _ _ _ _ _ (by decide), fld_setBit_other _ _ _ _ _ (by decide), Region.loadErr,
    fld_setFld_same _ _ _ _ (by decide)]

/-- The registers of a region whose load is rejected. -/
def Region.loadOver (g : Region) (code frame : Nat) : Region :=
  { g.loadErr code frame with load := none, lqstat := setBit (g.loadErr code frame).lqstat 6 false, stat := setBit g.stat 3 true }
theorem Region.loadOver_kept (g : Region) (code frame : Nat) : (g.loadOver code frame).queue = g.queue ∧ (g.loadOver code frame).ctl = g.ctl := by
  rw [Region.loadOver, Region.loadErr]
  exact ⟨rfl, rfl⟩
/-- A facet that was being loaded is idle (R452). -/
def Region.endLoading (g : Region) (f : Facet) : Region := if g.phase f = 1 then g.setPhase f 0 else g
theorem Region.endLoading_frame (g : Region) (f : Facet) : { g.endLoading f with phs := g.phs } = g := by
  unfold Region.endLoading
  split <;> rfl
/-- The region of a load that is rejected, but for the completion word and the notice. -/
def Region.rejected (g : Region) (l : Load) (code frame : Nat) : Region := ((g.loadOver code frame).endLoading l.facet).dropEntry l.idx
theorem Region.rejected_fields (g : Region) (l : Load) (code frame : Nat) : let g' := g.rejected l code frame; let q := g.queue.eraseIdx l.idx
    g'.load = none ∧ g'.queue = q ∧ g'.lqstat = g.rejectedLqstat code frame q.length ∧ g'.ctl = g.ctl := by
  have same := (g.loadOver code frame).endLoading_frame l.facet
  have load : ((g.loadOver code frame).endLoading l.facet).load = none := (congrArg Region.load same :)
  have queue : ((g.loadOver code frame).endLoading l.facet).queue = g.queue := (congrArg Region.queue same :).trans (g.loadOver_kept code frame).1
  have lqstat : ((g.loadOver code frame).endLoading l.facet).lqstat = setBit (g.loadErr code frame).lqstat 6 false :=
    (congrArg Region.lqstat same :)
  have ctl : ((g.loadOver code frame).endLoading l.facet).ctl = g.ctl := (congrArg Region.ctl same :).trans (g.loadOver_kept code frame).2
  simp only [Region.rejected, Region.dropEntry, Region.syncCount, Region.rejectedLqstat, load, queue, lqstat, ctl, Option.map_none, and_self]

section
variable {s : State} {r : RegionId} {l : Load} (load : (s.rg r).load = some l) (fresh : l.restore = false) (code frame : Nat)
include load fresh
/-- A load that is rejected frees its loaders, and its entry owes its notice and its completion word. -/
theorem State.reject_eq : s.reject r code frame =
    (((s.freeLoaders r).modRg r (·.rejected l code frame)).causeRg r l.facet causeConfigRejected (code + frame % 2 ^ 24 * 2 ^ 8)).oweCw r l.entry
      l.facet false code := by
  simp only [State.reject, load, fresh, Bool.false_eq_true, if_false]
  rfl
theorem State.reject_rg : let g := (s.reject r code frame).rg r; let q := (s.rg r).queue.eraseIdx l.idx
    g.load = none ∧ g.queue = q ∧ g.lqstat = (s.rg r).rejectedLqstat code frame q.length ∧ g.ctl = (s.rg r).ctl := by
  rw [State.reject_eq load fresh]
  obtain ⟨-, c, owed⟩ := State.oweCw_eq (((s.freeLoaders r).modRg r (·.rejected l code frame)).causeRg r l.facet causeConfigRejected
    (code + frame % 2 ^ 24 * 2 ^ 8)) r l.entry l.facet false code
  obtain ⟨n, w, caused⟩ := State.causeRg_rg_eq ((s.freeLoaders r).modRg r (·.rejected l code frame)) r l.facet causeConfigRejected
    (code + frame % 2 ^ 24 * 2 ^ 8) r
  rw [owed, caused, State.modRg_rg_same]
  exact (s.rg r).rejected_fields l code frame
theorem State.reject_loader {d : DieId} (mine : (s.die d).loader = some r) : ((s.reject r code frame).die d).loader = none := by
  rw [State.reject_eq load fresh, State.die, (State.oweCw_eq ..).1, ← State.die, State.causeRg_die, State.modRg_die, State.freeLoaders_loader mine]
end

/-! A frame that is taken (R194) -/

/-- Regions stay but for debug matches and notices. -/
structure RegionsStay (s s' : State) : Prop where
  rg : ∀ r, (s'.rg r).sameButDebug (s.rg r)
theorem RegionsStay.of_same {s s' : State} (h : s'.regions = s.regions) : RegionsStay s s' := ⟨fun r => by rw [State.rg, h]; rfl⟩
theorem RegionsStay.of_debug {s s' : State} (h : OnlyDebug s s') : RegionsStay s s' := ⟨h.2⟩
theorem RegionsStay.trans {a b c : State} (h : RegionsStay a b) (k : RegionsStay b c) : RegionsStay a c :=
  ⟨fun r => Region.sameButDebug_trans (h.rg r) (k.rg r)⟩
/-- A change of something else comes first. -/
theorem RegionsStay.after {a b c : State} (k : RegionsStay b c) (h : b.regions = a.regions) : RegionsStay a c := (RegionsStay.of_same h).trans k
theorem RegionsStay.ite {s a b : State} {c : Prop} [Decidable c] (ha : RegionsStay s a) (hb : RegionsStay s b) :
    RegionsStay s (if c then a else b) := by
  split
  · exact ha
  · exact hb
theorem RegionsStay.foldl {α : Type} {step : State → α → State} (h : ∀ s x, RegionsStay s (step s x)) (l : List α) (s : State) :
    RegionsStay s (l.foldl step s) := by
  induction l generalizing s with
  | nil => exact .of_same rfl
  | cons x l ih => exact (h s x).trans (ih _)
theorem RegionsStay.queue {s s' : State} (h : RegionsStay s s') (r : RegionId) : (s'.rg r).queue = (s.rg r).queue :=
  (congrArg Region.queue (show { s'.rg r with matches_ := (s.rg r).matches_, notices := (s.rg r).notices, nstat := (s.rg r).nstat } = s.rg r
    from h.rg r) :)

theorem State.dbgTag_stay (s : State) (t : Tile) (f : Facet) (space loc : Nat) (b : Bool) : RegionsStay s (s.dbgTag t f space loc b) :=
  .of_debug (State.dbgEvent_debug ..)
theorem State.lineRelease_stay (s : State) (t : Tile) (w : Nat) : RegionsStay s (s.lineRelease t w) := by
  refine .foldl (fun s f => ?_) _ s
  split
  · exact .ite (.of_same rfl) (.of_same rfl)
  · exact .of_same rfl
theorem State.dbgHbmTag_stay (s : State) (r : RegionId) (f : Facet) (pa : Nat) (b : Bool) : RegionsStay s (s.dbgHbmTag r f pa b) :=
  .foldl (fun _ _ => .ite (.of_debug (State.dbgMatch_debug ..)) (.of_same rfl)) _ s
theorem State.setTag_stay (s : State) (word : Nat) (b : Bool) (f : Facet) (r : Option RegionId) : RegionsStay s (s.setTag word b f r) := by
  refine .ite (.of_same rfl) (.after (.ite (.ite (State.dbgTag_stay ..) (.trans (State.dbgTag_stay ..) (State.lineRelease_stay ..))) ?_) rfl)
  cases r with
  | some r => exact State.dbgHbmTag_stay ..
  | none => exact .of_same rfl
theorem State.unmoor_stay (s : State) (t : Tile) (word : Nat) (full : Bool) : RegionsStay s (s.unmoor t word full) :=
  .after (.foldl (fun s (m : Moor) => .of_same (s' := s.modFac t m.facet _) rfl) _ (s.setEl t _)) rfl
theorem State.loadLocal_stay (s : State) (t : Tile) (off : Nat) (v : Word) : RegionsStay s (s.loadLocal t off v) :=
  .after (State.unmoor_stay ..) rfl
theorem State.writeCompute_stay (s : State) (t : Tile) (f : Facet) (k : BitVec 256) : RegionsStay s (s.writeCompute t f k) :=
  .ite (.of_same rfl) (.ite (.of_same rfl) (.ite (.of_same rfl) (.ite (.foldl (fun _ _ => State.loadLocal_stay ..) _ s) (.of_same rfl))))
theorem State.writeMemTile_stay (s : State) (t : Tile) (f : Facet) (k : BitVec 256) : RegionsStay s (s.writeMemTile t f k) := by
  refine .ite (.foldl (fun s j => ?_) _ s) (.of_same rfl)
  dsimp only
  generalize (s.mem.write _ _ _).setPoison _ _ = m
  exact .after (b := { s with mem := m }) (State.setTag_stay ..) rfl
theorem State.writeSwitch_stay (s : State) (t : Tile) (f : Facet) (k : BitVec 256) : RegionsStay s (s.writeSwitch t f k) :=
  .ite (.of_same rfl) (.of_same rfl)
theorem State.writeFrame_stay (s : State) (t : Tile) (f : Facet) (k : BitVec 256) : RegionsStay s (s.writeFrame t f k) := by
  have framed : RegionsStay s (if t.isCT || !frNamesTile k then s else s.modMtFac t f fun x => { x with framed := true }) :=
    .ite (.of_same rfl) (.of_same rfl)
  exact framed.trans (.ite (State.writeCompute_stay ..) (.ite (State.writeMemTile_stay ..) (.ite (State.writeSwitch_stay ..)
    (.ite (.of_same rfl) (.of_same rfl)))))

/-- The image is read at its home, which counts corrected errors (R195, R216). -/
theorem State.readImage_regions {s s1 : State} {r : RegionId} {va : Nat} {k : BitVec 256} (h : s.readImage r va = .frame k s1) :
    s1.regions = s.regions := by
  unfold State.readImage at h
  split at h
  · cases h
  · split at h
    · cases h
    · dsimp only at h
      split at h
      · cases h
      · split at h
        · split at h
          · cases h
          · rw [← (FrameRead.frame.inj h).2]
            rfl
        · split at h
          · cases h
          · rw [← (FrameRead.frame.inj h).2]
    · cases h
theorem State.frameErr_modDie (s : State) (d : DieId) (h : Die → Die) (g : Region) (f : Facet) (x : DieLoad) (k : BitVec 256) :
    (s.modDie d h).frameErr g f x k = s.frameErr g f x k := by
  unfold State.frameErr State.contentErr
  rfl
theorem State.drivesRow_regions (s : State) (t : Tile) : (s.drivesRow t).regions = s.regions := by rw [State.drivesRow]
/-- A good frame joins those of its die, and the queue keeps its entries. -/
theorem State.takeFrame_good {s : State} {r : RegionId} {l : Load} {x : DieLoad} {k : BitVec 256}
    (good : s.frameErr (s.rg r) l.facet x k = none) (more : x.frames = [] ∨ frIsEnd k = false) :
    ((s.takeFrame r l x k).rg r).load = some (l.setDie { x with frames := x.frames ++ [k] }) ∧
      ((s.takeFrame r l x k).rg r).queue = (s.rg r).queue := by
  have last : ¬(decide (x.frames ≠ []) && frIsEnd k) = true := by
    rcases more with h | h <;> simp [h]
  rw [State.takeFrame, good]
  dsimp only
  rw [if_neg last, State.modRg_rg_same]
  refine ⟨rfl, RegionsStay.queue (s := s) ?_ r⟩
  split
  · exact .after (State.writeFrame_stay ..) (s.drivesRow_regions _)
  · exact .of_same rfl

/-! The loader of a die whose load goes on (R164, R193, R194) -/
section
variable {s : State} {r : RegionId} {d : DieId} {l : Load} {x : DieLoad} (load : (s.rg r).load = some l) (mine : l.ofDie d = some x)
include load mine
theorem loadFrame_stopped (stopped : (s.rg r).fquiet l.facet = false ∨ (s.die d).tookAt = s.cycle + 1) : exec (.loadFrame r d) s = .next s := by
  simp only [exec_loadFrame, execLoadFrame, load, mine]
  refine if_pos ?_
  rcases stopped with h | h <;> simp [h]
theorem loadFrame_waits (wait : s.readImage r (descImg l.entry + 32 * x.frames.length) = .wait) : exec (.loadFrame r d) s = .next s := by
  simp only [exec_loadFrame, execLoadFrame, load, mine, wait, ite_self]

variable (started : x.started = true) (open_ : x.passed = false) (serves : (s.die d).loader = some r) (phase : l.phase = .frames)
  (quiet : (s.rg r).fquiet l.facet = true) (first : (s.die d).tookAt ≠ s.cycle + 1)
include started open_ serves phase quiet first
theorem loadFrame_rejects {c : Nat} (refused : s.readImage r (descImg l.entry + 32 * x.frames.length) = .refused c) :
    exec (.loadFrame r d) s = .next (s.reject r c x.frames.length) := by
  simp only [exec_loadFrame, execLoadFrame, load, mine, refused]
  exact if_neg (by simp [started, open_, serves, phase, quiet, first])
theorem loadFrame_takes {k : BitVec 256} {s' : State} (read : s.readImage r (descImg l.entry + 32 * x.frames.length) = .frame k s') :
    exec (.loadFrame r d) s = .next ((s'.modDie d fun y => { y with tookAt := s.cycle + 1 }).takeFrame r l x k) := by
  simp only [exec_loadFrame, execLoadFrame, load, mine, read]
  exact if_neg (by simp [started, open_, serves, phase, quiet, first])
end

/-- Settles O44: a selection marks the region and clears its tiles, a die's loader takes the load, and a frame is waited for, rejected with its
code, or taken. -/
theorem loads : Obligations.Loads := by
  refine ⟨fun s r e i f chosen facet valid verified => ⟨fun busy => ?busy, fun idle => ?select⟩,
    fun s r d l x load mine verified => ⟨fun serving => ?serving, fun idle next => ?start⟩,
    fun s r d l x load mine started open_ serves phase fresh => ?frame⟩
  case busy =>
    rw [entrySelect_chosen chosen facet]
    exact when_of_false (by simp [Option.isNone_iff_eq_none, busy])
  case select =>
    rw [entrySelect_chosen chosen facet]
    obtain ⟨load, queue, -⟩ := s.beginLoad_rg r e i f
    refine ⟨_, _, when_of_true (by simp [idle, valid, verified]), load, rfl, rfl, rfl, rfl, s.beginLoad_lbusy r e i f,
      s.beginLoad_floaded r e i f, queue, (s.beginLoad_cancels r e i f).mem, fun t member => ?_⟩
    rw [State.beginLoad_eq]
    refine ⟨State.foldl_clearTile_routes _ f member, fun ct => ?_, State.foldl_clearTile_mode _ f member⟩
    obtain ⟨disabled, islim, actlim, handlers⟩ := State.foldl_clearTile_cleared (s.modRg r (·.selecting e i f false)) f member ct
    exact ⟨disabled, islim, actlim, handlers, State.foldl_clearTile_bank _ f _ t⟩
  case serving =>
    simp only [exec_loadStart, execLoadStart, load, mine]
    exact when_of_false (by simp [Option.isNone_iff_eq_none, serving])
  case start =>
    simp only [exec_loadStart, execLoadStart, load, mine]
    refine ⟨_, l.setDie { x with started := true }, when_of_true (by simp [idle, next, verified]), ?_, ?_, Load.ofDie_setDie mine rfl,
      fun q other => ?_, rfl⟩
    · rw [State.startLoad, State.modRg_die, State.modDie_die_same]
    · rw [State.startLoad, State.modRg_rg_same]
    · rw [State.startLoad, State.modRg_rg_other _ _ _ _ other, State.modDie_rg]
  case frame =>
    refine ⟨fun stopped => loadFrame_stopped load mine stopped, fun wait => loadFrame_waits load mine wait,
      fun quiet first => ⟨fun c refused small short => ?_, fun k s1 read good more => ?_⟩⟩
    · obtain ⟨gone, queue, lqstat, ctl⟩ := State.reject_rg load fresh c x.frames.length
      refine ⟨_, loadFrame_rejects load mine started open_ serves phase quiet first refused, gone, ?_, ?_, ?_, queue, ctl,
        State.reject_loader load fresh _ _ serves⟩
      · rw [Region.lbusy, lqstat, Region.rejectedLqstat_lbusy]
      · rw [lqstat, Region.rejectedLqstat_code]
        exact Nat.mod_eq_of_lt small
      · rw [lqstat, Region.rejectedLqstat_frame]
        exact Nat.mod_eq_of_lt short
    · have kept : s1.rg r = s.rg r := congrArg (Vector.get · r) (State.readImage_regions read)
      obtain ⟨taken, queue⟩ := State.takeFrame_good (s := s1.modDie d fun y => { y with tookAt := s.cycle + 1 })
        ((s1.frameErr_modDie ..).trans good) more
      exact ⟨_, _, _, loadFrame_takes load mine started open_ serves phase quiet first read, taken, Load.ofDie_setDie mine rfl, rfl, phase,
        queue.trans (congrArg Region.queue kept)⟩

end Sys2Proof.Machine
end

section
/-! SUPPORT. The fabric (R155 to R159, R169, R198, R387): the moves that settle without contention, and what the effects of a move leave. -/

namespace Sys2Proof.Machine

theorem exec_routeAdvance (s : State) : exec .routeAdvance s = execRouteAdvance s := rfl
theorem exec_ingressAccept (r : RegionId) (p : Fin 64) (s : State) : exec (.ingressAccept r p) s = execIngressAccept r p s := rfl
theorem exec_boundaryArrival (t : Tile) (e : Fin 32) (s : State) : exec (.boundaryArrival t e) s = execBoundaryArrival t e s := rfl
theorem exec_creditReturn (t : Tile) (e : Fin 32) (s : State) : exec (.creditReturn t e) s = execCreditReturn t e s := rfl
theorem exec_busDelivery (d : DieId) (b : BusId) (s : State) : exec (.busDelivery d b) s = execBusDelivery d b s := rfl
theorem exec_delayLineArrival (r : RegionId) (p : Fin 64) (s : State) : exec (.delayLineArrival r p) s = execDelayLineArrival r p s := rfl

/-! Hops, queues and regions of tiles -/

@[simp] theorem State.modHop_hop_same (s : State) (t : Tile) (e : Nat) (g : Hop → Hop) : (s.modHop t e g).hop t e = g (s.hop t e) := by
  simp only [State.modHop, State.hop, State.setSw_sw_same, tget_tset_same]
theorem State.modHop_hop_other (s : State) (t : Tile) (e i : Nat) (g : Hop → Hop) (h : i ≠ e) : (s.modHop t e g).hop t i = s.hop t i := by
  simp only [State.modHop, State.hop, State.setSw_sw_same, tget_tset_other _ _ _ _ _ h]
theorem State.modHop_slots (s : State) (t : Tile) (e : Nat) (g : Hop → Hop) (f : Facet) (i : Nat) :
    ((s.modHop t e g).sw t).slots f i = (s.sw t).slots f i := by
  simp only [State.modHop, State.setSw_sw_same]
  rfl
@[simp] theorem State.modInq_inq_same (s : State) (t : Tile) (f : Facet) (p : Fin 16) (g : List QTok → List QTok) :
    (s.modInq t f p g).inq t f p = g (s.inq t f p) := by
  unfold State.modInq State.inq
  cases t.isCT <;> simp
theorem State.modInq_outq (s : State) (t : Tile) (f : Facet) (p q : Fin 16) (g : List QTok → List QTok) :
    (s.modInq t f p g).outq t q = s.outq t q := by
  unfold State.modInq State.outq
  cases t.isCT <;> simp [Element.modFac, MemTile.modFac]
/-- Only elements and memory tiles hold queues of ports. -/
theorem State.modInq_nodes (s : State) (t : Tile) (f : Facet) (p : Fin 16) (g : List QTok → List QTok) : OnlyNodes s (s.modInq t f p g) :=
  .ite _ (s.modFac_nodes ..) (s.modMtFac_nodes ..)
/-- The region of a tile is read off the rectangles of the regions. -/
theorem State.regionOf_congr {s s' : State} (h : ∀ q, (s'.rg q).geom = (s.rg q).geom ∧ (s'.rg q).new_ = (s.rg q).new_) (t : Tile) :
    s'.regionOf t = s.regionOf t := by
  unfold State.regionOf
  congr 1
  funext q
  obtain ⟨geom, new_⟩ := h q
  rw [Region.has, Region.has, geom, new_]

theorem State.effFacet_congr {s s' : State} {t : Tile} (h : s'.regionOf t = s.regionOf t) (k : Token) : s'.effFacet t k = s.effFacet t k := by
  rw [State.effFacet, State.effFacet, h]

/-! What a count of a link leaves alone (R446) -/

/-- Of the region home, link counts, debug matches and notices change; every other region stays. -/
structure OnlyCounts (home : Option RegionId) (s s' : State) : Prop where
  frame : { s' with regions := s.regions, out := s.out } = s
  fields : ∀ q, let g := s.rg q
    { s'.rg q with dtbcnt := g.dtbcnt, matches_ := g.matches_, notices := g.notices, nstat := g.nstat } = g
  others : ∀ q, home ≠ some q → s'.rg q = s.rg q

section
variable {home : Option RegionId} {s s' : State}
theorem OnlyCounts.refl (home : Option RegionId) (s : State) : OnlyCounts home s s := ⟨rfl, fun _ => rfl, fun _ _ => rfl⟩
theorem OnlyCounts.trans {c : State} (h : OnlyCounts home s s') (k : OnlyCounts home s' c) : OnlyCounts home s c where
  frame := by rw [← h.frame, ← k.frame]
  fields q := by
    have first := h.fields q
    rw [← k.fields q] at first
    exact first
  others q hq := (k.others q hq).trans (h.others q hq)
theorem OnlyCounts.foldl {α : Type} {step : State → α → State} (h : ∀ s x, OnlyCounts home s (step s x)) (l : List α) (s : State) :
    OnlyCounts home s (l.foldl step s) := by
  induction l generalizing s with
  | nil => exact .refl home s
  | cons x l ih => exact (h s x).trans (ih _)

variable (h : OnlyCounts home s s')
include h
theorem OnlyCounts.inq (t : Tile) (f : Facet) (p : Fin 16) : s'.inq t f p = s.inq t f p := (congrArg (State.inq · t f p) h.frame :)
theorem OnlyCounts.outq (t : Tile) (p : Fin 16) : s'.outq t p = s.outq t p := (congrArg (State.outq · t p) h.frame :)
theorem OnlyCounts.sw (t : Tile) : s'.sw t = s.sw t := (congrArg (State.sw · t) h.frame :)
theorem OnlyCounts.cycle : s'.cycle = s.cycle := (congrArg State.cycle h.frame :)
theorem OnlyCounts.mem : s'.mem = s.mem := (congrArg State.mem h.frame :)
theorem OnlyCounts.dies : s'.dies = s.dies := (congrArg State.dies h.frame :)
theorem OnlyCounts.regionOf (t : Tile) : s'.regionOf t = s.regionOf t :=
  State.regionOf_congr (fun q => ⟨(congrArg Region.geom (h.fields q) :), (congrArg Region.new_ (h.fields q) :)⟩) t
end

theorem State.causeRg_rg_other (s : State) {r q : RegionId} (f : Facet) (code detail : Nat) (h : q ≠ r) :
    (s.causeRg r f code detail).rg q = s.rg q := by
  simp only [State.causeRg, State.notify]
  split
  · exact s.setRg_rg_other r q _ h
  · exact s.setRg_rg_other r q _ h
theorem State.dbgMatch_counts (s : State) (r : RegionId) (b x : Nat) (note : Bool) (c k : Nat) :
    OnlyCounts (some r) s (s.dbgMatch r b x note c k) := by
  obtain ⟨frame, same⟩ := s.dbgMatch_debug r b x note c k
  refine ⟨frame, fun q => (congrArg (fun g : Region => { g with dtbcnt := (s.rg q).dtbcnt }) (same q) :), fun q other => ?_⟩
  have hq : q ≠ r := fun e => other (congrArg some e.symm)
  cases note
  · exact s.modRg_rg_other r q (fun g => { g with matches_ := g.matches_ ++ [⟨b, s.cycle + 2 + x⟩] }) hq
  · exact (State.causeRg_rg_other _ _ _ _ hq).trans (s.modRg_rg_other r q _ hq)
theorem State.countLink_counts (s : State) (t : Tile) (f : Facet) (e : Nat) (k : Token) :
    OnlyCounts (s.regionOf t) s (s.countLink t f e k) := by
  have put (s : State) (r : RegionId) (l : Region → Tab Word) : OnlyCounts (some r) s (s.modRg r fun g => { g with dtbcnt := l g }) := by
    refine ⟨rfl, fun q => ?_, fun q other => s.modRg_rg_other r q _ fun e => other (congrArg some e.symm)⟩
    by_cases hq : q = r
    · rw [hq, State.modRg_rg_same]
    · rw [State.modRg_rg_other _ _ _ _ hq]
  unfold State.countLink
  split
  · exact .refl _ s
  next r home =>
    rw [home]
    split
    · exact .refl _ s
    · refine .foldl (fun s j => ?_) _ s
      dsimp only
      split
      · split
        · exact (put s r _).trans (State.dbgMatch_counts ..)
        · exact put s r _
      · exact .refl _ s

/-! What the effects of a move do (R155, R156) -/

/-- A token that an entry has counted enters an input port. -/
theorem State.applyEffs_port (s : State) (t : Tile) (g : Facet) (e : Nat) (q : Fin 16) (k : Token) : ∃ s1, OnlyCounts (s.regionOf t) s s1 ∧
    s.applyEffs [.count t g e k, .port t q k] = s1.modInq t k.facet q (· ++ [⟨k, s.cycle, none⟩]) := by
  refine ⟨s.countLink t g e k, s.countLink_counts .., ?_⟩
  rw [← (s.countLink_counts t g e k).cycle]
  rfl
/-- A token that stays in a die enters the buffer of its hop. -/
theorem State.applyEff_hop {s : State} {t : Tile} {e : Nat} {k : Token} (slots : (s.sw t).slots (s.effFacet t k) e ≠ 0)
    (inside : crosses t e = false) (org : Option (Nat × Nat)) :
    ((s.applyEff (.hop t e k org)).hop t e).buf = (s.hop t e).buf ++ [⟨k, s.cycle, org⟩] ∧
      { s.applyEff (.hop t e k org) with switches := s.switches } = s := by
  have same : ((s.modHop t e fun h => { h with last := s.cycle + 1 }).sw t).slots
      ((s.modHop t e fun h => { h with last := s.cycle + 1 }).effFacet t k) e ≠ 0 := by
    rw [State.modHop_slots]
    exact slots
  simp only [State.applyEff]
  rw [if_neg same]
  refine ⟨?_, rfl⟩
  simp only [State.modHop_hop_same, inside, Bool.false_eq_true, if_false]
  rfl
/-- A port notes the cycle in which a token drained from it (R29). -/
def State.noteDrained (s : State) (t : Tile) (p : Fin 16) : State :=
  if (s.outq t p).head?.any (fun x => !x.tok.isMark) then
    (if t.isCT then s.modEl t fun e => { e with drained := vset e.drained p (s.cycle + 1) }
     else s.modMt t fun m => { m with drained := vset m.drained p (s.cycle + 1) })
  else s
theorem State.noteDrained_queues (s : State) (t : Tile) (p : Fin 16) :
    (s.noteDrained t p).outq t p = s.outq t p ∧ ∀ f q, (s.noteDrained t p).inq t f q = s.inq t f q := by
  unfold State.noteDrained
  split
  · cases ct : t.isCT <;> simp [State.outq, State.inq, ct, Element.fac, MemTile.fac]
  · exact ⟨rfl, fun _ _ => rfl⟩
theorem State.noteDrained_nodes (s : State) (t : Tile) (p : Fin 16) : OnlyNodes s (s.noteDrained t p) :=
  .ite _ (.ite _ (s.modEl_nodes ..) (s.modMt_nodes ..)) (.refl s)
theorem State.modOutq_queues (s : State) (t : Tile) (p : Fin 16) (g : List OTok → List OTok) :
    (s.modOutq t p g).outq t p = g (s.outq t p) ∧ ∀ f q, (s.modOutq t p g).inq t f q = s.inq t f q := by
  cases ct : t.isCT <;> simp [State.modOutq, State.outq, State.inq, ct, Element.fac, MemTile.fac]
theorem State.modOutq_nodes (s : State) (t : Tile) (p : Fin 16) (g : List OTok → List OTok) : OnlyNodes s (s.modOutq t p g) :=
  .ite _ (s.modEl_nodes ..) (s.modMt_nodes ..)
/-- The head of an output queue leaves it, and the queues of input ports stay. -/
theorem State.leavePlace_outq (s : State) (t : Tile) (p : Fin 16) (o : Offer) : let s' := s.leavePlace (.outq t p) o
    s'.outq t p = (s.outq t p).drop 1 ∧ (∀ f q, s'.inq t f q = s.inq t f q) ∧
      { s' with elements := s.elements, mts := s.mts, moved := s.moved } = s := by
  let s0 : State := { s with moved := s.moved ++ [.outq t p] }
  obtain ⟨noted, inq⟩ := s0.noteDrained_queues t p
  obtain ⟨left, inq'⟩ := (s0.noteDrained t p).modOutq_queues t p (·.drop 1)
  refine ⟨left.trans (by rw [noted]; rfl), fun f q => (inq' f q).trans (inq f q), ?_⟩
  have nodes : OnlyNodes s0 ((s0.noteDrained t p).modOutq t p (·.drop 1)) := (s0.noteDrained_nodes t p).trans (State.modOutq_nodes ..)
  exact (congrArg (fun x : State => { x with moved := s.moved }) nodes :)

/-! Moves that nothing contests (R155, R156) -/

/-- An input port with no token of the facet has room. -/
theorem State.portRoom_of_empty {s : State} {t : Tile} {p : Fin 16} {k : Token} (moving : s.tileFrozen t = false) (empty : s.inq t k.facet p = []) :
    s.portRoom t p k = true := by
  have room : 0 < inCap t p := by
    unfold inCap
    split <;> decide
  simp [State.portRoom, moving, empty, dataIn, room]
/-- A hop with slots that holds nothing has room. -/
theorem State.hopRoom_of_empty {s : State} {t : Tile} {e n : Nat} (k : Token) (inside : crosses t e = false) (slots : 0 < n)
    (empty : s.hop t e = Hop.empty) : s.hopRoom t e n k false = true := by
  simp [State.hopRoom, empty, Hop.empty, inside, dataIn, slots]

theorem State.settle_entry_port {s : State} {t : Tile} {q : Fin 16} {x : QTok} (n : Nat) (p : Place) (g : Facet)
    (room : s.portRoom t q x.tok = true) :
    s.settle (n + 1) (.entry p t g (32 + q.val) x) = some [.count t g (32 + q.val) x.tok, .port t q x.tok] := by
  have port : Fin.ofNat 16 (32 + q.val - 32) = q := by rw [Nat.add_sub_cancel_left, Fin.ofNat_val_eq_self]
  rw [State.settle, if_pos (Nat.le_add_right ..)]
  dsimp only
  rw [port, if_pos room]
theorem State.settle_entry_hop {s : State} {t : Tile} {g : Facet} {e : Nat} (n : Nat) (p : Place) (x : QTok) (hop : e < 32)
    (moving : s.tileFrozen t = false) (inside : crosses t e = false) (slots : 0 < (s.sw t).slots g e) (empty : s.hop t e = Hop.empty)
    (alone : ∀ h, h ≠ g → (s.sw t).sel h e = 0x3F) :
    s.settle (n + 1) (.entry p t g e x) = some [.count t g e x.tok, .hop t e x.tok x.org] := by
  have open_ : ¬(s.tileFrozen t || decide (s.cycle < (s.hop t e).last)) = true := by simp [moving, empty, Hop.empty]
  have rivals (l : List (Place × QTok)) (h : Facet) (member : h ∈ (List.finRange 4).filter (· != g)) :
      (if (decide ((s.sw t).sel h e = 0x3F) || (s.regionOf t).isNone) = true then [] else l) = [] :=
    if_pos (by simp [alone h (by simpa using (List.mem_filter.1 member).2)])
  rw [State.settle, if_neg (Nat.not_le.2 hop), if_neg open_]
  dsimp only
  rw [List.flatMap_eq_nil_iff.2 fun h member => rivals _ h member, List.any_nil, if_neg Bool.false_ne_true, if_neg slots.ne',
    if_pos (State.hopRoom_of_empty x.tok inside slots empty)]
/-- A token that one entry alone selects moves as that entry settles. -/
theorem State.settle_into {s : State} {n : Nat} {p : Place} {t : Tile} {src e : Nat} {x : QTok} {l : List Eff}
    (only : (s.sw t).users (s.effFacet t x.tok) 0 48 src = [e]) (entry : s.settle n (.entry p t (s.effFacet t x.tok) e x) = some l) :
    s.settle (n + 1) (.into p t src x) = some l := by
  rw [State.settle, only]
  simp [allOf, entry]
/-- A token that one input port alone selects enters it. -/
theorem State.settle_into_port {s : State} {t : Tile} {src : Nat} {q : Fin 16} {x : QTok} (n : Nat) (p : Place)
    (only : (s.sw t).users (s.effFacet t x.tok) 0 48 src = [32 + q.val]) (room : s.portRoom t q x.tok = true) :
    s.settle (n + 2) (.into p t src x) = some [.count t (s.effFacet t x.tok) (32 + q.val) x.tok, .port t q x.tok] :=
  State.settle_into only (State.settle_entry_port n p _ room)

theorem sealed_plain {l : List Eff} (h : l.any Eff.isOverflow = false) : sealed l = l := if_neg (by simp [h])
/-- The head of an output queue moves as its token enters the tile's switchbox. -/
theorem State.settle_outq {s : State} {n : Nat} {t : Tile} {p : Fin 16} {x : QTok} {l : List Eff} (head : s.headOf (.outq t p) = some x)
    (into : s.settle n (.into (.outq t p) t (0x20 + p.val) x) = some l) (plain : l.any Eff.isOverflow = false) :
    s.settle (n + 1) (.leave (.outq t p)) = some (.leave (.outq t p) .track :: l) := by
  rw [State.settle]
  · simp only [head, into, Option.map_some]
    rw [sealed_plain (by rw [List.any_cons, plain]; rfl)]
  · exact fun _ _ h => by cases h
theorem State.moveOf_eq (s : State) (p : Place) : s.moveOf p = s.settle (65533 + 3) (.leave p) := rfl

section
variable {s : State} {t : Tile} {p : Fin 16} {x : OTok} (queue : s.outq t p = [x])
include queue
/-- A token that may leave its output queue is offered (R124, R156). -/
theorem State.headOf_outq (moving : s.tileFrozen t = false) (fresh : s.hasMoved (.outq t p) = false) (entered : x.entered < s.cycle)
    (free : x.wait = []) : s.headOf (.outq t p) = some ⟨x.tok, x.entered, none⟩ := by
  rw [State.headOf, fresh, if_neg Bool.false_ne_true, moving, if_neg Bool.false_ne_true, queue]
  exact if_pos ⟨entered, by rw [free]; rfl⟩
end

section
variable {s : State} {t : Tile} {p : Fin 16} {l : List Eff} (move : s.moveOf (.outq t p) = some (.leave (.outq t p) .track :: l)) (places : s.places = [.outq t p])
include move places
/-- Where one output queue holds the only tokens of the fabric, its move is what the cycle does (R156). -/
theorem routeAdvance_outq (inside : throughSite l = false) :
    exec .routeAdvance s = .next ((s.leavePlace (.outq t p) .track).applyEffs l) := by
  have advance : s.advance (.outq t p) = (s.leavePlace (.outq t p) .track).applyEffs l := by
    rw [State.advance, move]
    exact if_neg (by simp [throughSite] at inside ⊢; exact inside)
  rw [exec_routeAdvance, execRouteAdvance, places, List.foldl_cons, List.foldl_nil, List.foldl_cons, List.foldl_nil, advance]
  rfl
end

/-! The steps of the fabric -/

section
variable {s : State} {t : Tile} {p : Fin 16} {x : OTok} {e : Nat} (places : s.places = [.outq t p]) (moving : s.tileFrozen t = false)
  (queue : s.outq t p = [x]) (fresh : s.hasMoved (.outq t p) = false) (entered : x.entered < s.cycle) (free : x.wait = [])
  (only : (s.sw t).users (s.effFacet t x.tok) 0 48 (0x20 + p.val) = [e])
include places moving queue fresh entered free only
theorem routeAdvance_hop (hop : e < 32) (inside : crosses t e = false) (slots : 0 < (s.sw t).slots (s.effFacet t x.tok) e)
    (empty : s.hop t e = Hop.empty) (alone : ∀ g, g ≠ s.effFacet t x.tok → (s.sw t).sel g e = 0x3F) :
    ∃ s', exec .routeAdvance s = .next s' ∧ s'.outq t p = [] ∧ (s'.hop t e).buf = [⟨x.tok, s.cycle, none⟩] ∧ s'.mem = s.mem := by
  have head := State.headOf_outq queue moving fresh entered free
  have move : s.moveOf (.outq t p) = some (.leave (.outq t p) .track :: [.count t (s.effFacet t x.tok) e x.tok, .hop t e x.tok none]) := by
    rw [State.moveOf_eq]
    exact State.settle_outq head (State.settle_into only (State.settle_entry_hop _ _ _ hop moving inside slots empty alone)) rfl
  obtain ⟨left, -, nodes⟩ := s.leavePlace_outq t p .track
  have counted := (s.leavePlace (.outq t p) .track).countLink_counts t (s.effFacet t x.tok) e x.tok
  have sw := (counted.sw t).trans (congrArg (State.sw · t) nodes :)
  have facet := State.effFacet_congr ((counted.regionOf t).trans (congrArg (State.regionOf · t) nodes :)) x.tok
  have cycle := counted.cycle.trans (congrArg State.cycle nodes :)
  obtain ⟨buf, frame⟩ := State.applyEff_hop (k := x.tok) (by rw [sw, facet]; exact slots.ne') inside none
  refine ⟨_, routeAdvance_outq move places rfl, ?_, buf.trans ?_, ?_⟩
  · refine (congrArg (State.outq · t p) frame :).trans ((counted.outq t p).trans (left.trans ?_))
    rw [queue]
    rfl
  · rw [State.hop, sw, ← State.hop, empty, cycle]
    rfl
  · exact (congrArg State.mem frame :).trans (counted.mem.trans (congrArg State.mem nodes :))
theorem routeAdvance_port (q : Fin 16) (port : e = 32 + q.val) (empty : s.inq t x.tok.facet q = []) :
    ∃ s', exec .routeAdvance s = .next s' ∧ s'.outq t p = [] ∧ s'.inq t x.tok.facet q = [⟨x.tok, s.cycle, none⟩] ∧ s'.mem = s.mem := by
  subst port
  have head := State.headOf_outq queue moving fresh entered free
  have move : s.moveOf (.outq t p) =
      some (.leave (.outq t p) .track :: [.count t (s.effFacet t x.tok) (32 + q.val) x.tok, .port t q x.tok]) := by
    rw [State.moveOf_eq]
    exact State.settle_outq head (State.settle_into_port _ _ only (State.portRoom_of_empty moving empty)) rfl
  obtain ⟨left, inq, nodes⟩ := s.leavePlace_outq t p .track
  obtain ⟨s1, counted, effs⟩ := (s.leavePlace (.outq t p) .track).applyEffs_port t (s.effFacet t x.tok) (32 + q.val) q x.tok
  have cycle : (s.leavePlace (.outq t p) .track).cycle = s.cycle := (congrArg State.cycle nodes :)
  refine ⟨_, routeAdvance_outq move places rfl, ?_⟩
  rw [effs, State.modInq_outq, State.modInq_inq_same, counted.outq, counted.inq, left, inq, queue, empty, cycle]
  exact ⟨rfl, rfl, (State.modInq_nodes ..).mem.trans (counted.mem.trans (congrArg State.mem nodes :))⟩
end

/-! Arrivals over boundaries, buses and delay lines (R157, R159, R387) -/

/-- A token that an entry has counted is alone in an input port that was empty. -/
theorem State.applyEffs_port_alone {s : State} {t : Tile} {q : Fin 16} {k : Token} (g : Facet) (e : Nat) (empty : s.inq t k.facet q = []) :
    ∃ s', s.applyEffs [.count t g e k, .port t q k] = s' ∧ s'.inq t k.facet q = [⟨k, s.cycle, none⟩] ∧ s'.mem = s.mem ∧ s'.dies = s.dies ∧
      ∃ c, OnlyCounts (s.regionOf t) s c ∧ ∀ r, s'.rg r = c.rg r := by
  obtain ⟨c, counted, effs⟩ := s.applyEffs_port t g e q k
  have nodes := c.modInq_nodes t k.facet q (· ++ [⟨k, s.cycle, none⟩])
  refine ⟨_, effs, ?_, nodes.mem.trans counted.mem, (congrArg State.dies nodes :).trans counted.dies, c, counted, nodes.rg⟩
  rw [State.modInq_inq_same, counted.inq, empty]
  rfl

theorem boundaryArrival_clause (s : State) (t : Tile) (e : Fin 32) (x : QTok) (l : List QTok) (flight : (s.hop t e.val).flight = x :: l)
    (moving : s.tileFrozen (offersAt t e.val) = false) :
    (s.cycle < x.entered → exec (.boundaryArrival t e) s = .next s) ∧
    (x.entered ≤ s.cycle → ∃ s' y, exec (.boundaryArrival t e) s = .next s' ∧ (s'.hop t e.val).flight = l ∧
      (s'.hop t e.val).buf = (s.hop t e.val).buf ++ [y] ∧ y.tok = x.tok ∧ y.org = x.org ∧ { s' with switches := s.switches } = s ∧
      (∀ i, i ≠ e.val → s'.hop t i = s.hop t i)) := by
  rw [exec_boundaryArrival, execBoundaryArrival, flight]
  refine ⟨fun early => when_of_false (by simp [early]), fun due => ⟨_, { x with entered := s.cycle - 1 }, when_of_true (by simp [due, moving]),
    ?_, ?_, rfl, rfl, rfl, fun i hi => State.modHop_hop_other _ _ _ _ _ hi⟩⟩
  · rw [State.modHop_hop_same]
  · rw [State.modHop_hop_same]
theorem creditReturn_clause (s : State) (t : Tile) (e : Fin 32) (c : Nat) (l : List Nat) (returning : (s.hop t e.val).returning = c :: l) :
    (s.cycle < c → exec (.creditReturn t e) s = .next s) ∧
    (c ≤ s.cycle → ∃ s', exec (.creditReturn t e) s = .next s' ∧ s'.hop t e.val = { s.hop t e.val with returning := l } ∧
      { s' with switches := s.switches } = s ∧ (∀ i, i ≠ e.val → s'.hop t i = s.hop t i)) := by
  rw [exec_creditReturn, execCreditReturn, returning]
  exact ⟨fun early => when_of_false (by simp [early]), fun due => ⟨_, when_of_true (by simp [due]), State.modHop_hop_same .., rfl,
    fun i hi => State.modHop_hop_other _ _ _ _ _ hi⟩⟩

theorem tget_keep {α : Type} (m : Tab (List α)) (k : Nat) (l : List α) (rising : risingKeys m = true) :
    tget (if l.isEmpty then tdel m k else tset m k l) k [] = l := by
  cases l with
  | nil => exact tget_tdel_same m k [] rising
  | cons x l => exact tget_tset_same m k (x :: l) []
theorem State.setBus_busQueue {s : State} {d : DieId} (rows : risingKeys (s.die d).rowBus = true) (cols : risingKeys (s.die d).colBus = true)
    (b : BusId) (l : List BusTok) : (s.setBus d b l).busQueue d b = l := by
  cases b with
  | row y =>
    simp only [State.setBus, State.busQueue, State.modDie_die_same]
    exact tget_keep _ _ l rows
  | col c =>
    simp only [State.setBus, State.busQueue, State.modDie_die_same]
    exact tget_keep _ _ l cols
theorem State.setBus_dies (s : State) (d : DieId) (b : BusId) (l : List BusTok) : { s.setBus d b l with dies := s.dies } = s := by
  cases b <;> rfl
theorem State.busQueue_congr {s s' : State} (h : s'.dies = s.dies) {d : DieId} {b : BusId} : s'.busQueue d b = s.busQueue d b := by
  unfold State.busQueue State.die
  rw [h]

section
variable {s : State} {d : DieId} {b : BusId} {x : BusTok} {l : List BusTok} (queue : s.busQueue d b = x :: l)
include queue
theorem busDelivery_early (early : s.cycle < x.at_ + 2) : exec (.busDelivery d b) s = .next s := by
  rw [exec_busDelivery, execBusDelivery, queue]
  exact when_of_false (by simp [early])
theorem busDelivery_driven (driven : s.turns.used.contains (busTurn d b) = true) : exec (.busDelivery d b) s = .next s := by
  rw [exec_busDelivery, execBusDelivery, queue]
  exact when_of_false (by rw [driven, Bool.not_true, Bool.and_false])

variable (due : x.at_ + 2 ≤ s.cycle) (idle : s.turns.used.contains (busTurn d b) = false)
include due idle
/-- A token that no tile takes leaves the bus. -/
theorem busDelivery_untaken (rows : risingKeys (s.die d).rowBus = true) (cols : risingKeys (s.die d).colBus = true)
    (untaken : (busTiles d b).filter (s.busTakes b x) = []) : ∃ s', exec (.busDelivery d b) s = .next s' ∧
      s'.busQueue d b = l.map (fun y => { y with at_ := s.cycle }) ∧ { s' with dies := s.dies } = s := by
  have copies : s.busCopies d b x = [] := by rw [State.busCopies, untaken, List.flatMap_nil]
  refine ⟨s.setBus d b (l.map fun y => { y with at_ := s.cycle }), ?_, State.setBus_busQueue rows cols b _, s.setBus_dies d b _⟩
  rw [exec_busDelivery, execBusDelivery, queue]
  dsimp only
  rw [copies]
  exact when_of_true (by rw [decide_eq_true due, idle]; rfl)
/-- A token that one input port of one tile takes enters it. -/
theorem busDelivery_taken (rows : risingKeys (s.die d).rowBus = true) (cols : risingKeys (s.die d).colBus = true) {t : Tile} {e : Nat}
    (taken : (busTiles d b).filter (s.busTakes b x) = [t]) (moving : s.tileFrozen t = false)
    (only : (s.sw t).users (s.effFacet t x.tok) 32 16 (if busIsRow b then 0x30 else 0x31) = [e])
    (empty : s.inq t x.tok.facet (Fin.ofNat 16 (e - 32)) = []) :
    ∃ s', exec (.busDelivery d b) s = .next s' ∧ s'.inq t x.tok.facet (Fin.ofNat 16 (e - 32)) = [⟨x.tok, s.cycle, none⟩] ∧
      s'.busQueue d b = l.map (fun y => { y with at_ := s.cycle }) ∧ s'.mem = s.mem := by
  have copies : s.busCopies d b x = [.count t (s.effFacet t x.tok) e x.tok, .port t (Fin.ofNat 16 (e - 32)) x.tok] := by
    rw [State.busCopies, taken, List.flatMap_singleton]
    dsimp only
    rw [only]
    rfl
  have room := State.portRoom_of_empty moving empty
  let left := s.setBus d b (l.map fun y => { y with at_ := s.cycle })
  have frame : { left with dies := s.dies } = s := s.setBus_dies d b _
  have cycle : left.cycle = s.cycle := (congrArg State.cycle frame :)
  obtain ⟨s', effs, inq, mem, dies, -⟩ := State.applyEffs_port_alone (s := left) (s.effFacet t x.tok) e
    ((congrArg (State.inq · t x.tok.facet (Fin.ofNat 16 (e - 32))) frame :).trans empty)
  refine ⟨s', ?_, inq.trans (by rw [cycle]), ?_, mem.trans (congrArg State.mem frame :)⟩
  · rw [exec_busDelivery, execBusDelivery, queue]
    dsimp only
    rw [copies, ← effs]
    exact when_of_true (by simp only [due, idle, room, List.all_cons, List.all_nil, decide_true, Bool.and_self, Bool.not_false])
  · exact (State.busQueue_congr dies).trans (State.setBus_busQueue rows cols b _)
end

section
variable {s : State} {r : RegionId} {p : Fin 64}
theorem delayLineArrival_empty (line : tget (s.rg r).delay p.val [] = []) : exec (.delayLineArrival r p) s = .next s := by
  rw [exec_delayLineArrival, execDelayLineArrival, line]
variable {x : QTok} {l : List QTok} (line : tget (s.rg r).delay p.val [] = x :: l)
include line
theorem delayLineArrival_early (early : s.cycle < x.entered) : exec (.delayLineArrival r p) s = .next s := by
  rw [exec_delayLineArrival, execDelayLineArrival, line]
  exact if_pos (.inl early)
/-- A token that is due enters the one input port of the mirror that selects the site's track. -/
theorem delayLineArrival_port {q : Fin 16} {m : Tile} (mirror : m = ⟨(siteTile ((s.rg r).ingOf p.val)).x + 2, (siteTile ((s.rg r).ingOf p.val)).y⟩)
    (due : x.entered ≤ s.cycle) (running : s.halted r = false) (moving : s.tileFrozen m = false) (empty : s.inq m x.tok.facet q = [])
    (only : (s.sw m).users (s.effFacet m x.tok) 0 48 (siteTrack ((s.rg r).ingOf p.val)) = [32 + q.val]) :
    ∃ s', exec (.delayLineArrival r p) s = .next s' ∧ s'.inq m x.tok.facet q = [⟨x.tok, s.cycle, none⟩] ∧ tget (s'.rg r).delay p.val [] = l ∧
      s'.mem = s.mem := by
  let left := s.modRg r fun g => { g with delay := tset g.delay p.val l }
  have settled : s.settle settleFuel (.into (.site r p.val) m (siteTrack ((s.rg r).ingOf p.val)) { tok := x.tok, entered := 0 }) =
      some [.count m (s.effFacet m x.tok) (32 + q.val) x.tok, .port m q x.tok] :=
    State.settle_into_port 65534 _ only (State.portRoom_of_empty moving empty)
  obtain ⟨s', effs, inq, mem, -, c, counted, same⟩ := State.applyEffs_port_alone (s := left) (s.effFacet m x.tok) (32 + q.val) empty
  refine ⟨s', ?_, inq, ?_, mem⟩
  · subst mirror
    rw [exec_delayLineArrival, execDelayLineArrival, line]
    dsimp only
    rw [if_neg (by simp [due, running, moving]), settled, ← effs]
  · rw [same, (congrArg Region.delay (counted.fields r) :), State.modRg_rg_same]
    exact tget_tset_same ..
end

theorem fabricMoves : FabricMoves := by
  refine ⟨fun s t p x e places moving queue fresh entered free only => ⟨?_, ?_⟩, boundaryArrival_clause, creditReturn_clause,
    fun s d b x l queue rows cols => ⟨busDelivery_early queue, busDelivery_driven queue, fun due idle => busDelivery_untaken queue due idle rows cols,
      fun t e due idle => busDelivery_taken queue due idle rows cols⟩,
    fun s r p => delayLineArrival_empty, fun s r p x l q line => ⟨delayLineArrival_early line, delayLineArrival_port line rfl⟩⟩
  · exact routeAdvance_hop places moving queue fresh entered free only
  · exact routeAdvance_port places moving queue fresh entered free only

/-! A seed enters at its site (R167, R169, R198) -/

@[simp] theorem Token.stamp_facet (k : Token) (f : Facet) : (k.stamp f).facet = f := by
  rw [Token.facet, Token.stamp, fld_setFld_same _ _ _ _ (by decide), Nat.mod_eq_of_lt (show f.val < 2 ^ 2 from f.isLt)]
  exact Fin.ofNat_val_eq_self f
@[simp] theorem Token.stamp_isMark (k : Token) (f : Facet) : (k.stamp f).isMark = k.isMark := by
  rw [Token.isMark, Token.kind, Token.stamp, fld_setFld_other _ _ _ _ _ _ (.inl (by decide))]
  rfl

/-- Of the regions only r changes, its rectangles apart, and besides it what has moved in this cycle. -/
structure OnlySite (r : RegionId) (s s' : State) : Prop where
  frame : { s' with regions := s.regions, moved := s.moved } = s
  others : ∀ o, o ≠ r → s'.rg o = s.rg o
  rectangles : (s'.rg r).geom = (s.rg r).geom ∧ (s'.rg r).new_ = (s.rg r).new_

section
variable {r : RegionId} {s s' : State}
theorem OnlySite.trans {c : State} (h : OnlySite r s s') (k : OnlySite r s' c) : OnlySite r s c where
  frame := by rw [← h.frame, ← k.frame]
  others o ho := (k.others o ho).trans (h.others o ho)
  rectangles := ⟨k.rectangles.1.trans h.rectangles.1, k.rectangles.2.trans h.rectangles.2⟩
theorem State.modRg_site (s : State) (r : RegionId) (g : Region → Region)
    (rectangles : (g (s.rg r)).geom = (s.rg r).geom ∧ (g (s.rg r)).new_ = (s.rg r).new_) : OnlySite r s (s.modRg r g) :=
  ⟨rfl, fun o => s.modRg_rg_other r o g, by rw [State.modRg_rg_same]; exact rectangles⟩
theorem State.moved_site (s : State) (r : RegionId) (l : List Place) : OnlySite r s { s with moved := l } := ⟨rfl, fun _ _ => rfl, rfl, rfl⟩
theorem OnlySite.regionOf (h : OnlySite r s s') (t : Tile) : s'.regionOf t = s.regionOf t :=
  State.regionOf_congr (fun q => by
    by_cases hq : q = r
    · rw [hq]
      exact h.rectangles
    · rw [h.others q hq]
      exact ⟨rfl, rfl⟩) t
end

/-- The seed at the head of the FIFO of port p leaves it. -/
def Region.popSeed (g : Region) (p : Nat) : Region :=
  let l := (tget g.seeds p []).drop 1
  { g with seeds := tset g.seeds p l, seedst := tset g.seedst p (setFld (tget g.seedst p 0) 0 5 l.length) }
theorem State.leavePlace_seed (s : State) (r : RegionId) (p : Nat) : let s' := s.leavePlace (.site r p) .seed
    OnlySite r s s' ∧ ∃ since, s'.rg r = { (s.rg r).popSeed p with since := since } := by
  let a : State := { s with moved := s.moved ++ [.site r p] }
  let b : State := a.modRg r fun g => { g with since := tdel g.since p }
  have same : s.leavePlace (.site r p) .seed = b.modRg r (·.popSeed p) := rfl
  rw [same]
  have site : OnlySite r a b := a.modRg_site r _ ⟨rfl, rfl⟩
  refine ⟨((s.moved_site r _).trans site).trans (b.modRg_site r _ ⟨rfl, rfl⟩), tdel (s.rg r).since p, ?_⟩
  have since : b.rg r = { s.rg r with since := tdel (s.rg r).since p } := a.modRg_rg_same r _
  rw [State.modRg_rg_same, since]
  rfl
/-- Port p has accepted a data token of facet f in reach n (R169, R375, R442). -/
def Region.accepted (g : Region) (f : Facet) (p n : Nat) : Region :=
  { g.conserve f p n with credit := tset g.credit p (tget g.credit p 0 - 1024), counters := vmod g.counters 0 (· + 1) }
theorem State.ingressDone_seed {s : State} {r : RegionId} (p : Nat) {k : Token} (data : k.isMark = false) (tides : (s.rg r).tides = false)
    (lone : ((s.rg r).tideCfg.get k.facet).lock = false) : let s' := s.ingressDone r p k .seed none
    OnlySite r s s' ∧ ∃ turn, s'.rg r = { (s.rg r).accepted k.facet p ((s.rg r).siteReach p k.facet) with seedTurn := turn } := by
  let a : State := s.modRg r (·.accepted k.facet p ((s.rg r).siteReach p k.facet))
  let b : State := { a with moved := a.moved ++ [.site r p] }
  have same : s.ingressDone r p k .seed none = b.modRg r fun g => { g with seedTurn := tset g.seedTurn p false } := by
    unfold State.ingressDone
    dsimp only
    rw [data, tides, lone]
    rfl
  rw [same]
  have site : OnlySite r s a := s.modRg_site r _ ⟨rfl, rfl⟩
  refine ⟨(site.trans (a.moved_site r _)).trans (b.modRg_site r _ ⟨rfl, rfl⟩), tset (s.rg r).seedTurn p false, ?_⟩
  have accepted : b.rg r = (s.rg r).accepted k.facet p ((s.rg r).siteReach p k.facet) :=
    s.modRg_rg_same r (·.accepted k.facet p ((s.rg r).siteReach p k.facet))
  rw [State.modRg_rg_same, accepted]
  rfl

section
variable {g : Region} {p : Nat} {k : Token} {l : List Token}
theorem Region.heldOffer_none (replay : tget g.replay p [] = []) (marks : tget g.siteMarks p [] = []) : g.heldOffer p = none := by
  rw [Region.heldOffer, replay, marks]
theorem Region.seedOffer_seed (enabled : g.en = true) (loaded : g.floaded (g.stampOf (g.ingOf p)) = true) (upcalls : tget g.upcallQ p [] = [])
    (seeds : tget g.seeds p [] = k :: l) : g.seedOffer p = some (.seed, k) := by
  rw [Region.seedOffer, enabled, loaded, upcalls, seeds]
  rfl
end
/-- In its turn a seed is offered whatever stands on the track, stamped with the site's facet (R198). -/
theorem State.ownOffer_seed {s : State} {r : RegionId} {p : Nat} {k : Token} (held : (s.rg r).heldOffer p = none)
    (seed : (s.rg r).seedOffer p = some (.seed, k)) (turn : tget (s.rg r).seedTurn p false = true) (track : Bool) :
    s.ownOffer r p track = some (.seed, ⟨k.stamp ((s.rg r).stampOf ((s.rg r).ingOf p)), tget (s.rg r).since p (s.cycle + 1) - 1, none⟩) := by
  rw [State.ownOffer]
  dsimp only
  rw [held, seed]
  dsimp only
  rw [if_pos (by rw [turn]; rfl)]
theorem State.siteTakes_seed {s : State} {r : RegionId} {p : Nat} {k : Token} (enabled : siteEn ((s.rg r).ingOf p) = true) (running : s.halted r = false)
    (moving : s.tileFrozen (siteTile ((s.rg r).ingOf p)) = false) (fresh : s.hasMoved (.site r p) = false) (en : (s.rg r).en = true)
    (saving : (s.rg r).saveStops k.facet = false) (loading : s.loadStops r p k.facet = false) (cutting : (s.rg r).cutStops k.facet = false)
    (credit : 1024 ≤ tget (s.rg r).credit p 0) (breakwaters : ∀ d, (s.die d).bw = []) : s.siteTakes r p .seed k = true := by
  have admits (d : DieId) : s.bwAdmits d r = true := by rw [State.bwAdmits, breakwaters, List.any_nil, Bool.not_false, Bool.or_true]
  simp [State.siteTakes, enabled, running, moving, fresh, en, saving, loading, cutting, credit, admits]
theorem State.enterSite_plain {s : State} {r : RegionId} {p : Nat} {o : Offer} {k : QTok} {rest : List Eff} (takes : s.siteTakes r p o k.tok = true)
    (tides : (s.rg r).tides = false) : s.enterSite r p o k (some rest) = some (.ingress r p k.tok o k.org :: rest) := by
  have room : s.siteRoom r p o k.tok = .ok := by
    rw [State.siteRoom, tides]
    exact if_pos (by simp)
  rw [State.enterSite, takes, room]
  rfl
/-- What a site offers itself moves as it enters the site's tile. -/
theorem State.settle_site {s : State} {r : RegionId} {p n : Nat} {o : Offer} {k : QTok} {l : List Eff} (fresh : s.hasMoved (.site r p) = false)
    (offer : ∀ track, s.ownOffer r p track = some (o, k)) (takes : s.siteTakes r p o k.tok = true) (tides : (s.rg r).tides = false)
    (into : s.settle n (.into (.site r p) (siteTile ((s.rg r).ingOf p)) (siteTrack ((s.rg r).ingOf p)) { k with org := none }) = some l)
    (plain : l.any Eff.isOverflow = false) :
    s.settle (n + 1) (.leave (.site r p)) = some (.leave (.site r p) o :: .ingress r p k.tok o k.org :: l) := by
  rw [State.settle]
  dsimp only
  rw [fresh, if_neg Bool.false_ne_true, offer]
  dsimp only
  rw [if_pos takes, into, State.enterSite_plain takes tides, Option.map_some, Option.map_some,
    sealed_plain (by rw [List.any_cons, List.any_cons, plain]; rfl)]

theorem ingressAccept_disabled (s : State) (r : RegionId) (p : Fin 64) (disabled : siteEn ((s.rg r).ingOf p.val) = false) :
    exec (.ingressAccept r p) s = .next s := by
  rw [exec_ingressAccept, execIngressAccept]
  exact if_pos (by rw [disabled]; rfl)
theorem ingressAccept_own {s : State} {r : RegionId} {p : Fin 64} {l : List Eff} (enabled : siteEn ((s.rg r).ingOf p.val) = true)
    (move : s.moveOf (.site r p.val) = some l) : exec (.ingressAccept r p) s = .next (s.applyEffs l) := by
  rw [exec_ingressAccept, execIngressAccept, if_neg (by rw [enabled]; decide), State.ownMove, move]

/-- The effects of a seed's move: it leaves the FIFO, the site accepts it and the one port that selects the site's track receives it. -/
theorem State.applyEffs_seed {s : State} {r : RegionId} {p : Nat} {t : Tile} {q : Fin 16} {k : Token} (g : Facet) (e : Nat) (home : s.regionOf t = some r)
    (data : k.isMark = false) (tides : (s.rg r).tides = false) (lone : ((s.rg r).tideCfg.get k.facet).lock = false)
    (empty : s.inq t k.facet q = []) :
    ∃ s', s.applyEffs [.leave (.site r p) .seed, .ingress r p k .seed none, .count t g e k, .port t q k] = s' ∧
      s'.inq t k.facet q = [⟨k, s.cycle, none⟩] ∧ tget (s'.rg r).seeds p [] = (tget (s.rg r).seeds p []).drop 1 ∧
      fld (tget (s'.rg r).seedst p 0) 0 5 = ((tget (s.rg r).seeds p []).drop 1).length % 32 ∧
      tget (s'.rg r).credit p 0 = tget (s.rg r).credit p 0 - 1024 ∧ (s'.rg r).counters.get 0 = (s.rg r).counters.get 0 + 1 ∧
      s'.mem = s.mem ∧ ∀ o, o ≠ r → s'.rg o = s.rg o := by
  obtain ⟨popped, since, left⟩ := s.leavePlace_seed r p
  obtain ⟨done, turn, accepted⟩ := (s.leavePlace (.site r p) .seed).ingressDone_seed p data (by rw [left]; exact tides) (by rw [left]; exact lone)
  rw [left] at accepted
  have site := popped.trans done
  have steps (l : List Eff) : s.applyEffs (.leave (.site r p) .seed :: .ingress r p k .seed none :: l) =
    ((s.leavePlace (.site r p) .seed).ingressDone r p k .seed none).applyEffs l := rfl
  rw [steps]
  generalize (s.leavePlace (.site r p) .seed).ingressDone r p k .seed none = b at site accepted
  have cycle : b.cycle = s.cycle := (congrArg State.cycle site.frame :)
  obtain ⟨s', effs, inq, mem, -, c, counted, same⟩ := State.applyEffs_port_alone (s := b) g e
    ((congrArg (State.inq · t k.facet q) site.frame :).trans empty)
  rw [site.regionOf, home] at counted
  rw [cycle] at inq
  refine ⟨s', effs, inq, ?_, ?_, ?_, ?_, mem.trans (congrArg State.mem site.frame :), fun o ho => ?_⟩
  · rw [same, (congrArg Region.seeds (counted.fields r) :), accepted]
    exact tget_tset_same ..
  · rw [same, (congrArg Region.seedst (counted.fields r) :), accepted]
    exact (congrArg (fld · 0 5) (tget_tset_same ..)).trans (fld_setFld_same _ _ _ _ (by decide))
  · rw [same, (congrArg Region.credit (counted.fields r) :), accepted]
    exact tget_tset_same ..
  · rw [same, (congrArg Region.counters (counted.fields r) :), accepted]
    exact vget_vmod_same ..
  · rw [same, counted.others o fun h => ho (Option.some.inj h).symm, site.others o ho]

theorem siteAccepts : SiteAccepts := by
  refine ⟨ingressAccept_disabled, fun s r p k l q enabled home _ running moving fresh en tides saving loading cutting loaded credit lone replay marks
    upcalls seeds turn breakwaters data only empty => ?_⟩
  let f := (s.rg r).stampOf ((s.rg r).ingOf p.val)
  have stamped : (k.stamp f).facet = f := k.stamp_facet f
  have facet : s.effFacet (siteTile ((s.rg r).ingOf p.val)) (k.stamp f) = f := by
    rw [State.effFacet, home]
    exact stamped
  have data' : (k.stamp f).isMark = false := (k.stamp_isMark f).trans data
  have takes : s.siteTakes r p.val .seed (k.stamp f) = true := by
    refine State.siteTakes_seed enabled running moving fresh en ?_ ?_ ?_ credit breakwaters <;> rw [stamped] <;> assumption
  have offer := State.ownOffer_seed (Region.heldOffer_none replay marks) (Region.seedOffer_seed en loaded upcalls seeds) turn
  have into := State.settle_into_port (s := s) (x := ⟨k.stamp f, tget (s.rg r).since p.val (s.cycle + 1) - 1, none⟩) 65533 (.site r p.val) (by rw [facet]; exact only)
    (State.portRoom_of_empty (p := q) moving (by rw [stamped]; exact empty))
  have move := State.settle_site fresh offer takes tides into rfl
  obtain ⟨s', effs, inq, rest⟩ := State.applyEffs_seed (p := p.val) (s.effFacet (siteTile ((s.rg r).ingOf p.val)) (k.stamp f)) (32 + q.val) home data' tides
    (by rw [stamped]; exact lone) (by rw [stamped]; exact empty)
  rw [seeds] at rest
  rw [stamped] at inq
  refine ⟨s', ?_, inq, rest⟩
  rw [ingressAccept_own enabled move, effs]

/-- Settles O40: a move that nothing contests settles at once, and its effects change the places named and the counts of links alone. -/
theorem tokenMoves : Obligations.TokenMoves := ⟨fabricMoves, siteAccepts⟩

end Sys2Proof.Machine
end

section
/-! SUPPORT. Doorbells (R190, R191, R197 to R199, R440): the completion word that an entry owes, what a push, a cancel, a seed and a tenant
leave of their region, and the route entries and CID and RID that a frame gives a free tile. -/

namespace Sys2Proof.Machine

theorem exec_lqdoorPush (r : RegionId) (w : DoorWrite) (e : BitVec 512) (s : State) :
    exec (.lqdoorPush r w e) s = execLqdoorPush r w e s := rfl
theorem exec_lqctlCancel (r : RegionId) (v : Word) (s : State) : exec (.lqctlCancel r v) s = .next (s.writeLqctl r v) := rfl
theorem exec_seedtPush (r : RegionId) (p : Fin 64) (v : Word) (s : State) :
    exec (.seedtPush r p v) s = .next (s.modRg r (·.pushSeed p.val v)) := rfl
theorem exec_seedFlush (r : RegionId) (p : Fin 64) (s : State) : exec (.seedFlush r p) s = .next (s.modRg r (·.flushSeeds p.val)) := rfl
theorem exec_rgtenWrite (r : RegionId) (v : Word) (s : State) : exec (.rgtenWrite r v) s = .next (s.modRg r (·.writeTen v)) := rfl
theorem exec_freewWrite (d : DieId) (k : BitVec 256) (s : State) :
    exec (.freewWrite d k) s = .next (s.modDie d fun x => { x with freew := some k }) := rfl
theorem exec_freewApply (d : DieId) (s : State) : exec (.freewApply d) s = execFreewApply d s := rfl

/-! The completion word that an entry owes (R197) -/

/-- The three fields of a completion word lie side by side. -/
theorem cwWord_fields (e : BitVec 512) (ok : Bool) (code : Nat) :
    fld (cwWord e ok code) 0 8 = descStag e ∧ bit (cwWord e ok code) 8 = ok ∧ fld (cwWord e ok code) 9 5 = code % 32 := by
  have tag : descStag e < 2 ^ 8 := Nat.mod_lt _ (by decide)
  have good : ok.toNat < 2 := ok.toNat_lt
  have low : (cwWord e ok code).toNat = descStag e + ok.toNat * 2 ^ 8 + code % 32 * 2 ^ 9 := by
    rw [cwWord, BitVec.toNat_ofNat]
    omega
  refine ⟨?_, ?_, ?_⟩
  · rw [fld, low]
    omega
  · have one : fld (cwWord e ok code) 8 1 = ok.toNat := by
      rw [fld, low]
      omega
    have read := testBit_fld (cwWord e ok code) 8 1 0
    rw [one] at read
    cases ok <;> simpa using read.symm
  · rw [fld, low]
    omega

section
variable (s : State) (r : RegionId) (e : BitVec 512) (f : Facet) (ok : Bool) (code : Nat)
/-- The store that an entry's completion word waits for. -/
def State.owedCw : CwStore := ⟨descCwva e, cwWord e ok code, f, s.cycle + 1, none⟩
/-- An entry without an address owes nothing; any other owes its word behind those that the region owes already. -/
theorem State.oweCw_rg : (s.oweCw r e f ok code).rg r =
    { s.rg r with cw := if descCwva e = 0 then (s.rg r).cw else (s.rg r).cw ++ [s.owedCw e f ok code] } := by
  unfold State.oweCw
  split
  · rfl
  · exact s.modRg_rg_same r _
theorem State.oweCw_only : OnlyRegion s (s.oweCw r e f ok code) r := by
  unfold State.oweCw
  split
  · exact ⟨rfl, fun _ _ => rfl⟩
  · exact s.modRg_only r _
end

/-! Pushes and cancels (R190, R191) -/

theorem lqdoorPush_malformed {s : State} {r : RegionId} {w : DoorWrite} {e : BitVec 512}
    (bad : ¬(w.bytes = 64 ∧ w.off % 64 = 0 ∧ descBad e = false)) : exec (.lqdoorPush r w e) s = .next (s.modRg r Region.badw) := by
  rw [exec_lqdoorPush, execLqdoorPush]
  split
  next whole =>
    have desc : descBad e = true := Bool.eq_true_of_not_eq_false fun h => bad ⟨whole.1, whole.2, h⟩
    rw [State.push]
    simp only [desc, if_true]
  · rfl
theorem lqdoorPush_good {s : State} {r : RegionId} {w : DoorWrite} {e : BitVec 512}
    (good : w.bytes = 64 ∧ w.off % 64 = 0 ∧ descBad e = false) : exec (.lqdoorPush r w e) s = .next (s.modRg r fun g =>
      if 8 ≤ g.queue.length then { g with lqstat := setBit g.lqstat 4 true } else { g with queue := g.queue ++ [e] }.syncCount) := by
  obtain ⟨bytes, off, desc⟩ := good
  rw [exec_lqdoorPush, execLqdoorPush, if_pos ⟨bytes, off⟩, State.push]
  simp only [desc, Bool.false_eq_true, if_false]

/-- The region of a waiting entry that is cancelled, but for the completion word. -/
def Region.cancelled (g : Region) (i : Nat) : Region := (g.loadErr 14 0).dropEntry i
theorem Region.cancelled_fields (g : Region) (i : Nat) : (g.cancelled i).queue = g.queue.eraseIdx i ∧ (g.cancelled i).cw = g.cw ∧
    fld (g.cancelled i).lqstat 7 5 = 14 ∧ fld (g.cancelled i).lqstat 0 4 = (g.queue.eraseIdx i).length % 2 ^ 4 := by
  rw [Region.cancelled, Region.dropEntry, Region.syncCount, Region.loadErr]
  refine ⟨rfl, rfl, ?_, fld_setFld_same _ _ _ _ (by decide)⟩
  rw [fld_setFld_other _ _ _ _ _ _ (by decide), fld_setFld_other _ _ _ _ _ _ (by decide)]
  exact fld_setFld_same _ _ _ _ (by decide)

theorem lqctlCancel_waiting {s : State} {r : RegionId} {v : Word} {e : BitVec 512} (go : bit v 3 = true)
    (waits : (s.rg r).queue[fld v 0 3]? = some e) (idle : (s.rg r).load = none) : exec (.lqctlCancel r v) s =
      .next ((s.modRg r (·.cancelled (fld v 0 3))).oweCw r e (descTfac e) false 14) := by
  simp only [exec_lqctlCancel, State.writeLqctl, go, waits, idle, Bool.not_true, Bool.false_eq_true, if_false]
  rfl

/-! Seeds (R198) -/

theorem Region.pushSeed_mark {g : Region} {p : Nat} {v : Word} (mark : fld v 4 2 = kMark) :
    g.pushSeed p v = { g with seedst := tset g.seedst p (setBit (tget g.seedst p 0) 6 true) } := if_pos mark
theorem Region.pushSeed_room {g : Region} {p : Nat} {v : Word} (data : fld v 4 2 ≠ kMark) (room : (tget g.seeds p []).length < 16) :
    g.pushSeed p v =
      { g with seeds := tset g.seeds p (tget g.seeds p [] ++ [⟨tget g.seedd p 0, BitVec.ofNat 8 (fld v 0 6)⟩]),
               seedst := tset g.seedst p (setFld (tget g.seedst p 0) 0 5 ((tget g.seeds p []).length + 1)) } := by
  simp only [Region.pushSeed, if_neg data, if_neg (Nat.not_le.2 room)]

/-! Free tiles (R199) -/

/-- A route entry is written; one that leads nowhere is not listed (R153). -/
def putRoute (m : Tab (BitVec 16)) (i : Nat) (v : BitVec 16) : Tab (BitVec 16) := if v = 0x003F then tdel m i else tset m i v
theorem risingKeys_putRoute {m : Tab (BitVec 16)} (i : Nat) (v : BitVec 16) (h : risingKeys m = true) :
    risingKeys (putRoute m i v) = true := by
  unfold putRoute
  split
  · exact risingKeys_tdel _ _ h
  · exact risingKeys_tset _ _ _ h
theorem tget_putRoute_same {m : Tab (BitVec 16)} (i : Nat) (v : BitVec 16) (h : risingKeys m = true) :
    tget (putRoute m i v) i 0x003F = v := by
  unfold putRoute
  split
  next nowhere => rw [tget_tdel_same _ _ _ h, nowhere]
  · exact tget_tset_same ..
theorem tget_putRoute_other (m : Tab (BitVec 16)) {i j : Nat} (v : BitVec 16) (h : j ≠ i) :
    tget (putRoute m i v) j 0x003F = tget m j 0x003F := by
  unfold putRoute
  split
  · exact tget_tdel_other _ _ _ _ h
  · exact tget_tset_other _ _ _ _ _ h

/-- The first n entries of a route frame, written one after the other. -/
def putRoutes (k : BitVec 256) (m : Tab (BitVec 16)) (n : Nat) : Tab (BitVec 16) :=
  (List.range n).foldl (fun m j => putRoute m (frOff k + j) (frRoute k j)) m
theorem putRoutes_succ (k : BitVec 256) (m : Tab (BitVec 16)) (n : Nat) :
    putRoutes k m (n + 1) = putRoute (putRoutes k m n) (frOff k + n) (frRoute k n) := by
  simp only [putRoutes, List.range_succ, List.foldl_append, List.foldl_cons, List.foldl_nil]
theorem risingKeys_putRoutes (k : BitVec 256) {m : Tab (BitVec 16)} (n : Nat) (h : risingKeys m = true) :
    risingKeys (putRoutes k m n) = true := by
  induction n with
  | zero => exact h
  | succ n ih =>
    rw [putRoutes_succ]
    exact risingKeys_putRoute _ _ ih
theorem tget_putRoutes (k : BitVec 256) {m : Tab (BitVec 16)} {n j : Nat} (h : risingKeys m = true) (hj : j < n) :
    tget (putRoutes k m n) (frOff k + j) 0x003F = frRoute k j := by
  induction n with
  | zero => exact absurd hj (Nat.not_lt_zero j)
  | succ n ih =>
    rw [putRoutes_succ]
    by_cases last : j = n
    · rw [last, tget_putRoute_same _ _ (risingKeys_putRoutes k n h)]
    · rw [tget_putRoute_other _ _ (by omega), ih (by omega)]

theorem State.writeSwitch_ids (s : State) (t : Tile) (f : Facet) {k : BitVec 256} (unit : frUnit k = 1) :
    ((s.writeSwitch t f k).sw t).cidrid.get f = some (BitVec.ofNat 16 (fld k 0 16)) := by
  rw [State.writeSwitch, if_pos unit, State.setSw_sw_same]
  exact vget_vset_same ..
theorem State.writeSwitch_entry (s : State) (t : Tile) (f : Facet) {k : BitVec 256} (unit : frUnit k = 0)
    (rises : risingKeys ((s.sw t).routes.get f) = true) {j : Nat} (hj : j < frN k) :
    ((s.writeSwitch t f k).sw t).entry f (frOff k + j) = frRoute k j := by
  have routes : ((s.writeSwitch t f k).sw t).routes.get f = putRoutes k ((s.sw t).routes.get f) (frN k) := by
    rw [State.writeSwitch, if_neg (by rw [unit]; decide), State.setSw_sw_same]
    exact vget_vmod_same ..
  rw [Switchbox.entry, routes, tget_putRoutes k rises hj]
theorem State.writeSwitch_frame (s : State) (t : Tile) (f : Facet) (k : BitVec 256) :
    { s.writeSwitch t f k with switches := s.switches } = s := by
  unfold State.writeSwitch
  dsimp only
  split <;> rfl

/-- The die once its frame is taken off (R199). -/
def Die.freewDone (x : Die) (ok : Bool) : Die := { x with freew := none, freest := if ok then x.freest else setBit x.freest 0 true }
section
variable {s : State} {d : DieId} {k : BitVec 256} (due : (s.die d).freew = some k)
include due
theorem freewApply_waits (busy : (s.die d).loader ≠ none ∨ (s.die d).tookAt = s.cycle + 1) : exec (.freewApply d) s = .next s := by
  simp only [exec_freewApply, execFreewApply, due]
  refine when_of_false ?_
  rcases busy with h | h
  · simp [Option.isNone_iff_eq_none, h]
  · simp [h]

variable (idle : (s.die d).loader = none) (next : s.nextLoad d = none) (first : (s.die d).tookAt ≠ s.cycle + 1)
include idle next first
theorem freewApply_idle : exec (.freewApply d) s = .next (s.applyFreew d k) := by
  simp only [exec_freewApply, execFreewApply, due]
  exact when_of_true (by simp [idle, next, first])
end
theorem State.freewOk_modDie (s : State) (e : DieId) (h : Die → Die) (d : DieId) (k : BitVec 256) :
    (s.modDie e h).freewOk d k = s.freewOk d k := rfl
theorem State.applyFreew_refused {s : State} {d : DieId} {k : BitVec 256} (bad : s.freewOk d k = false) :
    s.applyFreew d k = s.modDie d (·.freewDone false) := by
  simp only [State.applyFreew, State.freewOk_modDie, bad, Bool.false_eq_true, if_false]
  rfl
theorem State.applyFreew_written {s : State} {d : DieId} {k : BitVec 256} (ok : s.freewOk d k = true) :
    s.applyFreew d k = (s.modDie d (·.freewDone true)).writeSwitch (freeTile d k) 0 k := by
  simp only [State.applyFreew, State.freewOk_modDie, ok, if_true]
  rfl

/-- Settles O43: each doorbell, seed and tenant is one change of its region, and a free-tile frame that passes its checks is written into its
tile's switchbox. -/
theorem doorbells : Obligations.Doorbells := by
  refine ⟨fun s r w e => ⟨fun bad => ?badw, fun good room => ?push, fun good full => ?lost⟩,
    fun s r v e => ⟨fun idle => ?idle, fun go waits idle short => ?cancel⟩,
    fun s r p v => ⟨fun data room => ?seed, fun mark => ?mark, ?flush, ?tenant⟩,
    fun s d k => ⟨?freew, fun due busy => freewApply_waits due busy,
      fun due idle next first => ⟨fun bad => ?refused, fun ok rises => ?written⟩⟩⟩
  case badw =>
    refine ⟨_, lqdoorPush_malformed bad, s.modRg_only r _, ?_⟩
    rw [State.modRg_rg_same, Region.badw]
    exact ⟨bit_setBit_same _ _ _ (by decide), rfl⟩
  case push =>
    refine ⟨_, lqdoorPush_good good, s.modRg_only r _, ?_⟩
    rw [State.modRg_rg_same, if_neg (Nat.not_le.2 room), Region.syncCount]
    refine ⟨rfl, ?_, rfl⟩
    rw [fld_setFld_same _ _ _ _ (by decide), List.length_append, List.length_singleton]
    exact Nat.mod_eq_of_lt (by omega)
  case lost =>
    refine ⟨_, lqdoorPush_good good, s.modRg_only r _, ?_⟩
    rw [State.modRg_rg_same, if_pos full]
    exact ⟨bit_setBit_same _ _ _ (by decide), rfl⟩
  case idle => rw [exec_lqctlCancel, State.writeLqctl, if_pos (by rw [idle]; rfl)]
  case cancel =>
    have inside : fld v 0 3 < (s.rg r).queue.length := (List.getElem?_eq_some_iff.1 waits).1
    obtain ⟨queue, owed, code, count⟩ := (s.rg r).cancelled_fields (fld v 0 3)
    refine ⟨_, lqctlCancel_waiting go waits idle, onlyRegion_trans (s.modRg_only r _) (State.oweCw_only ..), ?_⟩
    rw [State.oweCw_rg, State.modRg_rg_same]
    refine ⟨queue, code, ?_, fun address => ?_⟩
    · rw [count, List.length_eraseIdx_of_lt inside]
      exact Nat.mod_eq_of_lt (by omega)
    · rw [if_neg address, owed]
      exact ⟨_, rfl, rfl, cwWord_fields e false 14⟩
  case seed =>
    refine ⟨_, exec_seedtPush r p v s, s.modRg_only r _, ?_⟩
    rw [State.modRg_rg_same, Region.pushSeed_room data room]
    refine ⟨⟨_, tget_tset_same .., rfl, ?_⟩, ?_, rfl⟩
    · rw [BitVec.toNat_ofNat, fld]
      omega
    · rw [tget_tset_same, fld_setFld_same _ _ _ _ (by decide)]
      exact Nat.mod_eq_of_lt (by omega)
  case mark =>
    refine ⟨_, exec_seedtPush r p v s, s.modRg_only r _, ?_⟩
    rw [State.modRg_rg_same, Region.pushSeed_mark mark, tget_tset_same]
    exact ⟨bit_setBit_same _ _ _ (by decide), rfl⟩
  case flush =>
    refine ⟨_, exec_seedFlush r p s, s.modRg_only r _, ?_⟩
    rw [State.modRg_rg_same, Region.flushSeeds, tget_tset_same, tget_tset_same]
    exact ⟨rfl, fld_setFld_same _ _ _ _ (by decide), rfl⟩
  case tenant =>
    refine ⟨_, exec_rgtenWrite r v s, s.modRg_only r _, ?_⟩
    rw [State.modRg_rg_same, Region.writeTen]
    exact ⟨rfl, fun i => Vector.getElem_replicate .., rfl⟩
  case freew =>
    refine ⟨_, exec_freewWrite d k s, ?_, rfl, fun e other => s.modDie_die_other d e _ other⟩
    rw [State.modDie_die_same]
  case refused =>
    refine ⟨_, freewApply_idle due idle next first, ?_⟩
    rw [State.applyFreew_refused bad, State.modDie_die_same]
    exact ⟨rfl, bit_setBit_same _ _ _ (by decide), rfl⟩
  case written =>
    refine ⟨_, freewApply_idle due idle next first, ?_⟩
    rw [State.applyFreew_written ok]
    have frame := (s.modDie d (·.freewDone true)).writeSwitch_frame (freeTile d k) 0 k
    have die : ((s.modDie d (·.freewDone true)).writeSwitch (freeTile d k) 0 k).die d = (s.die d).freewDone true :=
      (congrArg (State.die · d) frame :).trans (s.modDie_die_same d _)
    rw [die]
    exact ⟨rfl, rfl, congrArg (fun x : State => { x with dies := s.dies }) frame,
      fun unit _ => State.writeSwitch_entry (s.modDie d _) _ 0 unit rises, fun unit => State.writeSwitch_ids _ _ 0 unit⟩

end Sys2Proof.Machine
end

section
/-! SUPPORT. Writes to HBM while no stored bit has flipped (R213 to R217): the bytes are those written, and no tag changes; what else changes is
layout and poison. -/

namespace Sys2Proof.Machine

/-- Bytes, tags and flipped bits are the same; poison and layouts may differ. -/
def OnlyLayout (m m' : Memory) : Prop := { m' with poison := m.poison, gl := m.gl } = m

theorem OnlyLayout.refl (m : Memory) : OnlyLayout m m := rfl
theorem OnlyLayout.trans {a b c : Memory} (h : OnlyLayout a b) (k : OnlyLayout b c) : OnlyLayout a c := by
  unfold OnlyLayout at *
  rw [← h, ← k]
section
variable {m m' : Memory} (h : OnlyLayout m m')
include h
theorem OnlyLayout.bad : m'.bad = m.bad := (congrArg Memory.bad (show { m' with poison := m.poison, gl := m.gl } = m from h) :)
theorem OnlyLayout.byte (a : Nat) : m'.byte a = m.byte a :=
  (congrArg (Memory.byte · a) (show { m' with poison := m.poison, gl := m.gl } = m from h) :)
theorem OnlyLayout.isFull (a : Nat) : m'.isFull a = m.isFull a :=
  (congrArg (Memory.isFull · a) (show { m' with poison := m.poison, gl := m.gl } = m from h) :)
theorem OnlyLayout.setFull (a : Nat) (b : Bool) : OnlyLayout (m.setFull a b) (m'.setFull a b) :=
  (congrArg (Memory.setFull · a b) (show { m' with poison := m.poison, gl := m.gl } = m from h) :)
theorem OnlyLayout.putByte (a : Nat) (b : Byte) : OnlyLayout (m.putByte a b) (m'.putByte a b) :=
  (congrArg (Memory.putByte · a b) (show { m' with poison := m.poison, gl := m.gl } = m from h) :)
end
theorem OnlyLayout.putBytes {m m' : Memory} (h : OnlyLayout m m') (a : Nat) (l : List Byte) :
    OnlyLayout (m.putBytes a l) (m'.putBytes a l) := by
  induction l generalizing m m' a with
  | nil => exact h
  | cons b l ih => exact ih (h.putByte a b) (a + 1)
/-- A fold of changes of the layout, each of a memory in which no bit has flipped. -/
theorem OnlyLayout.foldl {α : Type} {step : Memory → α → Memory} (h : ∀ m x, m.bad = [] → OnlyLayout m (step m x)) (l : List α) {m : Memory}
    (sound : m.bad = []) : OnlyLayout m (l.foldl step m) := by
  induction l generalizing m with
  | nil => exact .refl m
  | cons x l ih => exact (h m x sound).trans (ih ((h m x sound).bad.trans sound))

theorem Memory.poisonBlock_layout (m : Memory) (pa g : Nat) (b : Bool) : OnlyLayout m (m.poisonBlock pa g b) := rfl
section
variable {m : Memory} (sound : m.bad = [])
include sound
theorem Memory.rewrite_sound (l : List Nat) : m.rewrite l = m := if_pos (by rw [sound]; rfl)
theorem Memory.check_sound (pa : Nat) : m.check pa = (0, []) := if_pos (by rw [Memory.struck, sound]; rfl)
theorem Memory.convert_layout (pa gl : Nat) : OnlyLayout m (m.convert pa gl) := by
  unfold Memory.convert
  dsimp only
  split
  · exact .refl m
  · rw [Memory.rewrite_sound sound]
    have lost := OnlyLayout.foldl (fun m p _ => m.poisonBlock_layout (32 * p) 32 true)
      ((burstsOf pa (m.unitOf pa gl)).filter fun b => (m.check (32 * b)).2.contains b) sound
    generalize ((burstsOf pa (m.unitOf pa gl)).filter fun b => (m.check (32 * b)).2.contains b).foldl _ m = m1 at lost ⊢
    have relaid : OnlyLayout m1 { m1 with gl := (burstsOf pa (m.unitOf pa gl)).foldl (fun t b => setTab0 t b gl) m1.gl } := rfl
    refine lost.trans (relaid.trans (.foldl (fun m p _ => ?_) _ (lost.bad.trans sound)))
    split
    · exact Memory.poisonBlock_layout ..
    · exact .refl m
theorem Memory.writeHbm_layout (pa : Nat) (l : List Byte) (gl : Nat) (poison : Bool) :
    OnlyLayout (m.putBytes pa l) (m.writeHbm pa l gl poison) := by
  have converted : OnlyLayout m ((blocksOf pa l.length 32).foldl (fun m p => m.convert p gl) m) :=
    .foldl (fun m p h => Memory.convert_layout h p gl) _ sound
  refine OnlyLayout.putBytes (converted.trans (.foldl (fun m p h => ?_) _ (converted.bad.trans sound))) pa l
  dsimp only
  rw [Memory.rewrite_sound (by exact h)]
  exact m.poisonBlock_layout ..
theorem Memory.devWrite_layout {pa : Nat} (hbm : isHbm pa = true) (l : List Byte) (gl : Nat) (poison : Bool) :
    OnlyLayout (m.putBytes pa l) (m.devWrite pa l gl poison) := by
  rw [Memory.devWrite, if_pos hbm]
  exact Memory.writeHbm_layout sound ..
end

/-- HBM lies below the memory tiles (R255). -/
theorem isMt_of_isHbm {pa : Nat} (hbm : isHbm pa = true) : isMt pa = false := by
  have below : pa < 2 ^ 39 := of_decide_eq_true hbm
  simp only [isMt, Bool.and_eq_false_iff, decide_eq_false_iff_not]
  omega

/-- The bytes of a number, written at an address, hold it there (R4). -/
theorem Memory.holds_putBytes {m : Memory} (wf : m.wf = true) (pa n x : Nat) : Holds (m.putBytes pa (bytesOf n x)) pa n x := by
  intro i hi
  rw [Memory.byte_putBytes_inside _ m pa i wf (by rwa [length_bytesOf])]
  simp only [bytesOf_eq_map, List.getElem_map, List.getElem_range, BitVec.toNat_ofNat]

/-- Comparators that see a tag change leave all but debug matches. -/
theorem State.dbgHbmTag_debug (s : State) (r : RegionId) (f : Facet) (pa : Nat) (b : Bool) : OnlyDebug s (s.dbgHbmTag r f pa b) := by
  refine .foldl (fun s k => ?_) _ s
  dsimp only
  split
  · exact State.dbgMatch_debug ..
  · exact .refl s
theorem State.setTag_mem {s : State} {word : Nat} (other : isMt (8 * word) = false) (b : Bool) (f : Facet) (r : RegionId) :
    (s.setTag word b f (some r)).mem = if s.mem.isFull (8 * word) = b then s.mem else s.mem.setFull (8 * word) b := by
  unfold State.setTag
  split
  · rfl
  · simp only [other, Bool.false_eq_true, if_false]
    exact (congrArg State.mem (State.dbgHbmTag_debug _ r f (8 * word) b).1 :)
/-- A tag that is set so is that of its word; every other tag stays (R219). -/
theorem Memory.isFull_tagged {m : Memory} (wf : m.wf = true) (word : Nat) (b : Bool) (a : Nat) :
    (if m.isFull (8 * word) = b then m else m.setFull (8 * word) b).isFull a = if a / 8 = word then b else m.isFull a := by
  have index : 8 * word / 8 = word := Nat.mul_div_cancel_left word (by decide)
  split
  next same =>
    split
    next own => rw [← same, Memory.isFull, Memory.isFull, index, own]
    · rfl
  · rw [Memory.isFull_setFull _ _ _ _ wf, index]
/-- A tag is set over bytes that have been written: the bytes are those written, and of the tags that of the word is the new one. -/
theorem State.setTag_written {s : State} {m : Memory} (layout : OnlyLayout m s.mem) (wf : m.wf = true) {word : Nat}
    (other : isMt (8 * word) = false) (b : Bool) (f : Facet) (r : RegionId) (a : Nat) : let m' := (s.setTag word b f (some r)).mem
    m'.byte a = m.byte a ∧ m'.isFull a = if a / 8 = word then b else m.isFull a := by
  have tagged : OnlyLayout (if m.isFull (8 * word) = b then m else m.setFull (8 * word) b) (s.setTag word b f (some r)).mem := by
    rw [State.setTag_mem other, layout.isFull]
    split
    · exact layout
    · exact layout.setFull ..
  refine ⟨?_, (tagged.isFull a).trans (Memory.isFull_tagged wf word b a)⟩
  rw [tagged.byte]
  split <;> rfl

end Sys2Proof.Machine
end

section
/-! SUPPORT. The ends of loads (R196, R197, R269): the elements that the wave enables, the region once its load has passed, and what becomes of
a completion word. -/

namespace Sys2Proof.Machine

theorem exec_waveArrival (r : RegionId) (col : Nat) (s : State) : exec (.waveArrival r col) s = execWaveArrival r col s := rfl
theorem exec_loadPass (r : RegionId) (s : State) : exec (.loadPass r) s = execLoadPass r s := rfl
theorem exec_completionWordStore (r : RegionId) (s : State) : exec (.completionWordStore r) s = execCompletionWordStore r s := rfl

/-! The wave (R196) -/

/-- A facet's bit of FENABLE is set where the tile holds an element. -/
def State.enableTile (s : State) (t : Tile) (f : Facet) : State :=
  if t.isCT then s.modEl t fun e => { e with fenable := setBit e.fenable f.val true } else s
/-- Tile j of a column of the rectangle that a load fills. -/
def Region.waveTile (g : Region) (col j : Nat) : Tile := ⟨fld g.target 0 7 + col, fld g.target 8 5 + j⟩

theorem State.enableTile_frame (s : State) (t : Tile) (f : Facet) : { s.enableTile t f with elements := s.elements } = s := by
  unfold State.enableTile
  split <;> rfl
theorem State.foldl_enableTile_frame {α : Type} (tile : α → Tile) (f : Facet) (l : List α) (s : State) :
    { l.foldl (fun s x => s.enableTile (tile x) f) s with elements := s.elements } = s := by
  induction l generalizing s with
  | nil => rfl
  | cons x l ih =>
    exact (congrArg (fun y : State => { y with elements := s.elements }) (ih (s.enableTile (tile x) f))).trans (s.enableTile_frame (tile x) f)
/-- A facet that is enabled stays so, whichever tile the wave enables next. -/
theorem State.enableTile_keeps (s : State) (t u : Tile) (f : Facet) (h : bit (s.el u).fenable f.val = true) :
    bit ((s.enableTile t f).el u).fenable f.val = true := by
  unfold State.enableTile
  split
  · by_cases same : u.key = t.key
    · rw [State.el_congr _ same, State.modEl_el_same]
      exact bit_setBit_same _ _ _ f.isLt
    · rw [State.modEl_el_other _ _ _ _ same, h]
  · exact h
theorem State.enableTile_fenable (s : State) {t : Tile} (f : Facet) (ct : t.isCT = true) : bit ((s.enableTile t f).el t).fenable f.val = true := by
  rw [State.enableTile, if_pos ct, State.modEl_el_same]
  exact bit_setBit_same _ _ _ f.isLt

/-- Without tides no node begins at a tide (R372). -/
theorem State.beginNode_tideless {s : State} {r : RegionId} (off : (s.rg r).tides = false) (f : Facet) (t : Tile) : s.beginNode r f t = s := by
  simp only [State.beginNode, off, Bool.false_and, Bool.false_eq_true, if_false]
theorem State.foldl_wave_tideless {α : Type} (tile : α → Tile) (restore : Bool) (f : Facet) (l : List α) {s : State} {r : RegionId}
    (off : (s.rg r).tides = false) :
    l.foldl (fun s x => if restore then s.enableTile (tile x) f else (s.enableTile (tile x) f).beginNode r f (tile x)) s =
      l.foldl (fun s x => s.enableTile (tile x) f) s := by
  induction l generalizing s with
  | nil => rfl
  | cons x l ih =>
    have off' : ((s.enableTile (tile x) f).rg r).tides = false :=
      (congrArg (fun y : State => (y.rg r).tides) (s.enableTile_frame (tile x) f) :).trans off
    rw [List.foldl_cons, List.foldl_cons, State.beginNode_tideless off', ite_self, ih off']
theorem State.waveColumn_tideless {s : State} {r : RegionId} (off : (s.rg r).tides = false) (f : Facet) (col : Nat) : s.waveColumn r f col =
    (List.range (fld (s.rg r).target 24 6)).foldl (fun x j => x.enableTile ((s.rg r).waveTile col j) f) s :=
  State.foldl_wave_tideless ((s.rg r).waveTile col) ((s.rg r).load.any Load.restore) f (List.range (fld (s.rg r).target 24 6)) off

section
variable {s : State} {r : RegionId} {l : Load} {e : Nat} (load : (s.rg r).load = some l) (phase : l.phase = .wave e)
include load phase
theorem waveArrival_wave (col : Nat) : exec (.waveArrival r col) s = when_ s (decide (col < fld (s.rg r).target 16 8) &&
    s.cycle == e + 1 + s.waveDelay (s.rg r) col) (s.waveColumn r l.facet col) := by
  simp only [exec_waveArrival, execWaveArrival, load, phase]
theorem loadPass_wave : exec (.loadPass r) s =
    when_ s (decide (e + 2 + s.waveDelay (s.rg r) (fld (s.rg r).target 16 8 - 1) ≤ s.cycle)) (s.finishLoad r l) := by
  simp only [exec_loadPass, execLoadPass, load, phase]
end

/-! The end of a load (R196) -/

/-- RGCTL when a load ends: FLOADED, and by the entry's ACT also IFAC and EN. -/
def Load.passCtl (l : Load) (ctl : Word) : Word :=
  let loaded := setBit ctl (4 + l.facet.val) true
  let stamped := if descAct l.entry = 0 then loaded else setFld loaded 1 2 l.facet.val
  if descAct l.entry = 2 then setBit stamped 0 true else stamped
theorem Load.passCtl_floaded (l : Load) (ctl : Word) : bit (l.passCtl ctl) (4 + l.facet.val) = true := by
  have loaded : bit (setBit ctl (4 + l.facet.val) true) (4 + l.facet.val) = true := bit_setBit_same _ _ _ (by omega)
  have stamped : bit (if descAct l.entry = 0 then setBit ctl (4 + l.facet.val) true
      else setFld (setBit ctl (4 + l.facet.val) true) 1 2 l.facet.val) (4 + l.facet.val) = true := by
    split
    · exact loaded
    · rw [bit_setFld_other _ _ _ _ _ (by omega), loaded]
  unfold Load.passCtl
  dsimp only
  split
  · rw [bit_setBit_other _ _ _ _ (by omega), stamped]
  · exact stamped
theorem Load.passCtl_ifac (l : Load) (ctl : Word) :
    fld (l.passCtl ctl) 1 2 = if descAct l.entry = 0 then fld ctl 1 2 else l.facet.val := by
  have kept : fld (setBit ctl (4 + l.facet.val) true) 1 2 = fld ctl 1 2 := fld_setBit_other _ _ _ _ _ (by omega)
  have named (w : Word) : fld (setFld w 1 2 l.facet.val) 1 2 = l.facet.val :=
    (fld_setFld_same _ _ _ _ (by decide)).trans (Nat.mod_eq_of_lt l.facet.isLt)
  have enabled (w : Word) : fld (setBit w 0 true) 1 2 = fld w 1 2 := fld_setBit_other _ _ _ _ _ (by decide)
  unfold Load.passCtl
  by_cases inert : descAct l.entry = 0
  · simp only [inert, if_true, Nat.zero_ne_add_one, if_false, kept]
  · simp only [inert, if_false]
    split
    · rw [enabled, named]
    · exact named _
theorem Load.passCtl_en (l : Load) (ctl : Word) : bit (l.passCtl ctl) 0 = if descAct l.entry = 2 then true else bit ctl 0 := by
  unfold Load.passCtl
  dsimp only
  split
  · exact bit_setBit_same _ _ _ (by decide)
  · split
    · exact bit_setBit_other _ _ _ _ (by omega)
    · rw [bit_setFld_other _ _ _ _ _ (by decide), bit_setBit_other _ _ _ _ (by omega)]

/-- The registers of a region whose load has passed. -/
def Region.loadPassed (g : Region) (l : Load) : Region :=
  { g with ctl := l.passCtl g.ctl, lqstat := setBit g.lqstat 6 false, load := none, handle := tset g.handle l.facet.val l.entry,
           swapped := if descAct l.entry = 0 then g.swapped else [] }
/-- A facet that was being loaded begins to fill (R452). -/
def Region.beginFilling (g : Region) (f : Facet) : Region := if g.phase f = 1 then g.setPhase f 2 else g
theorem Region.beginFilling_frame (g : Region) (f : Facet) : { g.beginFilling f with phs := g.phs } = g := by
  unfold Region.beginFilling
  split <;> rfl
/-- The region at the end of a load, but for the completion word and what becomes of the phases. -/
def Region.finishing (g : Region) (l : Load) : Region := ((g.loadPassed l).beginFilling l.facet).dropEntry l.idx
theorem Region.finishing_fields (g : Region) (l : Load) : let g' := g.finishing l; let q := g.queue.eraseIdx l.idx
    g'.load = none ∧ g'.queue = q ∧ g'.ctl = l.passCtl g.ctl ∧ g'.lqstat = setFld (setBit g.lqstat 6 false) 0 4 q.length ∧ g'.cw = g.cw := by
  have same := (g.loadPassed l).beginFilling_frame l.facet
  have load : ((g.loadPassed l).beginFilling l.facet).load = none := (congrArg Region.load same :)
  have queue : ((g.loadPassed l).beginFilling l.facet).queue = g.queue := (congrArg Region.queue same :)
  have ctl : ((g.loadPassed l).beginFilling l.facet).ctl = l.passCtl g.ctl := (congrArg Region.ctl same :)
  have lqstat : ((g.loadPassed l).beginFilling l.facet).lqstat = setBit g.lqstat 6 false := (congrArg Region.lqstat same :)
  have cw : ((g.loadPassed l).beginFilling l.facet).cw = g.cw := (congrArg Region.cw same :)
  simp only [Region.finishing, Region.dropEntry, Region.syncCount, load, queue, ctl, lqstat, cw, Option.map_none, and_self]
/-- The region at the end of a load, but for the completion word. -/
def Region.finished (g : Region) (l : Load) : Region := g.restamp (·.finishing l)
theorem Region.finished_fields (g : Region) (l : Load) : let g' := g.finished l; let q := g.queue.eraseIdx l.idx
    g'.load = none ∧ g'.queue = q ∧ g'.ctl = l.passCtl g.ctl ∧ g'.lqstat = setFld (setBit g.lqstat 6 false) 0 4 q.length ∧ g'.cw = g.cw := by
  obtain ⟨w, stamped⟩ := g.restamp_eq (·.finishing l)
  rw [Region.finished, stamped]
  exact g.finishing_fields l
theorem Region.finished_lbusy (g : Region) (l : Load) : (g.finished l).lbusy = false := by
  obtain ⟨-, -, -, lqstat, -⟩ := g.finished_fields l
  rw [Region.lbusy, lqstat, bit_setFld_other _ _ _ _ _ (by decide)]
  exact bit_setBit_same _ _ _ (by decide)
theorem Region.finished_floaded (g : Region) (l : Load) : (g.finished l).floaded l.facet = true := by
  obtain ⟨-, -, ctl, -⟩ := g.finished_fields l
  rw [Region.floaded, ctl, Load.passCtl_floaded]
theorem Region.finished_ifac (g : Region) (l : Load) : (g.finished l).ifac = if descAct l.entry = 0 then g.ifac else l.facet := by
  obtain ⟨-, -, ctl, -⟩ := g.finished_fields l
  rw [Region.ifac, ctl, Load.passCtl_ifac]
  split
  · rfl
  · exact Fin.ofNat_val_eq_self l.facet
theorem Region.finished_en (g : Region) (l : Load) : (g.finished l).en = if descAct l.entry = 2 then true else g.en := by
  obtain ⟨-, -, ctl, -⟩ := g.finished_fields l
  rw [Region.en, ctl, Load.passCtl_en, Region.en]

/-- A load that no restore has begun ends with its entry's completion word. -/
theorem State.finishLoad_eq (s : State) (r : RegionId) {l : Load} (fresh : l.restore = false) :
    s.finishLoad r l = (s.modRg r (·.finished l)).oweCw r l.entry l.facet true 0 := by
  simp only [State.finishLoad, fresh, Bool.false_eq_true, if_false]
  congr 2
  funext g
  rw [Region.finished]
  congr 1
  funext g
  rw [Region.finishing, Region.loadPassed, Load.passCtl]
  by_cases inert : descAct l.entry = 0
  · simp only [inert, if_true, Nat.zero_ne_add_one, if_false]
    rfl
  · by_cases enables : descAct l.entry = 2
    · simp only [enables, if_true]
      rfl
    · simp only [inert, enables, if_false]
      rfl

/-! Completion words (R197, R269) -/

section
variable {s : State} {r : RegionId} {c : CwStore} {rest : List CwStore} (owed : (s.rg r).cw = c :: rest)
include owed
theorem completionWordStore_early (early : s.cycle < c.due) : exec (.completionWordStore r) s = .next s := by
  simp only [exec_completionWordStore, execCompletionWordStore, owed]
  exact if_pos early

variable (due : c.due ≤ s.cycle)
include due
theorem completionWordStore_held {t0 : Nat} (held : c.held = some t0) : exec (.completionWordStore r) s =
    when_ s (decide (t0 + 1024000 ≤ (s.die (s.rg r).corner.die).time))
      ((s.modRg r fun g => { g with cw := rest }).refuseCw r c causeMigration) := by
  simp only [exec_completionWordStore, execCompletionWordStore, owed, held]
  exact if_neg (Nat.not_lt.2 due)

variable (first : c.held = none)
include first
theorem completionWordStore_holds (hold : s.walk r (c.va % 2 ^ 56) = .hold) : exec (.completionWordStore r) s =
    .next (s.modRg r fun g => { g with cw := { c with held := some (s.die (s.rg r).corner.die).time } :: rest }) := by
  simp only [exec_completionWordStore, execCompletionWordStore, owed, first, hold]
  exact if_neg (Nat.not_lt.2 due)
theorem completionWordStore_stores {leaf : Leaf} (walk : s.walk r (c.va % 2 ^ 56) = .leaf leaf) (inside : c.va < 2 ^ 56)
    (allowed : permOk leaf.word 6 = true) (taken : formRefusal 5 (leaf.pa (c.va % 2 ^ 56)) leaf.word = none)
    (free : s.isHeld (leaf.pa (c.va % 2 ^ 56) / 8) = false) : exec (.completionWordStore r) s =
      .next ((s.modRg r fun g => { g with cw := rest }).storeCw r c (leaf.pa (c.va % 2 ^ 56)) leaf.word) := by
  simp only [exec_completionWordStore, execCompletionWordStore, owed, first, walk, taken, allowed, free, Bool.not_true, Bool.not_false,
    Bool.false_eq_true, if_false, when_true, if_neg (Nat.not_lt.2 due), if_neg (Nat.not_le.2 inside)]
end

/-- A store that is refused leaves its notice and no more (R197). -/
theorem State.refuseCw_leaves (s : State) (r : RegionId) (c : CwStore) (code : Nat) :
    ((s.refuseCw r c code).rg r).cw = (s.rg r).cw ∧ (s.refuseCw r c code).mem = s.mem := by
  obtain ⟨l, w, caused⟩ := s.causeRg_rg_eq r c.facet code (c.va % 2 ^ 32) r
  rw [State.refuseCw, caused, State.causeRg_mem]
  exact ⟨rfl, rfl⟩

/-- Granules in which no bit has flipped are read without a report (R216). -/
theorem State.noteAt_sound {s : State} (sound : s.mem.bad = []) (r : RegionId) (f : Facet) (l : List Nat) : s.noteAt r f l = s := by
  rw [State.noteAt]
  induction l with
  | nil => rfl
  | cons p l ih => rw [List.foldl_cons, Memory.check_sound sound, if_pos rfl, ih]
theorem State.countBytes_frame (s : State) (pa gl cls : Nat) (write : Bool) : { s.countBytes pa gl cls write with dies := s.dies } = s := by
  unfold State.countBytes
  split <;> rfl
theorem RegionsStay.cw {s s' : State} (h : RegionsStay s s') (r : RegionId) : (s'.rg r).cw = (s.rg r).cw :=
  (congrArg Region.cw (show { s'.rg r with matches_ := (s.rg r).matches_, notices := (s.rg r).notices, nstat := (s.rg r).nstat } = s.rg r
    from h.rg r) :)

section
variable {s : State} (sound : s.mem.bad = []) (r : RegionId) (c : CwStore) (leaf : Word)
include sound
/-- Once the controller has counted its bytes, a completion word is written at its home and its tag set. -/
theorem State.storeCw_eq (pa : Nat) : ∃ b : State, b.regions = s.regions ∧
    b.mem = s.mem.devWrite pa (bytesOf 8 c.word.toNat) (leafGl leaf) false ∧
    s.storeCw r c pa leaf = b.setTag (pa / 8) true c.facet (some r) := by
  have counted := s.countBytes_frame pa (leafGl leaf) (fld leaf 52 4) true
  have mem : (s.countBytes pa (leafGl leaf) (fld leaf 52 4) true).mem = s.mem := (congrArg State.mem counted :)
  refine ⟨{ s.countBytes pa (leafGl leaf) (fld leaf 52 4) true with
    mem := s.mem.devWrite pa (bytesOf 8 c.word.toNat) (leafGl leaf) false }, (congrArg State.regions counted :), rfl, ?_⟩
  simp only [State.storeCw, State.noteAt_sound (mem.symm ▸ sound), mem]
theorem State.storeCw_cw (pa : Nat) : ((s.storeCw r c pa leaf).rg r).cw = (s.rg r).cw := by
  obtain ⟨b, regions, -, eq⟩ := State.storeCw_eq sound r c leaf pa
  rw [eq]
  exact RegionsStay.cw (.after (State.setTag_stay ..) regions) r

variable {pa : Nat} (hbm : isHbm pa = true)
include hbm
/-- A completion word is full at its address, and every other byte and tag stays (R197). -/
theorem State.storeCw_mem (wf : s.mem.wf = true) (aligned : pa % 8 = 0) : let m := (s.storeCw r c pa leaf).mem
    Holds m pa 8 c.word.toNat ∧ m.isFull pa = true ∧ MemoryElsewhere s.mem m pa 8 := by
  obtain ⟨b, -, mem, eq⟩ := State.storeCw_eq sound r c leaf pa
  have layout : OnlyLayout (s.mem.putBytes pa (bytesOf 8 c.word.toNat)) b.mem := by
    rw [mem]
    exact Memory.devWrite_layout sound hbm ..
  have noSram : isMt (8 * (pa / 8)) = false := isMt_of_isHbm (by rwa [Nat.mul_div_cancel' (Nat.dvd_of_mod_eq_zero aligned)])
  have after (a : Nat) := State.setTag_written layout (Memory.putBytes_wf _ _ _ wf) noSram true c.facet r a
  simp only [Memory.isFull, Memory.putBytes_full] at after
  rw [eq]
  refine ⟨fun i hi => ?_, (after pa).2.trans (if_pos rfl), fun a outside => (after a).1.trans ?_, fun a other => (after a).2.trans (if_neg other)⟩
  · rw [(after (pa + i)).1]
    exact Memory.holds_putBytes wf pa 8 c.word.toNat i hi
  · refine Memory.byte_putBytes_other _ _ _ _ ?_
    rw [length_bytesOf]
    omega
end

/-- Settles O45: the wave enables each element of its column, the end of a load leaves the facet loaded and the entry's completion word owed,
and the word that is due waits for its page, is refused, or is written full. -/
theorem loadEnds : Obligations.LoadEnds := by
  refine ⟨fun s r l e col load phase tideless inside => ⟨fun other => ?before, fun now_ => ?wave⟩,
    fun s r l e load phase fresh => ⟨fun early => ?early, fun now_ => ?pass⟩,
    fun s r c rest leaf wf owed => ⟨fun early => completionWordStore_early owed early,
      fun due => ⟨fun first hold => ?hold, fun t0 held => ⟨fun short => ?short, fun long => ?refuse⟩⟩,
      fun due first sound walk below allowed taken hbm aligned free => ?store⟩⟩
  case before =>
    rw [waveArrival_wave load phase]
    exact when_of_false (by simp [other])
  case wave =>
    rw [waveArrival_wave load phase]
    refine ⟨_, when_of_true (by simp [inside, now_]), ?_⟩
    rw [State.waveColumn_tideless tideless]
    refine ⟨State.foldl_enableTile_frame .., fun j hj ct => ?_⟩
    exact foldl_of_mem (P := fun x : State => bit (x.el ((s.rg r).waveTile col j)).fenable l.facet.val = true)
      (fun x i h => x.enableTile_keeps _ _ _ h) (fun x => x.enableTile_fenable _ ct) _ s (.inr (List.mem_range.2 hj))
  case early =>
    rw [loadPass_wave load phase]
    exact when_of_false (decide_eq_false (Nat.not_le.2 early))
  case pass =>
    obtain ⟨load', queue, -, -, cw⟩ := (s.rg r).finished_fields l
    rw [loadPass_wave load phase]
    refine ⟨_, when_of_true (decide_eq_true now_), ?_⟩
    rw [State.finishLoad_eq s r fresh]
    refine ⟨onlyRegion_trans (s.modRg_only r _) (State.oweCw_only ..), ?_⟩
    rw [State.oweCw_rg, State.modRg_rg_same]
    refine ⟨load', (s.rg r).finished_lbusy l, (s.rg r).finished_floaded l, queue, fun act => ?_, fun act => ?_, fun act => ?_, fun act => ?_,
      fun none_ => ?_, fun address => ?_⟩
    · exact ((s.rg r).finished_ifac l).trans (if_neg act)
    · exact ((s.rg r).finished_ifac l).trans (if_pos act)
    · exact ((s.rg r).finished_en l).trans (if_pos act)
    · exact ((s.rg r).finished_en l).trans (if_neg act)
    · rw [if_pos none_, cw]
    · obtain ⟨tag, ok, code⟩ := cwWord_fields l.entry true 0
      rw [if_neg address, cw]
      exact ⟨_, rfl, rfl, tag, ok, code, rfl⟩
  case hold => exact ⟨_, completionWordStore_holds owed due first hold, s.modRg_only r _, by rw [State.modRg_rg_same]⟩
  case short =>
    rw [completionWordStore_held owed due held]
    exact when_of_false (decide_eq_false (Nat.not_le.2 short))
  case refuse =>
    obtain ⟨cw, mem⟩ := (s.modRg r fun g => { g with cw := rest }).refuseCw_leaves r c causeMigration
    rw [completionWordStore_held owed due held]
    refine ⟨_, when_of_true (decide_eq_true long), ?_, mem⟩
    rw [cw, State.modRg_rg_same]
  case store =>
    refine ⟨_, completionWordStore_stores owed due first walk below allowed taken free, ?_, State.storeCw_mem (by exact sound) r c _ hbm wf aligned⟩
    rw [State.storeCw_cw (by exact sound), State.modRg_rg_same]

end Sys2Proof.Machine
end

section
/-! SUPPORT. What leaves the memory as it is. One lemma for each operation of the model that writes no byte, tag or poison mark:
`f_mem` for an operation on states, `f_kept` for the meaning of an instruction or event. They stand in the order of the model's files. -/

namespace Sys2Proof.Machine

@[simp] theorem State.mem_ite (c : Prop) [Decidable c] (a b : State) : (if c then a else b).mem = if c then a.mem else b.mem := apply_ite ..

/-- The second state has the memory of the first; a predicate of its own, so that `simp` proves it of a fold's step. -/
def SameMem (s s' : State) : Prop := s'.mem = s.mem

@[simp] theorem sameMem_iff (s s' : State) : SameMem s s' ↔ s'.mem = s.mem := ⟨id, id⟩

@[simp] theorem State.foldl_mem {α : Type} {step : State → α → State} (keep : ∀ s x, SameMem s (step s x))
    (l : List α) (s : State) : (l.foldl step s).mem = s.mem := by
  induction l generalizing s with
  | nil => rfl
  | cons x l ih => exact (ih _).trans (keep s x)

@[simp] theorem State.foldl_pair_mem {α β : Type} {step : State × β → α → State × β} (keep : ∀ y x, SameMem y.1 (step y x).1)
    (l : List α) (y : State × β) : (l.foldl step y).1.mem = y.1.mem := by
  induction l generalizing y with
  | nil => rfl
  | cons x l ih => exact (ih _).trans (keep y x)

/-- The outcome, where it is a state, has the memory of the state before. -/
def MemKept (s : State) : Out → Prop
  | .next s' => s'.mem = s.mem
  | _ => True

@[simp] theorem memKept_next (s s' : State) : MemKept s (.next s') ↔ s'.mem = s.mem := Iff.rfl
@[simp] theorem memKept_ite (s : State) (c : Prop) [Decidable c] (a b : Out) :
    MemKept s (if c then a else b) ↔ if c then MemKept s a else MemKept s b := by split <;> rfl

@[simp] theorem memKept_when (s s' : State) (c : Bool) (h : SameMem s s') : MemKept s (when_ s c s') := by
  cases c
  · rfl
  · exact h

/-- What an engine got leaves the memory as it is, where it has to wait or fails. -/
def Got.Keeps {α : Type} (s : State) : Got α → Prop
  | .ok _ => True
  | .wait s' => s'.mem = s.mem
  | .fail _ s' => s'.mem = s.mem

theorem Got.Keeps.of_wait {α : Type} {s s' : State} {x : Got α} (h : x.Keeps s) (e : x = .wait s') : s'.mem = s.mem := by
  subst e
  exact h

theorem Got.Keeps.of_fail {α : Type} {s s' : State} {x : Got α} {c : Nat} (h : x.Keeps s) (e : x = .fail c s') : s'.mem = s.mem := by
  subst e
  exact h

variable (s : State)

/-! The named operations over tables, memory, tokens and registers, the causes and notices (R363 to R365), and taking a trap (R38), clearing
it (R39), aborting (R32) and committing (R31) an activation -/

@[simp] theorem State.pick_mem : (s.pick).2.mem = s.mem := rfl

@[simp] theorem State.notify_mem (dst n) : (s.notify dst n).mem = s.mem := by
  unfold State.notify
  split <;> simp

@[simp] theorem State.dbgMatch_mem (r bitNo extra note code k) : (s.dbgMatch r bitNo extra note code k).mem = s.mem := by simp [State.dbgMatch]

@[simp] theorem State.dbgEvent_mem (t f type ok) : (s.dbgEvent t f type ok).mem = s.mem := by
  unfold State.dbgEvent
  split <;> simp

@[simp] theorem State.dbgTag_mem (t f space loc toFull) : (s.dbgTag t f space loc toFull).mem = s.mem := by simp [State.dbgTag]
@[simp] theorem State.releaseHolds_mem (t a) : (s.releaseHolds t a).mem = s.mem := rfl
@[simp] theorem State.abort_mem (t a) : (s.abort t a).mem = s.mem := rfl
@[simp] theorem State.trapAsync_mem (t f code hidx pcidx haddr) : (s.trapAsync t f code hidx pcidx haddr).mem = s.mem := by simp [State.trapAsync]
@[simp] theorem State.clearTrap_mem (t f) : (s.clearTrap t f).mem = s.mem := rfl

@[simp] theorem State.abortCount_mem (t a haddr) : (s.abortCount t a haddr).1.mem = s.mem := by
  simp only [State.abortCount]
  repeat' split
  all_goals simp

@[simp] theorem State.moorHandler_mem (t f h word awaitFull watch) : (s.moorHandler t f h word awaitFull watch).mem = s.mem := rfl
@[simp] theorem State.abortMoor_mem (t a haddr word awaitFull watch) :
    (s.abortMoor t a haddr word awaitFull watch).mem = s.mem := by simp [State.abortMoor]
@[simp] theorem State.unmoor_mem (t word full) : (s.unmoor t word full).mem = s.mem := by simp [State.unmoor]
@[simp] theorem State.logLocal_mem (t f word) : (s.logLocal t f word).mem = s.mem := by simp [State.logLocal]
@[simp] theorem State.logMt_mem (t f word) : (s.logMt t f word).mem = s.mem := by simp [State.logMt]

/-! Every operand form (R48 to R53), the stages of issue that all instructions share (R54 to R57), sends (R29, R147, R148), and the shapes
of the scalar and vector instructions -/

@[simp] theorem withAct_kept {s : State} {k : Tile → Act → State} (keep : ∀ t a, SameMem s (k t a)) : MemKept s (withAct s k) := by
  unfold withAct
  split
  · split
    · trivial
    · exact keep _ _
  · trivial

@[simp] theorem State.retire_mem (t a busy) : (s.retire t a busy).mem = s.mem := rfl
@[simp] theorem State.portWait_mem (t a) : (s.portWait t a).mem = s.mem := rfl
@[simp] theorem State.otherWait_mem (t a) : (s.otherWait t a).mem = s.mem := rfl

@[simp] theorem State.finishJump_mem (t a0 d e) : (s.finishJump t a0 d e).mem = s.mem := by
  unfold State.finishJump
  split <;> simp

@[simp] theorem State.issue_mem {s : State} (t : Tile) (a : Act) (h : Head) (srcs : List Spec) (out : Option (BitVec 4))
    {nul : Token → State} {body : State}
    (null : ∀ k, SameMem s (nul k)) (exec : SameMem s body) : (s.issue t a h srcs out nul body).mem = s.mem := by
  obtain ⟨-, e⟩ | ⟨-, ⟨-, e⟩ | ⟨-, e | ⟨k, -, -, e⟩ | e⟩⟩ := s.issue_cases t a h srcs out nul body <;> rw [e]
  · rfl
  · rfl
  · rfl
  · exact null k
  · exact exec

@[simp] theorem State.nullPlain_mem (t a srcs d k) : (s.nullPlain t a srcs d k).mem = s.mem := by
  unfold State.nullPlain
  repeat' split
  all_goals simp

@[simp] theorem State.scalarR_kept (w fp k busy f) : MemKept s (s.scalarR w fp k busy f) := by simp [State.scalarR]
@[simp] theorem State.scalarI_kept (w k f) : MemKept s (s.scalarI w k f) := by simp [State.scalarI]
@[simp] theorem State.vecR_kept (w width conv f) : MemKept s (s.vecR w width conv f) := by simp [State.vecR]

/-! Shared operations on regions -/

@[simp] theorem State.phaseCommit_mem (t f) : (s.phaseCommit t f).mem = s.mem := by
  unfold State.phaseCommit
  split <;> simp

@[simp] theorem State.abortTile_mem (t) : (s.abortTile t).mem = s.mem := by
  unfold State.abortTile
  split <;> rfl

@[simp] theorem State.beginRollback_mem (r stop) : (s.beginRollback r stop).mem = s.mem := by
  simp [State.beginRollback]

@[simp] theorem State.stopRegion_mem (r) : (s.stopRegion r).mem = s.mem := by simp [State.stopRegion]
@[simp] theorem State.rollbackOne_mem (r) : (s.rollbackOne r).mem = s.mem := by simp [State.rollbackOne]
@[simp] theorem State.rollback_mem (rs) : (s.rollback rs).mem = s.mem := by simp [State.rollback]
@[simp] theorem State.stopCause_mem (r) : (s.stopCause r).mem = s.mem := by simp [State.stopCause]

@[simp] theorem State.causeStop_mem (t f code detail) : (s.causeStop t f code detail).mem = s.mem := by
  simp only [State.causeStop]
  split <;> simp

@[simp] theorem State.bumpId_mem : (s.bumpId).mem = s.mem := rfl

/-! Device memory at its homes -/

@[simp] theorem State.causeReq_mem (q code detail) : (s.causeReq q code detail).mem = s.mem := by
  unfold State.causeReq
  split <;> simp

@[simp] theorem State.inTurn_mem {s : State} (who : Nat) (rs : List Nat) {act : State → State} (keep : ∀ x, SameMem x (act x)) :
    (s.inTurn who rs act).mem = s.mem := by
  unfold State.inTurn
  split
  · exact keep _
  · rfl

@[simp] theorem State.syncOcc_mem (r) : (s.syncOcc r).mem = s.mem := rfl
@[simp] theorem State.bwPut_mem (d r reach units k) : (s.bwPut d r reach units k).mem = s.mem := rfl
@[simp] theorem State.bwOverflow_mem (d r f) : (s.bwOverflow d r f).mem = s.mem := by simp [State.bwOverflow]
@[simp] theorem State.addShadow_mem (r reach word) : (s.addShadow r reach word).mem = s.mem := by simp [State.addShadow]
@[simp] theorem State.claspAccess_mem (r reach word) : (s.claspAccess r reach word).mem = s.mem := rfl
@[simp] theorem State.dbgHbmTag_mem (r f pa toFull) : (s.dbgHbmTag r f pa toFull).mem = s.mem := by simp [State.dbgHbmTag]

@[simp] theorem State.lineRelease_mem (t w) : (s.lineRelease t w).mem = s.mem :=
  State.foldl_mem (fun s x => by
    repeat' split
    all_goals simp) _ s

@[simp] theorem State.dbgMt_mem (t f idx reads writes) : (s.dbgMt t f idx reads writes).mem = s.mem := by simp [State.dbgMt]
@[simp] theorem State.countCorrected_mem (pa n) : (s.countCorrected pa n).mem = s.mem := by simp [State.countCorrected]
@[simp] theorem State.noteAt_mem (r f granules) : (s.noteAt r f granules).mem = s.mem := by simp [State.noteAt]
@[simp] theorem State.noteReads_mem (q granules) : (s.noteReads q granules).mem = s.mem := by simp [State.noteReads]
@[simp] theorem State.noteWords_mem (q) : (s.noteWords q).mem = s.mem := by simp [State.noteWords]
@[simp] theorem State.countBytes_mem (pa gl cls write) : (s.countBytes pa gl cls write).mem = s.mem := by simp [State.countBytes]
@[simp] theorem State.endHold_mem (word) : (s.endHold word).mem = s.mem := rfl

@[simp] theorem State.beforeAccess_mem (q) : (s.beforeAccess q).mem = s.mem := by
  unfold State.beforeAccess
  split <;> simp

/-! Writes that leave on a host link (R252, R434), the walk of the translation tables (R255 to R262), edge TLBs (R265), element addresses
and their refusals (R227), and major faults with their upcalls (R267 to R271) -/

@[simp] theorem State.hlerrCount_mem (io lo pa) : (s.hlerrCount io lo pa).mem = s.mem := rfl
@[simp] theorem State.noteWalk_mem (r f va) : (s.noteWalk r f va).mem = s.mem := by simp [State.noteWalk]

@[simp] theorem State.tlbHit_mem (t va) : (s.tlbHit t va).mem = s.mem := by
  unfold State.tlbHit
  repeat' split
  all_goals simp

@[simp] theorem State.elemTouch_mem (t l) : (s.elemTouch t l).mem = s.mem := by simp [State.elemTouch]
@[simp] theorem State.startWalk_mem (r d f va need why) : (s.startWalk r d f va need why).1.mem = s.mem := rfl
@[simp] theorem State.rearm_mem (r) : (s.rearm r).mem = s.mem := rfl

/-! Nodes of a facet, the marks at their ports, and what a node does when it takes a tide, a drain or a debug mark (R370 to R372, R390,
R448) -/

@[simp] theorem State.modInq_mem (t f p g) : (s.modInq t f p g).mem = s.mem := by simp [State.modInq]
@[simp] theorem State.modOutq_mem (t p g) : (s.modOutq t p g).mem = s.mem := by simp [State.modOutq]
@[simp] theorem State.holdNode_mem (t f b) : (s.holdNode t f b).mem = s.mem := by simp [State.holdNode]
@[simp] theorem State.dropHeads_mem (t f ports) : (s.dropHeads t f ports).mem = s.mem := by simp [State.dropHeads]
@[simp] theorem State.passMark_mem (t f k) : (s.passMark t f k).mem = s.mem := by simp [State.passMark]
@[simp] theorem State.snapNode_mem (t f n record) : (s.snapNode t f n record).mem = s.mem := by simp [State.snapNode]
@[simp] theorem State.takeTide_mem (t f k injected) : (s.takeTide t f k injected).mem = s.mem := by simp [State.takeTide]
@[simp] theorem State.takeHold_mem (t f k injected) : (s.takeHold t f k injected).mem = s.mem := by simp [State.takeHold]
@[simp] theorem State.endBack_mem (t f p k) : (s.endBack t f p k).mem = s.mem := by simp [State.endBack]

/-! Steps of the element's own logic -/

@[simp] theorem State.dispatch_mem (t) : (s.dispatch t).mem = s.mem := by
  simp only [State.dispatch]
  split <;> simp

@[simp] theorem execHandlerDispatch_kept (t) : MemKept s (execHandlerDispatch t s) := by simp [execHandlerDispatch]

@[simp] theorem execStallAbort_kept (t) : MemKept s (execStallAbort t s) := by
  unfold execStallAbort
  split <;> simp

@[simp] theorem execMarkRemoval_kept (t port f) : MemKept s (execMarkRemoval t port f s) := by
  unfold execMarkRemoval
  repeat' split
  all_goals simp

@[simp] theorem execWindowWriteApply_kept (t f reg v) : MemKept s (execWindowWriteApply t f reg v s) := by simp [execWindowWriteApply]
@[simp] theorem execTrappedClear_kept (t f) : MemKept s (execTrappedClear t f s) := by simp [execTrappedClear]
@[simp] theorem execHaltedClear_kept (t f) : MemKept s (execHaltedClear t f s) := rfl
@[simp] theorem execFenableClear_kept (t f) : MemKept s (execFenableClear t f s) := rfl

/-! The commit of an activation (R31) and the control, handler and system instructions (R114 to R125, R244) -/

@[simp] theorem State.localTagChange_mem (t f word full) : (s.localTagChange t f word full).mem = s.mem := by simp [State.localTagChange]
@[simp] theorem execBr_kept (w) : MemKept s (execBr w s) := by simp [execBr]
@[simp] theorem execBrc_kept (w) : MemKept s (execBrc w s) := by simp [execBrc]

@[simp] theorem execCall_kept (w) : MemKept s (execCall w s) := by
  unfold execCall
  split <;> simp

@[simp] theorem execRet_kept (w) : MemKept s (execRet w s) := by simp [execRet]

@[simp] theorem execLoop_kept (w) : MemKept s (execLoop w s) := by
  unfold execLoop
  split <;> simp

@[simp] theorem execYield_kept (w) : MemKept s (execYield w s) := by simp [execYield]
@[simp] theorem execAbort_kept (w) : MemKept s (execAbort w s) := by simp [execAbort]
@[simp] theorem execTrap_kept (w) : MemKept s (execTrap w s) := by simp [execTrap]
@[simp] theorem execArm_kept (w) : MemKept s (execArm w s) := by simp [execArm]
@[simp] theorem execMask_kept (w) : MemKept s (execMask w s) := by simp [execMask]
@[simp] theorem execMfs_kept (w) : MemKept s (execMfs w s) := by simp [execMfs]
@[simp] theorem execMts_kept (w) : MemKept s (execMts w s) := by simp [execMts]
@[simp] theorem execFence_kept (w) : MemKept s (execFence w s) := by simp [execFence]

@[simp] theorem execOrder_kept (w) : MemKept s (execOrder w s) := by
  unfold execOrder
  split <;> simp

/-! The local memory and tag instructions (R142 to R146) -/

@[simp] theorem State.localOp_kept {s : State} (w : MForm) {body : Tile → Act → State} (keep : ∀ t a, SameMem s (body t a)) :
    MemKept s (s.localOp w body) :=
  withAct_kept fun t a => State.issue_mem _ _ _ _ _ (fun _ => s.nullPlain_mem ..) (keep t a)

@[simp] theorem State.localFail_mem (t a off addr awaitFull) : (s.localFail t a off addr awaitFull).mem = s.mem := by simp [State.localFail]
@[simp] theorem execLd_kept (w) : MemKept s (execLd w s) := by simp [execLd]
@[simp] theorem execSt_kept (w) : MemKept s (execSt w s) := by simp [execSt]
@[simp] theorem execLdv_kept (w) : MemKept s (execLdv w s) := by simp [execLdv]
@[simp] theorem execStv_kept (w) : MemKept s (execStv w s) := by simp [execStv]

@[simp] theorem execLdw_kept (w) : MemKept s (execLdw w s) :=
  State.localOp_kept w fun t a => by
    repeat' split
    all_goals simp

@[simp] theorem execLdc_kept (w) : MemKept s (execLdc w s) :=
  State.localOp_kept w fun t a => by
    repeat' split
    all_goals simp

@[simp] theorem execStf_kept (w) : MemKept s (execStf w s) :=
  State.localOp_kept w fun t a => by
    repeat' split
    all_goals simp

@[simp] theorem execStx_kept (w) : MemKept s (execStx w s) := by simp [execStx]
@[simp] theorem execTage_kept (w) : MemKept s (execTage w s) := by simp [execTage]
@[simp] theorem execTagq_kept (w) : MemKept s (execTagq w s) := by simp [execTagq]

/-! Requests by their identifiers, and delayed lockstep (R387, R388) -/

@[simp] theorem State.setReq_mem (q) : (s.setReq q).mem = s.mem := rfl
@[simp] theorem State.delReq_mem (id) : (s.delReq id).mem = s.mem := rfl
@[simp] theorem State.lockFail_mem (r f reach) : (s.lockFail r f reach).mem = s.mem := by simp [State.lockFail]

@[simp] theorem State.lockCompare_mem (r reach x mirror) : (s.lockCompare r reach x mirror).mem = s.mem := by
  simp only [State.lockCompare]
  repeat' split
  all_goals simp

@[simp] theorem State.sendReq_mem (t q asks) : (s.sendReq t q asks).mem = s.mem := by
  simp only [State.sendReq]
  split <;> simp

@[simp] theorem State.issueReq_mem (t q asks) : (s.issueReq t q asks).mem = s.mem := by simp [State.issueReq]

@[simp] theorem State.settleTaken_mem (q) : (s.settleTaken q).mem = s.mem := by
  unfold State.settleTaken
  split <;> simp

@[simp] theorem State.noteReply_mem (t f r) : (s.noteReply t f r).mem = s.mem := by
  unfold State.noteReply
  split <;> simp

@[simp] theorem State.mirrorReply_mem (key f r) : (s.mirrorReply key f r).mem = s.mem := by
  simp only [State.mirrorReply]
  split <;> simp

@[simp] theorem State.unmoorWatch_mem (t watch) : (s.unmoorWatch t watch).mem = s.mem := by simp [State.unmoorWatch]

@[simp] theorem State.takeAsync_mem (t f id cause h pc loc) : (s.takeAsync t f id cause h pc loc).mem = s.mem := by
  unfold State.takeAsync
  split <;> simp

@[simp] theorem State.noteAsync_mem (t f id cause h pc loc) : (s.noteAsync t f id cause h pc loc).mem = s.mem := by
  unfold State.noteAsync
  split <;> simp

@[simp] theorem State.deliverMirrors_mem (r) : (s.deliverMirrors r).mem = s.mem := by simp [State.deliverMirrors]

/-! The instructions by which an element reaches device memory (R227 to R234) -/

@[simp] theorem State.devAsk_mem (t a a' q d mask truth) : (s.devAsk t a a' q d mask truth).mem = s.mem := by simp [State.devAsk]

@[simp] theorem State.devWalk_mem (t a va form) : (s.devWalk t a va form).mem = s.mem := by
  unfold State.devWalk
  split <;> simp

@[simp] theorem State.devOp_kept {s : State} (w : MForm) {body : Tile → Act → State} (keep : ∀ t a, SameMem s (body t a)) :
    MemKept s (s.devOp w body) := by
  refine withAct_kept fun t a => State.issue_mem _ _ _ _ _ (fun _ => s.nullPlain_mem ..) ?_
  split
  · rfl
  · exact keep t a

@[simp] theorem State.devLoad_kept (w form truth) : MemKept s (s.devLoad w form truth) :=
  State.devOp_kept w fun t a => by
    dsimp only
    repeat' split
    all_goals simp

@[simp] theorem State.devStore_kept (w form) : MemKept s (s.devStore w form) :=
  State.devOp_kept w fun t a => by
    dsimp only
    repeat' split
    all_goals simp

@[simp] theorem State.devAtomic_kept (w cas) : MemKept s (s.devAtomic w cas) :=
  withAct_kept fun t a => State.issue_mem _ _ _ _ _ (fun _ => s.nullPlain_mem ..) <| by
    dsimp only
    repeat' split
    all_goals simp

@[simp] theorem execTld_kept (w) : MemKept s (execTld w s) :=
  State.devOp_kept w fun t a => by
    dsimp only
    repeat' split
    all_goals simp

@[simp] theorem execTst_kept (w) : MemKept s (execTst w s) :=
  State.devOp_kept w fun t a => by
    dsimp only
    repeat' split
    all_goals simp

@[simp] theorem State.takeReply_mem (t a q d mask truth r) : (s.takeReply t a q d mask truth r).mem = s.mem := by
  unfold State.takeReply
  split <;> simp

/-! Placement queues -/

@[simp] theorem State.push_mem (r e) : (s.push r e).mem = s.mem := rfl
@[simp] theorem State.launchStore_mem (off bs) : (s.launchStore off bs).mem = s.mem := by simp [State.launchStore]

/-! Steps of requests to device memory -/

@[simp] theorem execLockstepTimeout_kept (r) : MemKept s (execLockstepTimeout r s) := by
  unfold execLockstepTimeout
  split <;> simp

@[simp] theorem execRequestLeave_kept (t f) : MemKept s (execRequestLeave t f s) := by
  unfold execRequestLeave
  repeat' split
  all_goals simp

@[simp] theorem State.homeOverflow_mem (q) : (s.homeOverflow q).mem = s.mem := by
  unfold State.homeOverflow
  split <;> simp

@[simp] theorem State.answerReq_mem (q r) : (s.answerReq q r).mem = s.mem := rfl
@[simp] theorem State.trimReexam_mem (word) : (s.trimReexam word).mem = s.mem := by simp [State.trimReexam]

@[simp] theorem execRequestReply_kept (id) : MemKept s (execRequestReply id s) := by
  unfold execRequestReply
  repeat' split
  all_goals simp

@[simp] theorem execWatchWake_kept (id) : MemKept s (execWatchWake id s) := by
  unfold execWatchWake
  repeat' split
  all_goals simp

@[simp] theorem execAsyncTrap_kept (id) : MemKept s (execAsyncTrap id s) := by
  unfold execAsyncTrap
  repeat' split
  all_goals simp

@[simp] theorem execRegulatorGrant_kept (d cls) : MemKept s (execRegulatorGrant d cls s) := by
  simp only [execRegulatorGrant]
  split <;> simp

@[simp] theorem execMooringFormatDone_kept (r) : MemKept s (execMooringFormatDone r s) := by simp [execMooringFormatDone]

@[simp] theorem State.mtTake_mem (t f p) : (s.mtTake t f p).mem = s.mem := by
  simp only [State.mtTake]
  split <;> simp

@[simp] theorem State.mtTaking_mem {s : State} (t : Tile) (f : Facet) (p : Fin 16) {k : State → State} (keep : ∀ x, SameMem x (k x)) :
    (s.mtTaking t f p k).mem = s.mem := by
  unfold State.mtTaking
  dsimp only
  split
  · simp
  · exact (keep _).trans (s.mtTake_mem ..)

@[simp] theorem State.mtSend_mem (t p k wait) : (s.mtSend t p k wait).mem = s.mem := rfl

/-! Commits (R249, R374, R379, R381) -/

@[simp] theorem State.chargeStore_mem (pa gl cls) : (s.chargeStore pa gl cls).mem = s.mem := by simp [State.chargeStore]
@[simp] theorem State.takeEntries_mem (h) : (s.takeEntries h).2.mem = s.mem := rfl
@[simp] theorem State.freeBefore_mem (r n) : (s.freeBefore r n).mem = s.mem := by simp [State.freeBefore]

/-! The fabric (R151 to R169) -/

@[simp] theorem State.modHop_mem (t e f) : (s.modHop t e f).mem = s.mem := rfl

@[simp] theorem State.countLink_mem (t f e k) : (s.countLink t f e k).mem = s.mem := by
  unfold State.countLink
  split <;> simp

@[simp] theorem State.dropUnrouted_mem (t src k) : (s.dropUnrouted t src k).mem = s.mem := by
  unfold State.dropUnrouted
  dsimp only
  split
  · rfl
  · split <;> simp

@[simp] theorem State.egressPassed_mem (r p k) : (s.egressPassed r p k).mem = s.mem := rfl
@[simp] theorem State.rootsTake_mem (r f k) : (s.rootsTake r f k).mem = s.mem := by simp [State.rootsTake]

@[simp] theorem State.ingressDone_mem (s : State) (r : RegionId) (p : Nat) (k : Token) (o : Offer) (org : Option (Nat × Nat)) :
    (s.ingressDone r p k o org).mem = s.mem := by
  unfold State.ingressDone
  extract_lets g f reach charged replayed delayed joined listed turned
  have charged_mem : charged.mem = s.mem := by unfold charged; split <;> simp
  have replayed_mem : replayed.mem = charged.mem := by unfold replayed; split <;> simp
  have delayed_mem : delayed.mem = replayed.mem := by unfold delayed; split <;> simp
  have joined_mem : joined.mem = delayed.mem := by
    unfold joined
    repeat' split
    all_goals rfl
  have turned_mem : turned.mem = joined.mem := by
    unfold turned
    repeat' split
    all_goals rfl
  have before := (((turned_mem.trans joined_mem).trans delayed_mem).trans replayed_mem).trans charged_mem
  split
  · rw [State.rootsTake_mem, before]
  · exact before

@[simp] theorem State.leavePlace_mem (p o) : (s.leavePlace p o).mem = s.mem := by
  simp only [State.leavePlace]
  repeat' split
  all_goals simp

@[simp] theorem State.applyEff_mem (x) : (s.applyEff x).mem = s.mem := by
  simp only [State.applyEff]
  repeat' split
  all_goals simp

@[simp] theorem State.applyEffs_mem (l) : (s.applyEffs l).mem = s.mem := by simp [State.applyEffs]

@[simp] theorem State.notePrimary_mem (p) : (s.notePrimary p).mem = s.mem := by
  unfold State.notePrimary
  repeat' split
  all_goals simp

@[simp] theorem State.advance_mem (p) : (s.advance p).mem = s.mem := by
  unfold State.advance
  split <;> simp

@[simp] theorem execRouteAdvance_kept : MemKept s (execRouteAdvance s) := by simp [execRouteAdvance]

@[simp] theorem execIngressAccept_kept (r p) : MemKept s (execIngressAccept r p s) := by
  unfold execIngressAccept
  repeat' split
  all_goals simp

@[simp] theorem execBoundaryArrival_kept (t entry) : MemKept s (execBoundaryArrival t entry s) := by
  unfold execBoundaryArrival
  split <;> simp

@[simp] theorem execCreditReturn_kept (t entry) : MemKept s (execCreditReturn t entry s) := by
  unfold execCreditReturn
  split <;> simp

@[simp] theorem State.setBus_mem (d b l) : (s.setBus d b l).mem = s.mem := by
  unfold State.setBus
  split <;> simp

@[simp] theorem execBusDelivery_kept (d bus) : MemKept s (execBusDelivery d bus s) := by
  unfold execBusDelivery
  split <;> simp

@[simp] theorem execDelayLineArrival_kept (r p) : MemKept s (execDelayLineArrival r p s) := by
  simp only [execDelayLineArrival]
  repeat' split
  all_goals simp

/-! Tides and reaches (R368 to R375, R414), commits (R379, R386), rollbacks, stops and replay (R383 to R386), strikes (R366, R367), notices
(R365) and freezes (R396) -/

@[simp] theorem State.injectTide_mem (r late) : (s.injectTide r late).mem = s.mem := by simp [State.injectTide]
@[simp] theorem execTideInject_kept (r) : MemKept s (execTideInject r s) := by simp [execTideInject]

@[simp] theorem execTideTake_kept (t f) : MemKept s (execTideTake t f s) := by
  unfold execTideTake
  split <;> simp

@[simp] theorem execReachClose_kept (r) : MemKept s (execReachClose r s) := by
  simp only [execReachClose]
  repeat' split
  all_goals simp

@[simp] theorem State.restoreNode_mem (t f n) : (s.restoreNode t f n).mem = s.mem := by
  unfold State.restoreNode
  repeat' split
  all_goals simp

@[simp] theorem State.clearTokens_mem (t f) : (s.clearTokens t f).mem = s.mem := by simp [State.clearTokens]
@[simp] theorem State.unmoorLost_mem (t) : (s.unmoorLost t).mem = s.mem := by simp [State.unmoorLost]
@[simp] theorem State.restoreHops_mem (r n) : (s.restoreHops r n).mem = s.mem := by simp [State.restoreHops]
@[simp] theorem State.rootsPass_mem (r f k) : (s.rootsPass r f k).mem = s.mem := by simp [State.rootsPass]

@[simp] theorem State.startReplay_mem (r) : (s.startReplay r).mem = s.mem := by
  unfold State.startReplay
  dsimp only
  split
  · rfl
  · refine State.foldl_mem (fun s f => ?_) _ _
    repeat' split
    all_goals simp

@[simp] theorem execReplayStart_kept (r) : MemKept s (execReplayStart r s) := by
  simp only [execReplayStart]
  split <;> simp

@[simp] theorem State.clearStop_mem (r) : (s.clearStop r).mem = s.mem := rfl
@[simp] theorem execStopClear_kept (r) : MemKept s (execStopClear r s) := by simp [execStopClear]
@[simp] theorem State.snapAll_mem (r n) : (s.snapAll r n).mem = s.mem := by simp [State.snapAll]
@[simp] theorem State.freeTides_mem (r) : (s.freeTides r).mem = s.mem := by simp [State.freeTides]
@[simp] theorem State.allTimed_mem (r) : (s.allTimed r).mem = s.mem := rfl
@[simp] theorem State.writeTide_mem (r v) : (s.writeTide r v).mem = s.mem := by simp [State.writeTide]
@[simp] theorem execTideControlWrite_kept (r v) : MemKept s (execTideControlWrite r v s) := by simp [execTideControlWrite]
@[simp] theorem State.strike_mem (die zone) : (s.strike die zone).mem = s.mem := by simp [State.strike]
@[simp] theorem execStrikeReport_kept (die zone) : MemKept s (execStrikeReport die zone s) := by simp [execStrikeReport]

@[simp] theorem State.takeNotice_mem (fifo) : (s.takeNotice fifo).mem = s.mem := by
  unfold State.takeNotice
  repeat' split
  all_goals simp

@[simp] theorem execNoticeRead_kept (fifo) : MemKept s (execNoticeRead fifo s) := by simp [execNoticeRead]

@[simp] theorem execFreezeStop_kept (r) : MemKept s (execFreezeStop r s) := by
  unfold execFreezeStop
  split <;> simp

@[simp] theorem State.release_mem (r) : (s.release r).mem = s.mem := by simp [State.release]
@[simp] theorem execFreezeRelease_kept (r) : MemKept s (execFreezeRelease r s) := by simp [execFreezeRelease]

/-! Regions -/

@[simp] theorem State.writeGeom_mem (r v) : (s.writeGeom r v).mem = s.mem := by simp [State.writeGeom]
@[simp] theorem execRggeomWrite_kept (r v) : MemKept s (execRggeomWrite r v s) := by simp [execRggeomWrite]
@[simp] theorem State.writeNew_mem (r v) : (s.writeNew r v).mem = s.mem := by simp [State.writeNew]
@[simp] theorem execRgnewWrite_kept (r v) : MemKept s (execRgnewWrite r v s) := by simp [execRgnewWrite]

@[simp] theorem execResizeComplete_kept (r) : MemKept s (execResizeComplete r s) := by
  unfold execResizeComplete
  split <;> simp

@[simp] theorem State.writePort_mem (r dir p v) : (s.writePort r dir p v).mem = s.mem := by simp [State.writePort]
@[simp] theorem execPortRegisterWrite_kept (r dir p v) : MemKept s (execPortRegisterWrite r dir p v s) := by simp [execPortRegisterWrite]
@[simp] theorem execRateUpdate_kept (r p rate) : MemKept s (execRateUpdate r p rate s) := by simp [execRateUpdate]
@[simp] theorem execFquietSet_kept (r f) : MemKept s (execFquietSet r f s) := by simp [execFquietSet]
@[simp] theorem State.swapStep_mem (r due) : (s.swapStep r due).mem = s.mem := by simp [State.swapStep]
@[simp] theorem execSwapDue_kept (r) : MemKept s (execSwapDue r s) := by simp [execSwapDue]
@[simp] theorem execSlotBoundary_kept (r) : MemKept s (execSlotBoundary r s) := by simp [execSlotBoundary]
@[simp] theorem execSeedtPush_kept (r p v) : MemKept s (execSeedtPush r p v s) := rfl
@[simp] theorem execSeedFlush_kept (r p) : MemKept s (execSeedFlush r p s) := rfl
@[simp] theorem execRgtenWrite_kept (r v) : MemKept s (execRgtenWrite r v s) := rfl

/-! Steps of translation (R262 to R274) -/

@[simp] theorem State.delWalk_mem (id) : (s.delWalk id).mem = s.mem := rfl
@[simp] theorem State.modGen_mem (t f g h) : (s.modGen t f g h).mem = s.mem := rfl

@[simp] theorem State.walkLeaf_mem (w l) : (s.walkLeaf w l).mem = s.mem := by
  simp only [State.walkLeaf]
  repeat' split
  all_goals simp

@[simp] theorem State.walkRefuse_mem (w code) : (s.walkRefuse w code).mem = s.mem := by
  simp only [State.walkRefuse]
  repeat' split
  all_goals simp

@[simp] theorem State.trBusy_mem (d v) : (s.trBusy d v).mem = s.mem := rfl
@[simp] theorem State.invalidate_mem (ds asid hit) : (s.invalidate ds asid hit).mem = s.mem := by simp [State.invalidate]
@[simp] theorem State.trRange_mem (d v) : (s.trRange d v).mem = s.mem := by simp [State.trRange]
@[simp] theorem State.trAsidAll_mem (d v) : (s.trAsidAll d v).mem = s.mem := by simp [State.trAsidAll]
@[simp] theorem State.trWake_mem (d v) : (s.trWake d v).mem = s.mem := by simp [State.trWake]
@[simp] theorem execTrcmdInvalidateRange_kept (d v) : MemKept s (execTrcmdInvalidateRange d v s) := by simp [execTrcmdInvalidateRange]
@[simp] theorem execTrcmdInvalidateAsid_kept (d v) : MemKept s (execTrcmdInvalidateAsid d v s) := by simp [execTrcmdInvalidateAsid]
@[simp] theorem execTrcmdWake_kept (d v) : MemKept s (execTrcmdWake d v s) := by simp [execTrcmdWake]
@[simp] theorem execTrcmdComplete_kept (d) : MemKept s (execTrcmdComplete d s) := by simp [execTrcmdComplete]
@[simp] theorem State.pinGo_mem (d v) : (s.pinGo d v).mem = s.mem := rfl
@[simp] theorem execPinQuery_kept (d v) : MemKept s (execPinQuery d v s) := by simp [execPinQuery]
@[simp] theorem execPinQueryComplete_kept (d) : MemKept s (execPinQueryComplete d s) := by simp [execPinQueryComplete]
@[simp] theorem State.writeTrr_mem (r v) : (s.writeTrr r v).mem = s.mem := rfl
@[simp] theorem execRgtrrWrite_kept (r v) : MemKept s (execRgtrrWrite r v s) := rfl
@[simp] theorem execRearm_kept (r) : MemKept s (execRearm r s) := rfl
@[simp] theorem State.writeMoor_mem (r v) : (s.writeMoor r v).mem = s.mem := rfl
@[simp] theorem execRgmoorWrite_kept (r v) : MemKept s (execRgmoorWrite r v s) := rfl

/-! Frames of a configuration image (R73, R182 to R187, R377) -/

@[simp] theorem State.writeSwitch_mem (t f k) : (s.writeSwitch t f k).mem = s.mem := by simp [State.writeSwitch]
@[simp] theorem State.writeAg_mem (t f k) : (s.writeAg t f k).mem = s.mem := rfl

/-! Stream engines (R282 to R304) -/

@[simp] theorem State.setCmd_mem (t f c) : (s.setCmd t f c).mem = s.mem := rfl
@[simp] theorem State.delCmd_mem (t f id) : (s.delCmd t f id).mem = s.mem := rfl
@[simp] theorem State.setNode_mem (t i n) : (s.setNode t i n).mem = s.mem := rfl

@[simp] theorem State.succOne_mem (t f failed i) : (s.succOne t f failed i).1.mem = s.mem := by
  simp only [State.succOne]
  split <;> simp

@[simp] theorem State.succAll_mem (t f mask failed) : (s.succAll t f mask failed).1.mem = s.mem := by simp [State.succAll]
@[simp] theorem State.complete_mem (t f result op status node lnch sc reqs) :
    (s.complete t f result op status node lnch sc reqs).mem = s.mem := by simp [State.complete]

theorem State.engMiss_keeps {α : Type} (s : State) (t : Tile) (f : Facet) (va need : Nat) (w : WalkFor) : (s.engMiss t f va need w :
    Got α).Keeps s := by
  unfold State.engMiss
  dsimp only
  repeat' split
  all_goals simp [Got.Keeps]

theorem State.engAll_keeps (t f need w l) : (s.engAll t f need w l).Keeps s := by
  induction l with
  | nil => trivial
  | cons x l ih =>
    cases x with
    | here pa leaf =>
      unfold State.engAll
      split <;> simp_all [Got.Keeps]
    | miss va => exact s.engMiss_keeps ..
    | bad c => rfl

theorem State.genWords_keeps (t f gi k need form) : (s.genWords t f gi k need form).Keeps s := by
  unfold State.genWords
  dsimp only
  split
  · rfl
  · exact s.engAll_keeps ..

@[simp] theorem State.engIssue_mem (t q) : (s.engIssue t q).mem = s.mem := by simp [State.engIssue]
@[simp] theorem State.engIssues_mem (t l) : (s.engIssues t l).1.mem = s.mem := by simp [State.engIssues]
@[simp] theorem State.engReads_mem (t f c form size l) : (s.engReads t f c form size l).1.mem = s.mem := by simp [State.engReads]

@[simp] theorem State.engTake_mem (t f ids) : (s.engTake t f ids).mem = s.mem :=
  State.foldl_mem (fun s x => by
    repeat' split
    all_goals simp) _ s

@[simp] theorem State.harvest_mem (t f c) : (s.harvest t f c).1.mem = s.mem :=
  State.foldl_pair_mem (fun y id => by
    repeat' split
    all_goals simp) _ (s, c)

@[simp] theorem State.idleGens_mem (t f l) : (s.idleGens t f l).mem = s.mem := by simp [State.idleGens]
@[simp] theorem State.doneCmd_mem (t f c) : (s.doneCmd t f c).mem = s.mem := by simp [State.doneCmd]

@[simp] theorem State.endChildren_mem (t f g status) : (s.endChildren t f g status).mem = s.mem :=
  State.foldl_mem (fun s x => by
    dsimp only
    repeat' split
    all_goals simp) _ s

@[simp] theorem State.endCmd_mem (t f c) : (s.endCmd t f c).mem = s.mem := by
  unfold State.endCmd
  dsimp only
  split <;> simp

@[simp] theorem State.settleCmd_mem (t f c) : (s.settleCmd t f c).mem = s.mem := by
  unfold State.settleCmd
  dsimp only
  split <;> simp

@[simp] theorem execCommandCompletion_kept (t) : MemKept s (execCommandCompletion t s) := by
  unfold execCommandCompletion
  split <;> simp

@[simp] theorem State.permitAll_mem (t f g i) : (s.permitAll t f g i).mem = s.mem := by simp [State.permitAll]

@[simp] theorem State.returnDone_mem (t f g i) : (s.returnDone t f g i).mem = s.mem := by
  unfold State.returnDone
  split <;> simp

@[simp] theorem execPermitArrival_kept (t f ag) : MemKept s (execPermitArrival t f ag s) := by
  unfold execPermitArrival
  split <;> simp

@[simp] theorem execDoneArrival_kept (t f ag) : MemKept s (execDoneArrival t f ag s) := by
  unfold execDoneArrival
  split <;> simp

@[simp] theorem State.launchNode_mem (t i) : (s.launchNode t i).mem = s.mem := by
  unfold State.launchNode
  dsimp only
  repeat' split
  all_goals simp

@[simp] theorem execNodeLaunch_kept (t node) : MemKept s (execNodeLaunch t node s) := by simp [execNodeLaunch]

/-! Stream commands at work (R287, R293 to R309, R318 to R321) -/

@[simp] theorem State.emit_mem {s : State} (t : Tile) (f : Facet) (gi : Fin 4) (g : Gen) (bus : Bool) (l : List Token) {act :
    State → State} (keep : ∀ x, SameMem x (act x)) :
    (s.emit t f gi g bus l act).mem = s.mem := by
  unfold State.emit
  dsimp only
  split
  · split
    · exact State.inTurn_mem _ _ fun x => (keep _).trans (x.setBus_mem ..)
    · rfl
  · split
    · exact (keep _).trans (by simp)
    · rfl

@[simp] theorem State.startGens_mem (t f c) : (s.startGens t f c).mem = s.mem := by simp [State.startGens]
@[simp] theorem State.startCmd_mem (t f c) : (s.startCmd t f c).mem = s.mem := by simp [State.startCmd]

@[simp] theorem execCommandStart_kept (t f k) : MemKept s (execCommandStart t f k s) := by
  unfold execCommandStart
  split <;> simp

@[simp] theorem State.leaveBuf_mem (t f c) : (s.leaveBuf t f c).mem = s.mem := by simp [State.leaveBuf]

@[simp] theorem State.enterBuf_mem (t f c want) : (s.enterBuf t f c want).mem = s.mem := by
  unfold State.enterBuf
  dsimp only
  repeat' split
  all_goals simp

@[simp] theorem State.endAg_mem (t f c g) : (s.endAg t f c g).mem = s.mem := by
  unfold State.endAg
  dsimp only
  repeat' split
  all_goals simp

@[simp] theorem State.endRun_mem (t f c g) : (s.endRun t f c g).mem = s.mem := by simp [State.endRun]
@[simp] theorem State.beginIter_mem (t f c g) : (s.beginIter t f c g).mem = s.mem := by simp [State.beginIter]

@[simp] theorem State.beginRun_mem (t f c g) : (s.beginRun t f c g).mem = s.mem := by
  unfold State.beginRun
  split <;> simp

@[simp] theorem State.failCmd_mem (t f c status) : (s.failCmd t f c status).mem = s.mem := rfl

@[simp] theorem State.readElem_mem (t f c g) : (s.readElem t f c g).mem = s.mem := by
  have got := s.genWords_keeps t f (c.ag 0) g.spos (engNeed c.form 0) c.form
  unfold State.readElem
  dsimp only
  repeat' split
  all_goals simp_all [Got.Keeps]

@[simp] theorem State.writeElem_mem (t f c g) : (s.writeElem t f c g).mem = s.mem := by
  have got := s.genWords_keeps t f (c.ag 0) g.spos (engNeed c.form 0) c.form
  unfold State.writeElem
  dsimp only
  repeat' split
  all_goals simp_all [Got.Keeps]

@[simp] theorem State.stepAg_mem (t f c) : (s.stepAg t f c).mem = s.mem := by
  unfold State.stepAg
  dsimp only
  repeat' split
  all_goals simp

theorem State.manyWords_keeps (t f gi need form l) : (s.manyWords t f gi need form l).Keeps s := by
  induction l with
  | nil => trivial
  | cons k l ih =>
    have now := s.genWords_keeps t f gi k need form
    unfold State.manyWords
    repeat' split
    all_goals simp_all [Got.Keeps]

@[simp] theorem State.copyRead_mem (t f c) : (s.copyRead t f c).mem = s.mem := by
  unfold State.copyRead
  have got := s.manyWords_keeps t f (c.ag 0) 1 0
  dsimp only
  repeat' split
  any_goals simp_all
  · next e => exact (got _).of_wait e
  · next e => exact (got _).of_fail e

@[simp] theorem State.copyWrite_mem (t f c) : (s.copyWrite t f c).mem = s.mem := by
  unfold State.copyWrite
  dsimp only
  repeat' split
  any_goals simp
  · next e => simpa using (State.manyWords_keeps ..).of_wait e
  · next e => simpa using (State.manyWords_keeps ..).of_fail e

@[simp] theorem State.stepScomp_mem (t f c) : (s.stepScomp t f c).mem = s.mem := by
  unfold State.stepScomp
  dsimp only
  repeat' split
  any_goals simp
  · next e => simpa using (State.genWords_keeps ..).of_wait e
  · next e => simpa using (State.genWords_keeps ..).of_fail e

@[simp] theorem State.expandWrite_mem (t f c g) : (s.expandWrite t f c g).mem = s.mem := by
  unfold State.expandWrite
  dsimp only
  repeat' split
  any_goals simp
  · next e => simpa using (State.engMiss_keeps ..).of_wait e
  · next e => simpa using (State.engMiss_keeps ..).of_fail e

@[simp] theorem State.stepSexp_mem (t f c) : (s.stepSexp t f c).mem = s.mem := by
  unfold State.stepSexp
  dsimp only
  repeat' split
  all_goals simp

@[simp] theorem State.wcvtAsk_mem (t f c) : (s.wcvtAsk t f c).mem = s.mem := by
  unfold State.wcvtAsk
  dsimp only
  repeat' split
  any_goals simp
  · next e => simpa using (State.engMiss_keeps ..).of_wait e
  · next e => simpa using (State.engMiss_keeps ..).of_fail e

@[simp] theorem State.stepWcvt_mem (t f c) : (s.stepWcvt t f c).mem = s.mem := by
  unfold State.stepWcvt
  dsimp only
  repeat' split
  all_goals simp

@[simp] theorem State.readStep_mem (t f c) : (s.readStep t f c).mem = s.mem := by
  unfold State.readStep
  repeat' split
  all_goals simp

theorem execReadWalkElement_kept (t f k) : MemKept s (execReadWalkElement t f k s) := by
  unfold execReadWalkElement
  split <;> simp

@[simp] theorem State.writeStep_mem (t f c) : (s.writeStep t f c).mem = s.mem := by
  unfold State.writeStep
  repeat' split
  all_goals simp

theorem execWriteWalkElement_kept (t f k) : MemKept s (execWriteWalkElement t f k s) := by
  unfold execWriteWalkElement
  split <;> simp

/-! The sparse-update unit -/

theorem State.rowWords_keeps (s : State) (t : Tile) (f : Facet) (d : Gen) (form r : Nat) : (s.rowWords t f d form r).Keeps s := s.engAll_keeps ..
@[simp] theorem State.rowTouch_mem (t d form r) : (s.rowTouch t d form r).mem = s.mem := by simp [State.rowTouch]

@[simp] theorem State.fetchIndex_mem (t f c) : (s.fetchIndex t f c).mem = s.mem := by
  unfold State.fetchIndex
  dsimp only
  repeat' split
  any_goals simp
  · next e => simpa using (State.genWords_keeps ..).of_wait e
  · next e => simpa using (State.genWords_keeps ..).of_fail e

@[simp] theorem State.enterIndex_mem (t f c w) : (s.enterIndex t f c w).mem = s.mem := by
  unfold State.enterIndex
  split <;> simp

@[simp] theorem State.issueSlot_mem (t f c x) : (s.issueSlot t f c x).mem = s.mem := by
  unfold State.issueSlot
  dsimp only
  repeat' split
  any_goals simp
  · next e => simpa using (State.rowWords_keeps ..).of_wait e
  · next e => simpa using (State.rowWords_keeps ..).of_fail e

@[simp] theorem State.withCmd_mem {s : State} (t : Tile) (f : Facet) (id : Nat) {h : Cmd → State} (keep : ∀ c, SameMem s (h c)) :
    (s.withCmd t f id h).mem = s.mem := by
  unfold State.withCmd
  split
  · exact keep _
  · rfl

@[simp] theorem State.issueSlots_mem (t f c) : (s.issueSlots t f c).mem = s.mem :=
  State.foldl_mem (fun s x => State.withCmd_mem t f _ fun c => by split <;> simp) _ s

@[simp] theorem State.settleSlot_mem (t f c x) : (s.settleSlot t f c x).1.mem = s.mem := by
  unfold State.settleSlot
  repeat' split
  all_goals simp

@[simp] theorem State.emitRows_mem (t f c) : (s.emitRows t f c).mem = s.mem := by
  unfold State.emitRows
  dsimp only
  split
  · rfl
  · split
    · split <;> simp
    · simp

@[simp] theorem State.endSparse_mem (t f c) : (s.endSparse t f c).mem = s.mem := by simp [State.endSparse]

@[simp] theorem State.entryStep_mem (t f c) : (s.entryStep t f c).mem = s.mem := by
  unfold State.entryStep
  repeat' split
  all_goals simp

@[simp] theorem State.stepSparse_mem (t f c) : (s.stepSparse t f c).mem = s.mem := by
  have slots (y : State × Cmd) (z : Slot) :
      SameMem y.1 (if y.2.slots.any (fun w => w.ords == z.ords) then y.1.settleSlot t f y.2 z else y).1 := by
    split <;> simp
  unfold State.stepSparse
  dsimp only
  refine (State.withCmd_mem _ _ _ fun c => ?_).trans ?_
  · split <;> simp
  · rw [State.withCmd_mem _ _ _ fun _ => State.entryStep_mem .., State.withCmd_mem _ _ _ fun _ => State.emitRows_mem .., State.setCmd_mem]
    exact (State.foldl_pair_mem slots _ _).trans (s.harvest_mem ..)

theorem execSparseSlotIssue_kept (t) : MemKept s (execSparseSlotIssue t s) := by
  unfold execSparseSlotIssue
  split <;> simp

/-! The command unit takes command tokens (R286) -/

@[simp] theorem State.commandTake_kept {s : State} (t : Tile) (f : Facet) (h : Token → Bool) {act : Token → State → State} (keep :
    ∀ k x, SameMem x (act k x)) :
    MemKept s (s.commandTake t f h act) := by
  unfold State.commandTake
  split
  · exact State.mtTaking_mem _ _ _ (keep _)
  · rfl

@[simp] theorem execMalformedCommandToken_kept (t f) : MemKept s (execMalformedCommandToken t f s) := by simp [execMalformedCommandToken]
@[simp] theorem execNullCommandToken_kept (t f) : MemKept s (execNullCommandToken t f s) := by simp [execNullCommandToken]
@[simp] theorem State.quickTake_kept (t f op) : MemKept s (s.quickTake t f op) := by simp [State.quickTake]

@[simp] theorem State.quickStep_kept {s : State} (t : Tile) (f : Facet) (op : Nat)
    {act : Token → State → State} (keep : ∀ k x, SameMem x (act k x)) :
    MemKept s (s.quickStep t f op act) := by
  unfold State.quickStep
  repeat' split
  · exact memKept_when _ _ _ (keep _ _)
  · simp
  · simp

@[simp] theorem State.bufferCmd_mem (t f c) : (s.bufferCmd t f c).mem = s.mem := rfl

@[simp] theorem State.parkCmd_mem (t f c k) : (s.parkCmd t f c k).mem = s.mem := by
  unfold State.parkCmd
  dsimp only
  repeat' split
  all_goals simp

@[simp] theorem State.streamTaken_mem (t f k) : (State.streamTaken t f k s).mem = s.mem := by
  unfold State.streamTaken
  dsimp only
  repeat' split
  all_goals simp

@[simp] theorem State.takeStream_kept (t f op) : MemKept s (s.takeStream t f op) :=
  State.commandTake_kept t f _ fun _ _ => State.streamTaken_mem ..

theorem execScopyCommand_kept (t f) : MemKept s (execScopyCommand t f s) := s.takeStream_kept ..
theorem execSgathCommand_kept (t f) : MemKept s (execSgathCommand t f s) := s.takeStream_kept ..
theorem execSscatCommand_kept (t f) : MemKept s (execSscatCommand t f s) := s.takeStream_kept ..
theorem execSredCommand_kept (t f) : MemKept s (execSredCommand t f s) := s.takeStream_kept ..
theorem execScompCommand_kept (t f) : MemKept s (execScompCommand t f s) := s.takeStream_kept ..
theorem execSexpCommand_kept (t f) : MemKept s (execSexpCommand t f s) := s.takeStream_kept ..
@[simp] theorem execAgstartCommand_kept (t f) : MemKept s (execAgstartCommand t f s) := by simp [execAgstartCommand]
@[simp] theorem State.answerCmd_mem (t f c res status) : (s.answerCmd t f c res status).mem = s.mem := by simp [State.answerCmd]
@[simp] theorem State.untake_mem (t f c) : (s.untake t f c).mem = s.mem := rfl
@[simp] theorem State.stopRunning_mem (t f c x g) : (s.stopRunning t f c x g).mem = s.mem := by simp [State.stopRunning]

@[simp] theorem State.agStop_mem (t f c) : (s.agStop t f c).mem = s.mem := by
  unfold State.agStop
  split <;> simp

theorem execAgstopCommand_kept (t f) : MemKept s (execAgstopCommand t f s) := State.quickStep_kept t f _ fun k s => by simp
@[simp] theorem State.agQuery_mem (t f c) : (s.agQuery t f c).mem = s.mem := by simp [State.agQuery]
theorem execAgqryCommand_kept (t f) : MemKept s (execAgqryCommand t f s) := State.quickStep_kept t f _ fun k s => by simp
@[simp] theorem State.arm_mem (t f c) : (s.arm t f c).mem = s.mem := by simp [State.arm]
theorem execDarmCommand_kept (t f) : MemKept s (execDarmCommand t f s) := State.quickStep_kept t f _ fun k s => by simp
@[simp] theorem State.post_mem (t f c) : (s.post t f c).mem = s.mem := by simp [State.post]
theorem execDpostCommand_kept (t f) : MemKept s (execDpostCommand t f s) := State.quickStep_kept t f _ fun k s => by simp

@[simp] theorem State.wcvtStart_mem (t f c) : (s.wcvtStart t f c).mem = s.mem := by
  unfold State.wcvtStart
  dsimp only
  repeat' split
  all_goals simp

theorem execWcvtCommand_kept (t f) : MemKept s (execWcvtCommand t f s) := State.quickStep_kept t f _ fun k s => by simp

/-! The matrix unit (R328 to R346) -/

@[simp] theorem State.modMx_mem (t f g) : (s.modMx t f g).mem = s.mem := rfl
@[simp] theorem State.setMxCmd_mem (t f c) : (s.setMxCmd t f c).mem = s.mem := rfl
@[simp] theorem State.mxComplete_mem (t f result op status) : (s.mxComplete t f result op status).mem = s.mem := by simp [State.mxComplete]

@[simp] theorem State.mxTaking_kept {s : State} (t : Tile) (f : Facet) (h : Token → Bool) {act : Token → State → State} (keep :
    ∀ k x, SameMem x (act k x)) :
    MemKept s (s.mxTaking t f h act) := by
  unfold State.mxTaking
  split
  · split
    · exact State.mtTaking_mem _ _ _ (keep _)
    · rfl
  · rfl

@[simp] theorem execMalformedMatrixToken_kept (t f) : MemKept s (execMalformedMatrixToken t f s) := by simp [execMalformedMatrixToken]
@[simp] theorem execNullMatrixToken_kept (t f) : MemKept s (execNullMatrixToken t f s) := by simp [execNullMatrixToken]
@[simp] theorem State.bufferMx_mem (t f k) : (State.bufferMx t f k s).mem = s.mem := rfl
@[simp] theorem State.takeMx_kept (t f op) : MemKept s (s.takeMx t f op) := by simp [State.takeMx]
@[simp] theorem execMmaCommand_kept (t f) : MemKept s (execMmaCommand t f s) := by simp [execMmaCommand]
@[simp] theorem execMldbCommand_kept (t f) : MemKept s (execMldbCommand t f s) := by simp [execMldbCommand]
@[simp] theorem execMaclrCommand_kept (t f) : MemKept s (execMaclrCommand t f s) := by simp [execMaclrCommand]
@[simp] theorem execMstoCommand_kept (t f) : MemKept s (execMstoCommand t f s) := by simp [execMstoCommand]
@[simp] theorem execMrdaCommand_kept (t f) : MemKept s (execMrdaCommand t f s) := by simp [execMrdaCommand]
@[simp] theorem execMfenceCommand_kept (t f) : MemKept s (execMfenceCommand t f s) := by simp [execMfenceCommand]
@[simp] theorem State.mscale_mem (t f c) : (s.mscale t f c).mem = s.mem := by simp [State.mscale]
@[simp] theorem State.mxQuickTake_kept (t f op) : MemKept s (s.mxQuickTake t f op) := by simp [State.mxQuickTake]

@[simp] theorem State.mxQuickStep_kept {s : State} (t : Tile) (f : Facet) (op : Nat)
    {act : Token → State → State} (keep : ∀ k x, SameMem x (act k x)) :
    MemKept s (s.mxQuickStep t f op act) := by
  unfold State.mxQuickStep
  repeat' split
  · exact memKept_when _ _ _ (keep _ _)
  · simp
  · simp

theorem execMscaleCommand_kept (t f) : MemKept s (execMscaleCommand t f s) := State.mxQuickStep_kept t f _ fun k s => by simp
@[simp] theorem State.mswap_mem (t f c) : (s.mswap t f c).mem = s.mem := by simp [State.mswap]
@[simp] theorem execMswapCommand_kept (t f) : MemKept s (execMswapCommand t f s) := by simp [execMswapCommand]
@[simp] theorem State.mqry_mem (t f c) : (s.mqry t f c).mem = s.mem := by simp [State.mqry]
theorem execMqryCommand_kept (t f) : MemKept s (execMqryCommand t f s) := State.mxQuickStep_kept t f _ fun k s => by simp
@[simp] theorem State.setAccRow_mem (t f b i r) : (s.setAccRow t f b i r).mem = s.mem := by simp [State.setAccRow]
@[simp] theorem State.clearRows_mem (t f c) : (s.clearRows t f c).mem = s.mem := by simp [State.clearRows]

@[simp] theorem State.areaRead_mem (t f c m byteOff n) : (s.areaRead t f c m byteOff n).1.mem = s.mem := by
  simp [State.areaRead]

@[simp] theorem State.areaTurn_mem {s : State} (t : Tile) (f : Facet) (m : MtMode) (a b : Nat × Nat) {act : State → State} (keep :
    ∀ x, SameMem x (act x)) :
    (s.areaTurn t f m a b act).mem = s.mem := State.inTurn_mem _ _ keep

@[simp] theorem State.mxWait_mem (t f c m form) : (s.mxWait t f c m form).mem = s.mem := by
  unfold State.mxWait
  dsimp only
  repeat' split
  all_goals simp

@[simp] theorem State.mxRelease_mem (t f c m) : (s.mxRelease t f c m).mem = s.mem := by simp [State.mxRelease]
@[simp] theorem State.mstoWrite_mem (t f c m) : (s.mstoWrite t f c m).mem = s.mem := by simp [State.mstoWrite]
@[simp] theorem State.mstoFill_mem (t f c m) : (s.mstoFill t f c m).mem = s.mem := by simp [State.mstoFill]
@[simp] theorem State.beginLoadB_mem (t f c) : (s.beginLoadB t f c).mem = s.mem := by simp [State.beginLoadB]
@[simp] theorem State.startMx_mem (t f c) : (s.startMx t f c).mem = s.mem := by simp [State.startMx]

@[simp] theorem State.readRow_mem {s : State} (t : Tile) (f : Facet) (c : MxCmd) (m : MtMode) (off scale : Nat) {act :
    Nat → Nat → Bool → State → State} (keep : ∀ i j b x, SameMem x (act i j b x)) :
    (s.readRow t f c m off scale act).mem = s.mem := by
  refine State.areaTurn_mem _ _ _ _ _ fun x => (keep _ _ _ _).trans ?_
  split <;> simp

@[simp] theorem State.addCol_mem (t f c data scale poison) : (s.addCol t f c data scale poison).mem = s.mem := rfl
@[simp] theorem State.loadB_mem (t f c m) : (s.loadB t f c m).mem = s.mem := by simp [State.loadB]
@[simp] theorem State.mrdaRow_mem (t f c) : (s.mrdaRow t f c).mem = s.mem := by simp [State.mrdaRow]
@[simp] theorem State.endMx_mem (t f c) : (s.endMx t f c).mem = s.mem := by simp [State.endMx]
@[simp] theorem State.mslotTry_mem (t f c) : (s.mslotTry t f c).mem = s.mem := by simp [State.mslotTry]
@[simp] theorem execMslotCommand_kept (t f) : MemKept s (execMslotCommand t f s) := by simp [execMslotCommand]

@[simp] theorem State.mxWork_mem (t f c) : (s.mxWork t f c).mem = s.mem := by
  unfold State.mxWork
  split
  all_goals repeat' split
  all_goals simp

@[simp] theorem State.settleMx_mem (t f c) : (s.settleMx t f c).mem = s.mem := by
  unfold State.settleMx
  dsimp only
  repeat' split
  all_goals simp

theorem execMatrixCommandStart_kept (t f k) : MemKept s (execMatrixCommandStart t f k s) := by
  unfold execMatrixCommandStart
  dsimp only
  repeat' split
  all_goals simp

@[simp] theorem State.stageRow_mem (t f c m) : (s.stageRow t f c m).mem = s.mem := by simp [State.stageRow]

theorem execRowStage_kept (t f) : MemKept s (execRowStage t f s) := by
  unfold execRowStage
  repeat' split
  all_goals simp

@[simp] theorem State.columnDone_mem (t f c l) : (s.columnDone t f c l).mem = s.mem := by simp [State.columnDone]
@[simp] theorem State.badBurst_mem (t f isB c k) : (s.badBurst t f isB c k).mem = s.mem := rfl
@[simp] theorem State.columnToken_mem (t f c k) : (s.columnToken t f c k).mem = s.mem := by simp [State.columnToken]

@[simp] theorem State.mtTakeN_mem {s : State} (t : Tile) (f : Facet) (p : Fin 16) (n : Nat) {act : State → State} (keep :
    ∀ x, SameMem x (act x)) : (s.mtTakeN t f p n act).mem = s.mem := by
  induction n generalizing s with
  | zero => exact keep s
  | succ n ih => exact State.mtTaking_mem _ _ _ fun x => ih

@[simp] theorem execOperandBurstTake_kept (t f isB) : MemKept s (execOperandBurstTake t f isB s) := by
  simp only [execOperandBurstTake]
  repeat' split
  all_goals simp

@[simp] theorem State.fireRow_mem (t f c r) : (s.fireRow t f c r).mem = s.mem := rfl

@[simp] theorem State.fire_mem (t f) : (s.fire t f).mem = s.mem := by
  unfold State.fire
  repeat' split
  all_goals simp

@[simp] theorem execRowFire_kept (t) : MemKept s (execRowFire t s) := by
  unfold execRowFire
  split <;> simp

@[simp] theorem State.dropFired_mem (t x) : (s.dropFired t x).mem = s.mem := rfl
@[simp] theorem State.rowTakes_mem (t x c) : (s.rowTakes t x c).mem = s.mem := by simp [State.rowTakes]

@[simp] theorem execRowEffect_kept (t) : MemKept s (execRowEffect t s) := by
  unfold execRowEffect
  repeat' split
  all_goals simp

@[simp] theorem State.rowLeaves_mem (t x c) : (s.rowLeaves t x c).mem = s.mem := by
  unfold State.rowLeaves
  rw [State.setMxCmd_mem, State.dropFired_mem, State.foldl_mem fun s k => s.mtSend_mem ..]

theorem execResultBurst_kept (t) : MemKept s (execResultBurst t s) := by
  unfold execResultBurst
  repeat' split
  all_goals simp

@[simp] theorem execMatrixCompletion_kept (t) : MemKept s (execMatrixCompletion t s) := by
  unfold execMatrixCompletion
  split <;> simp

/-! Context images (R392, R393) -/

@[simp] theorem State.putToken_mem (t f place k) : (s.putToken t f place k).mem = s.mem := by simp [State.putToken]
@[simp] theorem State.noteBlocks_mem (r f va n) : (s.noteBlocks r f va n).mem = s.mem := by simp [State.noteBlocks]

/-! Placement queues and the loader (R164, R189 to R200) -/

@[simp] theorem State.startLoad_mem (r d l x) : (s.startLoad r d l x).mem = s.mem := rfl

@[simp] theorem execLoadStart_kept (r d) : MemKept s (execLoadStart r d s) := by
  unfold execLoadStart
  repeat' split
  all_goals simp

@[simp] theorem State.oweCw_mem (r e f ok code) : (s.oweCw r e f ok code).mem = s.mem := by simp [State.oweCw]
@[simp] theorem State.freeLoaders_mem (r) : (s.freeLoaders r).mem = s.mem := rfl

@[simp] theorem State.reject_mem (r code frame) : (s.reject r code frame).mem = s.mem := by
  unfold State.reject
  split <;> simp

@[simp] theorem State.recordQueued_mem (t f) : (s.recordQueued t f).mem = s.mem := by simp [State.recordQueued]
@[simp] theorem State.beginNode_mem (r f t) : (s.beginNode r f t).mem = s.mem := by simp [State.beginNode]
@[simp] theorem State.beginRestored_mem (r f) : (s.beginRestored r f).mem = s.mem := by simp [State.beginRestored]
@[simp] theorem State.drivesRow_mem (t) : (s.drivesRow t).mem = s.mem := rfl
@[simp] theorem State.waveColumn_mem (r f col) : (s.waveColumn r f col).mem = s.mem := by simp [State.waveColumn]

@[simp] theorem execWaveArrival_kept (r col) : MemKept s (execWaveArrival r col s) := by
  simp only [execWaveArrival]
  repeat' split
  all_goals simp

@[simp] theorem State.finishLoad_mem (r l) : (s.finishLoad r l).mem = s.mem := by simp [State.finishLoad]

@[simp] theorem execLoadPass_kept (r) : MemKept s (execLoadPass r s) := by
  simp only [execLoadPass]
  repeat' split
  all_goals simp

@[simp] theorem State.refuseCw_mem (r c code) : (s.refuseCw r c code).mem = s.mem := by simp [State.refuseCw]
@[simp] theorem execLqdoorPush_kept (r w data) : MemKept s (execLqdoorPush r w data s) := by simp [execLqdoorPush]
@[simp] theorem State.cancelEntry_mem (r i e) : (s.cancelEntry r i e).mem = s.mem := by simp [State.cancelEntry]

@[simp] theorem State.cancelLoad_mem (r l) : (s.cancelLoad r l).mem = s.mem := by
  unfold State.cancelLoad
  split <;> simp

@[simp] theorem State.writeLqctl_mem (r v) : (s.writeLqctl r v).mem = s.mem := by
  unfold State.writeLqctl
  dsimp only
  repeat' split
  all_goals simp

@[simp] theorem execLqctlCancel_kept (r v) : MemKept s (execLqctlCancel r v s) := by simp [execLqctlCancel]
@[simp] theorem execFreewWrite_kept (d frame) : MemKept s (execFreewWrite d frame s) := rfl
@[simp] theorem State.applyFreew_mem (d k) : (s.applyFreew d k).mem = s.mem := by simp [State.applyFreew]

@[simp] theorem execFreewApply_kept (d) : MemKept s (execFreewApply d s) := by
  unfold execFreewApply
  split <;> simp

/-! Pre-emption (R389 to R395) -/

@[simp] theorem State.startSave_mem (r f) : (s.startSave r f).mem = s.mem := rfl
@[simp] theorem execPreemptSave_kept (r v) : MemKept s (execPreemptSave r v s) := by simp [execPreemptSave]
@[simp] theorem execAutoSaveStart_kept (r) : MemKept s (execAutoSaveStart r s) := by simp [execAutoSaveStart]

@[simp] theorem execSaveStop_kept (r) : MemKept s (execSaveStop r s) := by
  simp only [execSaveStop]
  split <;> simp

@[simp] theorem execDrainInject_kept (r) : MemKept s (execDrainInject r s) := by
  simp only [execDrainInject]
  split <;> simp

@[simp] theorem execDrainTake_kept (t f) : MemKept s (execDrainTake t f s) := by
  unfold execDrainTake
  split <;> simp

@[simp] theorem State.endFinished_mem (t f) : (s.endFinished t f).mem = s.mem := by
  simp [State.endFinished]

@[simp] theorem State.liftTokens_mem (r f) : (s.liftTokens r f).mem = s.mem := by simp [State.liftTokens]

@[simp] theorem State.takeImage_mem (r f) : (s.takeImage r f).mem = s.mem := by
  simp [State.takeImage]

@[simp] theorem State.failSave_mem (r f code) : (s.failSave r f code).mem = s.mem := by simp [State.failSave]

@[simp] theorem State.saveDie_mem (r f d) : (s.saveDie r f d).mem = s.mem := by
  simp only [State.saveDie]
  repeat' split
  all_goals simp

@[simp] theorem State.forceTide_mem (r) : (s.forceTide r).mem = s.mem := by simp [State.forceTide]

theorem execSaveImageWrite_kept (r) : MemKept s (execSaveImageWrite r s) := by
  unfold execSaveImageWrite
  dsimp only
  repeat' split
  all_goals simp

/-! The strand (chapter 20) -/

@[simp] theorem State.advanceTime_mem : (s.advanceTime).mem = s.mem := rfl
@[simp] theorem execSupplyDroop_kept (d ns3) : MemKept s (execSupplyDroop d ns3 s) := by simp [execSupplyDroop]

@[simp] theorem State.stepTides_mem (old) : (s.stepTides old).mem = s.mem := by
  simp [State.stepTides]

@[simp] theorem State.stepTime_mem : (s.stepTime).mem = s.mem := by simp [State.stepTime]
@[simp] theorem State.broadcast_mem : (s.broadcast).mem = s.mem := by simp [State.broadcast]
@[simp] theorem execDevtimeBroadcast_kept : MemKept s (execDevtimeBroadcast s) := by simp [execDevtimeBroadcast]
@[simp] theorem execDevtimeStep_kept : MemKept s (execDevtimeStep s) := rfl
@[simp] theorem execFrequencyLockChange_kept (locked) : MemKept s (execFrequencyLockChange locked s) := rfl
@[simp] theorem State.powerSend_mem (a b n repay) : (s.powerSend a b n repay).mem = s.mem := rfl
@[simp] theorem State.lend_mem (lender borrower ask) : (s.lend lender borrower ask).mem = s.mem := by simp [State.lend]

@[simp] theorem State.repayLoans_mem (d n l) : (s.repayLoans d n l).mem = s.mem := by
  induction l generalizing s n with
  | nil => simp [State.repayLoans]
  | cons x l ih =>
    unfold State.repayLoans
    dsimp only
    split <;> simp [ih]

@[simp] theorem State.repay_mem (d) : (s.repay d).mem = s.mem := by
  unfold State.repay
  dsimp only
  repeat' split
  all_goals simp

@[simp] theorem State.estimate_mem (d) : (s.estimate d).mem = s.mem := rfl

@[simp] theorem State.exchange_mem : (s.exchange).mem = s.mem := by
  simp [State.exchange]

theorem execPowerExchange_kept : MemKept s (execPowerExchange s) := by simp [execPowerExchange]
@[simp] theorem State.powerApply_mem (m) : (s.powerApply m).mem = s.mem := by simp [State.powerApply]
@[simp] theorem State.powerArrive_mem (m) : (s.powerArrive m).mem = s.mem := by simp [State.powerArrive]

@[simp] theorem execPowerMessageReceipt_kept (k) : MemKept s (execPowerMessageReceipt k s) := by
  unfold execPowerMessageReceipt
  split <;> simp

@[simp] theorem execPowerResend_kept (k) : MemKept s (execPowerResend k s) := by
  unfold execPowerResend
  split <;> simp

@[simp] theorem State.linkReply_mem (x) : (s.linkReply x).mem = s.mem := rfl
@[simp] theorem State.poisonRead_mem (io pa bs) : (s.poisonRead io pa bs).mem = s.mem := by simp [State.poisonRead]
@[simp] theorem State.bar4Write_mem (io off data) : (s.bar4Write io off data).mem = s.mem := by simp [State.bar4Write]
@[simp] theorem State.bar4Read_mem (io off) : (s.bar4Read io off).mem = s.mem := rfl
@[simp] theorem State.linkIn_mem (io r p l) : (s.linkIn io r p l).mem = s.mem := rfl

@[simp] theorem State.fronthaulIn_mem (io fr) : (s.fronthaulIn io fr).mem = s.mem := by
  unfold State.fronthaulIn
  split <;> simp

@[simp] theorem execFronthaulFrameReceive_kept (io frame) : MemKept s (execFronthaulFrameReceive io frame s) := by simp [execFronthaulFrameReceive]
@[simp] theorem State.frameOut_mem (io port l) : (s.frameOut io port l).mem = s.mem := rfl

@[simp] theorem execFronthaulEgress_kept (io r p) : MemKept s (execFronthaulEgress io r p s) := by
  simp only [execFronthaulEgress]
  split <;> simp

@[simp] theorem State.ttOut_mem (io l) : (s.ttOut io l).mem = s.mem := rfl
@[simp] theorem State.resend_mem (io q) : (s.resend io q).mem = s.mem := by simp [State.resend]
@[simp] theorem State.ttPack_mem (io q) : (s.ttPack io q).mem = s.mem := rfl
@[simp] theorem execTtSend_kept (io q) : MemKept s (execTtSend io q s) := by simp [execTtSend]

@[simp] theorem execTtRetransmit_kept (io q) : MemKept s (execTtRetransmit io q s) := by
  unfold execTtRetransmit
  split <;> simp

@[simp] theorem State.ttAck_mem (io fr seq) : (s.ttAck io fr seq).mem = s.mem := rfl
@[simp] theorem State.ttIn_mem (io fr) : (s.ttIn io fr).mem = s.mem := by simp [State.ttIn]
@[simp] theorem execTtDataFrameReceive_kept (io frame) : MemKept s (execTtDataFrameReceive io frame s) := by simp [execTtDataFrameReceive]

@[simp] theorem State.ttAcked_mem (io q seq) : (s.ttAcked io q seq).mem = s.mem := by
  simp only [State.ttAcked]
  split <;> simp

@[simp] theorem execTtAckReceive_kept (io frame) : MemKept s (execTtAckReceive io frame s) := by
  unfold execTtAckReceive
  split <;> simp

@[simp] theorem State.ringMsix_mem (io q) : (s.ringMsix io q).mem = s.mem := rfl
@[simp] theorem State.ringDoor_mem (io q n) : (s.ringDoor io q n).mem = s.mem := rfl
@[simp] theorem execTxdoorWrite_kept (io q n) : MemKept s (execTxdoorWrite io q n s) := rfl

/-! Debug (chapter 21) -/

@[simp] theorem State.goCut_mem (r) : (s.goCut r).mem = s.mem := by
  unfold State.goCut
  dsimp only
  repeat' split
  all_goals simp [State.beginCut_mem]

@[simp] theorem State.trigCut_mem (r) : (s.trigCut r).mem = s.mem := by
  unfold State.trigCut
  split <;> simp

@[simp] theorem State.writeCut_mem (r v) : (s.writeCut r v).mem = s.mem := by
  unfold State.writeCut
  dsimp only
  repeat' split
  all_goals simp [State.endCut_mem]

theorem execCutStart_kept (r v) : MemKept s (execCutStart r v s) := memKept_when _ _ _ (s.writeCut_mem r v)
@[simp] theorem execCutHeld_kept (r) : MemKept s (execCutHeld r s) := by simp [execCutHeld]
theorem execCutRelease_kept (r) : MemKept s (execCutRelease r s) := memKept_when _ _ _ (s.endCut_mem r)

@[simp] theorem State.trigAct_mem (r bitNo) : (s.trigAct r bitNo).mem = s.mem := by
  unfold State.trigAct
  dsimp only
  repeat' split
  all_goals simp

@[simp] theorem State.trigger_mem (r hits) : (s.trigger r hits).mem = s.mem := by
  unfold State.trigger
  dsimp only
  split <;> simp

@[simp] theorem State.takeMatches_mem (r) : (s.takeMatches r).2.mem = s.mem := rfl

theorem execTriggerEval_kept (r) : MemKept s (execTriggerEval r s) := by
  simp [execTriggerEval]

@[simp] theorem State.dbgSetBank_mem (x h) : (s.dbgSetBank x h).mem = s.mem := by
  simp only [State.dbgSetBank]
  split <;> simp

@[simp] theorem State.writeHstat_mem (t f v) : (s.writeHstat t f v).mem = s.mem := by simp [State.writeHstat]

@[simp] theorem State.dbgSetSpecial_mem (x v) : (s.dbgSetSpecial x v).mem = s.mem := by
  unfold State.dbgSetSpecial
  repeat' split
  all_goals simp

@[simp] theorem State.startDbg_mem (r) : (s.startDbg r).mem = s.mem := rfl
@[simp] theorem State.writeDbg_mem (r v) : (s.writeDbg r v).mem = s.mem := by simp [State.writeDbg]
@[simp] theorem execDebugAccess_kept (r v) : MemKept s (execDebugAccess r v s) := by simp [execDebugAccess]

/-! Boot (R453, R454), attestation (R455), monitors (R456, R457), the mailbox and RESYNC (R458, R459) -/

@[simp] theorem execSpdmRequest_kept (req) : MemKept s (execSpdmRequest req s) := by simp [execSpdmRequest]
@[simp] theorem State.mbRise_mem (i) : (s.mbRise i).mem = s.mem := by simp [State.mbRise]
@[simp] theorem State.setMb_mem (status) : (s.setMb status).mem = s.mem := rfl
@[simp] theorem State.startResync_mem : (s.startResync).mem = s.mem := rfl
@[simp] theorem State.mailbox_mem (v) : (s.mailbox v).mem = s.mem := by simp [State.mailbox]
@[simp] theorem execResync_kept (v) : MemKept s (execResync v s) := by simp [execResync]

@[simp] theorem State.resyncTick_mem : (s.resyncTick).mem = s.mem := by
  unfold State.resyncTick
  split <;> simp

@[simp] theorem State.endResync_mem : (s.endResync).mem = s.mem := by simp [State.endResync]

@[simp] theorem execResyncComplete_kept : MemKept s (execResyncComplete s) := by
  unfold execResyncComplete
  split <;> simp

/-! Writes of registers (R5, R430) -/

@[simp] theorem State.writeTrig_mem (r v) : (s.writeTrig r v).mem = s.mem := by simp [State.writeTrig]
@[simp] theorem State.writeTidestat_mem (r v) : (s.writeTidestat r v).mem = s.mem := by simp [State.writeTidestat]
@[simp] theorem State.writeTrcmd_mem (d v) : (s.writeTrcmd d v).mem = s.mem := by simp [State.writeTrcmd]
@[simp] theorem State.writeMcpq_mem (d v) : (s.writeMcpq d v).mem = s.mem := by simp [State.writeMcpq]
@[simp] theorem State.writeRing_mem (io q v) : (s.writeRing io q v).mem = s.mem := rfl
@[simp] theorem State.writeDtctl_mem (v) : (s.writeDtctl v).mem = s.mem := rfl

@[simp] theorem State.barRead_mem (off) : (s.barRead off).mem = s.mem := by
  unfold State.barRead
  repeat' split
  all_goals simp

/-! The agenda of a cycle (R2, R463, log 1) -/

@[simp] theorem State.countQuiet_mem (r) : (s.countQuiet r).mem = s.mem := by simp [State.countQuiet]
@[simp] theorem State.pauseCommits_mem (r) : (s.pauseCommits r).mem = s.mem := rfl
@[simp] theorem State.tickRegion_mem (r) : (s.tickRegion r).mem = s.mem := by simp [State.tickRegion]

@[simp] theorem State.choose_mem (l) : (State.choose l s).mem = s.mem := by
  induction l generalizing s with
  | nil => rfl
  | cons x l ih =>
    unfold State.choose
    dsimp only
    repeat' split
    all_goals simp [ih]

@[simp] theorem after_mem {s : State} {o : Out} (h : MemKept s o) : (after s o).mem = s.mem := by
  cases o with
  | next s' => exact h
  | _ => rfl

theorem State.takeCommand_kept (t f k) : MemKept s (s.takeCommand t f k) := by
  simp only [State.takeCommand]
  repeat' split
  · exact execNullCommandToken_kept ..
  · exact execMalformedCommandToken_kept ..
  · exact execScopyCommand_kept ..
  · exact execSgathCommand_kept ..
  · exact execSscatCommand_kept ..
  · exact execSredCommand_kept ..
  · exact execScompCommand_kept ..
  · exact execSexpCommand_kept ..
  · exact execAgstartCommand_kept ..
  · exact s.quickTake_kept t f _

@[simp] theorem State.takeMatrix_kept (t f k) : MemKept s (s.takeMatrix t f k) := by simp [State.takeMatrix]

theorem State.quickCommand_kept (t f k) : MemKept s (s.quickCommand t f k) := by
  simp only [State.quickCommand]
  repeat' split
  · exact execAgstopCommand_kept ..
  · exact execAgqryCommand_kept ..
  · exact execDarmCommand_kept ..
  · exact execDpostCommand_kept ..
  · exact execWcvtCommand_kept ..

theorem State.quickMatrix_kept (t f k) : MemKept s (s.quickMatrix t f k) := by
  unfold State.quickMatrix
  split
  · exact execMscaleCommand_kept ..
  · exact execMqryCommand_kept ..

/-! The channel and token instructions (R147 to R150) -/

@[simp] theorem State.sendForm_kept (w kind reads head tail) : MemKept s (s.sendForm w kind reads head tail) := by
  unfold State.sendForm
  split <;> simp

@[simp] theorem execRecv_kept (w) : MemKept s (execRecv w s) := by simp [execRecv]
@[simp] theorem execPeek_kept (w) : MemKept s (execPeek w s) := by simp [execPeek]
@[simp] theorem execTagr_kept (w) : MemKept s (execTagr w s) := by simp [execTagr]
@[simp] theorem execDrop_kept (w) : MemKept s (execDrop w s) := by simp [execDrop]

@[simp] theorem execFwd_kept (w) : MemKept s (execFwd w s) :=
  withAct_kept fun t a => by
    dsimp only
    split
    · exact State.issue_mem _ _ _ _ _ (fun _ => s.finish_mem ..) (by split <;> simp)
    · simp

/-! The E-format instructions, which send one command token (R283, R330), and an unassigned opcode (R60) -/

@[simp] theorem State.engineToken_kept (op w) : MemKept s (s.engineToken op w) := by simp [State.engineToken]
@[simp] theorem execIllegalOpcode_kept (w) : MemKept s (execIllegalOpcode w s) := by simp [execIllegalOpcode]

/-! The integer and address instructions (R98 to R107) -/

@[simp] theorem intR_kept (w signed busy f) : MemKept s (intR w s signed busy f) := by simp [intR]
@[simp] theorem execSel_kept (w) : MemKept s (execSel w s) := by simp [execSel]
@[simp] theorem execLea_kept (w) : MemKept s (execLea w s) := by simp [execLea]

/-! The scalar floating-point instructions (R108 to R113) -/

@[simp] theorem fpR_kept (w k busy f) : MemKept s (fpR w s k busy f) := by simp [fpR]
@[simp] theorem execFcvt_kept (w) : MemKept s (execFcvt w s) := by simp [execFcvt]

/-! The vector instructions (R126 to R141) -/

@[simp] theorem vfpR_kept (w f) : MemKept s (vfpR w s f) := by simp [vfpR]
@[simp] theorem execVred_kept (w) : MemKept s (execVred w s) := by simp [execVred]
@[simp] theorem execVscan_kept (w) : MemKept s (execVscan w s) := by simp [execVscan]
@[simp] theorem execVdot_kept (w) : MemKept s (execVdot w s) := by simp [execVdot]
@[simp] theorem vintR_kept (w f) : MemKept s (vintR w s f) := by simp [vintR]
@[simp] theorem execVcmp_kept (w) : MemKept s (execVcmp w s) := by simp [execVcmp]
@[simp] theorem execVicmp_kept (w) : MemKept s (execVicmp w s) := by simp [execVicmp]
@[simp] theorem execVsel_kept (w) : MemKept s (execVsel w s) := by simp [execVsel]
@[simp] theorem execVsplat_kept (w) : MemKept s (execVsplat w s) := by simp [execVsplat]
@[simp] theorem execVperm_kept (w) : MemKept s (execVperm w s) := by simp [execVperm]
@[simp] theorem execVextr_kept (w) : MemKept s (execVextr w s) := by simp [execVextr]
@[simp] theorem execVins_kept (w) : MemKept s (execVins w s) := by simp [execVins]
@[simp] theorem vcvt_kept (w sat) : MemKept s (vcvt w s sat) := by simp [vcvt]
@[simp] theorem execVpack_kept (w) : MemKept s (execVpack w s) := by simp [execVpack]
@[simp] theorem execVunpk_kept (w) : MemKept s (execVunpk w s) := by simp [execVunpk]
end Sys2Proof.Machine
end
section
/-! SUPPORT. What writes the memory keeps its canonical form: the operations of the memory itself, then those of the state (`f_wf`), then
the events (`f_safe`). -/

namespace Sys2Proof.Machine

/-! The memory -/

theorem rising_foldl_sput {α : Type} (word : α → Nat) (b : Bool) (ws : List α) {l : List Nat} (h : rising l = true) :
    rising (ws.foldl (fun l w => sput l (word w) b) l) = true :=
  List.foldlRecOn ws _ (motive := fun l => rising l = true) h fun _ h _ _ => rising_sput _ _ _ h

namespace Memory

theorem foldl_wf {α : Type} {op : Memory → α → Memory}
    (keep : ∀ m x, m.wf = true → (op m x).wf = true)
    (l : List α) {m : Memory} (h : m.wf = true) :
    (l.foldl op m).wf = true :=
  List.foldlRecOn l op (motive := fun m => m.wf = true) h fun m h x _ => keep m x h

variable {m : Memory} (h : m.wf = true)

include h

theorem poisonBlock_wf (pa g : Nat) (b : Bool) : (m.poisonBlock pa g b).wf = true := by
  obtain ⟨cells, nonzero, full, poison⟩ := m.wf_iff.1 h
  exact (wf_iff _).2 ⟨cells, nonzero, full, rising_foldl_sput id b _ poison⟩

theorem rewrite_wf (bs : List Nat) : (m.rewrite bs).wf = true := by
  unfold rewrite
  dsimp only
  split
  · exact h
  · exact m.putCells_wf _ h

theorem convert_wf (pa gl : Nat) : (m.convert pa gl).wf = true := by
  unfold convert
  dsimp only
  split
  · exact h
  · refine foldl_wf (fun _ _ h => ?_) _ ?_
    · split
      · exact poisonBlock_wf h ..
      · exact h
    · exact foldl_wf (fun _ _ h => poisonBlock_wf h ..) _ (rewrite_wf h _)

theorem convertAll_wf (gl : Nat) (l : List Nat) : (l.foldl (fun m p => m.convert p gl) m).wf = true :=
  foldl_wf (fun _ _ h => convert_wf h ..) _ h

theorem readHbm_wf (pa size gl : Nat) : (m.readHbm pa size gl).1.wf = true := convertAll_wf h gl _

theorem writeHbm_wf (pa : Nat) (bs : List Byte) (gl : Nat) (poison : Bool) : (m.writeHbm pa bs gl poison).wf = true :=
  putBytes_wf _ _ _ (foldl_wf (fun _ _ h => rewrite_wf (poisonBlock_wf h ..) _) _ (convertAll_wf h gl _))

theorem writeWords_wf (pa : Nat) (bs : List Byte) (poison : Bool) : (m.writeWords pa bs poison).wf = true :=
  putBytes_wf _ _ _ (foldl_wf (fun m _ h => m.setPoison_wf _ _ h) _ h)

theorem devWrite_wf (pa : Nat) (bs : List Byte) (gl : Nat) (poison : Bool) : (m.devWrite pa bs gl poison).wf = true := by
  unfold devWrite
  split
  · exact writeHbm_wf h ..
  · exact writeWords_wf h ..

theorem plainWrite_wf (pa : Nat) (bs : List Byte) (poison : Bool) : (m.plainWrite pa bs poison).wf = true := by
  unfold plainWrite
  dsimp only
  split
  · exact devWrite_wf h ..
  · exact foldl_wf (fun _ _ h => devWrite_wf h ..) _ h

theorem applyEnt_wf (e : StoreEnt) : (m.applyEnt e).wf = true := by
  cases e with
  | loc cells tag =>
    have written : ((wordsOf [.loc cells none]).filter (fun w => (cells.filter (fun c => c.1 / 8 == w)).length == 8)
      |>.foldl (fun m w => m.setPoison (8 * w) false) (m.putCells cells)).wf = true :=
        foldl_wf (fun m _ h => m.setPoison_wf _ _ h) _ (m.putCells_wf _ h)
    unfold applyEnt
    dsimp only
    split
    · exact setFull_wf _ _ _ written
    · exact written
  | _ => exact h

theorem undoAll_wf (l : List Undo) : (m.undoAll l).wf = true :=
  foldl_wf (fun _ _ h => setPoison_wf _ _ _ (setFull_wf _ _ _ (write_wf _ _ _ _ h))) _ h

theorem putImage_wf (word n : Nat) (bytes map_ : List Byte) (bad : Nat → Bool) : (m.putImage word n bytes map_ bad).wf = true :=
  foldl_wf (fun _ _ h => setPoison_wf _ _ _ (setFull_wf _ _ _ (write_wf _ _ _ _ h))) _ h

end Memory
@[simp] theorem Memory.wf_ite (c : Prop) [Decidable c] (a b : Memory) : (if c then a else b).wf = if c then a.wf else b.wf := apply_ite ..

/-- A state keeps the canonical form of another; a predicate, so that a fold's step is stated once. -/
def KeepsWf (s s' : State) : Prop := s.mem.wf = true → s'.mem.wf = true

theorem KeepsWf.of_mem {s s' : State} (e : s'.mem = s.mem) : KeepsWf s s' := fun h => e ▸ h

theorem State.foldl_wf {α : Type} {op : State → α → State} (keep : ∀ s x, KeepsWf s (op s x))
    (l : List α) {s : State} (h : s.mem.wf = true) : (l.foldl op s).mem.wf = true :=
  List.foldlRecOn l op (motive := fun s => s.mem.wf = true) h fun s h x _ => keep s x h

theorem State.foldr_wf {α : Type} {op : α → State → State} (keep : ∀ s x, KeepsWf s (op x s))
    (l : List α) {s : State} (h : s.mem.wf = true) : (l.foldr op s).mem.wf = true := by
  induction l with
  | nil => exact h
  | cons x l ih => exact keep _ _ ih

/-- The outcome, where it is a state, keeps the canonical form of the state before. -/
def SafeOut (s : State) : Out → Prop
  | .next s' => KeepsWf s s'
  | _ => True

theorem MemKept.safe {s : State} {o : Out} (h : MemKept s o) : SafeOut s o := by
  cases o with
  | next s' => exact .of_mem h
  | _ => trivial

theorem when_safe {s s' : State} (c : Bool) (h : KeepsWf s s') : SafeOut s (when_ s c s') := by
  cases c
  · exact id
  · exact h

theorem withAct_safe {s : State} {k : Tile → Act → State} (keep : ∀ t a, KeepsWf s (k t a)) : SafeOut s (withAct s k) := by
  unfold withAct
  split
  · split
    · trivial
    · exact keep _ _
  · trivial

theorem State.inTurn_wf {s : State} (who : Nat) (rs : List Nat) {act : State → State} (keep : ∀ x, KeepsWf x (act x)) (h : s.mem.wf = true) :
    (s.inTurn who rs act).mem.wf = true := by
  unfold State.inTurn
  split
  · exact keep _ h
  · exact h

theorem State.mtTaking_wf {s : State} (t : Tile) (f : Facet) (p : Fin 16) {k : State → State} (keep : ∀ x, KeepsWf x (k x))
    (h : s.mem.wf = true) : (s.mtTaking t f p k).mem.wf = true := by
  unfold State.mtTaking
  dsimp only
  split
  · simp [h]
  · exact keep _ (by simp [h])

/-! The operations of the state -/

section
variable {s : State} (h : s.mem.wf = true)

include h

@[simp] theorem State.commitApply_wf (t : Tile) (a : Act) (halt : Bool) : (s.commitApply t a halt).mem.wf = true := by
  have stored := Memory.foldl_wf (fun m e h => Memory.applyEnt_wf h e) a.stores h
  simp only [State.commitApply, State.dropAct_mem, State.phaseCommit_mem]
  rw [State.foldl_mem fun s x => by split <;> simp]
  simpa using stored

@[simp] theorem State.commit_wf (t : Tile) (a : Act) (halt : Bool) : (s.commit t a halt).mem.wf = true := by
  unfold State.commit
  split <;> simp [h]

@[simp] theorem State.setNext_wf (r : RegionId) (p : Req) (next : Nat) : (s.setNext r p next).mem.wf = true := Memory.putBytes_wf _ _ _ h

@[simp] theorem State.undefer_wf (q : Req) : (s.undefer q).mem.wf = true := by
  unfold State.undefer
  dsimp only
  repeat' split
  all_goals simp [h]

@[simp] theorem State.cancelWatch_wf (id : Nat) : (s.cancelWatch id).mem.wf = true := by
  unfold State.cancelWatch
  split <;> simp [h]

@[simp] theorem State.clearFacet_wf (t : Tile) (f : Facet) : (s.clearFacet t f).mem.wf = true := by
  unfold State.clearFacet
  dsimp only
  split
  · exact State.foldl_wf (fun s id h => State.cancelWatch_wf h id) _ h
  · exact h

@[simp] theorem State.beginLoad_wf (r : RegionId) (e : BitVec 512) (idx : Nat) (f : Facet) (restore : Bool) :
    (s.beginLoad r e idx f restore).mem.wf = true :=
  State.foldl_wf (fun s t h => State.clearFacet_wf (by split <;> exact h) t f) _ h

@[simp] theorem State.putElRecord_wf (t : Tile) (f : Facet) (b : List Byte) (bad : Nat → Bool) : (s.putElRecord t f b bad).mem.wf = true :=
  Memory.putImage_wf h ..

@[simp] theorem State.putMtRecord_wf (t : Tile) (f : Facet) (b : List Byte) (bad : Nat → Bool) : (s.putMtRecord t f b bad).mem.wf = true := by
  unfold State.putMtRecord
  dsimp only
  split
  · exact Memory.putImage_wf h ..
  · exact h

@[simp] theorem State.setTag_wf (word : Nat) (b : Bool) (f : Facet) (r : Option RegionId) : (s.setTag word b f r).mem.wf = true := by
  have tagged := s.mem.setFull_wf (8 * word) b h
  unfold State.setTag
  dsimp only
  repeat' split
  all_goals simp [h, tagged]

@[simp] theorem State.loadLocal_wf (t : Tile) (off : Nat) (v : Word) : (s.loadLocal t off v).mem.wf = true := by
  simpa [State.loadLocal] using Memory.setPoison_wf _ _ _ (Memory.setFull_wf _ _ _ (Memory.write_wf _ _ _ _ h))

@[simp] theorem State.writeCompute_wf (t : Tile) (f : Facet) (k : BitVec 256) : (s.writeCompute t f k).mem.wf = true := by
  unfold State.writeCompute
  dsimp only
  repeat' split
  · exact h
  · exact h
  · exact h
  · exact State.foldl_wf (fun s j h => State.loadLocal_wf h ..) _ h
  · exact h

@[simp] theorem State.writeMemTile_wf (t : Tile) (f : Facet) (k : BitVec 256) : (s.writeMemTile t f k).mem.wf = true := by
  unfold State.writeMemTile
  split
  · exact State.foldl_wf (fun s j h => State.setTag_wf (Memory.setPoison_wf _ _ _ (Memory.write_wf _ _ _ _ h)) ..) _ h
  · exact h

@[simp] theorem State.writeFrame_wf (t : Tile) (f : Facet) (k : BitVec 256) : (s.writeFrame t f k).mem.wf = true := by
  unfold State.writeFrame
  dsimp only
  repeat' split
  all_goals simp [h]

@[simp] theorem State.endWrite_wf (r : RegionId) (m : Img) (d : DieId) (f : Facet) : (s.endWrite r m d f).mem.wf = true := by
  unfold State.endWrite
  dsimp only
  split
  · refine State.foldl_wf (fun s x h => by simpa using h) _ (State.foldl_wf (fun s k h => ?_) _ (State.foldl_wf (fun s x h => by simpa using h) _ h))
    split <;> simp [h]
  · exact State.foldl_wf (fun s x h => by simpa using h) _ h

@[simp] theorem State.hostSend_wf (r : Option RegionId) (f : Facet) (pa : Nat) (bs : List Byte) (poison : Bool) :
    (s.hostSend r f pa bs poison).mem.wf = true := by
  unfold State.hostSend
  dsimp only
  repeat' split
  all_goals simp [h, Memory.writeWords_wf]

@[simp] theorem State.storeCw_wf (r : RegionId) (c : CwStore) (pa : Nat) (leaf : Word) : (s.storeCw r c pa leaf).mem.wf = true := by
  exact State.setTag_wf (Memory.devWrite_wf (by simp [h]) ..) ..

@[simp] theorem State.mtWrite_wf (t : Tile) (f : Facet) (off : Nat) (bs : List Byte) (poison : Bool) :
    (s.mtWrite t f off bs poison).mem.wf = true := by
  exact Memory.writeWords_wf (by simp [h]) ..

@[simp] theorem State.mtFill_wf (t : Tile) (f : Facet) (off : Nat) (bs : List Byte) (poison b : Bool) :
    (s.mtFill t f off bs poison b).mem.wf = true :=
  State.setTag_wf (State.mtWrite_wf h ..) ..

@[simp] theorem State.mtTag_wf (t : Tile) (f : Facet) (w : Nat) (b : Bool) : (s.mtTag t f w b).mem.wf = true := by
  unfold State.mtTag
  dsimp only
  split <;> simp [h]

@[simp] theorem State.tagReq_wf (q : Req) (b : Bool) : (s.tagReq q b).mem.wf = true := by
  unfold State.tagReq
  dsimp only
  split
  · simp [h]
  · refine State.setTag_wf ?_ ..
    split
    · exact Memory.convert_wf h ..
    · exact h

@[simp] theorem State.writeReq_wf (q : Req) (v : Nat) (poison : Bool) : (s.writeReq q v poison).mem.wf = true := by
  unfold State.writeReq
  dsimp only
  repeat' split
  all_goals simp [h, Memory.devWrite_wf]

@[simp] theorem State.fillReq_wf (q : Req) (v : Nat) (poison b : Bool) : (s.fillReq q v poison b).mem.wf = true := by
  unfold State.fillReq
  dsimp only
  split <;> simp [h]

@[simp] theorem State.readReq_wf (q : Req) : (s.readReq q).1.mem.wf = true := by
  unfold State.readReq
  dsimp only
  repeat' split
  all_goals simp [h, Memory.readHbm_wf]

@[simp] theorem State.defer_wf (q : Req) : (s.defer q).1.mem.wf = true := by
  have linked (r : RegionId) (p : Req) (n : Nat) : (s.bumpId.setNext r p n).mem.wf = true := State.setNext_wf (s := s.bumpId) h r p n
  unfold State.defer
  dsimp only
  repeat' split
  all_goals simp [h, linked, Memory.putBytes_wf]

@[simp] theorem State.deferOr_wf (q : Req) : (s.deferOr q).mem.wf = true := by
  have deferred := s.defer_wf h q
  unfold State.deferOr
  split <;> simp_all

@[simp] theorem State.releaseEntry_wf (e : BwEntry) : (s.releaseEntry e).mem.wf = true := by
  unfold State.releaseEntry
  split
  · dsimp only
    exact Memory.devWrite_wf (by simp [h]) ..
  · simp [h]
  · simp [h]
  · exact h
  · exact h
  · dsimp only
    split <;> simp [h]

end

theorem ite_wf {β : Type} {c : Prop} [Decidable c] {a b : State × β} (ha : a.1.mem.wf = true) (hb : b.1.mem.wf = true) :
    (if c then a else b).1.mem.wf = true := by
  split <;> assumption

/-- The debug matches of an access at an MT that comes from no element, or over the pair path. -/
def State.noteMtAccess (s : State) (q : Req) : State :=
  if isMt q.addr && (q.pairPath || !q.src.isElem) then
    q.words.foldl (fun s w => match s.mtMode (mtTile q.addr) q.facet with
      | some m => s.dbgMt (mtTile q.addr) q.facet (w - mtBase (mtTile q.addr) / 8 - m.mbase) (formReads q.form) (formWrites q.form && q.size != 0)
      | none => s) s
  else s

/-- A request as its access leaves it: the tag its word then has, and the time. -/
def Req.finished (q : Req) (s : State) : Req :=
  { q with srcTag := if q.form = 0xB then q.srcTag else s.mem.tagKnown q.addr, parked := false, arrived := s.cycle,
           timed := match q.region with
             | some r => !(s.rg r).tides
             | none => false }

/-- What follows an access: the reply, or the end of a request that asks for none. -/
def State.endAccess (s : State) (q : Req) (r : Reply) : State :=
  if q.asks then s.answerReq q r
  else match q.region with
    | some _ => if q.homeWrite && isHbm q.addr then s.setReq { q with stage := .atHome } else s.delReq q.id
    | none => s.delReq q.id

section
variable {s : State} (h : s.mem.wf = true)

include h

@[simp] theorem State.perform_wf (q : Req) : (s.perform q).1.mem.wf = true := by
  have counted : ((s.beforeAccess q).countBytes q.addr q.gl q.cls (q.homeWrite || q.form == 1)).mem.wf = true := by simp [h]
  unfold State.perform
  dsimp only
  generalize (s.beforeAccess q).countBytes q.addr q.gl q.cls (q.homeWrite || q.form == 1) = x at counted ⊢
  have read := State.readReq_wf counted q
  refine ite_wf ?_ (ite_wf ?_ (ite_wf ?_ (ite_wf ?_ (ite_wf ?_ (ite_wf ?_ (ite_wf ?_ (ite_wf ?_ ?_)))))))
  · cases q.newTag with
    | some b => exact State.fillReq_wf counted ..
    | none => exact State.writeReq_wf counted ..
  · exact read
  · exact State.writeReq_wf counted ..
  · cases q.src with
    | elem => exact read
    | _ => exact ite_wf (State.tagReq_wf read ..) (State.writeReq_wf read ..)
  · dsimp only
    split
    · exact State.fillReq_wf counted ..
    · exact State.fillReq_wf counted ..
  · exact State.tagReq_wf counted ..
  · exact read
  · dsimp only
    split <;> split
    · exact State.tagReq_wf counted ..
    · exact counted
    · exact State.fillReq_wf counted ..
    · exact State.writeReq_wf counted ..
  · exact counted

omit h in
@[simp] theorem State.noteMtAccess_mem (q : Req) : (s.noteMtAccess q).mem = s.mem := by
  unfold State.noteMtAccess
  split
  · exact State.foldl_mem (fun s w => by split <;> simp) _ _
  · rfl

omit h in
@[simp] theorem State.endAccess_mem (q : Req) (r : Reply) : (s.endAccess q r).mem = s.mem := by
  unfold State.endAccess
  repeat' split
  all_goals simp

omit h in
theorem State.finishAccess_eq (q : Req) :
    s.finishAccess q = ((s.perform q).1.noteMtAccess q).endAccess (q.finished s) (s.perform q).2 := rfl

@[simp] theorem State.finishAccess_wf (q : Req) : (s.finishAccess q).mem.wf = true := by
  simp [State.finishAccess_eq, h]

@[simp] theorem State.deliverUpcall_wf (r : RegionId) : (s.deliverUpcall r).mem.wf = true := by
  unfold State.deliverUpcall
  dsimp only
  repeat' split
  all_goals simp [h]

@[simp] theorem State.majorFault_wf (r : RegionId) (f : Facet) (va code kind aff bits : Nat) :
    (s.majorFault r f va code kind aff bits).mem.wf = true := by
  unfold State.majorFault
  dsimp only
  repeat' split
  all_goals simp [h]

@[simp] theorem State.flushUpcalls_wf : (s.flushUpcalls).mem.wf = true := State.foldl_wf (fun _ r h => State.deliverUpcall_wf h r) _ h

@[simp] theorem State.flushGoing_wf (r : RegionId) : (s.flushGoing r).mem.wf = true := by
  unfold State.flushGoing
  dsimp only
  split
  · exact h
  · exact State.foldl_wf (fun s e h => State.releaseEntry_wf h e) _ (by simpa using h)

@[simp] theorem State.commitEntries_wf (r : RegionId) (hit : BwEntry → Bool) : (s.commitEntries r hit).mem.wf = true := by
  unfold State.commitEntries
  rw [State.syncOcc_mem]
  refine State.foldl_wf (fun s e h => State.releaseEntry_wf h e) _ ?_
  rw [State.takeEntries_mem]
  exact State.flushGoing_wf (by exact h) r

@[simp] theorem State.commitReach_wf (r : RegionId) (n : Nat) : (s.commitReach r n).mem.wf = true := by
  unfold State.commitReach
  rw [State.freeBefore_mem, State.modRg_mem]
  dsimp only
  exact State.commitEntries_wf h r _

theorem State.commitDue_wf (r : RegionId) : ∀ s' ∈ s.commitDue r, s'.mem.wf = true := by
  have keep (s : State) (m : Nat × Nat) : KeepsWf s (s.commitReach (Fin.ofNat 32 m.1) m.2) := fun h => State.commitReach_wf h _ _
  unfold State.commitDue
  dsimp only
  split
  · simp
  · split
    · intro s' e
      rw [← Option.some.inj e]
      dsimp only
      exact State.foldl_wf keep _ h
    · simp

@[simp] theorem State.commitFirst_wf (r : RegionId) : (s.commitFirst r).mem.wf = true := by
  have due := State.commitDue_wf h r
  unfold State.commitFirst
  cases e : s.commitDue r with
  | none => exact h
  | some s' => exact due s' e

@[simp] theorem State.restoreShadows_wf (r : RegionId) : (s.restoreShadows r).mem.wf = true := by
  unfold State.restoreShadows
  dsimp only
  rw [State.takeEntries_mem]
  refine State.foldr_wf (fun s w h => ?_) _ h
  split
  · exact State.setTag_wf (Memory.poisonBlock_wf (Memory.devWrite_wf h ..) ..) ..
  · exact h

@[simp] theorem State.undoTile_wf (t : Tile) (n : Nat) : (s.undoTile t n).mem.wf = true := by
  unfold State.undoTile
  dsimp only
  repeat' split
  all_goals simp [h, Memory.undoAll_wf]

@[simp] theorem State.dropFacet_wf (r : RegionId) (f : Facet) : (s.dropFacet r f).mem.wf = true := by
  unfold State.dropFacet
  refine State.foldl_wf (fun s t h => ?_) _ (State.foldl_wf (fun s q h => ?_) _ h)
  · have cleared : ((s.clearTokens t f).clearFacet t f).mem.wf = true := State.clearFacet_wf (by simp [h]) t f
    dsimp only
    split <;> exact cleared
  · simp [h]

@[simp] theorem State.finishSave_wf (r : RegionId) (f : Facet) (size : Nat) : (s.finishSave r f size).mem.wf = true := State.dropFacet_wf h r f
@[simp] theorem State.hostPut_wf (pa : Nat) (bs : List Byte) (poison : Bool) : (s.hostPut pa bs poison).mem.wf = true := Memory.plainWrite_wf h ..

@[simp] theorem State.hostGet_wf (io : Fin 2) (pa : Nat) : (s.hostGet io pa).mem.wf = true := by
  unfold State.hostGet
  dsimp only
  split <;> simp [h, Memory.readHbm_wf]

@[simp] theorem State.hostMemRead_wf (io : Fin 2) (path : HostPath) (pa : BitVec 52) : (s.hostMemRead io path pa).mem.wf = true := by
  unfold State.hostMemRead
  repeat' split
  all_goals simp [h]

@[simp] theorem State.ringPut_wf (pa : Nat) (l : List Byte) : (s.ringPut pa l).mem.wf = true := by
  unfold State.ringPut
  split <;> simp [h]

@[simp] theorem State.ringIn_wf (io : Fin 2) (fr : EthFrame) : (s.ringIn io fr).mem.wf = true := by
  simp [State.ringIn, h]

@[simp] theorem State.transmit_wf (io q : Fin 2) (n : Nat) : (s.transmit io q n).mem.wf = true := by
  unfold State.transmit
  dsimp only
  split <;> simp [h]

@[simp] theorem State.cancelPage_wf (page : Nat) : (s.cancelPage page).mem.wf = true := State.foldl_wf (fun s q h => by simp [h]) _ h
@[simp] theorem State.cancelGo_wf (d : DieId) (v : Word) : (s.cancelGo d v).mem.wf = true := State.cancelPage_wf (by exact h) _

@[simp] theorem State.dbgWrite_wf (x : DbgPlace) (v : Word) : (s.dbgWrite x v).mem.wf = true := by
  unfold State.dbgWrite
  repeat' split
  all_goals simp [h, Memory.setPoison_wf, Memory.write_wf, Memory.setFull_wf]

@[simp] theorem State.endDbg_wf (r : RegionId) : (s.endDbg r).mem.wf = true := by
  unfold State.endDbg
  dsimp only
  repeat' split
  all_goals simp [h]

@[simp] theorem State.startRestore_wf (r : RegionId) (f : Facet) (act : Bool) : (s.startRestore r f act).mem.wf = true := by
  unfold State.startRestore
  dsimp only
  repeat' split
  all_goals simp [h]

@[simp] theorem State.writePrectl_wf (r : RegionId) (v : Word) : (s.writePrectl r v).mem.wf = true := by
  unfold State.writePrectl
  dsimp only
  repeat' split
  all_goals simp [h]

@[simp] theorem State.writeMccan_wf (d : DieId) (v : Word) : (s.writeMccan d v).mem.wf = true := by
  unfold State.writeMccan
  repeat' split
  all_goals simp [h]

@[simp] theorem State.writeReg_wf (reg : PlainReg) (v : Word) : (s.writeReg reg v).mem.wf = true := by
  cases reg
  case prectl => exact State.writePrectl_wf h ..
  case mccan => exact State.writeMccan_wf h ..
  all_goals simp [State.writeReg, h]

@[simp] theorem State.struck_wf (u : Upset) : (s.struck u).mem.wf = true := by
  unfold State.struck
  dsimp only
  repeat' split
  all_goals simp [h]

@[simp] theorem State.takeUpset_wf : (s.takeUpset).mem.wf = true := by
  unfold State.takeUpset
  dsimp only
  repeat' split
  all_goals simp [h, State.pick]

end
theorem State.restart_wf (s : State) (tripped : Bool) : (s.restart tripped).mem.wf = true := Memory.empty_wf
theorem safeOut_self (s : State) : SafeOut s (.next s) := id
section
variable {s : State} (h : s.mem.wf = true)

include h

theorem State.restoreOne_wf (r : RegionId) (base off len : Nat) {put : List Byte → (Nat → Bool) → State}
    (keep : ∀ b bad, KeepsWf s (put b bad)) :
    ∀ s' ∈ s.restoreOne r base off len put, s'.mem.wf = true := by
  intro s' e
  obtain ⟨x, -, rfl⟩ := Option.map_eq_some_iff.1 e
  exact keep _ _ h

omit h in
theorem foldl_records_wf {op : Option State × Nat → Tile → Option State × Nat}
    (keep : ∀ x t, (∀ s ∈ x.1, s.mem.wf = true) → ∀ s ∈ (op x t).1, s.mem.wf = true) (l : List Tile) {x : Option State × Nat}
    (h : ∀ s ∈ x.1, s.mem.wf = true) : ∀ s ∈ (l.foldl op x).1, s.mem.wf = true :=
  List.foldlRecOn l op (motive := fun x => ∀ s ∈ x.1, s.mem.wf = true) h fun x h t _ => keep x t h

theorem State.restoreRecords_wf (r : RegionId) (f : Facet) : ∀ s' ∈ s.restoreRecords r f, s'.mem.wf = true := by
  have records := foldl_records_wf (x := (some s, 256)) (op := fun x t =>
    let n := elRecordLen ((s.el t).fac f)
    (x.1.bind fun s' => s'.restoreOne r (s.rg r).ctxVa x.2 n (s'.putElRecord t f), x.2 + roundUp64 n)) (fun x t h s' e => by
      obtain ⟨y, ey, e⟩ := Option.bind_eq_some_iff.1 e
      exact State.restoreOne_wf (h y ey) _ _ _ _ (fun b bad h => State.putElRecord_wf h ..) s' e) (s.recordEls r f) (by rintro s' ⟨⟩; exact h)
  have areas := foldl_records_wf (op := fun x t =>
    let n := mtRecordLen ((s.mt t).fac f)
    (x.1.bind fun s' => s'.restoreOne r (s.rg r).ctxVa x.2 n (s'.putMtRecord t f), x.2 + roundUp64 n)) (fun x t h s' e => by
      obtain ⟨y, ey, e⟩ := Option.bind_eq_some_iff.1 e
      exact State.restoreOne_wf (h y ey) _ _ _ _ (fun b bad h => State.putMtRecord_wf h ..) s' e) (s.recordMts r f) records
  unfold State.restoreRecords
  dsimp only
  split
  · next s' _ e _ =>
    intro s'' e'
    obtain ⟨x, -, rfl⟩ := Option.map_eq_some_iff.1 e'
    rw [State.foldl_mem (fun s i => by simp), State.noteBlocks_mem]
    exact areas s' e
  · simp

end
section
variable {s : State} (h : s.mem.wf = true)

include h

@[simp] theorem State.passDie_wf (r : RegionId) (l : Load) (x : DieLoad) : (s.passDie r l x).mem.wf = true := by
  unfold State.passDie
  dsimp only
  split
  · split
    · split
      · next s' e => simpa using State.restoreRecords_wf (by exact h) r l.facet s' e
      · simp [h]
    · exact h
  · exact h

theorem State.readImage_wf (r : RegionId) (va : Nat) {k : BitVec 256} {s' : State} (e : s.readImage r va = .frame k s') : s'.mem.wf = true := by
  have clean (pa : Nat) (leaf : Word) : (s.mem.readHbm pa 32 (leafGl leaf)).1.wf = true := Memory.readHbm_wf h ..
  unfold State.readImage at e
  dsimp only at e
  repeat' split at e
  all_goals simp only [reduceCtorEq, FrameRead.frame.injEq] at e
  all_goals rw [← e.2]
  · exact clean ..
  · exact h

@[simp] theorem State.takeFrame_wf (r : RegionId) (l : Load) (x : DieLoad) (k : BitVec 256) : (s.takeFrame r l x k).mem.wf = true := by
  unfold State.takeFrame
  dsimp only
  repeat' split
  all_goals simp [h]

@[simp] theorem State.restoreRegion_wf (r : RegionId) : (s.restoreRegion r).mem.wf = true := by
  unfold State.restoreRegion
  extract_lets g n gone taken dropped free shadowed emptied live cleared buses undone back woken
  have taken_wf : taken.mem.wf = true := State.foldl_wf (fun s q h => State.undefer_wf h q) _ h
  have shadowed_wf : shadowed.mem.wf = true := State.restoreShadows_wf (s := free) taken_wf r
  have buses_mem : buses.mem = shadowed.mem := State.foldl_mem (fun s f => State.foldl_mem (fun s t => by simp) _ s) live emptied
  have buses_wf : buses.mem.wf = true := buses_mem ▸ shadowed_wf
  have undone_wf : undone.mem.wf = true := State.foldl_wf (fun s t h => State.undoTile_wf h t n) _ buses_wf
  have back_wf : back.mem.wf = true := by
    unfold back
    split
    · rw [State.restoreHops_mem, State.foldl_mem fun s f => State.foldl_mem (fun s t => by simp) _ s]
      exact undone_wf
    · exact buses_wf
  have woken_mem : woken.mem = back.mem := State.foldl_mem (fun s t => by split <;> simp) _ _
  rw [State.syncOcc_mem, State.modRg_mem, woken_mem]
  exact back_wf

end

/-! Events and cycles -/

theorem State.commit_keeps (s : State) (t : Tile) (a : Act) (halt : Bool) : KeepsWf s (s.commit t a halt) := fun h => State.commit_wf h t a halt

theorem State.issue_wf {s : State} (t : Tile) (a : Act) (w : Head) (srcs : List Spec) (out : Option (BitVec 4)) {nul : Token → State} {body : State}
    (null : ∀ k, KeepsWf s (nul k)) (exec : KeepsWf s body) : KeepsWf s (s.issue t a w srcs out nul body) := by
  obtain ⟨-, e⟩ | ⟨-, ⟨-, e⟩ | ⟨-, e | ⟨k, -, -, e⟩ | e⟩⟩ := s.issue_cases t a w srcs out nul body <;> rw [e]
  · exact id
  · exact .of_mem rfl
  · exact .of_mem rfl
  · exact null k
  · exact exec

theorem execEnd_safe (w : RForm) (s : State) : SafeOut s (execEnd w s) :=
  withAct_safe fun t a => State.issue_wf t a w.head [] none (fun _ => id) (s.commit_keeps t a false)

theorem execHalt_safe (w : RForm) (s : State) : SafeOut s (execHalt w s) :=
  withAct_safe fun t a => State.issue_wf t a w.head [] none (fun _ => id) (s.commit_keeps t a true)

theorem execEntrySelect_safe (r : RegionId) (s : State) : SafeOut s (execEntrySelect r s) := by
  unfold execEntrySelect
  dsimp only
  repeat' split
  · exact when_safe _ fun h => State.beginLoad_wf h ..
  all_goals exact safeOut_self s

theorem execLoadFrame_safe (r : RegionId) (d : DieId) (s : State) : SafeOut s (execLoadFrame r d s) := by
  unfold execLoadFrame
  split
  · exact safeOut_self s
  · split
    · exact safeOut_self s
    · split
      · exact safeOut_self s
      · split
        · exact safeOut_self s
        · exact KeepsWf.of_mem (by simp)
        · next e => exact fun h => State.takeFrame_wf (by simpa using State.readImage_wf h _ _ e) _ _ _ _

theorem execCompletionWordStore_safe (r : RegionId) (s : State) : SafeOut s (execCompletionWordStore r s) := by
  have stored (c : CwStore) (rest : List CwStore) (pa : Nat) (leaf : Word) :
      KeepsWf s ((s.modRg r fun g => { g with cw := rest }).storeCw r c pa leaf) :=
    fun h => State.storeCw_wf (by exact h) ..
  have refused (c : CwStore) (rest : List CwStore) (code : Nat) : KeepsWf s ((s.modRg r fun g => { g with cw := rest }).refuseCw r c code) :=
    .of_mem (by simp)
  unfold execCompletionWordStore
  dsimp only
  split
  · exact safeOut_self s
  · split
    · exact safeOut_self s
    · split
      · exact when_safe _ (refused _ _ _)
      · split
        · exact KeepsWf.of_mem (by simp)
        · repeat' split
          · exact refused _ _ _
          · exact refused _ _ _
          · exact refused _ _ _
          · exact when_safe _ (stored _ _ _ _)
        · exact refused _ _ _
        · exact refused _ _ _
        · exact refused _ _ _

theorem execBreakwaterAccept_safe (id : Nat) (s : State) : SafeOut s (execBreakwaterAccept id s) := by
  unfold execBreakwaterAccept
  dsimp only
  repeat' split
  all_goals exact fun h => by simp [h]

theorem execHomeAccess_safe (id : Nat) (s : State) : SafeOut s (execHomeAccess id s) := by
  have turn (q : Req) : KeepsWf s (s.inTurn (reqTurn id) (accessOf q.words) (·.finishAccess q)) :=
    State.inTurn_wf _ _ fun x h => State.finishAccess_wf h q
  have watch (q : Req) {x : State × Option Nat} (e : s.bumpId.defer q = x) : KeepsWf s x.1 := fun h => e ▸ State.defer_wf (by exact h) q
  unfold execHomeAccess
  dsimp only
  split
  · exact safeOut_self s
  · split
    · exact safeOut_self s
    · split
      · exact KeepsWf.of_mem (by simp)
      · split
        · exact safeOut_self s
        · split
          · exact KeepsWf.of_mem (by simp)
          · split
            · exact fun h => State.deferOr_wf h _
            · split
              · split
                · split
                  · next e => exact fun h => by simpa using watch _ e h
                  · next e => exact fun h => by simpa using watch _ e h
                · exact fun h => State.deferOr_wf h _
              · split
                · exact KeepsWf.of_mem (by simp)
                · exact KeepsWf.of_mem (by simp)
                · exact turn _

theorem execReexamination_safe (id : Nat) (s : State) : SafeOut s (execReexamination id s) := by
  have turn (q q' : Req) (w : Nat) : KeepsWf s (s.inTurn (reqTurn id) (accessOf q.words) fun s => ((s.undefer q).finishAccess q').trimReexam w) :=
    State.inTurn_wf _ _ fun x h => by simp [h]
  unfold execReexamination
  split
  · exact safeOut_self s
  · split
    · exact safeOut_self s
    · repeat' split
      · exact safeOut_self s
      · exact KeepsWf.of_mem rfl
      · exact safeOut_self s
      · exact safeOut_self s
      · exact KeepsWf.of_mem (by simp)
      · exact turn _ _ _

theorem execBudgetExpiry_safe (id : Nat) (s : State) : SafeOut s (execBudgetExpiry id s) := by
  unfold execBudgetExpiry
  split
  · exact safeOut_self s
  · exact when_safe _ fun h => by simp [h]

theorem KeepsWf.modMtFac {s s' : State} (h : KeepsWf s s') (t : Tile) (f : Facet) (g : MtFacet → MtFacet) : KeepsWf s (s'.modMtFac t f g) := h

theorem State.mtFill_keeps (s :
    State) (t : Tile) (f : Facet) (off : Nat) (bs : List Byte) (poison b : Bool) : KeepsWf s (s.mtFill t f off bs poison b) :=
  fun h => State.mtFill_wf h ..

theorem State.mtWrite_keeps (s :
    State) (t : Tile) (f : Facet) (off : Nat) (bs : List Byte) (poison : Bool) : KeepsWf s (s.mtWrite t f off bs poison) :=
  fun h => State.mtWrite_wf h ..

theorem KeepsWf.ite {s a b : State} {c : Prop} [Decidable c] (ha : KeepsWf s a) (hb : KeepsWf s b) : KeepsWf s (if c then a else b) := by
  split <;> assumption

theorem execFifoPush_safe (t : Tile) (f : Facet) (s : State) : SafeOut s (execFifoPush t f s) := by
  unfold execFifoPush
  split
  · split
    · exact safeOut_self s
    · split
      · exact KeepsWf.of_mem (by simp)
      · dsimp only
        split
        · exact safeOut_self s
        · split
          · exact safeOut_self s
          · exact KeepsWf.of_mem (by simp)
          · exact State.inTurn_wf _ _ fun x => State.mtTaking_wf _ _ _ fun y => (y.mtFill_keeps _ _ _ _ _ _).modMtFac _ _ _
  · exact safeOut_self s

theorem execFifoPop_safe (t : Tile) (f : Facet) (s : State) : SafeOut s (execFifoPop t f s) := by
  unfold execFifoPop
  dsimp only
  split
  · exact safeOut_self s
  · split
    · exact safeOut_self s
    · split
      · exact safeOut_self s
      · exact KeepsWf.of_mem (by simp)
      · exact State.inTurn_wf _ _ fun x h => by simp [h]

theorem execLineInput_safe (t : Tile) (f : Facet) (s : State) : SafeOut s (execLineInput t f s) := by
  unfold execLineInput
  dsimp only
  split
  · split
    · exact safeOut_self s
    · split
      · exact safeOut_self s
      · exact KeepsWf.of_mem (by simp)
      · split
        · exact KeepsWf.of_mem (by simp)
        · exact State.inTurn_wf _ _ fun x => State.mtTaking_wf _ _ _ fun y =>
            ((y.mtFill_keeps _ _ _ _ _ _).ite (y.mtWrite_keeps _ _ _ _ _)).modMtFac _ _ _
  · exact safeOut_self s

theorem execTableWalkComplete_safe (id : Nat) (s : State) : SafeOut s (execTableWalkComplete id s) := by
  unfold execTableWalkComplete
  dsimp only
  repeat' split
  all_goals exact fun h => by simp [h]

theorem execMigrationTimeout_safe (id : Nat) (s : State) : SafeOut s (execMigrationTimeout id s) := by
  unfold execMigrationTimeout
  dsimp only
  repeat' split
  all_goals exact fun h => by simp [h]

theorem execRollbackRestore_safe (r : RegionId) (s : State) : SafeOut s (execRollbackRestore r s) := by
  unfold execRollbackRestore
  dsimp only
  split
  · exact safeOut_self s
  · exact when_safe _ fun h => State.restoreRegion_wf h r

theorem execReachCommit_safe (r : RegionId) (s : State) : SafeOut s (execReachCommit r s) := fun h => State.commitFirst_wf h r

theorem execTimedCommit_safe (r : RegionId) (s : State) : SafeOut s (execTimedCommit r s) := by
  unfold execTimedCommit
  refine when_safe _ fun h => ?_
  have flushed := State.flushGoing_wf h r
  dsimp only
  split
  · exact flushed
  · dsimp only
    exact State.commitEntries_wf flushed ..

theorem execSaveCommit_safe (r : RegionId) (s : State) : SafeOut s (execSaveCommit r s) := by
  unfold execSaveCommit
  dsimp only
  split
  · exact safeOut_self s
  · exact when_safe _ fun h => State.finishSave_wf h ..

theorem execTxComplete_safe (io q : Fin 2) (s : State) : SafeOut s (execTxComplete io q s) := by
  unfold execTxComplete
  dsimp only
  split
  · exact when_safe _ fun h => State.transmit_wf h ..
  · exact safeOut_self s

theorem execMccanComplete_safe (d : DieId) (s : State) : SafeOut s (execMccanComplete d s) := by
  refine when_safe _ fun h => ?_
  split <;> simp [h]

theorem execDebugAccessComplete_safe (r : RegionId) (s : State) : SafeOut s (execDebugAccessComplete r s) := when_safe _ fun h => State.endDbg_wf h r
theorem execMccanCancel_safe (d : DieId) (v : Word) (s : State) : SafeOut s (execMccanCancel d v s) := when_safe _ fun h => State.cancelGo_wf h d v

theorem execPreemptRestore_safe (r : RegionId) (v : Word) (s : State) : SafeOut s (execPreemptRestore r v s) := by
  intro h
  repeat' split
  all_goals simp [h]

theorem execHostRead_safe (io : Fin 2) (path : HostPath) (pa : BitVec 52) (s : State) : SafeOut s (execHostRead io path pa s) := by
  refine when_safe _ fun h => ?_
  repeat' split
  all_goals simp [h]

theorem execHostWrite_safe (io : Fin 2) (path : HostPath) (pa : BitVec 52) (data : List Byte) (poison : Bool) (s : State) :
    SafeOut s (execHostWrite io path pa data poison s) := by
  unfold execHostWrite
  repeat' split
  all_goals exact fun h => by simp [h]

theorem execHostRingFrameReceive_safe (io : Fin 2) (fr : EthFrame) (s : State) : SafeOut s (execHostRingFrameReceive io fr s) :=
  when_safe _ fun h => State.ringIn_wf h io fr

theorem execMonitorSample_safe (d : DieId) (temp vcore : BitVec 10) (s : State) : SafeOut s (execMonitorSample d temp vcore s) := by
  refine when_safe _ fun h => ?_
  unfold State.sample
  dsimp only
  repeat' split
  · exact s.restart_wf true
  all_goals simp [h]

theorem execDeviceReset_safe (flash : BootInputs) (s : State) : SafeOut s (execDeviceReset flash s) := fun _ => s.restart_wf false
theorem execRegisterWrite_safe (reg : PlainReg) (v : Word) (s : State) :
    SafeOut s (execRegisterWrite reg v s) := when_safe _ fun h => State.writeReg_wf h reg v

@[simp] theorem State.tick_wf {s : State} (h : s.mem.wf = true) : s.tick.mem.wf = true := by
  have ticked (s : State) (r : RegionId) : KeepsWf s (if s.inUse r then s.tickRegion r else s) := .of_mem (by split <;> simp)
  unfold State.tick
  extract_lets a b c d e f
  have e_wf : e.mem.wf = true := State.takeUpset_wf (by simpa [d, c, b, a] using h)
  rw [State.resyncTick_mem]
  exact State.flushUpcalls_wf (State.foldl_wf ticked _ e_wf)

theorem State.newCycle_wf {s : State} (h : s.mem.wf = true) : s.newCycle.mem.wf = true := by
  simp [State.newCycle, h]

end Sys2Proof.Machine
end
section
/-! O2. Every instruction, event and cycle keeps the canonical form. Instructions of one shape go by the lemma of their shape. -/

namespace Sys2Proof.Machine

theorem exec_safe (i : Instr) (s : State) : SafeOut s (exec i s) := by
  cases i with
  | add w | sub w | mul w | mulh w | mulhu w | div w | divu w | rem w | remu w | and w | or w | xor w | andn w | shl w | shr w | sra w
  | rotl w | clz w | ctz w | popc w | bswap w | bext w | bins w | min w | max w | minu w | maxu w | chash w =>
    simp only [exec, execAdd, execSub, execMul, execMulh, execMulhu, execDiv, execDivu, execRem, execRemu, execAnd, execOr, execXor,
      execAndn, execShl, execShr, execSra, execRotl, execClz, execCtz, execPopc, execBswap, execBext, execBins, execMin, execMax, execMinu,
      execMaxu, execChash]
    exact (intR_kept ..).safe
  | scopy w | sgath w | sscat w | sred w | scomp w | sexp w | agstart w | agstop w | agqry w | darm w | dpost w | wcvt w | mma w | mldb w
  | mscale w | maclr w | msto w | mrda w | mswap w | mqry w | mslot w | mfence w =>
    simp only [exec, execScopy, execSgath, execSscat, execSred, execScomp, execSexp, execAgstart, execAgstop, execAgqry, execDarm,
      execDpost, execWcvt, execMma, execMldb, execMscale, execMaclr, execMsto, execMrda, execMswap, execMqry, execMslot, execMfence]
    exact (State.engineToken_kept ..).safe
  | addi w | muli w | andi w | ori w | xori w | shli w | shri w | srai w | cmpi w | limm w =>
    simp only [exec, execAddi, execMuli, execAndi, execOri, execXori, execShli, execShri, execSrai, execCmpi, execLimm]
    exact (State.scalarI_kept ..).safe
  | viadd w | visub w | vimul w | vand w | vor w | vxor w | vshl w | vshr w | vsra w | vpopc w =>
    simp only [exec, execViadd, execVisub, execVimul, execVand, execVor, execVxor, execVshl, execVshr, execVsra, execVpopc]
    exact (vintR_kept ..).safe
  | fadd w | fsub w | fmul w | ffma w | fdiv w | fsqrt w | fmin w | fmax w | fcmp w =>
    simp only [exec, execFadd, execFsub, execFmul, execFfma, execFdiv, execFsqrt, execFmin, execFmax, execFcmp]
    exact (fpR_kept ..).safe
  | vadd w | vsub w | vmul w | vfma w | vmin w | vmax w | vabsmax w =>
    simp only [exec, execVadd, execVsub, execVmul, execVfma, execVmin, execVmax, execVabsmax]
    exact (vfpR_kept ..).safe
  | vrsqe w | vrcpe w | vcmul w | vcmac w | vconj w | vbfly w =>
    simp only [exec, execVrsqe, execVrcpe, execVcmul, execVcmac, execVconj, execVbfly]
    exact (State.vecR_kept ..).safe
  | send w | sendn w | sende w | sendh w | sendt w =>
    simp only [exec, execSend, execSendn, execSende, execSendh, execSendt]
    exact (State.sendForm_kept ..).safe
  | mld w | mldw w | mldc w | mtagq w =>
    simp only [exec, execMld, execMldw, execMldc, execMtagq]
    exact (State.devLoad_kept ..).safe
  | mst w | mstf w | mstx w | mtage w =>
    simp only [exec, execMst, execMstf, execMstx, execMtage]
    exact (State.devStore_kept ..).safe
  | cmp w | frsqe w | frcpe w =>
    simp only [exec, execCmp, execFrsqe, execFrcpe]
    exact (State.scalarR_kept ..).safe
  | vcvt w | vcvts w =>
    simp only [exec, execVcvt, execVcvts]
    exact (vcvt_kept ..).safe
  | matom w | mcas w =>
    simp only [exec, execMatom, execMcas]
    exact (State.devAtomic_kept ..).safe
  | sel w => exact (execSel_kept ..).safe
  | lea w => exact (execLea_kept ..).safe
  | fcvt w => exact (execFcvt_kept ..).safe
  | vred w => exact (execVred_kept ..).safe
  | vscan w => exact (execVscan_kept ..).safe
  | vdot w => exact (execVdot_kept ..).safe
  | vcmp w => exact (execVcmp_kept ..).safe
  | vicmp w => exact (execVicmp_kept ..).safe
  | vsel w => exact (execVsel_kept ..).safe
  | vsplat w => exact (execVsplat_kept ..).safe
  | vperm w => exact (execVperm_kept ..).safe
  | vextr w => exact (execVextr_kept ..).safe
  | vins w => exact (execVins_kept ..).safe
  | vpack w => exact (execVpack_kept ..).safe
  | vunpk w => exact (execVunpk_kept ..).safe
  | ld w => exact (execLd_kept ..).safe
  | st w => exact (execSt_kept ..).safe
  | ldv w => exact (execLdv_kept ..).safe
  | stv w => exact (execStv_kept ..).safe
  | ldw w => exact (execLdw_kept ..).safe
  | ldc w => exact (execLdc_kept ..).safe
  | stf w => exact (execStf_kept ..).safe
  | stx w => exact (execStx_kept ..).safe
  | tage w => exact (execTage_kept ..).safe
  | tagq w => exact (execTagq_kept ..).safe
  | recv w => exact (execRecv_kept ..).safe
  | peek w => exact (execPeek_kept ..).safe
  | tagr w => exact (execTagr_kept ..).safe
  | fwd w => exact (execFwd_kept ..).safe
  | brc w => exact (execBrc_kept ..).safe
  | call w => exact (execCall_kept ..).safe
  | ret w => exact (execRet_kept ..).safe
  | loop w => exact (execLoop_kept ..).safe
  | arm w => exact (execArm_kept ..).safe
  | mask w => exact (execMask_kept ..).safe
  | mts w => exact (execMts_kept ..).safe
  | fence w => exact (execFence_kept ..).safe
  | order w => exact (execOrder_kept ..).safe
  | tld w => exact (execTld_kept ..).safe
  | tst w => exact (execTst_kept ..).safe
  | markRemoval t port f => exact (execMarkRemoval_kept ..).safe
  | boundaryArrival t entry => exact (execBoundaryArrival_kept ..).safe
  | busDelivery d bus => exact (execBusDelivery_kept ..).safe
  | ingressAccept r p => exact (execIngressAccept_kept ..).safe
  | loadStart r d => exact (execLoadStart_kept ..).safe
  | waveArrival r col => exact (execWaveArrival_kept ..).safe
  | loadPass r => exact (execLoadPass_kept ..).safe
  | requestLeave t f => exact (execRequestLeave_kept ..).safe
  | requestReply id => exact (execRequestReply_kept ..).safe
  | watchWake id => exact (execWatchWake_kept ..).safe
  | asyncTrap id => exact (execAsyncTrap_kept ..).safe
  | regulatorGrant d cls => exact (execRegulatorGrant_kept ..).safe
  | trcmdComplete d => exact (execTrcmdComplete_kept ..).safe
  | permitArrival t f ag => exact (execPermitArrival_kept ..).safe
  | doneArrival t f ag => exact (execDoneArrival_kept ..).safe
  | commandCompletion t => exact (execCommandCompletion_kept ..).safe
  | matrixCommandStart t f k => exact (execMatrixCommandStart_kept ..).safe
  | rowStage t f => exact (execRowStage_kept ..).safe
  | operandBurstTake t f isB => exact (execOperandBurstTake_kept ..).safe
  | rowEffect t => exact (execRowEffect_kept ..).safe
  | resultBurst t => exact (execResultBurst_kept ..).safe
  | matrixCompletion t => exact (execMatrixCompletion_kept ..).safe
  | replayStart r => exact (execReplayStart_kept ..).safe
  | tideInject r => exact (execTideInject_kept ..).safe
  | reachClose r => exact (execReachClose_kept ..).safe
  | saveStop r => exact (execSaveStop_kept ..).safe
  | drainInject r => exact (execDrainInject_kept ..).safe
  | saveImageWrite r => exact (execSaveImageWrite_kept ..).safe
  | powerResend k => exact (execPowerResend_kept ..).safe
  | ttSend io q => exact (execTtSend_kept ..).safe
  | fronthaulEgress io r p => exact (execFronthaulEgress_kept ..).safe
  | delayLineArrival r p => exact (execDelayLineArrival_kept ..).safe
  | ttAckReceive io frame => exact (execTtAckReceive_kept ..).safe
  | drop w => exact (execDrop_kept ..).safe
  | br w => exact (execBr_kept ..).safe
  | yield w => exact (execYield_kept ..).safe
  | abort w => exact (execAbort_kept ..).safe
  | trap w => exact (execTrap_kept ..).safe
  | mfs w => exact (execMfs_kept ..).safe
  | illegalOpcode w => exact (execIllegalOpcode_kept s w).safe
  | endAct w => exact execEnd_safe w s
  | halt w => exact execHalt_safe w s
  | entrySelect r => exact execEntrySelect_safe r s
  | loadFrame r d => exact execLoadFrame_safe r d s
  | completionWordStore r => exact execCompletionWordStore_safe r s
  | breakwaterAccept id => exact execBreakwaterAccept_safe id s
  | homeAccess id => exact execHomeAccess_safe id s
  | reexamination id => exact execReexamination_safe id s
  | budgetExpiry id => exact execBudgetExpiry_safe id s
  | fifoPush t f => exact execFifoPush_safe t f s
  | fifoPop t f => exact execFifoPop_safe t f s
  | lineInput t f => exact execLineInput_safe t f s
  | tableWalkComplete id => exact execTableWalkComplete_safe id s
  | migrationTimeout id => exact execMigrationTimeout_safe id s
  | rollbackRestore r => exact execRollbackRestore_safe r s
  | reachCommit r => exact execReachCommit_safe r s
  | timedCommit r => exact execTimedCommit_safe r s
  | saveCommit r => exact execSaveCommit_safe r s
  | txComplete io q => exact execTxComplete_safe io q s
  | mccanComplete d => exact execMccanComplete_safe d s
  | debugAccessComplete r => exact execDebugAccessComplete_safe r s
  | mccanCancel d v => exact execMccanCancel_safe d v s
  | preemptRestore r v => exact execPreemptRestore_safe r v s
  | hostRead io path pa => exact execHostRead_safe io path pa s
  | hostWrite io path pa data poison => exact execHostWrite_safe io path pa data poison s
  | hostRingFrameReceive io frame => exact execHostRingFrameReceive_safe io frame s
  | monitorSample d temp vcore => exact execMonitorSample_safe d temp vcore s
  | deviceReset flash => exact execDeviceReset_safe flash s
  | registerWrite reg v => exact execRegisterWrite_safe reg v s
  | handlerDispatch t => exact (execHandlerDispatch_kept ..).safe
  | windowWriteApply t f reg v => exact (execWindowWriteApply_kept ..).safe
  | fquietSet r f => exact (execFquietSet_kept ..).safe
  | swapDue r => exact (execSwapDue_kept ..).safe
  | mooringFormatDone r => exact (execMooringFormatDone_kept ..).safe
  | nodeLaunch t node => exact (execNodeLaunch_kept ..).safe
  | pinQueryComplete d => exact (execPinQueryComplete_kept ..).safe
  | trappedClear t f => exact (execTrappedClear_kept ..).safe
  | rggeomWrite r v => exact (execRggeomWrite_kept ..).safe
  | rgnewWrite r v => exact (execRgnewWrite_kept ..).safe
  | rateUpdate r p rate => exact (execRateUpdate_kept ..).safe
  | trcmdInvalidateRange d v => exact (execTrcmdInvalidateRange_kept ..).safe
  | trcmdInvalidateAsid d v => exact (execTrcmdInvalidateAsid_kept ..).safe
  | trcmdWake d v => exact (execTrcmdWake_kept ..).safe
  | pinQuery d v => exact (execPinQuery_kept ..).safe
  | strikeReport die zone => exact (execStrikeReport_kept ..).safe
  | stopClear r => exact (execStopClear_kept ..).safe
  | freezeRelease r => exact (execFreezeRelease_kept ..).safe
  | devtimeBroadcast => exact (execDevtimeBroadcast_kept ..).safe
  | powerExchange => exact (execPowerExchange_kept ..).safe
  | fronthaulFrameReceive io frame => exact (execFronthaulFrameReceive_kept ..).safe
  | ttDataFrameReceive io frame => exact (execTtDataFrameReceive_kept ..).safe
  | spdmRequest req => exact (execSpdmRequest_kept ..).safe
  | cutStart r v => exact (execCutStart_kept ..).safe
  | cutRelease r => exact (execCutRelease_kept ..).safe
  | stallAbort t => exact (execStallAbort_kept ..).safe
  | creditReturn t entry => exact (execCreditReturn_kept ..).safe
  | resizeComplete r => exact (execResizeComplete_kept ..).safe
  | freewApply d => exact (execFreewApply_kept ..).safe
  | lockstepTimeout r => exact (execLockstepTimeout_kept ..).safe
  | commandStart t f k => exact (execCommandStart_kept ..).safe
  | readWalkElement t f k => exact (execReadWalkElement_kept ..).safe
  | writeWalkElement t f k => exact (execWriteWalkElement_kept ..).safe
  | sparseSlotIssue t => exact (execSparseSlotIssue_kept ..).safe
  | rowFire t => exact (execRowFire_kept ..).safe
  | tideTake t f => exact (execTideTake_kept ..).safe
  | drainTake t f => exact (execDrainTake_kept ..).safe
  | freezeStop r => exact (execFreezeStop_kept ..).safe
  | powerMessageReceipt k => exact (execPowerMessageReceipt_kept ..).safe
  | ttRetransmit io q => exact (execTtRetransmit_kept ..).safe
  | resyncComplete => exact (execResyncComplete_kept ..).safe
  | slotBoundary r => exact (execSlotBoundary_kept ..).safe
  | haltedClear t f => exact (execHaltedClear_kept ..).safe
  | fenableClear t f => exact (execFenableClear_kept ..).safe
  | routeAdvance => exact (execRouteAdvance_kept ..).safe
  | portRegisterWrite r dir p v => exact (execPortRegisterWrite_kept ..).safe
  | lqdoorPush r w data => exact (execLqdoorPush_kept ..).safe
  | lqctlCancel r v => exact (execLqctlCancel_kept ..).safe
  | seedtPush r p v => exact (execSeedtPush_kept ..).safe
  | seedFlush r p => exact (execSeedFlush_kept ..).safe
  | freewWrite d frame => exact (execFreewWrite_kept ..).safe
  | rgmoorWrite r v => exact (execRgmoorWrite_kept ..).safe
  | rgtrrWrite r v => exact (execRgtrrWrite_kept ..).safe
  | rearm r => exact (execRearm_kept ..).safe
  | tideControlWrite r v => exact (execTideControlWrite_kept ..).safe
  | noticeRead fifo => exact (execNoticeRead_kept ..).safe
  | devtimeStep => exact (execDevtimeStep_kept ..).safe
  | txdoorWrite io q n => exact (execTxdoorWrite_kept ..).safe
  | rgtenWrite r v => exact (execRgtenWrite_kept ..).safe
  | resync v => exact (execResync_kept ..).safe
  | debugAccess r v => exact (execDebugAccess_kept ..).safe
  | frequencyLockChange locked => exact (execFrequencyLockChange_kept ..).safe
  | autoSaveStart r => exact (execAutoSaveStart_kept ..).safe
  | triggerEval r => exact (execTriggerEval_kept ..).safe
  | cutHeld r => exact (execCutHeld_kept ..).safe
  | preemptSave r v => exact (execPreemptSave_kept ..).safe
  | supplyDroop d ns3 => exact (execSupplyDroop_kept ..).safe
  | malformedCommandToken t f => exact (execMalformedCommandToken_kept ..).safe
  | nullCommandToken t f => exact (execNullCommandToken_kept ..).safe
  | agstartCommand t f => exact (execAgstartCommand_kept ..).safe
  | scopyCommand t f => exact (execScopyCommand_kept ..).safe
  | sgathCommand t f => exact (execSgathCommand_kept ..).safe
  | sscatCommand t f => exact (execSscatCommand_kept ..).safe
  | sredCommand t f => exact (execSredCommand_kept ..).safe
  | scompCommand t f => exact (execScompCommand_kept ..).safe
  | sexpCommand t f => exact (execSexpCommand_kept ..).safe
  | agstopCommand t f => exact (execAgstopCommand_kept ..).safe
  | agqryCommand t f => exact (execAgqryCommand_kept ..).safe
  | darmCommand t f => exact (execDarmCommand_kept ..).safe
  | dpostCommand t f => exact (execDpostCommand_kept ..).safe
  | wcvtCommand t f => exact (execWcvtCommand_kept ..).safe
  | malformedMatrixToken t f => exact (execMalformedMatrixToken_kept ..).safe
  | nullMatrixToken t f => exact (execNullMatrixToken_kept ..).safe
  | mswapCommand t f => exact (execMswapCommand_kept ..).safe
  | mslotCommand t f => exact (execMslotCommand_kept ..).safe
  | mmaCommand t f => exact (execMmaCommand_kept ..).safe
  | mldbCommand t f => exact (execMldbCommand_kept ..).safe
  | maclrCommand t f => exact (execMaclrCommand_kept ..).safe
  | mstoCommand t f => exact (execMstoCommand_kept ..).safe
  | mrdaCommand t f => exact (execMrdaCommand_kept ..).safe
  | mfenceCommand t f => exact (execMfenceCommand_kept ..).safe
  | mscaleCommand t f => exact (execMscaleCommand_kept ..).safe
  | mqryCommand t f => exact (execMqryCommand_kept ..).safe

/-- What a work item fetches keeps the canonical form: the state handed to an instruction, or the state after the work. -/
def Fetched.Safe (s : State) : Fetched → Prop
  | .run _ s' => KeepsWf s s'
  | .done s' => KeepsWf s s'

theorem State.fetchSlot_safe (s : State) (t : Tile) : (s.fetchSlot t).Safe s := by
  unfold State.fetchSlot
  dsimp only
  repeat' split
  all_goals exact KeepsWf.of_mem (by simp)

theorem State.work_safe (s : State) (w : Work) : (s.work w).Safe s := by
  cases w with
  | issue t => exact s.fetchSlot_safe t
  | event i =>
    unfold State.work
    dsimp only
    repeat' split
    all_goals exact KeepsWf.of_mem rfl
  | command t f =>
    refine KeepsWf.of_mem ?_
    split
    · exact after_mem (s.takeCommand_kept ..)
    · rfl
  | matrix t f =>
    refine KeepsWf.of_mem ?_
    split
    · exact after_mem (s.takeMatrix_kept ..)
    · rfl
  | quick t f =>
    refine KeepsWf.of_mem ?_
    split
    · exact after_mem (s.quickCommand_kept ..)
    · rfl
  | mxQuick t f =>
    refine KeepsWf.of_mem ?_
    split
    · exact after_mem (s.quickMatrix_kept ..)
    · rfl

theorem SafeOut.after {s s' : State} {o : Out} (h : KeepsWf s s') (ho : SafeOut s' o) : SafeOut s o := by
  cases o with
  | next s'' => exact fun wf => ho (h wf)
  | _ => trivial

theorem step_safe (s : State) : SafeOut s (step s) := by
  unfold step
  split
  · exact fun h => State.newCycle_wf h
  · next w rest _ =>
    have worked := State.work_safe { s with agenda := rest } w
    split
    · next i s' e =>
      rw [e] at worked
      exact (exec_safe i s').after worked
    · next s' e =>
      rw [e] at worked
      exact worked

/-- Settles O2: every operation that writes the memory keeps its form, and every other one leaves the memory as it is. -/
theorem stepKeepsMemoryCanonical : Obligations.StepKeepsMemoryCanonical := by
  unfold Obligations.StepKeepsMemoryCanonical
  intro s s' h e
  have kept := step_safe s
  rw [e] at kept
  exact kept h

end Sys2Proof.Machine
end
section
/-! SUPPORT. Requests of an element (R227 to R234, R265): what a touched leaf changes, how a request is sent in a facet without lockstep,
and the stages that come before the body of a form. -/

namespace Sys2Proof.Machine

/-- Only edge TLBs have changed. -/
def OnlyTlb (s s' : State) : Prop := s' = { s with dies := s'.dies } ∧ ∀ d, { s'.die d with tlb := (s.die d).tlb } = s.die d

theorem OnlyTlb.refl (s : State) : OnlyTlb s s := ⟨rfl, fun _ => rfl⟩

/-- A leaf that is used moves to the front of its TLB (R265). -/
theorem State.elemTouch_tlb (s : State) (t : Tile) (l : Word) : OnlyTlb s (s.elemTouch t l) := by
  unfold State.elemTouch State.tlbHit
  repeat' split
  · refine ⟨rfl, fun d => ?_⟩
    by_cases same : d = t.die
    · rw [same, State.modDie_die_same]
    · rw [State.modDie_die_other _ _ _ _ same]
  all_goals exact .refl s

section
variable {s s' : State} (h : OnlyTlb s s')
include h
theorem OnlyTlb.el (u : Tile) : s'.el u = s.el u := (congrArg (State.el · u) h.1 :)
theorem OnlyTlb.locked (t : Tile) (f : Facet) : s'.locked t f = s.locked t f := (congrArg (State.locked · t f) h.1 :)
theorem OnlyTlb.mem : s'.mem = s.mem := (congrArg State.mem h.1 :)
theorem OnlyTlb.reqs : s'.reqs = s.reqs := (congrArg State.reqs h.1 :)
theorem OnlyTlb.nextId : s'.nextId = s.nextId := (congrArg State.nextId h.1 :)
end

/-- The request q under way: sent, with its number in the order of sending. -/
def Req.sent (q : Req) (order : Nat) : Req := { q with stage := .travelling, order := order }

theorem State.isMirror_of_unlocked {s : State} {t : Tile} {f : Facet} (free : s.locked t f = false) : s.isMirror t f = false := by
  rw [State.isMirror, free, Bool.false_and]
theorem State.isPrimary_of_unlocked {s : State} {t : Tile} {f : Facet} (free : s.locked t f = false) : s.isPrimary t f = false := by
  rw [State.isPrimary, free, Bool.false_and]

/-- A facet without lockstep sends its request at once (R388). -/
theorem State.issueReq_unlocked {s : State} {t : Tile} {q : Req} (asks : Bool) (free : s.locked t q.facet = false) :
    s.issueReq t q asks = ({ s with nextId := s.nextId + 2, reqs := s.reqs ++ [q] } : State).setReq (q.sent (s.nextId + 1)) := by
  have mirror := State.isMirror_of_unlocked (s := { s with nextId := s.nextId + 2, reqs := s.reqs ++ [q] }) free
  have primary := State.isPrimary_of_unlocked (s := { s with nextId := s.nextId + 2, reqs := s.reqs ++ [q] }) free
  unfold State.issueReq State.sendReq
  dsimp only [State.bumpId]
  rw [mirror, primary]
  split <;> rfl

/-- The request of a load or atomic, with the bytes that the requester's own earlier stores lay over its answer. -/
def State.devReq (s : State) (t : Tile) (a : Act) (q : Req) : Req :=
  { q with stage := .travelling, order := q.id,
           overlay := overlayOf (if q.form = 0 then s.ownQueued t false ++ a.devEnts else a.devEnts) q.addr q.size
           own := if q.form = 0 then none else a.ownTag (q.addr / 8) }

theorem State.devAsk_unlocked {s : State} {t : Tile} {q : Req} (a a' : Act) (d : Spec) (mask : BitVec 16) (truth : Bool)
    (free : s.locked t q.facet = false) :
    s.devAsk t a a' q d mask truth =
      ({ s.setAct t { a' with stalled := 0, wait := .reply q.id d mask truth } with
          nextId := s.nextId + 2, reqs := s.reqs ++ [s.devReq t a q] } : State).setReq ((s.devReq t a q).sent (s.nextId + 1)) :=
  State.issueReq_unlocked (s := s.setAct t { a' with stalled := 0, wait := .reply q.id d mask truth }) (q := s.devReq t a q) true free

/-- What a load or an atomic leaves when its request goes (R228): the slot held for the reply, the request under way, and the rest. -/
theorem State.devAsk_frame {s s0 : State} {t : Tile} {q : Req} (a a' : Act) (d : Spec) (mask : BitVec 16) (truth : Bool)
    (tlb : OnlyTlb s0 s) (free : s0.locked t q.facet = false) : let s' := s.devAsk t a a' q d mask truth
    let r := (s.devReq t a q).sent (s.nextId + 1)
    (s'.el t).act = some { a' with stalled := 0, wait := .reply r.id d mask truth } ∧ r ∈ s'.reqs ∧
      (∀ p ∈ s0.reqs, p.id ≠ q.id → p ∈ s'.reqs) ∧ RequestFrame s0 s' t := by
  intro s' r
  have sent : s' = _ := State.devAsk_unlocked a a' d mask truth ((tlb.locked t q.facet).trans free)
  have el (u : Tile) : s'.el u = (s.setAct t { a' with stalled := 0, wait := .reply q.id d mask truth }).el u := (congrArg (State.el · u) sent :)
  have reqs : s'.reqs = (s.reqs ++ [s.devReq t a q]).map fun p => if p.id = q.id then r else p := congrArg State.reqs sent
  refine ⟨by rw [el, State.setAct_el_same]; rfl, ?_, fun p hp n => ?_, ⟨fun u n => ?_, ?_, ?_, fun d => ?_⟩⟩
  · rw [reqs]
    exact List.mem_map.2 ⟨s.devReq t a q, by simp, if_pos rfl⟩
  · rw [reqs]
    exact List.mem_map.2 ⟨p, by simp [tlb.reqs, hp], if_neg n⟩
  · rw [el, State.setAct_el_other _ _ _ _ n, tlb.el]
  · rw [el, State.setAct_el_same, tlb.el]
  · rw [sent, tlb.1]
    rfl
  · rw [sent]
    exact tlb.2 d
/-! The stages before the body of a form -/

/-- Under null-skip with a null in b an access over the device memory only consumes (R234). -/
theorem State.devOp_null {s : State} {t : Tile} {a : Act} {w : MForm} (issues : Issues s t a)
    (passes : Passes s t a w.head [w.a, w.b] w.d.outPort) (null : s.nullData t a w = true) (body : Tile → Act → State) :
    s.devOp w body = .next (s.retire t (a.consumeAll [w.a, w.b]) 0) := by
  rw [State.devOp, issues.withAct_eq, passes.issue_eq, if_pos null]

/-- Else it does the work of its form. -/
theorem State.devOp_eq {s : State} {t : Tile} {a : Act} {w : MForm} (issues : Issues s t a)
    (passes : Passes s t a w.head [w.a, w.b] w.d.outPort) (data : s.nullData t a w = false) (body : Tile → Act → State) :
    s.devOp w body = .next (body t a) := by
  rw [State.devOp, issues.withAct_eq, passes.issue_eq, if_neg (by simp [data])]

section
variable {w : MForm} {s : State} {t : Tile} {a a' : Act} {x : Word} {pa : Nat} {leaf : Word} (issues : Issues s t a)
  (passes : Passes s t a w.head [w.a, w.b] w.d.outPort) (read : s.rdScalar t a w.a = .ok (x, a'))
include issues passes read

/-- A load whose location the checks of R227 let through asks its home (R228). -/
theorem State.devLoad_asks {form : Nat} (truth : Bool) (data : s.nullData t a w = false)
    (found : s.elemWhere t a.facet (locOf x w.disp) w.size.bytes form = .here pa leaf) (room : form = 3 → a.stores.length < 16) :
    s.devLoad w form truth = .next ((s.elemTouch t (locOf x w.disp)).devAsk t a a'
      (s.newReq t a form (locOf x w.disp) pa w.size.bytes w.scope leaf) w.d (a.writeMask w.head) truth) := by
  rw [State.devLoad, State.devOp_eq issues passes data]
  simp only [read, found]
  rw [if_neg fun h => absurd (room h.1) (Nat.not_lt.2 h.2)]

theorem devLoad_waits {i : Instr} {form : Nat} {truth : Bool} (meaning : exec i s = s.devLoad w form truth) (free : s.locked t a.facet = false)
    (data : s.nullData t a w = false) (found : s.elemWhere t a.facet (locOf x w.disp) w.size.bytes form = .here pa leaf)
    (room : form = 3 → a.stores.length < 16) :
    WaitsForReply i s t a a' form (locOf x w.disp) pa w.size.bytes w.scope w.d (a.writeMask w.head) truth := by
  obtain ⟨act, sent, others, frame⟩ := State.devAsk_frame (q := s.newReq t a form (locOf x w.disp) pa w.size.bytes w.scope leaf) a a' w.d
    (a.writeMask w.head) truth (s.elemTouch_tlb t (locOf x w.disp)) free
  exact ⟨_, _, meaning.trans (State.devLoad_asks issues passes read truth data found room), act, sent, rfl,
    ⟨rfl, rfl, rfl, rfl, rfl, rfl, rfl, rfl⟩, others, frame⟩
end

/-- The bytes and the form of an atomic's request (R233). -/
def atomSize (w : RForm) : Nat := if fld w.fn 4 2 = 2 then 4 else 8
def atomForm (w : RForm) : Nat := if bit w.fn 9 then 9 else 8
/-- The request of MATOM and MCAS: a read-modify-write with the values of b and c as operands (R233). -/
def State.atomReq (s : State) (t : Tile) (a : Act) (w : RForm) (cas : Bool) (x y z : Word) (pa : Nat) (leaf : Word) : Req :=
  { s.newReq t a (atomForm w) x pa (atomSize w) (.ofBits (BitVec.ofNat 3 (fld w.fn 6 3))) leaf with
    op := fld w.fn 0 4, cas := cas, data := y.toNat % 2 ^ (8 * atomSize w), data2 := z.toNat % 2 ^ (8 * atomSize w) }

section
variable {w : RForm} {s : State} {t : Tile} {a a' : Act} {x y z : Word} {pa : Nat} {leaf : Word} (issues : Issues s t a)
  (passes : Passes s t a w.head [w.a, w.b, w.c] w.d.outPort) (read : rd3 a (s.rdScalar t) w.a w.b w.c = .ok (x, y, z, a'))
include issues passes read

theorem State.devAtomic_asks (cas : Bool) (found : s.elemWhere t a.facet x (atomSize w) (atomForm w) = .here pa leaf)
    (room : a.stores.length < 16) : s.devAtomic w cas =
      .next ((s.elemTouch t x).devAsk t a a' (s.atomReq t a w cas x y z pa leaf) w.d 0xFFFF false) := by
  rw [State.devAtomic, issues.withAct_eq, passes.issue_eq]
  simp only [read]
  rw [atomSize, atomForm] at found
  rw [found]
  dsimp only
  rw [if_neg (Nat.not_le.2 room)]
  rfl
end

theorem deviceLoads : DeviceLoads := by
  intro w s t a a' x pa leaf issues passes read free l n asks
  have form {i : Instr} {form : Nat} {truth : Bool} (meaning : exec i s = s.devLoad w form truth)
      (room : form = 3 → a.stores.length < 16) : asks i form truth :=
    ⟨fun null => .of_retire (meaning.trans (State.devOp_null issues passes null _)),
      fun data found => devLoad_waits issues passes read meaning free data found room⟩
  exact ⟨form rfl nofun, form rfl nofun, form rfl nofun, fun room => form rfl fun _ => room⟩

theorem deviceAtomics : DeviceAtomics := by
  intro w s t a a' x y z pa leaf issues passes read free room n form sc found asks
  have asked {i : Instr} {cas : Bool} (meaning : exec i s = s.devAtomic w cas) : asks i cas := by
    obtain ⟨act, sent, -, frame⟩ := State.devAsk_frame (q := s.atomReq t a w cas x y z pa leaf) a a' w.d 0xFFFF false (s.elemTouch_tlb t x) free
    exact ⟨_, _, meaning.trans (State.devAtomic_asks issues passes read cas found room), act, sent, rfl,
      ⟨rfl, rfl, rfl, rfl, rfl, rfl, rfl, rfl⟩, rfl, rfl, rfl, rfl, frame⟩
  exact ⟨asked rfl, asked rfl⟩

/-- Settles O31: each form sends the request that its meaning builds, and a request of a facet without lockstep goes at once. -/
theorem deviceAsks : Obligations.DeviceAsks := ⟨deviceLoads, deviceAtomics⟩

end Sys2Proof.Machine
end

section
/-! SUPPORT. Buffered stores and the pair path (R227, R228, R232, R234). -/
namespace Sys2Proof.Machine

/-- A vector read changes no activation, and a scalar one only the tokens taken. -/
theorem State.rdStoreData_only_taken {s : State} {t : Tile} {a a' : Act} {w : MForm} {y : Nat} (h : s.rdStoreData t a w = .ok (y, a')) :
    ∃ l, a' = { a with taken := l } := by
  unfold State.rdStoreData at h
  split at h
  · cases h
    exact ⟨a.taken, rfl⟩
  · split at h
    · cases h
    · next read =>
      cases h
      exact State.rdScalar_only_taken read

/-- A store request goes to the end of the store commit buffer while there is room (R30). -/
theorem Act.addDev_room {a : Act} (q : Req) (room : a.stores.length < 16) :
    a.addDev q = .ok { a with stores := a.stores ++ [.dev q], reqs := a.reqs ++ [q.id] } := by
  rw [Act.addDev, Act.addStore, if_neg (Nat.not_le.2 room)]

section
variable {w : MForm} {s : State} {t : Tile} {a a1 a2 : Act} {x : Word} {y pa : Nat} {leaf : Word} (issues : Issues s t a)
  (passes : Passes s t a w.head [w.a, w.b] w.d.outPort) (read : s.rdScalar t a w.a = .ok (x, a1)) (data : s.rdStoreData t a1 w = .ok (y, a2))
include issues passes read data

theorem State.devStore_buffers {form : Nat} (some_ : s.nullData t a w = false)
    (found : s.elemWhere t a.facet (locOf x w.disp) w.size.bytes form = .here pa leaf) : s.devStore w form =
      .next ((s.elemTouch t (locOf x w.disp)).bumpId.finish t a w.d 0
        (a2.addDev { s.newReq t a form (locOf x w.disp) pa w.size.bytes w.scope leaf with data := y })) := by
  rw [State.devStore, State.devOp_eq issues passes some_]
  simp only [read, data, found]

/-- The activation with a request in its store commit buffer, retired. -/
def Act.buffered (b a : Act) (q : Req) : Act :=
  { b with stores := a.stores ++ [.dev q], reqs := a.reqs ++ [q.id], pc := a.pc + 1, stalled := 0, busy := 0 }
omit issues passes in
theorem State.finish_addDev {s' : State} (q : Req) (room : a.stores.length < 16) :
    ∃ s1, OnlyDebug s' s1 ∧ s'.finish t a w.d 0 (a2.addDev q) = s1.setAct t (a2.buffered a q) := by
  obtain ⟨l, rfl⟩ := State.rdScalar_only_taken read
  obtain ⟨l', rfl⟩ := State.rdStoreData_only_taken data
  rw [Act.addDev_room q (by exact room)]
  exact ⟨_, s'.dbgRegWrite_debug t a.facet w.d, rfl⟩
end

theorem OnlyDebug.el {s s' : State} (h : OnlyDebug s s') (u : Tile) : s'.el u = s.el u := (congrArg (State.el · u) h.1 :)
theorem OnlyDebug.mem {s s' : State} (h : OnlyDebug s s') : s'.mem = s.mem := (congrArg State.mem h.1 :)
theorem OnlyDebug.reqs {s s' : State} (h : OnlyDebug s s') : s'.reqs = s.reqs := (congrArg State.reqs h.1 :)

theorem deviceStores : DeviceStores := by
  intro w s t a a1 a2 x y pa leaf issues passes read data room l n buffers
  have form {i : Instr} {form : Nat} (meaning : exec i s = s.devStore w form) : buffers i form := by
    refine ⟨fun null => .of_retire (meaning.trans (State.devOp_null issues passes null _)), fun some_ found => ?_⟩
    have tlb := s.elemTouch_tlb t l
    obtain ⟨s1, matches_, e⟩ := State.finish_addDev (s' := (s.elemTouch t l).bumpId) read data
      { s.newReq t a form l pa n w.scope leaf with data := y } room
    refine ⟨_, { s.newReq t a form l pa n w.scope leaf with data := y },
      (meaning.trans (State.devStore_buffers issues passes read data some_ found)).trans (congrArg Host.Outcome.next e), ?_⟩
    refine ⟨by rw [State.setAct_el_same]; rfl, ⟨rfl, rfl, rfl, rfl, rfl, rfl, rfl, rfl⟩, rfl, rfl, matches_.mem.trans tlb.mem,
      matches_.reqs.trans tlb.reqs,
      fun u n => ?_, ?_⟩
    · rw [State.setAct_el_other _ _ _ _ n, matches_.el]
      exact tlb.el u
    · rw [State.setAct_el_same, matches_.el]
      exact congrArg (fun e : Element => { e with act := none }) (tlb.el t)
  exact ⟨form rfl, form rfl, form rfl, form rfl⟩

/-! The pair path (R208, R227, R232) -/

/-- Whose turn it is at a resource is no part of what an instruction leaves alone (R208). -/
theorem SlotFrame.of_turns {s s' : State} {t : Tile} {turns : Turns} (h : SlotFrame { s with turns := turns } s' t) : SlotFrame s s' t :=
  ⟨h.others, h.own, { h.rest with }⟩
theorem Becomes.of_turn {i : Instr} {s s' : State} {t : Tile} {b : Act} {turns : Turns} (h : exec i s = .next (s'.setAct t b))
    (k : OnlyDebug { s with turns := turns } s') : Becomes i s t b := ⟨_, h, by rw [State.setAct_el_same], (k.slotFrame t b).of_turns⟩

theorem State.dbgMt_debug (s : State) (t : Tile) (f : Facet) (idx : Nat) (reads writes : Bool) : OnlyDebug s (s.dbgMt t f idx reads writes) :=
  s.dbgEvent_debug ..
/-- While no stored bit has flipped, reading words raises nothing (R216). -/
theorem State.noteWords_sound {s : State} (sound : s.mem.bad = []) (q : Req) : s.noteWords q = s := by
  rw [State.noteWords, sound]
  rfl

/-- An aligned offset within the area of the paired MT is a byte of it (R227). -/
theorem State.pairAddr_eq {s : State} {t : Tile} {f : Facet} {off : Word} {n : Nat} {m : MtMode} (mode : s.mtMode t.pair f = some m)
    (aligned : off.toNat % n = 0) (inside : off.toNat + n ≤ 8 * m.msize) :
    s.pairAddr t f off n = .ok (mtBase t.pair + 8 * m.mbase + off.toNat) := by
  rw [State.pairAddr, if_neg (by simp [aligned]), mode]
  exact if_neg (Nat.not_lt.2 inside)

theorem exec_tld (w : MForm) (s : State) : exec (.tld w) s = execTld w s := rfl
theorem exec_tst (w : MForm) (s : State) : exec (.tst w) s = execTst w s := rfl

/-- The read of TLD: the bytes of its size at an address of the paired MT (R232), and the banks it needs (R208). -/
def State.pairReq (s : State) (t : Tile) (a : Act) (w : MForm) (x : Word) (pa : Nat) : Req :=
  s.newReq t a 0 (locOf x w.disp) pa w.size.bytes .act pairLeaf
def State.pairBanks (s : State) (t : Tile) (a : Act) (w : MForm) (x : Word) (pa : Nat) : List Nat := accessOf (s.pairReq t a w x pa).words
/-- The bytes that TLD reads, with the requester's own earlier stores over them. -/
def State.pairSeen (s : State) (t : Tile) (a : Act) (w : MForm) (x : Word) (pa : Nat) : List (Byte × Bool) :=
  s.viewBytes (s.pairReq t a w x pa) (overlayOf (s.ownQueued t true ++ a.devEnts) pa w.size.bytes)

section
variable {w : MForm} {s : State} {t : Tile} {a a1 a2 : Act} {x : Word} {y pa : Nat} (issues : Issues s t a)
  (passes : Passes s t a w.head [w.a, w.b] w.d.outPort) (read : s.rdScalar t a w.a = .ok (x, a1)) (data : s.nullData t a w = false)
  (found : s.pairAddr t a.facet (locOf x w.disp) w.size.bytes = .ok pa)
include issues passes read data found

/-- TLD while another requester has the bank (R208). -/
theorem tld_waits (busy : (s.pairBanks t a w x pa).all (s.turns.free (portTurn t 255)) = false) :
    Becomes (.tld w) s t { a with stalled := 0 } := by
  refine .of_turn (turns := s.turns.ask (portTurn t 255) (s.pairBanks t a w x pa)) ?_ (.refl _)
  rw [exec_tld, execTld, State.devOp_eq issues passes data]
  simp only [read, found]
  rw [if_neg (by rw [← Bool.not_eq_true] at busy; exact busy)]
  rfl

/-- TLD on its turn reads the area and delivers what it sees (R232). -/
theorem tld_reads (turn : (s.pairBanks t a w x pa).all (s.turns.free (portTurn t 255)) = true) (sound : s.mem.bad = []) {r : Act}
    (given : a1.deliverLoad w.d (a.writeMask w.head) (ofBytes ((s.pairSeen t a w x pa).map (·.1))) ((s.pairSeen t a w x pa).any (·.2))
      (locOf x w.disp) = .ok r) : Retires (.tld w) s t r 1 := by
  refine .of_turn (turns := s.turns.take (portTurn t 255) (s.pairBanks t a w x pa)) ?_
    ((OnlyDebug.foldl (fun s i => s.dbgMt_debug t.pair a.facet ((locOf x w.disp).toNat / 8 + i) true false) (List.range (w.size.bytes / 8)) _).trans
      (State.dbgRegWrite_debug _ t r.facet w.d))
  rw [exec_tld, execTld, State.devOp_eq issues passes data]
  simp only [read, found]
  rw [if_pos (by exact turn), State.noteWords_sound (by exact sound)]
  exact congrArg (fun e => Host.Outcome.next (State.finish _ t a w.d 1 e)) given

/-- TST puts its store into the store commit buffer (R232). -/
theorem tst_buffers (stored : s.rdStoreData t a1 w = .ok (y, a2)) (room : a.stores.length < 16) :
    let q : Req := { s.newReq t a 1 (locOf x w.disp) pa w.size.bytes .act pairLeaf with data := y, pairPath := true }
    ∃ s1, OnlyDebug s.bumpId s1 ∧ exec (.tst w) s = .next (s1.setAct t (a2.buffered a q)) := by
  intro q
  obtain ⟨s1, matches_, e⟩ := State.finish_addDev (s' := s.bumpId) read stored q room
  refine ⟨s1, matches_, ?_⟩
  rw [exec_tst, execTst, State.devOp_eq issues passes data]
  simp only [read, stored, found]
  exact congrArg Host.Outcome.next e
end

/-- Without earlier stores and without flipped bits a region sees the bytes of an MT as they are (R241). -/
theorem State.viewBytes_plain {s : State} {q : Req} (quiet : ∀ d, (s.die d).bw = []) (sound : s.mem.bad = [])
    (mt : ∀ i < q.size, isSys (q.addr + i) = false) :
    s.viewBytes q [] = (List.range q.size).map fun i => (s.mem.byte (q.addr + i), s.mem.isPoison (q.addr + i)) := by
  have pending (r : RegionId) (pa : Nat) : s.pendingByte r pa = none := by
    unfold State.pendingByte
    simp [quiet]
  have place {i : Nat} (h : i < q.size) : s.place (q.addr + i) = q.addr + i := by rw [State.place, if_neg (by simp [mt i h])]
  have view {i : Nat} (h : i < q.size) : s.viewByte q.region (q.addr + i) = (s.mem.byte (q.addr + i), s.mem.isPoison (q.addr + i)) := by
    unfold State.viewByte
    cases q.region <;> simp [pending, place h, Memory.seen, sound]
  exact List.map_congr_left fun i h => view (List.mem_range.1 h)

/-- The window of the memory tiles lies below the addresses of host memory (R255). -/
theorem isSys_pair {t : Tile} (inFabric : t.inFabric = true) {k : Nat} (h : k < 2 ^ 20) : isSys (mtBase t.pair + k) = false := by
  obtain ⟨hx, hy⟩ : t.x < 128 ∧ t.y < 32 := by simpa [Tile.inFabric] using inFabric
  have key : t.pair.key < 2 ^ 13 := by
    simp only [Tile.pair, Tile.key]
    split <;> omega
  have low : ¬ 2 ^ 51 ≤ mtBase t.pair + k := by
    rw [mtBase]
    omega
  rw [isSys, decide_eq_false low, Bool.false_and]

theorem pairAccess : PairAccess := by
  intro w s t a a1 a2 x y m issues passes read mode off n pa
  refine ⟨fun null mk h => ?_, fun data aligned inside fits => ?_⟩
  · rw [List.mem_cons, List.mem_singleton] at h
    obtain rfl | rfl := h
    · exact .of_retire ((exec_tld w s).trans (State.devOp_null issues passes null _))
    · exact .of_retire ((exec_tst w s).trans (State.devOp_null issues passes null _))
  have found := State.pairAddr_eq mode aligned inside
  intro q bank seen
  have reads (turn : bank.all (s.turns.free (portTurn t 255)) = true) (sound : s.mem.bad = []) (r : Act)
      (given : a1.deliverLoad w.d (a.writeMask w.head) (ofBytes (seen.map (·.1))) (seen.any (·.2)) off = .ok r) : Retires (.tld w) s t r 1 :=
    tld_reads issues passes read data found turn sound given
  refine ⟨reads, tld_waits issues passes read data found, fun turn sound none_ empty quiet clean short g dest => ?_, fun stored room => ?_⟩
  · have view : seen = (List.range n).map fun i => (s.mem.byte (pa + i), s.mem.isPoison (pa + i)) := by
      have quietly : s.ownQueued t true ++ a.devEnts = [] := by
        rw [State.ownQueued, none_, Act.devEnts, empty]
        rfl
      have bare (pa n : Nat) : overlayOf [] pa n = [] := by simp [overlayOf]
      rw [show seen = s.viewBytes q (overlayOf (s.ownQueued t true ++ a.devEnts) pa n) from rfl, quietly, bare]
      refine State.viewBytes_plain quiet sound fun i hi => ?_
      rw [show q.addr = pa from rfl, show pa + i = mtBase t.pair + (8 * m.mbase + off.toNat + i) by omega]
      exact isSys_pair issues.inFabric (by have : i < n := hi; omega)
    refine reads turn sound _ ?_
    have safe : seen.any (·.2) = false := by
      rw [view, List.any_map, List.any_eq_false]
      intro i hi
      simpa using List.all_eq_true.1 clean i hi
    have bytes : seen.map (·.1) = (List.range n).map fun i => s.mem.byte (pa + i) := by rw [view, List.map_map]; rfl
    rw [safe, bytes, dest]
    rfl
  · obtain ⟨s1, matches_, e⟩ := tst_buffers issues passes read data found stored room
    exact ⟨_, _, e, by rw [State.setAct_el_same]; rfl, ⟨rfl, rfl, rfl, rfl, rfl, rfl, rfl, rfl⟩, rfl, rfl, matches_.mem, matches_.reqs⟩

/-- Settles O32: a buffered store is one entry of the activation, and the pair path reads the area under the requester's own stores. -/
theorem deviceStoresAndPair : Obligations.DeviceStoresAndPair := ⟨deviceStores, pairAccess⟩

end Sys2Proof.Machine
end

section
/-! SUPPORT. What comes back from a home (R36, R228 to R231, R383): the notes of lockstep that a return leaves in its region, what each reply
does to the activation that waits for it, and what a watch clears. -/
namespace Sys2Proof.Machine

theorem exec_requestReply (id : Nat) (s : State) : exec (.requestReply id) s = execRequestReply id s := rfl
theorem exec_watchWake (id : Nat) (s : State) : exec (.watchWake id) s = execWatchWake id s := rfl
theorem exec_asyncTrap (id : Nat) (s : State) : exec (.asyncTrap id) s = execAsyncTrap id s := rfl

/-- A request that is taken back is found no more. -/
theorem State.findReq_delReq (s : State) (id : Nat) : (s.delReq id).findReq id = none := by
  simp [State.findReq, State.delReq]
theorem State.findReq_congr {s s' : State} (h : s'.reqs = s.reqs) (id : Nat) : s'.findReq id = s.findReq id := by
  rw [State.findReq, h, State.findReq]

/-! The notes of a region in lockstep (R388) -/

/-- Nothing outside the regions differs. -/
def OnlyRegions (s s' : State) : Prop := { s' with regions := s.regions } = s
section
variable {s s' : State} (h : OnlyRegions s s')
include h
theorem OnlyRegions.el (t : Tile) : s'.el t = s.el t := (congrArg (State.el · t) h :)
theorem OnlyRegions.mem : s'.mem = s.mem := (congrArg State.mem h :)
theorem OnlyRegions.reqs : s'.reqs = s.reqs := (congrArg State.reqs h :)
theorem OnlyRegions.nextId : s'.nextId = s.nextId := (congrArg State.nextId h :)
end
theorem State.noteReply_only (s : State) (t : Tile) (f : Facet) (r : Reply) : OnlyRegions s (s.noteReply t f r) := by
  unfold State.noteReply
  repeat' split
  all_goals rfl
theorem State.noteAsync_only (s : State) (t : Tile) (f : Facet) (id : Nat) (c : Option Nat) (h pc : Nat) (loc : Word) :
    OnlyRegions s (s.noteAsync t f id c h pc loc) := by
  unfold State.noteAsync
  repeat' split
  all_goals rfl
theorem State.noteAsync_unlocked {s : State} {t : Tile} {f : Facet} (free : s.locked t f = false) (id : Nat) (c : Option Nat) (h pc : Nat)
    (loc : Word) : s.noteAsync t f id c h pc loc = s := by
  simp only [State.noteAsync, State.isPrimary_of_unlocked free, Bool.false_eq_true, if_false]
  split <;> rfl

/-! The end of a wait (R228 to R231) -/

/-- The state in which a reply is taken: the request is gone, and lockstep has its note. -/
def State.replied (s : State) (id : Nat) (t : Tile) (f : Facet) (r : Reply) : State := (s.delReq id).noteReply t f r
section
variable (s : State) (id : Nat) (t : Tile) (f : Facet) (r : Reply)
theorem State.replied_el (u : Tile) : (s.replied id t f r).el u = s.el u := ((s.delReq id).noteReply_only t f r).el u
theorem State.replied_mem : (s.replied id t f r).mem = s.mem := ((s.delReq id).noteReply_only t f r).mem
theorem State.replied_nextId : (s.replied id t f r).nextId = s.nextId := ((s.delReq id).noteReply_only t f r).nextId
theorem State.replied_reqs : (s.replied id t f r).reqs = (s.delReq id).reqs := ((s.delReq id).noteReply_only t f r).reqs
end

/-- The reply to the request that an activation waits for is taken by it. -/
theorem answered_taken {s : State} {t : Tile} {a : Act} {id : Nat} {q : Req} {d : Spec} {mask : BitVec 16} {truth : Bool} {r : Reply}
    (h : Answered s t a id q d mask truth r) :
    ∃ f, exec (.requestReply id) s = .next ((s.replied id t f r).takeReply t a q d mask truth r) := by
  obtain ⟨f, hd, pc, src⟩ := h.src
  refine ⟨f, ?_⟩
  rw [exec_requestReply, execRequestReply]
  simp only [h.found, h.stage, src, h.act, h.wait]
  rw [beq_self_eq_true, when_true]
  rfl

section
variable {s s1 : State} {t : Tile} {a : Act} {id : Nat} (el : ∀ u, s1.el u = s.el u) (mem : s1.mem = s.mem)
  (reqs : s1.reqs = (s.delReq id).reqs)
include el mem reqs
/-- A result that the destination takes retires the instruction. -/
theorem State.finish_ok_after (a0 b : Act) (d : Spec) : let s' := s1.finish t a0 d 0 (.ok b)
    s'.findReq id = none ∧ s'.mem = s.mem ∧ (s'.el t).act = some { b with pc := b.pc + 1, stalled := 0, busy := 0 } ∧
      ∀ u : Tile, u.key ≠ t.key → s'.el u = s.el u := by
  intro s'
  have found : s'.reqs = (s.delReq id).reqs := ((s1.dbgRegWrite_debug t b.facet d).reqs).trans reqs
  refine ⟨(State.findReq_congr found id).trans (s.findReq_delReq id), ?_, ?_, fun u n => ?_⟩
  · rw [State.finish_mem, mem]
  · rw [State.finish_el_same]
  · rw [State.finish_el_other _ _ _ _ _ _ _ n, el]
/-- A cause ends the activation in its trap. -/
theorem State.trap_after (a0 : Act) {c : Nat} (x : Word) (h : c < 512) : let s' := s1.trap t a0 c x
    s'.findReq id = none ∧ s'.mem = s.mem ∧ (s'.el t).act = none ∧ ((s'.el t).fac a0.facet).bank = ((s.el t).fac a0.facet).bank ∧
      fld ((s'.el t).fac a0.facet).hcause 0 9 = c ∧ ((s'.el t).fac a0.facet).haddr = x ∧ bit ((s'.el t).fac a0.facet).hstat 8 = true := by
  intro s'
  have k := s1.trap_trapped t a0 x h
  refine ⟨(State.findReq_congr ((s1.trap_reqs t a0 c x).trans reqs) id).trans (s.findReq_delReq id), k.mem.trans mem, k.ended, ?_, k.code_,
    k.haddr, k.trapped⟩
  rw [k.bank, el]
/-- An abort leaves what the facet holds. -/
theorem State.abort_after (a0 : Act) : let s' := s1.abort t a0
    s'.findReq id = none ∧ s'.mem = s.mem ∧ (s'.el t).act = none ∧ (s'.el t).fac = (s.el t).fac ∧ (s'.el t).moors = (s.el t).moors := by
  intro s'
  refine ⟨(State.findReq_congr (s := s.delReq id) reqs id).trans (s.findReq_delReq id), (State.abort_mem ..).trans mem, ?_, ?_, ?_⟩ <;>
    rw [State.abort_el_same]
  · rw [el]
    rfl
  · rw [el]
/-- An abort that finds room in the mooring list leaves its handler moored there (R35). -/
theorem State.abortMoor_after (a0 : Act) (loc : Word) (word watch : Nat)
    (unlimited : (((s.el t).fac a0.facet).handlers.get a0.handler).rexp = 15)
    (room : ((s.el t).moors.filter fun x => !(x.facet == a0.facet && x.handler == a0.handler)).length < 16) :
    let s' := s1.abortMoor t a0 loc word true (some watch)
    s'.findReq id = none ∧ s'.mem = s.mem ∧ (s'.el t).act = none ∧ ((s'.el t).fac a0.facet).bank = ((s.el t).fac a0.facet).bank ∧
      (s'.el t).moors = ((s.el t).moors.filter fun x => !(x.facet == a0.facet && x.handler == a0.handler)) ++
        [⟨word, a0.facet, a0.handler, true, some watch⟩] ∧
      (((s'.el t).fac a0.facet).handlers.get a0.handler).moored = true := by
  intro s'
  obtain ⟨found, mem', act, fac, moors⟩ := State.abort_after el mem reqs (t := t) a0
  rw [← moors] at room
  have e : s' = (s1.abort t a0).moorHandler t a0.facet a0.handler word true (some watch) := by
    simp only [s', State.abortMoor, State.abortCount_unlimited (s := s1) (a := a0) (by rw [el]; exact unlimited), if_true]
  have elem : s'.el t = ((s1.abort t a0).el t).moor ⟨word, a0.facet, a0.handler, true, some watch⟩ := by
    rw [e, State.moorHandler, State.modEl_el_same]
  have bank : ((s'.el t).fac a0.facet).bank = (((s1.abort t a0).el t).fac a0.facet).bank := by
    rw [elem, Element.moor_room room, Element.modFac_fac_same]
    rfl
  refine ⟨by rw [e]; exact found, by rw [e, State.moorHandler_mem]; exact mem', ?_, ?_, ?_, ?_⟩
  · rw [elem, Element.moor_room room]; exact act
  · rw [bank, fac]
  · rw [elem, Element.moor_room room, ← moors]; rfl
  · rw [elem, Element.moor_room room, Element.modFac_fac_same]
    simp [FacetEl.setMoored]
end

theorem Req.confirmOf_addr (q : Req) (x : Nat) : (q.confirmOf x).addr = q.addr := by
  unfold Req.confirmOf
  repeat' split
  all_goals rfl
/-- The word's new content, as each consuming form has it: emptied, computed, or exchanged where the value agrees (R229, R231, R233). -/
theorem Req.confirmOf_forms (q : Req) (v : Nat) : let c := q.confirmOf v
    (q.form = 3 → c.newTag = some false ∧ c.size = 0) ∧
    (q.form ≠ 3 → q.cas = false → c.data = atomOp q.op q.size v q.data ∧ c.size = q.size) ∧
    (q.form ≠ 3 → q.cas = true → v = q.data → c.data = q.data2 ∧ c.size = q.size) ∧
    (q.form ≠ 3 → q.cas = true → v ≠ q.data → c.size = 0) := by
  refine ⟨fun h => ?_, fun h k => ?_, fun h k e => ?_, fun h k e => ?_⟩
  · simp [Req.confirmOf, h]
  · simp [Req.confirmOf, h, k]
  · simp [Req.confirmOf, h, k, e]
  · simp [Req.confirmOf, h, k, e]

/-- The hold that a consuming load or an atomic keeps until its activation commits (R230). -/
def Req.hold (q : Req) (id v : Nat) : Req := { q.confirmOf v with id := id, poison := false && q.form != 3 && !q.cas }
def Act.holding (a : Act) (c : Req) : Act := { a with wait := .none, stores := a.stores ++ [.hold c], reqs := a.reqs ++ [c.id] }
theorem State.takeReply_holds (s : State) (t : Tile) (a : Act) (q : Req) (n : BitVec 6) (mask : BitVec 16) (truth : Bool) (v : Nat)
    (form : q.form = 3 ∨ q.form = 8 ∨ q.form = 9) : s.takeReply t a q (.g n) mask truth (.data v false) =
      s.bumpId.finish t (a.holding (q.hold s.nextId v)) (.g n) 0 (.ok ((a.wg n (BitVec.ofNat 64 v)).holding (q.hold s.nextId v))) := by
  simp only [State.takeReply, if_pos form]
  rfl

theorem loadReplies : LoadReplies := by
  intro s t a id q n mask truth r answered ends gone h
  obtain ⟨f, e⟩ := answered_taken answered
  have el := s.replied_el id t f r
  have mem := s.replied_mem id t f r
  have reqs := s.replied_reqs id t f r
  have done {b : Act} (k : (s.replied id t f r).takeReply t a q (.g n) mask truth r =
      (s.replied id t f r).finish t { a with wait := .none } (.g n) 0 (.ok { b with wait := .none })) (pc : b.pc = a.pc) : ends b := by
    obtain ⟨found, mem', act, others⟩ := State.finish_ok_after el mem reqs (t := t) { a with wait := .none } { b with wait := .none } (.g n)
    exact ⟨_, e, by rw [k]; exact found, by rw [k]; exact mem', by rw [k, ← pc]; exact act, by rw [k]; exact others⟩
  have stopped {c : Nat} (small : c < 512) (k : (s.replied id t f r).takeReply t a q (.g n) mask truth r =
      (s.replied id t f r).trap t { a with wait := .none } c q.loc) : gone fun s' => fld ((s'.el t).fac a.facet).hcause 0 9 = c ∧
        ((s'.el t).fac a.facet).haddr = q.loc ∧ bit ((s'.el t).fac a.facet).hstat 8 = true := by
    obtain ⟨found, mem', act, bank, rest⟩ := State.trap_after el mem reqs (t := t) { a with wait := .none } q.loc small
    exact ⟨_, e, by rw [k]; exact ⟨found, mem', act, bank, rest⟩⟩
  refine ⟨fun v hr form plain => ?_, fun b hr => ?_, fun v hr form => ?_, fun v hr form plain => ?_, fun c hr small => ?_,
    fun hr unlimited => ?_, fun i hr unlimited room => ?_⟩
  · subst hr
    have other : ¬(q.form = 3 ∨ q.form = 8 ∨ q.form = 9) := by omega
    exact done (by simp only [State.takeReply, if_neg other, plain]; rfl) rfl
  · subst hr
    exact done rfl rfl
  · subst hr
    let c := q.hold s.nextId v
    have k := (s.replied id t f (.data v false)).takeReply_holds t a q n mask truth v form
    rw [State.replied_nextId] at k
    obtain ⟨found, mem', act, others⟩ := State.finish_ok_after (s1 := (s.replied id t f (.data v false)).bumpId) el mem reqs (t := t)
      (a.holding c) ((a.wg n (BitVec.ofNat 64 v)).holding c) (.g n)
    exact ⟨c, ⟨_, e, by rw [k]; exact found, by rw [k]; exact mem', by rw [k]; exact act, by rw [k]; exact others⟩, q.confirmOf_addr v, rfl,
      q.confirmOf_forms v⟩
  · subst hr
    have other : ¬(q.form = 3 ∨ q.form = 8 ∨ q.form = 9) := by omega
    obtain ⟨s', e', found, mem', act, bank, code, loc, -⟩ := stopped (c := 0x081) (by decide)
      (by simp only [State.takeReply, if_neg other, plain]; rfl)
    exact ⟨s', e', found, mem', act, bank, code, loc⟩
  · subst hr
    exact stopped small rfl
  · subst hr
    obtain ⟨found, mem', act, fac, -⟩ := State.abort_after el mem reqs (t := t) { a with wait := .none }
    have k : (s.replied id t f .refused).takeReply t a q (.g n) mask truth .refused =
        (s.replied id t f .refused).abort t { a with wait := .none } := by
      simp only [State.takeReply]
      rw [State.abortCount_unlimited (by rw [el]; exact unlimited)]
    exact ⟨_, e, by rw [k]; exact found, by rw [k]; exact mem', by rw [k]; exact act, by rw [k, fac], by dsimp only; rw [k, fac]⟩
  · subst hr
    obtain ⟨found, mem', act, bank, moors, moored⟩ := State.abortMoor_after el mem reqs (t := t) { a with wait := .none } q.loc (q.addr / 8) i
      unlimited room
    exact ⟨_, e, found, mem', act, bank, moors, moored⟩

/-! Watches (R36) -/

/-- Nothing outside the elements differs. -/
theorem State.unmoorWatch_frame (s : State) (t : Tile) (id : Nat) : { s.unmoorWatch t id with elements := s.elements } = s := by
  unfold State.unmoorWatch
  generalize (s.el t).moors.filter _ = hit
  have fold (l : List Moor) (x : State) (h : { x with elements := s.elements } = s) :
      { l.foldl (fun s m => s.modFac t m.facet (·.setMoored m.handler false)) x with elements := s.elements } = s := by
    induction l generalizing x with
    | nil => exact h
    | cons m l ih => exact ih _ h
  exact fold hit _ rfl
theorem State.unmoorWatch_wakes (s : State) (t : Tile) (id : Nat) : OnlyWakes s (s.unmoorWatch t id) t := by
  unfold State.unmoorWatch
  refine .trans (b := s.modEl t _) ⟨rfl, fun u hu => State.modEl_el_other _ _ _ _ hu, ?_, fun f => ?_, fun f x => ?_⟩
    (.foldl (fun s (m : Moor) => s.setMoored_wakes t m.facet m.handler false) _ _) <;> rw [State.modEl_el_same]
  · rfl
  · rfl
/-- The moored bits fall one by one, and the mooring list stays. -/
theorem State.foldl_setMoored_moors (t : Tile) (l : List Moor) (s : State) :
    ((l.foldl (fun s m => s.modFac t m.facet (·.setMoored m.handler false)) s).el t).moors = (s.el t).moors := by
  induction l generalizing s with
  | nil => rfl
  | cons m l ih => rw [List.foldl_cons, ih, State.modFac_el_same]; rfl
theorem State.setMoored_false (s : State) (t : Tile) (f g : Facet) (h x : Fin 64)
    (low : (g, x) = (f, h) ∨ (((s.el t).fac g).handlers.get x).moored = false) :
    ((((s.modFac t f (·.setMoored h false)).el t).fac g).handlers.get x).moored = false := by
  rw [State.modFac_el_same]
  by_cases hg : g = f
  · subst hg
    rw [Element.modFac_fac_same, FacetEl.setMoored]
    by_cases hx : x = h
    · rw [hx, vget_vmod_same]
    · rw [vget_vmod_other _ _ _ _ hx]
      exact low.resolve_left (by simp [hx])
  · rw [Element.modFac_fac_other _ _ _ _ hg]
    exact low.resolve_left (by simp [hg])
theorem State.foldl_setMoored_false (t : Tile) (g : Facet) (x : Fin 64) (l : List Moor) (s : State)
    (low : (∃ m ∈ l, (m.facet, m.handler) = (g, x)) ∨ (((s.el t).fac g).handlers.get x).moored = false) :
    ((((l.foldl (fun s m => s.modFac t m.facet (·.setMoored m.handler false)) s).el t).fac g).handlers.get x).moored = false := by
  induction l generalizing s with
  | nil => simpa using low
  | cons m l ih =>
    refine ih _ ?_
    rcases low with ⟨m', hm, named⟩ | low
    · rcases List.mem_cons.1 hm with rfl | hm
      · exact .inr (State.setMoored_false _ _ _ _ _ _ (.inl named.symm))
      · exact .inl ⟨m', hm, named⟩
    · exact .inr (State.setMoored_false _ _ _ _ _ _ (.inr low))
theorem State.unmoorWatch_moors (s : State) (t : Tile) (id : Nat) :
    ((s.unmoorWatch t id).el t).moors = (s.el t).moors.filter (fun m => m.watch != some id) := by
  unfold State.unmoorWatch
  rw [State.foldl_setMoored_moors, State.modEl_el_same]
theorem State.unmoorWatch_moored (s : State) (t : Tile) (id : Nat) (m : Moor) (hm : m ∈ (s.el t).moors) (named : m.watch = some id) :
    ((((s.unmoorWatch t id).el t).fac m.facet).handlers.get m.handler).moored = false :=
  State.foldl_setMoored_false t _ _ _ _ (.inl ⟨m, by simp [hm, named], rfl⟩)

/-! Late causes (R228, R229, R383) -/

/-- A cause that comes late writes the fault registers of its facet and nothing else of its element (R38). -/
theorem State.trapAsync_el (s : State) (t : Tile) (f : Facet) (code h pc : Nat) (x : Word) :
    (s.trapAsync t f code h pc x).el t = (s.el t).modFac f (·.trapped code h pc x) := by
  unfold State.trapAsync
  rw [State.el, State.cause_elements]
  exact State.modFac_el_same ..

/-- The state in which a late return is taken: the request is gone, lockstep has its note, and no mooring entry names it any more. -/
def State.woken (s : State) (id : Nat) (t : Tile) (f : Facet) (c : Option Nat) (h pc : Nat) (loc : Word) : State :=
  ((s.delReq id).noteAsync t f id c h pc loc).unmoorWatch t id
theorem State.unmoorWatch_findReq (s : State) (t : Tile) (id : Nat) (gone : s.findReq id = none) : (s.unmoorWatch t id).findReq id = none :=
  (State.findReq_congr (congrArg State.reqs (s.unmoorWatch_frame t id) :) id).trans gone
section
variable (s : State) (id : Nat) (t : Tile) (f : Facet) (c : Option Nat) (h pc : Nat) (loc : Word)
theorem State.woken_findReq : (s.woken id t f c h pc loc).findReq id = none :=
  State.unmoorWatch_findReq _ _ _ ((State.findReq_congr ((s.delReq id).noteAsync_only t f id c h pc loc).reqs id).trans (s.findReq_delReq id))
theorem State.woken_wakes : OnlyWakes s (s.woken id t f c h pc loc) t := by
  have same := (s.delReq id).noteAsync_only t f id c h pc loc
  have elements : ((s.delReq id).noteAsync t f id c h pc loc).elements = s.elements := (congrArg State.elements same :)
  have noted : OnlyWakes s ((s.delReq id).noteAsync t f id c h pc loc) t := .of_same elements same.mem t
  exact noted.trans (State.unmoorWatch_wakes ..)
end

theorem OnlyWakes.act {s s' : State} {t : Tile} (h : OnlyWakes s s' t) : (s'.el t).act = (s.el t).act := (congrArg Element.act h.own :)

/-- The reply of a watch in a facet without lockstep does nothing but wake. -/
theorem watch_wakes {s : State} {t : Tile} {id : Nat} {q : Req} {f : Facet} {h : Fin 64} {pc : Nat} (found : s.findReq id = some q)
    (src : q.src = .elem t f h pc) (none_ : s.waitPending id = false) {b : Bool} (stage : q.stage = .replied (.truth b)) (form : q.form = 0xA)
    (free : s.locked t f = false) : exec (.watchWake id) s = .next ((s.delReq id).unmoorWatch t id) := by
  have plain := State.noteAsync_unlocked (s := s.delReq id) free id none h.val pc q.loc
  rw [exec_watchWake, execWatchWake]
  simp only [found, stage, src, plain]
  rw [form, none_]
  exact when_true s _
/-- A late cause is dropped while a rollback is in its steps 1 and 2 (R383), and otherwise traps. -/
theorem late_cause {s : State} {t : Tile} {id : Nat} {q : Req} {f : Facet} {h : Fin 64} {pc : Nat} (found : s.findReq id = some q)
    (src : q.src = .elem t f h pc) (none_ : s.waitPending id = false) {c : Nat} (stage : q.stage = .replied (.cause c))
    (late : q.asks = false ∨ q.form = 0xA) :
    exec (.asyncTrap id) s = .next (if s.dropsReplies t then (s.delReq id).unmoorWatch t id
      else (s.woken id t f (some c) h.val pc q.loc).trapAsync t f c h.val pc q.loc) := by
  rw [exec_asyncTrap, execAsyncTrap]
  simp only [found, stage, src]
  have taken : ((!q.asks || q.form == 0xA) && !s.waitPending id) = true := by rcases late with late | late <;> simp [late, none_]
  rw [taken, when_true]
  rfl

theorem lateReplies : LateReplies := by
  intro s t id q f h pc found src none_
  refine ⟨fun b stage form free => ?_, fun c stage late drops => ?_, fun c stage late keeps small near => ?_⟩
  · have wakes := (s.delReq id).unmoorWatch_wakes t id
    have frame := (s.delReq id).unmoorWatch_frame t id
    exact ⟨_, watch_wakes found src none_ stage form free, State.unmoorWatch_findReq _ _ _ (s.findReq_delReq id),
      State.unmoorWatch_moors .., wakes.act, (congrArg (fun x : State => { x with reqs := s.reqs }) frame :), wakes.others,
      fun m hm named => State.unmoorWatch_moored _ _ _ _ hm named⟩
  · have wakes := (s.delReq id).unmoorWatch_wakes t id
    refine ⟨_, (late_cause found src none_ stage late).trans (by rw [if_pos drops]), State.unmoorWatch_findReq _ _ _ (s.findReq_delReq id),
      wakes.act, wakes.mem, (congrArg FacetEl.hcause (wakes.facet f) :), (congrArg FacetEl.hstat (wakes.facet f) :)⟩
  · have wakes := s.woken_wakes id t f (some c) h.val pc q.loc
    have fields := FacetEl.trapped_hcause (((s.woken id t f (some c) h.val pc q.loc).el t).fac f) c h.val pc q.loc
    refine ⟨_, (late_cause found src none_ stage late).trans (by rw [if_neg (by simp [keeps])]), ?_, ?_, ?_, ?_⟩
    · exact (State.findReq_congr (State.cause_reqs ..) id).trans (s.woken_findReq id t f (some c) h.val pc q.loc)
    · rw [State.trapAsync_el]
      exact wakes.act
    · exact (State.cause_mem ..).trans wakes.mem
    · rw [State.trapAsync_el, Element.modFac_fac_same]
      exact ⟨fields.code_.trans (Nat.mod_eq_of_lt small), fields.hidx_.trans (Nat.mod_eq_of_lt h.isLt),
        fields.pcidx_.trans (Nat.mod_eq_of_lt near), rfl, FacetEl.trapped_hstat ..⟩

/-- Settles O33: a reply is taken by the slot that waits for it, and what returns later clears the watch or traps. -/
theorem replies : Obligations.Replies := ⟨loadReplies, lateReplies⟩

end Sys2Proof.Machine
end

section
/-! SUPPORT. What an access does at its home (R208, R218 to R220): what each form leaves unchanged, and the bytes and tags of a word in HBM while
no stored bit has flipped. -/
namespace Sys2Proof.Machine

theorem exec_homeAccess (id : Nat) (s : State) : exec (.homeAccess id) s = execHomeAccess id s := rfl

/-! What an access may change -/

/-- Elements, requests and all that no access at a home touches are the same. -/
def OnlyHome (s s' : State) : Prop :=
  { s' with mem := s.mem, dies := s.dies, regions := s.regions, clasps := s.clasps, holds := s.holds, reexam := s.reexam, mts := s.mts,
            out := s.out, nextId := s.nextId } = s
theorem OnlyHome.refl (s : State) : OnlyHome s s := rfl
theorem OnlyHome.trans {a b c : State} (h : OnlyHome a b) (k : OnlyHome b c) : OnlyHome a c := by
  unfold OnlyHome at *
  rw [← h, ← k]
theorem OnlyHome.foldl {α : Type} {step : State → α → State} (h : ∀ s x, OnlyHome s (step s x)) (l : List α) (s : State) :
    OnlyHome s (l.foldl step s) := by
  induction l generalizing s with
  | nil => exact .refl s
  | cons x l ih => exact (h s x).trans (ih _)
theorem OnlyHome.of_debug {s s' : State} (h : OnlyDebug s s') : OnlyHome s s' :=
  (congrArg (fun x : State => { x with mem := s.mem, clasps := s.clasps, holds := s.holds, reexam := s.reexam, mts := s.mts,
                                       nextId := s.nextId, dies := s.dies }) h.1 :)
section
variable {s s' : State} (h : OnlyHome s s')
include h
theorem OnlyHome.elements : s'.elements = s.elements := (congrArg State.elements h :)
theorem OnlyHome.reqs : s'.reqs = s.reqs := (congrArg State.reqs h :)
end

section
variable (s : State) (q : Req)
theorem State.claspAccess_home (r : RegionId) (reach word : Nat) : OnlyHome s (s.claspAccess r reach word) := rfl
theorem State.addShadow_home (r : RegionId) (reach word : Nat) : OnlyHome s (s.addShadow r reach word) := by
  unfold State.addShadow
  split <;> rfl
theorem State.beforeAccess_home : OnlyHome s (s.beforeAccess q) := by
  have clasped (r : RegionId) : OnlyHome s (if q.sync then q.words.foldl (fun s w => s.claspAccess r q.reach w) s else s) := by
    split
    · exact .foldl (fun s w => s.claspAccess_home r q.reach w) _ s
    · exact .refl s
  unfold State.beforeAccess
  split
  · exact .refl s
  · next r _ =>
    split
    · dsimp only
      split
      · exact (clasped r).trans (.foldl (fun s w => s.addShadow_home r q.reach w) _ _)
      · exact clasped r
    · exact .refl s
theorem State.countBytes_home (pa gl cls : Nat) (write : Bool) : OnlyHome s (s.countBytes pa gl cls write) := by
  unfold State.countBytes
  split <;> rfl
theorem State.noteMtAccess_home : OnlyHome s (s.noteMtAccess q) := by
  unfold State.noteMtAccess
  split
  · refine .foldl (fun s w => ?_) _ s
    split
    · exact .of_debug (s.dbgMt_debug ..)
    · exact .refl s
  · exact .refl s
theorem State.setMem_home (m : Memory) : OnlyHome s { s with mem := m } := rfl
/-- A tag outside the memory tiles changes with its re-examination and the comparators that see it (R219). -/
theorem State.setTag_home (word : Nat) (other : isMt (8 * word) = false) (b : Bool) (f : Facet) (r : Option RegionId) :
    OnlyHome s (s.setTag word b f r) := by
  unfold State.setTag
  split
  · exact .refl s
  · simp only [other, Bool.false_eq_true, if_false]
    generalize s.mem.setFull (8 * word) b = m,
      (if s.reqs.any (fun q => q.deferred && q.words.contains word) then sins s.reexam word else s.reexam) = l
    have tagged : OnlyHome s { s with mem := m, reexam := l } := rfl
    cases r with
    | none => exact tagged
    | some r => exact tagged.trans (.of_debug (State.dbgHbmTag_debug ..))

/-- The state in which a form does its work: the controller has noted and counted the access (R366, R376). -/
def State.begun : State := (s.beforeAccess q).countBytes q.addr q.gl q.cls (q.homeWrite || q.form == 1)
theorem State.begun_home : OnlyHome s (s.begun q) := (s.beforeAccess_home q).trans (State.countBytes_home ..)
@[simp] theorem State.begun_mem : (s.begun q).mem = s.mem := by simp [State.begun]
/-- A form that writes nothing at its home puts nothing into a breakwater. -/
theorem State.begun_bw (reads : q.homeWrite = false) (d : DieId) : ((s.begun q).die d).bw = (s.die d).bw := by
  have clasped (l : List Nat) (r : RegionId) (x : State) : (l.foldl (fun s w => s.claspAccess r q.reach w) x).dies = x.dies := by
    induction l generalizing x with
    | nil => rfl
    | cons w l ih => exact ih _
  have before : (s.beforeAccess q).dies = s.dies := by
    unfold State.beforeAccess
    simp only [reads, Bool.false_eq_true, if_false]
    split
    · rfl
    · split
      · split
        · exact clasped ..
        · rfl
      · rfl
  have counted (x : State) (pa gl cls : Nat) (write : Bool) : ((x.countBytes pa gl cls write).die d).bw = (x.die d).bw := by
    unfold State.countBytes
    split
    · by_cases same : d = dieOfPa pa
      · subst same
        rw [State.modDie_die_same]
        split <;> rfl
      · rw [State.modDie_die_other _ _ _ _ same]
    · rfl
  rw [State.begun, counted, State.die, before, State.die]
end

/-! The forms (R218) -/

section
variable {s : State} {q : Req} (own : q.confirm = false)
include own
theorem State.perform_read (form : q.form = 0 ∨ q.form = 2) :
    s.perform q = (((s.begun q).readReq q).1, .data ((s.begun q).readReq q).2.1 ((s.begun q).readReq q).2.2.1) := by
  unfold State.perform
  simp only [own, Bool.false_eq_true, if_false, if_pos form]
  rfl
/-- The bytes that a filling store leaves: its own where it covers the word, else those of the word beside them. -/
def State.fillData (s : State) (q : Req) : Nat := if q.cover = 0xFF then q.data else coverMix q.cover (s.mem.readSeen q.addr 8) q.data
theorem State.perform_fill (form : q.form = 4 ∨ q.form = 5) :
    ∃ p, s.perform q = ((s.begun q).fillReq q ((s.begun q).fillData q) p true, .truth true) := by
  unfold State.perform State.fillData
  have other : ¬(q.form = 0 ∨ q.form = 2) ∧ ¬q.form = 1 ∧ ¬(q.form = 3 ∨ q.form = 8 ∨ q.form = 9) := by omega
  obtain ⟨reads, plain, consuming⟩ := other
  simp only [own, Bool.false_eq_true, if_false, if_pos form, if_neg reads, if_neg plain, if_neg consuming]
  split
  · exact ⟨_, rfl⟩
  · exact ⟨_, rfl⟩
theorem State.perform_empty (form : q.form = 6) : s.perform q = ((s.begun q).tagReq q false, .truth true) := by
  unfold State.perform
  simp only [own, form, Bool.false_eq_true, Nat.reduceEqDiff, or_self, if_false, if_true]
  rw [State.begun, form]
theorem State.perform_watch (form : q.form = 0xA) : s.perform q = (s.begun q, .truth true) := by
  unfold State.perform
  simp only [own, form, Bool.false_eq_true, Nat.reduceEqDiff, or_self, if_false]
  rw [State.begun, form]
end

/-! A word in HBM (R213 to R219) -/

theorem isSys_of_isHbm {pa : Nat} (hbm : isHbm pa = true) : isSys pa = false := by
  have below : pa < 2 ^ 39 := of_decide_eq_true hbm
  simp only [isSys, Bool.and_eq_false_iff, decide_eq_false_iff_not]
  omega
/-- Whatever home a word has, a tag that is set is set in memory, and nothing else there (R219). -/
theorem State.setTag_tags (s : State) (word : Nat) (b : Bool) (f : Facet) (r : Option RegionId) :
    (s.setTag word b f r).mem = if s.mem.isFull (8 * word) = b then s.mem else s.mem.setFull (8 * word) b := by
  unfold State.setTag
  split
  · rfl
  · dsimp only
    split
    · split
      · rw [State.dbgTag_mem]
      · rw [State.lineRelease_mem, State.dbgTag_mem]
    · split
      · rw [State.dbgHbmTag_mem]
      · rfl

theorem Memory.putBytes_bad (l : List Byte) (m : Memory) (a : Nat) : (m.putBytes a l).bad = m.bad := by
  induction l generalizing m a with
  | nil => rfl
  | cons b l ih => exact ih _ _
theorem Memory.readHbm_layout {m : Memory} (sound : m.bad = []) (pa size gl : Nat) : OnlyLayout m (m.readHbm pa size gl).1 :=
  .foldl (fun _ p h => Memory.convert_layout h p gl) _ sound

section
variable {s : State} (sound : s.mem.bad = [])
include sound
theorem State.noteReads_sound (q : Req) (l : List Nat) : s.noteReads q l = s := by
  rw [State.noteReads]
  induction l with
  | nil => rfl
  | cons p l ih => rw [List.foldl_cons, Memory.check_sound sound, if_pos rfl, ih]
theorem Memory.readSeen_sound (pa n : Nat) : s.mem.readSeen pa n = s.mem.read pa n := by
  rw [Memory.readSeen, if_pos (by rw [sound]; rfl)]

variable {q : Req} (hbm : isHbm q.addr = true)
include hbm
theorem State.writeReq_sound (sized : q.size ≠ 0) (v : Nat) (p : Bool) :
    s.writeReq q v p = { s with mem := s.mem.devWrite q.addr (bytesOf q.size v) q.gl p } := by
  have place : s.place q.addr = q.addr := by rw [State.place, isSys_of_isHbm hbm]; rfl
  simp only [State.writeReq, if_neg sized, isMt_of_isHbm hbm, hbm, State.noteReads_sound sound, place, Bool.false_eq_true, if_false, if_true]

variable (aligned : q.addr % 8 = 0)
include aligned
omit sound in
theorem isMt_word_of_isHbm : isMt (8 * (q.addr / 8)) = false :=
  isMt_of_isHbm (by rwa [Nat.mul_div_cancel' (Nat.dvd_of_mod_eq_zero aligned)])
omit sound in
theorem State.tagReq_home (b : Bool) : OnlyHome s (s.tagReq q b) := by
  simp only [State.tagReq, isMt_of_isHbm hbm, hbm, Bool.false_eq_true, if_false, if_true]
  exact (s.setMem_home _).trans (State.setTag_home _ _ (isMt_word_of_isHbm hbm aligned) ..)
omit aligned in
/-- A tag request leaves every byte, and of the tags it sets that of its word. -/
theorem State.tagReq_layout {m : Memory} (layout : OnlyLayout m s.mem) (b : Bool) : OnlyLayout
    (if m.isFull (8 * (q.addr / 8)) = b then m else m.setFull (8 * (q.addr / 8)) b) (s.tagReq q b).mem := by
  have all : OnlyLayout m (s.mem.convert q.addr q.gl) := layout.trans (Memory.convert_layout sound ..)
  simp only [State.tagReq, isMt_of_isHbm hbm, hbm, Bool.false_eq_true, if_false, if_true,
    State.setTag_tags]
  rw [all.isFull]
  split
  · exact all
  · exact all.setFull ..
/-- The word of the request holds the data and the tag, and everything else in memory is as before. -/
theorem State.fillReq_word (wf : s.mem.wf = true) (size : q.size = 8) (v : Nat) (p b : Bool) : let m := (s.fillReq q v p b).mem
    Holds m q.addr 8 v ∧ m.isFull q.addr = b ∧ MemoryElsewhere s.mem m q.addr 8 := by
  have plain : isMt q.addr = false := isMt_of_isHbm hbm
  have written : OnlyLayout (s.mem.putBytes q.addr (bytesOf 8 v)) (s.writeReq q v p).mem := by
    rw [State.writeReq_sound sound hbm (by omega), size]
    exact Memory.devWrite_layout sound hbm ..
  have same : (s.writeReq q v p).mem.bad = [] := by
    rw [written.bad, Memory.putBytes_bad, sound]
  have all := State.tagReq_layout same hbm written b
  have eq : s.fillReq q v p b = (s.writeReq q v p).tagReq q b := by
    rw [State.fillReq, if_neg (by simp [plain])]
  intro m
  have wf' : (s.mem.putBytes q.addr (bytesOf 8 v)).wf = true := Memory.putBytes_wf _ _ _ wf
  have tag (a : Nat) : m.isFull a = if a / 8 = q.addr / 8 then b else s.mem.isFull a := by
    have untouched : (s.mem.putBytes q.addr (bytesOf 8 v)).isFull a = s.mem.isFull a := by
      rw [Memory.isFull, Memory.putBytes_full, Memory.isFull]
    rw [← untouched]
    exact (congrArg (fun x : State => x.mem.isFull a) eq).trans ((all.isFull a).trans (Memory.isFull_tagged wf' _ b a))
  have byte (a : Nat) : m.byte a = (s.mem.putBytes q.addr (bytesOf 8 v)).byte a := by
    refine (congrArg (fun x : State => x.mem.byte a) eq).trans ((all.byte a).trans ?_)
    split <;> rfl
  refine ⟨fun i hi => ?_, (tag q.addr).trans (if_pos rfl), fun a outside => ?_, fun a other => (tag a).trans (if_neg other)⟩
  · rw [byte]
    exact Memory.holds_putBytes wf q.addr 8 v i hi
  · rw [byte]
    refine Memory.byte_putBytes_other _ _ _ _ ?_
    rw [length_bytesOf]
    omega
theorem State.fillReq_home (size : q.size = 8) (v : Nat) (p b : Bool) : OnlyHome s (s.fillReq q v p b) := by
  have plain : isMt q.addr = false := isMt_of_isHbm hbm
  rw [State.fillReq, if_neg (by simp [plain]), State.writeReq_sound sound hbm (by omega)]
  exact (s.setMem_home _).trans (State.tagReq_home hbm aligned b)
omit aligned in
theorem State.tagReq_word (wf : s.mem.wf = true) (b : Bool) : let m := (s.tagReq q b).mem
    m.cells = s.mem.cells ∧ m.isFull q.addr = b ∧ MemoryElsewhere s.mem m q.addr 8 := by
  have all := State.tagReq_layout sound hbm (.refl s.mem) b
  intro m
  have tag (a : Nat) : m.isFull a = if a / 8 = q.addr / 8 then b else s.mem.isFull a := (all.isFull a).trans (Memory.isFull_tagged wf _ b a)
  have cells : m.cells = s.mem.cells := by
    refine (congrArg Memory.cells all :).trans ?_
    split <;> rfl
  exact ⟨cells, (tag q.addr).trans (if_pos rfl), fun a _ => by rw [Memory.byte, cells, Memory.byte], fun a other => (tag a).trans (if_neg other)⟩
end

/-- Eight bytes hold a number as they hold its low 64 bits (R4). -/
theorem holds_low {m : Memory} {pa v : Nat} (h : Holds m pa 8 v) : Holds m pa 8 (v % 2 ^ 64) := by
  intro i hi
  rw [h i hi]
  interval_cases i <;> omega

/-- Bytes seen one by one are those of a number read. -/
theorem Memory.read_eq_map (m : Memory) (pa n : Nat) : m.read pa n = ofBytes ((List.range n).map fun i => m.byte (pa + i)) := by
  have bytes (n pa : Nat) : m.bytes pa n = (List.range n).map fun i => m.byte (pa + i) := by
    induction n generalizing pa with
    | zero => rfl
    | succ n ih =>
      rw [Memory.bytes, ih, List.range_succ_eq_map, List.map_cons, List.map_map]
      simp only [Function.comp_def, Nat.add_zero, Nat.succ_eq_add_one, Nat.add_assoc, Nat.add_comm 1]
  rw [Memory.read, bytes]
section
variable {s : State} {q : Req} (sound : s.mem.bad = []) (hbm : isHbm q.addr = true) (aligned : q.addr % 8 = 0) (size : q.size = 8)
include sound hbm
theorem State.readReq_home : OnlyHome s (s.readReq q).1 := by
  rw [State.readReq, if_pos hbm, State.noteReads_sound sound]
  rfl
theorem State.readReq_layout : OnlyLayout s.mem (s.readReq q).1.mem := by
  rw [State.readReq, if_pos hbm, State.noteReads_sound sound]
  exact Memory.readHbm_layout sound ..
include aligned size
theorem State.readReq_value (quiet : ∀ d, (s.die d).bw = []) (alone : q.overlay = []) : (s.readReq q).2.1 = s.mem.read q.addr 8 := by
  have below : q.addr < 2 ^ 39 := of_decide_eq_true hbm
  have view := State.viewBytes_plain (q := q) quiet sound fun i hi => isSys_of_isHbm (by simp only [isHbm, decide_eq_true_eq]; omega)
  rw [State.readReq, if_pos hbm, alone, view, size, Memory.read_eq_map]
  simp only [List.map_map]
  rfl
end

/-! The end of an access -/

section
variable (s : State) (q : Req) (r : Reply)
@[simp] theorem State.endAccess_elements : (s.endAccess q r).elements = s.elements := by
  unfold State.endAccess
  repeat' split
  all_goals rfl
end
theorem State.findReq_id {s : State} {id : Nat} {p : Req} (found : s.findReq id = some p) : p.id = id := by
  simpa using List.find?_some (p := fun q : Req => q.id == id) found
/-- The request that is set is found under its id, wherever one with that id stands. -/
theorem State.findReq_setReq {s : State} {id : Nat} {p q : Req} (found : s.findReq id = some p) (named : q.id = id) :
    (s.setReq q).findReq id = some q := by
  subst named
  have pred : ((fun p : Req => p.id == q.id) ∘ fun p : Req => if p.id = q.id then q else p) = fun p : Req => p.id == q.id := by
    funext p
    by_cases h : p.id = q.id <;> simp [h]
  have same : p.id = q.id := State.findReq_id found
  rw [State.findReq, State.setReq, List.find?_map, pred]
  rw [State.findReq] at found
  rw [found]
  simp [same]
/-- The reply to a request that asks stands at the request. -/
theorem State.findReq_endAccess {s : State} {id : Nat} {p q : Req} (found : s.findReq id = some p) (named : q.id = id) (asks : q.asks = true)
    (r : Reply) : (s.endAccess q r).findReq id = some { q with stage := .replied r } := by
  rw [State.endAccess, if_pos asks]
  exact State.findReq_setReq found named

/-- An access outside the memory tiles is seen by no comparator of theirs (R441). -/
theorem State.noteMtAccess_hbm (s : State) {q : Req} (hbm : isHbm q.addr = true) : s.noteMtAccess q = s := by
  rw [State.noteMtAccess, isMt_of_isHbm hbm]
  rfl
section
variable {s : State} {q : Req} (own : q.confirm = false) (hbm : isHbm q.addr = true) (aligned : q.addr % 8 = 0) (sound : s.mem.bad = [])
include own hbm aligned sound
theorem State.finishAccess_fill (wf : s.mem.wf = true) (size : q.size = 8) (form : q.form = 4 ∨ q.form = 5) :
    let m := (s.finishAccess q).mem; Holds m q.addr 8 (s.fillData q % 2 ^ 64) ∧ m.isFull q.addr = true ∧
      MemoryElsewhere s.mem m q.addr 8 ∧ (s.finishAccess q).elements = s.elements := by
  obtain ⟨p, done⟩ := State.perform_fill (s := s) own form
  have clean : (s.begun q).mem.bad = [] := by rw [State.begun_mem, sound]
  have home := State.fillReq_home clean hbm aligned size ((s.begun q).fillData q) p true
  have word := State.fillReq_word clean hbm aligned (by rw [State.begun_mem, wf]) size ((s.begun q).fillData q) p true
  rw [State.begun_mem] at word
  obtain ⟨holds, full, elsewhere⟩ := word
  have data : (s.begun q).fillData q = s.fillData q := by rw [State.fillData, State.begun_mem, State.fillData]
  rw [State.finishAccess_eq, done, State.noteMtAccess_hbm _ hbm, State.endAccess_mem, State.endAccess_elements, ← data]
  exact ⟨holds_low holds, full, elsewhere, home.elements.trans (s.begun_home q).elements⟩
theorem State.finishAccess_empty (wf : s.mem.wf = true) (form : q.form = 6) :
    let m := (s.finishAccess q).mem; m.cells = s.mem.cells ∧ m.isFull q.addr = false ∧
      MemoryElsewhere s.mem m q.addr 8 ∧ (s.finishAccess q).elements = s.elements := by
  have clean : (s.begun q).mem.bad = [] := by rw [State.begun_mem, sound]
  have home := State.tagReq_home (s := s.begun q) hbm aligned false
  have word := State.tagReq_word clean hbm (by rw [State.begun_mem, wf]) false
  rw [State.begun_mem] at word
  obtain ⟨cells, empty, elsewhere⟩ := word
  rw [State.finishAccess_eq, State.perform_empty own form, State.noteMtAccess_hbm _ hbm, State.endAccess_mem, State.endAccess_elements]
  exact ⟨cells, empty, elsewhere, home.elements.trans (s.begun_home q).elements⟩
theorem State.finishAccess_read (size : q.size = 8) (form : q.form = 0 ∨ q.form = 2) (alone : q.overlay = [])
    (quiet : ∀ d, (s.die d).bw = []) {id : Nat} (found : s.findReq id = some q) : ∃ q' p,
      (s.finishAccess q).findReq id = some q' ∧ q'.stage = .replied (.data (s.mem.read q.addr 8) p) ∧
      (s.finishAccess q).mem.cells = s.mem.cells ∧ (s.finishAccess q).mem.full = s.mem.full ∧ (s.finishAccess q).elements = s.elements := by
  have clean : (s.begun q).mem.bad = [] := by rw [State.begun_mem, sound]
  have reads : q.homeWrite = false := by rcases form with form | form <;> simp [Req.homeWrite, own, form]
  have asks : (q.finished s).asks = true := by rcases form with form | form <;> simp [Req.asks, Req.finished, form]
  have named : (q.finished s).id = id := (show q.id = id from State.findReq_id found)
  have home := (s.begun_home q).trans (State.readReq_home clean hbm)
  have value := State.readReq_value clean hbm aligned size (fun d => (s.begun_bw q reads d).trans (quiet d)) alone
  have layout := State.readReq_layout clean hbm
  rw [State.begun_mem] at value layout
  have still : ((s.begun q).readReq q).1.findReq id = some q := (State.findReq_congr home.reqs id).trans found
  rw [State.finishAccess_eq, State.perform_read own form, State.noteMtAccess_hbm _ hbm, State.endAccess_mem, State.endAccess_elements]
  exact ⟨_, _, State.findReq_endAccess still named asks _, by rw [value], (congrArg Memory.cells layout :), (congrArg Memory.full layout :),
    home.elements⟩
end

/-! A need that is not met (R220) -/

/-- The request as it waits in a slot of its home. -/
def Req.inSlot (q : Req) (s : State) : Req := { q with arrived := s.homeTime q.addr, order := s.nextId, stage := .slot }
/-- Where nothing is deferred yet, a request that defers takes a slot. -/
theorem State.defer_slot {s : State} (empty : s.reqs.all (fun p => !p.deferred) = true) (q : Req) :
    s.defer q = ({ s.bumpId with reqs := s.reqs.filter (fun p => p.id != q.id) ++ [q.inSlot s] }, none) := by
  have mine (bank : Nat) : (s.reqs.filter fun p => p.deferred && bankOf (p.addr / 8) == bank) = [] := by
    refine List.filter_eq_nil_iff.2 fun p hp => ?_
    have free : p.deferred = false := by simpa using List.all_eq_true.1 empty p hp
    simp [free]
  unfold State.defer
  simp only [mine]
  rfl
/-- The watch that a waiting request of an element leaves in its place (R220). -/
def State.watchOf (s : State) (q : Req) : Req := { q with id := s.nextId, form := 0xA, cas := false, own := none, overlay := [] }

/-- The state in which a request has the banks of its words (R208). -/
def State.atTurn (s : State) (id : Nat) (q : Req) : State := { s with turns := s.turns.take (reqTurn id) (accessOf q.words) }

section
variable {s : State} {id : Nat} {q : Req} (home : AtHome s id q)
include home
/-- An access whose need is met is done in its turn. -/
theorem homeAccess_met (met : s.needMet q = true) (room : s.homeRoom q = .ok) : exec (.homeAccess id) s =
    .next ((s.atTurn id q).finishAccess q) := by
  obtain ⟨found, stage, kind, order, lock, rate, own, pending, parked, turn, exam, open_, free⟩ := home
  rw [exec_homeAccess, execHomeAccess]
  simp only [found, stage, kind, order, lock, rate, own, pending, parked, exam, open_, free, met, room, State.inTurn, turn, beq_self_eq_true,
    Bool.not_false, Bool.not_true, Bool.and_self, Bool.or_self, Bool.false_eq_true, if_false, if_true]
  rfl
variable (unmet : s.needMet q = false) (empty : s.reqs.all (fun p => !p.deferred) = true)
include unmet empty
/-- An element's request that waits for a full word leaves a watch there. -/
theorem homeAccess_watches (elem : q.src.isElem = true) (own_ : q.confirm = false) (form : q.form ≠ 4) : exec (.homeAccess id) s =
    .next (({ s with nextId := s.nextId + 2,
                     reqs := s.reqs.filter (fun p => p.id != s.nextId) ++ [(s.watchOf q).inSlot s.bumpId] } : State).answerReq q
      (.wait s.nextId)) := by
  obtain ⟨found, stage, kind, order, lock, rate, own, pending, parked, turn, exam, open_, free⟩ := home
  have waits : (q.src.isElem && !q.confirm && q.form != 4) = true := by simp [elem, own_, form]
  rw [exec_homeAccess, execHomeAccess]
  simp only [found, stage, kind, order, lock, rate, own, pending, parked, exam, open_, free, unmet, waits, beq_self_eq_true,
    Bool.not_false, Bool.not_true, Bool.and_self, Bool.or_self, Bool.false_eq_true, if_false, if_true]
  rw [State.defer_slot (s := s.bumpId) empty]
  rfl
/-- A filling store that waits for an empty word defers. -/
theorem homeAccess_defers (form : q.form = 4) : exec (.homeAccess id) s =
    .next { s.bumpId with reqs := s.reqs.filter (fun p => p.id != q.id) ++ [q.inSlot s] } := by
  obtain ⟨found, stage, kind, order, lock, rate, own, pending, parked, turn, exam, open_, free⟩ := home
  rw [exec_homeAccess, execHomeAccess]
  simp only [found, stage, kind, order, lock, rate, own, pending, parked, exam, open_, free, unmet, form, beq_self_eq_true, bne_self_eq_false,
    Bool.not_false, Bool.not_true, Bool.and_self, Bool.and_false, Bool.or_self, Bool.false_eq_true, if_false, if_true, State.deferOr,
    State.defer_slot empty]
end
/-- Requests with another id are found as before. -/
theorem findReq_beside {l : List Req} {id n : Nat} (other : n ≠ id) (l' : List Req) {q : Req} (found : l.find? (fun p => p.id == id) = some q) :
    (l.filter (fun p => p.id != n) ++ l').find? (fun p => p.id == id) = some q := by
  have kept : (l.filter fun p => p.id != n).find? (fun p => p.id == id) = some q := by
    rw [List.find?_filter, ← found]
    congr 1
    funext p
    by_cases same : p.id = id
    · simp [same, other.symm]
    · simp [same]
  rw [List.find?_append, kept]
  rfl

/-- Settles O35: met, each form does at its word what its part of the access does; not met, a watch or the request itself waits in a slot. -/
theorem homeAccess : Obligations.HomeAccess := by
  intro s id q wf home hbm aligned size own
  refine ⟨fun met room sound => ?_, fun unmet empty elem => ⟨fun form issued => ?_, fun form => ?_⟩⟩
  · have done := homeAccess_met home met room
    refine ⟨fun form => ?_, fun form => ?_, fun form alone quiet => ?_⟩
    · obtain ⟨holds, full, elsewhere, elements⟩ := State.finishAccess_fill (s := s.atTurn id q) own hbm aligned sound wf size form
      rw [State.fillData, Memory.readSeen_sound (by exact sound)] at holds
      exact ⟨_, done, holds, full, elsewhere, elements⟩
    · obtain ⟨cells, empty, elsewhere, elements⟩ := State.finishAccess_empty (s := s.atTurn id q) own hbm aligned sound wf form
      exact ⟨_, done, cells, empty, elsewhere, elements⟩
    · obtain ⟨q', p, found, stage, cells, full, elements⟩ :=
        State.finishAccess_read (s := s.atTurn id q) own hbm aligned sound size form alone quiet home.found
      exact ⟨_, q', p, done, found, stage, cells, full, elements⟩
  · have named : q.id = id := State.findReq_id home.found
    have watched := homeAccess_watches home unmet empty elem own (by omega)
    have still := findReq_beside (n := s.nextId) (by omega) [(s.watchOf q).inSlot s.bumpId] home.found
    refine ⟨_, (s.watchOf q).inSlot s.bumpId, _, watched, ?_, rfl, rfl, rfl, rfl, State.findReq_setReq still named, rfl, rfl⟩
    have apart : s.nextId ≠ q.id := by omega
    exact List.mem_map.2 ⟨_, List.mem_append_right _ (List.mem_singleton.2 rfl), if_neg apart⟩
  · exact ⟨_, _, homeAccess_defers home unmet empty form, List.mem_append_right _ (List.mem_singleton.2 rfl), rfl, rfl, rfl⟩

end Sys2Proof.Machine
end

section
/-! SUPPORT. What waits at a home or a controller (R220, R223, R388, R441): a deferred request that leaves its slot or list, and the regions
that a rollback takes. -/
namespace Sys2Proof.Machine

theorem exec_reexamination (id : Nat) (s : State) : exec (.reexamination id) s = execReexamination id s := rfl
theorem exec_budgetExpiry (id : Nat) (s : State) : exec (.budgetExpiry id) s = execBudgetExpiry id s := rfl
theorem exec_lockstepTimeout (r : RegionId) (s : State) : exec (.lockstepTimeout r) s = execLockstepTimeout r s := rfl
theorem exec_regulatorGrant (d : DieId) (cls : Fin 16) (s : State) : exec (.regulatorGrant d cls) s = execRegulatorGrant d cls s := rfl
theorem exec_mooringFormatDone (r : RegionId) (s : State) : exec (.mooringFormatDone r) s = execMooringFormatDone r s := rfl

/-! Deferred requests (R220, R222, R223) -/

theorem State.undefer_home (s : State) (q : Req) : OnlyHome s (s.undefer q) :=
  (congrArg (fun x : State => { x with dies := s.dies, clasps := s.clasps, holds := s.holds, reexam := s.reexam, mts := s.mts, out := s.out,
                                       nextId := s.nextId }) (s.undefer_frame q) :)
theorem State.undefer_dies (s : State) (q : Req) : (s.undefer q).dies = s.dies := (congrArg State.dies (s.undefer_frame q) :)
theorem State.undefer_slot (s : State) {q : Req} (slot : q.stage = .slot) : s.undefer q = s :=
  s.undefer_unlisted (by rw [slot]; decide)

/-- The end of an examination changes nothing else. -/
theorem State.trimReexam_frame (s : State) (w : Nat) : { s.trimReexam w with reexam := s.reexam } = s := by
  unfold State.trimReexam
  split <;> rfl

section
variable {s : State} {id : Nat} {q : Req} {w : Nat} (found : s.findReq id = some q)
  (word : q.words.find? (fun w => s.reexam.contains w) = some w) (first : (s.deferredOf w).head?.map (·.id) = some id)
include found word first
/-- A request whose need is not met ends the examination of its word. -/
theorem reexamination_unmet (unmet : s.needMet q = false) : exec (.reexamination id) s = .next { s with reexam := sdel s.reexam w } := by
  rw [exec_reexamination, execReexamination]
  simp only [found, word, first, unmet, ne_eq, not_true_eq_false, Bool.not_false, Bool.or_true, if_false, if_true]
/-- A request whose need is met is performed in its turn. -/
theorem reexamination_met (met : s.needMet q = true) (room : s.homeRoom q = .ok) (free : s.behindHold q = false ∨ q.form = 0xA)
    (pending : s.behindPending q = false) (turn : (accessOf q.words).all (s.turns.free (reqTurn id)) = true) : exec (.reexamination id) s =
      .next ((((s.atTurn id q).undefer q).finishAccess { q with stage := .travelling }).trimReexam w) := by
  have open_ : (s.behindHold q && q.form != 0xA) = false := by
    rcases free with free | free <;> simp [free]
  rw [exec_reexamination, execReexamination]
  simp only [found, word, first, met, room, open_, pending, State.inTurn, turn, ne_eq, not_true_eq_false, Bool.not_true, Bool.or_self,
    Bool.false_eq_true, if_false, if_true]
  rfl
end

/-- A watch answers, and of the elements and the memory nothing changes. -/
theorem State.finishAccess_watch {s : State} {id : Nat} {p q : Req} (own : q.confirm = false) (form : q.form = 0xA)
    (found : s.findReq id = some p) (named : q.id = id) : ∃ q', (s.finishAccess q).findReq id = some q' ∧
      q'.stage = .replied (.truth true) ∧ (s.finishAccess q).elements = s.elements ∧ (s.finishAccess q).mem = s.mem := by
  have home := (s.begun_home q).trans ((s.begun q).noteMtAccess_home q)
  have still : ((s.begun q).noteMtAccess q).findReq id = some p := (State.findReq_congr home.reqs id).trans found
  have asks : (q.finished s).asks = true := by simp [Req.asks, Req.finished, form]
  rw [State.finishAccess_eq, State.perform_watch own form, State.endAccess_elements, State.endAccess_mem, State.noteMtAccess_mem,
    State.begun_mem]
  exact ⟨_, State.findReq_endAccess (q := q.finished s) still named asks _, rfl, home.elements, rfl⟩

section
variable {s : State} {id : Nat} {q : Req} (found : s.findReq id = some q)
include found
theorem budgetExpiry_late (deferred : q.deferred = true) (late : q.arrived + q.budget * 1000 ≤ s.homeTime q.addr) :
    exec (.budgetExpiry id) s =
      .next ((s.undefer q).answerReq { q with due := q.arrived + q.budget * 1000 + 2000 } (.cause causeRetryDevice)) := by
  rw [exec_budgetExpiry, execBudgetExpiry]
  simp only [found, deferred, late, decide_true, Bool.and_self, when_true]
theorem budgetExpiry_early (early : s.homeTime q.addr < q.arrived + q.budget * 1000) : exec (.budgetExpiry id) s = .next s := by
  rw [exec_budgetExpiry, execBudgetExpiry]
  simp only [found, Nat.not_le.2 early, decide_false, Bool.and_false, when_false]
end

theorem deferredRequests : DeferredRequests := by
  intro s id q wf found deferred
  have named : q.id = id := State.findReq_id found
  refine ⟨fun w word first => ⟨fun unmet => ⟨_, reexamination_unmet found word first unmet, rfl, rfl⟩,
    fun met form own room pending turn => ?_, fun met form room free hbm aligned size own cover slot pending sound turn => ?_⟩,
    fun late => ?_, budgetExpiry_early found⟩
  · have done := reexamination_met found word first met room (.inr form) pending turn
    have left := (s.atTurn id q).undefer_home q
    have still : ((s.atTurn id q).undefer q).findReq id = some q := (State.findReq_congr left.reqs id).trans found
    obtain ⟨q', answered, stage, elements, mem⟩ := State.finishAccess_watch (q := { q with stage := .travelling }) own form still named
    have trimmed := (((s.atTurn id q).undefer q).finishAccess { q with stage := .travelling }).trimReexam_frame w
    refine ⟨_, q', done, (State.findReq_congr (congrArg State.reqs trimmed :) id).trans answered, stage,
      (congrArg State.elements trimmed :).trans (elements.trans left.elements), fun slot => ?_⟩
    refine (congrArg State.mem trimmed :).trans (mem.trans ?_)
    rw [State.undefer_slot _ slot]
    rfl
  · have done := reexamination_met found word first met room (.inl free) pending turn
    rw [State.undefer_slot _ slot] at done
    obtain ⟨holds, full, elsewhere, -⟩ := State.finishAccess_fill (s := s.atTurn id q) (q := { q with stage := .travelling }) own hbm aligned
      sound wf size (.inl form)
    have trimmed := ((s.atTurn id q).finishAccess { q with stage := .travelling }).trimReexam_frame w
    have mem : (((s.atTurn id q).finishAccess { q with stage := .travelling }).trimReexam w).mem = _ := (congrArg State.mem trimmed :)
    have data : (s.atTurn id q).fillData { q with stage := .travelling } = q.data := if_pos cover
    rw [data] at holds
    exact ⟨_, done, by rw [mem]; exact holds, by rw [mem]; exact full, by rw [mem]; exact elsewhere⟩
  · have left := s.undefer_home q
    have still : (s.undefer q).findReq id = some q := (State.findReq_congr left.reqs id).trans found
    refine ⟨_, _, budgetExpiry_late found deferred late, State.findReq_setReq still named, rfl, left.elements, s.undefer_dies q, fun slot => ?_⟩
    rw [State.undefer_slot _ slot]
    rfl

/-! Rollbacks (R367, R388) -/

/-- A region without items in lockstep that a rollback may take, or has taken. -/
structure RollsBack (g : Region) : Prop where
  prim : g.lockPrim = []
  mirror : g.lockMirror = []
  open_ : g.stop = false ∨ g.rollback.isSome = true
/-- A region that a rollback has taken. -/
structure RolledBack (g : Region) : Prop where
  prim : g.lockPrim = []
  mirror : g.lockMirror = []
  taken : g.rollback.isSome = true
theorem RolledBack.rollsBack {g : Region} (h : RolledBack g) : RollsBack g := ⟨h.prim, h.mirror, .inr h.taken⟩

theorem State.foldl_abortTile_regions (l : List Tile) (s : State) : (l.foldl State.abortTile s).regions = s.regions := by
  induction l generalizing s with
  | nil => rfl
  | cons t l ih =>
    refine (ih _).trans ?_
    unfold State.abortTile
    split
    · next a _ => exact (congrArg State.regions (s.abort_frame t a) :)
    · rfl
theorem State.foldl_abortTile_rg (l : List Tile) (s : State) (r : RegionId) : (l.foldl State.abortTile s).rg r = s.rg r := by
  rw [State.rg, State.foldl_abortTile_regions, State.rg]
theorem Region.abandonSave_fields (g : Region) : let g' := g.abandonSave
    g'.lockPrim = g.lockPrim ∧ g'.lockMirror = g.lockMirror ∧ g'.rollback = g.rollback := by
  unfold Region.abandonSave
  split
  · obtain ⟨w, stamped⟩ := g.restamp_eq fun g => { g with prectl := setFld g.prectl 8 3 1 }
    rw [stamped]
    exact ⟨rfl, rfl, rfl⟩
  · exact ⟨rfl, rfl, rfl⟩
/-- The beginning of a rollback is that of its region (R367). -/
theorem State.beginRollback_taken {s : State} {r : RegionId} (stop : Bool) (prim : (s.rg r).lockPrim = []) (mirror : (s.rg r).lockMirror = []) :
    RolledBack ((s.beginRollback r stop).rg r) := by
  rw [State.beginRollback, State.modRg_rg_same, State.foldl_abortTile_rg]
  obtain ⟨prim', mirror', taken⟩ := Region.abandonSave_fields
    { s.rg r with
      rollback := some ⟨(List.foldl State.abortTile s (s.rg r).tiles).cycle, stop, false⟩, faulted := [],
      tidestat := if stop then setBit (s.rg r).tidestat 35 true else (s.rg r).tidestat,
      dcut := if fld (s.rg r).dcut 4 2 = 0 then (s.rg r).dcut else setBit (setFld (s.rg r).dcut 4 2 0) 6 true }
  exact ⟨prim'.trans prim, mirror'.trans mirror, by rw [taken]; rfl⟩
theorem State.beginRollback_other (s : State) {r q : RegionId} (stop : Bool) (h : q ≠ r) : (s.beginRollback r stop).rg q = s.rg q := by
  rw [State.beginRollback, State.modRg_rg_other _ _ _ _ h, State.foldl_abortTile_rg]
/-- The rollback of a region that has none of this cycle: a replay, or a stop at the replay limit (R374). -/
def State.replayOrStop (s : State) (r : RegionId) : State :=
  if !(s.rg r).tides then s.beginRollback r true
  else if max 1 (fld (s.rg r).tide 5 3) < fld (s.rg r).tidestat 32 3 + 1 then
    (s.causeRg r 0 causeReplayLimit (s.rg r).ctide).beginRollback r true
  else (s.beginRollback r false).modRg r fun g =>
    { g with tidestat := setFld g.tidestat 32 3 (fld (s.rg r).tidestat 32 3 + 1), counters := vmod g.counters 3 (· + 1) }
theorem State.rollbackOne_cases (s : State) (r : RegionId) :
    s.rollbackOne r = s ∧ ((s.rg r).stop = true ∨ (s.rg r).rollback.isSome = true) ∨ s.rollbackOne r = s.replayOrStop r := by
  unfold State.rollbackOne
  dsimp only
  split
  · next stopped => exact .inl ⟨rfl, .inl stopped⟩
  · split
    · next began =>
      split
      · exact .inl ⟨rfl, .inr (by rw [began]; rfl)⟩
      · exact .inr rfl
    · exact .inr rfl
theorem State.replayOrStop_taken {s : State} {r : RegionId} (prim : (s.rg r).lockPrim = []) (mirror : (s.rg r).lockMirror = []) :
    RolledBack ((s.replayOrStop r).rg r) := by
  unfold State.replayOrStop
  split
  · exact State.beginRollback_taken true prim mirror
  · split
    · obtain ⟨l, w, caused⟩ := s.causeRg_rg_eq r 0 causeReplayLimit (s.rg r).ctide r
      exact State.beginRollback_taken true (by rw [caused]; exact prim) (by rw [caused]; exact mirror)
    · rw [State.modRg_rg_same]
      obtain ⟨prim', mirror', taken⟩ := State.beginRollback_taken (s := s) (r := r) false prim mirror
      exact ⟨prim', mirror', taken⟩
theorem State.replayOrStop_other (s : State) {r q : RegionId} (h : q ≠ r) : (s.replayOrStop r).rg q = s.rg q := by
  unfold State.replayOrStop
  split
  · exact s.beginRollback_other true h
  · split
    · rw [State.beginRollback_other _ true h, State.causeRg_rg_other _ _ _ _ h]
    · rw [State.modRg_rg_other _ _ _ _ h, s.beginRollback_other false h]
theorem State.rollbackOne_taken {s : State} {r : RegionId} (h : RollsBack (s.rg r)) : RolledBack ((s.rollbackOne r).rg r) := by
  obtain ⟨prim, mirror, open_⟩ := h
  rcases s.rollbackOne_cases r with ⟨same, stopped | began⟩ | done
  · rw [same]
    exact ⟨prim, mirror, open_.resolve_left (by simp [stopped])⟩
  · rw [same]
    exact ⟨prim, mirror, began⟩
  · rw [done]
    exact State.replayOrStop_taken prim mirror
theorem State.rollbackOne_other (s : State) {r q : RegionId} (h : q ≠ r) : (s.rollbackOne r).rg q = s.rg q := by
  rcases s.rollbackOne_cases r with ⟨same, -⟩ | done
  · rw [same]
  · rw [done, s.replayOrStop_other h]

/-- A clasp's closure keeps the regions it begins with (R376). -/
theorem State.mem_claspClosure (s : State) {x : Nat} (n : Nat) (l : List Nat) (h : x ∈ l) : x ∈ s.claspClosure n l := by
  induction n generalizing l with
  | zero => exact h
  | succ n ih =>
    refine ih _ ?_
    have joined (l m : List Nat) (h : x ∈ l) : x ∈ m.foldl sins l := by
      induction m generalizing l with
      | nil => exact h
      | cons y m ih => exact ih _ ((mem_sins l y x).2 (.inr h))
    generalize s.clasps = cs
    induction cs generalizing l with
    | nil => exact h
    | cons c cs ih =>
      refine ih _ ?_
      dsimp only
      split
      · exact joined _ _ h
      · exact h
/-- Where a step over an element makes Q of P, and every step keeps both, the fold makes it. -/
theorem foldl_makes {α σ : Type} {step : σ → α → σ} {P Q : σ → Prop} {x : α} (keepsP : ∀ s y, P s → P (step s y))
    (keepsQ : ∀ s y, Q s → Q (step s y)) (makes : ∀ s, P s → Q (step s x)) (l : List α) (s : σ)
    (h : Q s ∨ x ∈ l ∧ P s) : Q (l.foldl step s) := by
  induction l generalizing s with
  | nil => exact h.resolve_right fun ⟨h, _⟩ => List.not_mem_nil h
  | cons y l ih =>
    refine ih _ ?_
    rcases h with h | ⟨h, hp⟩
    · exact .inl (keepsQ s y h)
    · rcases List.mem_cons.1 h with rfl | h
      · exact .inl (makes s hp)
      · exact .inr ⟨h, keepsP s y hp⟩
/-- A rollback takes the region it is asked for, whatever regions it takes with it. -/
theorem State.rollback_taken {s : State} {r : RegionId} (h : RollsBack (s.rg r)) : RolledBack ((s.rollback [r]).rg r) := by
  have named : (s.claspClosure 32 [r.val]).contains r.val = true := List.contains_iff_mem.2 (s.mem_claspClosure 32 _ (List.mem_singleton.2 rfl))
  refine foldl_makes (P := fun s => RollsBack (s.rg r)) (Q := fun s => RolledBack (s.rg r)) (x := r) (fun s q h => ?_) (fun s q h => ?_)
    (fun s h => ?_) (List.finRange 32) s (.inr ⟨List.mem_finRange r, h⟩)
  · split
    · by_cases same : r = q
      · subst same
        exact (State.rollbackOne_taken h).rollsBack
      · rwa [State.rollbackOne_other _ same]
    · exact h
  · split
    · by_cases same : r = q
      · subst same
        exact State.rollbackOne_taken h.rollsBack
      · rwa [State.rollbackOne_other _ same]
    · exact h
  · rw [if_pos (by exact named)]
    exact State.rollbackOne_taken h

/-! Controllers -/

section
variable {s : State} {d : DieId} {cls : Fin 16} {q : Req}
/-- The oldest request of a class that waits at a regulator goes on once its credit suffices, or where nothing regulates any more (R441). -/
def State.waitsFirst (s : State) (d : DieId) (cls : Fin 16) (q : Req) : Prop :=
  (s.reqs.filter fun q => q.stage == .regulated && dieOfPa q.addr == d).find? (fun q => q.cls == cls.val &&
    !(s.reqs.filter fun q => q.stage == .regulated && dieOfPa q.addr == d).any
      (fun p => decide (p.src.tile = q.src.tile) && decide (p.order < q.order))) = some q
theorem regulatorGrant_eq (first : s.waitsFirst d cls q) : exec (.regulatorGrant d cls) s =
    when_ s (decide (tget (s.die d).regCredit cls.val 0 + granBytes q.gl * 1000 ≤ regBurst (regCfg (s.die d) cls.val)) ||
        !bit (regCfg (s.die d) cls.val) 0)
      ((s.modDie d fun x => { x with regCredit := setTab0 x.regCredit cls.val (tget (s.die d).regCredit cls.val 0 + granBytes q.gl * 1000),
                                     waitNs := tmod x.waitNs cls.val 0 (· + BitVec.ofNat 64 (x.time - q.arrived)) }).setReq
        { q with stage := .travelling, granted := true }) := by
  unfold State.waitsFirst at first
  rw [exec_regulatorGrant, execRegulatorGrant]
  simp only [first]
end
theorem State.setReq_die (s : State) (q : Req) (d : DieId) : (s.setReq q).die d = s.die d := rfl
theorem tget_setTab0 (t : Tab Nat) (k : Nat) {v : Nat} (h : v ≠ 0) : tget (setTab0 t k v) k 0 = v := by
  rw [setTab0, if_neg h, tget_tset_same]

theorem controllers : Controllers := by
  refine ⟨fun s r y late open_ => ?_, fun s d cls q first => ?_, fun s r on off => ?_⟩
  · have done : exec (.lockstepTimeout r) s =
        .next ((s.modRg r fun g => { g with lockPrim := [], lockMirror := [] }).lockFail r y.facet (s.rg r).ctide) := by
      rw [exec_lockstepTimeout, execLockstepTimeout, late]
    obtain ⟨l, w, caused⟩ := (s.modRg r fun g => { g with lockPrim := [], lockMirror := [] }).causeRg_rg_eq r y.facet causeLockstep
      (s.rg r).ctide r
    rw [State.modRg_rg_same] at caused
    obtain ⟨prim, mirror, taken⟩ := State.rollback_taken (s := (s.modRg r fun g => { g with lockPrim := [], lockMirror := [] }).causeRg r
      y.facet causeLockstep (s.rg r).ctide) (r := r) (by rw [caused]; exact ⟨rfl, rfl, .inl open_⟩)
    exact ⟨_, done, taken, prim, mirror, State.lockFail_mem ..⟩
  · intro miss cost allowance
    refine ⟨fun on short => ?_, fun enough => ?_⟩
    · rw [regulatorGrant_eq first]
      refine when_of_false ?_
      have beyond : ¬ tget (s.die d).regCredit cls.val 0 + granBytes q.gl * 1000 ≤ regBurst (regCfg (s.die d) cls.val) := Nat.not_le.2 short
      rw [on, decide_eq_false beyond]
      rfl
    · have within : tget (s.die d).regCredit cls.val 0 + granBytes q.gl * 1000 ≤ regBurst (regCfg (s.die d) cls.val) := enough
      have waits : q ∈ s.reqs := List.mem_of_mem_filter (List.mem_of_find?_eq_some first)
      have positive : miss + cost ≠ 0 := by
        have : 0 < 2 ^ q.gl := Nat.two_pow_pos q.gl
        omega
      refine ⟨_, (regulatorGrant_eq first).trans (when_of_true (by rw [decide_eq_true within]; rfl)), ?_, ?_, fun e other => ?_, ?_, rfl⟩
      · exact List.mem_map.2 ⟨q, waits, if_pos rfl⟩
      · rw [State.setReq_die, State.modDie_die_same]
        exact tget_setTab0 _ _ positive
      · rw [State.setReq_die, State.modDie_die_other _ _ _ _ other]
      · rw [State.setReq_die, State.modDie_die_same]
        exact tget_tset_same ..
  · rw [exec_mooringFormatDone, execMooringFormatDone]
    refine ⟨_, when_of_true (by rw [on, off]; rfl), ?_, s.modRg_only .., ?_, fun i other => ?_⟩ <;> rw [State.modRg_rg_same]
    · exact bit_setBit_same _ _ _ (by decide)
    · exact bit_setBit_other _ _ _ _ other

/-- Settles O36: deferred requests in their turn and after their budget, and the three controllers. -/
theorem waitingRequests : Obligations.WaitingRequests := ⟨deferredRequests, controllers⟩

end Sys2Proof.Machine
end

section
/-! SUPPORT. The ports of a memory tile (R208, R210): a token taken from a port, a word written or emptied, and what that leaves of the tile. -/
namespace Sys2Proof.Machine

theorem exec_fifoPush (t : Tile) (f : Facet) (s : State) : exec (.fifoPush t f) s = execFifoPush t f s := rfl
theorem exec_fifoPop (t : Tile) (f : Facet) (s : State) : exec (.fifoPop t f) s = execFifoPop t f s := rfl
theorem exec_lineInput (t : Tile) (f : Facet) (s : State) : exec (.lineInput t f) s = execLineInput t f s := rfl

/-! Turns at a bank (R208) -/

/-- The state in which a requester has the banks it asked for. -/
def State.withTurn (s : State) (who : Nat) (l : List Nat) : State := { s with turns := s.turns.take who l }
theorem State.inTurn_free {s : State} {who : Nat} {l : List Nat} (free : l.all (s.turns.free who) = true) (act : State → State) :
    s.inTurn who l act = act (s.withTurn who l) := if_pos free
theorem State.inTurn_busy {s : State} {who : Nat} {l : List Nat} (busy : l.all (s.turns.free who) = false) (act : State → State) :
    s.inTurn who l act = { s with turns := s.turns.ask who l } := if_neg (by simp [busy])

/-! What stays of a memory tile -/

/-- The facet of the tile, and the queues that leave the tile, are the same. -/
structure PortsStay (s s' : State) (t : Tile) (f : Facet) : Prop where
  fac : (s'.mt t).fac f = (s.mt t).fac f
  outq : (s'.mt t).outq = (s.mt t).outq
theorem PortsStay.refl (s : State) (t : Tile) (f : Facet) : PortsStay s s t f := ⟨rfl, rfl⟩
theorem PortsStay.trans {a b c : State} {t : Tile} {f : Facet} (h : PortsStay a b t f) (k : PortsStay b c t f) : PortsStay a c t f :=
  ⟨k.fac.trans h.fac, k.outq.trans h.outq⟩
theorem PortsStay.of_same {s s' : State} (h : s'.mts = s.mts) (t : Tile) (f : Facet) : PortsStay s s' t f := by
  have same : s'.mt t = s.mt t := by rw [State.mt, h, State.mt]
  exact ⟨by rw [same], by rw [same]⟩
theorem PortsStay.of_debug {s s' : State} (h : OnlyDebug s s') (t : Tile) (f : Facet) : PortsStay s s' t f :=
  .of_same (show s'.mts = s.mts from (congrArg State.mts h.1 :)) t f
theorem PortsStay.mode {s s' : State} {t : Tile} {f : Facet} (h : PortsStay s s' t f) : s'.mtMode t f = s.mtMode t f :=
  (congrArg MtFacet.mode h.fac :)

section
variable (s : State) (t u : Tile) (f : Facet)
theorem State.logMt_ports (g : Facet) (word : Nat) : PortsStay s (s.logMt u g word) t f := by
  unfold State.logMt
  split
  · by_cases same : t.key = u.key
    · refine ⟨?_, ?_⟩ <;> rw [State.mt_congr _ same, State.modMt_mt_same, s.mt_congr same]
      rfl
    · refine ⟨?_, ?_⟩ <;> rw [State.modMt_mt_other _ _ _ _ same]
  · exact .refl s t f
/-- A line whose reader moves on is one of a facet in line mode. -/
theorem State.lineRelease_ports {m : MtMode} (mode : s.mtMode t f = some m) (fifo : m.mode ≠ 2) (w : Nat) :
    PortsStay s (s.lineRelease u w) t f := by
  have step (x : State) (g : Facet) (h : PortsStay s x t f) (new_ : MtFacet → MtFacet)
      (apart : t.key = u.key → f ≠ g) : PortsStay s (x.modMtFac u g new_) t f := by
    refine h.trans ?_
    by_cases same : t.key = u.key
    · refine ⟨?_, ?_⟩ <;> rw [State.mt_congr _ same, State.modMtFac_mt_same, x.mt_congr same]
      · rw [MemTile.modFac_fac_other _ _ _ _ (apart same)]
      · rfl
    · refine ⟨?_, ?_⟩ <;> rw [State.modMtFac_mt_other _ _ _ _ _ same]
  unfold State.lineRelease
  refine List.foldlRecOn (motive := fun x => PortsStay s x t f) _ _ (.refl s t f) fun x h g _ => ?_
  split
  · next m' mode' =>
    dsimp only
    split
    · next released =>
      refine step x g h _ fun same own => ?_
      subst own
      have here : x.mtMode u f = s.mtMode t f := by rw [← h.mode, State.mtMode, State.mtMode, x.mt_congr same]
      rw [mode', mode] at here
      cases here
      exact fifo released.1
    · exact h
  · exact h
end

/-- Comparators and lines that see a word become full leave the ports as they are; one that sees it become empty moves readers of lines. -/
theorem State.setTag_ports (s : State) (t : Tile) (f : Facet) (word : Nat) (b : Bool) (g : Facet) (r : Option RegionId)
    (fifo : b = true ∨ ∃ m, s.mtMode t f = some m ∧ m.mode ≠ 2) : PortsStay s (s.setTag word b g r) t f := by
  unfold State.setTag
  split
  · exact .refl s t f
  · generalize s.mem.setFull (8 * word) b = m,
      (if s.reqs.any (fun q => q.deferred && q.words.contains word) then sins s.reexam word else s.reexam) = l
    have tagged : PortsStay s { s with mem := m, reexam := l } t f := ⟨rfl, rfl⟩
    split
    · dsimp only
      have seen : PortsStay s (({ s with mem := m, reexam := l } : State).dbgTag (mtTile (8 * word)) g 1
          ((8 * word - mtBase (mtTile (8 * word))) / 8) b) t f := tagged.trans (.of_debug (State.dbgEvent_debug ..) t f)
      split
      · exact seen
      · next empties =>
        obtain ⟨m', mode, fifo⟩ := fifo.resolve_left empties
        exact seen.trans (State.lineRelease_ports _ _ _ _ (seen.mode.trans mode) fifo _)
    · cases r with
      | none => exact tagged
      | some r => exact tagged.trans (.of_debug (State.dbgHbmTag_debug ..) t f)

/-! A word of a memory tile (R208, R219) -/

/-- The word with a number and a poison mark in it. -/
def Memory.putWord (m : Memory) (w x : Nat) (p : Bool) : Memory := (m.setPoison (8 * w) p).putBytes (8 * w) (bytesOf 8 x)
theorem Memory.writeWords_word (m : Memory) (w x : Nat) (p : Bool) : m.writeWords (8 * w) (bytesOf 8 x) p = m.putWord w x p := by
  have words : wordsAt (8 * w) 8 = [w] := by
    have last : (8 * w + 7) / 8 - w + 1 = 1 := by omega
    simp [wordsAt, last]
  rw [Memory.writeWords, length_bytesOf, words]
  simp [Memory.putWord]
section
variable {m : Memory} (w x : Nat) (p : Bool)
theorem Memory.putWord_byte {a : Nat} (outside : ¬(8 * w ≤ a ∧ a < 8 * w + 8)) : (m.putWord w x p).byte a = m.byte a := by
  rw [Memory.putWord, Memory.byte_putBytes_other _ _ _ _ (by rw [length_bytesOf]; omega), Memory.setPoison_byte]
theorem Memory.putWord_isFull (a : Nat) : (m.putWord w x p).isFull a = m.isFull a := by
  rw [Memory.isFull, Memory.putWord, Memory.putBytes_full]
  rfl
variable (wf : m.wf = true)
include wf
theorem Memory.putWord_wf : (m.putWord w x p).wf = true := Memory.putBytes_wf _ _ _ (Memory.setPoison_wf _ _ _ wf)
theorem Memory.putWord_holds : Holds (m.putWord w x p) (8 * w) 8 x := Memory.holds_putBytes (Memory.setPoison_wf _ _ _ wf) _ _ _
theorem Memory.putWord_isPoison (sound : m.bad = []) : (m.putWord w x p).isPoison (8 * w) = p := by
  have same : (m.putWord w x p).isPoison (8 * w) = (m.setPoison (8 * w) p).isPoison (8 * w) := by
    rw [Memory.isPoison, Memory.lostWord, Memory.putWord, Memory.putBytes_poison, Memory.putBytes_bad]
    rfl
  rw [same, Memory.isPoison_setPoison _ _ _ _ wf sound, if_pos rfl]
end

/-- The offset of a word in its tile leads back to it. -/
theorem mtBase_areaWord (t : Tile) (m : MtMode) (i : Nat) : mtBase t + (8 * areaWord t m i - mtBase t) = 8 * areaWord t m i := by
  rw [areaWord, mtBase]
  omega
theorem mtBase_areaWord_div (t : Tile) (m : MtMode) (i : Nat) : mtBase t / 8 + (areaWord t m i - mtBase t / 8) = areaWord t m i := by
  rw [areaWord]
  omega

theorem State.mtWrite_ports (s : State) (t : Tile) (f : Facet) (off : Nat) (bs : List Byte) (p : Bool) :
    PortsStay s (s.mtWrite t f off bs p) t f := by
  have logged (l : List Nat) : PortsStay s (l.foldl (fun s w => s.logMt t f w) s) t f :=
    List.foldlRecOn (motive := fun x => PortsStay s x t f) _ _ (.refl s t f) fun x h w _ => h.trans (x.logMt_ports t t f f w)
  exact (logged _).trans ⟨rfl, rfl⟩
section
variable (s : State) (t : Tile) (f : Facet) (m : MtMode) (i x : Nat) (p : Bool)
/-- A port's write of a word. -/
def State.putArea : State := s.mtWrite t f (8 * areaWord t m i - mtBase t) (bytesOf 8 x) p
theorem State.putArea_mem : (s.putArea t f m i x p).mem = s.mem.putWord (areaWord t m i) x p := by
  have logged (l : List Nat) : (l.foldl (fun s w => s.logMt t f w) s).mem = s.mem := State.foldl_mem (fun s w => s.logMt_mem t f w) l s
  simp only [State.putArea, State.mtWrite, mtBase_areaWord, logged, Memory.writeWords_word]
theorem State.putArea_ports : PortsStay s (s.putArea t f m i x p) t f := s.mtWrite_ports ..
/-- A port's write that fills its word. -/
def State.fillArea : State := s.mtFill t f (8 * areaWord t m i - mtBase t) (bytesOf 8 x) p true
theorem State.fillArea_eq : s.fillArea t f m i x p =
    (s.putArea t f m i x p).setTag (areaWord t m i) true f (s.regionOf t) := by
  have word : (mtBase t + (8 * areaWord t m i - mtBase t)) / 8 = areaWord t m i := by
    rw [mtBase_areaWord, Nat.mul_div_cancel_left _ (by decide)]
  rw [State.fillArea, State.mtFill, word]
  rfl
end

/-! A token taken from a port (R210) -/

section
variable {s : State} {t : Tile} {f : Facet} {k : Token} (head : s.mtHead t f 5 = some k) (quiet : bit ((s.mt t).fac f).recording 5 = false)
omit head in
include quiet in
theorem State.mtTaking_quiet (act : State → State) : s.mtTaking t f 5 act = act (s.mtTake t f 5) :=
  if_neg fun ⟨records, _⟩ => by rw [show ((5 : Fin 16).val) = 5 from rfl, quiet] at records; cases records
include head
theorem State.mtTake_takes : TakesHead s (s.mtTake t f 5) t f 5 ∧ ((s.mtTake t f 5).mt t).fac f =
    { (s.mt t).fac f with inq := (((s.mtTake t f 5).mt t).fac f).inq, snaps := (((s.mtTake t f 5).mt t).fac f).snaps } := by
  unfold State.mtHead at head
  have taken : ∃ l : MtFacet → List MtSnap, s.mtTake t f 5 = s.modMtFac t f fun x =>
      { x with inq := vmod x.inq 5 (·.drop 1), snaps := l x } := by
    unfold State.mtTake
    simp only [head]
    exact ⟨_, rfl⟩
  obtain ⟨l, taken⟩ := taken
  rw [taken]
  refine ⟨⟨?_, fun q other => ?_⟩, ?_⟩ <;> rw [State.modMtFac_mt_same, MemTile.modFac_fac_same]
  · exact vget_vmod_same ..
  · exact vget_vmod_other _ _ _ _ other
end
theorem takesHead_after {s s1 s' : State} {t : Tile} {f : Facet} {p : Fin 16} (h : TakesHead s s1 t f p)
    (same : ((s'.mt t).fac f).inq = ((s1.mt t).fac f).inq) : TakesHead s s' t f p := by
  rw [TakesHead, same]
  exact h

/-! The ports (R210) -/

/-- The state in which a port has the bank of its word (R208). -/
def State.atPort (s : State) (t : Tile) (port w : Nat) : State := s.withTurn (portTurn t port) (accessOf [w])
theorem State.inTurn_port {s : State} {t : Tile} {port w : Nat} (free : (accessOf [w]).all (s.turns.free (portTurn t port)) = true)
    (act : State → State) : s.inTurn (portTurn t port) (accessOf [w]) act = act (s.atPort t port w) := State.inTurn_free free act
/-- WP moves on by one word (R210). -/
def State.stepWp (s : State) (t : Tile) (f : Facet) (m : MtMode) : State := s.modMtFac t f fun x => { x with wp := (x.wp + 1) % m.msize }
@[simp] theorem State.stepWp_mem (s : State) (t : Tile) (f : Facet) (m : MtMode) : (s.stepWp t f m).mem = s.mem := rfl
theorem State.stepWp_fac (s : State) (t : Tile) (f : Facet) (m : MtMode) :
    ((s.stepWp t f m).mt t).fac f = { (s.mt t).fac f with wp := (((s.mt t).fac f).wp + 1) % m.msize } := by
  rw [State.stepWp, State.modMtFac_mt_same, MemTile.modFac_fac_same]

section
variable {s : State} {t : Tile} {f : Facet} {m : MtMode} {k : Token} (mode : s.mtMode t f = some m) (runs : s.mtRuns t f = true)
  (area : 0 < m.msize) (room : s.mtLogRoom t 1 = .ok)

/-- After a token has been taken, a port writes its word, and WP moves on. -/
theorem State.takes_writes {s s1 : State} {t : Tile} {f : Facet} (m : MtMode) {k : Token} (head : s.mtHead t f 5 = some k)
    (ports : PortsStay (s.mtTake t f 5) s1 t f) : TakesHead s (s1.stepWp t f m) t f 5 ∧
      (((s1.stepWp t f m).mt t).fac f).wp = (((s.mt t).fac f).wp + 1) % m.msize := by
  obtain ⟨takes, rest⟩ := State.mtTake_takes head
  have fac := s1.stepWp_fac t f m
  rw [ports.fac] at fac
  have wp : (((s.mtTake t f 5).mt t).fac f).wp = ((s.mt t).fac f).wp := (congrArg MtFacet.wp rest :)
  exact ⟨takesHead_after takes (congrArg MtFacet.inq fac :), by rw [fac, wp]⟩

section
variable (fifo : m.mode = 1) (head : s.mtHead t f 5 = some k)
include mode runs area fifo head
theorem fifoPush_null (null : k.kind = 1) : exec (.fifoPush t f) s = .next (s.mtTaking t f 5 id) := by
  rw [exec_fifoPush, execFifoPush]
  simp only [mode, head, runs, area, fifo, null, kNull, beq_self_eq_true, decide_true, Bool.and_self, Bool.not_true, Bool.false_eq_true,
    if_false, if_true]
variable (data : k.kind ≠ 1)
include data
theorem fifoPush_full (full : s.mem.isFull (8 * areaWord t m ((s.mt t).fac f).wp) = true) : exec (.fifoPush t f) s = .next s := by
  rw [exec_fifoPush, execFifoPush]
  simp only [mode, head, runs, area, fifo, data, full, kNull, beq_self_eq_true, decide_true, Bool.and_self, Bool.not_true, Bool.false_eq_true,
    Bool.true_or, if_false, if_true]
include room
theorem fifoPush_empty (empty : s.mem.isFull (8 * areaWord t m ((s.mt t).fac f).wp) = false)
    (free : s.isHeld (areaWord t m ((s.mt t).fac f).wp) = false) : exec (.fifoPush t f) s =
      .next (s.inTurn (portTurn t f.val) (accessOf [areaWord t m ((s.mt t).fac f).wp]) fun s' => s'.mtTaking t f 5 fun s' =>
        (s'.fillArea t f m ((s.mt t).fac f).wp k.payload.toNat k.poison).stepWp t f m) := by
  rw [exec_fifoPush, execFifoPush]
  simp only [mode, head, runs, area, fifo, data, empty, free, room, kNull, beq_self_eq_true, decide_true, Bool.and_self, Bool.not_true,
    Bool.false_eq_true, Bool.or_self, if_false]
  rfl
end

section
variable (fifo : m.mode = 1) (out : s.mtRoom t 5 = true) (free : s.isHeld (areaWord t m ((s.mt t).fac f).rp) = false)
include mode
theorem fifoPop_empty (empty : s.mem.isFull (8 * areaWord t m ((s.mt t).fac f).rp) = false) : exec (.fifoPop t f) s = .next s := by
  rw [exec_fifoPop, execFifoPop]
  simp only [mode, empty, Bool.and_false, Bool.false_and, Bool.not_false, if_true]
/-- The word leaves as a data token and becomes empty, and RP moves on. -/
def State.popArea (s : State) (t : Tile) (f : Facet) (m : MtMode) (i : Nat) : State :=
  ((s.mtSend t 5 (mkTok f kData false false false (s.mem.isPoison (8 * areaWord t m i)) (s.mem.read (8 * areaWord t m i) 8)) []).mtTag t f
    (areaWord t m i - mtBase t / 8) false).modMtFac t f fun x => { x with rp := (x.rp + 1) % m.msize }
include runs area room fifo out free
theorem fifoPop_full (full : s.mem.isFull (8 * areaWord t m ((s.mt t).fac f).rp) = true) : exec (.fifoPop t f) s =
    .next (s.inTurn (portTurn t (4 + f.val)) (accessOf [areaWord t m ((s.mt t).fac f).rp]) fun s' =>
      s'.popArea t f m ((s.mt t).fac f).rp) := by
  rw [exec_fifoPop, execFifoPop]
  simp only [mode, runs, area, fifo, full, free, room, out, beq_self_eq_true, decide_true, Bool.and_self, Bool.not_true, Bool.not_false,
    Bool.false_eq_true, if_false]
  rfl
end

section
variable (line : m.mode = 2) (width : 0 < m.bufw) (head : s.mtHead t f 5 = some k)
  (free : s.isHeld (areaWord t m ((s.mt t).fac f).wp) = false)
  (open_ : s.mem.isFull (8 * areaWord t m (((s.mt t).fac f).wp / m.bufw * m.bufw + m.bufw - 1)) = false)
include mode runs area room line width head free open_
theorem lineInput_null (null : k.kind = 1) : exec (.lineInput t f) s = .next (s.mtTaking t f 5 fun s => s.stepWp t f m) := by
  rw [exec_lineInput, execLineInput]
  simp only [mode, head, runs, area, line, width, free, open_, room, null, kNull, Nat.max_eq_right (show 1 ≤ m.bufw from width),
    beq_self_eq_true, decide_true, Bool.and_self, Bool.not_true, Bool.not_false, Bool.false_eq_true, if_false, if_true]
  rfl
theorem lineInput_data (data : k.kind ≠ 1) : exec (.lineInput t f) s =
    .next (s.inTurn (portTurn t f.val) (accessOf [areaWord t m ((s.mt t).fac f).wp]) fun s' => s'.mtTaking t f 5 fun s' =>
      (if areaWord t m ((s.mt t).fac f).wp = areaWord t m (((s.mt t).fac f).wp / m.bufw * m.bufw + m.bufw - 1) then
        s'.fillArea t f m ((s.mt t).fac f).wp k.payload.toNat k.poison
      else s'.putArea t f m ((s.mt t).fac f).wp k.payload.toNat k.poison).stepWp t f m) := by
  rw [exec_lineInput, execLineInput]
  simp only [mode, head, runs, area, line, width, free, open_, room, data, kNull, Nat.max_eq_right (show 1 ≤ m.bufw from width),
    beq_self_eq_true, decide_true, Bool.and_self, Bool.not_true, Bool.not_false, Bool.false_eq_true, if_false]
  rfl
end
end

section
variable {s : State} {t : Tile} {f : Facet} (m : MtMode) (i : Nat) (wf : s.mem.wf = true)
include wf
/-- A word that a port fills holds its number and is full; every other byte and tag stays, and the ports as well. -/
theorem State.fillArea_word (x : Nat) (p : Bool) :
    let s' := s.fillArea t f m i x p
    Holds s'.mem (8 * areaWord t m i) 8 x ∧
      (∀ a, ¬(8 * areaWord t m i ≤ a ∧ a < 8 * areaWord t m i + 8) → s'.mem.byte a = s.mem.byte a) ∧
      (∀ a, s'.mem.isFull a = if a / 8 = areaWord t m i then true else s.mem.isFull a) ∧
      (s.mem.bad = [] → s'.mem.isPoison (8 * areaWord t m i) = p) ∧ PortsStay s s' t f := by
  intro s'
  have filled : s' = _ := s.fillArea_eq t f m i x p
  have mem : s'.mem = if (s.mem.putWord (areaWord t m i) x p).isFull (8 * areaWord t m i) = true then s.mem.putWord (areaWord t m i) x p
      else (s.mem.putWord (areaWord t m i) x p).setFull (8 * areaWord t m i) true := by
    rw [filled, State.setTag_tags, State.putArea_mem]
  have byte (a : Nat) : s'.mem.byte a = (s.mem.putWord (areaWord t m i) x p).byte a := by
    rw [mem]
    split <;> rfl
  have poison : s'.mem.isPoison (8 * areaWord t m i) = (s.mem.putWord (areaWord t m i) x p).isPoison (8 * areaWord t m i) := by
    rw [mem]
    split <;> rfl
  refine ⟨fun j hj => ?_, fun a outside => ?_, fun a => ?_, fun sound => ?_, ?_⟩
  · rw [byte]
    exact Memory.putWord_holds _ _ _ wf j hj
  · rw [byte, Memory.putWord_byte _ _ _ outside]
  · rw [mem, Memory.isFull_tagged (Memory.putWord_wf _ _ _ wf), Memory.putWord_isFull]
  · rw [poison, Memory.putWord_isPoison _ _ _ wf sound]
  · rw [filled]
    exact (s.putArea_ports t f m i x p).trans (State.setTag_ports _ _ _ _ _ _ _ (.inl rfl))
omit wf in
/-- A word that a port takes leaves with its number and its poison mark; it becomes empty and its bytes stay. -/
theorem State.popArea_word (mode : s.mtMode t f = some m) (fifo : m.mode = 1) (full : s.mem.isFull (8 * areaWord t m i) = true) :
    let s' := s.popArea t f m i
    (s'.mt t).outq.get 5 = (s.mt t).outq.get 5 ++
      [⟨mkTok f kData false false false (s.mem.isPoison (8 * areaWord t m i)) (s.mem.read (8 * areaWord t m i) 8), s.cycle, []⟩] ∧
    s'.mem = s.mem.setFull (8 * areaWord t m i) false ∧ ((s'.mt t).fac f).rp = (((s.mt t).fac f).rp + 1) % m.msize := by
  generalize tok : mkTok f kData false false false (s.mem.isPoison (8 * areaWord t m i)) (s.mem.read (8 * areaWord t m i) 8) = k
  let sent := s.mtSend t 5 k []
  have outq : (sent.mt t).outq = vmod (s.mt t).outq 5 (· ++ [⟨k, s.cycle, []⟩]) := by
    rw [show sent = s.modMt t _ from rfl, State.modMt_mt_same]
  have fac : (sent.mt t).fac f = (s.mt t).fac f := by
    rw [show sent = s.modMt t _ from rfl, State.modMt_mt_same]
    rfl
  have emptied : sent.mtTag t f (areaWord t m i - mtBase t / 8) false =
      (sent.logMt t f (areaWord t m i)).setTag (areaWord t m i) false f (sent.regionOf t) := by
    simp only [State.mtTag, mtBase_areaWord_div]
    exact if_neg (by rw [show sent.mem = s.mem from rfl, full]; decide)
  have ports : PortsStay sent (sent.mtTag t f (areaWord t m i - mtBase t / 8) false) t f := by
    have logged := sent.logMt_ports t t f f (areaWord t m i)
    have same : (sent.logMt t f (areaWord t m i)).mtMode t f = some m := logged.mode.trans ((congrArg MtFacet.mode fac).trans mode)
    rw [emptied]
    exact logged.trans (State.setTag_ports _ _ _ _ _ _ _ (.inr ⟨m, same, by omega⟩))
  have popped : s.popArea t f m i = (sent.mtTag t f (areaWord t m i - mtBase t / 8) false).modMtFac t f fun x =>
      { x with rp := (x.rp + 1) % m.msize } := by
    rw [State.popArea, tok]
  intro s'
  have eq : s' = _ := popped
  refine ⟨?_, ?_, ?_⟩
  · rw [eq, State.modMtFac_mt_same, show (MemTile.modFac _ _ _).outq = _ from ports.outq, outq]
    exact vget_vmod_same ..
  · rw [eq, State.modMtFac_mem, emptied, State.setTag_tags, State.logMt_mem, show sent.mem = s.mem from rfl, if_neg (by simp [full])]
  · rw [eq, State.modMtFac_mt_same, MemTile.modFac_fac_same, ports.fac, fac]
end

/-- A word's bytes are a number of 64 bits (R4). -/
theorem Memory.read_lt (m : Memory) (pa : Nat) : m.read pa 8 < 2 ^ 64 := by
  have := ofBytes_lt ((List.range 8).map fun i => m.byte (pa + i))
  rw [Memory.read_eq_map]
  simpa using this

section
variable {s : State} {t : Tile} {f : Facet} {m : MtMode} {k : Token} (wf : s.mem.wf = true) (mode : s.mtMode t f = some m)
  (runs : s.mtRuns t f = true) (area : 0 < m.msize) (room : s.mtLogRoom t 1 = .ok)
  (quiet : bit ((s.mt t).fac f).recording 5 = false)
include wf mode runs area room quiet

theorem fifoPush_fills (fifo : m.mode = 1) (head : s.mtHead t f 5 = some k) (data : k.kind ≠ 1)
    (free : s.isHeld (areaWord t m ((s.mt t).fac f).wp) = false)
    (empty : s.mem.isFull (8 * areaWord t m ((s.mt t).fac f).wp) = false)
    (turn : (accessOf [areaWord t m ((s.mt t).fac f).wp]).all (s.turns.free (portTurn t f.val)) = true) :
    let pa := 8 * areaWord t m ((s.mt t).fac f).wp
    ∃ s', exec (.fifoPush t f) s = .next s' ∧ TakesHead s s' t f 5 ∧ Holds s'.mem pa 8 k.payload.toNat ∧ s'.mem.isFull pa = true ∧
      (s.mem.bad = [] → s'.mem.isPoison pa = k.poison) ∧ MemoryElsewhere s.mem s'.mem pa 8 ∧
      ((s'.mt t).fac f).wp = (((s.mt t).fac f).wp + 1) % m.msize := by
  have index : 8 * areaWord t m ((s.mt t).fac f).wp / 8 = areaWord t m ((s.mt t).fac f).wp := Nat.mul_div_cancel_left _ (by decide)
  have done := fifoPush_empty mode runs area room fifo head data empty free
  rw [State.inTurn_port turn, State.mtTaking_quiet (by exact quiet)] at done
  have taken : ((s.atPort t f.val (areaWord t m ((s.mt t).fac f).wp)).mtTake t f 5).mem = s.mem := State.mtTake_mem ..
  have word := State.fillArea_word (s := (s.atPort t f.val (areaWord t m ((s.mt t).fac f).wp)).mtTake t f 5) (t := t) (f := f)
    m ((s.mt t).fac f).wp (by rw [taken]; exact wf) k.payload.toNat k.poison
  rw [taken] at word
  obtain ⟨holds, bytes, tags, poison, ports⟩ := word
  obtain ⟨takes, wp⟩ := State.takes_writes (s := s.atPort t f.val (areaWord t m ((s.mt t).fac f).wp)) m head ports
  refine ⟨_, done, takes, ?_⟩
  rw [State.stepWp_mem]
  refine ⟨holds, (tags _).trans (if_pos index), poison, ⟨bytes, fun a other => (tags a).trans (if_neg ?_)⟩, wp⟩
  rwa [index] at other

omit wf room in
theorem fifoPush_drops (fifo : m.mode = 1) (head : s.mtHead t f 5 = some k) (null : k.kind = 1) :
    ∃ s', exec (.fifoPush t f) s = .next s' ∧ TakesHead s s' t f 5 ∧ s'.mem = s.mem ∧ ((s'.mt t).fac f).wp = ((s.mt t).fac f).wp := by
  have done := fifoPush_null mode runs area fifo head null
  rw [State.mtTaking_quiet quiet] at done
  obtain ⟨takes, rest⟩ := State.mtTake_takes head
  exact ⟨_, done, takes, State.mtTake_mem .., (congrArg MtFacet.wp rest :)⟩

omit quiet in
theorem fifoPop_leaves (fifo : m.mode = 1) (out : s.mtRoom t 5 = true) (free : s.isHeld (areaWord t m ((s.mt t).fac f).rp) = false)
    (full : s.mem.isFull (8 * areaWord t m ((s.mt t).fac f).rp) = true)
    (turn : (accessOf [areaWord t m ((s.mt t).fac f).rp]).all (s.turns.free (portTurn t (4 + f.val))) = true) :
    let pa := 8 * areaWord t m ((s.mt t).fac f).rp
    ∃ s' o, exec (.fifoPop t f) s = .next s' ∧ (s'.mt t).outq.get 5 = (s.mt t).outq.get 5 ++ [o] ∧
      o.tok.payload.toNat = s.mem.read pa 8 ∧ o.tok.kind = 0 ∧ o.tok.facet = f ∧ o.tok.poison = s.mem.isPoison pa ∧
      s'.mem.cells = s.mem.cells ∧ s'.mem.isFull pa = false ∧ MemoryElsewhere s.mem s'.mem pa 8 ∧
      ((s'.mt t).fac f).rp = (((s.mt t).fac f).rp + 1) % m.msize := by
  intro pa
  have done := fifoPop_full mode runs area room fifo out free full
  rw [State.inTurn_port turn] at done
  obtain ⟨outq, mem, rp⟩ := State.popArea_word (s := s.atPort t (4 + f.val) (areaWord t m ((s.mt t).fac f).rp)) m
    ((s.mt t).fac f).rp mode fifo full
  obtain ⟨facet, kind, -, -, -, poison⟩ := mkTok_tag f kData false false false (s.mem.isPoison pa) (s.mem.read pa 8)
  have tags (a : Nat) := s.mem.isFull_setFull pa a false wf
  refine ⟨_, _, done, outq, ?_, kind, facet, poison, ?_, ?_, ⟨fun a _ => ?_, fun a other => ?_⟩, rp⟩
  · exact (BitVec.toNat_ofNat ..).trans (Nat.mod_eq_of_lt (s.mem.read_lt pa))
  · exact (congrArg Memory.cells mem :)
  · exact (congrArg (Memory.isFull · pa) mem).trans ((tags pa).trans (if_pos rfl))
  · exact (congrArg (Memory.byte · a) mem :)
  · exact (congrArg (Memory.isFull · a) mem).trans ((tags a).trans (if_neg other))

section
variable (line : m.mode = 2) (width : 0 < m.bufw) (head : s.mtHead t f 5 = some k)
  (free : s.isHeld (areaWord t m ((s.mt t).fac f).wp) = false)
  (open_ : s.mem.isFull (8 * areaWord t m (((s.mt t).fac f).wp / m.bufw * m.bufw + m.bufw - 1)) = false)
include line width head free open_
omit wf in
theorem lineInput_drops (null : k.kind = 1) : ∃ s', exec (.lineInput t f) s = .next s' ∧ TakesHead s s' t f 5 ∧ s'.mem = s.mem ∧
    ((s'.mt t).fac f).wp = (((s.mt t).fac f).wp + 1) % m.msize := by
  have done := lineInput_null mode runs area room line width head free open_ null
  rw [State.mtTaking_quiet quiet] at done
  obtain ⟨takes, wp⟩ := State.takes_writes m head (.refl _ t f)
  exact ⟨_, done, takes, State.mtTake_mem .., wp⟩
theorem lineInput_writes (data : k.kind ≠ 1)
    (turn : (accessOf [areaWord t m ((s.mt t).fac f).wp]).all (s.turns.free (portTurn t f.val)) = true) :
    let wp := ((s.mt t).fac f).wp
    let pa := 8 * areaWord t m wp
    ∃ s', exec (.lineInput t f) s = .next s' ∧ TakesHead s s' t f 5 ∧ Holds s'.mem pa 8 k.payload.toNat ∧
      (∀ a, ¬(pa ≤ a ∧ a < pa + 8) → s'.mem.byte a = s.mem.byte a) ∧
      (∀ a, s'.mem.isFull a = (s.mem.isFull a || (decide (wp = wp / m.bufw * m.bufw + m.bufw - 1) && decide (a / 8 = areaWord t m wp)))) ∧
      ((s'.mt t).fac f).wp = (wp + 1) % m.msize := by
  intro wp pa
  have done := lineInput_data mode runs area room line width head free open_ data
  rw [State.inTurn_port turn, State.mtTaking_quiet (by exact quiet)] at done
  have taken : ((s.atPort t f.val (areaWord t m wp)).mtTake t f 5).mem = s.mem := State.mtTake_mem ..
  have same : areaWord t m wp = areaWord t m (wp / m.bufw * m.bufw + m.bufw - 1) ↔ wp = wp / m.bufw * m.bufw + m.bufw - 1 :=
    ⟨Nat.add_left_cancel, congrArg _⟩
  by_cases last : wp = wp / m.bufw * m.bufw + m.bufw - 1
  · rw [if_pos (same.2 last)] at done
    have word := State.fillArea_word (s := (s.atPort t f.val (areaWord t m wp)).mtTake t f 5) (t := t) (f := f) m wp
      (by rw [taken]; exact wf) k.payload.toNat k.poison
    rw [taken] at word
    obtain ⟨holds, bytes, tags, -, ports⟩ := word
    obtain ⟨takes, next⟩ := State.takes_writes (s := s.atPort t f.val (areaWord t m wp)) m head ports
    refine ⟨_, done, takes, ?_⟩
    rw [State.stepWp_mem]
    refine ⟨holds, bytes, fun a => (tags a).trans ?_, next⟩
    rw [decide_eq_true last, Bool.true_and]
    by_cases here : a / 8 = areaWord t m wp <;> simp [here]
  · rw [if_neg (mt same.1 last)] at done
    have mem := ((s.atPort t f.val (areaWord t m wp)).mtTake t f 5).putArea_mem t f m wp k.payload.toNat k.poison
    rw [taken] at mem
    obtain ⟨takes, next⟩ := State.takes_writes (s := s.atPort t f.val (areaWord t m wp)) m head
      (((s.atPort t f.val (areaWord t m wp)).mtTake t f 5).putArea_ports t f m wp k.payload.toNat k.poison)
    refine ⟨_, done, takes, ?_⟩
    rw [State.stepWp_mem, mem]
    refine ⟨Memory.putWord_holds _ _ _ wf, fun a outside => Memory.putWord_byte _ _ _ outside, fun a => ?_, next⟩
    rw [decide_eq_false last, Bool.false_and, Bool.or_false, Memory.putWord_isFull]
end
end

/-- A port whose bank another requester has only waits (R208). -/
theorem waits_at_bank {i : Instr} {s : State} {who w : Nat} {act : State → State} (done : exec i s = .next (s.inTurn who (accessOf [w]) act))
    (busy : (accessOf [w]).all (s.turns.free who) = false) : ∃ s', exec i s = .next s' ∧ { s' with turns := s.turns } = s := by
  rw [State.inTurn_busy busy] at done
  exact ⟨_, done, rfl⟩

/-- Settles O37: in each mode the port takes its token or its word in its turn at the bank, and waits for the tag or the bank else. -/
theorem memoryTilePorts : Obligations.MemoryTilePorts := by
  intro s t f m k wf mode runs area room quiet wp rp at_ turn
  refine ⟨fun fifo head free => ⟨fifoPush_drops mode runs area quiet fifo head, fun data empty busy => ?_,
      fun data empty first sound => ?_, fun data full => fifoPush_full mode runs area fifo head data full⟩,
    fun fifo free out => ⟨fun full busy => ?_, fun full first => fifoPop_leaves wf mode runs area room fifo out free full first,
      fun empty => fifoPop_empty mode empty⟩, fun line width head free => ?_⟩
  · exact waits_at_bank (fifoPush_empty mode runs area room fifo head data empty free) busy
  · obtain ⟨s', done, takes, holds, full, poison, elsewhere, next⟩ :=
      fifoPush_fills wf mode runs area room quiet fifo head data free empty first
    exact ⟨s', done, takes, holds, full, poison sound, elsewhere, next⟩
  · exact waits_at_bank (fifoPop_full mode runs area room fifo out free full) busy
  · intro last open_
    exact ⟨fun data busy => waits_at_bank (lineInput_data mode runs area room line width head free open_ data) busy,
      fun data first => lineInput_writes wf mode runs area room quiet line width head free open_ data first,
      lineInput_drops mode runs area room quiet line width head free open_⟩

end Sys2Proof.Machine
end
section
/-! SUPPORT. Requests that set out (R241, R243, R378, R388): a head that leaves its outbound queue, and a store that a breakwater takes. -/

namespace Sys2Proof.Machine

/-! Leaving the queue (R241, R243) -/

theorem exec_requestLeave (t : Tile) (f : Facet) (s : State) : exec (.requestLeave t f) s = execRequestLeave t f s := rfl
/-- A facet without lockstep sends its request as it is, with the next number in the order of sending (R388). -/
theorem State.sendReq_unlocked {s : State} {t : Tile} {q : Req} (asks : Bool) (free : s.locked t q.facet = false) :
    s.sendReq t q asks = s.bumpId.setReq (q.sent s.nextId) := by
  have mirror : s.bumpId.isMirror t q.facet = false := State.isMirror_of_unlocked free
  have primary : s.bumpId.isPrimary t q.facet = false := State.isPrimary_of_unlocked free
  unfold State.sendReq
  dsimp only
  rw [mirror, primary]
  split <;> rfl

/-- The head of a queue that nothing holds back leaves it and is sent. -/
theorem requestLeave_sends {s : State} {t : Tile} {f : Facet} {id : Nat} {rest : List Nat} {q : Req}
    (head : ((s.el t).fac f).outbound = id :: rest) (found : s.findReq id = some q) (queued : q.stage = .queued)
    (may : s.mayLeave t f q = true) (free : s.locked t q.facet = false) :
    exec (.requestLeave t f) s =
      .next ((s.modFac t f fun x => { x with outbound := rest }).bumpId.setReq (q.sent s.nextId)) := by
  have sent : (s.modFac t f fun x => { x with outbound := rest }).sendReq t q q.asks = _ := State.sendReq_unlocked q.asks free
  have due : (s.mayLeave t f q && q.stage == .queued) = true := by rw [may, queued]; rfl
  rw [exec_requestLeave, execRequestLeave]
  simp only [head, found]
  rw [when_of_true due, sent]
  rfl

/-! A breakwater takes a store (R378) -/

theorem exec_breakwaterAccept (id : Nat) (s : State) : exec (.breakwaterAccept id) s = execBreakwaterAccept id s := rfl
theorem isLaunch_of_isHbm {pa : Nat} (hbm : isHbm pa = true) : isLaunch pa = false := by
  have below : pa < 2 ^ 39 := of_decide_eq_true hbm
  simp only [isLaunch, Bool.and_eq_false_iff, decide_eq_false_iff_not]
  omega

/-- The entry that a breakwater writes for what a region gives it now. -/
def State.bwEntry (s : State) (r : RegionId) (reach units : Nat) (k : BwKind) : BwEntry :=
  { seq := s.nextId, region := r, reach := reach, at_ := s.cycle, units := units, timed := !(s.rg r).tides, kind := k }
section
variable (s : State) (d : DieId) (r : RegionId) (reach units : Nat) (k : BwKind)
theorem State.bwPut_eq : s.bwPut d r reach units k =
    (s.bumpId.modDie d fun x => { x with bw := x.bw ++ [s.bwEntry r reach units k] }.markLow).syncOcc r := rfl
theorem State.bwPut_bw_same : ((s.bwPut d r reach units k).die d).bw = (s.die d).bw ++ [s.bwEntry r reach units k] := by
  rw [State.bwPut_eq, State.syncOcc, State.modRg_die, State.modDie_die_same]
  rfl
theorem State.bwPut_die_other {e : DieId} (other : e ≠ d) : (s.bwPut d r reach units k).die e = s.die e := by
  rw [State.bwPut_eq, State.syncOcc, State.modRg_die, State.modDie_die_other _ _ _ _ other]
  rfl
theorem State.bwPut_findReq (id : Nat) : (s.bwPut d r reach units k).findReq id = s.findReq id := rfl
end

/-- A store once its breakwater has taken it (R378): without tides it commits by time (R386). -/
def State.taken (s : State) (r : RegionId) (q : Req) : Req :=
  { q with stage := .accepted, arrived := s.cycle, timed := !(s.rg r).tides }
/-- A store to HBM whose turn it is enters the breakwater of its issuer's die where that has room. -/
theorem breakwaterAccept_takes {s : State} {id : Nat} {q : Req} {r : RegionId} (found : s.findReq id = some q) (mine : q.region = some r)
    (under : q.stage = .travelling) (kind : q.bwClass = true) (order : s.inOrder q = true) (plain : q.confirm = false)
    (hbm : isHbm q.addr = true) (room : s.bwRoom q.die r q.reach q.words.length = .ok) :
    exec (.breakwaterAccept id) s =
      .next ((s.setReq (s.taken r q)).bwPut q.die r q.reach q.words.length
        (.store id q.addr (bytesOf q.size q.data) q.gl q.cls q.poison)) := by
  have due : (q.stage == .travelling && q.bwClass && s.inOrder q) = true := by rw [under, kind, order]; rfl
  rw [exec_breakwaterAccept, execBreakwaterAccept]
  simp [found, mine, due, isSys_of_isHbm hbm, isLaunch_of_isHbm hbm, room, plain, State.taken]

/-- Settles O34: without lockstep a head that nothing holds back is sent and leaves its queue, and a store to HBM that finds room goes in
behind the entries of its breakwater. -/
theorem requestsLeave : Obligations.RequestsLeave := by
  refine ⟨fun s t f id rest q head found queued may free => ?_, fun s id q r found mine under kind order plain hbm room => ?_⟩
  · refine ⟨_, q.sent s.nextId, requestLeave_sends head found queued may free, ?_, ?_, rfl, rfl,
      fun u other => State.modFac_el_other s t u f _ other⟩
    · have left : ((s.modFac t f fun x => { x with outbound := rest }).el t).fac f = { (s.el t).fac f with outbound := rest } := by
        rw [State.modFac_el_same, Element.modFac_fac_same]
      exact congrArg FacetEl.outbound left
    · have still : (s.modFac t f fun x => { x with outbound := rest }).bumpId.findReq id = some q := found
      exact State.findReq_setReq still (State.findReq_id found :)
  · refine ⟨_, _, s.taken r q, breakwaterAccept_takes found mine under kind order plain hbm room, State.bwPut_bw_same .., rfl, rfl, rfl, rfl,
      fun d other => State.bwPut_die_other _ _ _ _ _ _ other, ?_, rfl, rfl, rfl, rfl⟩
    rw [State.bwPut_findReq]
    exact State.findReq_setReq found (State.findReq_id found :)

end Sys2Proof.Machine
end

section
/-! SUPPORT. Rollbacks and major faults (R267, R270, R383): a region that may roll back does so whatever its clasps take with it, and no walk of
another requester ends by it. -/
namespace Sys2Proof.Machine

/-! What a rollback takes -/

/-- A rollback may take the region, or has taken it (R383, R385). -/
def Region.mayRollBack (g : Region) : Prop := g.stop = false ∨ g.rollback.isSome = true
/-- What a rollback of a region alone makes of it, the rollback makes that names the region: the members of its clasps are other regions. -/
theorem State.rollback_makes {P Q : Region → Prop} {r : RegionId} (weaken : ∀ g, Q g → P g)
    (one : ∀ s : State, P (s.rg r) → Q ((s.rollbackOne r).rg r)) {s : State} (h : P (s.rg r)) : Q ((s.rollback [r]).rg r) := by
  have named : (s.claspClosure 32 [r.val]).contains r.val = true := List.contains_iff_mem.2 (s.mem_claspClosure 32 _ (List.mem_singleton.2 rfl))
  have step {R : Region → Prop} (all : List Nat) (own : ∀ s : State, R (s.rg r) → R ((s.rollbackOne r).rg r)) (s : State) (q : RegionId)
      (h : R (s.rg r)) : R ((if all.contains q.val then s.rollbackOne q else s).rg r) := by
    split
    · by_cases same : r = q
      · subst same
        exact own s h
      · rwa [State.rollbackOne_other _ same]
    · exact h
  refine foldl_makes (P := fun s => P (s.rg r)) (Q := fun s => Q (s.rg r)) (x := r) (step _ fun s h => weaken _ (one s h))
    (step _ fun s h => one s (weaken _ h)) (fun s h => ?_) (List.finRange 32) s (.inr ⟨List.mem_finRange r, h⟩)
  rw [if_pos (by exact named)]
  exact one s h
theorem Region.abandonSave_rollback (g : Region) : g.abandonSave.rollback = g.rollback := by
  obtain ⟨-, -, same⟩ := g.abandonSave_fields
  exact same
theorem State.beginRollback_rollback (s : State) (r : RegionId) (stop : Bool) : ((s.beginRollback r stop).rg r).rollback.isSome = true := by
  rw [State.beginRollback, State.modRg_rg_same, Region.abandonSave_rollback]
  rfl
theorem State.replayOrStop_rollback (s : State) (r : RegionId) : ((s.replayOrStop r).rg r).rollback.isSome = true := by
  unfold State.replayOrStop
  split
  · exact s.beginRollback_rollback r true
  · split
    · exact State.beginRollback_rollback _ r true
    · rw [State.modRg_rg_same]
      exact s.beginRollback_rollback r false
theorem State.rollbackOne_rollback (s : State) (r : RegionId) (h : (s.rg r).mayRollBack) : ((s.rollbackOne r).rg r).rollback.isSome = true := by
  rcases s.rollbackOne_cases r with ⟨same, stopped | began⟩ | done
  · rw [same]
    exact h.resolve_left (by simp [stopped])
  · rwa [same]
  · rw [done]
    exact s.replayOrStop_rollback r
theorem State.rollback_rollback {s : State} {r : RegionId} (h : (s.rg r).mayRollBack) : ((s.rollback [r]).rg r).rollback.isSome = true :=
  State.rollback_makes (P := Region.mayRollBack) (Q := fun g => g.rollback.isSome = true) (fun _ => .inr) (fun s => s.rollbackOne_rollback r) h

/-! Walks stay -/

/-- A fold whose steps leave a part of the state leaves it. -/
theorem State.foldl_part {α β : Type} (part : State → β) {step : State → α → State} (keep : ∀ s x, part (step s x) = part s) (l : List α)
    (s : State) : part (l.foldl step s) = part s :=
  List.foldlRecOn (motive := fun x => part x = part s) l step rfl fun x same y _ => (keep x y).trans same
theorem State.causeRg_walks (s : State) (r : RegionId) (f : Facet) (c d : Nat) : (s.causeRg r f c d).walks = s.walks :=
  (congrArg State.walks (s.causeRg_frame r f c d) :)
theorem State.abortTile_walks (s : State) (t : Tile) : (s.abortTile t).walks = s.walks := by
  unfold State.abortTile
  split <;> rfl
theorem State.beginRollback_walks (s : State) (r : RegionId) (stop : Bool) : (s.beginRollback r stop).walks = s.walks :=
  State.foldl_part State.walks State.abortTile_walks (s.rg r).tiles s
theorem State.replayOrStop_walks (s : State) (r : RegionId) : (s.replayOrStop r).walks = s.walks := by
  unfold State.replayOrStop
  split
  · exact s.beginRollback_walks r true
  · split
    · rw [State.beginRollback_walks, State.causeRg_walks]
    · exact s.beginRollback_walks r false
theorem State.rollbackOne_walks (s : State) (r : RegionId) : (s.rollbackOne r).walks = s.walks := by
  rcases s.rollbackOne_cases r with ⟨same, -⟩ | done
  · rw [same]
  · rw [done, State.replayOrStop_walks]
theorem State.rollback_walks (s : State) (rs : List RegionId) : (s.rollback rs).walks = s.walks := by
  refine State.foldl_part State.walks (fun s r => ?_) (List.finRange 32) s
  split
  · exact s.rollbackOne_walks r
  · rfl

/-! Upcalls (R270) -/

/-- What the delivery of upcalls leaves: the walks, and whether a region has been taken by a rollback. -/
structure UpcallKeeps (s s' : State) : Prop where
  walks : s'.walks = s.walks
  rollback : ∀ q, (s'.rg q).rollback = (s.rg q).rollback
theorem UpcallKeeps.trans {a b c : State} (h : UpcallKeeps a b) (k : UpcallKeeps b c) : UpcallKeeps a c :=
  ⟨k.walks.trans h.walks, fun q => (k.rollback q).trans (h.rollback q)⟩
theorem State.modRg_upcallKeeps (s : State) (r : RegionId) (h : Region → Region) (keep : ∀ g, (h g).rollback = g.rollback) :
    UpcallKeeps s (s.modRg r h) := by
  refine ⟨rfl, fun q => ?_⟩
  by_cases same : q = r
  · rw [same, State.modRg_rg_same, keep]
  · rw [State.modRg_rg_other _ _ _ _ same]
theorem State.causeRg_upcallKeeps (s : State) (r : RegionId) (f : Facet) (c d : Nat) : UpcallKeeps s (s.causeRg r f c d) :=
  ⟨s.causeRg_walks r f c d, fun q => (congrArg Region.rollback (s.causeRg_rg r f c d q) :)⟩
theorem State.msix_upcallKeeps (s : State) (v : Nat) : UpcallKeeps s (s.msix v) := ⟨rfl, fun _ => rfl⟩
theorem State.hostSend_upcallKeeps (s : State) (pa : Nat) (bs : List Byte) : UpcallKeeps s (s.hostSend none 0 pa bs false) := by
  unfold State.hostSend
  split
  · exact ⟨rfl, fun _ => rfl⟩
  · exact ⟨rfl, fun _ => rfl⟩
theorem State.deliverUpcall_upcallKeeps (s : State) (r : RegionId) : UpcallKeeps s (s.deliverUpcall r) := by
  have same : UpcallKeeps s s := ⟨rfl, fun _ => rfl⟩
  have done (x : State) (rest : List Upcall) (seq : Nat) :
      UpcallKeeps x (x.modRg r fun g => { g with upcalls := rest, pgr := setFld g.pgr 32 14 seq }) := x.modRg_upcallKeeps r _ fun _ => rfl
  unfold State.deliverUpcall
  dsimp only
  split
  · exact same
  · split
    · split
      · exact (done s _ _).trans (State.modRg_upcallKeeps _ _ _ fun _ => rfl)
      · exact same
    · split
      · split
        · refine UpcallKeeps.trans ?_ (State.msix_upcallKeeps ..)
          refine UpcallKeeps.trans ?_ (State.modRg_upcallKeeps _ _ _ fun _ => rfl)
          exact (s.hostSend_upcallKeeps _ _).trans (done _ _ _)
        · exact same
      · exact (done s _ _).trans (State.causeRg_upcallKeeps ..)

/-- A major fault of a region that runs rolls it back (R267). -/
theorem State.majorFault_rolls {s : State} {r : RegionId} (free : (s.rg r).rollback = none) (runs : (s.rg r).stop = false) (f : Facet)
    (va code kind aff bits : Nat) : let s' := s.majorFault r f va code kind aff bits
    (s'.rg r).rollback.isSome = true ∧ s'.walks = s.walks := by
  have rollback (d : Nat) : ((s.causeRg r f code d).rg r).rollback = none := (congrArg Region.rollback (s.causeRg_rg r f code d r) :).trans free
  have stop (d : Nat) : ((s.causeRg r f code d).rg r).stop = false := (congrArg Region.stop (s.causeRg_rg r f code d r) :).trans runs
  have eq : ∃ (d : Nat) (h : Region → Region), s.majorFault r f va code kind aff bits =
      (((s.causeRg r f code d).rollback [r]).modRg r h).deliverUpcall r ∧ ∀ g, (h g).rollback = g.rollback := by
    simp only [State.majorFault, free, rollback, Option.isNone_none, Bool.not_true, Bool.and_false, Bool.false_eq_true, if_false, if_true]
    exact ⟨_, _, rfl, fun _ => rfl⟩
  obtain ⟨d, h, eq, keep⟩ := eq
  obtain ⟨walks, same⟩ := (((s.causeRg r f code d).rollback [r]).modRg_upcallKeeps r h keep).trans (State.deliverUpcall_upcallKeeps _ r)
  rw [eq]
  exact ⟨by rw [same]; exact State.rollback_rollback (.inl (stop d)),
    walks.trans ((State.rollback_walks ..).trans (s.causeRg_walks ..))⟩

end Sys2Proof.Machine
end

section
/-! SUPPORT. The ends of table walks (R262 to R269). -/
namespace Sys2Proof.Machine

theorem exec_tableWalkComplete (id : Nat) (s : State) : exec (.tableWalkComplete id) s = execTableWalkComplete id s := rfl
theorem exec_migrationTimeout (id : Nat) (s : State) : exec (.migrationTimeout id) s = execMigrationTimeout id s := rfl

/-- Entries in which no bit has flipped are read without a report (R216). -/
theorem State.noteWalk_sound {s : State} (sound : s.mem.bad = []) (r : RegionId) (f : Facet) (va : Nat) : s.noteWalk r f va = s := by
  rw [State.noteWalk, sound]
  exact if_neg (by simp)
/-- No walk has the id of the walk that has ended. -/
theorem State.delWalk_gone (s : State) (id : Nat) : (s.delWalk id).walks.all (fun x => x.id != id) = true := by
  simp [State.delWalk]
theorem State.delWalk_commitDue {s : State} {r : RegionId} (id : Nat) (due : s.commitDue r = none) : (s.delWalk id).commitDue r = none := by
  have ready : (s.delWalk id).commitReady = s.commitReady := rfl
  have members : (s.delWalk id).commitSet = s.commitSet := rfl
  unfold State.commitDue at due ⊢
  rw [ready, members, show (s.delWalk id).rg r = s.rg r from rfl]
  split at due
  · rfl
  · dsimp only at due ⊢
    split at due
    · cases due
    next wait => exact if_neg wait
/-- What a fault at the end of a walk does: the walk is over, and its region rolls back. -/
def State.walkFault (s : State) (w : Walk) (code kind aff bits : Nat) : State :=
  ((s.delWalk w.id).commitFirst w.region).majorFault w.region w.facet w.va code kind aff bits
theorem State.walkFault_rolls {s : State} {w : Walk} (due : s.commitDue w.region = none) (free : (s.rg w.region).rollback = none)
    (runs : (s.rg w.region).stop = false) (code kind aff bits : Nat) : let s' := s.walkFault w code kind aff bits
    (s'.rg w.region).rollback.isSome = true ∧ s'.walks.all (fun x => x.id != w.id) = true := by
  have first : (s.delWalk w.id).commitFirst w.region = s.delWalk w.id := by rw [State.commitFirst, State.delWalk_commitDue w.id due]; rfl
  obtain ⟨rolled, walks⟩ := State.majorFault_rolls (s := s.delWalk w.id) free runs w.facet w.va code kind aff bits
  intro s'
  have eq : s' = _ := congrArg (State.majorFault · w.region w.facet w.va code kind aff bits) first
  rw [eq, walks]
  exact ⟨rolled, s.delWalk_gone w.id⟩

section
variable {s : State} {id : Nat} {w : Walk} (found : s.walks.find? (fun w => w.id == id) = some w)
include found
theorem walk_id_of_found : w.id = id := by simpa using List.find?_some (p := fun w : Walk => w.id == id) found

section
variable (sound : s.mem.bad = []) (awake : w.held = none) (pending : w.result = none)
include sound awake pending
theorem tableWalkComplete_leaf {l : Leaf} (out : s.walk w.region w.va = .leaf l) : exec (.tableWalkComplete id) s =
    .next (if permOk l.word w.need then s.walkLeaf w l else s.walkRefuse w causePermission) := by
  simp only [exec_tableWalkComplete, execTableWalkComplete, found, out, awake, pending, State.noteWalk_sound sound]
  rfl
theorem tableWalkComplete_refuse {c : Nat} (out : s.walk w.region w.va = .refuse c) : exec (.tableWalkComplete id) s =
    .next (s.walkRefuse w c) := by
  simp only [exec_tableWalkComplete, execTableWalkComplete, found, out, awake, pending, State.noteWalk_sound sound]
  rfl
theorem tableWalkComplete_hold (out : s.walk w.region w.va = .hold) : exec (.tableWalkComplete id) s =
    .next { s with walks := s.walks.map fun x => if x.id = id then { x with held := some (s.die w.die).time } else x } := by
  simp only [exec_tableWalkComplete, execTableWalkComplete, found, out, awake, pending, State.noteWalk_sound sound]
  rfl
theorem tableWalkComplete_major {aff bits : Nat} (out : s.walk w.region w.va = .major aff bits) (wanted : s.walkWanted w = true) :
    exec (.tableWalkComplete id) s = .next (s.walkFault w causePageFault 0 aff bits) := by
  obtain rfl := walk_id_of_found found
  simp only [exec_tableWalkComplete, execTableWalkComplete, found, out, awake, pending, State.noteWalk_sound sound, wanted, if_true]
  rfl
end

section
variable {t0 : Nat} (held : w.held = some t0)
include held
theorem migrationTimeout_early (early : (s.die w.die).time < t0 + 1024000) : exec (.migrationTimeout id) s = .next s := by
  simp only [exec_migrationTimeout, execMigrationTimeout, found, held]
  exact if_neg (Nat.not_le.2 early)
theorem migrationTimeout_late (late : t0 + 1024000 ≤ (s.die w.die).time) (wanted : s.walkWanted w = true) :
    ∃ aff bits, exec (.migrationTimeout id) s = .next (s.walkFault w causeMigration 2 aff bits) := by
  obtain rfl := walk_id_of_found found
  let aff := s.affFrom w.va 4 (fld (s.rg w.region).trr 13 39 * 2 ^ 13)
  refine ⟨aff.1, aff.2, ?_⟩
  simp only [exec_migrationTimeout, execMigrationTimeout, found, held, late, wanted, if_true]
  rfl
end
end

/-! Walks of an element (R265, R266, R267) -/

section
variable {s : State} {w : Walk} {t : Tile} {a : Act} (elem : w.for_ = .elem t) (act : (s.el t).act = some a) (waits : a.wait = .walk w.id)
include elem act waits
theorem State.walkLeaf_elem (l : Leaf) : s.walkLeaf w l =
    ((s.delWalk w.id).modDie w.die fun d => { d with tlb := tlbInsert d.tlb l }).setAct t { a with wait := .none } := by
  simp only [State.walkLeaf, elem, State.modDie_el, show (s.delWalk w.id).el t = s.el t from rfl, act, waits, if_true]
theorem State.walkRefuse_elem (c : Nat) : s.walkRefuse w c = (s.delWalk w.id).trap t a c (BitVec.ofNat 64 w.va) := by
  simp only [State.walkRefuse, elem, show (s.delWalk w.id).el t = s.el t from rfl, act, waits, if_true]
/-- A leaf fills the edge TLB of the walk's die, and the access goes on. -/
theorem State.walkLeaf_fills (l : Leaf) : let s' := s.walkLeaf w l
    (s'.el t).act = some { a with wait := .none } ∧ (s'.die w.die).tlb.head? = some l ∧ s'.walks.all (fun x => x.id != w.id) = true ∧
      s'.mem = s.mem ∧ (∀ u : Tile, u.key ≠ t.key → s'.el u = s.el u) := by
  intro s'
  have eq : s' = _ := State.walkLeaf_elem elem act waits l
  have tlb : (s'.die w.die).tlb = tlbInsert (s.die w.die).tlb l := by
    rw [eq, State.setAct_die, State.modDie_die_same]
    rfl
  refine ⟨?_, by rw [tlb]; rfl, by rw [eq]; exact s.delWalk_gone w.id, by rw [eq]; rfl, fun u other => ?_⟩
  · rw [eq]
    exact (congrArg Element.act (State.modEl_el_same ..) :)
  · rw [eq]
    exact State.modEl_el_other _ t u _ other
end

/-- The end of a walk for an element, of a hold, of a page fault, and of a hold that has lasted too long. -/
theorem walkEnds : WalkEnds := by
  intro s id w found sound
  obtain rfl := walk_id_of_found found
  refine ⟨fun t a elem act waits awake pending => ⟨fun l out allowed => ?leaf, fun c out code => ?refuse⟩, fun out awake pending => ?hold,
    fun ⟨aff, bits, out⟩ due awake pending wanted free runs => ?fault,
    fun t0 held => ⟨migrationTimeout_early found held, fun late wanted due free runs => ?timeout⟩⟩
  case leaf =>
    have done := tableWalkComplete_leaf found sound awake pending out
    rw [if_pos allowed] at done
    exact ⟨_, done, State.walkLeaf_fills elem act waits l⟩
  case refuse =>
    have done : exec (.tableWalkComplete w.id) s = .next (s.walkRefuse w c) := by
      rcases out with out | ⟨l, out, denied, rfl⟩
      · exact tableWalkComplete_refuse found sound awake pending out
      · rw [tableWalkComplete_leaf found sound awake pending out, denied]
        rfl
    rw [State.walkRefuse_elem elem act waits] at done
    have trap := (s.delWalk w.id).trap_trapped t a (BitVec.ofNat 64 w.va) code
    exact ⟨_, done, trap.ended, trap.code_, trap.haddr, trap.trapped, trap.mem⟩
  case hold =>
    exact ⟨_, tableWalkComplete_hold found sound awake pending out, rfl, List.mem_map.2 ⟨w, List.mem_of_find?_eq_some found, if_pos rfl⟩⟩
  case fault => exact ⟨_, tableWalkComplete_major found sound awake pending out wanted, State.walkFault_rolls due free runs ..⟩
  case timeout =>
    obtain ⟨aff, bits, done⟩ := migrationTimeout_late found held late wanted
    exact ⟨_, done, State.walkFault_rolls due free runs ..⟩

end Sys2Proof.Machine
end

section
/-! SUPPORT. The commands of a die (R273): the entries that leave the edge TLBs, the walks and completion words that a wake restarts, and the
end of a command. -/
namespace Sys2Proof.Machine

theorem exec_trcmdInvalidateRange (d : DieId) (v : Word) (s : State) : exec (.trcmdInvalidateRange d v) s = execTrcmdInvalidateRange d v s := rfl
theorem exec_trcmdInvalidateAsid (d : DieId) (v : Word) (s : State) : exec (.trcmdInvalidateAsid d v) s = execTrcmdInvalidateAsid d v s := rfl
theorem exec_trcmdWake (d : DieId) (v : Word) (s : State) : exec (.trcmdWake d v) s = execTrcmdWake d v s := rfl
theorem exec_trcmdComplete (d : DieId) (s : State) : exec (.trcmdComplete d) s = execTrcmdComplete d s := rfl

section
variable {s : State} {d : DieId} {v : Word}
/-- A command that comes while the die is BUSY is ignored. -/
theorem trcmd_busy (busy : bit (s.die d).trcmd 3 = true) : exec (.trcmdInvalidateRange d v) s = .next s ∧
    exec (.trcmdInvalidateAsid d v) s = .next s ∧ exec (.trcmdWake d v) s = .next s := by
  have closed : s.trFree d v = false := by rw [State.trFree, busy, Bool.not_true, Bool.and_false]
  rw [exec_trcmdInvalidateRange, exec_trcmdInvalidateAsid, exec_trcmdWake, execTrcmdInvalidateRange, execTrcmdInvalidateAsid, execTrcmdWake, closed]
  exact ⟨rfl, rfl, rfl⟩

section
variable (idle : bit (s.die d).trcmd 3 = false) (go : bit v 2 = true)
include idle go
theorem State.trFree_idle : s.trFree d v = true := by rw [State.trFree, idle, go]; rfl
theorem trcmdInvalidateRange_go (op : fld v 0 2 = 0) (size : fld v 56 6 ≤ 40) : exec (.trcmdInvalidateRange d v) s =
    .next ((s.trBusy d v).invalidate (trDies d v) (trAsid v) (rangesMeet (trLo v) (trLen v))) := by
  rw [exec_trcmdInvalidateRange, execTrcmdInvalidateRange, when_of_true (by rw [State.trFree_idle idle go, op]; rfl), State.trRange, if_pos size]
theorem trcmdInvalidateAsid_go (op : fld v 0 2 = 1) : exec (.trcmdInvalidateAsid d v) s = .next (s.trAsidAll d v) := by
  rw [exec_trcmdInvalidateAsid, execTrcmdInvalidateAsid, when_of_true (by rw [State.trFree_idle idle go, op]; rfl)]
theorem trcmdWake_go (op : fld v 0 2 = 2) : exec (.trcmdWake d v) s = .next (s.trWake d v) := by
  rw [exec_trcmdWake, execTrcmdWake, when_of_true (by rw [State.trFree_idle idle go, op]; rfl)]
end
end

/-! Acceptance -/

section
variable (s : State) (d e : DieId) (v : Word)
theorem State.trBusy_die : (s.trBusy d v).die e = { s.die e with trcmd := ((s.trBusy d v).die e).trcmd } := by
  by_cases same : e = d
  · rw [same, State.trBusy, State.modDie_die_same]
  · rw [State.trBusy, State.modDie_die_other _ _ _ _ same]
theorem State.trBusy_busy : bit ((s.trBusy d v).die d).trcmd 3 = true := by
  rw [State.trBusy, State.modDie_die_same]
  exact bit_setBit_same _ _ _ (by decide)
theorem State.trBusy_tlb : ((s.trBusy d v).die e).tlb = (s.die e).tlb := by rw [State.trBusy_die]
theorem State.trBusy_time : ((s.trBusy d v).die e).time = (s.die e).time := by rw [State.trBusy_die]
end

/-! Invalidations -/

/-- The entries of an ASID that a predicate names leave a die's edge TLB. -/
def Die.dropLeaves (asid : Nat) (hit : Nat → Nat → Bool) (x : Die) : Die :=
  { x with tlb := x.tlb.filter fun l => !(l.asid == asid && hit l.va (2 ^ l.bits)) }
section
variable (s : State) (ds : List DieId) (asid : Nat) (hit : Nat → Nat → Bool) (e : DieId)
theorem State.invalidate_die : (s.invalidate ds asid hit).die e = if e ∈ ds then (s.die e).dropLeaves asid hit else s.die e :=
  State.foldl_modDie_die (h := Die.dropLeaves asid hit) (fun x => by simp [Die.dropLeaves, List.filter_filter]) ds s e
theorem State.invalidate_trcmd : ((s.invalidate ds asid hit).die e).trcmd = (s.die e).trcmd := by
  rw [State.invalidate_die]
  split <;> rfl
theorem State.mem_invalidate_tlb (l : Leaf) : l ∈ ((s.invalidate ds asid hit).die e).tlb ↔
    l ∈ (s.die e).tlb ∧ ¬(e ∈ ds ∧ l.asid = asid ∧ hit l.va (2 ^ l.bits) = true) := by
  rw [State.invalidate_die]
  split
  next named => simp [Die.dropLeaves, named, imp_iff_not_or]
  next unnamed => simp [unnamed]
end
/-- An invalidation that a die accepts: BUSY is set, and the entries that it names leave the edge TLBs of the dies that it names. -/
theorem State.trBusy_invalidate (s : State) (d : DieId) (v : Word) (ds : List DieId) (asid : Nat) (hit : Nat → Nat → Bool) :
    let s' := (s.trBusy d v).invalidate ds asid hit
    bit (s'.die d).trcmd 3 = true ∧ s'.mem = s.mem ∧
      ∀ e l, l ∈ (s'.die e).tlb ↔ l ∈ (s.die e).tlb ∧ ¬(e ∈ ds ∧ l.asid = asid ∧ hit l.va (2 ^ l.bits) = true) := by
  refine ⟨?_, (State.invalidate_mem ..).trans (State.trBusy_mem ..), fun e l => ?_⟩
  · rw [State.invalidate_trcmd, State.trBusy_busy]
  · rw [State.mem_invalidate_tlb, State.trBusy_tlb]

/-! Wakes (R269, R276) -/

/-- A wake names an address of a region. -/
def State.wakeNames (s : State) (v : Word) (r : RegionId) (va : Nat) : Bool :=
  bit v 5 || (fld (s.rg r).trr 52 4 == trAsid v && rangesMeet (trLo v) (trLen v) va 1)
theorem State.wakeNames_all (s : State) {v : Word} (all : bit v 5 = true) (r : RegionId) (va : Nat) : s.wakeNames v r va = true := by
  rw [State.wakeNames, all, Bool.true_or]
/-- A completion word restarts where its region's corner is on a die that the command names, it has been held since an earlier time, and its
address is named. -/
def CwStore.woken (there : Bool) (time : Nat) (named : Nat → Bool) (c : CwStore) : CwStore :=
  if there && c.held.any (fun t => decide (t < time)) && named (c.va % 2 ^ 56) then { c with held := none } else c
theorem CwStore.woken_of_free (there : Bool) (time : Nat) (named : Nat → Bool) {c : CwStore} (free : c.held = none) :
    c.woken there time named = c := by simp [CwStore.woken, free]
theorem CwStore.woken_of_held {time t0 : Nat} {named : Nat → Bool} {c : CwStore} (held : c.held = some t0) (earlier : t0 < time)
    (name : named (c.va % 2 ^ 56) = true) : c.woken true time named = { c with held := none } := by
  rw [CwStore.woken, held, name]
  simp [earlier]
theorem CwStore.woken_cases (there : Bool) (time : Nat) (named : Nat → Bool) (c : CwStore) :
    c.woken there time named = c ∨ c.woken there time named = { c with held := none } := by
  unfold CwStore.woken
  split
  · exact .inr rfl
  · exact .inl rfl

/-- A completion word of a list stays in it through a wake, as it was or restarted. -/
theorem CwStore.mem_map_woken {there : Bool} {time : Nat} {named : Nat → Bool} {c : CwStore} {l : List CwStore}
    (h : c ∈ l ∨ { c with held := none } ∈ l) :
    c ∈ l.map (CwStore.woken there time named) ∨ { c with held := none } ∈ l.map (CwStore.woken there time named) := by
  rcases h with mem | mem
  · have image := List.mem_map_of_mem (f := CwStore.woken there time named) mem
    rcases c.woken_cases there time named with same | woken
    · exact .inl (same ▸ image)
    · exact .inr (woken ▸ image)
  · exact .inr (List.mem_map.2 ⟨_, mem, CwStore.woken_of_free _ _ _ rfl⟩)

/-- The completion words of a region after a wake that b has accepted. -/
def State.wakeCw (b : State) (d : DieId) (v : Word) (s : State) (r : RegionId) : State :=
  if (s.rg r).cw.isEmpty then s
  else s.modRg r fun g => { g with cw := g.cw.map (CwStore.woken ((trDies d v).contains (s.rg r).corner.die) (s.die (s.rg r).corner.die).time
    (b.wakeNames v r)) }
/-- The completion words of every region after a wake. It unfolds only where its fold is meant, and not through the 32 regions whenever two
states are compared. -/
@[irreducible] def State.wakeCws (b : State) (d : DieId) (v : Word) : State := (List.finRange 32).foldl (b.wakeCw d v) b
/-- A walk after a wake. -/
def Walk.woken (b : State) (d : DieId) (v : Word) (w : Walk) : Walk :=
  if (trDies d v).contains w.die && (b.wakeCws d v).heldEarlier w && b.wakeNames v w.region w.va then { w with held := none } else w
theorem State.trWake_eq (s : State) (d : DieId) (v : Word) : s.trWake d v =
    { (s.trBusy d v).wakeCws d v with walks := ((s.trBusy d v).wakeCws d v).walks.map (Walk.woken (s.trBusy d v) d v) } := by
  unfold Walk.woken State.wakeCws
  rfl

section
variable (b : State) (d : DieId) (v : Word)
theorem State.wakeCw_frame (s : State) (r : RegionId) : { b.wakeCw d v s r with regions := s.regions } = s := by
  unfold State.wakeCw
  split <;> rfl
theorem State.wakeCw_same (s : State) (r : RegionId) : (b.wakeCw d v s r).rg r = { s.rg r with
    cw := (s.rg r).cw.map (CwStore.woken ((trDies d v).contains (s.rg r).corner.die) (s.die (s.rg r).corner.die).time (b.wakeNames v r)) } := by
  unfold State.wakeCw
  split
  next none_ => rw [List.isEmpty_iff.1 none_, List.map_nil, ← List.isEmpty_iff.1 none_]
  · rw [State.modRg_rg_same]
theorem State.wakeCw_other (s : State) {r q : RegionId} (h : q ≠ r) : (b.wakeCw d v s r).rg q = s.rg q := by
  unfold State.wakeCw
  split
  · rfl
  · exact s.modRg_rg_other r q _ h
theorem State.wakeCws_dies : (b.wakeCws d v).dies = b.dies := by
  unfold State.wakeCws
  exact State.foldl_part (step := b.wakeCw d v) State.dies (fun s r => (congrArg State.dies (b.wakeCw_frame d v s r) :)) _ b
theorem State.wakeCws_walks : (b.wakeCws d v).walks = b.walks := by
  unfold State.wakeCws
  exact State.foldl_part (step := b.wakeCw d v) State.walks (fun s r => (congrArg State.walks (b.wakeCw_frame d v s r) :)) _ b
theorem State.wakeCws_die (e : DieId) : (b.wakeCws d v).die e = b.die e := by rw [State.die, State.wakeCws_dies, State.die]
/-- Where no completion word is owed, a wake changes none. -/
theorem State.wakeCws_none (owed : ∀ r, (b.rg r).cw = []) : b.wakeCws d v = b := by
  have step (r : RegionId) : b.wakeCw d v b r = b := if_pos (List.isEmpty_iff.2 (owed r))
  unfold State.wakeCws
  induction List.finRange 32 with
  | nil => rfl
  | cons r l ih => rw [List.foldl_cons, step, ih]

variable {b d v} {r : RegionId} {x : CwStore} {t0 : Nat} (owed : x ∈ (b.rg r).cw) (there : (b.rg r).corner.die ∈ trDies d v)
  (held : x.held = some t0) (earlier : t0 < (b.die (b.rg r).corner.die).time) (all : bit v 5 = true)
include owed there held earlier all
/-- A completion word that is named restarts: the steps of the other regions leave it, and its own region's wakes it. -/
theorem State.wakeCws_wakes : { x with held := none } ∈ ((b.wakeCws d v).rg r).cw := by
  have dies (s : State) (q : RegionId) : (b.wakeCw d v s q).dies = s.dies := (congrArg State.dies (b.wakeCw_frame d v s q) :)
  have stays (s : State) (q : RegionId) (h : { x with held := none } ∈ (s.rg r).cw) :
      { x with held := none } ∈ ((b.wakeCw d v s q).rg r).cw := by
    by_cases same : r = q
    · subst same
      rw [State.wakeCw_same]
      exact List.mem_map.2 ⟨_, h, CwStore.woken_of_free _ _ _ rfl⟩
    · rwa [State.wakeCw_other _ _ _ _ same]
  unfold State.wakeCws
  refine foldl_makes (P := fun s => s.dies = b.dies ∧ (s.rg r).corner = (b.rg r).corner ∧
      (x ∈ (s.rg r).cw ∨ { x with held := none } ∈ (s.rg r).cw)) (Q := fun s => { x with held := none } ∈ (s.rg r).cw) (x := r)
    (fun s q ⟨same, corner, mem⟩ => ⟨(dies s q).trans same, ?_⟩) stays (fun s ⟨same, corner, mem⟩ => ?_) (List.finRange 32) b
    (.inr ⟨List.mem_finRange r, rfl, rfl, .inl owed⟩)
  · by_cases own : r = q
    · subst own
      rw [State.wakeCw_same]
      exact ⟨corner, CwStore.mem_map_woken mem⟩
    · rw [State.wakeCw_other _ _ _ _ own]
      exact ⟨corner, mem⟩
  · rcases mem with mem | mem
    · have time : t0 < (s.die (s.rg r).corner.die).time := by
        rw [corner, State.die, same]
        exact earlier
      rw [State.wakeCw_same, corner, List.contains_iff_mem.2 there, ← corner]
      exact List.mem_map.2 ⟨x, mem, CwStore.woken_of_held held time (b.wakeNames_all all r _)⟩
    · exact stays s r mem
end

/-- Walks are held since an earlier time by the times of their dies alone. -/
theorem State.heldEarlier_congr {s s' : State} (time : ∀ e, (s'.die e).time = (s.die e).time) (w : Walk) :
    s'.heldEarlier w = s.heldEarlier w := by rw [State.heldEarlier, State.heldEarlier, time]

section
variable (s : State) (d : DieId) (v : Word)
theorem State.trWake_die (e : DieId) : (s.trWake d v).die e = (s.trBusy d v).die e := by
  rw [State.trWake_eq]
  exact State.wakeCws_die (s.trBusy d v) d v e
theorem State.trWake_only_walks (owed : ∀ r, (s.rg r).cw = []) : { s.trWake d v with dies := s.dies, walks := s.walks } = s := by
  rw [State.trWake_eq, State.wakeCws_none (s.trBusy d v) d v owed]
  rfl
variable {s d v} (all : bit v 5 = true)
include all
/-- A walk that a wake names restarts. -/
theorem State.trWake_walk {w : Walk} (mem : w ∈ s.walks) (named : w.die ∈ trDies d v) (earlier : s.heldEarlier w = true) :
    { w with held := none } ∈ (s.trWake d v).walks := by
  have walks : ((s.trBusy d v).wakeCws d v).walks = s.walks := State.wakeCws_walks ..
  have still : ((s.trBusy d v).wakeCws d v).heldEarlier w = true :=
    (State.heldEarlier_congr (fun e => by rw [State.wakeCws_die, State.trBusy_time]) w).trans earlier
  rw [State.trWake_eq, walks]
  refine List.mem_map.2 ⟨w, mem, if_pos ?_⟩
  rw [List.contains_iff_mem.2 named, still, State.wakeNames_all _ all]
  rfl
end

/-! The end of a command -/

/-- A die is ready for another command. -/
def Die.endCmd (x : Die) : Die := { x with trcmd := setBit x.trcmd 3 false }
section
variable {s : State} {d : DieId} (busy : bit (s.die d).trcmd 3 = true)
include busy
theorem trcmdComplete_ends : ∃ s', exec (.trcmdComplete d) s = .next s' ∧ bit (s'.die d).trcmd 3 = false ∧
    (∀ i, i ≠ 3 → bit (s'.die d).trcmd i = bit (s.die d).trcmd i) ∧ { s' with dies := s.dies, mts := s.mts } = s := by
  have done : ∃ mts, exec (.trcmdComplete d) s = .next { s.modDie d Die.endCmd with mts := mts } := by
    rw [exec_trcmdComplete, execTrcmdComplete, when_of_true busy]
    exact ⟨_, rfl⟩
  obtain ⟨mts, done⟩ := done
  have trcmd : (({ s.modDie d Die.endCmd with mts := mts } : State).die d).trcmd = setBit (s.die d).trcmd 3 false :=
    (congrArg Die.trcmd (s.modDie_die_same d Die.endCmd) :)
  refine ⟨_, done, ?_, fun i other => ?_, rfl⟩
  · rw [trcmd, bit_setBit_same _ _ _ (by decide)]
  · rw [trcmd, bit_setBit_other _ _ _ _ other]
end

end Sys2Proof.Machine
end

section
/-! SUPPORT. Pins, cancels, tables and pagers (R221, R224, R257, R271, R274). -/
namespace Sys2Proof.Machine

theorem exec_pinQuery (d : DieId) (v : Word) (s : State) : exec (.pinQuery d v) s = execPinQuery d v s := rfl
theorem exec_pinQueryComplete (d : DieId) (s : State) : exec (.pinQueryComplete d) s = execPinQueryComplete d s := rfl
theorem exec_mccanCancel (d : DieId) (v : Word) (s : State) : exec (.mccanCancel d v) s = execMccanCancel d v s := rfl
theorem exec_mccanComplete (d : DieId) (s : State) : exec (.mccanComplete d) s = execMccanComplete d s := rfl
theorem exec_rgtrrWrite (r : RegionId) (v : Word) (s : State) : exec (.rgtrrWrite r v) s = execRgtrrWrite r v s := rfl
theorem exec_rearm (r : RegionId) (s : State) : exec (.rearm r) s = execRearm r s := rfl
theorem exec_rgmoorWrite (r : RegionId) (v : Word) (s : State) : exec (.rgmoorWrite r v) s = execRgmoorWrite r v s := rfl

/-! Pin queries (R274) -/

section
variable {s : State} {d : DieId} {v : Word}
theorem pinQuery_samples (go : bit v 0 = true) (idle : bit (s.die d).mcpq 1 = false) : ∃ s', exec (.pinQuery d v) s = .next s' ∧
    bit (s'.die d).mcpq 1 = true ∧ (s'.die d).pinSample = s.pinned (fld v 16 36) ∧ { s' with dies := s.dies } = s := by
  refine ⟨s.pinGo d v, ?_, ?_⟩
  · rw [exec_pinQuery, execPinQuery, when_of_true (by rw [go, idle]; rfl)]
  · rw [State.pinGo, State.modDie_die_same]
    exact ⟨bit_setBit_same _ _ _ (by decide), rfl, rfl⟩
variable (busy : bit (s.die d).mcpq 1 = true)
include busy
theorem pinQuery_busy : exec (.pinQuery d v) s = .next s := by
  rw [exec_pinQuery, execPinQuery, when_of_false (by rw [busy, Bool.not_true, Bool.and_false])]
theorem pinQueryComplete_answers : ∃ s', exec (.pinQueryComplete d) s = .next s' ∧
    bit (s'.die d).mcpq 1 = false ∧ bit (s'.die d).mcpq 2 = (s.die d).pinSample ∧ { s' with dies := s.dies } = s := by
  refine ⟨_, (exec_pinQueryComplete d s).trans (when_of_true busy), ?_⟩
  rw [State.modDie_die_same]
  refine ⟨?_, bit_setBit_same _ _ _ (by decide), rfl⟩
  rw [bit_setBit_other _ _ _ _ (by decide), bit_setBit_same _ _ _ (by decide)]
end

/-! Cancels (R224) -/

/-- A request that has been cancelled. -/
def Req.cancelled (q : Req) : Req := { q with stage := .replied (.cause causeCancelled) }
/-- A deferred request is cancelled. -/
def State.cancelReq (s : State) (q : Req) : State := (s.undefer q).answerReq q (.cause causeCancelled)
/-- A request with the number of q is in the list, and where c holds it has been cancelled. -/
def State.listsReq (s : State) (q : Req) (c : Prop) : Prop := ∃ q' ∈ s.reqs, q'.id = q.id ∧ (c → q'.stage = .replied (.cause causeCancelled))
section
variable (s : State) (p : Req)
theorem State.cancelReq_frame : { s.cancelReq p with regions := s.regions, mem := s.mem, reqs := s.reqs } = s :=
  congrArg (fun x : State => { x with reqs := s.reqs }) (s.undefer_frame p)
theorem State.cancelReq_reqs : (s.cancelReq p).reqs = s.reqs.map fun x => if x.id = p.id then p.cancelled else x :=
  congrArg (List.map fun x : Req => if x.id = p.id then p.cancelled else x) (congrArg State.reqs (s.undefer_frame p) :)
theorem State.cancelReq_mem {p : Req} (unlisted : p.stage ≠ .listed) : (s.cancelReq p).mem = s.mem := by
  rw [State.cancelReq, State.undefer_unlisted s unlisted]
  rfl
variable {s}
/-- A cancel keeps what is listed and what has been cancelled. -/
theorem State.cancelReq_keeps {q : Req} {c : Prop} (h : s.listsReq q c) : (s.cancelReq p).listsReq q c := by
  obtain ⟨q', mem, id, stage⟩ := h
  rw [State.listsReq, State.cancelReq_reqs]
  refine ⟨_, List.mem_map_of_mem mem, ?_⟩
  split
  next same => exact ⟨same.symm.trans id, fun _ => rfl⟩
  · exact ⟨id, stage⟩
theorem State.cancelReq_cancels (h : s.listsReq p False) : (s.cancelReq p).listsReq p True := by
  obtain ⟨q', mem, id, -⟩ := h
  rw [State.listsReq, State.cancelReq_reqs]
  refine ⟨_, List.mem_map_of_mem mem, ?_⟩
  rw [if_pos id]
  exact ⟨rfl, fun _ => rfl⟩
end
section
variable (s : State) (page : Nat)
theorem State.cancelPage_frame : { s.cancelPage page with regions := s.regions, mem := s.mem, reqs := s.reqs } = s :=
  State.foldl_part (step := State.cancelReq) (fun x : State => { x with regions := s.regions, mem := s.mem, reqs := s.reqs })
    (fun x q => congrArg (fun x : State => { x with regions := s.regions, mem := s.mem, reqs := s.reqs }) (x.cancelReq_frame q)) _ s
variable {s page}
/-- Every deferred request of the page is answered with request-cancelled. -/
theorem State.cancelPage_cancels {q : Req} (mem : q ∈ s.reqs) (deferred : q.deferred = true) (page_ : q.inPage page = true) :
    (s.cancelPage page).listsReq q True :=
  foldl_makes (step := State.cancelReq) (P := (State.listsReq · q False)) (Q := (State.listsReq · q True)) (x := q)
    (fun _ p => State.cancelReq_keeps p) (fun _ p => State.cancelReq_keeps p) (fun _ => State.cancelReq_cancels q) _ s
    (.inr ⟨List.mem_filter.2 ⟨mem, by rw [deferred, page_]; rfl⟩, q, mem, rfl, False.elim⟩)
/-- Requests in slots leave the memory as it is. -/
theorem State.cancelPage_mem (slots : ∀ q ∈ s.reqs, q.stage ≠ .listed) : (s.cancelPage page).mem = s.mem :=
  List.foldlRecOn (motive := fun x : State => x.mem = s.mem) (s.reqs.filter fun q : Req => q.deferred && q.inPage page) State.cancelReq rfl
    fun x same q mem => (x.cancelReq_mem (slots q (List.mem_filter.1 mem).1)).trans same
end

section
variable {s : State} {d : DieId} {v : Word}
theorem State.cancelGo_die : (s.cancelGo d v).die d = { s.die d with mccan := setBit (v &&& 0xFFFFFFFFF0000) 1 true } :=
  (congrArg (State.die · d) (State.cancelPage_frame ..) :).trans (s.modDie_die_same d _)
theorem mccanCancel_cancels (go : bit v 0 = true) (idle : bit (s.die d).mccan 1 = false) : ∃ s', exec (.mccanCancel d v) s = .next s' ∧
    bit (s'.die d).mccan 1 = true ∧
    (∀ q ∈ s.reqs, q.deferred = true → q.inPage (fld v 16 36) = true → ∃ q' ∈ s'.reqs, q'.id = q.id ∧ q'.stage = .replied (.cause 0x085)) ∧
    ((∀ q ∈ s.reqs, q.stage ≠ .listed) → s'.mem = s.mem) ∧ s'.elements = s.elements := by
  refine ⟨s.cancelGo d v, ?_, ?_, fun q mem deferred page => ?_, fun slots => State.cancelPage_mem slots,
    (congrArg State.elements (State.cancelPage_frame ..) :)⟩
  · rw [exec_mccanCancel, execMccanCancel, when_of_true (by rw [go, idle]; rfl)]
  · rw [State.cancelGo_die]
    exact bit_setBit_same _ _ _ (by decide)
  · obtain ⟨q', mem', id, stage⟩ := State.cancelPage_cancels (s := s.modDie d _) mem deferred page
    exact ⟨q', mem', id, stage trivial⟩
variable (busy : bit (s.die d).mccan 1 = true)
include busy
theorem mccanCancel_busy : exec (.mccanCancel d v) s = .next s := by
  rw [exec_mccanCancel, execMccanCancel, when_of_false (by rw [busy, Bool.not_true, Bool.and_false])]
theorem mccanComplete_clears (none_ : s.reqs.any (fun q => q.deferred && q.inPage (fld (s.die d).mccan 16 36)) = false) :
    ∃ s', exec (.mccanComplete d) s = .next s' ∧ bit (s'.die d).mccan 1 = false ∧ { s' with dies := s.dies } = s := by
  refine ⟨s.modDie d fun x => { x with mccan := setBit x.mccan 1 false }, ?_, ?_, rfl⟩
  · rw [exec_mccanComplete, execMccanComplete, when_of_true busy, none_]
    rfl
  · rw [State.modDie_die_same]
    exact bit_setBit_same _ _ _ (by decide)
end

/-! Tables and pagers (R221, R257, R271) -/

/-- A change of a region that leaves it as it is changes nothing. -/
theorem State.modRg_of_fixed {s : State} {r : RegionId} {h : Region → Region} (same : h (s.rg r) = s.rg r) : s.modRg r h = s := by
  have regions : vset s.regions r (s.regions.get r) = s.regions := Vector.set_getElem_self _
  rw [State.modRg, State.setRg, same, State.rg, regions]

section
variable {s : State} {r : RegionId} {v : Word}
theorem rgtrrWrite_quiet (quiet : fld (s.rg r).ctl 8 4 = 15) : ∃ s', exec (.rgtrrWrite r v) s = .next s' ∧ OnlyRegion s s' r ∧
    s'.rg r = { s.rg r with trr := v &&& 0xFFFFFFFFFFE001 } :=
  ⟨_, exec_rgtrrWrite r v s, s.modRg_only r _, (s.modRg_rg_same r _).trans (if_pos quiet)⟩
theorem rgtrrWrite_refused (works : fld (s.rg r).ctl 8 4 ≠ 15) : ∃ s', exec (.rgtrrWrite r v) s = .next s' ∧ OnlyRegion s s' r ∧
    bit (s'.rg r).stat 2 = true ∧ { s'.rg r with stat := (s.rg r).stat } = s.rg r := by
  have same : (s.writeTrr r v).rg r = { s.rg r with stat := setBit (s.rg r).stat 2 true } := (s.modRg_rg_same r _).trans (if_neg works)
  refine ⟨_, exec_rgtrrWrite r v s, s.modRg_only r _, ?_⟩
  rw [same]
  exact ⟨bit_setBit_same _ _ _ (by decide), rfl⟩
theorem rearm_ignored (none_ : (s.rg r).pendcnt = 0) : exec (.rearm r) s = .next s :=
  congrArg Host.Outcome.next (State.modRg_of_fixed (if_pos none_))
theorem rearm_counts (some_ : (s.rg r).pendcnt ≠ 0) : ∃ s', exec (.rearm r) s = .next s' ∧ OnlyRegion s s' r ∧
    (s'.rg r).pendcnt = (s.rg r).pendcnt - 1 ∧ { s'.rg r with pgr := (s.rg r).pgr } = s.rg r := by
  have same : (s.rearm r).rg r = { s.rg r with pgr := setFld (s.rg r).pgr 16 8 ((s.rg r).pendcnt - 1) } :=
    (s.modRg_rg_same r _).trans (if_neg some_)
  have small : (s.rg r).pendcnt < 2 ^ 8 := Nat.mod_lt _ (by decide)
  refine ⟨_, exec_rearm r s, s.modRg_only r _, ?_⟩
  rw [same]
  exact ⟨(fld_setFld_same _ _ _ _ (by decide)).trans (Nat.mod_eq_of_lt (by omega)), rfl⟩
theorem rgmoorWrite_free (free : fld (s.rg r).mlen 24 24 = 0) : ∃ s', exec (.rgmoorWrite r v) s = .next s' ∧ OnlyRegion s s' r ∧
    s'.rg r = { s.rg r with moor := v &&& 0xFFFFFFFFFF001 } :=
  ⟨_, exec_rgmoorWrite r v s, s.modRg_only r _, (s.modRg_rg_same r _).trans (if_pos free)⟩
theorem rgmoorWrite_ignored (used : fld (s.rg r).mlen 24 24 ≠ 0) : exec (.rgmoorWrite r v) s = .next s :=
  congrArg Host.Outcome.next (State.modRg_of_fixed (if_neg used))
end

/-- The commands of TRCMD, MCPQ and MCCAN, and the registers of tables and pagers. -/
theorem dieCommands : DieCommands := by
  refine ⟨fun s d v => ⟨trcmd_busy, fun idle go => ⟨fun op size => ?range, fun op => ?asid, fun op => ?wake⟩, trcmdComplete_ends⟩,
    fun s d v => ⟨pinQuery_samples, fun busy => ⟨pinQuery_busy busy, pinQueryComplete_answers busy⟩, mccanCancel_cancels,
      fun busy => ⟨mccanCancel_busy busy, mccanComplete_clears busy⟩⟩,
    fun s r v => ⟨rgtrrWrite_quiet, rgtrrWrite_refused, rearm_ignored, rearm_counts, rgmoorWrite_free, rgmoorWrite_ignored⟩⟩
  case range =>
    obtain ⟨busy, mem, tlb⟩ := s.trBusy_invalidate d v (trDies d v) (trAsid v) (rangesMeet (trLo v) (trLen v))
    refine ⟨_, trcmdInvalidateRange_go idle go op size, busy, mem, fun e l => ?_⟩
    rw [tlb, rangesMeet, Bool.and_eq_true, decide_eq_true_eq, decide_eq_true_eq]
    rfl
  case asid =>
    obtain ⟨busy, mem, tlb⟩ := s.trBusy_invalidate d v (trDies d v) (trAsid v) (fun _ _ => true)
    refine ⟨_, trcmdInvalidateAsid_go idle go op, busy, mem, fun e l => ?_⟩
    exact (tlb e l).trans (by simp [trAsid])
  case wake =>
    refine ⟨_, trcmdWake_go idle go op, ?_, State.trWake_only_walks s d v, fun r x owed t0 there held earlier all => ?_,
      fun w mem named earlier all => State.trWake_walk all mem named earlier⟩
    · rw [State.trWake_die, State.trBusy_busy]
    · rw [State.trWake_eq]
      refine State.wakeCws_wakes (b := s.trBusy d v) owed there held ?_ all
      rw [State.trBusy_time]
      exact earlier

/-- Settles O48: a walk ends by its outcome in a fill, a trap, a hold or a rollback of its region, and each command is one change of its die,
or of its region. -/
theorem translation : Obligations.Translation := ⟨walkEnds, dieCommands⟩

end Sys2Proof.Machine
end

section
/-! SUPPORT. The command tokens of the E-format instructions (R283, R330): the fields of a command word, and the one shape of the 22 forms. -/

namespace Sys2Proof.Machine

/-- The four fields of a command word stand side by side, so that each is read back (R283). -/
theorem commandWord_fields {op : Nat} (h : op < 256) (m : BitVec 18) (x y : Word) :
    fld (commandWord op m x y) 0 8 = op ∧ fld (commandWord op m x y) 8 18 = m.toNat ∧
      fld (commandWord op m x y) 26 32 = x.toNat % 2 ^ 32 ∧ fld (commandWord op m x y) 58 6 = y.toNat % 2 ^ 6 := by
  have mod_ : m.toNat < 2 ^ 18 := m.isLt
  have low : fld x 0 32 = x.toNat % 2 ^ 32 := by rw [fld, pow_zero, Nat.div_one]
  have short : fld y 0 6 = y.toNat % 2 ^ 6 := by rw [fld, pow_zero, Nat.div_one]
  have l : x.toNat % 2 ^ 32 < 2 ^ 32 := Nat.mod_lt _ (by decide)
  have r : y.toNat % 2 ^ 6 < 2 ^ 6 := Nat.mod_lt _ (by decide)
  simp only [commandWord, fld_ofNat, low, short, Nat.reduceAdd, Nat.reduceLeDiff]
  omega

/-- Every E-format instruction sends the command token of its opcode. -/
theorem engineForms_run : ∀ x ∈ engineForms, x.1 < 256 ∧ ∀ w s, exec (x.2 w) s = s.engineToken x.1 w := by
  simp only [engineForms, List.forall_mem_cons]
  exact ⟨⟨by decide, fun _ _ => rfl⟩, ⟨by decide, fun _ _ => rfl⟩, ⟨by decide, fun _ _ => rfl⟩, ⟨by decide, fun _ _ => rfl⟩,
    ⟨by decide, fun _ _ => rfl⟩, ⟨by decide, fun _ _ => rfl⟩, ⟨by decide, fun _ _ => rfl⟩, ⟨by decide, fun _ _ => rfl⟩,
    ⟨by decide, fun _ _ => rfl⟩, ⟨by decide, fun _ _ => rfl⟩, ⟨by decide, fun _ _ => rfl⟩, ⟨by decide, fun _ _ => rfl⟩,
    ⟨by decide, fun _ _ => rfl⟩, ⟨by decide, fun _ _ => rfl⟩, ⟨by decide, fun _ _ => rfl⟩, ⟨by decide, fun _ _ => rfl⟩,
    ⟨by decide, fun _ _ => rfl⟩, ⟨by decide, fun _ _ => rfl⟩, ⟨by decide, fun _ _ => rfl⟩, ⟨by decide, fun _ _ => rfl⟩,
    ⟨by decide, fun _ _ => rfl⟩, ⟨by decide, fun _ _ => rfl⟩, nofun⟩

/-- Past the stages of issue the form delivers its command word to its port. -/
theorem State.engineToken_passed {s : State} {t : Tile} {a a1 a2 : Act} {w : EForm} {p : BitVec 4} {x y : Word} (op : Nat) (issues : Issues s t a)
    (port : w.d = .outp p) (passes : Passes s t a w.head [w.a, w.b] (some p)) (first : s.rdScalar t a w.a = .ok (x, a1))
    (second : s.rdScalar t a1 w.b = .ok (y, a2)) :
    s.engineToken op w = .next (s.finish t a w.d 0 (a2.deliver w.d (commandWord op w.mod x y))) := by
  have out : w.d.outPort = some p := by rw [port]; rfl
  simp only [State.engineToken, issues.withAct_eq, out, passes.issue_eq, first, second]

/-- Settles O46: each form delivers its command word to its output port, as a data token whose other tag bits are 0. -/
theorem engineTokens : Obligations.EngineTokens := by
  intro form among w s t a a1 a2 x y p issues port passes first second room
  obtain ⟨small, run⟩ := engineForms_run form among
  obtain ⟨op, mod_, low, short⟩ := commandWord_fields small w.mod x y
  obtain ⟨l, rfl⟩ := State.rdScalar_only_taken first
  obtain ⟨l', rfl⟩ := State.rdScalar_only_taken second
  obtain ⟨onPort, all⟩ := room p port
  obtain ⟨facet, kind, pred, head, tail, poison⟩ := mkTok_tag a.facet kData false false false false (commandWord form.1 w.mod x y).toNat
  have sent := (run w s).trans (State.engineToken_passed form.1 issues port passes first second)
  rw [port, Act.deliver, Act.send_plain [] onPort all head tail] at sent
  refine ⟨_, _, retires_of_finish sent, rfl, rfl, rfl, rfl, ?_⟩
  rw [mkTok_payload, BitVec.ofNat_toNat, BitVec.setWidth_eq]
  exact ⟨op, mod_, low, short, kind, facet, pred, head, tail, poison⟩

end Sys2Proof.Machine
end

section
/-! SUPPORT. A memory tile's own state (R208, R286, R289): what its updates leave of each part of the tile, a token taken from any of its ports,
and the completion that a command of its engines queues. -/

namespace Sys2Proof.Machine

/-! Parts of a tile -/

theorem State.mt_of_mts {s s' : State} (h : s'.mts = s.mts) (t : Tile) : s'.mt t = s.mt t := by rw [State.mt, h, State.mt]

section
variable (m : MemTile) (f h : Facet) (g : MtFacet → MtFacet)
@[simp] theorem MemTile.modFac_outq : (m.modFac f g).outq = m.outq := rfl
@[simp] theorem MemTile.modFac_pend4 : (m.modFac f g).pend4 = m.pend4 := rfl
@[simp] theorem MemTile.modFac_pend6 : (m.modFac f g).pend6 = m.pend6 := rfl
@[simp] theorem MemTile.modFac_nodes : (m.modFac f g).nodes = m.nodes := rfl
@[simp] theorem MemTile.modFac_fired : (m.modFac f g).fired = m.fired := rfl
@[simp] theorem MemTile.fac_pend4 (l : List Completion) : MemTile.fac { m with pend4 := l } h = m.fac h := rfl
@[simp] theorem MemTile.fac_pend6 (l : List Completion) : MemTile.fac { m with pend6 := l } h = m.fac h := rfl
@[simp] theorem MemTile.fac_nodes (l : Vector DepNode 32) : MemTile.fac { m with nodes := l } h = m.fac h := rfl
@[simp] theorem MemTile.fac_takePtr (p : Facet) : MemTile.fac { m with takePtr := p } h = m.fac h := rfl
@[simp] theorem MemTile.fac_mxTake (p : Facet) : MemTile.fac { m with mxTake := p } h = m.fac h := rfl
@[simp] theorem MemTile.fac_outq (l : Vector (List OTok) 16) : MemTile.fac { m with outq := l } h = m.fac h := rfl
end

/-- Two changes of a facet that agree on what it holds leave the same state. -/
theorem State.modMtFac_congr {s : State} {t : Tile} {f : Facet} {g h : MtFacet → MtFacet} (same : g ((s.mt t).fac f) = h ((s.mt t).fac f)) :
    s.modMtFac t f g = s.modMtFac t f h := by
  have values : vmod (s.mt t).facets f g = vmod (s.mt t).facets f h := congrArg (vset (s.mt t).facets f) same
  simp only [State.modMtFac, State.modMt, MemTile.modFac, values]

/-! A token taken from a port (R208, R286) -/

/-- The facet without the head token of a port. -/
def MtFacet.pop (x : MtFacet) (p : Fin 16) : MtFacet := { x with inq := vmod x.inq p (·.drop 1) }

/-- A port that is not recorded gives its head token, and nothing else of the tile changes. -/
theorem State.mtTaking_pops {s : State} {t : Tile} {f : Facet} {p : Fin 16} {k : Token} (head : s.mtHead t f p = some k)
    (plain : bit ((s.mt t).fac f).recording p.val = false) (act : State → State) :
    s.mtTaking t f p act = act (s.modMtFac t f (·.pop p)) := by
  have run : s.mtTaking t f p act = act (s.mtTake t f p) := if_neg fun ⟨records, _⟩ => by rw [plain] at records; cases records
  unfold State.mtHead at head
  rw [run, State.mtTake]
  simp only [head]
  refine congrArg act (State.modMtFac_congr ?_)
  rw [plain, MtFacet.pop]
  rfl
theorem MtFacet.pop_takes {s s' : State} {t : Tile} {f : Facet} {p : Fin 16}
    (h : ((s'.mt t).fac f).inq = (((s.mt t).fac f).pop p).inq) : TakesHead s s' t f p := by
  rw [TakesHead, h]
  exact ⟨vget_vmod_same .., fun q other => vget_vmod_other _ _ _ _ other⟩

/-! Completions (R289) -/

@[simp] theorem State.phaseCommit_mts (s : State) (t : Tile) (f : Facet) : (s.phaseCommit t f).mts = s.mts := by
  unfold State.phaseCommit
  split
  · split <;> rfl
  · rfl

/-- The fields of a completion token's payload: RES, the opcode, the status, the node with NV, and LNCH. -/
theorem doneWord_fields (res op status : Nat) (node : Option (Fin 32)) (lnch : Bool) :
    let w := BitVec.ofNat 64 (doneWord res op status node lnch)
    fld w 0 32 = res % 2 ^ 32 ∧ fld w 32 8 = op % 2 ^ 8 ∧ fld w 40 5 = status % 2 ^ 5 ∧ fld w 47 5 = (node.elim 0 Fin.val) ∧
      fld w 52 1 = node.isSome.toNat ∧ fld w 53 1 = lnch.toNat := by
  have l : lnch.toNat < 2 := Bool.toNat_lt _
  have n : node.elim 0 Fin.val < 32 := by cases node <;> simp
  have whole : doneWord res op status node lnch = res % 2 ^ 32 + op % 256 * 2 ^ 32 + status % 32 * 2 ^ 40 + node.elim 0 Fin.val * 2 ^ 47 +
      node.isSome.toNat * 2 ^ 52 + lnch.toNat * 2 ^ 53 := by cases node <;> simp [doneWord, Nat.add_assoc]
  have b : node.isSome.toNat < 2 := Bool.toNat_lt _
  simp only [fld_ofNat, Nat.reduceAdd, Nat.reduceLeDiff, whole]
  omega
/-- A flag is the number in its bit. -/
theorem bit_of_fld {k : Nat} {w : BitVec k} {i : Nat} {b : Bool} (h : fld w i 1 = b.toNat) : bit w i = b := by
  have low := testBit_fld w i 1 0
  rw [h, Nat.add_zero] at low
  rw [show bit w i = b.toNat.testBit 0 from by rw [low]; simp]
  cases b <;> rfl

/-- The completion that a command queues, with a free value for a RES that no rule gives (R289, log 44). -/
def State.completion (s : State) (f : Facet) (result : Option Nat) (op status : Nat) (node : Option (Fin 32)) (lnch : Bool) (sc : Scope)
    (reqs : List Nat) : Completion :=
  ⟨f, mkTok f kData (status != 0) false false false (doneWord (result.getD (Config.freeWord s.free).toNat) op status node lnch), sc, reqs⟩

section
variable (s : State) (t : Tile) (f : Facet) (result : Option Nat) (op status : Nat) (node : Option (Fin 32)) (lnch : Bool) (sc : Scope)
  (reqs : List Nat)
theorem State.complete_mts : (s.complete t f result op status node lnch sc reqs).mts =
    (s.modMt t fun m => { m with pend4 := m.pend4 ++ [s.completion f result op status node lnch sc reqs] }).mts := by
  unfold State.complete
  rw [State.phaseCommit_mts]
  cases result <;> simp only [Option.isNone, Bool.false_eq_true, if_true, if_false] <;> split <;>
    simp only [State.modMt, State.setMt, State.mt, State.cause_mts] <;> rfl
@[simp] theorem State.complete_mt : (s.complete t f result op status node lnch sc reqs).mt t =
    { s.mt t with pend4 := (s.mt t).pend4 ++ [s.completion f result op status node lnch sc reqs] } :=
  (State.mt_of_mts (s.complete_mts ..) t).trans (s.modMt_mt_same ..)
@[simp] theorem State.complete_node (i : Fin 32) : (s.complete t f result op status node lnch sc reqs).node t i = s.node t i := by
  rw [State.node, State.complete_mt, State.node]
end

/-- A completion that is queued behind those of s answers with its opcode, its status and its RES. -/
theorem answers_of_complete {s a s' : State} {t : Tile} {f : Facet} {result named : Option Nat} {op status : Nat} {node : Option (Fin 32)} {lnch : Bool}
    {sc : Scope} {reqs : List Nat} (small : op < 256) (code : status < 32)
    (queued : (s'.mt t).pend4 = ((a.complete t f result op status node lnch sc reqs).mt t).pend4) (same : (a.mt t).pend4 = (s.mt t).pend4)
    (given : ∀ v, named = some v → ∃ r, result = some r ∧ r % 2 ^ 32 = v % 2 ^ 32) : Answers s s' t f op status named := by
  obtain ⟨res, opcode, stat, -⟩ := doneWord_fields (result.getD (Config.freeWord a.free).toNat) op status node lnch
  obtain ⟨facet, kind, pred, -⟩ := mkTok_tag f kData (status != 0) false false false
    (doneWord (result.getD (Config.freeWord a.free).toNat) op status node lnch)
  refine ⟨a.completion f result op status node lnch sc reqs, by rw [queued, State.complete_mt, same], rfl, kind, facet,
    pred.trans (Bool.eq_iff_iff.2 (by simp)), opcode.trans (Nat.mod_eq_of_lt small), stat.trans (Nat.mod_eq_of_lt code), fun v h => ?_⟩
  obtain ⟨r, rfl, same⟩ := given v h
  exact res.trans same

end Sys2Proof.Machine
end

section
/-! SUPPORT. What the command unit does with each token of mi4 (R286, R303, R304, R321 to R326): a take said once, the fields of a fresh command,
and what each command that acts at once leaves of its facet. -/

namespace Sys2Proof.Machine

/-! The fields of a fresh command (R286) -/

theorem fld_lt {k : Nat} (w : BitVec k) (lo n : Nat) : fld w lo n < 2 ^ n := Nat.mod_lt _ (Nat.two_pow_pos n)
/-- A field of a field. -/
theorem fld_ofNat_fld {k j : Nat} (w : BitVec k) {lo n lo' n' : Nat} (inside : lo' + n' ≤ n) (fits : lo' + n' ≤ j) :
    fld (BitVec.ofNat j (fld w lo n)) lo' n' = fld w (lo + lo') n' := by
  refine Nat.eq_of_testBit_eq fun i => ?_
  rw [fld_ofNat fits, Nat.testBit_mod_two_pow, Nat.testBit_div_two_pow, testBit_fld, testBit_fld]
  by_cases hi : i < n'
  · rw [Nat.add_comm i lo', decide_eq_true (by omega : lo' + i < n), Bool.true_and, Nat.add_assoc]
  · simp [hi]
theorem toNat_ofNat_fld {k : Nat} (w : BitVec k) (lo n : Nat) : (BitVec.ofNat n (fld w lo n)).toNat = fld w lo n := by
  rw [BitVec.toNat_ofNat, fld_mod]

section
variable (id : Nat) (k : Token) (node : Option (Fin 32))
@[simp] theorem newCmd_mod : (newCmd id k node).mod.toNat = fld k.payload 8 18 := toNat_ofNat_fld ..
@[simp] theorem newCmd_av : (newCmd id k node).av.toNat = fld k.payload 26 32 := toNat_ofNat_fld ..
@[simp] theorem newCmd_bv : (newCmd id k node).bv.toNat = fld k.payload 58 6 := toNat_ofNat_fld ..
theorem newCmd_m {lo n : Nat} (h : lo + n ≤ 18) : (newCmd id k node).m lo n = fld k.payload (8 + lo) n := fld_ofNat_fld _ h h
theorem newCmd_ag : (newCmd id k node).ag 0 = Fin.ofNat 4 (fld k.payload 8 2) := congrArg (Fin.ofNat 4) (newCmd_m id k node (by decide))
theorem newCmd_dv : bit (newCmd id k node).bv 5 = decide (fld k.payload 63 1 = 1) := by
  have low : fld (newCmd id k node).bv 5 1 = fld k.payload 63 1 := fld_ofNat_fld _ (by decide) (by decide)
  refine bit_of_fld (low.trans ?_)
  have : fld k.payload 63 1 < 2 := fld_lt ..
  generalize fld k.payload 63 1 = n at this
  interval_cases n <;> rfl
end

theorem isCommand_op {op : Nat} {k : Token} (h : isCommand op k = true) : fld k.payload 0 8 = op := by
  simp only [isCommand, Bool.and_eq_true, beq_iff_eq] at h
  exact h.2
theorem newCmd_op {op : Nat} {k : Token} (h : isCommand op k = true) {id : Nat} {node : Option (Fin 32)} : (newCmd id k node).op = op :=
  isCommand_op h
/-- The AV of a well-formed DARM is below 2^15 (R324). -/
theorem isCommand_darm {k : Token} (h : isCommand 0xB9 k = true) : fld k.payload 26 32 < 2 ^ 15 := by
  have op := isCommand_op h
  simp only [isCommand, malformed, Bool.and_eq_true, Bool.not_eq_true', Bool.or_eq_false_iff] at h
  obtain ⟨⟨-, -, bad⟩, -⟩ := h
  have bound : (decide (32 ≤ fld k.payload 58 6) || decide (2 ^ 15 ≤ fld k.payload 26 32)) = false := by
    simpa only [operandBad, newCmd_av, newCmd_bv, show (newCmd 0 k none).op = 0xB9 from op] using! bad
  simp only [Bool.or_eq_false_iff, decide_eq_false_iff_not] at bound
  omega

/-! A take (R286) -/

section
variable {s : State} {t : Tile} {f : Facet} {k : Token}

/-- The state in which the head token of mi4 is gone. -/
def State.popped (s : State) (t : Tile) (f : Facet) : State := s.modMtFac t f (·.pop 4)
theorem popped_fac : ((s.popped t f).mt t).fac f = ((s.mt t).fac f).pop 4 := by simp [State.popped]
theorem popped_pend4 : ((s.popped t f).mt t).pend4 = (s.mt t).pend4 := by simp [State.popped]
theorem popped_node (i : Fin 32) : (s.popped t f).node t i = s.node t i := by simp [State.node, State.popped]

/-- The next facet is served next. -/
def State.turned (s : State) (t : Tile) (f : Facet) : State := s.modMt t fun m => { m with takePtr := f + 1 }
@[simp] theorem State.turned_fac (a : State) : ((a.turned t f).mt t).fac f = (a.mt t).fac f := by simp [State.turned]
@[simp] theorem State.turned_pend4 (a : State) : ((a.turned t f).mt t).pend4 = (a.mt t).pend4 := by simp [State.turned]
@[simp] theorem State.turned_node (a : State) (i : Fin 32) : (a.turned t f).node t i = a.node t i := by simp [State.node, State.turned]

theorem takes_run (takes : Takes s t f k) {h : Token → Bool} (good : h k = true) (act : Token → State → State) :
    s.commandTake t f h act = .next ((act k (s.popped t f)).turned t f) := by
  obtain ⟨turn, head, plain⟩ := takes
  have found : s.takeable t f h = some k := by rw [State.takeable, if_pos turn, head, Option.filter_some, if_pos good]
  simp only [State.commandTake, found, State.mtTaking_pops head plain]
  rfl
/-- What follows the take keeps the queues of the facet and the memory. -/
theorem takenFrom_turned {a : State} (inq : ((a.mt t).fac f).inq = (((s.mt t).fac f).pop 4).inq) (mem : a.mem = s.mem) :
    TakenFrom s (a.turned t f) t f :=
  ⟨MtFacet.pop_takes (by rw [State.turned_fac, inq]), by simp [State.turned], mem⟩

theorem State.bufferCmd_fac (s : State) (t : Tile) (f : Facet) (c : Cmd) : ((s.bufferCmd t f c).mt t).fac f =
    { (s.mt t).fac f with cmds := ((s.mt t).fac f).cmds ++ [{ c with id := s.nextId }] } := by
  rw [State.bufferCmd, State.modMtFac_mt_same, MemTile.modFac_fac_same]
  rfl
theorem State.complete_fac (s : State) (t : Tile) (f : Facet) (result : Option Nat) (op status : Nat) (node : Option (Fin 32)) (lnch : Bool)
    (sc : Scope) (reqs : List Nat) (h : Facet) : ((s.complete t f result op status node lnch sc reqs).mt t).fac h = (s.mt t).fac h := by
  rw [State.complete_mt, MemTile.fac_pend4]

/-! The stream commands and AGSTART -/

/-- The stream commands of R306 to R319, with their opcodes. -/
theorem streamForms_run (t : Tile) (f : Facet) (s : State) :
    ∀ x ∈ ([(0xB0, .scopyCommand), (0xB1, .sgathCommand), (0xB2, .sscatCommand), (0xB3, .sredCommand), (0xB4, .scompCommand),
      (0xB5, .sexpCommand)] : List (Nat × (Tile → Facet → Instr))), exec (x.2 t f) s = s.takeStream t f x.1 := by
  simp only [List.forall_mem_cons]
  exact ⟨rfl, rfl, rfl, rfl, rfl, rfl, nofun⟩
/-- Without a command of its operation that waits to act, each of them takes the head token. -/
theorem quickStep_take {op : Nat} (h : ∀ h, ((s.mt t).fac f).quick.head? = some h → isCommand op h = false) (act : Token → State → State) :
    s.quickStep t f op act = s.quickTake t f op := by
  unfold State.quickStep
  split
  · next k l head => rw [h k (by rw [head]; rfl), if_neg Bool.false_ne_true]
  · rfl
/-! The commands that are taken to act in the next cycle -/

theorem exec_agstopCommand (t : Tile) (f : Facet) (s : State) :
    exec (.agstopCommand t f) s = s.quickStep t f 0xB7 fun k s => s.agStop t f (newCmd 0 k none) := rfl
theorem exec_agqryCommand (t : Tile) (f : Facet) (s : State) :
    exec (.agqryCommand t f) s = s.quickStep t f 0xB8 fun k s => s.agQuery t f (newCmd 0 k none) := rfl
theorem exec_darmCommand (t : Tile) (f : Facet) (s : State) :
    exec (.darmCommand t f) s = s.quickStep t f 0xB9 fun k s => s.arm t f (newCmd 0 k none) := rfl
theorem exec_dpostCommand (t : Tile) (f : Facet) (s : State) :
    exec (.dpostCommand t f) s = s.quickStep t f 0xBA fun k s => s.post t f (newCmd 0 k none) := rfl
theorem exec_wcvtCommand (t : Tile) (f : Facet) (s : State) :
    exec (.wcvtCommand t f) s = s.quickStep t f 0xBB fun k s => s.wcvtStart t f (newCmd s.nextId k none) := rfl
theorem quickForms_run (t : Tile) (f : Facet) (s : State) :
    ∀ x ∈ ([(0xB7, .agstopCommand), (0xB8, .agqryCommand), (0xB9, .darmCommand), (0xBA, .dpostCommand), (0xBB, .wcvtCommand)] :
      List (Nat × (Tile → Facet → Instr))), ∃ act, exec (x.2 t f) s = s.quickStep t f x.1 act := by
  simp only [List.forall_mem_cons]
  exact ⟨⟨_, exec_agstopCommand t f s⟩, ⟨_, exec_agqryCommand t f s⟩, ⟨_, exec_darmCommand t f s⟩, ⟨_, exec_dpostCommand t f s⟩,
    ⟨_, exec_wcvtCommand t f s⟩, nofun⟩

/-- A command that is buffered stands at the end of the buffer with the fields of its token. -/
theorem takes_buffers {i : Instr} {op : Nat} (good : isCommand op k = true)
    (run : exec i s = .next (((s.popped t f).bufferCmd t f (newCmd (s.popped t f).nextId k none)).turned t f)) :
    ∃ s' c, exec i s = .next s' ∧ TakenFrom s s' t f ∧ ((s'.mt t).fac f).cmds = ((s.mt t).fac f).cmds ++ [c] ∧ c.id = s.nextId ∧ c.op = op ∧
      c.mod.toNat = fld k.payload 8 18 ∧ c.av.toNat = fld k.payload 26 32 ∧ c.bv.toNat = fld k.payload 58 6 ∧ c.started = false ∧
      c.done = false ∧ c.status = 0 := by
  refine ⟨_, newCmd s.nextId k none, run, takenFrom_turned ?_ rfl, ?_, rfl, isCommand_op good, newCmd_mod .., newCmd_av .., newCmd_bv .., rfl, rfl, rfl⟩
  · rw [State.bufferCmd_fac, popped_fac]
  · rw [State.turned_fac, State.bufferCmd_fac, popped_fac]
    rfl
theorem takes_parks (takes : Takes s t f k) {i : Instr} {op : Nat} (dv : fld k.payload 63 1 = 1)
    (free : s.node t (Fin.ofNat 32 (fld k.payload 58 6)) = DepNode.free) (good : isCommand op k = true)
    (run : exec i s = s.takeStream t f op) : ∃ s', exec i s = .next s' ∧ TakenFrom s s' t f ∧
      s'.node t (Fin.ofNat 32 (fld k.payload 58 6)) = { DepNode.free with parked := some k, owner := some f } ∧
      ((s'.mt t).fac f).cmds = ((s.mt t).fac f).cmds := by
  have parked : State.streamTaken t f k (s.popped t f) =
      (s.popped t f).setNode t (Fin.ofNat 32 (fld k.payload 58 6)) { DepNode.free with parked := some k, owner := some f } := by
    simp only [State.streamTaken, newCmd_dv, dv, decide_true, if_true, State.parkCmd, newCmd_bv, popped_node, free]
    rfl
  rw [State.takeStream, takes_run takes good, parked] at run
  have fac : ((((s.popped t f).setNode t (Fin.ofNat 32 (fld k.payload 58 6)) { DepNode.free with parked := some k, owner := some f }).mt t).fac f) =
      ((s.mt t).fac f).pop 4 := by rw [State.setNode, State.modMt_mt_same, MemTile.fac_nodes, popped_fac]
  refine ⟨_, run, takenFrom_turned (congrArg MtFacet.inq fac) rfl, ?_, ?_⟩
  · rw [State.turned_node, State.node, State.setNode, State.modMt_mt_same, vget_vset_same]
    rfl
  · rw [State.turned_fac, fac]
    rfl
end

theorem tokensTaken : TokensTaken := by
  intro s t f k takes
  refine ⟨fun x among good => ⟨fun dv => ?stream, fun dv free => takes_parks takes dv free good (streamForms_run t f s x among)⟩,
    fun good => takes_buffers good (takes_run takes good _), fun kind bad => ?malformed, fun kind => ?null, fun x among good idle => ?quick⟩
  case stream =>
    refine takes_buffers good ?_
    rw [streamForms_run t f s x among, State.takeStream, takes_run takes good]
    simp only [State.streamTaken, newCmd_dv, dv]
    rfl
  case malformed =>
    have good : (k.kind != kNull && malformed k) = true := by rw [bad]; simpa [kNull] using kind
    refine ⟨_, takes_run takes (h := fun k => k.kind != kNull && malformed k) good _, takenFrom_turned ?_ (State.complete_mem ..),
      answers_of_complete (fld_lt ..) (by decide) (State.turned_pend4 _) popped_pend4 nofun, trivial⟩
    rw [State.complete_fac, popped_fac]
  case null =>
    obtain ⟨facet, nullKind, pred, -⟩ := mkTok_tag f kNull k.pred false false false 0
    refine ⟨_, ⟨f, mkTok f kNull k.pred false false false 0, .pair, []⟩, takes_run takes (h := fun k => k.kind == kNull) (by rw [kind]; rfl) _, takenFrom_turned ?_ rfl, ?_, nullKind, facet, pred⟩
    · rw [State.modMt_mt_same, MemTile.fac_pend4, popped_fac]
    · rw [State.turned_pend4, State.modMt_mt_same, popped_pend4]
  case quick =>
    obtain ⟨act, run⟩ := quickForms_run t f s x among
    refine ⟨_, run.trans ((quickStep_take idle act).trans (takes_run takes good _)), takenFrom_turned ?_ rfl, ?_, ?_⟩
    · rw [State.modMtFac_mt_same, MemTile.modFac_fac_same, popped_fac]
    · rw [State.turned_fac, State.modMtFac_mt_same, MemTile.modFac_fac_same, popped_fac]
      rfl
    · rw [State.turned_pend4, State.modMtFac_mt_same, MemTile.modFac_pend4, popped_pend4]

/-! The commands that act (R303, R304, R321 to R326) -/

section
variable {s : State} {t : Tile} {f : Facet} {k : Token} {l : List Token}

/-- The state in which the oldest command that waits to act is gone from its list. -/
def State.acting (s : State) (t : Tile) (f : Facet) (l : List Token) : State := s.modMtFac t f fun x => { x with quick := l }
@[simp] theorem State.acting_fac : ((s.acting t f l).mt t).fac f = { (s.mt t).fac f with quick := l } := by simp [State.acting]
@[simp] theorem State.acting_pend4 : ((s.acting t f l).mt t).pend4 = (s.mt t).pend4 := by simp [State.acting]
@[simp] theorem State.acting_node (i : Fin 32) : (s.acting t f l).node t i = s.node t i := by simp [State.node, State.acting]
@[simp] theorem State.acting_gen (g : Fin 4) : (s.acting t f l).gen t f g = s.gen t f g := by simp [State.gen]
@[simp] theorem State.acting_mode : (s.acting t f l).mtMode t f = s.mtMode t f := by simp [State.mtMode]

theorem quickStep_acts {op : Nat} (first : ((s.mt t).fac f).quick = k :: l) (runs : s.mtRuns t f = true) (good : isCommand op k = true)
    (act : Token → State → State) : s.quickStep t f op act = .next (act k (s.acting t f l)) := by
  simp only [State.quickStep, first, good, if_true, runs, when_true]
  rfl

/-- What an acting command leaves of its facet: one entry less in the list of those that wait, its queues, and the memory. -/
structure ActsOn (s s' : State) (t : Tile) (f : Facet) (l : List Token) : Prop where
  quick : ((s'.mt t).fac f).quick = l
  inq : ((s'.mt t).fac f).inq = ((s.mt t).fac f).inq
  mem : s'.mem = s.mem
/-- An answer from a state that differs from the one in which the command acts outside its facet's list, queues and completions. -/
theorem acted_answers {i : Instr} {op status : Nat} {named result : Option Nat} {node : Option (Fin 32)} {lnch : Bool} {sc : Scope} {reqs : List Nat}
    {a : State} {P : State → Prop} (acts : ActsOn s a t f l) (pend4 : (a.mt t).pend4 = (s.mt t).pend4) (small : op < 256) (code : status < 32)
    (run : exec i s = .next (a.complete t f result op status node lnch sc reqs)) (given : ∀ v, named = some v → ∃ r, result = some r ∧ r % 2 ^ 32 = v % 2 ^ 32)
    (holds : P (a.complete t f result op status node lnch sc reqs)) :
    ∃ s', exec i s = .next s' ∧ (((s'.mt t).fac f).quick = l ∧ ((s'.mt t).fac f).inq = ((s.mt t).fac f).inq ∧ s'.mem = s.mem) ∧
      Answers s s' t f op status named ∧ P s' := by
  obtain ⟨quick, inq, mem⟩ := acts
  refine ⟨_, run, ⟨?_, ?_, (State.complete_mem ..).trans mem⟩, answers_of_complete small code rfl pend4 given, holds⟩
  · rw [State.complete_fac, quick]
  · rw [State.complete_fac, inq]
theorem actsOn_acting : ActsOn s (s.acting t f l) t f l := ⟨by rw [State.acting_fac], by rw [State.acting_fac], rfl⟩
theorem State.complete_gen (a : State) (result : Option Nat) (op status : Nat) (node : Option (Fin 32)) (lnch : Bool)
    (sc : Scope) (reqs : List Nat) (g : Fin 4) : (a.complete t f result op status node lnch sc reqs).gen t f g = a.gen t f g := by
  rw [State.gen, State.complete_fac, State.gen]

/-! Nodes (R322) -/

theorem State.setNode_fac (a : State) (i : Fin 32) (n : DepNode) (h : Facet) : ((a.setNode t i n).mt t).fac h = (a.mt t).fac h := by
  rw [State.setNode, State.modMt_mt_same, MemTile.fac_nodes]
theorem State.setNode_pend4 (a : State) (i : Fin 32) (n : DepNode) : ((a.setNode t i n).mt t).pend4 = (a.mt t).pend4 := by
  rw [State.setNode, State.modMt_mt_same]
/-- A node with nothing in it is a free one. -/
theorem State.setNode_node (a : State) (i : Fin 32) (n : DepNode) : (a.setNode t i n).node t i = if n.isFree then DepNode.free else n := by
  rw [State.node, State.setNode, State.modMt_mt_same, vget_vset_same]
theorem State.setNode_count (a : State) (i : Fin 32) (n : DepNode) : ((a.setNode t i n).node t i).count = n.count := by
  rw [State.setNode_node]
  split
  · next free =>
    simp only [DepNode.isFree, Bool.and_eq_true, beq_iff_eq] at free
    exact free.1.1.1.symm
  · rfl
theorem DepNode.add_inside {n : DepNode} {f : Facet} {d : Int} (low : -32768 ≤ n.count + d) (high : n.count + d ≤ 32767) :
    n.add f d = ({ n with count := n.count + d, owner := some f }, true) := if_pos ⟨low, high⟩
theorem actsOn_setNode (i : Fin 32) (n : DepNode) : ActsOn s ((s.acting t f l).setNode t i n) t f l :=
  ⟨by rw [State.setNode_fac, State.acting_fac], by rw [State.setNode_fac, State.acting_fac], rfl⟩

theorem wrapInt_natCast {n v : Nat} (h : v < 2 ^ n) : wrapInt n (v : Int) = v := by
  rw [wrapInt, ← Int.natCast_mod, Int.toNat_natCast, Nat.mod_eq_of_lt h]

/-! WCVT (R321) -/

/-- The addresses of an affine walk rest on the area, the regions and the host windows alone (R264). -/
theorem State.genAt_congr {s' : State} (mode : s'.mtMode t f = s.mtMode t f) (regions : s'.regions = s.regions) (ios : s'.ios = s.ios)
    (g : Gen) (off : Int) (need form : Nat) : s'.genAt t f g off need form = s.genAt t f g off need form := by
  have mapped : s'.mapped t = s.mapped t := by simp only [State.mapped, State.regionOf, State.rg, regions]
  have area : s'.areaAt t f off = s.areaAt t f off := by simp only [State.areaAt, mode]
  have windows : State.io s' = State.io s := by funext i; rw [State.io, ios, State.io]
  have target : State.sysTarget s' = State.sysTarget s := by funext pa; rw [State.sysTarget, windows, State.sysTarget]
  have leaf : State.engLeaf s' = State.engLeaf s := by funext pa w n m; rw [State.engLeaf, target, State.engLeaf]
  rw [State.genAt, State.genAt, mapped, area, leaf]
/-- A done command without successors leaves the buffer with its completion and changes nothing else of its facet (R289). -/
theorem State.endCmd_done {c : Cmd} (done : c.done = true) (alone : c.succ = 0) (other : c.op ≠ 0xB6) : s.endCmd t f c =
    (s.delCmd t f c.id).complete t f c.result c.op c.status c.node false c.scope (s.reqsOf t f c.id) := by
  have none_ (b : Bool) : s.succAll t f 0 b = (s, true) := by simp [State.succAll]
  simp [State.endCmd, State.endStatus, State.idleGens, done, alone, none_, opAgstart, other]
theorem State.delCmd_fac (id : Nat) : ((s.delCmd t f id).mt t).fac f =
    { (s.mt t).fac f with cmds := ((s.mt t).fac f).cmds.filter fun y => y.id != id } := by
  rw [State.delCmd, State.modMtFac_mt_same, MemTile.modFac_fac_same]
theorem State.setCmd_fac (c : Cmd) : ((s.setCmd t f c).mt t).fac f =
    { (s.mt t).fac f with cmds := ((s.mt t).fac f).cmds.map fun y => if y.id = c.id then c else y } := by
  rw [State.setCmd, State.modMtFac_mt_same, MemTile.modFac_fac_same]
theorem State.delCmd_pend4 (id : Nat) : ((s.delCmd t f id).mt t).pend4 = (s.mt t).pend4 := by
  rw [State.delCmd, State.modMtFac_mt_same, MemTile.modFac_pend4]
theorem actsOn_delCmd (id : Nat) : ActsOn s ((s.acting t f l).delCmd t f id) t f l :=
  ⟨by rw [State.delCmd_fac, State.acting_fac], by rw [State.delCmd_fac, State.acting_fac], rfl⟩
theorem State.wcvtPass_acting (c : Cmd) : (s.acting t f l).wcvtPass t f c = s.wcvtPass t f c := by
  simp only [State.wcvtPass, State.genPasses, State.acting_gen, State.acting_mode]
/-- A request of a facet without lockstep is listed as it was sent. -/
theorem State.engIssue_unlocked {q : Req} (free : s.locked t q.facet = false) : (s.engIssue t q).mts = s.mts ∧
    q.sent (s.nextId + 1) ∈ (s.engIssue t q).reqs := by
  rw [State.engIssue, State.issueReq_unlocked _ free]
  exact ⟨rfl, List.mem_map.2 ⟨q, List.mem_append_right _ (List.mem_singleton_self q), if_pos rfl⟩⟩

/-- The access of a WCVT whose accumulator is there sets out, and the command awaits it. -/
theorem stepWcvt_asks {c : Cmd} {pa form : Nat} {leaf : Word} (new_ : c.reads = [])
    (quiet : (s.gen t f (c.ag 0)).paused = false) (what : form = if c.m 2 1 = 1 then 8 else 0)
    (here : s.genAt t f (s.gen t f (c.ag 0)) ((s.gen t f (c.ag 0)).off c.av.toNat) (formPerm form) form = .here pa leaf)
    (page : accPage (s.gen t f (c.ag 0)) leaf = true) : ∃ q, (s.stepWcvt t f c) = (s.engIssue t q).setCmd t f { c with reads := [q.id] } ∧
      q.id = s.nextId ∧ q.form = form ∧ q.addr = pa ∧ q.size = 48 ∧ q.facet = f := by
  subst what
  refine ⟨{ s.engReq t f c (if c.m 2 1 = 1 then 8 else 0) (BitVec.ofNat 64 pa) leaf pa 48 with op := 13 }, ?_, rfl, rfl, rfl, rfl, rfl⟩
  simp only [State.stepWcvt, State.wcvtAsk, new_, List.isEmpty_nil, if_true, quiet, Bool.false_eq_true, if_false, here, page]

/-- The WCVT of a token, as it enters the buffer. -/
def startedWcvt (s : State) (k : Token) : Cmd := { newCmd s.nextId k none with started := true }
theorem startedWcvt_ag : (startedWcvt s k).ag 0 = Fin.ofNat 4 (fld k.payload 8 2) := newCmd_ag s.nextId k none
theorem buffered_gen (g : Fin 4) : ((s.acting t f l).bufferCmd t f (startedWcvt s k)).gen t f g = s.gen t f g := by
  rw [State.gen, State.bufferCmd_fac, State.acting_fac, State.gen]
theorem buffered_mode : ((s.acting t f l).bufferCmd t f (startedWcvt s k)).mtMode t f = s.mtMode t f := by
  rw [State.mtMode, State.bufferCmd_fac, State.acting_fac, State.mtMode]

end

theorem quickCommands : QuickCommands := by
  intro s t f k l first runs
  dsimp only
  refine ⟨fun good => ?agstop, fun good => ?agqry, fun good => ?darm, fun good => ?dpost, fun good free => ⟨fun fails => ?refused, ?asks⟩⟩
  case agstop =>
    have run := (exec_agstopCommand t f s).trans (quickStep_acts first runs good _)
    simp only [State.agStop, newCmd_ag, State.acting_gen, State.answerCmd, newCmd_op good] at run
    refine ⟨fun bad => ?_, fun configured root idle => ?_⟩
    · rw [if_pos (by rcases bad with h | h <;> rw [h] <;> simp)] at run
      exact acted_answers actsOn_acting State.acting_pend4 (by decide) (by decide) run nofun trivial
    · have none_ : (s.acting t f l).cmdOn t f (Fin.ofNat 4 (fld k.payload 8 2)) = none := by
        rw [← idle, State.cmdOn, State.acting_fac, State.cmdOn]
      rw [configured, root, none_] at run
      refine acted_answers actsOn_acting State.acting_pend4 (by decide) (by decide) run (fun v h => ⟨v, h, rfl⟩) ?_
      rw [State.complete_gen, State.acting_gen]
  case agqry =>
    have run := (exec_agqryCommand t f s).trans (quickStep_acts first runs good _)
    have sel : (newCmd 0 k none).m 2 2 = fld k.payload 10 2 := newCmd_m _ _ _ (by decide)
    simp only [State.agQuery, newCmd_ag, State.acting_gen, State.answerCmd, newCmd_op good, sel] at run
    refine ⟨fun bad => ?_, fun configured low => ?_, fun configured high => ?_⟩
    · rw [if_pos (by rw [bad]; rfl)] at run
      exact acted_answers actsOn_acting State.acting_pend4 (by decide) (by decide) run nofun trivial
    · rw [if_neg (by rw [configured]; decide), if_neg (by omega), if_pos low] at run
      refine acted_answers actsOn_acting State.acting_pend4 (by decide) (by decide) run (fun v h => ⟨_, rfl, ?_⟩) ?_
      · cases h
        exact Nat.mod_mod ..
      · rw [State.complete_gen, State.acting_gen]
    · rw [if_neg (by rw [configured]; decide), if_neg (by omega), if_neg (by omega), if_pos high] at run
      refine acted_answers actsOn_acting State.acting_pend4 (by decide) (by decide) run (fun v h => ⟨v, h, rfl⟩) ?_
      rw [State.complete_gen, State.acting_gen]
  case darm =>
    have run := (exec_darmCommand t f s).trans (quickStep_acts first runs good _)
    have small := isCommand_darm good
    have computes : (newCmd 0 k none).m 0 1 = fld k.payload 8 1 := newCmd_m _ _ _ (by decide)
    simp only [State.arm, newCmd_bv, newCmd_av, State.acting_node, State.answerCmd, newCmd_op good, computes] at run
    refine ⟨fun free => ?_, fun foreign => ?_⟩
    · have added : DepNode.free.add f (fld k.payload 26 32 : Nat) = ({ DepNode.free with count := (fld k.payload 26 32 : Nat), owner := some f }, true) :=
        (DepNode.add_inside (by show -32768 ≤ 0 + _; omega) (by show 0 + _ ≤ _; omega)).trans (by rw [show DepNode.free.count = 0 from rfl, Int.zero_add])
      rw [free, show DepNode.free.foreign f = false from rfl, show DepNode.free.armed = false from rfl, added] at run
      refine acted_answers (actsOn_setNode _ _) (State.setNode_pend4 .. |>.trans State.acting_pend4) (by decide) (by decide) run ?_ ?_
      · intro v h
        cases h
        exact ⟨_, rfl, by rw [wrapInt_natCast (by omega)]⟩
      · rw [State.complete_node, State.setNode_node, if_neg (by simp [DepNode.isFree])]
        exact ⟨rfl, rfl, rfl, by rw [beq_eq_decide]⟩
    · rw [if_pos foreign] at run
      refine acted_answers actsOn_acting State.acting_pend4 (by decide) (by decide) run nofun ?_
      rw [State.complete_node, State.acting_node]
  case dpost =>
    have run := (exec_dpostCommand t f s).trans (quickStep_acts first runs good _)
    simp only [State.post, newCmd_bv, newCmd_av, State.acting_node, State.answerCmd, newCmd_op good] at run
    refine ⟨fun own low high => ?_, fun foreign => ?_⟩
    · rw [if_neg (by rw [own]; decide), DepNode.add_inside (by rwa [← Int.sub_eq_add_neg]) (by omega), if_pos rfl] at run
      refine acted_answers (actsOn_setNode _ _) (State.setNode_pend4 .. |>.trans State.acting_pend4) (by decide) (by decide) run nofun ?_
      rw [State.complete_node, State.setNode_count]
      rfl
    · rw [if_pos foreign] at run
      refine acted_answers actsOn_acting State.acting_pend4 (by decide) (by decide) run nofun ?_
      rw [State.complete_node, State.acting_node]
  case refused =>
    have run := (exec_wcvtCommand t f s).trans (quickStep_acts first runs good _)
    have op : (newCmd s.nextId k none).op = 0xBB := isCommand_op good
    have ended := State.endCmd_done (s := s.acting t f l) (t := t) (f := f) (c := { newCmd s.nextId k none with status := 2, done := true }) rfl
      (if_neg (by show ¬(_ ∧ (newCmd s.nextId k none).op ≤ _); rw [op]; decide))
      (by show (newCmd s.nextId k none).op ≠ _; rw [op]; decide)
    rw [State.wcvtStart, State.wcvtPass_acting, show (s.acting t f l).nextId = s.nextId from rfl, fails, if_neg Bool.false_ne_true, ended] at run
    simp only [op] at run
    exact acted_answers (actsOn_delCmd _) (State.delCmd_pend4 .. |>.trans State.acting_pend4) (by decide) (by decide) run nofun trivial
  case asks =>
    intro pa leaf passes quiet here page
    have run := (exec_wcvtCommand t f s).trans (quickStep_acts first runs good _)
    rw [State.wcvtStart, State.wcvtPass_acting, show (s.acting t f l).nextId = s.nextId from rfl, passes, if_pos rfl] at run
    obtain ⟨q, asks, id, form, addr, size, facet⟩ := stepWcvt_asks (s := (s.acting t f l).bufferCmd t f (startedWcvt s k)) (c := startedWcvt s k)
      (form := if fld k.payload 10 1 = 1 then 8 else 0) rfl (by rwa [buffered_gen, startedWcvt_ag])
      (by rw [startedWcvt, Cmd.m, ← newCmd_m s.nextId k none (by decide : 2 + 1 ≤ 18), Cmd.m])
      (by rw [buffered_gen, startedWcvt_ag, State.genAt_congr buffered_mode rfl rfl, startedWcvt, newCmd_av]; exact here)
      (by rw [buffered_gen, startedWcvt_ag]; exact page)
    obtain ⟨mts, listed⟩ := State.engIssue_unlocked (s := (s.acting t f l).bufferCmd t f (startedWcvt s k)) (q := q) (t := t)
      (by rw [facet]; exact free)
    have fac : (((((s.acting t f l).bufferCmd t f (startedWcvt s k)).engIssue t q).mt t).fac f) =
      { (s.mt t).fac f with quick := l, cmds := ((s.mt t).fac f).cmds ++ [startedWcvt s k] } := by
      rw [State.mt_of_mts mts, State.bufferCmd_fac, State.acting_fac]
      rfl
    refine ⟨_, q.sent _, { startedWcvt s k with reads := [q.id] }, run.trans (congrArg _ asks), ⟨?_, ?_, ?_⟩, listed, form, addr, size, facet, ?_, rfl,
      isCommand_op good, rfl, rfl, rfl⟩
    · rw [State.setCmd_fac, fac]
    · rw [State.setCmd_fac, fac]
    · exact (State.engIssue_mem ..)
    · rw [State.setCmd_fac, fac]
      exact List.mem_map.2 ⟨startedWcvt s k, List.mem_append_right _ (List.mem_singleton_self _), if_pos rfl⟩

/-- Settles O47: a take consumes the head token and acts on the facet's buffer, a node or its completions, and so does a command that was taken. -/
theorem commandTakes : Obligations.CommandTakes := ⟨tokensTaken, quickCommands⟩

end Sys2Proof.Machine
end

section
/-! SUPPORT. Completions on mo4, permits and dones, launches of nodes and starts of commands (R287, R289, R293, R301, R326). -/

namespace Sys2Proof.Machine

/-! Changes of one tile's MT -/

theorem State.modMt_onlyMt (s : State) (t : Tile) (h : MemTile → MemTile) : OnlyMt s (s.modMt t h) t :=
  ⟨rfl, fun _ other => s.modMt_mt_other _ _ _ other⟩
theorem State.modMtFac_onlyMt (s : State) (t : Tile) (f : Facet) (h : MtFacet → MtFacet) : OnlyMt s (s.modMtFac t f h) t := s.modMt_onlyMt t _
theorem onlyMt_trans {a b c : State} {t : Tile} (h : OnlyMt a b t) (k : OnlyMt b c t) : OnlyMt a c t :=
  ⟨by rw [← h.1, ← k.1], fun u other => (k.2 u other).trans (h.2 u other)⟩
theorem onlyMt_foldl {α : Type} {t : Tile} {step : State → α → State} (each : ∀ s x, OnlyMt s (step s x) t) (l : List α) (s : State) :
    OnlyMt s (l.foldl step s) t := by
  induction l generalizing s with
  | nil => exact ⟨rfl, fun _ _ => rfl⟩
  | cons x l ih => exact onlyMt_trans (each s x) (ih _)

section
variable {s : State} {t : Tile} {f : Facet}
theorem State.modGen_fac (g : Fin 4) (h : Gen → Gen) :
    ((s.modGen t f g h).mt t).fac f = { (s.mt t).fac f with gens := vmod ((s.mt t).fac f).gens g h } := by
  rw [State.modGen, State.modMtFac_mt_same, MemTile.modFac_fac_same]
theorem State.modGen_gen_same (g : Fin 4) (h : Gen → Gen) : (s.modGen t f g h).gen t f g = h (s.gen t f g) := by
  rw [State.gen, State.modGen_fac]
  exact vget_vmod_same ..
theorem State.modGen_gen_other {g i : Fin 4} (h : Gen → Gen) (other : i ≠ g) : (s.modGen t f g h).gen t f i = s.gen t f i := by
  rw [State.gen, State.modGen_fac]
  exact vget_vmod_other _ _ _ _ other

/-! Permits and dones (R301) -/

theorem exec_commandCompletion (t : Tile) (s : State) : exec (.commandCompletion t) s = execCommandCompletion t s := rfl
theorem exec_permitArrival (t : Tile) (f : Facet) (ag : Fin 4) (s : State) : exec (.permitArrival t f ag) s = execPermitArrival t f ag s := rfl
theorem exec_doneArrival (t : Tile) (f : Facet) (ag : Fin 4) (s : State) : exec (.doneArrival t f ag) s = execDoneArrival t f ag s := rfl
theorem exec_commandStart (t : Tile) (f : Facet) (k : Nat) (s : State) : exec (.commandStart t f k) s = execCommandStart t f k s := rfl

/-- The count of a child that replaces its older one is the one found. -/
theorem find?_filter_append {α : Type} (l : List (Nat × α)) (k : Nat) (v : α) :
    (l.filter (fun y => y.1 != k) ++ [(k, v)]).find? (fun x => x.1 == k) = some (k, v) := by
  rw [List.find?_append, List.find?_eq_none.2, Option.none_or]
  · simp
  · intro x hx
    have := (List.mem_filter.1 hx).2
    simpa using this

end

theorem completionsAndPermits : CompletionsAndPermits := by
  refine ⟨fun s t c rest mtTile inFabric moves oldest done room => ?_, fun s t f ag p l first moves => ⟨fun due => ?_, fun early => ?_⟩,
    fun s t f ag d l first moves => ⟨fun due => ?_, fun early => ?_⟩⟩
  · have go : (!t.isCT && t.inFabric && !s.tileHalted t && c.reqs.all (fun id => s.performed id c.scope) && s.mtRoom t 4) = true := by
      rw [mtTile, inFabric, moves, room, List.all_eq_true.2 done]; rfl
    have run : exec (.commandCompletion t) s = .next (State.mtSend (s.modMt t fun m => { m with pend4 := rest }) t 4 c.tok []) := by
      simp only [exec_commandCompletion, execCommandCompletion, oldest]
      exact when_of_true go
    refine ⟨_, run, onlyMt_trans (s.modMt_onlyMt t _) (State.modMt_onlyMt _ t _), ?_, ?_, ?_, ?_⟩
    · rw [Queued, State.mtSend, State.modMt_mt_same, State.modMt_mt_same]
      exact vget_vmod_same ..
    all_goals rw [State.mtSend, State.modMt_mt_same, State.modMt_mt_same]
    exact fun p other => vget_vmod_other _ _ _ _ other
  · have go : (decide (p.1 ≤ s.cycle) && !s.tileHalted t) = true := by rw [moves, decide_eq_true due]; rfl
    have run : exec (.permitArrival t f ag) s =
        .next (s.modGen t f ag fun x => { x with comingPermits := l, permits := x.permits ++ [p.2] }) := by
      simp only [exec_permitArrival, execPermitArrival, first]
      exact when_of_true go
    exact ⟨_, run, s.modMtFac_onlyMt t f _, State.modGen_gen_same ag _, fun h other => State.modGen_gen_other _ other⟩
  · simp only [exec_permitArrival, execPermitArrival, first]
    exact when_of_false (by rw [decide_eq_false (by omega)]; rfl)
  · have go : (decide (d.1 ≤ s.cycle) && !s.tileHalted t) = true := by rw [moves, decide_eq_true due]; rfl
    have run : exec (.doneArrival t f ag) s = .next (s.modGen t f ag fun x =>
        { x with comingDones := l, dones := x.dones.filter (fun y => y.1 != d.2.1) ++ [(d.2.1, d.2.2 + 1)] }) := by
      simp only [exec_doneArrival, execDoneArrival, first]
      exact when_of_true go
    refine ⟨_, run, s.modMtFac_onlyMt t f _, ?_, ?_, ?_, fun h other => State.modGen_gen_other _ other⟩
    all_goals rw [State.modGen_gen_same]
    exact find?_filter_append ..
  · simp only [exec_doneArrival, execDoneArrival, first]
    exact when_of_false (by rw [decide_eq_false (by omega)]; rfl)

/-! Nodes (R326) -/

section
variable {s : State} {t : Tile} {i : Fin 32}

/-- The state in which the node is free again. -/
def State.freed (s : State) (t : Tile) (i : Fin 32) : State := s.modMt t fun m => { m with nodes := vset m.nodes i DepNode.free }
theorem freed_fac (h : Facet) : ((s.freed t i).mt t).fac h = (s.mt t).fac h := by rw [State.freed, State.modMt_mt_same, MemTile.fac_nodes]
theorem freed_node : (s.freed t i).node t i = DepNode.free := by
  rw [State.node, State.freed, State.modMt_mt_same]
  exact vget_vset_same ..
theorem freed_pend4 : ((s.freed t i).mt t).pend4 = (s.mt t).pend4 := by rw [State.freed, State.modMt_mt_same]
theorem State.succAll_none (s : State) (t : Tile) (f : Facet) (b : Bool) : s.succAll t f 0 b = (s, true) := by simp [State.succAll]

/-- The completion of a launch: the node with NV, and LNCH unless the node has failed. -/
theorem launch_completion {a : State} (pend4 : (a.mt t).pend4 = (s.mt t).pend4) (f : Facet) (failed : Bool) {status : Nat}
    (code : status = if failed then 13 else 0) :
    ∃ c, ((a.complete t f none opDarm status (some i) (!failed) .pair []).mt t).pend4 = (s.mt t).pend4 ++ [c] ∧ c.facet = f ∧ c.tok.kind = 0 ∧
      c.tok.pred = failed ∧ fld c.tok.payload 32 8 = 0xB9 ∧ fld c.tok.payload 40 5 = (if failed then 13 else 0) ∧
      fld c.tok.payload 47 5 = i.val ∧ bit c.tok.payload 52 = true ∧ bit c.tok.payload 53 = !failed := by
  obtain ⟨-, op, stat, node, named, lnch⟩ := doneWord_fields ((none : Option Nat).getD (Config.freeWord a.free).toNat) opDarm status (some i) (!failed)
  obtain ⟨-, kind, pred, -⟩ := mkTok_tag f kData (status != 0) false false false
    (doneWord ((none : Option Nat).getD (Config.freeWord a.free).toNat) opDarm status (some i) (!failed))
  refine ⟨a.completion f none opDarm status (some i) (!failed) .pair [], by rw [State.complete_mt, pend4], rfl, kind, pred.trans ?_, op, stat.trans ?_,
    node, bit_of_fld named, bit_of_fld lnch⟩ <;> subst code <;> cases failed <;> rfl

theorem nodeLaunches : NodeLaunches := by
  intro s t i mtTile inFabric armed zero
  dsimp only
  intro runs
  have ready (h : (s.node t i).compute = true ∨ (s.node t i).parked.isSome = true) :
      exec (.nodeLaunch t i) s = .next (s.launchNode t i) := by
    refine when_of_true ?_
    rw [mtTile, inFabric, DepNode.ready, armed, zero, runs]
    rcases h with h | h <;> simp [h]
  refine ⟨fun k parked sound copies => ?_, fun alone computes => ?_⟩
  · refine ⟨_, newCmd s.nextId k (some i), ready (.inr (by rw [parked]; rfl)), ?_, ?_, rfl, newCmd_mod .., newCmd_av .., rfl, rfl, rfl, ?_, ?_⟩
    all_goals simp only [State.launchNode, parked, sound, copies, Bool.false_eq_true, if_false, Option.map_some]
    · rw [State.node, State.modMtFac_mt_same, MemTile.modFac_nodes]
      exact freed_node
    · rw [State.modMtFac_mt_same, MemTile.modFac_fac_same]
      exact congrArg (fun x : MtFacet => x.cmds ++ _) (freed_fac (s := s) (i := i) _)
    · rw [State.modMtFac_mt_same, MemTile.modFac_pend4]
      exact freed_pend4
    · rfl
  · obtain ⟨c, queued, rest⟩ := launch_completion (s := s) (i := i) freed_pend4 ((s.node t i).owner.getD 0) (s.node t i).failed rfl
    have launched : s.launchNode t i = (s.freed t i).complete t ((s.node t i).owner.getD 0) none opDarm
        (if (s.node t i).failed then 13 else 0) (some i) (!(s.node t i).failed) .pair [] := by
      cases failed : (s.node t i).failed
      · simp only [State.launchNode, failed, computes, Bool.false_eq_true, if_false, if_true]
        rfl
      · have none_ : (s.node t i).parked = none := alone.resolve_right (by rw [failed]; decide)
        simp only [State.launchNode, failed, none_, if_true, Option.map_none, Option.elim_none, State.succAll_none]
        rfl
    have run := ready (.inl computes)
    rw [launched] at run
    obtain ⟨facet, kind, pred, op, stat, node, named, lnch⟩ := rest
    refine ⟨_, c, run, ?_, ?_, queued, facet, kind, pred, op, stat, node, named, lnch, State.complete_mem ..⟩
    · rw [State.complete_node, freed_node]
    · rw [State.complete_fac, freed_fac]

/-! Starts (R287, R293) -/

/-- What a walk's frames say of it. -/
theorem Gen.haspar_congr {x y : Gen} (h : x.cfg = y.cfg) : x.haspar = y.haspar := by rw [Gen.haspar, Gen.word, h, Gen.haspar, Gen.word]
theorem Gen.per_congr {x y : Gen} (h : x.cfg = y.cfg) : x.per = y.per := by
  have groups : x.groups = y.groups := by funext k; rw [Gen.groups, h, Gen.groups]
  have ext : x.ext = y.ext := by funext j; rw [Gen.ext, Gen.level, groups, Gen.ext, Gen.level]
  rw [Gen.per, Gen.levels, Gen.word, h, ext, Gen.per, Gen.levels, Gen.word]

section
variable {f : Facet} {F : Fin 4 → Gen → Gen}
theorem foldl_modGen_other {l : List (Fin 4)} {g : Fin 4} (out : g ∉ l) (s : State) :
    (l.foldl (fun s i => s.modGen t f i (F i)) s).gen t f g = s.gen t f g := by
  induction l generalizing s with
  | nil => rfl
  | cons i l ih =>
    rw [List.foldl_cons, ih (fun h => out (List.mem_cons_of_mem _ h)), State.modGen_gen_other _ fun h => out (List.mem_cons.2 (.inl h))]
/-- A generator that a list names once or more is changed from one with its frames. -/
theorem foldl_modGen_same (keeps : ∀ i x, (F i x).cfg = x.cfg) {l : List (Fin 4)} {g : Fin 4} (named : g ∈ l) (s : State) :
    ∃ x, x.cfg = (s.gen t f g).cfg ∧ (l.foldl (fun s i => s.modGen t f i (F i)) s).gen t f g = F g x := by
  induction l generalizing s with
  | nil => cases named
  | cons i l ih =>
    by_cases again : g ∈ l
    · obtain ⟨x, cfg, same⟩ := ih again (s.modGen t f i (F i))
      refine ⟨x, cfg.trans ?_, same⟩
      by_cases own : g = i
      · rw [own, State.modGen_gen_same, keeps]
      · rw [State.modGen_gen_other _ own]
    · obtain rfl : g = i := (List.mem_cons.1 named).resolve_right again
      exact ⟨s.gen t f g, rfl, by rw [List.foldl_cons, foldl_modGen_other again, State.modGen_gen_same]⟩
end

section
variable {f : Facet}
theorem State.setCmd_gen (c : Cmd) (g : Fin 4) : (s.setCmd t f c).gen t f g = s.gen t f g := by rw [State.gen, State.setCmd_fac, State.gen]
/-- A command's place in the buffer holds what replaces it. -/
theorem State.setCmd_cmdAt {k : Nat} {c : Cmd} (found : s.cmdAt t f k = some c) {c' : Cmd} (named : c'.id = c.id) :
    (s.setCmd t f c').cmdAt t f k = some c' := by
  rw [State.cmdAt] at found
  rw [State.cmdAt, State.setCmd_fac, List.getElem?_map, found]
  exact congrArg some (if_pos named.symm)
theorem State.startGens_onlyMt (c : Cmd) : OnlyMt s (s.startGens t f c) t := onlyMt_foldl (fun a _ => a.modMtFac_onlyMt t f _) _ s
theorem foldl_modGen_cmds {F : Fin 4 → Gen → Gen} (l : List (Fin 4)) (s : State) :
    ((((l.foldl (fun s i => s.modGen t f i (F i)) s).mt t).fac f).cmds) = ((s.mt t).fac f).cmds := by
  induction l generalizing s with
  | nil => rfl
  | cons i l ih => rw [List.foldl_cons, ih, State.modGen_fac]
theorem State.startGens_cmdAt (c : Cmd) (k : Nat) : (s.startGens t f c).cmdAt t f k = s.cmdAt t f k :=
  congrArg (fun l : List Cmd => l[k]?) (foldl_modGen_cmds c.occupies s)
/-- The run state and the position of a generator at the start of a command that walks it. -/
theorem State.startGens_gen {c : Cmd} {g : Fin 4} (named : g ∈ c.occupies) :
    ((s.startGens t f c).gen t f g).run = (if c.op = 0xB6 ∧ (s.gen t f g).haspar then .waiting else .running) ∧
      ((s.startGens t f c).gen t f g).spos = (if c.op = 0xB6 then c.av.toNat * (s.gen t f g).per else 0) ∧
      ((s.startGens t f c).gen t f g).cfg = (s.gen t f g).cfg := by
  obtain ⟨x, cfg, same⟩ := foldl_modGen_same (t := t) (f := f)
    (F := fun i x =>
      if c.op = opAgstart then
        { x with run := if x.haspar then .waiting else .running, wr := decide (c.op = opSexp) || decide (c.op = opSscat) || decide (c.op = opSred) ||
          (decide (c.op = opAgstart) && c.m 2 1 == 1), outer := c.av.toNat, dones := [], spos := c.av.toNat * x.per }
      else { x with run := .running, wr := (decide (c.op = opSexp) || decide (c.op = opSscat) || decide (c.op = opSred) ||
        (decide (c.op = opAgstart) && c.m 2 1 == 1)) || (decide (c.op = opScopy) && i == c.ag 2 && c.ag 0 != c.ag 2), spos := 0, outer := 0 })
    (fun i x => by split <;> rfl) named s
  have started : (s.startGens t f c).gen t f g = _ := same
  rw [started]
  by_cases ag : c.op = 0xB6
  · rw [if_pos (show c.op = opAgstart from ag), Gen.haspar_congr cfg, Gen.per_congr cfg]
    exact ⟨by simp [ag], by simp [ag], cfg⟩
  · rw [if_neg (show ¬c.op = opAgstart from ag)]
    exact ⟨by simp [ag], by simp [ag], cfg⟩
end
end

theorem commandStarts : CommandStarts := by
  intro s t f k c found waits runs buffered gens sparse
  have run : exec (.commandStart t f k) s = .next (s.startCmd t f c) := by
    simp only [exec_commandStart, execCommandStart, found]
    exact when_of_true (by rw [waits, runs, buffered, gens, sparse]; rfl)
  refine ⟨⟨_, run, ?only, ?placed, fun fails g => ?fails, fun passes g named => ?starts⟩, fun ⟨g, named, bare⟩ => ?bare⟩
  case only =>
    unfold State.startCmd
    dsimp only
    split
    · exact onlyMt_trans (s.startGens_onlyMt c) (State.modMtFac_onlyMt _ t f _)
    · exact s.modMtFac_onlyMt t f _
  case placed =>
    unfold State.startCmd
    dsimp only
    refine State.setCmd_cmdAt (c := c) ?_ rfl
    split
    · rw [State.startGens_cmdAt]
      exact found
    · exact found
  case fails =>
    unfold State.startCmd
    dsimp only
    rw [if_neg fails, State.setCmd_gen]
  case starts =>
    unfold State.startCmd
    dsimp only
    rw [if_pos passes, State.setCmd_gen]
    exact State.startGens_gen (c := { c with started := true, status := s.startStatus t f c, last := s.walkLen t f c }) named
  case bare =>
    have refused : s.gensPass t f c = false :=
      List.all_eq_false.2 ⟨g, named, by rw [State.genPasses, bare]; simp⟩
    rw [State.startStatus, refused]
    rfl

/-- Settles O49: completions, permits and dones move one at a time, a launch frees its node, and a start walks the generators of its command. -/
theorem commandControl : Obligations.CommandControl := ⟨completionsAndPermits, nodeLaunches, commandStarts⟩

end Sys2Proof.Machine
end

section
/-! SUPPORT. Why the statement about running stream commands fails (R294): a read walk's tokens leave together, and the statement asks for room for
the tokens of one element alone, whatever number of reads the command has listed. -/

namespace Sys2Proof.Machine

theorem exec_readWalkElement (t : Tile) (f : Facet) (k : Nat) (s : State) : exec (.readWalkElement t f k) s = execReadWalkElement t f k s := rfl

/-- A memory tile, the AGSTART of a read walk of one-token elements that lists its one read twice, and the request of that read, which is back. -/
def walkTile : Tile := ⟨3, 0⟩
def twiceRead : Cmd :=
  { id := 1, op := 0xB6, mod := 0, av := 0, bv := 0, node := none, started := true, pos := 0, posw := 0, last := 1, buf := [], reqs := [],
    reads := [0, 0], cur := none, slots := [], cache := [], taken := 0, res := 0, status := 0, draining := false, done := false }
def readBack : Req :=
  { id := 0, src := .engine walkTile 0 1, form := 0, loc := 0, addr := 0, size := 1, region := none, die := 0, facet := 0, reach := 0,
    stage := .replied (.data 7 false) }
/-- Output queue 0 holds 15 tokens: there is room for one more, not for two. -/
def crowdedWalk : State :=
  { State.reset with
    reqs := [readBack]
    mts := [(walkTile.key, { MemTile.reset with
      facets := vset MemTile.reset.facets 0 { MtFacet.reset with
        cmds := [twiceRead], gens := vset MtFacet.reset.gens 0 { Gen.reset with run := .running, outer := 1 } }
      outq := vset MemTile.reset.outq 0 (List.replicate 15 ⟨mkTok 0 kData false false false false 0, 0, []⟩) })] }

theorem crowdedWalk_walks : Walks crowdedWalk walkTile 0 0 twiceRead where
  found := by decide +kernel
  started := rfl
  runs := by decide +kernel
  going := ⟨rfl, rfl, rfl, rfl⟩
  op := rfl
  notBuf := by decide
  gen := by decide +kernel
  pos := by decide +kernel
  inner := by decide +kernel
theorem crowdedWalk_back : crowdedWalk.engData twiceRead.reads = some [.ok (7, false, false), .ok (7, false, false)] := by decide +kernel
/-- The walk waits: nothing joins the queue. -/
theorem crowdedWalk_waits : ∀ s', exec (.readWalkElement walkTile 0 0) crowdedWalk = .next s' → ((s'.mt walkTile).outq.get 0).length = 15 := by
  have run : exec (.readWalkElement walkTile 0 0) crowdedWalk = .next (crowdedWalk.readStep walkTile 0 twiceRead) := by
    rw [exec_readWalkElement, execReadWalkElement, crowdedWalk_walks.found]
    exact when_of_true (by rw [crowdedWalk_walks.runs]; rfl)
  intro s' h
  cases run.symm.trans h
  decide +kernel

/-- Refutes O50: with room for the one token of an element, the two tokens of a command that lists two reads stay, and the statement has them in
the queue. -/
theorem not_commandRuns : ¬ Obligations.CommandRuns := by
  intro ⟨walks, _⟩
  obtain ⟨reading, -⟩ := walks crowdedWalk walkTile 0 0 twiceRead crowdedWalk_walks
  obtain ⟨-, back⟩ := reading (by decide)
  obtain ⟨s', -, run, queued, -⟩ := back _ (by decide) crowdedWalk_back rfl (by decide +kernel) (by decide +kernel)
  have waits := crowdedWalk_waits s' run
  have joins := congrArg List.length queued
  have before : ((crowdedWalk.mt walkTile).outq.get 0).length = 15 := by decide +kernel
  rw [List.length_append, List.length_map] at joins
  have port : Fin.ofNat 16 (twiceRead.ag 0).val = 0 := by decide
  rw [port, waits, before] at joins
  exact absurd joins (by decide +kernel)

end Sys2Proof.Machine
end

section
/-! SUPPORT. What the matrix unit takes from mi6, and what acts in the cycle after (R330, R333, R345): the take said once, the fields of a fresh
command, and the completion of the matrix unit. -/

namespace Sys2Proof.Machine

/-! Completions on mo6 (R330) -/

section
variable (s : State) (t : Tile) (f : Facet) (result : Option Nat) (op status : Nat)
theorem State.mxComplete_mts : (s.mxComplete t f result op status).mts =
    (s.modMt t fun m => { m with pend6 := m.pend6 ++ [s.completion f result op status none false .pair []] }).mts := by
  unfold State.mxComplete
  rw [State.phaseCommit_mts]
  cases result <;> simp only [Option.isNone, Bool.false_eq_true, if_true, if_false] <;> split <;>
    simp only [State.modMt, State.setMt, State.mt, State.cause_mts] <;> rfl
@[simp] theorem State.mxComplete_mt : (s.mxComplete t f result op status).mt t =
    { s.mt t with pend6 := (s.mt t).pend6 ++ [s.completion f result op status none false .pair []] } :=
  (State.mt_of_mts (s.mxComplete_mts ..) t).trans (s.modMt_mt_same ..)
theorem State.mxComplete_fac (h : Facet) : ((s.mxComplete t f result op status).mt t).fac h = (s.mt t).fac h := by
  rw [State.mxComplete_mt, MemTile.fac_pend6]
theorem State.mxComplete_mxf (h : Facet) : (s.mxComplete t f result op status).mxf t h = s.mxf t h := by
  rw [State.mxf, State.mxComplete_fac, State.mxf]
end

/-- A completion that is queued behind those of s answers with its opcode, its status and its RES. -/
theorem mxAnswers_of_mxComplete {s a s' : State} {t : Tile} {f : Facet} {result : Option Nat} {op status : Nat} (small : op < 256)
    (code : status < 32) (queued : (s'.mt t).pend6 = ((a.mxComplete t f result op status).mt t).pend6)
    (same : (a.mt t).pend6 = (s.mt t).pend6) : MxAnswers s s' t f op status result := by
  obtain ⟨res, opcode, stat, -⟩ := doneWord_fields (result.getD (Config.freeWord a.free).toNat) op status none false
  obtain ⟨facet, kind, pred, -⟩ := mkTok_tag f kData (status != 0) false false false
    (doneWord (result.getD (Config.freeWord a.free).toNat) op status none false)
  refine ⟨a.completion f result op status none false .pair [], by rw [queued, State.mxComplete_mt, same], rfl, kind, facet,
    pred.trans (Bool.eq_iff_iff.2 (by simp)), opcode.trans (Nat.mod_eq_of_lt small), stat.trans (Nat.mod_eq_of_lt code), fun v h => ?_⟩
  subst h
  exact res

/-! The matrix unit's part of a facet -/

section
variable {s : State} {t : Tile} {f : Facet}
theorem State.modMx_fac (g : MxFacet → MxFacet) : ((s.modMx t f g).mt t).fac f = { (s.mt t).fac f with mx := g (s.mxf t f) } := by
  rw [State.modMx, State.modMtFac_mt_same, MemTile.modFac_fac_same]
  rfl
@[simp] theorem State.modMx_mxf (g : MxFacet → MxFacet) : (s.modMx t f g).mxf t f = g (s.mxf t f) := by rw [State.mxf, State.modMx_fac]
theorem State.modMx_pend6 (g : MxFacet → MxFacet) : ((s.modMx t f g).mt t).pend6 = (s.mt t).pend6 := by
  rw [State.modMx, State.modMtFac_mt_same, MemTile.modFac_pend6]

/-! The fields of a fresh command (R329, R333) -/

theorem bit_ofNat_fld {k j : Nat} (w : BitVec k) {lo n i : Nat} (inside : i < n) (fits : i < j) :
    bit (BitVec.ofNat j (fld w lo n)) i = bit w (lo + i) :=
  bit_of_fld ((fld_ofNat_fld w inside fits).trans (fld_one w _))
theorem physical_eq (a b : Bool) : physical a b = if a = b then 0 else 1 := by cases a <;> cases b <;> rfl

section
variable (s : State) (t : Tile) (f : Facet) (k : Token)
theorem newMx_mod : (s.newMx t f k).mod.toNat = fld k.payload 8 18 := toNat_ofNat_fld ..
theorem newMx_av : (s.newMx t f k).av.toNat = fld k.payload 26 32 := toNat_ofNat_fld ..
theorem newMx_bv : (s.newMx t f k).bv.toNat = fld k.payload 58 6 := toNat_ofNat_fld ..
theorem newMx_m {lo n : Nat} (h : lo + n ≤ 18) : (s.newMx t f k).m lo n = fld k.payload (8 + lo) n := fld_ofNat_fld _ h h
theorem newMx_bit {i : Nat} (h : i < 18) : bit (s.newMx t f k).mod i = bit k.payload (8 + i) := bit_ofNat_fld _ h h
theorem newMx_accPhys : (s.newMx t f k).accPhys = if bit k.payload 12 = (s.mxf t f).amap then 0 else 1 := by
  rw [← physical_eq, ← newMx_bit s t f k (i := 4) (by decide)]
  rfl
theorem newMx_bufPhys : (s.newMx t f k).bufPhys = if bit k.payload 13 = (s.mxf t f).bmap then 0 else 1 := by
  rw [← physical_eq, ← newMx_bit s t f k (i := 5) (by decide)]
  rfl
end
theorem isMatrix_op {op : Nat} {k : Token} (h : isMatrix op k = true) : cmdOp k = op := by
  simp only [isMatrix, Bool.and_eq_true, beq_iff_eq] at h
  exact h.2
theorem newMx_op {op : Nat} {k : Token} (h : isMatrix op k = true) : (s.newMx t f k).op = op := isMatrix_op h
theorem cmdOp_lt (k : Token) : cmdOp k < 256 := fld_lt ..

/-! A take (R330, R333) -/

/-- The state in which the head token of mi6 is gone, and the one in which the next facet is served next. -/
def State.mxPopped (s : State) (t : Tile) (f : Facet) : State := s.modMtFac t f (·.pop 6)
def State.mxTurned (s : State) (t : Tile) (f : Facet) : State := s.modMt t fun m => { m with mxTake := f + 1 }
theorem mxPopped_fac : ((s.mxPopped t f).mt t).fac f = ((s.mt t).fac f).pop 6 := by simp [State.mxPopped]
@[simp] theorem mxPopped_mxf : (s.mxPopped t f).mxf t f = s.mxf t f := by rw [State.mxf, mxPopped_fac]; rfl
theorem mxPopped_pend6 : ((s.mxPopped t f).mt t).pend6 = (s.mt t).pend6 := by simp [State.mxPopped]
theorem mxTurned_fac (a : State) : ((a.mxTurned t f).mt t).fac f = (a.mt t).fac f := by simp [State.mxTurned]
@[simp] theorem mxTurned_mxf (a : State) : (a.mxTurned t f).mxf t f = a.mxf t f := by rw [State.mxf, mxTurned_fac, State.mxf]
@[simp] theorem mxTurned_pend6 (a : State) : ((a.mxTurned t f).mt t).pend6 = (a.mt t).pend6 := by simp [State.mxTurned]
@[simp] theorem newMx_mxPopped (k : Token) : (s.mxPopped t f).newMx t f k = s.newMx t f k := by
  simp only [State.newMx, mxPopped_mxf]
  rfl

variable {k : Token}
theorem mxTakes_run (takes : MxTakes s t f k) {h : Token → Bool} (good : h k = true) (act : Token → State → State) :
    s.mxTaking t f h act = .next ((act k (s.mxPopped t f)).mxTurned t f) := by
  obtain ⟨turn, head, plain⟩ := takes
  rw [State.mxTaking, if_pos turn, head, Option.filter_some, if_pos good]
  simp only [State.mtTaking_pops head plain]
  rfl
/-- What follows the take keeps the queues of the facet and the memory. -/
theorem mxTaken_turned {a : State} (inq : ((a.mt t).fac f).inq = (((s.mt t).fac f).pop 6).inq) (mem : a.mem = s.mem) :
    MxTaken s (a.mxTurned t f) t f :=
  ⟨MtFacet.pop_takes (by rw [mxTurned_fac, inq]), by simp [State.mxTurned], mem⟩
/-- A take whose answer is queued in a state that has the queues and the completions of the one without the token. -/
theorem mxTakes_answers {i : Instr} {op status : Nat} {result : Option Nat} {a : State} {P : MxFacet → Prop}
    (run : exec i s = .next ((a.mxComplete t f result op status).mxTurned t f)) (small : op < 256) (code : status < 32)
    (inq : ((a.mt t).fac f).inq = (((s.mt t).fac f).pop 6).inq) (pend6 : (a.mt t).pend6 = (s.mt t).pend6) (mem : a.mem = s.mem) (holds : P (a.mxf t f)) :
    ∃ s', exec i s = .next s' ∧ MxTaken s s' t f ∧ MxAnswers s s' t f op status result ∧ P (s'.mxf t f) := by
  refine ⟨_, run, mxTaken_turned ?_ ((State.mxComplete_mem ..).trans mem), mxAnswers_of_mxComplete small code (mxTurned_pend6 _) pend6, ?_⟩
  · rw [State.mxComplete_fac, inq]
  · rwa [mxTurned_mxf, State.mxComplete_mxf]
/-- The changes of the unit's part of the facet that a take may make keep the queues and the completions. -/
theorem mxPopped_modMx_inq (g : MxFacet → MxFacet) : ((((s.mxPopped t f).modMx t f g).mt t).fac f).inq = (((s.mt t).fac f).pop 6).inq := by
  rw [State.modMx_fac, mxPopped_fac]
theorem mxPopped_modMx_pend6 (g : MxFacet → MxFacet) : (((s.mxPopped t f).modMx t f g).mt t).pend6 = (s.mt t).pend6 := by
  rw [State.modMx_pend6, mxPopped_pend6]

/-- A command that is buffered stands at the end of the buffer with the fields of its token. -/
theorem mxTakes_buffers {i : Instr} {op : Nat} {started : Bool} {c : MxCmd} (good : isMatrix op k = true)
    (fresh : c = { s.newMx t f k with started := started })
    (run : exec i s = .next (((s.mxPopped t f).bumpId.modMx t f fun x => { x with cmds := x.cmds ++ [c] }).mxTurned t f)) :
    ∃ s' c, exec i s = .next s' ∧ MxTaken s s' t f ∧
      (s'.mxf t f).cmds = (s.mxf t f).cmds ++ [c] ∧ c.id = s.nextId ∧ c.op = op ∧ c.mod.toNat = fld k.payload 8 18 ∧
      c.av.toNat = fld k.payload 26 32 ∧ c.bv.toNat = fld k.payload 58 6 ∧ c.started = started ∧ c.done = false ∧ c.status = 0 ∧
      c.accPhys = (if bit k.payload 12 = (s.mxf t f).amap then 0 else 1) ∧ c.bufPhys = (if bit k.payload 13 = (s.mxf t f).bmap then 0 else 1) ∧
      { s'.mxf t f with cmds := (s.mxf t f).cmds } = s.mxf t f := by
  have mxf : (s.mxPopped t f).bumpId.mxf t f = s.mxf t f := mxPopped_mxf
  have fac : (((s.mxPopped t f).bumpId.mt t).fac f) = ((s.mt t).fac f).pop 6 := mxPopped_fac
  subst fresh
  refine ⟨_, { s.newMx t f k with started := started }, run, mxTaken_turned ?_ rfl, ?_, rfl, isMatrix_op good, newMx_mod s t f k, newMx_av s t f k,
    newMx_bv s t f k, rfl, rfl, rfl, newMx_accPhys s t f k, newMx_bufPhys s t f k, ?_⟩
  · rw [State.modMx_fac, fac]
  · rw [mxTurned_mxf, State.modMx_mxf, mxf]
  · rw [mxTurned_mxf, State.modMx_mxf, mxf]

end

theorem matrixTakeForms_run (t : Tile) (f : Facet) (s : State) :
    ∀ x ∈ ([(0xC0, .mmaCommand), (0xC1, .mldbCommand), (0xC3, .maclrCommand), (0xC4, .mstoCommand), (0xC5, .mrdaCommand),
      (0xC9, .mfenceCommand)] : List (Nat × (Tile → Facet → Instr))), exec (x.2 t f) s = s.takeMx t f x.1 := by
  simp only [List.forall_mem_cons]
  exact ⟨rfl, rfl, rfl, rfl, rfl, rfl, nofun⟩
theorem exec_mslotCommand (t : Tile) (f : Facet) (s : State) : exec (.mslotCommand t f) s = execMslotCommand t f s := rfl
theorem exec_mscaleCommand (t : Tile) (f : Facet) (s : State) :
    exec (.mscaleCommand t f) s = s.mxQuickStep t f 0xC2 fun k s => s.mscale t f (s.newMx t f k) := rfl
theorem exec_mqryCommand (t : Tile) (f : Facet) (s : State) :
    exec (.mqryCommand t f) s = s.mxQuickStep t f 0xC7 fun k s => s.mqry t f (s.newMx t f k) := rfl
theorem matrixQuickForms_run (t : Tile) (f : Facet) (s : State) :
    ∀ x ∈ ([(0xC2, .mscaleCommand), (0xC7, .mqryCommand)] : List (Nat × (Tile → Facet → Instr))),
      ∃ act, exec (x.2 t f) s = s.mxQuickStep t f x.1 act := by
  simp only [List.forall_mem_cons]
  exact ⟨⟨_, exec_mscaleCommand t f s⟩, ⟨_, exec_mqryCommand t f s⟩, nofun⟩

section
variable {s : State} {t : Tile} {f : Facet} {k : Token} {l : List Token}
/-- Without a command of its operation that waits to act, MSCALE and MQRY take the head token. -/
theorem mxQuickStep_take {op : Nat} (h : ∀ h, (s.mxf t f).quick.head? = some h → isMatrix op h = false) (act : Token → State → State) :
    s.mxQuickStep t f op act = s.mxQuickTake t f op := by
  unfold State.mxQuickStep
  split
  · next k l head => rw [h k (by rw [head]; rfl), if_neg Bool.false_ne_true]
  · rfl

/-! MSLOT (R345) -/

/-- The state in which a fresh MSLOT stands in the buffer. -/
def State.mslotBuffered (s : State) (t : Tile) (f : Facet) (k : Token) : State :=
  (s.mxPopped t f).bumpId.modMx t f fun x => { x with cmds := x.cmds ++ [{ s.newMx t f k with started := true }] }
theorem mslotBuffered_mxf : (s.mslotBuffered t f k).mxf t f =
    { s.mxf t f with cmds := (s.mxf t f).cmds ++ [{ s.newMx t f k with started := true }] } := by
  have mxf : (s.mxPopped t f).bumpId.mxf t f = s.mxf t f := mxPopped_mxf
  rw [State.mslotBuffered, State.modMx_mxf, mxf]
theorem mslotBuffered_inq : (((s.mslotBuffered t f k).mt t).fac f).inq = (((s.mt t).fac f).pop 6).inq := by
  rw [State.mslotBuffered, State.modMx_fac]
  show (((s.mxPopped t f).mt t).fac f).inq = _
  rw [mxPopped_fac]
theorem mslotBuffered_pend6 : ((s.mslotBuffered t f k).mt t).pend6 = (s.mt t).pend6 := by
  rw [State.mslotBuffered, State.modMx_pend6]
  exact mxPopped_pend6
theorem mslot_run (takes : MxTakes s t f k) (good : isMatrix 0xC8 k = true) : exec (.mslotCommand t f) s =
    .next (((s.mslotBuffered t f k).mslotTry t f { s.newMx t f k with started := true }).mxTurned t f) := by
  rw [exec_mslotCommand, execMslotCommand, mxTakes_run takes (show isMatrix opMslot k = true from good)]
  simp only [newMx_mxPopped]
  rfl
/-- In the cycle of its take MSLOT is done where the slot admits the facet and the operand does not ask for a later slot. -/
theorem mslotDone_fresh : (s.mslotBuffered t f k).mslotDone t f { s.newMx t f k with started := true } = (s.admits t f && !bit k.payload 8) := by
  have now : (s.newMx t f k).taken = s.time t / 1000 := rfl
  have admits : (s.mslotBuffered t f k).admits t f = s.admits t f := rfl
  have time : (s.mslotBuffered t f k).time t = s.time t := rfl
  simp only [State.mslotDone, admits, time, newMx_bit s t f k (i := 0) (by decide), now, Nat.lt_irrefl, decide_false, Bool.false_and,
    Bool.or_false, Nat.add_zero]

/-! Commands that were taken in an earlier cycle (R333) -/

/-- The state in which a command that was taken acts: it is off the list. -/
def State.mxActing (s : State) (t : Tile) (f : Facet) (l : List Token) : State := s.modMx t f fun x => { x with quick := l }
theorem mxActing_mxf : (s.mxActing t f l).mxf t f = { s.mxf t f with quick := l } := State.modMx_mxf _
theorem mxQuickStep_acts {op : Nat} (first : (s.mxf t f).quick = k :: l) (runs : s.mtRuns t f = true) (good : isMatrix op k = true)
    (act : Token → State → State) : s.mxQuickStep t f op act = .next (act k (s.mxActing t f l)) := by
  simp only [State.mxQuickStep, first, good, if_true, runs, when_true]
  rfl
/-- An answer from a state that has the queues and the completions of the one in which the command acts. -/
theorem mxActed_answers {i : Instr} {op status : Nat} {result : Option Nat} {a : State} {P : MxFacet → Prop}
    (run : exec i s = .next (a.mxComplete t f result op status)) (small : op < 256) (code : status < 32)
    (inq : ((a.mt t).fac f).inq = ((s.mt t).fac f).inq) (pend6 : (a.mt t).pend6 = (s.mt t).pend6) (mem : a.mem = s.mem) (holds : P (a.mxf t f)) :
    ∃ s', exec i s = .next s' ∧ ((s'.mt t).fac f).inq = ((s.mt t).fac f).inq ∧ s'.mem = s.mem ∧ MxAnswers s s' t f op status result ∧
      P (s'.mxf t f) :=
  ⟨_, run, by rw [State.mxComplete_fac, inq], (State.mxComplete_mem ..).trans mem, mxAnswers_of_mxComplete small code rfl pend6,
    by rwa [State.mxComplete_mxf]⟩
theorem mxActing_inq : (((s.mxActing t f l).mt t).fac f).inq = ((s.mt t).fac f).inq := by rw [State.mxActing, State.modMx_fac]
theorem mxActing_pend6 : ((s.mxActing t f l).mt t).pend6 = (s.mt t).pend6 := by rw [State.mxActing, State.modMx_pend6]
/-- An answer that leaves the unit's part of the facet as it was, less the command that acted. -/
theorem mxActing_answers {i : Instr} {op status : Nat} {result : Option Nat} (run : exec i s = .next ((s.mxActing t f l).mxComplete t f result op status))
    (small : op < 256) (code : status < 32) :
    ∃ s', exec i s = .next s' ∧ ((s'.mt t).fac f).inq = ((s.mt t).fac f).inq ∧ s'.mem = s.mem ∧ MxAnswers s s' t f op status result ∧
      s'.mxf t f = { s.mxf t f with quick := l } :=
  mxActed_answers (P := fun y => y = { s.mxf t f with quick := l }) run small code mxActing_inq mxActing_pend6 rfl mxActing_mxf
end

theorem matrixTokens : MatrixTokens := by
  intro s t f k takes
  dsimp only
  refine ⟨fun x among good => ?buffered, fun good => ⟨fun admits once => ?answered, fun waits => ?waiting⟩, fun real bad => ?malformed,
    fun null => ?null, fun good => ?swap, fun x among good clear => ?quick⟩
  case buffered =>
    have run := (matrixTakeForms_run t f s x among).trans (mxTakes_run takes good _)
    rw [State.bufferMx] at run
    exact mxTakes_buffers good (newMx_mxPopped k) run
  case answered =>
    have run := mslot_run takes good
    rw [State.mslotTry, mslotDone_fresh, admits, once, if_pos (by rfl), State.endMx] at run
    have op : (s.newMx t f k).op = 0xC8 := isMatrix_op good
    simp only [op, MxCmd.result, opMma, opMldb, opMsto, opMslot, opMfence, Nat.reduceEqDiff, if_false, false_and, or_self, if_true] at run
    refine mxTakes_answers (P := fun y => y.cmds = (s.mxf t f).cmds.filter fun c => c.id != s.nextId) run (by decide) (by decide) ?_ ?_ rfl ?_
    · rw [State.modMx_fac, mslotBuffered_inq]
    · rw [State.modMx_pend6, mslotBuffered_pend6]
    · rw [State.modMx_mxf, mslotBuffered_mxf]
      have own : (s.newMx t f k).id = s.nextId := rfl
      simp [own]
  case waiting =>
    have run := mslot_run takes good
    rw [State.mslotTry, mslotDone_fresh, if_neg (by rcases waits with h | h <;> simp [h])] at run
    exact mxTakes_buffers good rfl run
  case malformed =>
    have run := mxTakes_run takes (h := fun k => k.kind != kNull && mxMalformed k) (by simpa [bad, kNull] using real)
      fun k s => s.mxComplete t f none (cmdOp k) 1
    exact mxTakes_answers (P := fun y => y = s.mxf t f) run (cmdOp_lt k) (by decide) (by rw [mxPopped_fac]) mxPopped_pend6 rfl mxPopped_mxf
  case null =>
    have run := mxTakes_run takes (h := fun k => k.kind == kNull) (by simpa [kNull] using null) fun k s =>
      s.modMt t fun m => { m with pend6 := m.pend6 ++ [⟨f, mkTok f kNull k.pred false false false 0, .pair, []⟩] }
    obtain ⟨facet, kind, pred, -⟩ := mkTok_tag f kNull k.pred false false false 0
    refine ⟨_, ⟨f, mkTok f kNull k.pred false false false 0, .pair, []⟩, run, mxTaken_turned ?_ rfl, ?_, kind, facet, pred, ?_⟩
    · rw [State.modMt_mt_same, MemTile.fac_pend6, mxPopped_fac]
    · rw [mxTurned_pend6, State.modMt_mt_same, mxPopped_pend6]
    · rw [mxTurned_mxf, State.mxf, State.modMt_mt_same, MemTile.fac_pend6]
      exact mxPopped_mxf
  case swap =>
    have run := mxTakes_run takes (h := isMatrix opMswap) good fun k s => s.mswap t f (s.newMx t f k)
    simp only [newMx_mxPopped, State.mswap, newMx_op good, newMx_bit s t f k (show 0 < 18 by decide), newMx_bit s t f k (show 1 < 18 by decide)] at run
    refine mxTakes_answers (P := fun y => y.amap = ((s.mxf t f).amap ^^ bit k.payload 8) ∧ y.bmap = ((s.mxf t f).bmap ^^ bit k.payload 9) ∧
      { y with amap := (s.mxf t f).amap, bmap := (s.mxf t f).bmap } = s.mxf t f) run (by decide) (by decide) (mxPopped_modMx_inq _)
      (mxPopped_modMx_pend6 _) rfl ?_
    rw [State.modMx_mxf, mxPopped_mxf]
    exact ⟨rfl, rfl, rfl⟩
  case quick =>
    obtain ⟨act, run⟩ := matrixQuickForms_run t f s x among
    rw [mxQuickStep_take clear, State.mxQuickTake, mxTakes_run takes good] at run
    refine ⟨_, run, mxTaken_turned (mxPopped_modMx_inq _) rfl, ?_, ?_⟩
    · rw [mxTurned_mxf, State.modMx_mxf, mxPopped_mxf]
    · rw [mxTurned_pend6, mxPopped_modMx_pend6]

theorem matrixQuick : MatrixQuick := by
  intro s t f k l first runs
  dsimp only
  refine ⟨fun good => ?mscale, fun good => ?mqry⟩
  case mscale =>
    have run := (exec_mscaleCommand t f s).trans (mxQuickStep_acts first runs good _)
    simp only [State.mscale, newMx_bv, newMx_op good] at run
    refine ⟨fun inside => ?_, fun outside => ?_⟩
    · rw [if_neg (by omega)] at run
      refine mxActed_answers (P := fun y => (y.sc.get (Fin.ofNat 8 (fld k.payload 58 6))).toNat = fld k.payload 26 32 ∧
        (∀ j, j ≠ Fin.ofNat 8 (fld k.payload 58 6) → y.sc.get j = (s.mxf t f).sc.get j) ∧
        { y with sc := (s.mxf t f).sc } = { s.mxf t f with quick := l }) run (by decide) (by decide) ?_ ?_ rfl ?_
      · rw [State.modMx_fac, mxActing_inq]
      · rw [State.modMx_pend6, mxActing_pend6]
      · rw [State.modMx_mxf, mxActing_mxf]
        exact ⟨by rw [vget_vset_same]; exact newMx_av .., fun j other => vget_vset_other _ _ _ _ other, rfl⟩
    · rw [if_pos outside] at run
      exact mxActing_answers run (by decide) (by decide)
  case mqry =>
    have run := (exec_mqryCommand t f s).trans (mxQuickStep_acts first runs good _)
    have slot : (s.mxActing t f l).slotWord t f = s.slotWord t f := rfl
    have sel : ((s.mxActing t f l).newMx t f k).m 0 2 = fld k.payload 8 2 := newMx_m _ t f k (by decide)
    simp only [State.mqry, newMx_bv, newMx_op good, sel, slot, mxActing_mxf] at run
    refine ⟨fun state => ?_, fun scale inside => ?_, fun scale outside => ?_, fun slots => ?_⟩
    · rw [if_pos state] at run
      exact mxActing_answers run (by decide) (by decide)
    · rw [if_neg (by omega), if_neg (by omega), if_neg (by omega)] at run
      exact mxActing_answers run (by decide) (by decide)
    · rw [if_neg (by omega), if_neg (by omega), if_pos outside] at run
      exact mxActing_answers run (by decide) (by decide)
    · rw [if_neg (by omega), if_pos slots] at run
      exact mxActing_answers run (by decide) (by decide)

/-- Settles O51: a take consumes the head token and acts on the unit's part of the facet, and so does a command that was taken. -/
theorem matrixTakes : Obligations.MatrixTakes := ⟨matrixTokens, matrixQuick⟩

end Sys2Proof.Machine
end

section
/-! SUPPORT. The matrix unit's state (R329 to R338): accumulator rows and commands after an update, tokens sent on one port of a tile, and a run of
tokens taken from one. -/

namespace Sys2Proof.Machine

/-! The unit's part of a facet -/

section
variable {s : State} {t : Tile} {f : Facet}
theorem State.mxf_of_mts {a : State} (h : a.mts = s.mts) (t : Tile) (f : Facet) : a.mxf t f = s.mxf t f := by
  rw [State.mxf, State.mt_of_mts h, State.mxf]
theorem State.modMx_onlyMt (g : MxFacet → MxFacet) : OnlyMt s (s.modMx t f g) t := s.modMtFac_onlyMt t f _
theorem State.modMx_fired (g : MxFacet → MxFacet) : ((s.modMx t f g).mt t).fired = (s.mt t).fired := by
  rw [State.modMx, State.modMtFac_mt_same, MemTile.modFac_fired]
theorem State.modMx_outq (g : MxFacet → MxFacet) : ((s.modMx t f g).mt t).outq = (s.mt t).outq := by
  rw [State.modMx, State.modMtFac_mt_same, MemTile.modFac_outq]

/-! Commands of the buffer (R333) -/

/-- The buffer with a command in the place of the one with its number. -/
def replaceMx (l : List MxCmd) (c : MxCmd) : List MxCmd := l.map fun y => if y.id = c.id then c else y
theorem replaceMx_mem {l : List MxCmd} {c c' : MxCmd} (here : c ∈ l) (named : c'.id = c.id) : c' ∈ replaceMx l c' :=
  List.mem_map.2 ⟨c, here, if_pos named.symm⟩
theorem replaceMx_at {l : List MxCmd} {k : Nat} {c c' : MxCmd} (here : l[k]? = some c) (named : c'.id = c.id) : (replaceMx l c')[k]? = some c' := by
  rw [replaceMx, List.getElem?_map, here]
  exact congrArg some (if_pos named.symm)
/-- What replaces a command leaves with it. -/
theorem replaceMx_filter (l : List MxCmd) (c : MxCmd) : (replaceMx l c).filter (fun y => y.id != c.id) = l.filter fun y => y.id != c.id := by
  induction l with
  | nil => rfl
  | cons y l ih =>
    rw [replaceMx, List.map_cons, ← replaceMx]
    by_cases own : y.id = c.id
    · simp [own, ih]
    · simp [own, ih]
theorem State.setMxCmd_mxf (c : MxCmd) : (s.setMxCmd t f c).mxf t f = { s.mxf t f with cmds := replaceMx (s.mxf t f).cmds c } := State.modMx_mxf _
theorem State.setMxCmd_onlyMt (c : MxCmd) : OnlyMt s (s.setMxCmd t f c) t := State.modMx_onlyMt _

/-! Accumulator rows (R329) -/

theorem OnlyWatch.mts {s a : State} (h : OnlyWatch s a) : a.mts = s.mts := (congrArg State.mts h :)
theorem State.setAccRow_mts (b : Fin 2) (i : Nat) (r : AccRow) : (s.setAccRow t f b i r).mts =
    (s.modMx t f fun x => { x with acc := vmod x.acc b fun a => tset a i r }).mts :=
  OnlyWatch.mts (State.dbgEvent_watch ..)
theorem State.setAccRow_mt (b : Fin 2) (i : Nat) (r : AccRow) : (s.setAccRow t f b i r).mt t =
    (s.modMx t f fun x => { x with acc := vmod x.acc b fun a => tset a i r }).mt t := State.mt_of_mts (State.setAccRow_mts ..) t
theorem State.setAccRow_mxf (b : Fin 2) (i : Nat) (r : AccRow) : (s.setAccRow t f b i r).mxf t f =
    { s.mxf t f with acc := vmod (s.mxf t f).acc b fun a => tset a i r } :=
  (State.mxf_of_mts (State.setAccRow_mts ..) t f).trans (State.modMx_mxf _)
theorem State.accRow_of_acc {a : State} (h : (a.mxf t f).acc = (s.mxf t f).acc) (b : Fin 2) (i : Nat) : a.accRow t f b i = s.accRow t f b i := by
  rw [State.accRow, h, State.accRow]
theorem State.setAccRow_accRow (b c : Fin 2) (i j : Nat) (r : AccRow) :
    (s.setAccRow t f b i r).accRow t f c j = if c = b ∧ j = i then r else s.accRow t f c j := by
  rw [State.accRow, State.setAccRow_mxf]
  by_cases bank : c = b
  · subst bank
    rw [vget_vmod_same]
    by_cases row : j = i
    · rw [if_pos ⟨rfl, row⟩, row, tget_tset_same]
    · rw [if_neg fun h => row h.2, tget_tset_other _ _ _ _ _ row, State.accRow]
  · rw [if_neg fun h => bank h.1, vget_vmod_other _ _ _ _ bank, State.accRow]

/-- What changes accumulator rows keeps the rest of the unit's part of the facet, the tile's lists and memory. -/
structure OnlyRows (s a : State) (t : Tile) (f : Facet) : Prop where
  mxf : { a.mxf t f with acc := (s.mxf t f).acc } = s.mxf t f
  outq : (a.mt t).outq = (s.mt t).outq
  mem : a.mem = s.mem
theorem OnlyRows.trans {a b : State} (h : OnlyRows s a t f) (k : OnlyRows a b t f) : OnlyRows s b t f :=
  ⟨by rw [← h.mxf, ← k.mxf], k.outq.trans h.outq, k.mem.trans h.mem⟩
theorem State.setAccRow_only (b : Fin 2) (i : Nat) (r : AccRow) : OnlyRows s (s.setAccRow t f b i r) t f :=
  ⟨by rw [State.setAccRow_mxf], by rw [State.setAccRow_mt, State.modMx_outq], by simp⟩
/-- The rows that a command clears. -/
theorem State.clearRows_spec (c : MxCmd) : OnlyRows s (s.clearRows t f c) t f ∧ ∀ b i, (s.clearRows t f c).accRow t f b i =
    if b = c.accPhys ∧ c.frow ≤ i ∧ i < c.frow + c.rows then ⟨0, false⟩ else s.accRow t f b i := by
  rw [State.clearRows]
  generalize c.rows = n
  induction n with
  | zero => exact ⟨⟨rfl, rfl, rfl⟩, fun b i => (if_neg (by omega)).symm⟩
  | succ n ih =>
    obtain ⟨only, rows⟩ := ih
    rw [List.range_succ, List.foldl_append, List.foldl_cons, List.foldl_nil]
    refine ⟨only.trans (State.setAccRow_only ..), fun b i => ?_⟩
    rw [State.setAccRow_accRow, rows]
    by_cases last : b = c.accPhys ∧ i = c.frow + n
    · rw [if_pos last, if_pos ⟨last.1, by omega, by omega⟩]
    · rw [if_neg last]
      exact if_congr (and_congr_right fun bank => by have : i ≠ c.frow + n := fun h => last ⟨bank, h⟩; omega) rfl rfl
end

/-! Tokens sent on one port (R338, R343) -/

/-- Some tokens join an output queue, and nothing else of the machine changes. -/
structure Sends (s s' : State) (t : Tile) (p : Fin 16) (l : List Token) : Prop where
  queued : Queued s s' t p l
  rest : { s'.mt t with outq := (s.mt t).outq } = s.mt t
  only : OnlyMt s s' t
theorem State.mtSend_sends (s : State) (t : Tile) (p : Fin 16) (k : Token) : Sends s (s.mtSend t p k []) t p [k] := by
  refine ⟨?_, by rw [State.mtSend, State.modMt_mt_same], s.modMt_onlyMt t _⟩
  rw [Queued, State.mtSend, State.modMt_mt_same]
  exact vget_vmod_same ..
theorem Sends.cons {s a b : State} {t : Tile} {p : Fin 16} {k : Token} {l : List Token} (h : Sends s a t p [k]) (m : Sends a b t p l) :
    Sends s b t p (k :: l) := by
  have cycle : a.cycle = s.cycle := (congrArg State.cycle h.only.1 :)
  refine ⟨?_, by rw [← h.rest, ← m.rest], onlyMt_trans h.only m.only⟩
  rw [Queued, m.queued, h.queued, cycle, List.append_assoc]
  rfl
theorem State.sendAll_sends (s : State) (t : Tile) (p : Fin 16) (l : List Token) : Sends s (l.foldl (fun s k => s.mtSend t p k []) s) t p l := by
  induction l generalizing s with
  | nil => exact ⟨by rw [Queued, List.foldl_nil, List.map_nil, List.append_nil], rfl, rfl, fun _ _ => rfl⟩
  | cons k l ih => exact (s.mtSend_sends t p k).cons (ih _)
theorem Sends.fac {s a : State} {t : Tile} {p : Fin 16} {l : List Token} (h : Sends s a t p l) (f : Facet) : (a.mt t).fac f = (s.mt t).fac f :=
  (congrArg (MemTile.fac · f) h.rest :)
theorem Sends.mxf {s a : State} {t : Tile} {p : Fin 16} {l : List Token} (h : Sends s a t p l) (f : Facet) : a.mxf t f = s.mxf t f := by
  rw [State.mxf, h.fac, State.mxf]

/-! A run of tokens taken from one port (R335) -/

/-- A queue that offers a token offers the others once it is gone. -/
theorem offered_drop_one {q : List QTok} {n : Nat} (h : offered q n ≠ []) : offered (q.drop 1) n = (offered q n).drop 1 := by
  cases q with
  | nil => exact absurd rfl h
  | cons x l =>
    by_cases seen : x.entered < n
    · by_cases mark : x.tok.isMark = true
      · exact absurd (by simp [offered, visible, seen, mark]) h
      · simp [offered, visible, seen, mark]
    · exact absurd (by simp [offered, visible, seen]) h

section
variable {t : Tile} {f : Facet} {p : Fin 16}
/-- A facet that has lost n tokens of a port, and nothing else. -/
structure Popped (s a : State) (t : Tile) (f : Facet) (p : Fin 16) (n : Nat) : Prop where
  only : OnlyMt s a t
  queue : ((a.mt t).fac f).inq.get p = (((s.mt t).fac f).inq.get p).drop n
  others : ∀ q, q ≠ p → ((a.mt t).fac f).inq.get q = ((s.mt t).fac f).inq.get q
  rest : { (a.mt t).fac f with inq := ((s.mt t).fac f).inq } = (s.mt t).fac f
  tile : { a.mt t with facets := (s.mt t).facets } = s.mt t
theorem State.pop_popped (s : State) : Popped s (s.modMtFac t f (·.pop p)) t f p 1 := by
  have fac : ((s.modMtFac t f (·.pop p)).mt t).fac f = ((s.mt t).fac f).pop p := by rw [State.modMtFac_mt_same, MemTile.modFac_fac_same]
  refine ⟨s.modMtFac_onlyMt t f _, ?_, fun q other => ?_, by rw [fac]; rfl, by rw [State.modMtFac_mt_same]; rfl⟩
  · rw [fac]
    exact vget_vmod_same ..
  · rw [fac]
    exact vget_vmod_other _ _ _ _ other
theorem Popped.trans {s a b : State} {n m : Nat} (h : Popped s a t f p n) (k : Popped a b t f p m) : Popped s b t f p (n + m) :=
  ⟨onlyMt_trans h.only k.only, by rw [k.queue, h.queue, List.drop_drop], fun q other => (k.others q other).trans (h.others q other),
    by rw [← h.rest, ← k.rest], by rw [← h.tile, ← k.tile]⟩
theorem Popped.takes {s a : State} (h : Popped s a t f p 1) : TakesHead s a t f p := ⟨h.queue, h.others⟩
theorem Popped.mxf {s a : State} {n : Nat} (h : Popped s a t f p n) : a.mxf t f = s.mxf t f := (congrArg MtFacet.mx h.rest :)
theorem Popped.cycle {s a : State} {n : Nat} (h : Popped s a t f p n) : a.cycle = s.cycle := (congrArg State.cycle h.only.1 :)

theorem State.mtTaking_popped {s : State} {k : Token} (head : s.mtHead t f p = some k) (plain : bit ((s.mt t).fac f).recording p.val = false) :
    ∃ a, Popped s a t f p 1 ∧ ∀ act, s.mtTaking t f p act = act a := ⟨_, s.pop_popped, fun act => State.mtTaking_pops head plain act⟩
/-- As many tokens as a port offers are taken one after another. -/
theorem State.mtTakeN_popped {n : Nat} {s : State} (there : n ≤ (offered (((s.mt t).fac f).inq.get p) s.cycle).length)
    (plain : bit ((s.mt t).fac f).recording p.val = false) : ∃ a, Popped s a t f p n ∧ ∀ act, s.mtTakeN t f p n act = act a := by
  induction n generalizing s with
  | zero => exact ⟨s, ⟨⟨rfl, fun _ _ => rfl⟩, rfl, fun _ _ => rfl, rfl, rfl⟩, fun _ => rfl⟩
  | succ n ih =>
    have some_ : offered (((s.mt t).fac f).inq.get p) s.cycle ≠ [] := List.ne_nil_of_length_pos (by omega)
    obtain ⟨k, head⟩ : ∃ k, s.mtHead t f p = some k := ⟨_, List.head?_eq_some_head some_⟩
    obtain ⟨a, one, runs⟩ := State.mtTaking_popped head plain
    obtain ⟨b, more, runsOn⟩ := ih (s := a) (by rw [one.cycle, one.queue, offered_drop_one some_, List.length_drop]; omega)
      (by rw [show ((a.mt t).fac f).recording = ((s.mt t).fac f).recording from (congrArg MtFacet.recording one.rest :)]; exact plain)
    refine ⟨b, by rw [Nat.add_comm]; exact one.trans more, fun act => ?_⟩
    rw [State.mtTakeN, runs, runsOn]
end

end Sys2Proof.Machine
end

section
/-! SUPPORT. Commands of the matrix unit: how one starts, ends and, for MRDA, sends its rows (R332, R333, R336, R343, R345). -/

namespace Sys2Proof.Machine

/-- Word n of a row is the n-th of its numbers. -/
theorem AccRow.word_lt (r : AccRow) (n : Nat) : r.word n < 2 ^ 32 := fld_lt ..
/-- A token of a row of results holds two of its words. -/
theorem resultTokens_get {f : Facet} {r : AccRow} {j : Nat} {y : Token} (here : (resultTokens f r)[j]? = some y) :
    fld y.payload 0 32 = r.word (2 * j) ∧ fld y.payload 32 32 = r.word (2 * j + 1) ∧ y.kind = 0 ∧ y.facet = f ∧
      y.head = decide (j = 0) ∧ y.tail = decide (j = 15) ∧ y.poison = r.poison := by
  obtain ⟨i, place, rfl⟩ := Option.map_eq_some_iff.1 (List.getElem?_map (l := List.range 16) ▸ here)
  obtain ⟨small, rfl⟩ := List.getElem?_eq_some_iff.1 place
  rw [List.length_range] at small
  have low := r.word_lt (2 * j)
  have high := r.word_lt (2 * j + 1)
  simp only [List.getElem_range]
  obtain ⟨facet, kind, -, head, tail, poison⟩ := mkTok_tag f kData false (j == 0) (j == 15) r.poison (r.word (2 * j) + r.word (2 * j + 1) * 2 ^ 32)
  refine ⟨?_, ?_, kind, facet, head, tail, poison⟩
  · rw [mkTok_payload, fld_ofNat (by decide)]
    omega
  · rw [mkTok_payload, fld_ofNat (by decide)]
    omega

section
variable {s : State} {t : Tile} {f : Facet} {k : Nat} {c : MxCmd}
theorem exec_matrixCommandStart (t : Tile) (f : Facet) (k : Nat) (s : State) :
    exec (.matrixCommandStart t f k) s = execMatrixCommandStart t f k s := rfl

/-! Starts (R333) -/

theorem beginLoadB_mxf : (s.beginLoadB t f c).mxf t f = { s.mxf t f with
    b := if c.op = 0xC1 then vset (s.mxf t f).b c.bufPhys { cols := [], fmt := c.fmt, mx := c.mx, loaded := false, poison := false } else (s.mxf t f).b } := by
  rw [State.beginLoadB, opMldb]
  split
  · rw [State.modMx_mxf]
  · rfl
theorem beginLoadB_startOk : (s.beginLoadB t f c).mxStartOk t f c = s.mxStartOk t f c := by
  rw [State.beginLoadB, opMldb]
  split
  · next op => simp only [State.mxStartOk, opMma, opMldb, op, Nat.reduceEqDiff, if_false, if_true, State.mtMode, State.modMx_fac]
  · rfl

/-- A command as it has started, with the status of its checks. -/
def MxCmd.begun (c : MxCmd) (ok : Bool) : MxCmd :=
  { c with started := true, status := if ok then 0 else 2, done := !ok || c.op == opMaclr,
           phase := if c.rel || (c.op == opMsto && c.form == 1) then 0 else 2 }
/-- The state in which a command has started, before its rows are cleared. -/
def State.begins (s : State) (t : Tile) (f : Facet) (c : MxCmd) : State :=
  (s.beginLoadB t f c).setMxCmd t f (c.begun (s.mxStartOk t f c))
theorem startMx_eq : s.startMx t f c =
    if s.mxStartOk t f c = true ∧ c.op = 0xC3 then (s.begins t f c).clearRows t f c else s.begins t f c := by
  simp only [State.startMx, beginLoadB_startOk]
  rfl
theorem begins_mxf : (s.begins t f c).mxf t f = { s.mxf t f with
    cmds := replaceMx (s.mxf t f).cmds (c.begun (s.mxStartOk t f c)),
    b := if c.op = 0xC1 then vset (s.mxf t f).b c.bufPhys { cols := [], fmt := c.fmt, mx := c.mx, loaded := false, poison := false } else (s.mxf t f).b } := by
  rw [State.begins, State.setMxCmd_mxf, beginLoadB_mxf]
theorem begins_mem : (s.begins t f c).mem = s.mem := by
  rw [State.begins, State.setMxCmd_mem, State.beginLoadB]
  split <;> rfl
/-- A start changes the unit's part of the facet, as the command's buffer and rows require, and not memory. -/
theorem startMx_spec : { (s.startMx t f c).mxf t f with acc := (s.mxf t f).acc } = (s.begins t f c).mxf t f ∧ (s.startMx t f c).mem = s.mem ∧
    ∀ b i, (s.startMx t f c).accRow t f b i = if c.op = 0xC3 ∧ s.mxStartOk t f c = true ∧ b = c.accPhys ∧ c.frow ≤ i ∧ i < c.frow + c.rows
      then ⟨0, false⟩ else s.accRow t f b i := by
  have acc : ((s.begins t f c).mxf t f).acc = (s.mxf t f).acc := by rw [begins_mxf]
  have rows := State.accRow_of_acc acc
  rw [startMx_eq]
  by_cases clears : s.mxStartOk t f c = true ∧ c.op = 0xC3
  · obtain ⟨⟨mxf, -, mem⟩, cleared⟩ := State.clearRows_spec (s := s.begins t f c) (t := t) (f := f) c
    rw [if_pos clears]
    refine ⟨by rw [← acc, mxf], mem.trans begins_mem, fun b i => ?_⟩
    rw [cleared, rows]
    exact if_congr ⟨fun h => ⟨clears.2, clears.1, h⟩, fun h => h.2.2⟩ rfl rfl
  · rw [if_neg clears]
    refine ⟨by rw [← acc], begins_mem, fun b i => ?_⟩
    rw [rows, if_neg fun h => clears ⟨h.2.1, h.1⟩]

/-! Ends (R332, R333) -/

/-- A finished command without requests ends in its own state. -/
theorem settleMx_eq (bare : c.reqs = []) : s.settleMx t f c = s.endMx t f c := by
  have none_ : s.engData [] = some [] := rfl
  simp only [State.settleMx, bare, List.all_nil, if_true, List.filter_nil, none_, firstCause, Option.any_some, Option.isSome_none, Bool.and_false,
    Bool.false_eq_true, if_false]
  rfl
/-- A command that ends leaves the buffer with its completion, and an MLDB of status 0 has loaded its buffer. -/
theorem endMx_spec (small : c.op < 256) (code : c.status < 32) : MxAnswers s (s.endMx t f c) t f c.op c.status c.result ∧
    (s.endMx t f c).mem = s.mem ∧ ((s.endMx t f c).mxf t f).cmds = ((s.mxf t f).cmds.filter fun y => y.id != c.id) ∧
    ((s.endMx t f c).mt t).fac f = { (s.mt t).fac f with mx := (s.endMx t f c).mxf t f } ∧
    ((s.endMx t f c).mxf t f).b = if c.op = 0xC1 ∧ c.status = 0 then vmod (s.mxf t f).b c.bufPhys fun b => { b with loaded := true, poison := decide (0 < c.poisoned) }
      else (s.mxf t f).b := by
  rw [State.endMx]
  refine ⟨mxAnswers_of_mxComplete small code rfl (State.modMx_pend6 _), State.mxComplete_mem .., ?_, ?_, ?_⟩
  · rw [State.mxComplete_mxf, State.modMx_mxf]
  · rw [State.mxf, State.mxComplete_fac, State.modMx_fac]
  · rw [State.mxComplete_mxf, State.modMx_mxf]
    rfl

/-! MRDA (R343) -/

/-- With no row on its way through the array, a row of MRDA leaves as soon as mo7 has room for its tokens. -/
theorem mrdaRow_eq (more : c.read < c.rows) (still : (s.mt t).fired = []) (room : s.mtRoomN t 7 16 = true) : s.mrdaRow t f c =
    let r := s.accRow t f c.accPhys (c.frow + c.read)
    let a := (resultTokens f r).foldl (fun s k => s.mtSend t 7 k []) s
    (if c.clr then a.setAccRow t f c.accPhys (c.frow + c.read) ⟨0, false⟩ else a).setMxCmd t f
      { c with read := c.read + 1, done := c.read + 1 == c.rows } := by
  have free : ¬s.mo7Free t < 16 := by
    have held : s.mtHeld t 7 + 16 ≤ 32 := by simpa [State.mtRoomN] using room
    rw [State.mo7Free, still, List.filter_nil, List.length_nil]
    omega
  have waits : ((s.mt t).fired.any fun x => ((s.mxf t x.facet).cmds.find? fun c => c.id == x.row.cmd).any (·.out)) = false := by
    rw [still]
    rfl
  simp only [State.mrdaRow, waits, free, Nat.not_le.2 more, Bool.false_or, decide_false, Bool.false_eq_true, if_false]
end

theorem matrixCommands : MatrixCommands := by
  intro s t f k c found runs
  dsimp only
  refine ⟨fun waits open_ apart => ?starts, fun done bare code small => ?ends, fun open_ begun op more still room => ?row⟩
  case starts =>
    have alone : ((s.mxf t f).cmds.take k).any (fun x => x.uses.any c.uses.contains) = false := by
      simpa [List.any_eq_false] using apart
    have run : exec (.matrixCommandStart t f k) s = .next (s.startMx t f c) := by
      simp only [exec_matrixCommandStart, execMatrixCommandStart, found, runs, when_true, waits, open_, alone, Bool.false_eq_true, if_false]
    obtain ⟨mxf, mem, rows⟩ := startMx_spec (s := s) (t := t) (f := f) (c := c)
    rw [begins_mxf] at mxf
    refine ⟨_, c.begun (s.mxStartOk t f c), run, ?_, rfl, rfl, rfl, fun fails => ?_, mem, fun op => ?_, rows⟩
    · rw [show ((s.startMx t f c).mxf t f).cmds = _ from (congrArg MxFacet.cmds mxf :)]
      exact replaceMx_at found rfl
    · rw [MxCmd.begun, fails]
      rfl
    · rw [show ((s.startMx t f c).mxf t f).b = _ from (congrArg MxFacet.b mxf :), if_pos op, vget_vset_same]
  case ends =>
    have run : exec (.matrixCommandStart t f k) s = .next (s.endMx t f c) := by
      simp only [exec_matrixCommandStart, execMatrixCommandStart, found, runs, when_true, done, if_true, settleMx_eq bare]
    obtain ⟨answers, mem, cmds, -, bufs⟩ := endMx_spec (s := s) (t := t) (f := f) small code
    refine ⟨_, run, cmds, answers, mem, fun op zero => ?_⟩
    rw [bufs, if_pos ⟨op, zero⟩, vget_vmod_same]
  case row =>
    have run : exec (.matrixCommandStart t f k) s = .next (s.mrdaRow t f c) := by
      simp only [exec_matrixCommandStart, execMatrixCommandStart, found, runs, when_true, open_, begun, Bool.false_eq_true, if_false, if_true,
        State.mxWork, op]
    rw [mrdaRow_eq more still room] at run
    dsimp only at run
    have sends := s.sendAll_sends t 7 (resultTokens f (s.accRow t f c.accPhys (c.frow + c.read)))
    generalize (resultTokens f (s.accRow t f c.accPhys (c.frow + c.read))).foldl (fun s k => s.mtSend t 7 k []) s = a at run sends
    have mem : a.mem = s.mem := (congrArg State.mem sends.only.1 :)
    obtain ⟨only, rows⟩ : OnlyRows a (if c.clr then a.setAccRow t f c.accPhys (c.frow + c.read) ⟨0, false⟩ else a) t f ∧
        ∀ b i, (if c.clr then a.setAccRow t f c.accPhys (c.frow + c.read) ⟨0, false⟩ else a).accRow t f b i =
          if c.clr = true ∧ b = c.accPhys ∧ i = c.frow + c.read then ⟨0, false⟩ else s.accRow t f b i := by
      have same := State.accRow_of_acc (a := a) (s := s) (t := t) (f := f) (by rw [sends.mxf])
      by_cases clears : c.clr = true
      · rw [if_pos clears]
        refine ⟨State.setAccRow_only .., fun b i => ?_⟩
        rw [State.setAccRow_accRow, same]
        exact if_congr ⟨fun h => ⟨clears, h⟩, And.right⟩ rfl rfl
      · rw [if_neg clears]
        exact ⟨⟨rfl, rfl, rfl⟩, fun b i => by rw [same, if_neg fun h => clears h.1]⟩
    generalize (if c.clr then a.setAccRow t f c.accPhys (c.frow + c.read) ⟨0, false⟩ else a) = b at run only rows
    refine ⟨_, _, { c with read := c.read + 1, done := c.read + 1 == c.rows }, run, ?_, rfl, fun j y here => resultTokens_get here, ?_, rfl, ?_,
      fun x i => ?_⟩
    · rw [Queued, State.setMxCmd, State.modMx_outq, only.outq]
      exact sends.queued
    · rw [State.setMxCmd_mxf, show (b.mxf t f).cmds = (a.mxf t f).cmds from (congrArg MxFacet.cmds only.mxf :), sends.mxf]
      exact replaceMx_at found rfl
    · exact (State.setMxCmd_mem ..).trans (only.mem.trans mem)
    · rw [← rows, State.accRow_of_acc]
      rw [State.setMxCmd_mxf]

end Sys2Proof.Machine
end

section
/-! SUPPORT. Operands of the matrix unit (R334, R335, R346): a row read into staging, and the tokens of a burst taken, discarded or left standing. -/

namespace Sys2Proof.Machine

section
variable {s : State} {t : Tile} {f : Facet} {c : MxCmd}
theorem exec_rowStage (t : Tile) (f : Facet) (s : State) : exec (.rowStage t f) s = execRowStage t f s := rfl
theorem exec_operandBurstTake (t : Tile) (f : Facet) (isB : Bool) (s : State) :
    exec (.operandBurstTake t f isB) s = execOperandBurstTake t f isB s := rfl
theorem runningMma_mem (running : s.runningMma t f = some c) : c ∈ (s.mxf t f).cmds := List.mem_of_find?_eq_some running
theorem columnCmd_mem (found : s.columnCmd t f = some c) : c ∈ (s.mxf t f).cmds ∧ c.op = 0xC1 ∧ c.status = 0 := by
  refine ⟨List.mem_of_find?_eq_some found, ?_⟩
  have holds := List.find?_some found
  simp only [Bool.and_eq_true, beq_iff_eq] at holds
  obtain ⟨⟨⟨⟨⟨op, -⟩, -⟩, status⟩, -⟩, -⟩ := holds
  exact ⟨op, status⟩
theorem rowCmd_running (found : s.rowCmd t f = some c) : s.runningMma t f = some c := (Option.filter_eq_some_iff.1 found).1

/-! Rows from the area (R334) -/

/-- While no stored bit has flipped, a read of the area gives its bytes; comparators may see it. -/
theorem areaRead_sound (sound : s.mem.bad = []) (m : MtMode) (off n : Nat) :
    OnlyDebug s (s.areaRead t f c m off n).1 ∧ (s.areaRead t f c m off n).2.1 = s.mem.read (mtBase t + 8 * m.mbase + off) n := by
  rw [State.areaRead, State.noteWords_sound sound]
  exact ⟨OnlyDebug.foldl (fun s w => s.dbgMt_debug t f (w - mtBase t / 8 - m.mbase) true false) _ s, Memory.readSeen_sound sound ..⟩
theorem rowStage_run {m : MtMode} (running : s.runningMma t f = some c) (mode : s.mtMode t f = some m) (runs : s.mtRuns t f = true)
    (area : c.strm = false) (tagged : 2 ≤ c.phase) (more : c.read < c.rows) :
    exec (.rowStage t f) s = .next (if (s.mxf t f).staged.length < 4 then s.stageRow t f c m else s) := by
  rw [exec_rowStage, execRowStage, running, mode]
  refine (when_of_true (by rw [runs, area]; rfl)).trans ?_
  rw [if_neg (by omega), if_pos more]
/-- A turn at a bank leaves the tiles and memory. -/
theorem withTurn_mts (s : State) (who : Nat) (l : List Nat) : (s.withTurn who l).mts = s.mts := rfl
theorem withTurn_mem (s : State) (who : Nat) (l : List Nat) : (s.withTurn who l).mem = s.mem := rfl
theorem OnlyDebug.mts {s a : State} (h : OnlyDebug s a) : a.mts = s.mts := (congrArg State.mts h.1 :)
/-- The state in which a row that was read stands in staging. -/
def State.staging (u : State) (t : Tile) (f : Facet) (c : MxCmd) (m : MtMode) : State :=
  let a := u.areaRead t f c m (8 * (c.off + 8 * c.read)) 64
  (a.1.modMx t f fun y => { y with staged := y.staged ++ [⟨c.id, c.read, a.2.1, 0, a.2.2 || false⟩] }).setMxCmd t f { c with read := c.read + 1 }
/-- A row without scale bytes asks for the banks of its own words. -/
theorem stageRow_eq (plain : c.mx = false) (m : MtMode) : s.stageRow t f c m = s.inTurn (portTurn t (24 + f.val))
    (accessOf (wordsAt (mtBase t + 8 * m.mbase + 8 * (c.off + 8 * c.read)) 64)) fun s => s.staging t f c m := by
  simp only [State.stageRow, State.readRow, State.areaTurn, plain, Bool.false_eq_true, if_false, if_true, List.append_nil]
  rfl
theorem staging_spec {u : State} {m : MtMode} (mts : u.mts = s.mts) (mem : u.mem = s.mem) (sound : s.mem.bad = []) (here : c ∈ (s.mxf t f).cmds) :
    ∃ r : ARow, ((u.staging t f c m).mxf t f).staged = (s.mxf t f).staged ++ [r] ∧ r.cmd = c.id ∧ r.k = c.read ∧
      r.data = s.mem.read (mtBase t + 8 * m.mbase + 8 * (c.off + 8 * c.read)) 64 ∧
      { c with read := c.read + 1 } ∈ ((u.staging t f c m).mxf t f).cmds ∧ (u.staging t f c m).mem = s.mem := by
  obtain ⟨seen, data⟩ := areaRead_sound (t := t) (f := f) (c := c) (s := u) (by rw [mem]; exact sound) m (8 * (c.off + 8 * c.read)) 64
  rw [State.staging]
  generalize u.areaRead t f c m (8 * (c.off + 8 * c.read)) 64 = a at seen data ⊢
  have mxf : a.1.mxf t f = s.mxf t f := State.mxf_of_mts (seen.mts.trans mts) t f
  rw [mem] at data
  refine ⟨⟨c.id, c.read, a.2.1, 0, a.2.2 || false⟩, ?_, rfl, rfl, data, ?_, ?_⟩
  · rw [State.setMxCmd_mxf, State.modMx_mxf, mxf]
  · rw [State.setMxCmd_mxf, State.modMx_mxf, mxf]
    exact replaceMx_mem here rfl
  · rw [State.setMxCmd_mem, State.modMx_mem, seen.mem, mem]

/-! Bursts (R335) -/

theorem badToken_iff {k : Token} : c.badToken k = false ↔
    k.kind ≠ 3 ∧ k.head = c.burst.isEmpty ∧ k.tail = decide (c.burst.length + 1 = c.burstLen) := by
  simp [MxCmd.badToken, kEor, and_assoc, beq_eq_decide]
theorem addCol_mxf (data scale : Nat) (poison : Bool) : (s.addCol t f c data scale poison).mxf t f = { s.mxf t f with
    b := vmod (s.mxf t f).b c.bufPhys fun b => { b with cols := b.cols ++ [(data, scale)] },
    cmds := replaceMx (s.mxf t f).cmds { c with burst := [], read := c.read + 1, poisoned := c.poisoned + poison.toNat } } := by
  rw [State.addCol, State.setMxCmd_mxf, State.modMx_mxf]
theorem addCol_onlyMt (data scale : Nat) (poison : Bool) : OnlyMt s (s.addCol t f c data scale poison) t :=
  onlyMt_trans (State.modMx_onlyMt _) (State.setMxCmd_onlyMt _)
theorem badBurst_mxf (isB : Bool) (k : Token) : (s.badBurst t f isB c k).mxf t f =
    { (s.mxf t f).setDrop isB (!k.tail) with cmds := replaceMx (s.mxf t f).cmds { c with burst := [], status := 3 } } := by
  rw [State.badBurst, State.setMxCmd_mxf, State.modMx_mxf]
  cases isB <;> rfl
theorem badBurst_onlyMt (isB : Bool) (k : Token) : OnlyMt s (s.badBurst t f isB c k) t :=
  onlyMt_trans (State.modMx_onlyMt _) (State.setMxCmd_onlyMt _)
/-- A change of the unit's part of the facet leaves the queues. -/
theorem modMx_inq (g : MxFacet → MxFacet) : (((s.modMx t f g).mt t).fac f).inq = ((s.mt t).fac f).inq := by rw [State.modMx_fac]
theorem takesHead_of_inq {a s' : State} {p : Fin 16} (h : TakesHead s a t f p) (same : ((s'.mt t).fac f).inq = ((a.mt t).fac f).inq) :
    TakesHead s s' t f p := by
  rw [TakesHead, same]
  exact h
theorem addCol_inq (data scale : Nat) (poison : Bool) : (((s.addCol t f c data scale poison).mt t).fac f).inq = ((s.mt t).fac f).inq := by
  rw [State.addCol, State.setMxCmd, modMx_inq, modMx_inq]
theorem addCol_pend6 (data scale : Nat) (poison : Bool) : ((s.addCol t f c data scale poison).mt t).pend6 = (s.mt t).pend6 := by
  rw [State.addCol, State.setMxCmd, State.modMx_pend6, State.modMx_pend6]
theorem badBurst_inq (isB : Bool) (k : Token) : (((s.badBurst t f isB c k).mt t).fac f).inq = ((s.mt t).fac f).inq := by
  rw [State.badBurst, State.setMxCmd, modMx_inq, modMx_inq]
/-- The whole last column of an MLDB ends it (R335, R346). -/
theorem columnDone_last (op : c.op = 0xC1) (status : c.status = 0) (last : c.read = 31) (l : List Token) :
    let s' := s.columnDone t f c l
    ((s'.mt t).fac f).inq = ((s.mt t).fac f).inq ∧ s'.mem = s.mem ∧ MxAnswers s s' t f 0xC1 0 (some (c.poisoned + (l.any (·.poison)).toNat)) ∧
      (s'.mxf t f).cmds = ((s.mxf t f).cmds.filter fun y => y.id != c.id) ∧ ((s'.mxf t f).b.get c.bufPhys).loaded = true ∧
      ((s'.mxf t f).b.get c.bufPhys).cols.length = ((s.mxf t f).b.get c.bufPhys).cols.length + 1 := by
  let d : MxCmd := { c with burst := [], read := 32, poisoned := c.poisoned + (burstValue c.mx l).2.2.toNat, done := true }
  have done : s.columnDone t f c l =
      (s.addCol t f c (burstValue c.mx l).1 (burstValue c.mx l).2.1 (burstValue c.mx l).2.2).endMx t f d := if_pos (by rw [last])
  have small : d.op < 256 := by rw [show d.op = 0xC1 from op]; decide
  have code : d.status < 32 := by rw [show d.status = 0 from status]; decide
  have value : d.result = some (c.poisoned + (l.any (·.poison)).toNat) := by
    simp [MxCmd.result, op, opMma, opMldb, d, burstValue]
  obtain ⟨⟨k, queued, answers⟩, mem, cmds, fac, bufs⟩ := endMx_spec
    (s := s.addCol t f c (burstValue c.mx l).1 (burstValue c.mx l).2.1 (burstValue c.mx l).2.2) (t := t) (f := f) small code
  rw [if_pos ⟨op, status⟩, addCol_mxf] at bufs
  rw [addCol_pend6] at queued
  rw [value, show d.op = 0xC1 from op, show d.status = 0 from status] at answers
  dsimp only
  rw [done]
  refine ⟨by rw [fac]; exact addCol_inq .., mem, ⟨k, queued, answers⟩, ?_, ?_, ?_⟩
  · rw [cmds, addCol_mxf]
    exact replaceMx_filter (s.mxf t f).cmds { c with burst := [], read := c.read + 1, poisoned := c.poisoned + (burstValue c.mx l).2.2.toNat }
  · rw [bufs]
    dsimp only
    rw [vget_vmod_same]
  · rw [bufs]
    dsimp only
    rw [vget_vmod_same, vget_vmod_same, List.length_append]
    rfl
/-- A row burst is part of what its queue offers. -/
theorem rowBurst_length (c : MxCmd) (l : List Token) : (c.rowBurst l).length ≤ l.length := by
  induction l generalizing c with
  | nil => exact Nat.le_refl _
  | cons k l ih =>
    rw [MxCmd.rowBurst]
    split
    · exact Nat.succ_le_succ (Nat.zero_le _)
    · exact Nat.succ_le_succ (ih _)
end

/-- Of the port that is discarded, each token goes, and the last of a burst ends it. -/
def MxFacet.drops (x : MxFacet) (isB : Bool) : Bool := if isB then x.dropB else x.dropA
theorem MxFacet.drops_setDrop (x : MxFacet) (isB b : Bool) : (x.setDrop isB b).drops isB = b := by cases isB <;> rfl
theorem MxFacet.cmds_setDrop (x : MxFacet) (isB b : Bool) : (x.setDrop isB b).cmds = x.cmds := by cases isB <;> rfl

/-- The next row of an MMA enters staging once its banks are free (R334). -/
theorem rowsStaged : ∀ (s : State) (t : Tile) (f : Facet) (c : MxCmd) (m : MtMode), s.runningMma t f = some c → s.mtMode t f = some m → s.mtRuns t f = true →
    c.strm = false → c.mx = false → 2 ≤ c.phase → c.read < c.rows →
    let pa := mtBase t + 8 * m.mbase + 8 * (c.off + 8 * c.read)
    let turn := (accessOf (wordsAt pa 64)).all (s.turns.free (portTurn t (24 + f.val)))
    ((s.mxf t f).staged.length < 4 → turn = true → s.mem.bad = [] → ∃ s' r, exec (.rowStage t f) s = .next s' ∧
      (s'.mxf t f).staged = (s.mxf t f).staged ++ [r] ∧ r.cmd = c.id ∧ r.k = c.read ∧ r.data = s.mem.read pa 64 ∧
      { c with read := c.read + 1 } ∈ (s'.mxf t f).cmds ∧ s'.mem = s.mem) ∧
    ((s.mxf t f).staged.length < 4 → turn = false → ∃ s', exec (.rowStage t f) s = .next s' ∧ { s' with turns := s.turns } = s) ∧
    (4 ≤ (s.mxf t f).staged.length → exec (.rowStage t f) s = .next s) := by
  intro s t f c m running mode runs area plain tagged more
  dsimp only
  have run := rowStage_run running mode runs area tagged more
  refine ⟨fun room free sound => ?_, fun room busy => ?_, fun full => ?_⟩
  · rw [if_pos room, stageRow_eq plain, State.inTurn_free free] at run
    obtain ⟨r, holds⟩ := staging_spec (withTurn_mts ..) (withTurn_mem ..) sound (runningMma_mem running)
    exact ⟨_, r, run, holds⟩
  · rw [if_pos room, stageRow_eq plain, State.inTurn_busy busy] at run
    exact ⟨_, run, rfl⟩
  · rw [if_neg (by omega)] at run
    exact run
/-- A port that is discarded loses its tokens up to a tail (R335). -/
theorem burstsDiscarded : ∀ (s : State) (t : Tile) (f : Facet) (isB : Bool) (k : Token), let p : Fin 16 := if isB then 8 else 7
    let drop (x : MxFacet) : Bool := if isB then x.dropB else x.dropA
    s.mtHead t f p = some k → s.mtRuns t f = true → bit ((s.mt t).fac f).recording p.val = false → drop (s.mxf t f) = true →
    ∃ s', exec (.operandBurstTake t f isB) s = .next s' ∧ OnlyMt s s' t ∧ TakesHead s s' t f p ∧
      drop (s'.mxf t f) = !k.tail ∧ (s'.mxf t f).cmds = (s.mxf t f).cmds := by
  intro s t f isB k
  dsimp only
  intro head runs quiet drops
  obtain ⟨a, popped, act⟩ := State.mtTaking_popped head quiet
  have run : exec (.operandBurstTake t f isB) s = .next (if k.tail then a.modMx t f (·.setDrop isB false) else a) := by
    simp only [exec_operandBurstTake, execOperandBurstTake, head, runs, drops, if_true, Bool.not_true, Bool.false_eq_true, if_false, act]
  cases tail : k.tail
  · rw [tail, if_neg Bool.false_ne_true] at run
    exact ⟨a, run, popped.only, popped.takes, by rw [popped.mxf]; exact drops, by rw [popped.mxf]⟩
  · rw [tail, if_pos rfl] at run
    refine ⟨_, run, onlyMt_trans popped.only (State.modMx_onlyMt _), takesHead_of_inq popped.takes (modMx_inq _), ?_, ?_⟩
    · rw [State.modMx_mxf]
      exact MxFacet.drops_setDrop ..
    · rw [State.modMx_mxf, MxFacet.cmds_setDrop, popped.mxf]
/-- A column burst on mi8, token by token (R335, R346). -/
theorem columnsTaken : ∀ (s : State) (t : Tile) (f : Facet) (k : Token) (c : MxCmd), s.mtHead t f 8 = some k → s.mtRuns t f = true →
    bit ((s.mt t).fac f).recording 8 = false → (s.mxf t f).dropB = false → s.columnCmd t f = some c →
    let whole := c.burst.length + 1 = c.burstLen
    let good := k.kind ≠ 3 ∧ k.head = c.burst.isEmpty ∧ k.tail = decide whole
    (good → ¬whole → ∃ s', exec (.operandBurstTake t f true) s = .next s' ∧ OnlyMt s s' t ∧ TakesHead s s' t f 8 ∧
      { c with burst := c.burst ++ [k] } ∈ (s'.mxf t f).cmds) ∧
    (good → whole → c.read < 31 → ∃ s' c', exec (.operandBurstTake t f true) s = .next s' ∧ OnlyMt s s' t ∧ TakesHead s s' t f 8 ∧
      c' ∈ (s'.mxf t f).cmds ∧ c'.id = c.id ∧ c'.burst = [] ∧ c'.read = c.read + 1 ∧
      ((s'.mxf t f).b.get c.bufPhys).cols.length = ((s.mxf t f).b.get c.bufPhys).cols.length + 1) ∧
    (good → whole → c.read = 31 → ∃ s', exec (.operandBurstTake t f true) s = .next s' ∧ TakesHead s s' t f 8 ∧ s'.mem = s.mem ∧
      MxAnswers s s' t f 0xC1 0 (some (c.poisoned + ((c.burst ++ [k]).any (·.poison)).toNat)) ∧
      (s'.mxf t f).cmds = ((s.mxf t f).cmds.filter fun y => y.id != c.id) ∧ ((s'.mxf t f).b.get c.bufPhys).loaded = true ∧
      ((s'.mxf t f).b.get c.bufPhys).cols.length = ((s.mxf t f).b.get c.bufPhys).cols.length + 1) ∧
    (¬good → ∃ s', exec (.operandBurstTake t f true) s = .next s' ∧ OnlyMt s s' t ∧ TakesHead s s' t f 8 ∧
      { c with burst := [], status := 3 } ∈ (s'.mxf t f).cmds ∧ (s'.mxf t f).dropB = !k.tail) := by
  intro s t f k c head runs quiet keeps found
  dsimp only
  obtain ⟨a, popped, act⟩ := State.mtTaking_popped head quiet
  obtain ⟨here, op, status⟩ := columnCmd_mem found
  have run : exec (.operandBurstTake t f true) s = .next (a.columnToken t f c k) := by
    simp only [exec_operandBurstTake, execOperandBurstTake, if_true, head, runs, keeps, found, Bool.not_true, Bool.false_eq_true, if_false, act]
  have mxf := popped.mxf
  rw [State.columnToken] at run
  refine ⟨fun good part => ?_, fun good whole more => ?_, fun good whole last => ?_, fun bad => ?_⟩
  · rw [badToken_iff.2 good, if_neg Bool.false_ne_true, if_neg part] at run
    refine ⟨_, run, onlyMt_trans popped.only (State.setMxCmd_onlyMt _), takesHead_of_inq popped.takes (modMx_inq _), ?_⟩
    rw [State.setMxCmd_mxf, mxf]
    exact replaceMx_mem here rfl
  · rw [badToken_iff.2 good, if_neg Bool.false_ne_true, if_pos whole, State.columnDone] at run
    rw [if_neg (by omega)] at run
    refine ⟨_, { c with burst := [], read := c.read + 1, poisoned := c.poisoned + (burstValue c.mx (c.burst ++ [k])).2.2.toNat }, run,
      onlyMt_trans popped.only (addCol_onlyMt ..), takesHead_of_inq popped.takes ?_, ?_, rfl, rfl, rfl, ?_⟩
    · exact addCol_inq ..
    · rw [addCol_mxf, mxf]
      exact replaceMx_mem here rfl
    · rw [addCol_mxf, mxf, vget_vmod_same, List.length_append]
      rfl
  · rw [badToken_iff.2 good, if_neg Bool.false_ne_true, if_pos whole] at run
    obtain ⟨inq, mem, ⟨d, queued, answers⟩, cmds, loaded, cols⟩ :=
      columnDone_last (s := a) (t := t) (f := f) op status last (c.burst ++ [k])
    rw [show (a.mt t).pend6 = (s.mt t).pend6 from (congrArg MemTile.pend6 popped.tile :)] at queued
    rw [mxf] at cmds cols
    exact ⟨_, run, takesHead_of_inq popped.takes inq, mem.trans (congrArg State.mem popped.only.1 :), ⟨d, queued, answers⟩, cmds, loaded, cols⟩
  · rw [if_pos (Bool.eq_true_of_not_eq_false fun h => bad (badToken_iff.1 h))] at run
    refine ⟨_, run, onlyMt_trans popped.only (badBurst_onlyMt ..), takesHead_of_inq popped.takes ?_, ?_, ?_⟩
    · exact badBurst_inq ..
    · rw [badBurst_mxf, mxf]
      exact replaceMx_mem here rfl
    · rw [badBurst_mxf]
      rfl
/-- A row burst on mi7 stands while it is well formed (R335). -/
theorem rowsStand : ∀ (s : State) (t : Tile) (f : Facet) (c : MxCmd), s.mtRuns t f = true → bit ((s.mt t).fac f).recording 7 = false →
    (s.mxf t f).dropA = false → s.rowCmd t f = some c →
    let l := (s.rowHead t f c).1
    ((s.rowHead t f c).2 = true → exec (.operandBurstTake t f false) s = .next s) ∧
    (∀ k, l.getLast? = some k → ({ c with burst := l.dropLast } : MxCmd).badToken k = true → ∃ s', exec (.operandBurstTake t f false) s = .next s' ∧
      OnlyMt s s' t ∧ ((s'.mt t).fac f).inq.get 7 = (((s.mt t).fac f).inq.get 7).drop l.length ∧
      { c with burst := [], status := 3 } ∈ (s'.mxf t f).cmds ∧ (s'.mxf t f).dropA = !k.tail) := by
  intro s t f c runs quiet keeps found
  dsimp only
  have none_ : s.mtHead t f 7 = none → (s.rowHead t f c).1 = [] := fun empty => by
    rw [State.rowHead, List.head?_eq_none_iff.1 empty]
    rfl
  have run : exec (.operandBurstTake t f false) s = match (s.rowHead t f c).1.getLast? with
      | some y => when_ s (({ c with burst := (s.rowHead t f c).1.dropLast } : MxCmd).badToken y)
        (s.mtTakeN t f 7 (s.rowHead t f c).1.length fun s => s.badBurst t f false c y)
      | none => .next s := by
    simp only [exec_operandBurstTake, execOperandBurstTake, Bool.false_eq_true, if_false]
    cases head : s.mtHead t f 7 with
    | none => rw [none_ head]; rfl
    | some k => simp only [runs, keeps, found, Bool.not_true, Bool.false_eq_true, if_false] <;> rfl
  refine ⟨fun whole => ?_, fun k last bad => ?_⟩
  · rw [run]
    have sound : ((s.rowHead t f c).1.getLast?.all fun k => !({ c with burst := (s.rowHead t f c).1.dropLast } : MxCmd).badToken k) = true :=
      (Bool.and_eq_true_iff.1 whole).2
    cases last : (s.rowHead t f c).1.getLast? with
    | none => rfl
    | some y =>
      rw [last] at sound
      exact when_of_false (by simpa using sound)
  · obtain ⟨a, popped, act⟩ := State.mtTakeN_popped (n := (s.rowHead t f c).1.length) (rowBurst_length ..) quiet
    simp only [last] at run
    rw [when_of_true bad, act] at run
    refine ⟨_, run, onlyMt_trans popped.only (badBurst_onlyMt ..), ?_, ?_, ?_⟩
    · rw [badBurst_inq, popped.queue]
    · rw [badBurst_mxf, popped.mxf]
      exact replaceMx_mem (runningMma_mem (rowCmd_running found)) rfl
    · rw [badBurst_mxf]
      rfl

theorem matrixOperands : MatrixOperands := ⟨rowsStaged, burstsDiscarded, columnsTaken, rowsStand⟩

end Sys2Proof.Machine
end

section
/-! SUPPORT. Rows of the matrix unit (R330, R335, R337, R338): how one fires, what it adds to its bank or sends on mo7, and its integer values. -/

namespace Sys2Proof.Machine

/-! Rows as numbers (R329, R338) -/

/-- The words of a row are the elements of its number. -/
theorem ofWords_eq (l : List Nat) : ofWords l = BitVec.ofNat 1024 (ofElems 32 l) := by
  have sum : ∀ (l : List Nat) (i a : Nat), (l.zipIdx i).foldl (fun a x => a + x.1 % 2 ^ 32 * 2 ^ (32 * x.2)) a = a + 2 ^ (32 * i) * ofElems 32 l := by
    intro l
    induction l with
    | nil => intro i a; rfl
    | cons x l ih =>
      intro i a
      rw [List.zipIdx_cons, List.foldl_cons, ih, ofElems, Nat.mul_succ, pow_add]
      ring
  rw [ofWords, sum l 0 0, Nat.zero_add, Nat.mul_zero, pow_zero, Nat.one_mul]
/-- Word n of a row that is made of 32 numbers. -/
theorem word_ofWords {n : Nat} (h : n < 32) (g : Nat → Nat) (p : Bool) : AccRow.word ⟨ofWords ((List.range 32).map g), p⟩ n = g n % 2 ^ 32 := by
  rw [AccRow.word, ofWords_eq, fld_ofNat (by omega), ofElems_element, List.getElem?_map, List.getElem?_range h]
  rfl
theorem foldl_add_eq (g : Nat → Int) (l : List Nat) (a : Int) : l.foldl (fun n q => n + g q) a = a + (l.map g).sum := by
  induction l generalizing a with
  | nil => simp
  | cons q l ih => rw [List.foldl_cons, ih, List.map_cons, List.sum_cons, Int.add_assoc]
/-- The value of a row of bytes and a column of bytes is the sum of their products. -/
theorem intSum_bytes (a b : Nat) : intSum 8 a b =
    ((List.range 64).map fun q => signedOf 8 (a / 2 ^ (8 * q) % 2 ^ 8) * signedOf 8 (b / 2 ^ (8 * q) % 2 ^ 8)).sum := by
  rw [intSum]
  exact (foldl_add_eq _ _ 0).trans (Int.zero_add _)

section
variable {s : State} {t : Tile} {f : Facet} {c : MxCmd}
theorem exec_rowFire (t : Tile) (s : State) : exec (.rowFire t) s = execRowFire t s := rfl
theorem exec_rowEffect (t : Tile) (s : State) : exec (.rowEffect t) s = execRowEffect t s := rfl
theorem exec_resultBurst (t : Tile) (s : State) : exec (.resultBurst t) s = execResultBurst t s := rfl
theorem exec_matrixCompletion (t : Tile) (s : State) : exec (.matrixCompletion t) s = execMatrixCompletion t s := rfl
theorem firedCmd_mem {x : FiredRow} (found : s.firedCmd t x = some c) : c ∈ (s.mxf t x.facet).cmds := List.mem_of_find?_eq_some found

/-! Firing (R337) -/

/-- A command as its next row has fired. -/
def State.firedNext (s : State) (t : Tile) (f : Facet) (c : MxCmd) (r : ARow) : MxCmd :=
  { c with fired := c.fired + 1, poisoned := c.poisoned + (r.poison || ((s.mxf t f).b.get c.bufPhys).poison).toNat }
theorem fireRow_spec (r : ARow) : OnlyMt s (s.fireRow t f c r) t ∧ ((s.fireRow t f c r).mt t).fired = (s.mt t).fired ++ [⟨f, r, s.cycle⟩] ∧
    ((s.fireRow t f c r).mt t).mxPtr = f ∧ ((s.fireRow t f c r).mt t).fac f =
      { (s.mt t).fac f with mx := { s.mxf t f with cmds := replaceMx (s.mxf t f).cmds (s.firedNext t f c r) } } := by
  rw [State.fireRow]
  refine ⟨onlyMt_trans (State.setMxCmd_onlyMt _) (State.modMt_onlyMt ..), ?_, ?_, ?_⟩
  · rw [State.modMt_mt_same, State.setMxCmd, State.modMx_fired]
  · rw [State.modMt_mt_same]
  · rw [State.modMt_mt_same]
    exact State.modMx_fac _

end

theorem rowsFire (s : State) (t : Tile) (f : Facet) (c : MxCmd) (mtTile : t.isCT = false) (inFabric : t.inFabric = true)
    (turn : ([(s.mt t).mxPtr + 1, (s.mt t).mxPtr + 2, (s.mt t).mxPtr + 3, (s.mt t).mxPtr] : List Facet).find? (s.mayFire t) = some f)
    (running : s.runningMma t f = some c) :
    (∀ r l, (s.mxf t f).staged = r :: l →
      ∃ s' c', exec (.rowFire t) s = .next s' ∧ OnlyMt s s' t ∧ (s'.mt t).fired = (s.mt t).fired ++ [⟨f, r, s.cycle⟩] ∧ (s'.mt t).mxPtr = f ∧
        (s'.mxf t f).staged = l ∧ c' ∈ (s'.mxf t f).cmds ∧ c'.id = c.id ∧ c'.fired = c.fired + 1) ∧
    ((s.mxf t f).staged = [] → bit ((s.mt t).fac f).recording 7 = false →
      let l := (s.rowHead t f c).1
      let v := burstValue c.mx l
      ∃ s' c', exec (.rowFire t) s = .next s' ∧ OnlyMt s s' t ∧
        (s'.mt t).fired = (s.mt t).fired ++ [⟨f, ⟨c.id, c.read, v.1, v.2.1, v.2.2⟩, s.cycle⟩] ∧ (s'.mt t).mxPtr = f ∧
        ((s'.mt t).fac f).inq.get 7 = (((s.mt t).fac f).inq.get 7).drop l.length ∧ c' ∈ (s'.mxf t f).cmds ∧ c'.id = c.id ∧
        c'.fired = c.fired + 1 ∧ c'.read = c.read + 1) := by
  have order : ∀ p : Facet, facetsFrom (p + 1) = [p + 1, p + 2, p + 3, p] := by decide
  have run : exec (.rowFire t) s = .next (s.fire t f) := by
    rw [exec_rowFire, execRowFire, order, turn]
    exact when_of_true (by rw [mtTile, inFabric]; rfl)
  have here := runningMma_mem running
  rw [State.fire, running] at run
  refine ⟨fun r l staged => ?_, fun staged quiet => ?_⟩
  · simp only [staged] at run
    obtain ⟨only, fired, ptr, fac⟩ := fireRow_spec (s := s.modMx t f fun x => { x with staged := l }) (t := t) (f := f) (c := c) r
    refine ⟨_, State.firedNext (s.modMx t f fun x => { x with staged := l }) t f c r, run, onlyMt_trans (State.modMx_onlyMt _) only, ?_, ptr, ?_, ?_,
      rfl, rfl⟩
    · rw [fired, State.modMx_fired]
      rfl
    · rw [State.mxf, fac, State.modMx_mxf]
    · rw [State.mxf, fac]
      exact replaceMx_mem (c := c) (by rw [State.modMx_mxf]; exact here) rfl
  · simp only [staged] at run
    obtain ⟨a, popped, act⟩ := State.mtTakeN_popped (n := (s.rowHead t f c).1.length) (rowBurst_length ..) quiet
    rw [act] at run
    obtain ⟨only, fired, ptr, fac⟩ := fireRow_spec (s := a) (t := t) (f := f) (c := { c with read := c.read + 1 })
      ⟨c.id, c.read, (burstValue c.mx (s.rowHead t f c).1).1, (burstValue c.mx (s.rowHead t f c).1).2.1, (burstValue c.mx (s.rowHead t f c).1).2.2⟩
    refine ⟨_, a.firedNext t f { c with read := c.read + 1 } ⟨c.id, c.read, (burstValue c.mx (s.rowHead t f c).1).1,
      (burstValue c.mx (s.rowHead t f c).1).2.1, (burstValue c.mx (s.rowHead t f c).1).2.2⟩, run, onlyMt_trans popped.only only, ?_, ptr, ?_, ?_,
      rfl, rfl, rfl⟩
    · rw [fired, popped.cycle, show (a.mt t).fired = (s.mt t).fired from (congrArg MemTile.fired popped.tile :)]
    · rw [fac]
      exact popped.queue
    · rw [State.mxf, fac]
      exact replaceMx_mem (c := c) (by rw [popped.mxf]; exact here) rfl

/-! Effect and results (R338) -/

section
variable {s : State} {t : Tile} {x : FiredRow} {c : MxCmd}
theorem State.modMt_mxf {g : MemTile → MemTile} (f : Facet) (keeps : (g (s.mt t)).fac f = (s.mt t).fac f) : (s.modMt t g).mxf t f = s.mxf t f := by
  rw [State.mxf, State.modMt_mt_same, keeps, State.mxf]
theorem dropFired_mxf (f : Facet) : (s.dropFired t x).mxf t f = s.mxf t f := State.modMt_mxf f rfl
theorem dropFired_fired : ((s.dropFired t x).mt t).fired = (s.mt t).fired.erase x := by rw [State.dropFired, State.modMt_mt_same]
/-- The row that stands in the bank once x has taken effect. -/
def State.newRow (s : State) (t : Tile) (x : FiredRow) (c : MxCmd) : AccRow :=
  let v := s.rowResult t x.facet c x.row
  let old := s.accRow t x.facet c.accPhys (c.frow + x.row.k)
  ⟨ofWords ((List.range 32).map fun n => accumulate c (old.word n) (v.word n)), if c.zero then v.poison else old.poison || v.poison⟩
theorem rowTakes_spec (found : s.firedCmd t x = some c) : let s' := s.rowTakes t x c
    (s'.mt t).fired = (s.mt t).fired.erase x ∧ { c with effect := c.effect + 1 } ∈ (s'.mxf t x.facet).cmds ∧ s'.mem = s.mem ∧
      ∀ b j, s'.accRow t x.facet b j = if b = c.accPhys ∧ j = c.frow + x.row.k then s.newRow t x c else s.accRow t x.facet b j := by
  have whole : s.rowTakes t x c = ((s.dropFired t x).setAccRow t x.facet c.accPhys (c.frow + x.row.k) (s.newRow t x c)).setMxCmd t x.facet
    { c with effect := c.effect + 1 } := rfl
  dsimp only
  rw [whole]
  refine ⟨?_, ?_, ?_, fun b j => ?_⟩
  · rw [State.setMxCmd, State.modMx_fired, State.setAccRow_mt, State.modMx_fired, dropFired_fired]
  · rw [State.setMxCmd_mxf, State.setAccRow_mxf, dropFired_mxf]
    exact replaceMx_mem (firedCmd_mem found) rfl
  · rw [State.setMxCmd_mem, State.setAccRow_mem]
    rfl
  · rw [State.accRow_of_acc (s := (s.dropFired t x).setAccRow t x.facet c.accPhys (c.frow + x.row.k) (s.newRow t x c)) (by rw [State.setMxCmd_mxf]),
      State.setAccRow_accRow, State.accRow_of_acc (s := s) (by rw [dropFired_mxf])]
theorem newRow_word {n : Nat} (h : n < 32) :
    let old := (s.accRow t x.facet c.accPhys (c.frow + x.row.k)).word n
    let v := s.rowResult t x.facet c x.row
    (s.newRow t x c).word n = if c.zero then v.word n else if 8 ≤ c.fmt then (old + v.word n) % 2 ^ 32 else (fAdd 0 0 old (v.word n)).1 % 2 ^ 32 := by
  dsimp only
  rw [State.newRow, word_ofWords h, accumulate]
  split
  · exact Nat.mod_eq_of_lt (AccRow.word_lt ..)
  · by_cases int : 8 ≤ c.fmt
    · rw [mxIsInt, decide_eq_true int, if_pos rfl, if_pos int]
      exact Nat.mod_mod ..
    · rw [mxIsInt, decide_eq_false int, if_neg Bool.false_ne_true, if_neg int]
theorem newRow_poison : (s.newRow t x c).poison =
    ((s.rowResult t x.facet c x.row).poison || (!c.zero && (s.accRow t x.facet c.accPhys (c.frow + x.row.k)).poison)) := by
  rw [State.newRow]
  cases c.zero
  · exact Bool.or_comm ..
  · simp

/-- A row of results enters mo7, and nothing else of the machine changes. -/
theorem rowLeaves_spec (found : s.firedCmd t x = some c) : let s' := s.rowLeaves t x c
    OnlyMt s s' t ∧ Queued s s' t 7 (resultTokens x.facet (s.rowResult t x.facet c x.row)) ∧ (s'.mt t).fired = (s.mt t).fired.erase x ∧
      { c with effect := c.effect + 1 } ∈ (s'.mxf t x.facet).cmds := by
  have sends := s.sendAll_sends t 7 (resultTokens x.facet (s.rowResult t x.facet c x.row))
  dsimp only
  rw [State.rowLeaves]
  generalize (resultTokens x.facet (s.rowResult t x.facet c x.row)).foldl (fun s k => s.mtSend t 7 k []) s = a at sends ⊢
  refine ⟨onlyMt_trans sends.only (onlyMt_trans (State.modMt_onlyMt ..) (State.setMxCmd_onlyMt _)), ?_, ?_, ?_⟩
  · rw [Queued, State.setMxCmd, State.modMx_outq, State.dropFired, State.modMt_mt_same]
    exact sends.queued
  · rw [State.setMxCmd, State.modMx_fired, dropFired_fired, show (a.mt t).fired = (s.mt t).fired from (congrArg MemTile.fired sends.rest :)]
  · rw [State.setMxCmd_mxf, dropFired_mxf, sends.mxf]
    exact replaceMx_mem (firedCmd_mem found) rfl
/-- A value of an integer row (R338). -/
theorem rowResult_int (fmt : c.fmt = 8) {n : Nat} (h : n < 32) {col : Nat × Nat}
    (column : ((s.mxf t x.facet).b.get c.bufPhys).cols[n]? = some col) : (s.rowResult t x.facet c x.row).word n = wrapInt 32
      ((List.range 64).map fun q => signedOf 8 (x.row.data / 2 ^ (8 * q) % 2 ^ 8) * signedOf 8 (col.1 / 2 ^ (8 * q) % 2 ^ 8)).sum := by
  rw [State.rowResult, word_ofWords h, rowValue, fmt, if_pos (by decide), List.getD_eq_getElem?_getD, column, Option.getD_some, intSum_bytes]
  exact Nat.mod_eq_of_lt (wrapInt_lt ..)
end

theorem matrixRows : MatrixRows := by
  refine ⟨rowsFire, fun s t x c thaws found => ?_, fun s t c rest mtTile inFabric moves oldest room => ?_⟩
  · dsimp only
    refine ⟨fun oldest => ⟨fun early => ?_, fun due => ?_⟩, fun oldest => ⟨fun early => ?_, fun due => ?_⟩, fun fmt n h col => rowResult_int fmt h⟩
    · rw [exec_rowEffect, execRowEffect, oldest]
      simp only [found]
      exact when_of_false (by rw [decide_eq_false (by omega)]; rfl)
    · have run : exec (.rowEffect t) s = .next (s.rowTakes t x c) := by
        rw [exec_rowEffect, execRowEffect, oldest]
        simp only [found]
        exact when_of_true (by rw [decide_eq_true due, thaws]; rfl)
      obtain ⟨fired, listed, mem, rows⟩ := rowTakes_spec found
      have own : (s.rowTakes t x c).accRow t x.facet c.accPhys (c.frow + x.row.k) = s.newRow t x c := by rw [rows, if_pos ⟨rfl, rfl⟩]
      refine ⟨_, _, run, fired, listed, rfl, rfl, mem, fun n h => ?_, ?_, fun b j other => ?_⟩
      · rw [own]
        exact newRow_word h
      · rw [own]
        exact newRow_poison
      · rw [rows, if_neg fun h => other (by rw [h.1, h.2])]
    · rw [exec_resultBurst, execResultBurst, oldest]
      simp only [found]
      exact when_of_false (by rw [decide_eq_false (by omega)]; rfl)
    · have run : exec (.resultBurst t) s = .next (s.rowLeaves t x c) := by
        rw [exec_resultBurst, execResultBurst, oldest]
        simp only [found]
        exact when_of_true (by rw [decide_eq_true due, thaws]; rfl)
      obtain ⟨only, queued, fired, listed⟩ := rowLeaves_spec found
      exact ⟨_, _, run, only, queued, fired, listed, rfl, rfl⟩
  · have run : exec (.matrixCompletion t) s = .next (State.mtSend (s.modMt t fun m => { m with pend6 := rest }) t 6 c.tok []) := by
      rw [exec_matrixCompletion, execMatrixCompletion, oldest]
      exact when_of_true (by rw [mtTile, inFabric, moves, room]; rfl)
    have sends := (s.modMt t fun m => { m with pend6 := rest }).mtSend_sends t 6 c.tok
    refine ⟨_, run, onlyMt_trans (s.modMt_onlyMt t _) sends.only, ?_, ?_⟩
    · have queued := sends.queued
      rw [Queued, State.modMt_mt_same] at queued
      exact queued
    · rw [show ((State.mtSend (s.modMt t fun m => { m with pend6 := rest }) t 6 c.tok []).mt t).pend6 = _ from (congrArg MemTile.pend6 sends.rest :),
        State.modMt_mt_same]

/-- Settles O52: starts and ends of commands, operands that are read or taken, and rows that fire, take effect or leave. -/
theorem matrixRuns : Obligations.MatrixRuns := ⟨matrixCommands, matrixOperands, matrixRows⟩

end Sys2Proof.Machine
end

section
/-! SUPPORT. The module (R453 to R459): the fields of BOOTSTAT after a boot, attestation, a monitor's sample and the mailbox's commands. -/

namespace Sys2Proof.Machine

theorem exec_deviceReset (x : BootInputs) (s : State) : exec (.deviceReset x) s = .next (s.boot x) := rfl
theorem exec_resync (v : Word) (s : State) : exec (.resync v) s = .next (s.mailbox v) := rfl
theorem exec_resyncComplete (s : State) : exec .resyncComplete s = execResyncComplete s := rfl

/-! Boot (R453, R454) -/

/-- The fields of BOOTSTAT: the slot, the start of the machine, recovery, and a trip. -/
theorem bootWord_fields (x : BootInputs) (svn : Nat) (tripped : Bool) :
    fld (bootWord x svn tripped) 0 2 = bootSlot x ∧ bit (bootWord x svn tripped) 8 = (bootSlot x != 3 && x.loaderOk) ∧
      bit (bootWord x svn tripped) 9 = (bootSlot x == 3) ∧ bit (bootWord x svn tripped) 10 = tripped := by
  have slot : bootSlot x < 4 := by
    unfold bootSlot
    split
    · decide
    · split <;> decide
  have bits (c : SlotCheck) : slotBits c < 8 := by
    have := c.rsa.toNat_lt
    have := c.slh.toNat_lt
    have := c.svn.toNat_lt
    unfold slotBits
    omega
  have a := bits x.slotA
  have b : (if slotPasses x.slotA then 0 else slotBits x.slotB) < 8 := by
    split
    · decide
    · exact bits x.slotB
  have runs := (!(bootSlot x == 3) && x.loaderOk).toNat_lt
  have none_ := (bootSlot x == 3).toNat_lt
  have trip := tripped.toNat_lt
  refine ⟨?_, bit_of_fld ?_, bit_of_fld ?_, bit_of_fld ?_⟩
  all_goals
    simp only [bootWord, fld_ofNat, Nat.reduceAdd, Nat.reduceLeDiff]
    generalize (if slotPasses x.slotA then 0 else slotBits x.slotB) = b' at b ⊢
    generalize slotBits x.slotA = a' at a ⊢
    generalize bootSlot x = slot' at slot runs none_ ⊢
  · omega
  · rw [bne, show (slot' == 3) = (slot' == 3) from rfl]
    generalize (!(slot' == 3) && x.loaderOk).toNat = n at runs ⊢
    omega
  · omega
  · omega
/-- The first slot that passes its three checks is started, and without one none is. -/
theorem bootSlot_eq (x : BootInputs) : bootSlot x = if x.slotA.rsa && x.slotA.slh && x.slotA.svn then 0 else
    if x.slotB.rsa && x.slotB.slh && x.slotB.svn then 1 else 3 := rfl
/-- What is added to a machine and then taken away leaves it as it was. -/
theorem State.parts_restored (r : State) (m : Module) (free : Nat) (inbox : List Instr) (upsets : List Upset) (out : List LinkOut) :
    { ({ r with modul := m, free := free, inbox := inbox, upsets := upsets, out := out } : State) with
      modul := r.modul, free := r.free, inbox := r.inbox, upsets := r.upsets, out := r.out } = r := rfl

theorem boots : Boots := by
  intro s x
  obtain ⟨slot, starts, none_, trip⟩ := bootWord_fields x (fld (s.restart false).modul.bootstat 16 8) (x.tripped || s.modul.tripped)
  have chosen := bootSlot_eq x
  refine ⟨_, exec_deviceReset x s, State.parts_restored State.reset .., rfl, rfl, rfl, rfl, ?_⟩
  dsimp only
  refine ⟨slot.trans chosen, starts.trans ?_, none_.trans ?_, trip, rfl, rfl⟩
  all_goals
    rw [chosen]
    generalize (x.slotA.rsa && x.slotA.slh && x.slotA.svn) = a
    generalize (x.slotB.rsa && x.slotB.slh && x.slotB.svn) = b
    cases a <;> cases b <;> rfl

/-! Attestation (R455) -/

theorem attests : Attests := by
  intro s l
  refine ⟨fun none_ => ?_, fun starts => ?_⟩
  · exact when_of_false (by rw [State.turoxRuns, none_]; rfl)
  · have runs : s.turoxRuns = true := by simpa [State.turoxRuns] using starts
    refine ⟨_, s.spdmAnswer l, when_of_true runs, rfl, ?_, rfl, fun other => ?_⟩
    · unfold State.spdmAnswer
      dsimp only
      split <;> rfl
    · have unlisted : spdmCodes.contains (l.getD 1 0) = false := by
        simpa [spdmCodes] using other
      simp only [State.spdmAnswer, unlisted, Bool.false_eq_true, if_false]

/-! Monitors (R456, R457) -/

theorem State.mbRise_modul (s : State) (i : Nat) : (s.mbRise i).modul = { s.modul with mbstat := setBit s.modul.mbstat i true } := by
  unfold State.mbRise
  dsimp only
  split <;> rfl
/-- What MBSTAT.DONE or EVT changes: the mailbox, and an interrupt that leaves. -/
theorem State.mbRise_frame (s : State) (i : Nat) : { s.mbRise i with modul := s.modul, out := s.out } = s := by
  unfold State.mbRise
  dsimp only
  split <;> rfl
theorem State.mbRise_die (s : State) (i : Nat) (d : DieId) : (s.mbRise i).die d = s.die d := by
  rw [State.die, show (s.mbRise i).dies = s.dies from (congrArg State.dies (s.mbRise_frame i) :), State.die]

theorem monitors : Monitors := by
  intro s d temp vcore
  have temp_lt := temp.isLt
  have vcore_lt := vcore.isLt
  refine ⟨fun early => when_of_false early, fun due => ⟨fun hot => ?_, fun cool => ?_⟩⟩
  · have run : exec (.monitorSample d temp vcore) s = .next (s.restart true) :=
      (when_of_true due).trans (by rw [State.sample, if_pos hot])
    exact ⟨_, run, rfl, rfl, rfl, rfl⟩
  · have run : exec (.monitorSample d temp vcore) s = .next (s.sample d temp vcore) := when_of_true due
    rw [State.sample, if_neg (by omega)] at run
    dsimp only at run
    have hmon := s.modDie_die_same d fun x => { x with hmon := setFld (setFld x.hmon 0 10 temp.toNat) 10 10 vcore.toNat }
    generalize hu : s.modDie d (fun x => { x with hmon := setFld (setFld x.hmon 0 10 temp.toNat) 10 10 vcore.toNat }) = u at run hmon
    have others (e : DieId) (other : e ≠ d) : u.die e = s.die e := by rw [← hu, State.modDie_die_other _ _ _ _ other]
    have rest : u.mem = s.mem ∧ u.elements = s.elements ∧ u.modul = s.modul := by rw [← hu]; exact ⟨rfl, rfl, rfl⟩
    obtain ⟨mem, elements, modul⟩ := rest
    have cold : fld (u.die d).hmon 0 10 = temp.toNat := by
      rw [hmon, fld_setFld_other _ _ _ _ _ _ (by omega), fld_setFld_same _ _ _ _ (by decide), Nat.mod_eq_of_lt temp_lt]
    have core : fld (u.die d).hmon 10 10 = vcore.toNat := by
      rw [hmon, fld_setFld_same _ _ _ _ (by decide), Nat.mod_eq_of_lt vcore_lt]
    have limit : fld (u.die d).hmon 28 10 = fld (s.die d).hmon 28 10 := by
      rw [hmon, fld_setFld_other _ _ _ _ _ _ (by omega), fld_setFld_other _ _ _ _ _ _ (by omega)]
    have warned : bit (u.die d).hmon 38 = bit (s.die d).hmon 38 := by
      rw [hmon, bit_setFld_other _ _ _ _ _ (by omega), bit_setFld_other _ _ _ _ _ (by omega)]
    have warns : (u.die d).hot = decide (fld (s.die d).hmon 28 10 ≤ temp.toNat) := by rw [Die.hot, limit, cold]
    rw [warns] at run
    by_cases hot : fld (s.die d).hmon 28 10 ≤ temp.toNat
    · rw [if_pos (decide_eq_true hot)] at run
      have own : ((u.modDie d fun x => { x with hmon := setBit x.hmon 38 true }).die d).hmon = setBit (u.die d).hmon 38 true := by
        rw [State.modDie_die_same]
      have frame := State.mbRise_frame (u.modDie d fun x => { x with hmon := setBit x.hmon 38 true }) 4
      refine ⟨_, run, ?_, ?_, fun e other => ?_, ?_, ?_, fun _ => ⟨?_, ?_⟩, fun below => absurd hot (by omega)⟩
      · rw [State.mbRise_die, own, fld_setBit_other _ _ _ _ _ (by omega), cold]
      · rw [State.mbRise_die, own, fld_setBit_other _ _ _ _ _ (by omega), core]
      · rw [State.mbRise_die, State.modDie_die_other _ _ _ _ other, others e other]
      · exact ((congrArg State.mem frame :).trans mem)
      · exact ((congrArg State.elements frame :).trans elements)
      · rw [State.mbRise_die, own, bit_setBit_same _ _ _ (by decide)]
      · rw [State.mbRise_modul, bit_setBit_same _ _ _ (by decide)]
    · rw [if_neg (by simpa using hot)] at run
      exact ⟨u, run, cold, core, others, mem, elements, fun h => absurd h hot, fun _ => ⟨warned, modul⟩⟩

/-! The mailbox (R458, R459) -/

/-- The state in which a write of MBCMD has stored its command. -/
def State.mbStored (s : State) (v : Word) : State := { s with modul := { s.modul with mbcmd := setFld s.modul.mbcmd 0 16 (fld v 0 16) } }
theorem mailbox_eq (s : State) (v : Word) : s.mailbox v = if bit v 16 = false then s.mbStored v
    else if bit s.modul.mbstat 0 = true then (s.mbStored v).setMb 2
    else if s.recovery = true ∨ fld v 0 16 ≠ 1 then ((s.mbStored v).setMb 1).mbRise 3 else (s.mbStored v).startResync := by
  have recovery : (s.mbStored v).recovery = s.recovery := rfl
  have busy : (s.mbStored v).mbBusy = bit s.modul.mbstat 0 := rfl
  simp only [State.mailbox, ← State.mbStored.eq_1, recovery, busy, Bool.not_eq_true', Bool.or_eq_true, bne_iff_ne]
theorem mailbox : Mailbox := by
  intro s v
  have run := exec_resync v s
  rw [mailbox_eq] at run
  refine ⟨fun idle => ?_, fun go => ⟨fun busy => ?_, fun ready other => ?_, fun ready runs op => ?_⟩, fun none_ => ?_, fun c sampled => ⟨fun early => ?_, fun due => ?_⟩⟩
  · rw [if_pos idle] at run
    exact ⟨_, run, rfl⟩
  · rw [if_neg (by simp [go]), if_pos busy] at run
    refine ⟨_, run, ?_, rfl, ?_⟩
    · exact fld_setFld_same _ _ _ _ (by decide)
    · exact (bit_setFld_other _ _ _ _ _ (by omega)).trans busy
  · rw [if_neg (by simp [go]), if_neg (by simp [ready]), if_pos other] at run
    refine ⟨_, run, ?_, ?_, ?_⟩ <;> rw [State.mbRise_modul]
    · exact (fld_setBit_other _ _ _ _ _ (by omega)).trans (fld_setFld_same _ _ _ _ (by decide))
    · exact bit_setBit_same _ _ _ (by decide)
    · exact (bit_setBit_other _ _ _ _ (by decide)).trans ((bit_setFld_other _ _ _ _ _ (by omega)).trans ready)
  · rw [if_neg (by simp [go]), if_neg (by simp [ready]), if_neg (by simp [runs, op])] at run
    refine ⟨_, s.cycle + 1 + (s.mbStored v).pick.1 % 2048, run, bit_setBit_same _ _ _ (by decide), rfl, rfl, by omega, ?_, rfl⟩
    have := Nat.mod_lt (s.mbStored v).pick.1 (show 2048 > 0 by decide)
    omega
  · rw [exec_resyncComplete, execResyncComplete, none_]
  · rw [exec_resyncComplete, execResyncComplete, sampled]
    exact when_of_false (decide_eq_false (by omega))
  · have run : exec .resyncComplete s = .next s.endResync := by
      rw [exec_resyncComplete, execResyncComplete, sampled]
      exact when_of_true (decide_eq_true due)
    have frame := State.mbRise_frame ((({ s with modul := { s.modul with mbstat := setBit s.modul.mbstat 0 false, resyncAt := none } } : State).setMb 0)) 3
    refine ⟨_, run, ?_, ?_, ?_, ?_, (congrArg State.mem frame :), (congrArg State.elements frame :)⟩ <;> rw [State.endResync, State.mbRise_modul]
    · exact (bit_setBit_other _ _ _ _ (by decide)).trans ((bit_setFld_other _ _ _ _ _ (by omega)).trans (bit_setBit_same _ _ _ (by decide)))
    · exact (fld_setBit_other _ _ _ _ _ (by omega)).trans (fld_setFld_same _ _ _ _ (by decide))
    · exact bit_setBit_same _ _ _ (by decide)
    · rfl

/-- Settles O60: a boot, an answer, a sample and each command of the mailbox leave what the rules name and nothing else. -/
theorem moduleControl : Obligations.ModuleControl := ⟨boots, attests, monitors, mailbox⟩

end Sys2Proof.Machine
end

section
/-! SUPPORT. Device time and power (R421 to R426): droops, broadcasts and steps of device time, and the units that an exchange and its messages
carry. -/

namespace Sys2Proof.Machine

theorem exec_devtimeBroadcast (s : State) : exec .devtimeBroadcast s = when_ s s.castDue s.broadcast := rfl
theorem exec_powerExchange (s : State) : exec .powerExchange s = when_ s (s.die 0).newUs s.exchange := rfl
theorem exec_powerMessageReceipt (k : Nat) (s : State) : exec (.powerMessageReceipt k) s = execPowerMessageReceipt k s := rfl
theorem exec_powerResend (k : Nat) (s : State) : exec (.powerResend k) s = execPowerResend k s := rfl

/-! Device time (R421, R423, R424) -/

/-- The dies of a state whose dies all change in one way. -/
theorem die_of_map {s s' : State} {h : Die → Die} (dies : s'.dies = s.dies.map h) (d : DieId) : s'.die d = h (s.die d) := by
  rw [State.die, dies, State.die]
  exact Vector.getElem_map ..
theorem io_of_map {s s' : State} {h : IoDie → IoDie} (ios : s'.ios = s.ios.map h) (i : Fin 2) : s'.io i = h (s.io i) := by
  rw [State.io, ios, State.io]
  exact Vector.getElem_map ..
theorem stepTides_frame (s old : State) : { s.stepTides old with regions := s.regions } = s := by
  refine List.foldlRecOn (motive := fun x : State => { x with regions := s.regions } = s) (List.finRange 32) _ rfl fun x same r _ => ?_
  split
  · exact same
  · exact same
/-- The state in which the PHCs and the dies have taken a step, before tides fall due. -/
def State.stepped (s : State) : State :=
  { s with ios := s.ios.map fun x => { x with phc := x.phc + s.modul.dtstep },
           dies := s.dies.map fun (x : Die) => x.jump ((s.io s.source).phc + s.modul.dtstep).toNat (s.io s.source).phcFrac,
           modul := { s.modul with stepDue := false } }
theorem stepTime_eq (s : State) : s.stepTime = s.stepped.stepTides s := by
  have source : (s.ios.map fun x : IoDie => { x with phc := x.phc + s.modul.dtstep }).get s.source =
      { s.io s.source with phc := (s.io s.source).phc + s.modul.dtstep } := Vector.getElem_map ..
  simp only [State.stepTime, source]
  rfl

theorem deviceTime : DeviceTime := by
  refine ⟨fun s d n => ?_, fun s => ?_⟩
  · dsimp only
    refine ⟨fun low high still awake few => ?_, fun bars => ?_⟩
    · have run : exec (.supplyDroop d n) s = .next (s.modDie d fun x => { x with stretch3 := n }) :=
        when_of_true (by rw [decide_eq_true ⟨low, high⟩, still, awake, decide_eq_true few]; rfl)
      exact ⟨_, run, s.modDie_die_same .., fun e other => s.modDie_die_other _ _ _ other, rfl⟩
    · refine when_of_false ?_
      rcases bars with zero | long | stretched | idle | many
      · rw [decide_eq_false (by omega)]; rfl
      · rw [decide_eq_false (by omega)]; rfl
      · rw [beq_eq_false_iff_ne.2 stretched, Bool.and_false]; rfl
      · rw [idle, Bool.not_true, Bool.and_false]; rfl
      · rw [show decide ((s.die d).stretched.length < 4) = false from decide_eq_false (by omega), Bool.and_false]
  · dsimp only
    refine ⟨fun early => when_of_false early, fun due still => ?_, fun due steps => ?_, rfl, fun b => ?_⟩
    · have run := (exec_devtimeBroadcast s).trans (when_of_true due)
      rw [State.broadcast, still, if_neg Bool.false_ne_true] at run
      refine ⟨_, run, rfl, fun d behind => ?_, fun d level => ?_, rfl⟩
      · have lock : Die.lock (s.die d) (s.io s.source) = { s.die d with time := (s.io s.source).phc.toNat, frac := (s.io s.source).phcFrac } :=
          if_pos behind
        rw [die_of_map (s := s) (h := fun x => x.lock (s.io s.source)) rfl, lock]
        exact ⟨rfl, rfl⟩
      · rw [die_of_map (s := s) (h := fun x => x.lock (s.io s.source)) rfl]
        exact if_neg (by exact Nat.not_lt.2 level)
    · have run := (exec_devtimeBroadcast s).trans (when_of_true due)
      rw [State.broadcast, steps, if_pos rfl, stepTime_eq] at run
      have frame := stepTides_frame s.stepped s
      generalize s.stepped.stepTides s = u at run frame
      refine ⟨_, run, fun d => ?_, fun i => ?_, (congrArg (fun x : State => x.modul.stepDue) frame :), (congrArg State.mem frame :),
        (congrArg State.elements frame :)⟩
      · have dies : u.dies = s.dies.map fun x => x.jump ((s.io s.source).phc + s.modul.dtstep).toNat (s.io s.source).phcFrac :=
          (congrArg State.dies frame :)
        exact (congrArg Die.time (die_of_map dies d) :)
      · have ios : u.ios = s.ios.map fun x => { x with phc := x.phc + s.modul.dtstep } := (congrArg State.ios frame :)
        exact (congrArg IoDie.phc (io_of_map ios i) :)
    · exact ⟨_, rfl, bit_setBit_same _ _ _ (by decide), fun i other => bit_setBit_other _ _ _ _ other, rfl⟩

/-! The units that are held or on their way (R425, R426) -/

theorem Die.hold_lt (x : Die) : x.hold < 4096 := fld_lt ..
theorem Die.setHold_hold (x : Die) (n : Nat) : (x.setHold n).hold = n % 4096 := fld_setFld_same _ _ _ _ (by decide)

/-- What moves units: dies, messages and fresh numbers, so that none is lost or made. -/
structure MovesUnits (s s' : State) : Prop where
  units : powerUnits s' = powerUnits s
  frame : { s' with dies := s.dies, power := s.power, nextId := s.nextId, free := s.free } = s
theorem MovesUnits.refl (s : State) : MovesUnits s s := ⟨rfl, rfl⟩
theorem MovesUnits.trans {a b c : State} (h : MovesUnits a b) (k : MovesUnits b c) : MovesUnits a c :=
  ⟨k.units.trans h.units, by rw [← h.frame, ← k.frame]⟩
theorem MovesUnits.foldl {α : Type} {step : State → α → State} (each : ∀ s x, MovesUnits s (step s x)) (l : List α) (s : State) :
    MovesUnits s (l.foldl step s) :=
  List.foldlRecOn (motive := MovesUnits s) l step (.refl s) fun x h y _ => h.trans (each x y)

/-- A sum over the dies in which one value is smaller by n. -/
theorem sum_dies_less {g h : Fin 8 → Nat} {a : Fin 8} {n : Nat} (others : ∀ e, e ≠ a → h e = g e) (own : h a + n = g a) :
    ((List.finRange 8).map h).sum + n = ((List.finRange 8).map g).sum := by
  have less := Finset.add_sum_erase Finset.univ h (Finset.mem_univ a)
  have whole := Finset.add_sum_erase Finset.univ g (Finset.mem_univ a)
  have rest : ∑ e ∈ Finset.univ.erase a, h e = ∑ e ∈ Finset.univ.erase a, g e :=
    Finset.sum_congr rfl fun e he => others e (Finset.ne_of_mem_erase he)
  rw [← Fin.sum_univ_def, ← Fin.sum_univ_def]
  omega
theorem powerUnits_congr {s s' : State} (holds : ∀ d, (s'.die d).hold = (s.die d).hold) (power : s'.power = s.power) :
    powerUnits s' = powerUnits s := by
  simp only [powerUnits, holds, power]
/-- A change of a die that leaves what it holds moves no units. -/
theorem movesUnits_modDie {s : State} {d : DieId} {h : Die → Die} (keeps : ∀ x, (h x).hold = x.hold) : MovesUnits s (s.modDie d h) := by
  refine ⟨powerUnits_congr (fun e => ?_) rfl, rfl⟩
  by_cases own : e = d
  · rw [own, State.modDie_die_same, keeps]
  · rw [State.modDie_die_other _ _ _ _ own]
/-- Units that leave a die are on their way. -/
theorem movesUnits_powerSend {s : State} {a b : DieId} {n : Nat} {repay : Bool} (there : n ≤ (s.die a).hold) :
    MovesUnits s (s.powerSend a b n repay) ∧ ((s.powerSend a b n repay).die a).hold = (s.die a).hold - n := by
  have less := (s.die a).hold_lt
  have dies : (s.powerSend a b n repay).dies = (s.bumpId.modDie a fun x => x.setHold (x.hold - n)).dies := rfl
  have own : ((s.powerSend a b n repay).die a).hold = (s.die a).hold - n := by
    have sent : (s.powerSend a b n repay).die a = (s.die a).setHold ((s.die a).hold - n) := by
      rw [State.die, dies]
      exact s.bumpId.modDie_die_same ..
    rw [sent, Die.setHold_hold]
    omega
  have others (e : DieId) (other : e ≠ a) : ((s.powerSend a b n repay).die e).hold = (s.die e).hold := by
    rw [State.die, dies]
    exact congrArg Die.hold (s.bumpId.modDie_die_other _ _ _ other)
  refine ⟨⟨?_, rfl⟩, own⟩
  have sum : ((List.finRange 8).map fun d => ((s.powerSend a b n repay).die d).hold).sum + n = ((List.finRange 8).map fun d => (s.die d).hold).sum :=
    sum_dies_less others (by rw [own]; omega)
  have list : (s.powerSend a b n repay).power =
      s.power ++ [{ id := s.nextId, src := a, dst := b, units := n, sent := s.cycle, repay := repay, received := false }] := rfl
  rw [powerUnits, list, powerUnits, ← sum, List.filter_append, List.map_append, List.sum_append]
  simp only [List.filter_cons, Bool.not_false, if_true, List.filter_nil, List.map_cons, List.map_nil, List.sum_cons, List.sum_nil]
  omega
theorem movesUnits_estimate (s : State) (d : DieId) : MovesUnits s (s.estimate d) :=
  (show MovesUnits s s.pick.2 from ⟨rfl, rfl⟩).trans (movesUnits_modDie fun _ => fld_setFld_other _ _ _ _ _ _ (by omega))
theorem movesUnits_lend (s : State) (a b : DieId) (ask : Nat) : MovesUnits s (s.lend a b ask) := by
  unfold State.lend
  dsimp only
  split
  · exact (movesUnits_powerSend (by omega)).1
  · exact .refl s
theorem movesUnits_repayLoans (d : DieId) (l : List (DieId × Nat)) (n : Nat) (s : State) (there : n ≤ (s.die d).hold) :
    MovesUnits s (s.repayLoans d n l) := by
  induction l generalizing n s with
  | nil => exact .refl s
  | cons x l ih =>
    rw [State.repayLoans]
    dsimp only
    split
    · exact .refl s
    · obtain ⟨sent, holds⟩ := movesUnits_powerSend (s := s) (a := d) (b := x.1) (n := min n x.2) (repay := true) (by omega)
      refine (sent.trans ?_).trans (ih _ _ ?_)
      · exact movesUnits_modDie fun _ => rfl
      · rw [State.modDie_die_same]
        refine Nat.le_trans ?_ (Nat.le_of_eq holds.symm)
        omega
theorem movesUnits_repay (s : State) (d : DieId) : MovesUnits s (s.repay d) := by
  unfold State.repay
  dsimp only
  split
  · exact movesUnits_repayLoans d _ _ s (by omega)
  · exact .refl s
theorem movesUnits_exchange (s : State) : MovesUnits s s.exchange := by
  unfold State.exchange
  refine .trans (b := (List.finRange 8).foldl State.estimate s) (.foldl movesUnits_estimate _ s) ?_
  generalize (List.finRange 8).foldl State.estimate s = a
  dsimp only
  refine MovesUnits.trans ?_ (MovesUnits.foldl movesUnits_repay _ _)
  generalize (List.flatMap _ _ : List (DieId × DieId × Nat)) = asks
  exact MovesUnits.foldl (step := fun s (a : DieId × DieId × Nat) => s.lend a.1 a.2.1 a.2.2) (fun s a => movesUnits_lend s a.1 a.2.1 a.2.2) asks a

/-! Messages (R426) -/

section
variable {s : State} {m : PowerMsg}
/-- A message that had not arrived adds its units to its die, and a grant is owed. -/
theorem powerApply_fresh (fresh : m.received = false) : s.powerApply m =
    { (s.modDie m.dst fun x => { x.setHold (x.hold + m.units) with loans := if m.repay then x.loans else x.loans ++ [(m.src, m.units)] }) with
      power := s.power.map fun y => if y.id = m.id then { y with received := true } else y } := by
  rw [State.powerApply, fresh, if_neg Bool.false_ne_true]
/-- Once a message has arrived, no message of its number awaits it. -/
theorem powerArrive_fresh (sound : Config.freePick s.free % 2 = 0) (fresh : m.received = false) : let s' := s.powerArrive m
    s'.dies = (s.modDie m.dst fun x => { x.setHold (x.hold + m.units) with loans := if m.repay then x.loans else x.loans ++ [(m.src, m.units)] }).dies ∧
      ∀ y ∈ s'.power, y.id = m.id → y.received = true := by
  have read : ¬s.pick.1 % 2 = 1 := by show ¬Config.freePick s.free % 2 = 1; omega
  dsimp only
  simp only [State.powerArrive, read, if_false, powerApply_fresh fresh]
  split
  · refine ⟨rfl, fun y here named => ?_⟩
    obtain ⟨z, -, rfl⟩ := List.mem_map.1 here
    by_cases own : z.id = m.id
    · rw [if_pos own]
    · rw [if_neg own] at named
      exact absurd named own
  · refine ⟨rfl, fun y here named => ?_⟩
    have left := (List.mem_filter.1 here).2
    rw [named] at left
    simp at left
end

theorem powerMoves : PowerMoves := by
  refine ⟨fun s => ⟨fun early => when_of_false early, fun due => ?_⟩, fun s k m found => ?_⟩
  · obtain ⟨units, frame⟩ := movesUnits_exchange s
    exact ⟨_, (exec_powerExchange s).trans (when_of_true due), units, (congrArg State.mem frame :), (congrArg State.elements frame :),
      (congrArg State.regions frame :)⟩
  · have named : m.id = k := by simpa using List.find?_some found
    have here := List.mem_of_find?_eq_some found
    refine ⟨fun away => ?_, fun arrives => ?_, fun due => ?_, fun early => ?_⟩
    · simp only [exec_powerMessageReceipt, execPowerMessageReceipt, found]
      exact when_of_false (beq_eq_false_iff_ne.2 away)
    · have run : exec (.powerMessageReceipt k) s = .next (s.powerArrive m) := by
        simp only [exec_powerMessageReceipt, execPowerMessageReceipt, found]
        exact when_of_true (beq_iff_eq.2 arrives)
      refine ⟨_, run, fun fails => if_pos fails, fun sound fresh => ?_⟩
      obtain ⟨dies, answered⟩ := powerArrive_fresh sound fresh
      have own : (s.powerArrive m).die m.dst = { (s.die m.dst).setHold ((s.die m.dst).hold + m.units) with
          loans := if m.repay then (s.die m.dst).loans else (s.die m.dst).loans ++ [(m.src, m.units)] } := by
        rw [State.die, dies]
        exact s.modDie_die_same ..
      refine ⟨?_, by rw [← named]; exact answered, ?_, fun d other => ?_⟩
      · rw [own]
        exact Die.setHold_hold ..
      · rw [own]
        cases m.repay <;> simp
      · rw [State.die, dies]
        exact s.modDie_die_other _ _ _ other
    · have run : exec (.powerResend k) s = .next { s with power := s.power.map fun y => if y.id = k then { y with sent := s.cycle } else y } := by
        simp only [exec_powerResend, execPowerResend, found]
        exact when_of_true (decide_eq_true due)
      exact ⟨_, run, List.mem_map.2 ⟨m, here, if_pos named⟩, List.length_map .., rfl⟩
    · simp only [exec_powerResend, execPowerResend, found]
      exact when_of_false (decide_eq_false (by omega))

/-- Settles O57: each change of device time is the one of its rule, and an exchange, a message and a resend move units without loss. -/
theorem timeAndPower : Obligations.TimeAndPower := ⟨deviceTime, powerMoves⟩

end Sys2Proof.Machine
end

section
/-! SUPPORT. Rollbacks as they begin (R366, R367, R383, R396): the region that a trigger takes, what stays of every region, and what a strike's
effect rests on. -/

namespace Sys2Proof.Machine

/-! The region that a rollback takes (R383) -/

/-- A region that no rollback has taken and that is not stopped. -/
structure Standing (g : Region) : Prop where
  stop : g.stop = false
  rollback : g.rollback = none
/-- A region that a rollback of a cycle has taken. -/
def BegunAt (c : Nat) (g : Region) : Prop := ∃ b, g.rollback = some b ∧ b.cycle = c ∧ b.restored = false
/-- What a strike's report, a cause or a rollback's beginning leaves of a region's freeze. -/
def SameFreeze (g g' : Region) : Prop := g'.freeze = g.freeze ∧ g'.latched = g.latched
theorem SameFreeze.trans {a b c : Region} (h : SameFreeze a b) (k : SameFreeze b c) : SameFreeze a c := ⟨k.1.trans h.1, k.2.trans h.2⟩

theorem Region.abandonSave_eq (g : Region) : g.abandonSave.rollback = g.rollback ∧ SameFreeze g g.abandonSave := by
  unfold Region.abandonSave
  split
  · obtain ⟨w, stamped⟩ := g.restamp_eq fun g => { g with prectl := setFld g.prectl 8 3 1 }
    rw [stamped]
    exact ⟨rfl, rfl, rfl⟩
  · exact ⟨rfl, rfl, rfl⟩

section
variable (s : State) (r : RegionId)
theorem State.foldl_abortTile_cycle (l : List Tile) : (l.foldl State.abortTile s).cycle = s.cycle := by
  refine State.foldl_part State.cycle (fun s t => ?_) l s
  unfold State.abortTile
  split
  · next a _ => exact (congrArg State.cycle (s.abort_frame t a) :)
  · rfl
theorem State.beginRollback_cycle (stop : Bool) : (s.beginRollback r stop).cycle = s.cycle := s.foldl_abortTile_cycle (s.rg r).tiles
theorem State.beginRollback_begun (stop : Bool) :
    BegunAt s.cycle ((s.beginRollback r stop).rg r) ∧ SameFreeze (s.rg r) ((s.beginRollback r stop).rg r) := by
  rw [State.beginRollback, State.modRg_rg_same, State.foldl_abortTile_rg]
  obtain ⟨rollback, freeze⟩ := Region.abandonSave_eq
    { s.rg r with
      rollback := some ⟨(List.foldl State.abortTile s (s.rg r).tiles).cycle, stop, false⟩, faulted := [],
      tidestat := if stop then setBit (s.rg r).tidestat 35 true else (s.rg r).tidestat,
      dcut := if fld (s.rg r).dcut 4 2 = 0 then (s.rg r).dcut else setBit (setFld (s.rg r).dcut 4 2 0) 6 true }
  exact ⟨⟨_, rollback, s.foldl_abortTile_cycle _, rfl⟩, freeze⟩
theorem State.replayOrStop_begun : BegunAt s.cycle ((s.replayOrStop r).rg r) ∧ SameFreeze (s.rg r) ((s.replayOrStop r).rg r) ∧
    (s.replayOrStop r).cycle = s.cycle := by
  unfold State.replayOrStop
  split
  · exact ⟨(s.beginRollback_begun r true).1, (s.beginRollback_begun r true).2, s.beginRollback_cycle r true⟩
  · split
    · obtain ⟨begun, freeze⟩ := (s.causeRg r 0 causeReplayLimit (s.rg r).ctide).beginRollback_begun r true
      obtain ⟨l, w, caused⟩ := s.causeRg_rg_eq r 0 causeReplayLimit (s.rg r).ctide r
      rw [State.causeRg_cycle] at begun
      exact ⟨begun, SameFreeze.trans (by rw [caused]; exact ⟨rfl, rfl⟩) freeze, by rw [State.beginRollback_cycle, State.causeRg_cycle]⟩
    · rw [State.modRg_rg_same]
      obtain ⟨⟨b, rollback, began, restored⟩, freeze, latched⟩ := s.beginRollback_begun r false
      have same (a : State) (h : Region → Region) : (a.modRg r h).cycle = a.cycle := rfl
      exact ⟨⟨b, rollback, began, restored⟩, ⟨freeze, latched⟩, by rw [same, State.beginRollback_cycle]⟩
/-- A rollback's step at a region keeps the cycle, the freeze, and a rollback that began in this cycle. -/
theorem State.rollbackOne_keeps : (s.rollbackOne r).cycle = s.cycle ∧ SameFreeze (s.rg r) ((s.rollbackOne r).rg r) ∧
    (BegunAt s.cycle (s.rg r) → BegunAt s.cycle ((s.rollbackOne r).rg r)) := by
  obtain ⟨begun, freeze, cycle⟩ := s.replayOrStop_begun r
  rcases s.rollbackOne_cases r with ⟨same, -⟩ | done
  · rw [same]
    exact ⟨rfl, ⟨rfl, rfl⟩, id⟩
  · rw [done]
    exact ⟨cycle, freeze, fun _ => begun⟩
theorem State.rollbackOne_begun (standing : Standing (s.rg r)) : BegunAt s.cycle ((s.rollbackOne r).rg r) := by
  rcases s.rollbackOne_cases r with ⟨-, stopped | began⟩ | done
  · rw [standing.stop] at stopped
    cases stopped
  · rw [standing.rollback] at began
    cases began
  · rw [done]
    exact (s.replayOrStop_begun r).1

/-- A rollback keeps the cycle and every region's freeze. -/
theorem State.rollback_keeps (rs : List RegionId) : (s.rollback rs).cycle = s.cycle ∧ SameFreeze (s.rg r) ((s.rollback rs).rg r) := by
  refine List.foldlRecOn (motive := fun x : State => x.cycle = s.cycle ∧ SameFreeze (s.rg r) (x.rg r)) (List.finRange 32) _ ⟨rfl, rfl, rfl⟩
    fun x ⟨cycle, freeze⟩ q _ => ?_
  split
  · refine ⟨(x.rollbackOne_keeps q).1.trans cycle, freeze.trans ?_⟩
    by_cases own : r = q
    · subst own
      exact (x.rollbackOne_keeps r).2.1
    · rw [State.rollbackOne_other _ own]
      exact ⟨rfl, rfl⟩
  · exact ⟨cycle, freeze⟩
variable {s r}
theorem mem_foldl_sins {x : Nat} (m l : List Nat) (h : x ∈ l ∨ x ∈ m) : x ∈ m.foldl sins l := by
  induction m generalizing l with
  | nil => exact h.resolve_right List.not_mem_nil
  | cons y m ih =>
    refine ih _ ?_
    rcases h with h | h
    · exact .inl ((mem_sins l y x).2 (.inr h))
    · exact (List.mem_cons.1 h).imp_left fun own => (mem_sins l y x).2 (.inl own)
/-- A rollback takes every region that its trigger names and that still stands. -/
theorem State.rollback_begun {rs : List RegionId} (named : r ∈ rs) (standing : Standing (s.rg r)) : BegunAt s.cycle ((s.rollback rs).rg r) := by
  have among : (s.claspClosure 32 ((rs.map (·.val)).foldl sins [])).contains r.val = true :=
    List.contains_iff_mem.2 (s.mem_claspClosure 32 _ (mem_foldl_sins _ _ (.inr (List.mem_map.2 ⟨r, named, rfl⟩))))
  have step (P : State → Prop) (own : ∀ x : State, P x → P (x.rollbackOne r)) (other : ∀ x y : State, y.cycle = x.cycle → y.rg r = x.rg r → P x → P y)
      (x : State) (q : RegionId) (h : P x) :
      P (if (s.claspClosure 32 ((rs.map (·.val)).foldl sins [])).contains q.val then x.rollbackOne q else x) := by
    split
    · by_cases same : r = q
      · subst same
        exact own x h
      · exact other x _ (x.rollbackOne_keeps q).1 (State.rollbackOne_other _ same) h
    · exact h
  have taken (x : State) (cycle : x.cycle = s.cycle) (h : BegunAt s.cycle (x.rg r)) : BegunAt s.cycle ((x.rollbackOne r).rg r) := by
    rw [← cycle] at h ⊢
    exact (x.rollbackOne_keeps r).2.2 h
  refine (foldl_makes (P := fun x : State => x.cycle = s.cycle ∧ (Standing (x.rg r) ∨ BegunAt s.cycle (x.rg r)))
    (Q := fun x : State => x.cycle = s.cycle ∧ BegunAt s.cycle (x.rg r)) (x := r) ?_ ?_ ?_ (List.finRange 32) s
    (.inr ⟨List.mem_finRange r, rfl, .inl standing⟩)).2
  · refine step _ (fun x ⟨cycle, h⟩ => ⟨(x.rollbackOne_keeps r).1.trans cycle, .inr ?_⟩) fun x y cycle same h => by rw [cycle, same]; exact h
    rcases h with h | h
    · rw [← cycle]
      exact x.rollbackOne_begun r h
    · exact taken x cycle h
  · exact step _ (fun x ⟨cycle, h⟩ => ⟨(x.rollbackOne_keeps r).1.trans cycle, taken x cycle h⟩) fun x y cycle same h => by rw [cycle, same]; exact h
  · intro x ⟨cycle, h⟩
    rw [if_pos (by exact among)]
    refine ⟨(x.rollbackOne_keeps r).1.trans cycle, ?_⟩
    rcases h with h | h
    · rw [← cycle]
      exact x.rollbackOne_begun r h
    · exact taken x cycle h
end

/-! What a strike's effect rests on (R367) -/

section
variable {s s' : State} (ground : ∀ q, (s'.rg q).geom = (s.rg q).geom ∧ (s'.rg q).new_ = (s.rg q).new_ ∧ (s'.rg q).ing = (s.rg q).ing)
  (switches : s'.switches = s.switches) (stored : ∀ d, (s'.die d).bw = (s.die d).bw) (modul : s'.modul = s.modul)
include ground
theorem State.regionOf_ground (t : Tile) : s'.regionOf t = s.regionOf t :=
  State.regionOf_congr (fun q => ⟨(ground q).1, (ground q).2.1⟩) t
include switches
theorem State.upstream_ground (n : Nat) (t : Tile) (src : Nat) : s'.upstream n t src = s.upstream n t src := by
  induction n generalizing t src with
  | zero => rfl
  | succ n ih =>
    have region := State.regionOf_ground ground
    have sw : s'.sw = s.sw := by funext t; rw [State.sw, switches, State.sw]
    simp only [State.upstream, region, sw, ih]
theorem State.fedThrough_ground (r : RegionId) (h : Tile × Nat → Bool) : s'.fedThrough r h = s.fedThrough r h := by
  have feeds (p : Nat) : s'.siteFeeds r p = s.siteFeeds r p := by
    rw [State.siteFeeds, State.siteFeeds, Region.ingOf, (ground r).2.2, State.upstream_ground ground switches, Region.ingOf]
  simp only [State.fedThrough, (ground r).2.2, feeds]
include stored modul
/-- The effect of a report rests on the regions' rectangles and sites, the routes, the breakwaters and the hidden die. -/
theorem State.strikeEffect_ground (die : Option DieId) (zone : Nat) (r : RegionId) : s'.strikeEffect die zone r = s.strikeEffect die zone r := by
  have region : s'.regionOf = s.regionOf := funext (State.regionOf_ground ground)
  have sw : s'.sw = s.sw := by funext t; rw [State.sw, switches, State.sw]
  obtain ⟨geom, new_, ing⟩ := ground r
  have tiles : (s'.rg r).tiles = (s.rg r).tiles := by rw [Region.tiles, geom, new_, Region.tiles]
  have has : (s'.rg r).has = (s.rg r).has := by funext t; rw [Region.has, geom, new_, Region.has]
  have fed := State.fedThrough_ground ground switches r
  have hidden : s'.throughHidden = s.throughHidden := by funext x; rw [State.throughHidden, modul, State.throughHidden]
  have site : s'.siteThroughHidden r = s.siteThroughHidden r := by simp only [State.siteThroughHidden, modul, ing]
  have through : s'.regionThroughHidden r = s.regionThroughHidden r := by
    simp only [State.regionThroughHidden, tiles, hidden, has, sw]
  have valid : (s'.rg r).valid = (s.rg r).valid := by rw [Region.valid, geom, Region.valid]
  simp only [State.strikeEffect, valid, fed, region, tiles, stored, hidden, site, through]
end

end Sys2Proof.Machine
end

section
/-! SUPPORT. Freezes, their release, and reads of the notice FIFOs (R365, R396, R447). -/

namespace Sys2Proof.Machine

theorem exec_freezeStop (r : RegionId) (s : State) : exec (.freezeStop r) s = execFreezeStop r s := rfl
theorem exec_freezeRelease (r : RegionId) (s : State) : exec (.freezeRelease r) s = when_ s ((s.rg r).freeze.isSome) (s.release r) := rfl
theorem exec_noticeRead (fifo : NoticeFifo) (s : State) : exec (.noticeRead fifo) s = .next (s.takeNotice fifo) := rfl

/-! Freezes (R396, R447) -/

section
variable (s : State) (r : RegionId)
/-- The state in which a region is no longer frozen. -/
def State.thawed : State := s.modRg r fun g => { g with freeze := none, latched := [], dtrig := setBit g.dtrig 28 false }
theorem thawed_rg : (s.thawed r).rg r = { s.rg r with freeze := none, latched := [], dtrig := setBit (s.rg r).dtrig 28 false } := s.modRg_rg_same ..
theorem thawed_fields (q : RegionId) : ((s.thawed r).rg q).geom = (s.rg q).geom ∧ ((s.thawed r).rg q).new_ = (s.rg q).new_ ∧
    ((s.thawed r).rg q).ing = (s.rg q).ing := by
  by_cases own : q = r
  · rw [own, thawed_rg]
    exact ⟨rfl, rfl, rfl⟩
  · rw [State.thawed, State.modRg_rg_other _ _ _ _ own]
    exact ⟨rfl, rfl, rfl⟩
/-- A latched report that rolls its region back, once it acts. -/
def State.reported (x : Option DieId × Nat) : State := (s.thawed r).causeRg r 0 (strikeCode x.1) x.2
theorem reported_rg (x : Option DieId × Nat) : ∃ l w, (s.reported r x).rg r = { (s.thawed r).rg r with notices := l, nstat := w } :=
  State.causeRg_rg_eq ..
theorem reported_cycle (x : Option DieId × Nat) : (s.reported r x).cycle = s.cycle := State.causeRg_cycle ..
theorem causeRg_bw (a : State) (q : RegionId) (c d : Nat) (e : DieId) : ((a.causeRg q 0 c d).die e).bw = (a.die e).bw :=
  (congrArg Die.bw (State.notify_die a (.region q) _ e) :)
/-- The report's effect is the one that it had when it was latched. -/
theorem reported_effect (x : Option DieId × Nat) (die : Option DieId) (zone : Nat) :
    (s.reported r x).strikeEffect die zone r = s.strikeEffect die zone r := by
  refine State.strikeEffect_ground (fun q => ?_) ?_ (fun d => ?_) ?_ die zone r
  · obtain ⟨geom, new_, ing⟩ := thawed_fields s r q
    obtain ⟨l, w, caused⟩ := (s.thawed r).causeRg_rg_eq r 0 (strikeCode x.1) x.2 q
    rw [State.reported, caused]
    exact ⟨geom, new_, ing⟩
  · exact (congrArg State.switches ((s.thawed r).causeRg_frame r 0 (strikeCode x.1) x.2) :)
  · rw [State.reported, causeRg_bw]
    rfl
  · exact (congrArg State.modul ((s.thawed r).causeRg_frame r 0 (strikeCode x.1) x.2) :)
variable {s r}
theorem release_rolls {x : Option DieId × Nat} (latched : (s.rg r).latched = [x]) (effect : s.strikeEffect x.1 x.2 r = some true) :
    s.release r = (s.reported r x).rollback [r] := by
  have rolls : ¬(s.reported r x).strikeEffect x.1 x.2 r = some false := by rw [reported_effect, effect]; decide
  rw [State.release, latched]
  exact if_neg rolls
end

/-! Notices (R365) -/

/-- The fields of the word that a read of a notice FIFO returns. -/
theorem noticeWord_fields (n : Notice) : fld n.word 0 9 = n.code % 512 ∧ bit n.word 9 = true ∧ fld n.word 10 2 = n.facet.val ∧ fld n.word 12 7 = n.x % 128 ∧
    fld n.word 19 5 = n.y % 32 ∧ fld n.word 24 6 = n.region % 64 ∧ bit n.word 30 = n.async ∧ bit n.word 31 = false ∧
    fld n.word 32 32 = n.detail.toNat := by
  have facet := n.facet.isLt
  have async := n.async.toNat_lt
  have detail := n.detail.isLt
  refine ⟨?_, bit_of_fld ?_, ?_, ?_, ?_, ?_, bit_of_fld ?_, bit_of_fld ?_, ?_⟩
  all_goals
    simp only [Notice.word, fld_ofNat, Nat.reduceAdd, Nat.reduceLeDiff, Bool.toNat_true, Bool.toNat_false]
    omega

section
variable {s : State} {n : Notice} {l : List Notice}
theorem takeNotice_region {r : RegionId} (first : (s.rg r).notices = n :: l) : s.takeNotice (.region r) =
    { s.modRg r (fun g => { g with notices := l, nstat := setFld g.nstat 0 7 l.length }) with answer := n.word } := by
  simp only [State.takeNotice, first]
theorem takeNotice_die {d : DieId} (first : (s.die d).notices = n :: l) : s.takeNotice (.die d) =
    { s.modDie d (fun x => { x with notices := l, nstat := setFld x.nstat 0 7 l.length }) with answer := n.word } := by
  simp only [State.takeNotice, first]
theorem answered_rg (a : State) (w : Word) (q : RegionId) : ({ a with answer := w } : State).rg q = a.rg q := rfl
theorem answered_die (a : State) (w : Word) (d : DieId) : ({ a with answer := w } : State).die d = a.die d := rfl
end

/-- Settles O56: a freeze stops the clocks, its release lets a latched report act, and a read takes the oldest notice. -/
theorem freezesAndNotices : Obligations.FreezesAndNotices := by
  refine ⟨fun s r => ⟨fun none_ => ⟨?_, ?_⟩, fun c began => ⟨fun early => ?_, fun due => ?_, fun bare => ?_, fun x latched stop rollback effect => ?_⟩⟩,
    fun s n l => ⟨fun r first => ?_, fun d first => ?_⟩, fun s r empty => ?_, fun s d empty => ?_⟩
  · rw [exec_freezeStop, execFreezeStop, none_]
  · rw [exec_freezeRelease, none_]
    rfl
  · rw [exec_freezeStop, execFreezeStop, began]
    exact when_of_false (decide_eq_false (by omega))
  · have run : exec (.freezeStop r) s = .next (s.modRg r fun g => { g with dtrig := setBit g.dtrig 28 true }) := by
      rw [exec_freezeStop, execFreezeStop, began]
      exact when_of_true (decide_eq_true due)
    refine ⟨_, run, s.modRg_only r _, ?_, fun i other => ?_, ?_⟩ <;> rw [State.modRg_rg_same]
    · exact bit_setBit_same _ _ _ (by decide)
    · exact bit_setBit_other _ _ _ _ other
  · have run : exec (.freezeRelease r) s = .next (s.thawed r) := by
      rw [exec_freezeRelease, began, State.release, bare]
      rfl
    refine ⟨_, run, s.modRg_only r _, ?_, ?_, ?_⟩ <;> rw [thawed_rg]
    · exact bit_setBit_same _ _ _ (by decide)
    · rw [← bare]
  · have run : exec (.freezeRelease r) s = .next ((s.reported r x).rollback [r]) := by
      rw [exec_freezeRelease, began, release_rolls latched effect]
      rfl
    obtain ⟨m, w, same⟩ := reported_rg s r x
    rw [thawed_rg] at same
    have standing : Standing ((s.reported r x).rg r) := ⟨by rw [same]; exact stop, by rw [same]; exact rollback⟩
    obtain ⟨b, begun, cycle, -⟩ := State.rollback_begun (s := s.reported r x) (List.mem_singleton.2 rfl) standing
    obtain ⟨-, freeze, left⟩ := (s.reported r x).rollback_keeps r [r]
    exact ⟨_, b, run, by rw [freeze, same], by rw [left, same], begun, cycle.trans (reported_cycle s r x)⟩
  · have run := exec_noticeRead (.region r) s
    rw [takeNotice_region first] at run
    refine ⟨_, run, noticeWord_fields n, rfl, fun q other => ?_, ?_, ?_⟩
    · rw [answered_rg, State.modRg_rg_other _ _ _ _ other]
    · rw [answered_rg, State.modRg_rg_same]
    · rw [answered_rg, State.modRg_rg_same]
      exact fld_setFld_same _ _ _ _ (by decide)
  · have run := exec_noticeRead (.die d) s
    rw [takeNotice_die first] at run
    refine ⟨_, run, noticeWord_fields n, rfl, fun e other => ?_, ?_⟩
    · rw [answered_die, State.modDie_die_other _ _ _ _ other]
    · rw [answered_die, State.modDie_die_same]
  · rw [exec_noticeRead, State.takeNotice, empty]
  · rw [exec_noticeRead, State.takeNotice, empty]

end Sys2Proof.Machine
end

section
/-! SUPPORT. Step 2 of a rollback (R383): what its parts leave of regions, routes and snapshots, and the facets that it restores. -/

namespace Sys2Proof.Machine

/-! What a facet of an element keeps -/

/-- The registers, the snapshots and the triggers of a facet's handlers stay. -/
structure FacKept (x x' : FacetEl) : Prop where
  bank : x'.bank = x.bank
  rmode : x'.rmode = x.rmode
  masks : x'.masks = x.masks
  reach : x'.reach = x.reach
  snaps : x'.snaps = x.snaps
  trig : ∀ h, (x'.handlers.get h).trig = (x.handlers.get h).trig
theorem FacKept.refl (x : FacetEl) : FacKept x x := ⟨rfl, rfl, rfl, rfl, rfl, fun _ => rfl⟩
theorem FacKept.trans {a b c : FacetEl} (h : FacKept a b) (k : FacKept b c) : FacKept a c :=
  ⟨k.bank.trans h.bank, k.rmode.trans h.rmode, k.masks.trans h.masks, k.reach.trans h.reach, k.snaps.trans h.snaps,
    fun x => (k.trig x).trans (h.trig x)⟩
theorem setMoored_kept (x : FacetEl) (h : Fin 64) (b : Bool) : FacKept x (x.setMoored h b) := by
  refine ⟨rfl, rfl, rfl, rfl, rfl, fun i => ?_⟩
  by_cases own : i = h
  · rw [own, FacetEl.setMoored, vget_vmod_same]
    rfl
  · rw [FacetEl.setMoored, vget_vmod_other _ _ _ _ own]
theorem modFac_kept {e : Element} {f : Facet} {h : FacetEl → FacetEl} (kept : ∀ x, FacKept x (h x)) (g : Facet) :
    FacKept (e.fac g) ((e.modFac f h).fac g) := by
  by_cases own : g = f
  · rw [own, Element.modFac_fac_same]
    exact kept _
  · rw [Element.modFac_fac_other _ _ _ _ own]
    exact .refl _
theorem moor_kept (e : Element) (m : Moor) (g : Facet) : FacKept (e.fac g) ((e.moor m).fac g) :=
  modFac_kept (e := { e with moors := _ }) (fun x => setMoored_kept x _ _) g
theorem foldl_moor_kept (l : List Moor) (e : Element) (g : Facet) : FacKept (e.fac g) ((l.foldl Element.moor e).fac g) := by
  induction l generalizing e with
  | nil => exact .refl _
  | cons m l ih => exact (moor_kept e m g).trans (ih _)

/-! What a step keeps of the machine -/

/-- A region but for debug matches, notices and USED of its mooring list. -/
def RegionKept (g g' : Region) : Prop := { g' with matches_ := g.matches_, notices := g.notices, nstat := g.nstat, mlen := g.mlen } = g
theorem RegionKept.trans {a b c : Region} (h : RegionKept a b) (k : RegionKept b c) : RegionKept a c := by
  unfold RegionKept at *
  rw [← h, ← k]
/-- Regions, routes and, in the facets of a set, what the facet of an element keeps. -/
structure Keeps (F : Facet → Prop) (s s' : State) : Prop where
  regions : ∀ r, RegionKept (s.rg r) (s'.rg r)
  routes : ∀ t, (s'.sw t).routes = (s.sw t).routes
  fac : ∀ t f, F f → FacKept ((s.el t).fac f) ((s'.el t).fac f)

section
variable {F : Facet → Prop} {s s' : State}
theorem el_of_elements (h : s'.elements = s.elements) (t : Tile) : s'.el t = s.el t := by rw [State.el, h, State.el]
theorem sw_of_switches (h : s'.switches = s.switches) (t : Tile) : s'.sw t = s.sw t := by rw [State.sw, h, State.sw]
theorem rg_of_regions (h : s'.regions = s.regions) (r : RegionId) : s'.rg r = s.rg r := by rw [State.rg, h, State.rg]
theorem Keeps.of_same (regions : s'.regions = s.regions) (elements : s'.elements = s.elements) (switches : s'.switches = s.switches) :
    Keeps F s s' :=
  ⟨fun r => by rw [rg_of_regions regions]; rfl, fun t => by rw [sw_of_switches switches], fun t f _ => by rw [el_of_elements elements]; exact .refl _⟩
theorem Keeps.refl (s : State) : Keeps F s s := .of_same rfl rfl rfl
theorem Keeps.trans {a b c : State} (h : Keeps F a b) (k : Keeps F b c) : Keeps F a c :=
  ⟨fun r => (h.regions r).trans (k.regions r), fun t => (k.routes t).trans (h.routes t), fun t f hf => (h.fac t f hf).trans (k.fac t f hf)⟩
/-- A change of something else comes first. -/
theorem Keeps.after {a b c : State} (k : Keeps F b c) (regions : b.regions = a.regions) (elements : b.elements = a.elements)
    (switches : b.switches = a.switches) : Keeps F a c := (Keeps.of_same regions elements switches).trans k
theorem Keeps.foldl {α : Type} {step : State → α → State} (each : ∀ s x, Keeps F s (step s x)) (l : List α) (s : State) :
    Keeps F s (l.foldl step s) :=
  List.foldlRecOn (motive := Keeps F s) l step (.refl s) fun x h y _ => h.trans (each x y)
theorem Keeps.foldr {α : Type} {step : α → State → State} (each : ∀ x s, Keeps F s (step x s)) (l : List α) (s : State) :
    Keeps F s (l.foldr step s) := by
  induction l with
  | nil => exact .refl s
  | cons x l ih => exact ih.trans (each x _)
theorem Keeps.ite {a b : State} {c : Prop} [Decidable c] (ha : Keeps F s a) (hb : Keeps F s b) : Keeps F s (if c then a else b) := by
  split
  · exact ha
  · exact hb
/-- A change of elements that keeps each facet. -/
theorem Keeps.modEl {t : Tile} {h : Element → Element} (kept : ∀ e f, F f → FacKept (e.fac f) ((h e).fac f)) : Keeps F s (s.modEl t h) := by
  refine ⟨fun _ => rfl, fun _ => rfl, fun u f hf => ?_⟩
  by_cases own : u.key = t.key
  · rw [State.el_congr _ own, State.el_congr _ own, State.modEl_el_same]
    exact kept _ f hf
  · rw [State.modEl_el_other _ _ _ _ own]
    exact .refl _
theorem Keeps.mono {G : Facet → Prop} (h : Keeps F s s') (sub : ∀ f, G f → F f) : Keeps G s s' :=
  ⟨h.regions, h.routes, fun t f hf => h.fac t f (sub f hf)⟩
/-- A compute tile is a node of a facet by its routes and its handlers. -/
theorem Keeps.nodes (h : Keeps F s s') {r : RegionId} {f : Facet} (hf : F f) {t : Tile} (ct : t.isCT = true) (node : t ∈ s.nodes r f) :
    t ∈ s'.nodes r f := by
  have geom : (s'.rg r).geom = (s.rg r).geom := (congrArg Region.geom (h.regions r) :)
  have new_ : (s'.rg r).new_ = (s.rg r).new_ := (congrArg Region.new_ (h.regions r) :)
  obtain ⟨tile, is⟩ := List.mem_filter.1 node
  refine List.mem_filter.2 ⟨by rw [Region.tiles, geom, new_, ← Region.tiles]; exact tile, ?_⟩
  have sel : (s'.sw t).sel = (s.sw t).sel := by
    funext g e
    rw [Switchbox.sel, Switchbox.entry, h.routes, Switchbox.sel, Switchbox.entry]
  have linked (g : Facet) : (s'.sw t).linkedIn g = (s.sw t).linkedIn g ∧ (s'.sw t).linkedOut g = (s.sw t).linkedOut g := by
    rw [Switchbox.linkedIn, Switchbox.linkedOut, Switchbox.linkedIn, Switchbox.linkedOut, sel]
    simp only [Switchbox.users, sel, and_self]
  rw [State.isNode, ct, if_pos rfl] at is
  rw [State.isNode, (linked f).1, (linked f).2, ct, if_pos rfl]
  simp only [(h.fac t f hf).trig]
  exact is
end

/-! The steps before and after the snapshots are restored -/

section
variable {F : Facet → Prop} (s : State)
theorem undefer_keeps (q : Req) : Keeps F s (s.undefer q) := by
  have switches : (s.undefer q).switches = s.switches := (congrArg State.switches (s.undefer_frame q) :)
  have elements : (s.undefer q).elements = s.elements := (congrArg State.elements (s.undefer_frame q) :)
  refine ⟨fun r => ?_, fun t => by rw [sw_of_switches switches], fun t f _ => by rw [el_of_elements elements]; exact .refl _⟩
  · have mlen := s.undefer_rg q r
    unfold RegionKept
    rw [← mlen]
theorem OnlyWatch.sameParts {s a : State} (h : OnlyWatch s a) : a.elements = s.elements ∧ a.switches = s.switches :=
  ⟨(congrArg State.elements h :), (congrArg State.switches h :)⟩
theorem lineRelease_parts (t : Tile) (w : Nat) : (s.lineRelease t w).elements = s.elements ∧ (s.lineRelease t w).switches = s.switches := by
  refine List.foldlRecOn (motive := fun x : State => x.elements = s.elements ∧ x.switches = s.switches) (List.finRange 4) _ ⟨rfl, rfl⟩ fun x h f _ => ?_
  split
  · dsimp only
    split
    · exact h
    · exact h
  · exact h
theorem dbgHbmTag_watch (r : RegionId) (f : Facet) (pa : Nat) (b : Bool) : OnlyWatch s (s.dbgHbmTag r f pa b) := by
  refine List.foldlRecOn (motive := OnlyWatch s) (List.finRange 8) _ (OnlyWatch.refl s) fun x h k _ => ?_
  dsimp only
  split
  · exact h.trans (State.dbgMatch_watch ..)
  · exact h
theorem setTag_parts (word : Nat) (b : Bool) (f : Facet) (r : Option RegionId) :
    (s.setTag word b f r).elements = s.elements ∧ (s.setTag word b f r).switches = s.switches := by
  unfold State.setTag
  split
  · exact ⟨rfl, rfl⟩
  · extract_lets u t w v
    have parts : u.elements = s.elements ∧ u.switches = s.switches := ⟨rfl, rfl⟩
    have seen : v.elements = u.elements ∧ v.switches = u.switches := OnlyWatch.sameParts (State.dbgTag_watch ..)
    clear_value v u
    obtain ⟨elements, switches⟩ := lineRelease_parts v t w
    split
    · split
      · exact ⟨seen.1.trans parts.1, seen.2.trans parts.2⟩
      · exact ⟨elements.trans (seen.1.trans parts.1), switches.trans (seen.2.trans parts.2)⟩
    · split
      · next r =>
        obtain ⟨elements, switches⟩ := OnlyWatch.sameParts (dbgHbmTag_watch u r f (8 * word) b)
        exact ⟨elements.trans parts.1, switches.trans parts.2⟩
      · exact parts
theorem setTag_keeps (word : Nat) (b : Bool) (f : Facet) (r : Option RegionId) : Keeps F s (s.setTag word b f r) := by
  obtain ⟨elements, switches⟩ := setTag_parts s word b f r
  refine ⟨fun q => ?_, fun t => by rw [sw_of_switches switches], fun t g _ => by rw [el_of_elements elements]; exact .refl _⟩
  have stay := (s.setTag_stay word b f r).rg q
  unfold Region.sameButDebug at stay
  unfold RegionKept
  rw [← stay]
theorem takeEntries_keeps (h : BwEntry → Bool) : Keeps F s (s.takeEntries h).2 := .of_same rfl rfl rfl
theorem restoreShadows_keeps (r : RegionId) : Keeps F s (s.restoreShadows r) := by
  unfold State.restoreShadows
  dsimp only
  refine .trans (.foldr (fun w s => ?_) _ s) (takeEntries_keeps ..)
  split
  · generalize Memory.poisonBlock _ _ _ _ = m
    exact .after (b := { s with mem := m }) (setTag_keeps ..) rfl rfl rfl
  · exact .refl s
theorem setHops_keeps (t : Tile) (l : Tab Hop) : Keeps F s (s.setSw t { s.sw t with hops := l }) := by
  refine ⟨fun _ => rfl, fun u => ?_, fun _ _ _ => .refl _⟩
  by_cases own : u.key = t.key
  · rw [State.sw, State.setSw, own, tget_tset_same, State.sw, State.sw, own]
  · rw [State.sw, State.setSw, tget_tset_other _ _ _ _ _ own, State.sw]
theorem clearTokens_keeps (t : Tile) (f : Facet) : Keeps F s (s.clearTokens t f) := by
  unfold State.clearTokens
  extract_lets keep b u out
  have first : Keeps F s u := .ite (.refl s) (setHops_keeps ..)
  clear_value u
  refine first.trans (.ite (.ite (.modEl fun e g _ => ?_) (.refl u)) (.ite (.of_same rfl rfl rfl) (.refl u)))
  exact modFac_kept (e := e) (f := f) (h := fun x => { x with inq := Vector.replicate 16 [], outbound := [], held := false }) (fun x => ⟨rfl, rfl, rfl, rfl, rfl, fun _ => rfl⟩) g
theorem undoTile_keeps (t : Tile) (n : Nat) : Keeps F s (s.undoTile t n) := by
  unfold State.undoTile
  extract_lets log back keep u
  have first : Keeps F s u := .of_same rfl rfl rfl
  clear_value u
  exact .ite (.refl s) (first.trans (.ite (.modEl fun e f _ => .refl _) (.of_same rfl rfl rfl)))
theorem unmoorWatch_keeps (t : Tile) (w : Nat) : Keeps F s (s.unmoorWatch t w) := by
  unfold State.unmoorWatch
  extract_lets hit u
  have first : Keeps F s u := .modEl fun e f _ => .refl _
  clear_value u
  exact first.trans (.foldl (fun s m => .modEl fun e f _ => modFac_kept (fun x => setMoored_kept x _ _) f) _ u)
theorem unmoorLost_keeps (t : Tile) : Keeps F s (s.unmoorLost t) :=
  .foldl (fun s w => .ite (.refl s) (unmoorWatch_keeps s t w)) _ s
end

theorem restoreHops_keeps {F : Facet → Prop} (s : State) (r : RegionId) (n : Nat) : Keeps F s (s.restoreHops r n) :=
  .foldl (fun s _ => .ite (setHops_keeps s ..) (.refl s)) _ s

/-! Snapshots restored (R383, R384) -/

/-- A facet that has returned to a snapshot. -/
structure RestoredTo (y : ElSnap) (x : FacetEl) : Prop where
  bank : x.bank = y.bank
  rmode : x.rmode = y.rmode
  masks : x.masks = y.masks
  reach : x.reach = y.tide
  snaps : x.snaps = [y]
theorem RestoredTo.kept {y : ElSnap} {x x' : FacetEl} (h : RestoredTo y x) (k : FacKept x x') : RestoredTo y x' :=
  ⟨k.bank.trans h.bank, k.rmode.trans h.rmode, k.masks.trans h.masks, k.reach.trans h.reach, k.snaps.trans h.snaps⟩

section
variable {s : State} {t : Tile} {f : Facet} {n : Nat} {y : ElSnap}
/-- Of a facet that has returned to its snapshot, the same one is found again. -/
theorem RestoredTo.found {x : FacetEl} (h : RestoredTo y x) (tide : y.tide = n) : x.snaps.find? (fun z => z.tide == n) = some y := by
  rw [h.snaps]
  exact List.find?_cons_of_pos (beq_iff_eq.2 tide)
/-- An element's facet returns to the snapshot of the tide. -/
theorem restoreNode_restores (ct : t.isCT = true) (found : ((s.el t).fac f).snaps.find? (fun z => z.tide == n) = some y) :
    RestoredTo y (((s.restoreNode t f n).el t).fac f) := by
  simp only [State.restoreNode, ct, if_true, found, State.modEl_el_same]
  refine RestoredTo.kept ?_ (foldl_moor_kept ..)
  have own : ({ (s.el t).modFac f (·.restored y) with moors := (s.el t).moors.filter fun m => m.facet != f } : Element).fac f =
      ((s.el t).fac f).restored y := Element.modFac_fac_same ..
  rw [own]
  exact ⟨rfl, rfl, rfl, rfl, rfl⟩
/-- The other facets stay. -/
theorem restoreNode_keeps (s : State) (t : Tile) {f g : Facet} (other : g ≠ f) (n : Nat) : Keeps (· = g) s (s.restoreNode t f n) := by
  unfold State.restoreNode
  split
  · split
    · refine .modEl fun e h hg => FacKept.trans ?_ (foldl_moor_kept ..)
      subst hg
      have off (y : ElSnap) : ({ e.modFac f (·.restored y) with moors := e.moors.filter fun m => m.facet != f } : Element).fac h = e.fac h :=
        Element.modFac_fac_other _ _ _ _ other
      rw [off]
      exact .refl _
    · exact .refl s
  · split
    · exact .of_same rfl rfl rfl
    · exact .refl s
/-- The element of another tile, or a memory tile, returns to its snapshot without it, or is the same element. -/
theorem restoreNode_fac (u : Tile) (found : ((s.el t).fac f).snaps.find? (fun z => z.tide == n) = some y) :
    ((s.restoreNode u f n).el t).fac f = (s.el t).fac f ∨ RestoredTo y (((s.restoreNode u f n).el t).fac f) := by
  by_cases ct : u.isCT = true
  · by_cases own : t.key = u.key
    · rw [State.el_congr _ own] at found ⊢
      rw [State.el_congr _ own]
      exact .inr (restoreNode_restores ct found)
    · refine .inl ?_
      unfold State.restoreNode
      rw [if_pos ct]
      split
      · rw [State.modEl_el_other _ _ _ _ own]
      · rfl
  · refine .inl ?_
    unfold State.restoreNode
    rw [if_neg ct]
    split <;> rfl
/-- Among the nodes of its facet, an element's facet returns to its snapshot. -/
theorem foldl_restoreNode (ct : t.isCT = true) {l : List Tile} (named : t ∈ l) (found : ((s.el t).fac f).snaps.find? (fun z => z.tide == n) = some y) :
    RestoredTo y (((l.foldl (fun s t => s.restoreNode t f n) s).el t).fac f) := by
  have tide : y.tide = n := by simpa using List.find?_some found
  refine foldl_makes (P := fun s : State => ((s.el t).fac f).snaps.find? (fun z => z.tide == n) = some y)
    (Q := fun s : State => RestoredTo y ((s.el t).fac f)) (x := t) (fun s u found => ?_) (fun s u done => ?_)
    (fun s found => restoreNode_restores ct found) l s (.inr ⟨named, found⟩)
  · rcases restoreNode_fac u found with same | done
    · rw [same]
      exact found
    · exact done.found tide
  · rcases restoreNode_fac u (done.found tide) with same | done
    · rw [same]
      exact done
    · exact done
/-- Every node of the region returns, in every facet, to the snapshot of the tide. -/
theorem restoreNodes_restores {r : RegionId} (ct : t.isCT = true) (node : t ∈ s.nodes r f)
    (found : ((s.el t).fac f).snaps.find? (fun z => z.tide == n) = some y) :
    RestoredTo y ((((List.finRange 4).foldl (fun s f => (s.nodes r f).foldl (fun s t => s.restoreNode t f n) s) s).el t).fac f) := by
  have tide : y.tide = n := by simpa using List.find?_some found
  have other (u : State) {g : Facet} (off : f ≠ g) : Keeps (· = f) u ((u.nodes r g).foldl (fun s t => s.restoreNode t g n) u) :=
    .foldl (fun s t => restoreNode_keeps s t off n) _ u
  have own (u : State) (done : RestoredTo y ((u.el t).fac f)) : RestoredTo y ((((u.nodes r f).foldl (fun s t => s.restoreNode t f n) u).el t).fac f) := by
    refine List.foldlRecOn (motive := fun x : State => RestoredTo y ((x.el t).fac f)) (u.nodes r f) _ done fun x done v _ => ?_
    rcases restoreNode_fac v (done.found tide) with same | done'
    · rw [same]
      exact done
    · exact done'
  have keepsQ (u : State) (g : Facet) (done : RestoredTo y ((u.el t).fac f)) :
      RestoredTo y ((((u.nodes r g).foldl (fun s t => s.restoreNode t g n) u).el t).fac f) := by
    by_cases off : f = g
    · subst off
      exact own u done
    · exact done.kept ((other u off).fac t f rfl)
  refine foldl_makes
    (P := fun u : State => t ∈ u.nodes r f ∧ ((u.el t).fac f).snaps.find? (fun z => z.tide == n) = some y ∨ RestoredTo y ((u.el t).fac f))
    (Q := fun u : State => RestoredTo y ((u.el t).fac f)) (x := f) (fun u g h => ?_) keepsQ (fun u h => ?_) (List.finRange 4) s
    (.inr ⟨List.mem_finRange f, .inl ⟨node, found⟩⟩)
  · rcases h with ⟨node, found⟩ | done
    · by_cases off : f = g
      · subst off
        exact .inr (foldl_restoreNode ct node found)
      · exact .inl ⟨(other u off).nodes rfl ct node, by rw [((other u off).fac t f rfl).snaps]; exact found⟩
    · exact .inr (keepsQ u g done)
  · rcases h with ⟨node, found⟩ | done
    · exact foldl_restoreNode ct node found
    · exact own u done
end

/-! The restored region (R383) -/

/-- What step 2 of a rollback leaves of its region. -/
structure RegionRestored (g g' : Region) : Prop where
  rollback : g'.rollback = g.rollback.map fun x => { x with restored := true }
  replay : g'.replay = []
  open_ : ∀ x ∈ g'.reaches, x.closed = none
  ctide : g'.ctide = g.ctide
theorem RegionKept.restored {a b c : Region} (h : RegionKept a b) (k : RegionRestored b c) : RegionRestored a c :=
  ⟨k.rollback.trans (by rw [show b.rollback = a.rollback from (congrArg Region.rollback h :)]), k.replay, k.open_,
    k.ctide.trans (by rw [Region.ctide, show b.tidestat = a.tidestat from (congrArg Region.tidestat h :), Region.ctide])⟩

theorem restoreRegion_spec (s : State) (r : RegionId) : RegionRestored (s.rg r) ((s.restoreRegion r).rg r) ∧
    ∀ f t y, (s.rg r).tides = true → t ∈ s.nodes r f → t.isCT = true →
      ((s.el t).fac f).snaps.find? (fun z => z.tide == (s.rg r).ctide) = some y → RestoredTo y (((s.restoreRegion r).el t).fac f) := by
  unfold State.restoreRegion
  extract_lets g n gone taken dropped free shadowed emptied live cleared buses undone back woken
  have first : Keeps (fun _ => True) s buses := by
    have one : Keeps (fun _ => True) s taken := .foldl (fun s q => undefer_keeps s q) _ s
    have two : Keeps (fun _ => True) taken free := .of_same rfl rfl rfl
    have three : Keeps (fun _ => True) free emptied := (restoreShadows_keeps free r).trans (takeEntries_keeps ..)
    have four : Keeps (fun _ => True) emptied cleared := .foldl (fun s f => .foldl (fun s t => clearTokens_keeps s t f) _ s) _ emptied
    exact one.trans (two.trans (three.trans (four.trans (.of_same rfl rfl rfl))))
  have second : Keeps (fun _ => True) buses undone := .foldl (fun s t => undoTile_keeps s t n) _ buses
  have third : Keeps (fun _ => False) buses back := by
    refine .ite ((second.mono nofun).trans (.trans (.foldl (fun s f => .foldl (fun s t => ?_) _ s) _ undone) (restoreHops_keeps ..))) (.refl _)
    exact (restoreNode_keeps s t (show f + 1 ≠ f by revert f; decide) n).mono nofun
  have fourth (F : Facet → Prop) : Keeps F back woken := .foldl (fun s t => .ite (unmoorLost_keeps s t) (.refl s)) _ back
  have kept : RegionKept (s.rg r) (woken.rg r) := ((first.regions r).trans (third.regions r)).trans ((fourth (fun _ => True)).regions r)
  refine ⟨kept.restored ?_, fun f t y tides node ct found => ?_⟩
  · clear_value woken
    rw [State.syncOcc, State.modRg_rg_same, State.modRg_rg_same]
    refine ⟨rfl, rfl, fun x here => ?_, fld_setFld_other _ _ _ _ _ _ (by omega)⟩
    obtain ⟨z, -, rfl⟩ := List.mem_map.1 here
    rfl
  · have before := first.trans second
    have restored : RestoredTo y ((back.el t).fac f) := by
      have hops (u : State) := (restoreHops_keeps (F := fun _ => True) u r n).fac t f trivial
      unfold back
      rw [if_pos tides]
      refine RestoredTo.kept (restoreNodes_restores ct (before.nodes trivial ct node) ?_) (hops _)
      rw [(before.fac t f trivial).snaps]
      exact found
    exact restored.kept (((fourth (fun _ => True)).fac t f trivial).trans (.refl _))

end Sys2Proof.Machine
end

section
/-! SUPPORT. Strikes, replay, stops and the tide controls (R366 to R368, R383, R385). -/

namespace Sys2Proof.Machine

theorem exec_strikeReport (d : Option DieId) (z : Nat) (s : State) : exec (.strikeReport d z) s = when_ s (decide (z ≤ 32)) (s.strike d z) := rfl
theorem exec_rollbackRestore (r : RegionId) (s : State) : exec (.rollbackRestore r) s = execRollbackRestore r s := rfl
theorem exec_replayStart (r : RegionId) (s : State) : exec (.replayStart r) s = execReplayStart r s := rfl
theorem exec_tideControlWrite (r : RegionId) (v : Word) (s : State) : exec (.tideControlWrite r v) s = .next (s.writeTide r v) := rfl

/-! Strikes (R366, R367) -/

/-- A change of each region of a list, once. -/
theorem foldl_modRg_rg {h : Region → Region} {r : RegionId} (l : List RegionId) (once : l.Nodup) (s : State) :
    (l.foldl (fun s q => s.modRg q h) s).rg r = if r ∈ l then h (s.rg r) else s.rg r := by
  induction l generalizing s with
  | nil => rfl
  | cons q l ih =>
    obtain ⟨new_, once⟩ := List.nodup_cons.1 once
    rw [List.foldl_cons, ih once]
    by_cases own : r = q
    · subst own
      rw [if_neg new_, if_pos (List.mem_cons_self ..), State.modRg_rg_same]
    · rw [State.modRg_rg_other _ _ _ _ own]
      exact if_congr ⟨List.mem_cons_of_mem _, fun h => (List.mem_cons.1 h).resolve_left own⟩ rfl rfl

section
variable (s : State) (die : Option DieId) (zone : Nat)
/-- The regions that a report concerns, and those of them on which it acts at once. -/
def State.hitBy : List RegionId := (List.finRange 32).filter fun r => (s.strikeEffect die zone r).isSome
def State.hitNow : List RegionId := (s.hitBy die zone).filter fun r => !s.frozen r
/-- The state in which frozen regions have latched the report. -/
def State.latching : State :=
  ((s.hitBy die zone).filter s.frozen).foldl (fun s r => s.modRg r fun g => { g with latched := g.latched ++ [(die, zone)] }) s
theorem latching_rg (r : RegionId) : (s.latching die zone).rg r =
    if r ∈ (s.hitBy die zone).filter s.frozen then { s.rg r with latched := (s.rg r).latched ++ [(die, zone)] } else s.rg r :=
  foldl_modRg_rg _ (((List.nodup_finRange 32).filter _).filter _) s
theorem latching_frame : { s.latching die zone with regions := s.regions } = s :=
  List.foldlRecOn (motive := fun x : State => { x with regions := s.regions } = s) _ _ rfl fun _ h _ _ => h
theorem latching_effect (r : RegionId) : (s.latching die zone).strikeEffect die zone r = s.strikeEffect die zone r := by
  have frame := latching_frame s die zone
  have switches : (s.latching die zone).switches = s.switches := (congrArg State.switches frame :)
  have modul : (s.latching die zone).modul = s.modul := (congrArg State.modul frame :)
  refine State.strikeEffect_ground (fun q => ?_) switches (fun d => ?_) modul die zone r
  · rw [latching_rg]
    split <;> exact ⟨rfl, rfl, rfl⟩
  · rw [State.die, show (s.latching die zone).dies = s.dies from (congrArg State.dies frame :), State.die]
/-- The state in which the report has raised its notices and stopped what it stops. -/
def State.stopping : State :=
  ((s.hitNow die zone).filter fun r => s.strikeEffect die zone r == some false).foldl (fun s r => s.stopRegion r)
    ((s.hitNow die zone).foldl (fun s r => s.causeRg r 0 (strikeCode die) zone) (s.latching die zone))
theorem strike_eq : s.strike die zone = if (s.hitNow die zone).isEmpty then s.stopping die zone else (s.stopping die zone).rollback
    (((s.hitNow die zone).filter fun r => s.strikeEffect die zone r == some true) ++
      (s.hitNow die zone).filter fun r => s.strikeEffect die zone r == some false) := by
  simp only [State.stopping, ← latching_effect s die zone]
  rfl
theorem stopRegion_keeps (q r : RegionId) : (s.stopRegion q).cycle = s.cycle ∧ SameFreeze (s.rg r) ((s.stopRegion q).rg r) ∧
    (r ≠ q → (s.stopRegion q).rg r = s.rg r) := by
  unfold State.stopRegion
  split
  · exact ⟨rfl, ⟨rfl, rfl⟩, fun _ => rfl⟩
  · refine ⟨s.beginRollback_cycle q true, ?_, fun off => s.beginRollback_other true off⟩
    by_cases own : r = q
    · rw [own]
      exact (s.beginRollback_begun q true).2
    · rw [State.beginRollback_other _ true own]
      exact ⟨rfl, rfl⟩
theorem foldl_stopRegion_keeps (l : List RegionId) (r : RegionId) : (l.foldl (fun s q => s.stopRegion q) s).cycle = s.cycle ∧
    SameFreeze (s.rg r) ((l.foldl (fun s q => s.stopRegion q) s).rg r) ∧ (r ∉ l → (l.foldl (fun s q => s.stopRegion q) s).rg r = s.rg r) := by
  induction l generalizing s with
  | nil => exact ⟨rfl, ⟨rfl, rfl⟩, fun _ => rfl⟩
  | cons q l ih =>
    obtain ⟨cycle, freeze, same⟩ := stopRegion_keeps s q r
    obtain ⟨cycle', freeze', same'⟩ := ih (s.stopRegion q)
    refine ⟨cycle'.trans cycle, freeze.trans freeze', fun out => ?_⟩
    rw [List.foldl_cons, same' fun h => out (List.mem_cons_of_mem _ h), same fun h => out (h ▸ List.mem_cons_self ..)]
/-- The notices of a report change the FIFOs alone. -/
theorem foldl_causeRg_keeps (l : List RegionId) (c d : Nat) (r : RegionId) : (l.foldl (fun s q => s.causeRg q 0 c d) s).cycle = s.cycle ∧
    ∃ m w, (l.foldl (fun s q => s.causeRg q 0 c d) s).rg r = { s.rg r with notices := m, nstat := w } := by
  refine List.foldlRecOn (motive := fun x : State => x.cycle = s.cycle ∧ ∃ m w, x.rg r = { s.rg r with notices := m, nstat := w }) l _
    ⟨rfl, _, _, rfl⟩ fun x ⟨cycle, m, w, same⟩ q _ => ?_
  obtain ⟨m', w', caused⟩ := x.causeRg_rg_eq q 0 c d r
  exact ⟨(State.causeRg_cycle ..).trans cycle, m', w', by rw [caused, same]⟩
/-- Stops and notices keep the cycle and each region's freeze, and a region that is not stopped stands as it did. -/
theorem stopping_keeps (r : RegionId) : (s.stopping die zone).cycle = s.cycle ∧
    SameFreeze ((s.latching die zone).rg r) ((s.stopping die zone).rg r) ∧
    (s.strikeEffect die zone r ≠ some false → Standing (s.rg r) → Standing ((s.stopping die zone).rg r)) := by
  obtain ⟨cycle, m, w, same⟩ := foldl_causeRg_keeps (s.latching die zone) (s.hitNow die zone) (strikeCode die) zone r
  have latched : (s.latching die zone).cycle = s.cycle := (congrArg State.cycle (latching_frame s die zone) :)
  unfold State.stopping
  generalize (s.hitNow die zone).foldl (fun s r => s.causeRg r 0 (strikeCode die) zone) (s.latching die zone) = u at cycle same ⊢
  obtain ⟨cycle', freeze, others⟩ := foldl_stopRegion_keeps u ((s.hitNow die zone).filter fun r => s.strikeEffect die zone r == some false) r
  refine ⟨cycle'.trans (cycle.trans latched), SameFreeze.trans (by rw [same]; exact ⟨rfl, rfl⟩) freeze, fun rolls standing => ?_⟩
  have out : r ∉ (s.hitNow die zone).filter fun r => s.strikeEffect die zone r == some false := fun h => by
    have := (List.mem_filter.1 h).2
    exact rolls (by simpa using this)
  rw [others out, same, latching_rg]
  split
  · exact ⟨standing.stop, standing.rollback⟩
  · exact ⟨standing.stop, standing.rollback⟩
end

theorem strikes (s : State) (d : Option DieId) (z : Nat) :
    (32 < z → exec (.strikeReport d z) s = .next s) ∧
    ((∀ r, s.strikeEffect d z r = none) → exec (.strikeReport d z) s = .next s) ∧
    (∀ r, z ≤ 32 → s.strikeEffect d z r = some true → s.frozen r = false → (s.rg r).stop = false → (s.rg r).rollback = none →
      ∃ s' b, exec (.strikeReport d z) s = .next s' ∧ (s'.rg r).rollback = some b ∧ b.cycle = s.cycle ∧ b.restored = false ∧ s'.mem = s.mem) ∧
    (∀ r, z ≤ 32 → s.strikeEffect d z r ≠ none → s.frozen r = true → ∃ s', exec (.strikeReport d z) s = .next s' ∧
      (s'.rg r).latched = (s.rg r).latched ++ [(d, z)] ∧ s'.mem = s.mem) := by
  have run (inside : z ≤ 32) : exec (.strikeReport d z) s = .next (s.strike d z) := when_of_true (decide_eq_true inside)
  refine ⟨fun outside => when_of_false (decide_eq_false (by omega)), fun none_ => ?_, fun r inside rolls thaws open_ fresh => ?_,
    fun r inside hit frozen => ?_⟩
  · have nobody : s.hitBy d z = [] := List.filter_eq_nil_iff.2 fun r _ => by simp [none_ r]
    have same : s.strike d z = s := by
      rw [strike_eq, State.stopping, State.hitNow, State.latching, nobody]
      rfl
    rw [exec_strikeReport, same]
    cases decide (z ≤ 32) <;> rfl
  · obtain ⟨cycle, -, stands⟩ := stopping_keeps s d z r
    have now : r ∈ s.hitNow d z :=
      List.mem_filter.2 ⟨List.mem_filter.2 ⟨List.mem_finRange r, by rw [rolls]; rfl⟩, by rw [thaws]; rfl⟩
    have busy : (s.hitNow d z).isEmpty = false := by
      cases l : s.hitNow d z with
      | nil => rw [l] at now; cases now
      | cons q l => rfl
    obtain ⟨b, begun, began, restored⟩ := State.rollback_begun (s := s.stopping d z) (r := r)
      (rs := ((s.hitNow d z).filter fun r => s.strikeEffect d z r == some true) ++
        (s.hitNow d z).filter fun r => s.strikeEffect d z r == some false)
      (List.mem_append_left _ (List.mem_filter.2 ⟨now, by rw [rolls]; rfl⟩)) (stands (by rw [rolls]; decide) ⟨open_, fresh⟩)
    refine ⟨_, b, run inside, ?_, began.trans cycle, restored, State.strike_mem ..⟩
    rw [strike_eq, busy]
    exact begun
  · obtain ⟨-, ⟨-, kept⟩, -⟩ := stopping_keeps s d z r
    have latched : ((s.latching d z).rg r).latched = (s.rg r).latched ++ [(d, z)] := by
      rw [latching_rg, if_pos]
      exact List.mem_filter.2 ⟨List.mem_filter.2 ⟨List.mem_finRange r, Option.isSome_iff_ne_none.2 hit⟩, frozen⟩
    refine ⟨_, run inside, ?_, State.strike_mem ..⟩
    rw [strike_eq]
    split
    · rw [kept, latched]
    · obtain ⟨-, -, kept'⟩ := (s.stopping d z).rollback_keeps r
        (((s.hitNow d z).filter fun r => s.strikeEffect d z r == some true) ++ (s.hitNow d z).filter fun r => s.strikeEffect d z r == some false)
      rw [kept', kept, latched]

/-! Restores and replays (R383) -/

theorem restores (s : State) (r : RegionId) (b : Rollback) (began : (s.rg r).rollback = some b) (fresh : b.restored = false)
    (later : b.cycle < s.cycle) (arrived : b.cycle + 2048 ≤ s.cycle ∨ (∀ q ∈ s.reqs, q.stage ≠ .travelling ∧ q.stage ≠ .regulated)) :
    ∃ s', exec (.rollbackRestore r) s = .next s' ∧ (s'.rg r).rollback = some { b with restored := true } ∧ (s'.rg r).replay = [] ∧
      (∀ x ∈ (s'.rg r).reaches, x.closed = none) ∧ (s'.rg r).ctide = (s.rg r).ctide ∧
      (∀ f t y, (s.rg r).tides = true → t ∈ s.nodes r f → t.isCT = true →
        ((s.el t).fac f).snaps.find? (fun y => y.tide == (s.rg r).ctide) = some y →
        ((s'.el t).fac f).bank = y.bank ∧ ((s'.el t).fac f).rmode = y.rmode ∧ ((s'.el t).fac f).masks = y.masks ∧
          ((s'.el t).fac f).reach = (s.rg r).ctide ∧ ((s'.el t).fac f).snaps = [y]) := by
  have run : exec (.rollbackRestore r) s = .next (s.restoreRegion r) := by
    simp only [exec_rollbackRestore, execRollbackRestore, began]
    refine when_of_true ?_
    rw [fresh, decide_eq_true later]
    rcases arrived with late | still
    · rw [decide_eq_true late, Bool.or_true]
      rfl
    · have none_ : (s.reqs.any fun q => q.discarded r (s.rg r).tides (s.rg r).ctide && (q.stage == .travelling || q.stage == .regulated)) = false := by
        refine List.any_eq_false.2 fun q here => ?_
        obtain ⟨travels, waits⟩ := still q here
        rw [beq_eq_false_iff_ne.2 travels, beq_eq_false_iff_ne.2 waits, Bool.or_false, Bool.and_false]
        exact Bool.false_ne_true
      rw [none_]
      rfl
  obtain ⟨⟨rollback, replay, open_, ctide⟩, restored⟩ := restoreRegion_spec s r
  refine ⟨_, run, by rw [rollback, began]; rfl, replay, open_, ctide, fun f t y tides node ct found => ?_⟩
  obtain ⟨bank, rmode, masks, reach, snaps⟩ := restored f t y tides node ct found
  exact ⟨bank, rmode, masks, reach.trans (by simpa using List.find?_some found), snaps⟩

/-- The list of a region's ports that have something to replay gives each port what it has. -/
theorem tget_replays {α : Type} (h : Nat → List α) (l : List (Nat × Word)) (p : Nat) :
    tget (l.filterMap fun x => if (h x.1).isEmpty then none else some (x.1, h x.1)) p [] = if p ∈ l.map (·.1) then h p else [] := by
  induction l with
  | nil => rfl
  | cons x l ih =>
    by_cases own : p = x.1
    · subst own
      rw [if_pos (List.mem_map.2 ⟨x, List.mem_cons_self .., rfl⟩), List.filterMap_cons]
      by_cases none_ : h x.1 = []
      · simp only [none_, List.isEmpty_nil, if_true]
        rw [ih, none_, ite_self]
      · simp only [List.isEmpty_eq_false_iff.2 none_, Bool.false_eq_true, if_false]
        rw [tget, if_pos rfl]
    · have rest : (p ∈ (x :: l).map (·.1)) ↔ p ∈ l.map (·.1) := by rw [List.map_cons, List.mem_cons, or_iff_right own]
      rw [List.filterMap_cons, if_congr rest rfl rfl, ← ih]
      split
      · rfl
      · next y some_ =>
        split at some_
        · cases some_
        · cases some_
          rw [tget, if_neg fun same => own same.symm]

/-- The state in which the sites of a region have what they replay. -/
def State.replaying (s : State) (r : RegionId) : State :=
  s.modRg r fun g =>
    { g with rollback := none,
             replay := g.ing.filterMap fun x => if (s.replayOf r x.1).isEmpty then none else some (x.1, s.replayOf r x.1) }
theorem rootsPass_nodes (s : State) (r : RegionId) (f : Facet) (k : Token) : OnlyNodes s (s.rootsPass r f k) :=
  .foldl (fun s _ => .ite _ (s.takeTide_nodes ..) (.refl s)) _ s
/-- Beyond the sites, the start of a replay changes nodes alone. -/
theorem startReplay_nodes (s : State) (r : RegionId) : OnlyNodes (s.replaying r) (s.startReplay r) := by
  unfold State.startReplay
  extract_lets u g n
  rw [show s.replaying r = u from rfl]
  clear_value u
  refine .ite _ (.refl u) (.foldl (fun s f => ?_) _ u)
  extract_lets v
  have passed : OnlyNodes s v := .ite _ (rootsPass_nodes ..) (.refl s)
  clear_value v
  refine passed.trans ?_
  split
  · exact .ite _ (.foldl (fun s t => s.snapNode_nodes ..) _ v) (.ite _ (v.rootsTake_nodes ..) (.refl v))
  · exact .refl v

theorem replays (s : State) (r : RegionId) (b : Rollback) (began : (s.rg r).rollback = some b) (restored : b.restored = true)
    (open_ : (s.rg r).stop = false) (thaws : s.frozen r = false) :
    (b.cycle + 2048 ≤ s.cycle ∨ (s.rg r).tides = false → (s.rg r).pendcnt = 0 → ∃ s', exec (.replayStart r) s = .next s' ∧
      (s'.rg r).rollback = none ∧ s'.mem = s.mem ∧
      ∀ p, ((s.rg r).ing.map (·.1)).Nodup → p ∈ (s.rg r).ing.map (·.1) → tget (s'.rg r).replay p [] = s.replayOf r p) ∧
    ((s.rg r).pendcnt ≠ 0 → exec (.replayStart r) s = .next s) ∧
    (s.cycle < b.cycle + 2048 → (s.rg r).tides = true → exec (.replayStart r) s = .next s) := by
  have run : exec (.replayStart r) s = when_ s (b.restored && !(s.rg r).stop && (s.rg r).pendcnt == 0 &&
      (decide (b.cycle + 2048 ≤ s.cycle) || !(s.rg r).tides) && !s.frozen r) (s.startReplay r) := by
    simp only [exec_replayStart, execReplayStart, began]
  refine ⟨fun due none_ => ?_, fun owed => ?_, fun early tides => ?_⟩
  · have go := run.trans (when_of_true (by
      rw [restored, open_, none_, thaws]
      rcases due with late | still
      · rw [decide_eq_true late]; rfl
      · rw [still, Bool.not_false, Bool.or_true]; rfl))
    have same : (s.startReplay r).rg r = (s.replaying r).rg r := (startReplay_nodes s r).rg r
    rw [State.replaying, State.modRg_rg_same] at same
    refine ⟨_, go, by rw [same], State.startReplay_mem .., fun p _ named => ?_⟩
    rw [same]
    exact (tget_replays (s.replayOf r) (s.rg r).ing p).trans (if_pos named)
  · exact run.trans (when_of_false (by rw [beq_eq_false_iff_ne.2 owed, Bool.and_false]; rfl))
  · exact run.trans (when_of_false (by rw [decide_eq_false (by omega), tides, Bool.not_true, Bool.or_false, Bool.and_false]; rfl))

/-! Stops and tide control (R368, R385) -/

theorem stopsClear (s : State) (r : RegionId) :
    ((s.rg r).stop = false → exec (.stopClear r) s = .next s) ∧
    ((s.rg r).stop = true → ∃ s', exec (.stopClear r) s = .next s' ∧ OnlyRegion s s' r ∧ (s'.rg r).stop = false ∧ fld (s'.rg r).tidestat 32 3 = 0 ∧
      { s'.rg r with tidestat := (s.rg r).tidestat, rollback := (s.rg r).rollback } = s.rg r) := by
  refine ⟨fun runs => when_of_false runs, fun stopped => ⟨_, when_of_true stopped, s.modRg_only r _, ?_, ?_, ?_⟩⟩ <;>
    rw [State.clearStop, State.modRg_rg_same]
  · exact (bit_setFld_other _ _ _ _ _ (by omega)).trans (bit_setBit_same _ _ _ (by decide))
  · exact fld_setFld_same _ _ _ _ (by decide)

section
variable (s : State) (r : RegionId) (v : Word)
/-- TEN is taken with a K of 1 to 8 alone (R368). -/
def tenOf (v : Word) : Bool := bit v 4 && (decide (1 ≤ fld v 0 4) && decide (fld v 0 4 ≤ 8))
/-- The tide register as a write leaves it. -/
def tideWord (w v : Word) : Word := setBit (setFld (setFld w 0 4 (fld v 0 4)) 5 3 (max 1 (fld v 5 3))) 4 (tenOf v)
theorem tideWord_fields (w : Word) : bit (tideWord w v) 4 = tenOf v ∧ fld (tideWord w v) 0 4 = fld v 0 4 ∧
    fld (tideWord w v) 5 3 = max 1 (fld v 5 3) ∧ fld (tideWord w v) 16 32 = fld w 16 32 := by
  have k := fld_lt v 0 4
  have limit := fld_lt v 5 3
  refine ⟨bit_setBit_same _ _ _ (by decide), ?_, ?_, ?_⟩ <;> rw [tideWord, fld_setBit_other _ _ _ _ _ (by omega)]
  · rw [fld_setFld_other _ _ _ _ _ _ (by omega), fld_setFld_same _ _ _ _ (by decide), Nat.mod_eq_of_lt k]
  · rw [fld_setFld_same _ _ _ _ (by decide), Nat.mod_eq_of_lt (by omega)]
  · rw [fld_setFld_other _ _ _ _ _ _ (by omega), fld_setFld_other _ _ _ _ _ _ (by omega)]
/-- Snapshots that are taken or freed change nodes alone. -/
theorem snapAll_nodes (n : Nat) : OnlyNodes s (s.snapAll r n) :=
  .foldl (fun s _ => .foldl (fun s _ => .ite _ (s.modEl_nodes ..) (s.modMt_nodes ..)) _ s) _ s
theorem freeTides_nodes : OnlyNodes s (s.freeTides r) := .foldl (fun s _ => .ite _ (s.modEl_nodes ..) (s.modMt_nodes ..)) _ s
/-- The tide register after a write, and CTIDE where tides end by it. -/
theorem writeTide_rg : ((s.writeTide r v).rg r).tide = tideWord (s.rg r).tide v ∧
    ((s.rg r).tides = true → tenOf v = false → ((s.writeTide r v).rg r).ctide = (s.rg r).tnext - 1) := by
  unfold State.writeTide
  extract_lets g kOk ten u w x y
  have own : u.rg r = { s.rg r with tide := tideWord (s.rg r).tide v } := s.modRg_rg_same ..
  have ends : y.rg r = u.rg r := (freeTides_nodes u r).rg r
  have takes : (u.snapAll r g.ctide).rg r = u.rg r := (snapAll_nodes u r g.ctide).rg r
  clear_value y u
  by_cases stops : (g.tides && !ten) = true
  · have next : (u.rg r).tnext = (s.rg r).tnext := by
      rw [own]
      exact (tideWord_fields v _).2.2.2
    have small : (s.rg r).tnext < 2 ^ 32 := fld_lt ..
    rw [if_pos stops, State.syncOcc, State.modRg_rg_same, State.modRg_rg_same, ends, next, own]
    refine ⟨rfl, fun _ _ => ?_⟩
    refine (fld_setFld_other _ _ _ _ _ _ (by omega)).trans ((fld_setFld_other _ _ _ _ _ _ (by omega)).trans ((fld_setFld_same _ _ _ _ (by decide)).trans ?_))
    exact Nat.mod_eq_of_lt (show (s.rg r).tnext - 1 < 2 ^ 32 by omega)
  · rw [if_neg stops]
    refine ⟨?_, fun tides ends => absurd ?_ stops⟩
    · split
      · rw [takes, own]
      · rw [own]
    · rw [show g.tides = true from tides, show ten = false from ends]
      rfl
end

theorem tideControls (s : State) (r : RegionId) (v : Word) : ∃ s', exec (.tideControlWrite r v) s = .next s' ∧
    (s'.rg r).tides = (bit v 4 && decide (1 ≤ fld v 0 4) && decide (fld v 0 4 ≤ 8)) ∧ fld (s'.rg r).tide 0 4 = fld v 0 4 ∧
    fld (s'.rg r).tide 5 3 = max 1 (fld v 5 3) ∧ (s'.rg r).tnext = (s.rg r).tnext ∧ s'.mem = s.mem ∧
    ((s.rg r).tides = true → (s'.rg r).tides = false → (s'.rg r).ctide = (s.rg r).tnext - 1) := by
  obtain ⟨tide, ctide⟩ := writeTide_rg s r v
  obtain ⟨ten, k, limit, next⟩ := tideWord_fields v (s.rg r).tide
  refine ⟨_, exec_tideControlWrite r v s, ?_, ?_, ?_, ?_, State.writeTide_mem .., fun tides ends => ctide tides ?_⟩
  · rw [Region.tides, tide, ten, tenOf, Bool.and_assoc]
  · rw [tide, k]
  · rw [tide, limit]
  · rw [Region.tnext, tide, next, Region.tnext]
  · rw [← ten, ← tide]
    exact ends

/-- Settles O54: a strike latches or rolls back, and each later step of a rollback, a stop or a tide control leaves what its rule says. -/
theorem rollbacks : Obligations.Rollbacks :=
  ⟨strikes, fun s r b => fun began => ⟨restores s r b began, fun restored open_ thaws => replays s r b began restored open_ thaws⟩, stopsClear, tideControls⟩

end Sys2Proof.Machine
end

section
/-! SUPPORT. What breakwaters give up (R249, R374, R379): a region's reaches whatever its entries do, and the memory after the one entry that
is due. -/

namespace Sys2Proof.Machine

/-! The reaches of every region stay (R374) -/

structure ReachesStay (s s' : State) : Prop where
  reaches : ∀ q, (s'.rg q).reaches = (s.rg q).reaches
namespace ReachesStay
theorem refl (s : State) : ReachesStay s s := ⟨fun _ => rfl⟩
theorem trans {a b c : State} (h : ReachesStay a b) (k : ReachesStay b c) : ReachesStay a c :=
  ⟨fun q => (k.reaches q).trans (h.reaches q)⟩
theorem of_regions {s s' : State} (regions : s'.regions = s.regions) : ReachesStay s s' := ⟨fun q => by rw [rg_of_regions regions]⟩
theorem modRg (s : State) (r : RegionId) {h : Region → Region} (keeps : ∀ g, (h g).reaches = g.reaches) : ReachesStay s (s.modRg r h) := by
  refine ⟨fun q => ?_⟩
  by_cases own : q = r
  · rw [own, State.modRg_rg_same, keeps]
  · rw [State.modRg_rg_other _ _ _ _ own]
theorem foldl {α : Type} {step : State → α → State} (each : ∀ s x, ReachesStay s (step s x)) (l : List α) (s : State) :
    ReachesStay s (l.foldl step s) :=
  List.foldlRecOn (motive := ReachesStay s) l step (.refl s) fun _ stay x _ => stay.trans (each _ x)
theorem ite {s a b : State} {c : Prop} [Decidable c] (ha : ReachesStay s a) (hb : ReachesStay s b) : ReachesStay s (if c then a else b) := by
  split
  · exact ha
  · exact hb
end ReachesStay

section
variable (s : State) (r : RegionId)
theorem causeRg_reaches (f : Facet) (c d : Nat) : ReachesStay s (s.causeRg r f c d) := by
  refine ⟨fun q => ?_⟩
  obtain ⟨l, w, caused⟩ := s.causeRg_rg_eq r f c d q
  rw [caused]
theorem Region.abandonSave_reaches (g : Region) : g.abandonSave.reaches = g.reaches := by
  unfold Region.abandonSave
  split
  · obtain ⟨w, stamped⟩ := g.restamp_eq fun g => { g with prectl := setFld g.prectl 8 3 1 }
    rw [stamped]
  · rfl
theorem beginRollback_reaches (stop : Bool) : ReachesStay s (s.beginRollback r stop) := by
  have aborted := ReachesStay.of_regions (State.foldl_abortTile_regions (s.rg r).tiles s)
  rw [State.beginRollback]
  exact aborted.trans (.modRg _ r fun g => Region.abandonSave_reaches _)
theorem rollbackOne_reaches : ReachesStay s (s.rollbackOne r) := by
  rcases s.rollbackOne_cases r with ⟨same, -⟩ | done
  · rw [same]
    exact .refl s
  · rw [done]
    exact .ite (beginRollback_reaches ..) (.ite ((causeRg_reaches ..).trans (beginRollback_reaches ..))
      ((beginRollback_reaches ..).trans (.modRg _ r fun _ => rfl)))
theorem rollback_reaches (l : List RegionId) : ReachesStay s (s.rollback l) := by
  rw [State.rollback]
  refine ReachesStay.trans (.foldl (fun s q => ?_) (List.finRange 32) s) (.of_regions rfl)
  split
  · exact rollbackOne_reaches s q
  · exact .refl s
theorem stopCause_reaches : ReachesStay s (s.stopCause r) := by
  have stopped : ReachesStay s (s.stopRegion r) := .ite (.refl s) (beginRollback_reaches ..)
  exact stopped.trans (rollback_reaches ..)
theorem hostSend_reaches (q : Option RegionId) (f : Facet) (pa : Nat) (bs : List Byte) (poison : Bool) :
    ReachesStay s (s.hostSend q f pa bs poison) := by
  unfold State.hostSend
  split
  · exact .refl s
  · next io h coh rlx _ =>
    extract_lets a
    have counted : ReachesStay s a := .ite (.of_regions rfl) (.refl s)
    clear_value a
    refine counted.trans ?_
    split
    · cases q with
      | none => exact .refl a
      | some r => exact (causeRg_reaches ..).trans (stopCause_reaches ..)
    · exact .of_regions rfl
theorem launchStore_reaches (off : Nat) (bs : List Byte) : ReachesStay s (s.launchStore off bs) := by
  have push (q : RegionId) (e : BitVec 512) : ReachesStay s (s.push q e) := .modRg s q fun g => by
    split
    · rfl
    · split <;> rfl
  have rearm (q : RegionId) : ReachesStay s (s.rearm q) := .modRg s q fun g => by split <;> rfl
  have refused (q : RegionId) : ReachesStay s (s.modRg q Region.badw) := .modRg s q fun g => rfl
  exact .ite (.ite (push ..) (refused _)) (.ite (.ite (rearm _) (refused _)) (.refl s))
theorem noteAt_reaches (f : Facet) (l : List Nat) : ReachesStay s (s.noteAt r f l) := by
  refine .foldl (fun s p => ?_) l s
  dsimp only
  split
  · exact .refl s
  · split
    · exact .of_regions rfl
    · exact causeRg_reaches ..
theorem chargeStore_regions (pa gl cls : Nat) : (s.chargeStore pa gl cls).regions = s.regions := by
  have count : (s.countBytes pa gl cls true).regions = s.regions := by
    unfold State.countBytes
    split <;> rfl
  unfold State.chargeStore
  dsimp only
  split <;> exact count
theorem releaseEntry_reaches (e : BwEntry) : ReachesStay s (s.releaseEntry e) := by
  have deleted (id : Nat) : ReachesStay s (s.delReq id) := .of_regions rfl
  unfold State.releaseEntry
  split
  · next id a bs gl cls p _ =>
    have charged := ReachesStay.of_regions (chargeStore_regions s a gl cls)
    exact (charged.trans (.ite (noteAt_reaches ..) (.refl _))).trans (.of_regions rfl)
  · exact (deleted _).trans (launchStore_reaches ..)
  · exact (deleted _).trans (hostSend_reaches ..)
  · exact .refl s
  · exact .refl s
  · dsimp only
    split
    · exact .of_regions rfl
    · exact .modRg s _ fun _ => rfl
theorem released_reaches (l : List BwEntry) : ReachesStay s ((l.foldl State.releaseEntry s).syncOcc r) := by
  rw [State.syncOcc]
  exact (ReachesStay.foldl releaseEntry_reaches l s).trans (.modRg _ r fun _ => rfl)
theorem takeEntries_reaches (h : BwEntry → Bool) : ReachesStay s (s.takeEntries h).2 := .of_regions rfl
theorem flushGoing_reaches : ReachesStay s (s.flushGoing r) := by
  unfold State.flushGoing
  extract_lets mine l go taken
  have took : ReachesStay s taken.2 := takeEntries_reaches ..
  clear_value taken
  exact .ite (.refl s) (took.trans (released_reaches ..))
theorem commitEntries_reaches (h : BwEntry → Bool) : ReachesStay s (s.commitEntries r h) := by
  unfold State.commitEntries
  extract_lets hit ids marked flushed taken
  have marks : ReachesStay s marked := .of_regions rfl
  clear_value marked
  have flush : ReachesStay marked flushed := flushGoing_reaches marked r
  clear_value flushed
  have took : ReachesStay flushed taken.2 := takeEntries_reaches ..
  exact marks.trans (flush.trans (took.trans (released_reaches ..)))
end

/-! The entries that leave (R379) -/

theorem insertBy_perm {α : Type} (key : α → Nat) (x : α) (l : List α) : (insertBy key x l).Perm (x :: l) := by
  induction l with
  | nil => exact .refl _
  | cons y l ih =>
    unfold insertBy
    split
    · exact .refl _
    · exact (ih.cons y).trans (.swap x y l)
theorem sortBy_perm {α : Type} (key : α → Nat) (l : List α) : (sortBy key l).Perm l := by
  suffices h : ∀ acc, (l.foldl (fun acc x => insertBy key x acc) acc).Perm (acc ++ l) from h []
  induction l with
  | nil => exact fun acc => by simp
  | cons x l ih => exact fun acc => (ih _).trans (((insertBy_perm key x acc).append_right l).trans List.perm_middle.symm)
theorem sortBy_eq_nil {α : Type} {key : α → Nat} {l : List α} : sortBy key l = [] ↔ l = [] :=
  ⟨fun h => (h ▸ sortBy_perm key l).nil_eq.symm, fun h => by rw [h]; rfl⟩
theorem sortBy_eq_singleton {α : Type} {key : α → Nat} {l : List α} {x : α} (h : sortBy key l = [x]) : l = [x] :=
  ((sortBy_perm key l).symm.trans (by rw [h])).eq_singleton

/-- The entries of all breakwaters that a predicate names. -/
def State.entries (s : State) (h : BwEntry → Bool) : List BwEntry := (List.finRange 8).flatMap fun d => (s.die d).bw.filter h
section
variable {s : State} {h : BwEntry → Bool}
theorem mem_entries {e : BwEntry} : e ∈ s.entries h ↔ (∃ d, e ∈ (s.die d).bw) ∧ h e = true := by
  simp only [State.entries, List.mem_flatMap, List.mem_filter, List.mem_finRange, true_and]
  exact exists_and_right
theorem entries_eq_nil : s.entries h = [] ↔ ∀ d, ∀ e ∈ (s.die d).bw, h e = false := by
  simp [State.entries, List.flatMap_eq_nil_iff, List.filter_eq_nil_iff]
theorem entries_filter (h k : BwEntry → Bool) : s.entries (fun e => h e && k e) = (s.entries h).filter k := by
  simp only [State.entries, List.filter_flatMap, List.filter_filter]
  congr 1; funext d; congr 1; funext e; exact Bool.and_comm ..
theorem takeEntries_fst : (s.takeEntries h).1 = sortBy (·.seq) (s.entries h) := rfl
theorem takeEntries_bw (d : DieId) : ((s.takeEntries h).2.die d).bw = (s.die d).bw.filter fun e => !h e := by
  rw [die_of_map (s := s) rfl d]
  rfl
end

/-! The commit of one store (R379) -/

theorem Memory.devWrite_putBytes {m : Memory} (sound : m.bad = []) (pa : Nat) (l : List Byte) (gl : Nat) (poison : Bool) :
    OnlyLayout (m.putBytes pa l) (m.devWrite pa l gl poison) := by
  unfold Memory.devWrite
  split
  · exact Memory.writeHbm_layout sound ..
  · refine .putBytes (.foldl (fun m w sound => ?_) _ sound) pa l
    have still : tdel m.bad (wordUnit (8 * w)) = m.bad := by rw [sound]; rfl
    exact (congrArg (fun b => { m with bad := b }) still :)

/-- The entries of a region whose reach has committed and that have still to act. -/
def BwEntry.mine (r : RegionId) (e : BwEntry) : Bool := e.region == r && e.going
/-- A write that commits acts as soon as it may. -/
def BwEntry.marked (hit : BwEntry → Bool) (e : BwEntry) : BwEntry := if hit e ∧ e.kind.write.isSome then { e with going := true } else e
theorem marked_same (hit : BwEntry → Bool) (e : BwEntry) : (e.marked hit).region = e.region ∧ (e.marked hit).kind = e.kind ∧
    (e.marked hit).going = (e.going || (hit e && e.kind.write.isSome)) := by
  unfold BwEntry.marked
  split
  · next h => exact ⟨rfl, rfl, by rw [h.1, h.2, Bool.and_self, Bool.or_true]⟩
  · next h => exact ⟨rfl, rfl, by rw [(Bool.eq_false_iff.2 fun k => h (Bool.and_eq_true_iff.1 k) :), Bool.or_false]⟩
/-- The state once the writes among the entries that commit are marked. -/
def State.markGoing (s : State) (r : RegionId) (h : BwEntry → Bool) : State :=
  let hit (e : BwEntry) : Bool := e.region == r && h e
  let ids := (List.finRange 8).flatMap fun d => (s.die d).bw.filterMap fun e => if hit e then e.kind.write else none
  { s with
    dies := s.dies.map fun d => { d with bw := d.bw.map (BwEntry.marked hit) }
    reqs := s.reqs.map fun q => if ids.contains q.id then { q with released := true } else q }
section
variable (s : State) (r : RegionId) (h : BwEntry → Bool)
theorem commitEntries_eq : s.commitEntries r h =
    let x := ((s.markGoing r h).flushGoing r).takeEntries fun e => (e.region == r && h e) && e.kind.write.isNone
    (x.1.foldl State.releaseEntry x.2).syncOcc r := rfl
theorem markGoing_bw (d : DieId) : ((s.markGoing r h).die d).bw = (s.die d).bw.map (BwEntry.marked fun e => e.region == r && h e) := by
  rw [die_of_map (s := s) rfl d]
variable {s r h}
/-- Nothing of the region that has committed waits. -/
theorem flushGoing_idle (idle : s.entries (BwEntry.mine r) = []) : s.flushGoing r = s :=
  if_pos (List.isEmpty_iff.2 (sortBy_eq_nil.2 idle))
theorem flushGoing_one {e : BwEntry} {id a : Nat} {bs : List Byte} {gl cls : Nat} {p : Bool} (one : s.entries (BwEntry.mine r) = [e])
    (kind : e.kind = .store id a bs gl cls p) (unheld : ∀ w, s.isHeld w = false) :
    s.flushGoing r = ((s.takeEntries fun x => x.mine r && x.seq == e.seq).2.releaseEntry e).syncOcc r := by
  have first : sortBy (·.seq) (s.entries (BwEntry.mine r)) = [e] := by rw [one]; rfl
  have free : (!(wordsAt a bs.length).any s.isHeld) = true := by simp [unheld]
  have self : [e].filter (fun x => x.seq == e.seq) = [e] := List.filter_cons_of_pos (beq_self_eq_true e.seq)
  have among : (s.takeEntries fun x => x.mine r && x.seq == e.seq).1 = [e] := by
    rw [takeEntries_fst, entries_filter, one, self]
    rfl
  unfold State.flushGoing
  extract_lets mine l go taken
  have whole : l = [e] := first
  have acts : go = [e] := by
    show List.takeWhile _ l = [e]
    rw [whole, List.takeWhile_cons_of_pos (by rw [kind]; exact free)]
    rfl
  have took : taken = s.takeEntries fun x => x.mine r && x.seq == e.seq := by
    have alone (x : BwEntry) : (go.any fun y => y.seq == x.seq) = (x.seq == e.seq) := by
      rw [acts, List.any_cons, List.any_nil, Bool.or_false, Bool.beq_comm]
    exact congrArg s.takeEntries (funext fun x => congrArg (BwEntry.mine r x && ·) (alone x))
  rw [if_neg (by rw [whole]; exact Bool.false_ne_true), took, among]
  rfl

theorem releaseEntry_store {e : BwEntry} {id a : Nat} {bs : List Byte} {gl cls : Nat} {p : Bool} (kind : e.kind = .store id a bs gl cls p)
    (sound : s.mem.bad = []) : s.releaseEntry e =
      { s.chargeStore a gl cls with mem := s.mem.devWrite a bs gl p, reqs := (s.chargeStore a gl cls).reqs.filter fun q => q.id != id } := by
  have charged : (s.chargeStore a gl cls).mem = s.mem := State.chargeStore_mem ..
  unfold State.releaseEntry
  rw [kind]
  dsimp only
  rw [State.noteAt_sound (by rw [charged]; exact sound), ite_self, charged]
theorem chargeStore_bw (pa gl cls : Nat) (d : DieId) : ((s.chargeStore pa gl cls).die d).bw = (s.die d).bw := by
  have mod (s : State) (k : DieId) {h : Die → Die} (keeps : ∀ x, (h x).bw = x.bw) : ((s.modDie k h).die d).bw = (s.die d).bw := by
    by_cases own : d = k
    · rw [own, State.modDie_die_same, keeps]
    · rw [State.modDie_die_other _ _ _ _ own]
  have count : ((s.countBytes pa gl cls true).die d).bw = (s.die d).bw := by
    unfold State.countBytes
    split
    · exact mod s _ fun _ => rfl
    · rfl
  unfold State.chargeStore
  dsimp only
  split
  · refine Eq.trans ?_ count
    exact mod _ _ fun _ => rfl
  · exact count

/-- Where nothing of the region is due and nothing waits, a commit leaves the memory. -/
theorem commitEntries_idle (due : s.entries (fun e => e.region == r && h e) = []) (idle : s.entries (BwEntry.mine r) = []) :
    (s.commitEntries r h).mem = s.mem := by
  have missed (d : DieId) (e : BwEntry) (there : e ∈ (s.die d).bw) : e.marked (fun e => e.region == r && h e) = e :=
    if_neg fun hit => Bool.false_ne_true ((entries_eq_nil.1 due d e there).symm.trans hit.1)
  have same (d : DieId) : ((s.markGoing r h).die d).bw = (s.die d).bw := by
    rw [markGoing_bw, List.map_congr_left (missed d), List.map_id']
  have alike (k : BwEntry → Bool) : (s.markGoing r h).entries k = s.entries k := by
    simp only [State.entries, same]
  have nothing : (s.markGoing r h).entries (fun e => (e.region == r && h e) && e.kind.write.isNone) = [] := by
    rw [alike, entries_filter (fun e => e.region == r && h e), due]
    rfl
  rw [commitEntries_eq]
  dsimp only
  rw [flushGoing_idle ((alike _).trans idle), takeEntries_fst, nothing]
  rfl

section
variable {e : BwEntry} {id a : Nat} {bs : List Byte} {gl cls : Nat} {p : Bool} (kind : e.kind = .store id a bs gl cls p)
  (one : s.entries (fun e => e.region == r && h e) = [e]) (fresh : ∀ d, ∀ e ∈ (s.die d).bw, e.region = r → e.going = false)
  (stable : ∀ e, h { e with going := true } = h e)
include kind one fresh
theorem markGoing_mine : (s.markGoing r h).entries (BwEntry.mine r) = [{ e with going := true }] := by
  have hit : (e.region == r && h e) = true := (mem_entries.1 (one ▸ List.mem_singleton.2 rfl)).2
  have store : e.kind.write.isSome = true := by rw [kind]; rfl
  have marks (d : DieId) : ((s.markGoing r h).die d).bw.filter (BwEntry.mine r) =
      ((s.die d).bw.filter fun e => (e.region == r && h e) && e.kind.write.isSome).map (BwEntry.marked fun e => e.region == r && h e) := by
    rw [markGoing_bw, List.filter_map]
    refine congrArg _ (List.filter_congr fun x there => ?_)
    obtain ⟨region, -, going⟩ := marked_same (fun e => e.region == r && h e) x
    rw [Function.comp_apply, BwEntry.mine, region, going]
    by_cases own : x.region = r
    · rw [fresh d x there own, Bool.false_or, own, beq_self_eq_true, Bool.true_and, Bool.true_and]
    · rw [beq_false_of_ne own, Bool.false_and, Bool.false_and, Bool.false_and]
  have all : (s.markGoing r h).entries (BwEntry.mine r) =
      (s.entries fun e => (e.region == r && h e) && e.kind.write.isSome).map (BwEntry.marked fun e => e.region == r && h e) := by
    simp only [State.entries, marks, List.map_flatMap]
  rw [all, entries_filter (fun e => e.region == r && h e), one, show [e].filter (fun e => e.kind.write.isSome) = [e] from List.filter_cons_of_pos store, List.map_cons, List.map_nil,
    BwEntry.marked, if_pos ⟨hit, store⟩]
include stable
/-- The one entry of the region that is due is a store: its bytes are written, and it stands in no breakwater any longer. -/
theorem commitEntries_one (sound : s.mem.bad = []) (unheld : ∀ w, s.isHeld w = false) :
    OnlyLayout (s.mem.putBytes a bs) (s.commitEntries r h).mem ∧ ∀ d, e ∉ ((s.commitEntries r h).die d).bw := by
  obtain ⟨⟨d₀, there₀⟩, hit⟩ : (∃ d, e ∈ (s.die d).bw) ∧ (e.region == r && h e) = true := mem_entries.1 (one ▸ List.mem_singleton.2 rfl)
  have own : e.region = r := by simpa using (Bool.and_eq_true_iff.1 hit).1
  have store : e.kind.write.isSome = true := by rw [kind]; rfl
  have mine := markGoing_mine kind one fresh
  have flushed := flushGoing_one mine kind unheld
  rw [releaseEntry_store (by exact kind) (by exact sound)] at flushed
  have mem : ((s.markGoing r h).flushGoing r).mem = s.mem.devWrite a bs gl p := by rw [flushed]; rfl
  have left (d : DieId) (x : BwEntry) (there : x ∈ (((s.markGoing r h).flushGoing r).die d).bw) : ∃ y ∈ (s.die d).bw, x = y.marked fun e => e.region == r && h e := by
    rw [flushed] at there
    have there : x ∈ ((((s.markGoing r h).takeEntries fun x => x.mine r && x.seq == e.seq).2.chargeStore a gl cls).die d).bw := there
    rw [chargeStore_bw, takeEntries_bw, markGoing_bw] at there
    obtain ⟨y, stood, rfl⟩ := List.mem_map.1 (List.mem_filter.1 there).1
    exact ⟨y, stood, rfl⟩
  have nothing : ((s.markGoing r h).flushGoing r).entries (fun e => (e.region == r && h e) && e.kind.write.isNone) = [] := by
    refine entries_eq_nil.2 fun d x there => ?_
    obtain ⟨y, stood, rfl⟩ := left d x there
    obtain ⟨region, kept, -⟩ := marked_same (fun e => e.region == r && h e) y
    have still : h (y.marked fun e => e.region == r && h e) = h y := by
      unfold BwEntry.marked
      split
      · exact stable y
      · rfl
    rw [region, kept, still]
    refine Bool.eq_false_iff.2 fun due => ?_
    obtain ⟨due, other⟩ := Bool.and_eq_true_iff.1 due
    have same : y = e := List.mem_singleton.1 (one ▸ mem_entries.2 ⟨⟨d, stood⟩, due⟩)
    rw [same, kind] at other
    exact Bool.false_ne_true other
  rw [commitEntries_eq]
  dsimp only
  rw [takeEntries_fst, nothing]
  refine ⟨?_, fun d there => ?_⟩
  · have same : ((([] : List BwEntry).foldl State.releaseEntry ((s.markGoing r h).flushGoing r)).syncOcc r).mem = s.mem.devWrite a bs gl p := mem
    exact mem ▸ Memory.devWrite_putBytes sound ..
  · have stood : e ∈ (((s.markGoing r h).flushGoing r).die d).bw := by
      have there : e ∈ (((((s.markGoing r h).flushGoing r).takeEntries _).2).die d).bw := there
      rw [takeEntries_bw] at there
      exact (List.mem_filter.1 there).1
    obtain ⟨y, there, same⟩ := left d e stood
    obtain ⟨region, kept, going⟩ := marked_same (fun e => e.region == r && h e) y
    rw [← same] at region kept going
    rw [fresh d₀ e there₀ own] at going
    obtain ⟨-, missed⟩ := Bool.or_eq_false_iff.1 going.symm
    have unmarked : y = e := by
      rw [same, BwEntry.marked, if_neg fun k => Bool.false_ne_true (missed.symm.trans (Bool.and_eq_true_iff.2 k))]
    rw [unmarked, store, Bool.and_true] at missed
    exact Bool.false_ne_true (missed.symm.trans hit)
end
end
end Sys2Proof.Machine
end

section
/-! O53. Tides and commits (R368 to R374, R379, R386, R390): the tide that a region injects, the marks that its nodes take and pass on, and the
commits of its reaches and of what it stored while no tide ran. -/

namespace Sys2Proof.Machine

theorem exec_tideInject (r : RegionId) (s : State) : exec (.tideInject r) s = execTideInject r s := rfl
theorem exec_tideTake (t : Tile) (f : Facet) (s : State) : exec (.tideTake t f) s = execTideTake t f s := rfl
theorem exec_drainTake (t : Tile) (f : Facet) (s : State) : exec (.drainTake t f) s = execDrainTake t f s := rfl
theorem exec_reachClose (r : RegionId) (s : State) : exec (.reachClose r) s = execReachClose r s := rfl
theorem exec_reachCommit (r : RegionId) (s : State) : exec (.reachCommit r) s = .next (s.commitFirst r) := rfl
theorem exec_timedCommit (r : RegionId) (s : State) : exec (.timedCommit r) s = execTimedCommit r s := rfl

/-! Injection (R369, R371) -/

/-- A mark that waits at a site still waits once others do. -/
theorem mem_queueMark_of_mem (g : Region) (ports : List Nat) (k : Token) {x : Token} {p : Nat} (h : x ∈ tget g.siteMarks p []) :
    x ∈ tget (g.queueMark ports k).siteMarks p [] := by
  refine List.foldlRecOn (motive := fun m : Tab (List Token) => x ∈ tget m p []) ports _ h fun m there q _ => ?_
  by_cases own : p = q
  · subst own
    simpa [tmod] using .inl there
  · rwa [tmod, tget_tset_other _ _ _ _ _ own]
/-- A region as the injection of tide n leaves it, its sites' marks apart. -/
def Region.injected (g : Region) (n : Nat) (late : Bool) : Region :=
  { g with tide := setFld g.tide 16 32 (n + 1), reaches := g.reaches ++ [⟨n, none, [], g.liveFacets⟩], dueTide := false,
           tidestat := if late then setBit g.tidestat 36 true else g.tidestat }
/-- What an injection does to one facet. -/
def State.injectFacet (g : Region) (r : RegionId) (s : State) (f : Facet) : State :=
  if g.live f then
    let k := markTok f markTide g.tnext
    let s : State := s.modRg r fun g => g.queueMark (g.markSites f) k
    if g.rollback.isSome then s else s.rootsTake r f k
  else if g.rollback.isSome then s
  else (s.nodes r f).foldl (fun s t => s.snapNode t f g.tnext 0) s
theorem injectTide_eq (s : State) (r : RegionId) (late : Bool) : s.injectTide r late =
    (List.finRange 4).foldl (State.injectFacet (s.rg r) r) (s.modRg r (·.injected (s.rg r).tnext late)) := by
  unfold State.injectTide State.injectFacet Region.injected
  rfl
section
variable (g : Region) (r : RegionId) (s : State) (f : Facet)
/-- One facet's part of an injection changes of a region only which marks wait at its sites, and adds the marks of a live facet. -/
theorem injectFacet_rg : let s' := State.injectFacet g r s f
    (s'.rg r = s.rg r ∨ s'.rg r = (s.rg r).queueMark ((s.rg r).markSites f) (markTok f markTide g.tnext)) ∧
    (g.live f = true → s'.rg r = (s.rg r).queueMark ((s.rg r).markSites f) (markTok f markTide g.tnext)) := by
  unfold State.injectFacet
  split
  · have marked : ((s.modRg r fun g' => g'.queueMark (g'.markSites f) (markTok f markTide g.tnext)).rg r) =
        (s.rg r).queueMark ((s.rg r).markSites f) (markTok f markTide g.tnext) := s.modRg_rg_same ..
    dsimp only
    split
    · exact ⟨.inr marked, fun _ => marked⟩
    · rw [(State.rootsTake_nodes ..).rg]
      exact ⟨.inr marked, fun _ => marked⟩
  · next dead =>
    refine ⟨.inl ?_, fun live => absurd live dead⟩
    split
    · rfl
    · exact (OnlyNodes.foldl (fun s t => s.snapNode_nodes ..) _ s).rg r
end
section
variable (s : State) (r : RegionId) (late : Bool)
/-- A region after an injection: the tide is open, and its marks wait at every site of every live facet (R369, R371). -/
theorem injectTide_rg : let g := s.rg r
    let g' := (s.injectTide r late).rg r
    g' = { g.injected g.tnext late with siteMarks := g'.siteMarks } ∧
    ∀ f, g.live f = true → ∀ p ∈ g.markSites f, markTok f 1 g.tnext ∈ tget g'.siteMarks p [] := by
  extract_lets g g'
  have start : (s.modRg r (·.injected (s.rg r).tnext late)).rg r = g.injected g.tnext late := s.modRg_rg_same ..
  have frame (x : State) (f : Facet) (h : x.rg r = { g.injected g.tnext late with siteMarks := (x.rg r).siteMarks }) :
      (State.injectFacet g r x f).rg r = { g.injected g.tnext late with siteMarks := ((State.injectFacet g r x f).rg r).siteMarks } := by
    rcases (injectFacet_rg g r x f).1 with same | marked
    · rw [same]
      exact h
    · rw [marked, Region.queueMark]
      exact (congrArg (fun y : Region => { y with siteMarks := (x.rg r).queueMark ((x.rg r).markSites f) (markTok f markTide g.tnext) |>.siteMarks }) h :)
  have grows (x : State) (f : Facet) (k : Token) (p : Nat) (h : k ∈ tget (x.rg r).siteMarks p []) :
      k ∈ tget ((State.injectFacet g r x f).rg r).siteMarks p [] := by
    rcases (injectFacet_rg g r x f).1 with same | marked
    · rw [same]
      exact h
    · rw [marked]
      exact mem_queueMark_of_mem _ _ _ h
  rw [show g' = (((List.finRange 4).foldl (State.injectFacet g r) (s.modRg r (·.injected g.tnext late))).rg r) from
    congrArg (State.rg · r) (injectTide_eq s r late)]
  refine ⟨List.foldlRecOn (motive := fun x : State => x.rg r = { g.injected g.tnext late with siteMarks := (x.rg r).siteMarks }) (List.finRange 4) _
    (by rw [start]) (fun x h f _ => frame x f h), fun f live p site => ?_⟩
  refine foldl_makes (P := fun x : State => x.rg r = { g.injected g.tnext late with siteMarks := (x.rg r).siteMarks })
    (Q := fun x : State => markTok f 1 g.tnext ∈ tget (x.rg r).siteMarks p []) (x := f) frame (fun x y h => grows x y _ p h) (fun x h => ?_)
    (List.finRange 4) _ (.inr ⟨List.mem_finRange f, by rw [start]⟩)
  rw [(injectFacet_rg g r x f).2 live]
  refine Region.mem_queueMark _ _ _ p ?_
  rw [h]
  exact site
end

/-! A node's queues as a mark passes (R371) -/

/-- A fold whose steps each change one place, each place once at most. -/
theorem foldl_once {α β σ : Type} [DecidableEq α] (read : σ → α → β) {step : σ → α → σ} {P : σ → Prop} {g : β → β}
    (keeps : ∀ s x, P s → P (step s x)) (own : ∀ s x, P s → read (step s x) x = g (read s x))
    (other : ∀ s x y, y ≠ x → read (step s x) y = read s y) {l : List α} (once : l.Nodup) {s : σ} (start : P s) (y : α) :
    read (l.foldl step s) y = if y ∈ l then g (read s y) else read s y := by
  induction l generalizing s with
  | nil => exact (if_neg List.not_mem_nil).symm
  | cons x l ih =>
    obtain ⟨apart, once⟩ := List.nodup_cons.1 once
    rw [List.foldl_cons, ih once (keeps s x start)]
    by_cases same : y = x
    · subst same
      rw [if_neg apart, if_pos (List.mem_cons_self ..), own s y start]
    · rw [other s x y same]
      exact if_congr (by rw [List.mem_cons, or_iff_right same]) rfl rfl

theorem OnlyNodes.cycle {s s' : State} (h : OnlyNodes s s') : s'.cycle = s.cycle :=
  (congrArg State.cycle (show { s' with elements := s.elements, mts := s.mts } = s from h) :)
theorem OnlyNodes.sw {s s' : State} (h : OnlyNodes s s') (t : Tile) : s'.sw t = s.sw t :=
  (congrArg (State.sw · t) (show { s' with elements := s.elements, mts := s.mts } = s from h) :)
theorem OnlyNodes.logs {s s' : State} (h : OnlyNodes s s') (t : Tile) : s'.logs t = s.logs t :=
  (congrArg (State.logs · t) (show { s' with elements := s.elements, mts := s.mts } = s from h) :)

section
variable (s : State) (t : Tile) (f : Facet)
theorem modInq_inq_other {p q : Fin 16} (g : List QTok → List QTok) (other : q ≠ p) : (s.modInq t f p g).inq t f q = s.inq t f q := by
  unfold State.modInq State.inq
  cases t.isCT <;> simp [vget_vmod_other _ _ _ _ other]
theorem modInq_reach (p : Fin 16) (g : List QTok → List QTok) : (s.modInq t f p g).nodeReach t f = s.nodeReach t f := by
  unfold State.modInq State.nodeReach
  cases t.isCT <;> simp
theorem modOutq_outq_other {p q : Fin 16} (g : List OTok → List OTok) (other : q ≠ p) : (s.modOutq t p g).outq t q = s.outq t q := by
  unfold State.modOutq State.outq
  cases t.isCT <;> simp [vget_vmod_other _ _ _ _ other]
theorem modOutq_reach (p : Fin 16) (g : List OTok → List OTok) : (s.modOutq t p g).nodeReach t f = s.nodeReach t f := by
  unfold State.modOutq State.nodeReach
  cases t.isCT <;> simp [Element.fac, MemTile.fac]

theorem dropHeads_inq {ports : List (Fin 16)} (once : ports.Nodup) {p : Fin 16} (named : p ∈ ports) :
    (s.dropHeads t f ports).inq t f p = (s.inq t f p).drop 1 := by
  have all := foldl_once (fun (s : State) p => s.inq t f p) (P := fun _ => True) (fun _ _ _ => trivial) (fun s p _ => s.modInq_inq_same t f p (·.drop 1))
    (fun s p q other => modInq_inq_other s t f _ other) once (s := s) trivial p
  exact all.trans (if_pos named)
theorem dropHeads_outq (ports : List (Fin 16)) (q : Fin 16) : (s.dropHeads t f ports).outq t q = s.outq t q :=
  State.foldl_part (fun s => s.outq t q) (fun s p => s.modInq_outq t f p q _) ports s
theorem dropHeads_reach (ports : List (Fin 16)) : (s.dropHeads t f ports).nodeReach t f = s.nodeReach t f :=
  State.foldl_part (fun s => s.nodeReach t f) (fun s p => modInq_reach s t f p _) ports s
theorem linkedOut_nodup : ((s.sw t).linkedOut f).Nodup := (List.nodup_finRange 16).filter _
theorem passMark_outq (k : Token) (p : Fin 16) : (s.passMark t f k).outq t p =
    if p ∈ (s.sw t).linkedOut f then s.outq t p ++ [⟨k, s.cycle, []⟩] else s.outq t p := by
  have each := foldl_once (fun (x : State) (p : Fin 16) => x.outq t p) (step := fun (x : State) (p : Fin 16) => x.modOutq t p (· ++ [(⟨k, x.cycle, []⟩ : OTok)]))
    (P := fun (x : State) => x.cycle = s.cycle) (g := (· ++ [(⟨k, s.cycle, []⟩ : OTok)]))
    (fun x p same => (OnlyNodes.cycle (x.modOutq_nodes t p _)).trans same) (fun x p same => by rw [(x.modOutq_queues t p _).1, same])
    (fun x p q other => modOutq_outq_other x t _ other) (linkedOut_nodup s t f) (s := s) rfl p
  exact each
theorem passMark_inq (k : Token) (p : Fin 16) : (s.passMark t f k).inq t f p = s.inq t f p :=
  State.foldl_part (fun s => s.inq t f p) (fun s q => (s.modOutq_queues t q _).2 f p) _ s
theorem passMark_reach (k : Token) : (s.passMark t f k).nodeReach t f = s.nodeReach t f :=
  State.foldl_part (fun s => s.nodeReach t f) (fun s q => modOutq_reach s t f q _) _ s
theorem snapNode_inq (n : Nat) (m : BitVec 16) (p : Fin 16) : (s.snapNode t f n m).inq t f p = s.inq t f p := by
  unfold State.snapNode State.inq
  cases t.isCT <;> simp
theorem snapNode_outq (n : Nat) (m : BitVec 16) (p : Fin 16) : (s.snapNode t f n m).outq t p = s.outq t p := by
  unfold State.snapNode State.outq
  cases t.isCT <;> simp [Element.modFac, MemTile.modFac]
theorem snapNode_reach (n : Nat) (m : BitVec 16) : (s.snapNode t f n m).nodeReach t f = n := by
  unfold State.snapNode State.nodeReach
  cases t.isCT <;> simp
theorem holdNode_inq (b : Bool) (p : Fin 16) : (s.holdNode t f b).inq t f p = s.inq t f p := by
  unfold State.holdNode State.inq
  cases t.isCT <;> simp
theorem holdNode_outq (b : Bool) (p : Fin 16) : (s.holdNode t f b).outq t p = s.outq t p := by
  unfold State.holdNode State.outq
  cases t.isCT <;> simp [Element.modFac, MemTile.modFac]

/-- A mark passes a node: the heads of the forward ports go, and it stands behind what the linked output queues hold (R371). -/
structure PassesNode (k : Token) (s' : State) : Prop where
  inq : ∀ p ∈ s.forwardPorts t f, s'.inq t f p = (s.inq t f p).drop 1
  linked : ∀ p ∈ (s.sw t).linkedOut f, s'.outq t p = s.outq t p ++ [⟨k, s.cycle, []⟩]
  other : ∀ p, p ∉ (s.sw t).linkedOut f → s'.outq t p = s.outq t p
  mem : s'.mem = s.mem
/-- The ports whose heads a node removes as it takes a mark. -/
def State.takenPorts (k : Token) : List (Fin 16) := s.forwardPorts t f ++ (s.backPorts t f).filter fun p => s.headMark t f p == some k
theorem takenPorts_nodup (k : Token) : (s.takenPorts t f k).Nodup := by
  have linked : ((s.sw t).linkedIn f).Nodup := (List.nodup_finRange 16).filter _
  refine List.Nodup.append (linked.filter _) ((linked.filter _).filter _) fun p forward back => ?_
  have front := (List.mem_filter.1 forward).2
  have behind := (List.mem_filter.1 (List.mem_filter.1 back).1).2
  rw [behind] at front
  exact absurd front (by decide)
/-- What a node does between the heads that go and the mark that passes on may change neither its queues nor anything but nodes. -/
theorem passMark_passes {k : Token} {e : State} (inq : ∀ p, e.inq t f p = (s.dropHeads t f (s.takenPorts t f k)).inq t f p)
    (outq : ∀ p, e.outq t p = (s.dropHeads t f (s.takenPorts t f k)).outq t p) (nodes : OnlyNodes s e) : PassesNode s t f k (e.passMark t f k) := by
  have out (p : Fin 16) : (e.passMark t f k).outq t p =
      if p ∈ (s.sw t).linkedOut f then s.outq t p ++ [⟨k, s.cycle, []⟩] else s.outq t p := by
    rw [passMark_outq, nodes.sw, nodes.cycle, outq, dropHeads_outq]
  refine ⟨fun p named => ?_, fun p linked => (out p).trans (if_pos linked), fun p unlinked => (out p).trans (if_neg unlinked), ?_⟩
  · rw [passMark_inq, inq, dropHeads_inq s t f (takenPorts_nodup s t f k) (List.mem_append_left _ named)]
  · rw [(State.passMark_nodes ..).mem, nodes.mem]
theorem takeTide_passes (k : Token) : PassesNode s t f k (s.takeTide t f k false) ∧
    (s.logs t = true → s.nodeReach t f < k.markNo → (s.takeTide t f k false).nodeReach t f = k.markNo) := by
  have dropped := s.dropHeads_nodes t f (s.takenPorts t f k)
  have logs := dropped.logs t
  have reach := dropHeads_reach s t f (s.takenPorts t f k)
  unfold State.takeTide
  extract_lets back early d e
  have same : d = s.dropHeads t f (s.takenPorts t f k) := rfl
  rw [← same] at dropped logs reach
  have snapped : OnlyNodes d e := .ite _ (d.snapNode_nodes ..) (.refl d)
  refine ⟨passMark_passes s t f (fun p => ?_) (fun p => ?_) (dropped.trans snapped), fun running older => ?_⟩
  · show e.inq t f p = d.inq t f p
    unfold e
    split
    · exact snapNode_inq ..
    · rfl
  · show e.outq t p = d.outq t p
    unfold e
    split
    · exact snapNode_outq ..
    · rfl
  · have taken : e = d.snapNode t f k.markNo (portMask (back.filter fun p => !early.contains p)) :=
      if_pos (by rw [logs, reach, running, decide_eq_true older]; rfl)
    rw [passMark_reach, taken, snapNode_reach]
theorem takeHold_passes (k : Token) : PassesNode s t f k (s.takeHold t f k false) ∧ (s.takeHold t f k false).nodeHeld t f = true := by
  have passed := passMark_passes s t f (k := k) (fun _ => rfl) (fun _ => rfl) (s.dropHeads_nodes t f (s.takenPorts t f k))
  have held : s.takeHold t f k false = ((s.dropHeads t f (s.takenPorts t f k)).passMark t f k).holdNode t f true := rfl
  rw [held]
  refine ⟨⟨fun p named => ?_, fun p linked => ?_, fun p unlinked => ?_, ?_⟩, State.holdNode_nodeHeld ..⟩
  · rw [holdNode_inq, passed.inq p named]
  · rw [holdNode_outq, passed.linked p linked]
  · rw [holdNode_outq, passed.other p unlinked]
  · rw [(State.holdNode_nodes ..).mem, passed.mem]
end

/-- Tides and drains: where they enter, and how they pass a node. -/
theorem tideMarks : TideMarks := by
  refine ⟨fun s r => ?_, fun s t f k mark running => ?_⟩
  · extract_lets g
    intro tides last saving going thawed clear
    have open_ : (fld g.dcut 4 2 == 0 || !g.live g.cutFac) = true := by simpa using clear
    have allowed : (g.tides && g.dueTide && g.tnext == g.ctide + 1 && !g.tidesSuspended && !g.stop && !s.frozen r && (fld g.dcut 4 2 == 0 || !g.live g.cutFac)) =
        g.dueTide := by
      have resumed : g.tidesSuspended = false := by rw [Region.tidesSuspended, saving]
      rw [open_, tides, last, resumed, going, thawed, beq_self_eq_true]
      simp
    have out : exec (.tideInject r) s = when_ s g.dueTide (s.injectTide r (!s.instant r g.tidePeriod)) := by
      rw [exec_tideInject, ← allowed]
      rfl
    refine ⟨fun due => ?_, fun rests => out.trans (when_of_false rests)⟩
    obtain ⟨left, marks⟩ := injectTide_rg s r (!s.instant r g.tidePeriod)
    refine ⟨_, out.trans (when_of_true due), ?_, ?_, ?_, ?_, State.injectTide_mem .., marks⟩
    · rw [left]
      exact fld_setFld_same _ _ _ _ (by decide)
    · rw [left]
      rfl
    · rw [left]
      rfl
    · rw [left, Region.ctide, Region.injected]
      split
      · exact fld_setBit_other _ _ _ _ _ (by omega)
      · rfl
  · extract_lets passes
    have shaped {s' : State} (h : PassesNode s t f k s') : passes s' := ⟨h.inq, h.linked, h.other, h.mem⟩
    have tide : exec (.tideTake t f) s = when_ s (k.markType == markTide && !s.tileHalted t) (s.takeTide t f k false) := by
      rw [exec_tideTake, execTideTake, mark]
    have drain : exec (.drainTake t f) s =
        when_ s (k.markType == markDrain && !s.tileHalted t && (t.isCT || s.mtStopped t f)) (s.takeHold t f k false) := by
      rw [exec_drainTake, execDrainTake, mark]
    refine ⟨fun type => ?_, fun type ready => ?_, fun type => ?_, fun type => ?_⟩
    · obtain ⟨passed, reach⟩ := takeTide_passes s t f k
      exact ⟨_, tide.trans (when_of_true (by rw [type, running]; rfl)), shaped passed, reach⟩
    · obtain ⟨passed, held⟩ := takeHold_passes s t f k
      exact ⟨_, drain.trans (when_of_true (by rw [type, running]; simpa [markDrain] using ready)), shaped passed, held⟩
    · exact tide.trans (when_of_false (by rw [beq_false_of_ne (show k.markType ≠ markTide from type)]; rfl))
    · exact drain.trans (when_of_false (by rw [beq_false_of_ne (show k.markType ≠ markDrain from type)]; rfl))

/-! Closes and commits (R374, R379, R386) -/

/-- A state without the timed requests of a region that were at their homes 900 cycles ago (R386). -/
def State.forgetTimed (s : State) (r : RegionId) (cycle : Nat) : State :=
  { s with reqs := s.reqs.filter fun q => !(q.region == some r && q.timed && q.stage == .atHome && decide (q.arrived + 900 ≤ cycle)) }
theorem forgetTimed_mem (s : State) (r : RegionId) (cycle : Nat) : (s.forgetTimed r cycle).mem = s.mem := rfl
theorem forgetTimed_die (s : State) (r : RegionId) (cycle : Nat) (d : DieId) : (s.forgetTimed r cycle).die d = s.die d := rfl
/-- The clasps of pairs that have committed end. -/
def State.unclasped (s : State) (ms : List (Nat × Nat)) : State := { s with clasps := s.clasps.filter fun c => !c.any fun m => ms.contains m }

section
variable {s : State} {r : RegionId} {x : Reach} {rest : List Reach}
theorem reachClose_eq (oldest : (s.rg r).reaches = x :: rest) : exec (.reachClose r) s =
    when_ s ((s.rg r).tides && !s.halted r && x.closed.isNone && decide (x.n + 1 < (s.rg r).tnext) &&
        (List.finRange 4).all (fun f => !(s.rg r).live f || s.facetClosed r f x.n) && !s.reqs.any (fun q => q.owes r x.n))
      (let s' := s.modRg r fun g => { g with reaches := { x with closed := some s.cycle } :: rest }
       match (List.finRange 4).find? ((s.rg r).unbalanced x) with
       | some f => (s'.causeRg r f causeConservation x.n).rollback [r]
       | none => s') := by
  rw [exec_reachClose, execReachClose, oldest] <;> rfl

/-- The reach may commit now (R374). -/
theorem commitReady_eq (oldest : (s.rg r).reaches = x :: rest) (tides : (s.rg r).tides = true) (running : s.halted r = false) {z : Nat}
    (closed : x.closed = some z) : s.commitReady (r.val, x.n) = decide (z + 900 ≤ s.cycle) := by
  have own : (Fin.ofNat 32 r.val : RegionId) = r := Fin.ofNat_val_eq_self r
  simp only [State.commitReady, own, tides, running, oldest, closed]
  simp
theorem commitDue_eq (oldest : (s.rg r).reaches = x :: rest) (alone : s.clasps = []) : s.commitDue r =
    if s.commitReady (r.val, x.n) then some ((s.commitReach r x.n).unclasped [(r.val, x.n)]) else none := by
  have own : (Fin.ofNat 32 r.val : RegionId) = r := Fin.ofNat_val_eq_self r
  have set : s.commitSet (r.val, x.n) = [(r.val, x.n)] := by rw [State.commitSet, alone]; rfl
  rw [State.commitDue, oldest]
  dsimp only
  rw [set]
  simp only [List.all_cons, List.all_nil, Bool.and_true, Bool.and_self, List.foldl_cons, List.foldl_nil, own]
  rfl
end

/-- A region once its oldest reach has committed. -/
def Region.committed (g : Region) (n : Nat) : Region :=
  { g with tidestat := setFld (setFld g.tidestat 0 32 (n + 1)) 32 3 0, reaches := g.reaches.drop 1,
           hopSnap := g.hopSnap.filter (fun x => decide (n + 1 ≤ x.1)),
           marks := g.marks.filter (fun m => decide (n + 1 ≤ m.2.2)), counters := vmod g.counters 2 (· + 1) }
/-- A state without the requests that a commit settles at their homes. -/
def State.settled (s : State) (r : RegionId) (n : Nat) : State :=
  { s with reqs := s.reqs.filter fun q => !(q.region == some r && !q.timed && decide (q.reach ≤ n) && q.stage == .atHome) }
theorem commitReach_eq (s : State) (r : RegionId) (n : Nat) : s.commitReach r n =
    (((s.commitEntries r fun e => !e.timed && decide (e.reach ≤ n)).settled r n).modRg r (·.committed n)).freeBefore r (n + 1) := by
  unfold State.commitReach State.settled Region.committed
  rfl
/-- What a commit leaves of its region, and the memory it leaves (R374). -/
theorem commitReach_rg (s : State) (r : RegionId) (n : Nat) : let g' := (s.commitReach r n).rg r
    g'.ctide = (n + 1) % 2 ^ 32 ∧ g'.reaches = (s.rg r).reaches.drop 1 ∧ fld g'.tidestat 32 3 = 0 ∧
    (s.commitReach r n).mem = (s.commitEntries r fun e => !e.timed && decide (e.reach ≤ n)).mem := by
  have stay := (commitEntries_reaches s r fun e => !e.timed && decide (e.reach ≤ n)).reaches r
  rw [commitReach_eq]
  generalize (s.commitEntries r fun e => !e.timed && decide (e.reach ≤ n)) = a at stay ⊢
  have freed (c : State) : OnlyNodes c (c.freeBefore r (n + 1)) := .foldl (fun s t => .ite _ (s.modEl_nodes ..) (s.modMt_nodes ..)) _ c
  have own : ((a.settled r n).modRg r (·.committed n)).rg r = (a.rg r).committed n := State.modRg_rg_same ..
  rw [(freed _).rg r, (freed _).mem, own]
  refine ⟨?_, ?_, ?_, rfl⟩
  · exact (fld_setFld_other _ _ _ _ _ _ (by omega)).trans (fld_setFld_same _ _ _ _ (by decide))
  · exact congrArg (List.drop 1) stay
  · exact fld_setFld_same _ _ _ _ (by decide)
theorem OnlyLayout.putBytes_byte {m m' : Memory} {a : Nat} {bs : List Byte} (layout : OnlyLayout (m.putBytes a bs) m') (wf : m.wf = true) :
    (∀ i b, bs[i]? = some b → m'.byte (a + i) = b) ∧ ∀ y, ¬(a ≤ y ∧ y < a + bs.length) → m'.byte y = m.byte y := by
  refine ⟨fun i b at_i => ?_, fun y out => ?_⟩
  · obtain ⟨inside, at_i⟩ := List.getElem?_eq_some_iff.1 at_i
    rw [layout.byte, Memory.byte_putBytes_inside bs m a i wf inside, at_i]
  · rw [layout.byte, Memory.byte_putBytes_other bs m a y (by omega)]

theorem mine_idle {s : State} {r : RegionId} (fresh : ∀ d, ∀ e ∈ (s.die d).bw, e.region = r → e.going = false) (d : DieId) (e : BwEntry)
    (there : e ∈ (s.die d).bw) : e.mine r = false := by
  by_cases own : e.region = r
  · rw [BwEntry.mine, fresh d e there own, Bool.and_false]
  · rw [BwEntry.mine, beq_false_of_ne own, Bool.false_and]

theorem reachCommits (s : State) (r : RegionId) (x : Reach) (rest : List Reach) : let g := s.rg r
    g.reaches = x :: rest → g.tides = true → s.halted r = false →
    (∀ z, x.closed = some z → s.clasps = [] →
      (s.cycle < z + 900 → exec (.reachCommit r) s = .next s) ∧
      (z + 900 ≤ s.cycle → ∃ s', exec (.reachCommit r) s = .next s' ∧ (s'.rg r).ctide = (x.n + 1) % 2 ^ 32 ∧ (s'.rg r).reaches = rest ∧
        fld (s'.rg r).tidestat 32 3 = 0 ∧
        ((∀ d, ∀ e ∈ (s.die d).bw, e.region = r → e.going = false ∧ (e.timed = false → x.n < e.reach)) → s'.mem = s.mem) ∧
        (∀ e id a bs gl cls p, SafeState s → s.mem.bad = [] → (∀ d, ∀ e ∈ (s.die d).bw, e.region = r → e.going = false) → (s.takeEntries fun e => e.region == r && !e.timed && decide (e.reach ≤ x.n)).1 = [e] →
          e.kind = .store id a bs gl cls p → (∀ w, s.isHeld w = false) →
          (∀ i b, bs[i]? = some b → s'.mem.byte (a + i) = b) ∧ ∀ y, ¬(a ≤ y ∧ y < a + bs.length) → s'.mem.byte y = s.mem.byte y))) := by
  intro g oldest tides running z closed alone
  have ready := commitReady_eq oldest tides running closed
  have due := commitDue_eq oldest alone
  refine ⟨fun early => ?_, fun late => ?_⟩
  · rw [ready, if_neg (by simpa using early)] at due
    rw [exec_reachCommit, State.commitFirst, due]
    rfl
  · rw [ready, if_pos (decide_eq_true late)] at due
    obtain ⟨ctide, reaches, count, mem⟩ := commitReach_rg s r x.n
    have out : exec (.reachCommit r) s = .next ((s.commitReach r x.n).unclasped [(r.val, x.n)]) := by
      rw [exec_reachCommit, State.commitFirst, due]
      rfl
    refine ⟨_, out, ctide, ?_, count, fun idle => ?_, fun e id a bs gl cls p safe sound fresh one kind unheld => ?_⟩
    · exact reaches.trans (by rw [oldest]; rfl)
    · refine mem.trans (commitEntries_idle (entries_eq_nil.2 fun d e there => ?_) (entries_eq_nil.2 fun d e there => ?_))
      · by_cases own : e.region = r
        · obtain ⟨-, later⟩ := idle d e there own
          cases timed : e.timed with
          | true => rw [Bool.not_true, Bool.false_and, Bool.and_false]
          | false => rw [decide_eq_false (Nat.not_le.2 (later timed)), Bool.and_false, Bool.and_false]
        · rw [beq_false_of_ne own, Bool.false_and]
      · exact mine_idle (fun d e there own => (idle d e there own).1) d e there
    · have one : s.entries (fun e => e.region == r && (!e.timed && decide (e.reach ≤ x.n))) = [e] := by
        simp only [← Bool.and_assoc]
        exact sortBy_eq_singleton one
      obtain ⟨layout, -⟩ := commitEntries_one kind one fresh (fun _ => rfl) sound unheld
      rw [← mem] at layout
      exact layout.putBytes_byte safe

theorem reachCloses (s : State) (r : RegionId) (x : Reach) (rest : List Reach) : let g := s.rg r
    g.reaches = x :: rest → g.tides = true → s.halted r = false →
    (x.closed = none → x.n + 1 < g.tnext → (∀ f, g.live f = true → s.facetClosed r f x.n = true) →
      (∀ q ∈ s.reqs, q.owes r x.n = false) → (∀ f, g.unbalanced x f = false) →
      ∃ s', exec (.reachClose r) s = .next s' ∧ OnlyRegion s s' r ∧ s'.rg r = { g with reaches := { x with closed := some s.cycle } :: rest }) ∧
    (x.closed = none → (∃ f, g.live f = true ∧ s.facetClosed r f x.n = false) → exec (.reachClose r) s = .next s) := by
  intro g oldest tides running
  have out := reachClose_eq (s := s) oldest
  refine ⟨fun open_ earlier closed settled balanced => ?_, fun open_ ⟨f, live, late⟩ => ?_⟩
  · have facets : (List.finRange 4).all (fun f => !(s.rg r).live f || s.facetClosed r f x.n) = true := by
      refine List.all_eq_true.2 fun f _ => ?_
      cases live : (s.rg r).live f with
      | true => exact closed f live
      | false => rfl
    have owed : s.reqs.any (fun q => q.owes r x.n) = false := List.any_eq_false.2 fun q there => by rw [settled q there]; exact Bool.false_ne_true
    have even : (List.finRange 4).find? ((s.rg r).unbalanced x) = none :=
      List.find?_eq_none.2 fun f _ => by rw [show (s.rg r).unbalanced x f = false from balanced f]; exact Bool.false_ne_true
    rw [facets, owed, even, tides, running, open_, decide_eq_true earlier] at out
    have closes : exec (.reachClose r) s = .next (s.modRg r fun g => { g with reaches := { x with closed := some s.cycle } :: rest }) := out
    exact ⟨_, closes, s.modRg_only r _, s.modRg_rg_same r _⟩
  · have facets : (List.finRange 4).all (fun f => !(s.rg r).live f || s.facetClosed r f x.n) = false :=
      List.all_eq_false.2 ⟨f, List.mem_finRange f, by rw [show (s.rg r).live f = true from live, late]; exact Bool.false_ne_true⟩
    exact out.trans (when_of_false (by rw [facets, Bool.and_false, Bool.false_and]))

/-- Stores that a region made while no tide ran commit by time (R386). -/
theorem timedCommits (s : State) (r : RegionId) : SafeState s → s.frozen r = false → (s.rg r).rollback = none →
    (∀ d, ∀ e ∈ (s.die d).bw, e.region = r → e.going = false) →
    let due := s.takeEntries fun e => e.region == r && e.timed && decide (e.at_ + 900 ≤ s.cycle)
    (due.1 = [] → ∃ s', exec (.timedCommit r) s = .next s' ∧ s'.mem = s.mem) ∧
    (∀ e id a bs gl cls p, s.mem.bad = [] → due.1 = [e] → e.kind = .store id a bs gl cls p → (∀ w, s.isHeld w = false) →
      ∃ s', exec (.timedCommit r) s = .next s' ∧ (∀ i b, bs[i]? = some b → s'.mem.byte (a + i) = b) ∧
        (∀ y, ¬(a ≤ y ∧ y < a + bs.length) → s'.mem.byte y = s.mem.byte y) ∧ ∀ d, e ∉ (s'.die d).bw) := by
  intro safe thawed standing fresh due
  have idle : s.entries (BwEntry.mine r) = [] := entries_eq_nil.2 (mine_idle fresh)
  have out : exec (.timedCommit r) s = .next (State.forgetTimed (s.commitEntries r fun e => e.timed && decide (e.at_ + 900 ≤ s.cycle)) r s.cycle) := by
    have runs : (!(s.rg r).tides && (s.rg r).rollback.isSome) = false := by rw [standing]; exact Bool.and_false _
    rw [exec_timedCommit, execTimedCommit]
    dsimp only
    rw [when_of_true (by rw [thawed]; rfl), if_neg (by rw [runs]; exact Bool.false_ne_true), flushGoing_idle idle]
    rfl
  have entries : s.entries (fun e => e.region == r && (e.timed && decide (e.at_ + 900 ≤ s.cycle))) =
      s.entries (fun e => e.region == r && e.timed && decide (e.at_ + 900 ≤ s.cycle)) := by simp only [Bool.and_assoc]
  refine ⟨fun none => ⟨_, out, ?_⟩, fun e id a bs gl cls p sound one kind unheld => ?_⟩
  · rw [forgetTimed_mem]
    exact commitEntries_idle (entries.trans (sortBy_eq_nil.1 none)) idle
  · obtain ⟨layout, left⟩ := commitEntries_one kind (entries.trans (sortBy_eq_singleton one)) fresh (fun _ => rfl) sound unheld
    obtain ⟨inside, outside⟩ := layout.putBytes_byte safe
    refine ⟨_, out, ?_, ?_, fun d => ?_⟩
    · rw [forgetTimed_mem]
      exact inside
    · rw [forgetTimed_mem]
      exact outside
    · rw [forgetTimed_die]
      exact left d

/-- Settles O53: marks enter, are taken and pass on as `tideMarks` says; reaches close and commit, and timed stores commit, by the entries that are due. -/
theorem tides : Obligations.Tides :=
  ⟨tideMarks, fun s r x rest oldest tides running =>
    ⟨(reachCloses s r x rest oldest tides running).1, (reachCloses s r x rest oldest tides running).2, reachCommits s r x rest oldest tides running⟩,
    timedCommits⟩
end Sys2Proof.Machine
end

section
/-! O55. Why the statement about saves and restores fails (R221, R394): a restore clears its facet as a load does, a cleared facet's watches leave
their homes, and a watch that leaves a mooring list closes the chain over its entry, in memory. -/

namespace Sys2Proof.Machine

theorem exec_preemptRestore (r : RegionId) (v : Word) (s : State) : exec (.preemptRestore r v) s = execPreemptRestore r v s := rfl

/-- The cells of a context image's header for a 4 by 4 region at byte 0, and those of the tables that map it: the root at 0x10000 names the node
at 0x12000, whose entry 0 is a leaf. -/
def headerCells : List Host.Cell :=
  [(0, 0x9D), (1, 0x7E), (2, 1), (0x20, 4), (0x21, 4), (0x10000, 1), (0x10001, 0x20), (0x10002, 1), (0x12000, 0x73), (0x12001, 2)]
/-- A request on the mooring list of region 0. -/
def listedReq (id form : Nat) : Req :=
  { id := id, src := .elem ⟨0, 0⟩ 0 0 0, form := form, loc := 0, addr := mtBase ⟨1, 0⟩, size := 8, region := some 0, die := 0, facet := 0, reach := 0,
    stage := .listed }
/-- All facets of region 0 are quiet and none is loaded; on its mooring list stand a read and, behind it, the watch of a handler of facet 0 of
tile (0, 0). -/
def listedWatch : State :=
  let s := State.reset.modRg 0 fun g => { g with geom := 0x84040000, ctl := 0xF01, trr := 0x10001 }
  { s.modEl ⟨0, 0⟩ (fun e => { e with moors := [⟨8, 0, 0, true, some 7⟩] }) with
    mem := { Memory.empty with cells := headerCells }, reqs := [listedReq 6 2, listedReq 7 0xA] }

theorem listedWatch_mayRestore : let g := listedWatch.rg 0
    bit (3 : Word) 1 = true ∧ bit (3 : Word) 0 = true ∧ g.preState = 0 ∧ (Fin.ofNat 4 (fld (3 : Word) 2 2) : Facet) = 0 ∧
    g.fquiet 0 = true ∧ g.floaded 0 = false ∧ g.valid = true ∧ bit g.lqstat 6 = false := by decide +kernel
/-- The header at CTX is that of a context image of the region's size. -/
def HeaderOf (g : Region) (h : List Byte × List Bool) : Prop :=
  bits (get8 h.1 0) 0 16 = 0x7E9D ∧ bits (get8 h.1 0) 16 8 = 1 ∧ bits (get8 h.1 0x20) 0 8 = g.w ∧ bits (get8 h.1 0x20) 8 6 = g.h
theorem listedWatch_header : ∃ h, listedWatch.imageBlocks 0 (listedWatch.rg 0).ctxVa 1 = some h ∧ HeaderOf (listedWatch.rg 0) h := by
  have all : (listedWatch.imageBlocks 0 (listedWatch.rg 0).ctxVa 1).any fun h => bits (get8 h.1 0) 0 16 == 0x7E9D && bits (get8 h.1 0) 16 8 == 1 &&
      bits (get8 h.1 0x20) 0 8 == (listedWatch.rg 0).w && bits (get8 h.1 0x20) 8 6 == (listedWatch.rg 0).h := by decide +kernel
  obtain ⟨h, found, fits⟩ := (Option.any_eq_true _ _).1 all
  simp only [Bool.and_eq_true, beq_iff_eq] at fits
  obtain ⟨⟨⟨magic, version⟩, width⟩, height⟩ := fits
  exact ⟨h, found, magic, version, width, height⟩

/-- The restore writes NEXT of the entry before the watch's. -/
theorem listedWatch_writes : ∀ s', exec (.preemptRestore 0 3) listedWatch = .next s' → s'.mem.byte 24 = 0xFF := by
  intro s' run
  have step : exec (.preemptRestore 0 3) listedWatch =
      .next ((listedWatch.modRg 0 (·.writePre 3)).startRestore 0 (Fin.ofNat 4 (fld (3 : Word) 2 2)) (bit (3 : Word) 5)) := by
    rw [exec_preemptRestore, execPreemptRestore]
    refine congrArg Host.Outcome.next ?_
    rw [if_neg (by decide), if_pos (by decide +kernel)]
  have same := Host.Outcome.next.inj (step.symm.trans run)
  rw [← same]
  decide +kernel

/-- Refutes O55: the restore of a facet whose watch stands on a mooring list, behind another request of its bank, changes memory. -/
theorem not_preemption : ¬ Obligations.Preemption := by
  intro ⟨_, restore⟩
  obtain ⟨op, go, idle, facet, quiet, unloaded, valid, free⟩ := listedWatch_mayRestore
  obtain ⟨h, found, magic, version, width, height⟩ := listedWatch_header
  obtain ⟨-, starts⟩ := restore listedWatch 0 3
  obtain ⟨-, loads⟩ := starts op go (.inl idle)
  rw [facet] at loads
  obtain ⟨s', p, run, -, -, -, -, -, -, mem⟩ := loads h quiet unloaded valid free found magic version width height
  have after := listedWatch_writes s' run
  rw [mem] at after
  exact absurd after (by decide +kernel)
end Sys2Proof.Machine
end

section
/-! SUPPORT. What the links do to memory (R213 to R217, R251): a write that names no page, and a read of committed bytes where no bit has flipped and
nothing is poisoned. -/

namespace Sys2Proof.Machine

/-! Writes that name no page (R214, R217) -/

/-- The bytes of l stand at an address, and everywhere else the memory holds what it held; no tag has changed and no bit has flipped. -/
structure Wrote (m m' : Memory) (pa : Nat) (l : List Byte) : Prop where
  inside : ∀ i b, l[i]? = some b → m'.byte (pa + i) = b
  outside : ∀ y, ¬(pa ≤ y ∧ y < pa + l.length) → m'.byte y = m.byte y
  full : m'.full = m.full
theorem putBytes_frame (m : Memory) (a : Nat) (l : List Byte) : { m.putBytes a l with cells := m.cells } = m := by
  induction l generalizing m a with
  | nil => rfl
  | cons b l ih => exact (congrArg (fun x : Memory => { x with cells := m.cells }) (ih (m.putByte a b) (a + 1)) :)
theorem putBytes_full (m : Memory) (a : Nat) (l : List Byte) : (m.putBytes a l).full = m.full := (congrArg Memory.full (putBytes_frame m a l) :)
theorem putBytes_bad (m : Memory) (a : Nat) (l : List Byte) : (m.putBytes a l).bad = m.bad := (congrArg Memory.bad (putBytes_frame m a l) :)
theorem OnlyLayout.full {m m' : Memory} (h : OnlyLayout m m') : m'.full = m.full :=
  (congrArg Memory.full (show { m' with poison := m.poison, gl := m.gl } = m from h) :)

/-- The bytes of l from pa on that lie in a set of addresses are written. -/
def WrittenIn (P : Nat → Prop) (m m' : Memory) (pa : Nat) (l : List Byte) : Prop :=
  (∀ y, P y → pa ≤ y → y < pa + l.length → m'.byte y = l.getD (y - pa) 0) ∧ (∀ y, ¬(P y ∧ pa ≤ y ∧ y < pa + l.length) → m'.byte y = m.byte y) ∧
  m'.full = m.full ∧ m'.bad = []
section
variable {m : Memory} (wf : m.wf = true) (sound : m.bad = []) (pa : Nat) (l : List Byte) (gl : Nat) (poison : Bool)
include wf sound
/-- The part of a write that lies in one block of 32 bytes. -/
theorem devWrite_piece (b : Nat) :
    WrittenIn (fun y => b ≤ y ∧ y < b + 32) m (m.devWrite (max pa b) ((l.drop (b - pa)).take (b + 32 - max pa b)) gl poison) pa l := by
  have layout := Memory.devWrite_putBytes sound (max pa b) ((l.drop (b - pa)).take (b + 32 - max pa b)) gl poison
  have size : ((l.drop (b - pa)).take (b + 32 - max pa b)).length = min (b + 32 - max pa b) (l.length - (b - pa)) := by simp
  obtain ⟨inside, outside⟩ := layout.putBytes_byte wf
  refine ⟨fun y ⟨low, high⟩ after before => ?_, fun y out => outside y fun ⟨low, high⟩ => out ?_, layout.full.trans (putBytes_full ..), layout.bad.trans ((putBytes_bad ..).trans sound)⟩
  · have stands : ((l.drop (b - pa)).take (b + 32 - max pa b))[y - max pa b]? = some (l.getD (y - pa) 0) := by
      rw [List.getElem?_take_of_lt (by omega), List.getElem?_drop, show b - pa + (y - max pa b) = y - pa by omega,
        List.getElem?_eq_getElem (by omega), List.getD_eq_getElem _ _ (by omega)]
    have := inside _ _ stands
    rwa [show max pa b + (y - max pa b) = y by omega] at this
  · rw [size] at high
    omega
theorem devWrite_pieces (blocks : List Nat) :
    WrittenIn (fun y => ∃ b ∈ blocks, b ≤ y ∧ y < b + 32) m
      (blocks.foldl (fun m b => m.devWrite (max pa b) ((l.drop (b - pa)).take (b + 32 - max pa b)) (m.glAt b) poison) m) pa l := by
  induction blocks generalizing m with
  | nil => exact ⟨fun y ⟨b, there, _⟩ => absurd there List.not_mem_nil, fun _ _ => rfl, rfl, sound⟩
  | cons b blocks ih =>
    obtain ⟨inside, outside, full, sound'⟩ := devWrite_piece wf sound pa l (m.glAt b) poison b
    obtain ⟨inside', outside', full', sound''⟩ := ih (Memory.devWrite_wf wf ..) sound'
    refine ⟨fun y ⟨c, there, here⟩ after before => ?_, fun y out => ?_, full'.trans full, sound''⟩
    · by_cases later : ∃ b ∈ blocks, b ≤ y ∧ y < b + 32
      · exact inside' y later after before
      · rw [List.foldl_cons, outside' y fun ⟨here, _⟩ => later here]
        refine inside y ?_ after before
        rcases List.mem_cons.1 there with rfl | there
        · exact here
        · exact absurd ⟨c, there, here⟩ later
    · rw [List.foldl_cons, outside' y fun ⟨⟨c, there, here⟩, range⟩ => out ⟨⟨c, List.mem_cons_of_mem _ there, here⟩, range⟩,
        outside y fun ⟨here, range⟩ => out ⟨⟨b, List.mem_cons_self .., here⟩, range⟩]
/-- A write that names no page writes its bytes, whatever layouts its granules have. -/
theorem plainWrite_wrote : Wrote m (m.plainWrite pa l poison) pa l := by
  unfold Memory.plainWrite
  dsimp only
  split
  · have layout := Memory.devWrite_putBytes sound pa l (m.glAt pa) poison
    obtain ⟨inside, outside⟩ := layout.putBytes_byte wf
    exact ⟨inside, outside, layout.full.trans (putBytes_full ..)⟩
  · obtain ⟨inside, outside, full, -⟩ := devWrite_pieces wf sound pa l poison (blocksOf pa l.length 32)
    refine ⟨fun i b at_i => ?_, fun y out => outside y fun ⟨_, range⟩ => out range, full⟩
    obtain ⟨short, at_i⟩ := List.getElem?_eq_some_iff.1 at_i
    have block : ∃ b ∈ blocksOf pa l.length 32, b ≤ pa + i ∧ pa + i < b + 32 := by
      refine ⟨(pa + i) / 32 * 32, List.mem_map.2 ⟨(pa + i) / 32 - pa / 32, List.mem_range.2 ?_, ?_⟩, ?_⟩ <;> omega
    rw [inside _ block (by omega) (by omega), Nat.add_sub_cancel_left, List.getD_eq_getElem _ _ short, at_i]
end

/-! Reads of committed bytes (R251) -/

theorem bytesOf_ofBytes (l : List Byte) : bytesOf l.length (ofBytes l) = l := by
  induction l with
  | nil => rfl
  | cons b l ih =>
    have small := b.isLt
    rw [List.length_cons, bytesOf, ofBytes, Nat.add_mul_div_left _ _ (by decide), Nat.div_eq_of_lt small, Nat.zero_add, ih]
    congr 1
    apply BitVec.eq_of_toNat_eq
    rw [BitVec.toNat_ofNat]
    omega

section
variable {m : Memory} (sound : m.bad = []) (pure_ : m.poison = [])
include sound pure_
/-- Where no bit has flipped and nothing is poisoned, a conversion changes the layout alone (R217). -/
theorem convert_pure (pa gl : Nat) : ∃ g, m.convert pa gl = { m with gl := g } := by
  unfold Memory.convert
  dsimp only
  split
  · exact ⟨m.gl, rfl⟩
  · have lost : ((burstsOf pa (m.unitOf pa gl)).filter fun b => (m.check (32 * b)).2.contains b) = [] :=
      List.filter_eq_nil_iff.2 fun b _ => by rw [Memory.check_sound sound]; exact Bool.false_ne_true
    rw [lost, Memory.rewrite_sound sound]
    refine ⟨_, List.foldlRecOn (motive := fun x : Memory => x = { m with gl := _ }) _ _ rfl fun x same p _ => ?_⟩
    have clean : ¬x.blockPoison p (granBytes gl) = true := by
      rw [same, Memory.blockPoison, pure_]
      simp
    rw [if_neg clean, same]
theorem readHbm_pure (pa size gl : Nat) : ∃ g, m.readHbm pa size gl = ({ m with gl := g }, 0, false, []) := by
  have laid : ∃ g, (blocksOf pa size 32).foldl (fun m p => m.convert p gl) m = { m with gl := g } := by
    refine List.foldlRecOn (motive := fun x : Memory => ∃ g, x = { m with gl := g }) _ _ ⟨m.gl, rfl⟩ fun x ⟨g, same⟩ p _ => ?_
    obtain ⟨g', converted⟩ := convert_pure (m := x) (by rw [same]; exact sound) (by rw [same]; exact pure_) p gl
    exact ⟨g', by rw [converted, same]⟩
  obtain ⟨g, laid⟩ := laid
  have checks : (m.granules pa size).map m.check = (m.granules pa size).map fun _ => (0, []) :=
    List.map_congr_left fun p _ => Memory.check_sound sound p
  refine ⟨g, ?_⟩
  unfold Memory.readHbm
  dsimp only
  rw [laid, checks]
  simp
end
end Sys2Proof.Machine
end

section
/-! O58, first part. Host accesses to memory and to the base address registers (R5, R251, R429 to R431, R453). -/

namespace Sys2Proof.Machine

theorem exec_hostRead (io : Fin 2) (path : HostPath) (pa : BitVec 52) (s : State) : exec (.hostRead io path pa) s =
    when_ s (s.linkUp io)
      (if path = .bar0 then s.barRead pa.toNat else if path = .bar4 then s.bar4Read io pa.toNat else s.hostMemRead io path pa) := rfl
theorem exec_hostWrite (io : Fin 2) (path : HostPath) (pa : BitVec 52) (l : List Byte) (p : Bool) (s : State) :
    exec (.hostWrite io path pa l p) s = execHostWrite io path pa l p s := rfl

section
variable {s : State} {io : Fin 2}
theorem linkUp_of (h : s.recovery = false ∨ io = 0) : s.linkUp io = true := by
  rcases h with h | h
  · rw [State.linkUp, h]
    rfl
  · rw [State.linkUp, h]
    exact Bool.or_true _
/-- In recovery mode link 1 carries nothing (R453). -/
theorem linkDown (recovering : s.recovery = true) (one : io = 1) : s.linkUp io = false := by
  rw [State.linkUp, recovering, one]
  rfl

/-! BAR4 (R429) -/

theorem bar4_written (x : IoDie) (off : Nat) (l : List Byte) :
    let x' : IoDie := { x with bar4 := l.zipIdx.foldl (fun t b => tset t (off + b.2) b.1) x.bar4 }
    (∀ i b, l[i]? = some b → x'.bar4Byte (off + i) = b) ∧ ∀ y, ¬(off ≤ y ∧ y < off + l.length) → x'.bar4Byte y = x.bar4Byte y := by
  intro x'
  suffices all : ∀ (n : Nat) (t : Tab Byte) (d : Nat → Byte),
      (∀ i b, l[i]? = some b → tget ((l.zipIdx n).foldl (fun t b => tset t (off + b.2) b.1) t) (off + n + i) (d (off + n + i)) = b) ∧
      ∀ y, ¬(off + n ≤ y ∧ y < off + n + l.length) → tget ((l.zipIdx n).foldl (fun t b => tset t (off + b.2) b.1) t) y (d y) = tget t y (d y) from
    all 0 x.bar4 fun i => if i < 16 * 78 ∧ i % 16 = 12 then 1 else 0
  clear x'
  induction l with
  | nil => exact fun n t d => ⟨fun i b none => by simp at none, fun y _ => rfl⟩
  | cons c l ih =>
    intro n t d
    obtain ⟨inside, outside⟩ := ih (n + 1) (tset t (off + n) c) d
    rw [List.zipIdx_cons, List.foldl_cons]
    refine ⟨fun i b at_i => ?_, fun y out => ?_⟩
    · cases i with
      | zero =>
        rw [outside _ (by omega), Nat.add_zero, tget_tset_same]
        exact Option.some.inj at_i
      | succ i =>
        have := inside i b at_i
        rwa [show off + (n + 1) + i = off + n + (i + 1) by omega] at this
    · rw [List.length_cons] at out
      rw [outside y (by omega), tget_tset_other _ _ _ _ _ (by omega)]

/-! BAR0 (R5, R430) -/

/-- The first registers of a region's block, and two that are write-only (R430). -/
theorem readRegion_first (s : State) (r : RegionId) : let g := s.rg r
    ∀ x ∈ ([(0x000, g.geom), (0x010, g.ctl), (0x018, g.stat), (0x020, g.trr), (0x030, 0), (0x050, g.tide), (0x090, 0)] : List (Nat × Word)),
      x.1 < 0x10000 ∧ x.1 ≠ 0x078 ∧ s.readRegion r x.1 = some x.2 := by
  simp [State.readRegion, regionReg, State.readReg]
/-- A read of a register of a region's block, where no register is noted in a FIFO. -/
theorem barRead_region (up : s.recovery = false) (r : RegionId) {o : Nat} (inside : o < 0x10000) (noNotice : o ≠ 0x078) {v : Word}
    (reads : s.readRegion r o = some v) :
    s.barRead (0x100000 + 0x10000 * r.val + o) = { s with answer := v, out := .completion (bytesOf 8 v.toNat) false :: s.out } := by
  have low : (0x100000 + 0x10000 * r.val + o) % 0x10000 = o := by omega
  have block : (Fin.ofNat 32 ((0x100000 + 0x10000 * r.val + o - 0x100000) / 0x10000) : RegionId) = r := by
    rw [show (0x100000 + 0x10000 * r.val + o - 0x100000) / 0x10000 = r.val by omega]
    exact Fin.ofNat_val_eq_self r
  have range := r.isLt
  have notice : noticeAt (0x100000 + 0x10000 * r.val + o) = none := by
    rw [noticeAt, if_neg (by omega), if_neg (by omega)]
  have value : s.readBar (0x100000 + 0x10000 * r.val + o) = some v := by
    rw [State.readBar]
    rw [low, block, if_neg (by omega), if_neg (by omega), if_pos (by omega), reads]
  unfold State.barRead
  rw [up, notice, value]
  rfl

/-! Memory (R251, R431) -/

/-- What a link reads of a word where nothing is pending, flipped or poisoned. -/
theorem committedWord_plain (sound : s.mem.bad = []) (pure_ : s.mem.poison = []) (empty : ∀ d, (s.die d).bw = []) (w : Nat) :
    s.committedWord w = (s.mem.read (8 * w) 8, false) := by
  have shadows : s.shadowsOf w = [] := by rw [State.shadowsOf, empty]; rfl
  have clean : s.mem.isPoison (8 * w) = false := by
    rw [Memory.isPoison, pure_, Memory.lostWord, sound]
    rfl
  rw [State.committedWord, shadows, Memory.readSeen_sound sound, clean]
  rfl
theorem committedBytes_plain (sound : s.mem.bad = []) (pure_ : s.mem.poison = []) (empty : ∀ d, (s.die d).bw = []) (pa n : Nat) :
    s.committedBytes pa n = (List.range n).map fun i => s.mem.byte (pa + i) := by
  refine List.map_congr_left fun i _ => ?_
  have whole : bytesOf 8 (s.mem.read (8 * ((pa + i) / 8)) 8) = s.mem.bytes (8 * ((pa + i) / 8)) 8 :=
    bytesOf_ofBytes (s.mem.bytes (8 * ((pa + i) / 8)) 8)
  have inside : (pa + i) % 8 < (s.mem.bytes (8 * ((pa + i) / 8)) 8).length := Nat.mod_lt _ (by decide)
  rw [committedWord_plain sound pure_ empty, whole, List.getD_eq_getElem _ _ inside, Memory.getElem_bytes, Nat.div_add_mod]
theorem hostGet_plain (sound : s.mem.bad = []) (pure_ : s.mem.poison = []) (empty : ∀ d, (s.die d).bw = []) (a : Nat) :
    ∃ g ds, s.hostGet io a = { s with
      mem := { s.mem with gl := g }
      dies := ds
      out := .completion ((List.range 64).map fun i => s.mem.byte (a / 64 * 64 + i)) false :: s.out } := by
  obtain ⟨g, read⟩ := readHbm_pure sound pure_ (a / 64 * 64) 64 (s.mem.glAt (a / 64 * 64))
  let s' : State := { s with mem := { s.mem with gl := g } }.modDie (dieOfPa (a / 64 * 64)) fun x => { x with corrected := x.corrected + 0 }
  have empty' (d : DieId) : (s'.die d).bw = [] := by
    by_cases own : d = dieOfPa (a / 64 * 64)
    · rw [own, State.modDie_die_same]
      exact empty _
    · rw [State.modDie_die_other _ _ _ _ own]
      exact empty d
  have bytes := committedBytes_plain (s := s') sound pure_ empty' (a / 64 * 64) 64
  have poison : s'.committedPoison (a / 64 * 64) 64 = false :=
    List.any_eq_false.2 fun w _ => by rw [committedWord_plain (s := s') sound pure_ empty']; exact Bool.false_ne_true
  refine ⟨g, s'.dies, ?_⟩
  unfold State.hostGet
  dsimp only
  rw [read]
  dsimp only
  rw [show State.modDie _ _ _ = s' from rfl, poison, bytes]
  rfl

/-- The paths that reach memory are PCIe and CXL.mem (R431). -/
theorem hostPa_path {path : HostPath} {n a : Nat} (found : s.hostPa io path n = some a) : path ≠ .bar0 ∧ path ≠ .bar4 := by
  refine ⟨?_, ?_⟩ <;> rintro rfl <;> cases found
section
variable {path : HostPath} {pa : BitVec 52} (up : s.linkUp io = true) (notBar4 : path ≠ .bar4)
include up notBar4
theorem hostRead_memory (notBar0 : path ≠ .bar0) : exec (.hostRead io path pa) s = .next (s.hostMemRead io path pa) := by
  rw [exec_hostRead, when_of_true up, if_neg notBar0, if_neg notBar4]
theorem hostWrite_nowhere (none : s.hostPa io path pa.toNat = none) (l : List Byte) (p : Bool) : exec (.hostWrite io path pa l p) s = .next s := by
  rw [exec_hostWrite, execHostWrite, up, if_neg notBar4, none]
  rfl
/-- A write that reaches HBM is refused where the deny map refuses an end of it, and put otherwise (R431). -/
theorem hostWrite_memory {a : Nat} (found : s.hostPa io path pa.toNat = some a) {l : List Byte} (some_ : l ≠ [])
    (hbm : isHbm (a + l.length - 1) = true) (p : Bool) : exec (.hostWrite io path pa l p) s =
      if s.denied io a || s.denied io (a + l.length - 1) then .next (s.hlerrCount io 0 a) else .next (s.hostPut a l p) := by
  have takes : (!isHbm (a + l.length - 1) || l.isEmpty) = false := by
    rw [hbm, List.isEmpty_eq_false_iff.2 some_]
    rfl
  rw [exec_hostWrite, execHostWrite, up, if_neg notBar4, found]
  dsimp only
  rw [takes]
  rfl
end
end

/-- Settles the first part of O58. -/
theorem hostAccess : HostAccess := by
  intro s io path pa
  refine ⟨fun recovering one => ?_, fun trained => ?_⟩
  · have down := linkDown recovering one
    refine ⟨by rw [exec_hostRead]; exact when_of_false down, fun l p => ?_⟩
    rw [exec_hostWrite, execHostWrite, down]
    rfl
  have up := linkUp_of trained
  refine ⟨fun none notBar4 => ⟨fun notBar0 => ?_, fun l p => hostWrite_nowhere up notBar4 none l p⟩, fun l p fits => ?_, fun fits => ?_, fun r => ?_,
    fun pcie low => ?_, fun pcie high => ?_, fun a found => ⟨fun denied => ⟨fun pcie => ?_, fun l p some_ hbm => ?_⟩, fun allowed sound pure_ empty => ?_,
      fun l p safe sound some_ hbm first last => ?_⟩⟩
  · rw [hostRead_memory up notBar4 notBar0, State.hostMemRead, none]
    rfl
  · have run : exec (.hostWrite io .bar4 pa l p) s =
        .next (s.modIo io fun x => { x with bar4 := l.zipIdx.foldl (fun t b => tset t (pa.toNat + b.2) b.1) x.bar4 }) := by
      rw [exec_hostWrite, execHostWrite, up, if_pos rfl, State.bar4Write, if_pos fits]
      rfl
    obtain ⟨inside, outside⟩ := bar4_written (s.io io) pa.toNat l
    refine ⟨_, run, rfl, ?_, ?_⟩ <;> rw [State.modIo_io_same]
    · exact inside
    · exact outside
  · refine ⟨(List.range 8).map fun i => (s.io io).bar4Byte (pa.toNat + i), ?_, by simp, fun i b at_i => ?_⟩
    · rw [exec_hostRead, when_of_true up, if_neg (by decide), if_pos rfl, State.bar4Read, if_pos fits]
      rfl
    · obtain ⟨short, at_i⟩ := List.getElem?_eq_some_iff.1 at_i
      rw [← at_i, List.getElem_map, List.getElem_range]
  · have reads {o : Nat} {v : Word} (here : pa.toNat = 0x100000 + 0x10000 * r.val + o) (up0 : s.recovery = false) (inside : o < 0x10000)
        (noNotice : o ≠ 0x078) (value : s.readRegion r o = some v) : exec (.hostRead io .bar0 pa) s =
          .next { s with answer := v, out := .completion (bytesOf 8 v.toNat) false :: s.out } := by
      rw [exec_hostRead, when_of_true up, if_pos rfl, here, barRead_region up0 r inside noNotice value]
    intro g x among up0 here
    obtain ⟨inside, noNotice, value⟩ := readRegion_first s r x among
    exact reads here up0 inside noNotice value
  · rw [pcie]
    exact if_pos low
  · rw [pcie]
    exact if_neg (Nat.not_lt.2 high)
  · obtain ⟨notBar0, notBar4⟩ := hostPa_path found
    refine ⟨_, hostRead_memory up notBar4 notBar0, ?_, ?_⟩ <;> rw [State.hostMemRead, found] <;> dsimp only <;> rw [if_pos denied, if_pos pcie] <;> rfl
  · obtain ⟨-, notBar4⟩ := hostPa_path found
    have run := hostWrite_memory up notBar4 found some_ hbm p
    rw [denied, Bool.true_or, if_pos rfl] at run
    exact ⟨_, run, rfl⟩
  · obtain ⟨notBar0, notBar4⟩ := hostPa_path found
    obtain ⟨g, ds, got⟩ := hostGet_plain (io := io) sound pure_ empty a
    have run : exec (.hostRead io path pa) s = .next (s.hostGet io a) := by
      rw [hostRead_memory up notBar4 notBar0, State.hostMemRead, found]
      dsimp only
      rw [if_neg (by rw [allowed]; exact Bool.false_ne_true)]
    rw [got] at run
    refine ⟨_, _, run, rfl, by simp, fun i b at_i => ?_, rfl, rfl, rfl⟩
    obtain ⟨short, at_i⟩ := List.getElem?_eq_some_iff.1 at_i
    rw [← at_i, List.getElem_map, List.getElem_range]
  · obtain ⟨-, notBar4⟩ := hostPa_path found
    have run := hostWrite_memory up notBar4 found some_ hbm p
    rw [first, last, Bool.or_self, if_neg Bool.false_ne_true] at run
    have wrote := plainWrite_wrote safe sound a l p
    exact ⟨_, run, wrote.inside, wrote.outside, wrote.full, rfl, rfl⟩
end Sys2Proof.Machine
end

section
/-! O58, second part. Frames of fronthaul that enter and leave (R437, R438). -/

namespace Sys2Proof.Machine

theorem exec_fronthaulFrameReceive (io : Fin 2) (fr : EthFrame) (s : State) : exec (.fronthaulFrameReceive io fr) s =
    when_ s (fr.fcsGood && flowClaims fr.bytes && ecpriOk fr.bytes) (s.fronthaulIn io fr) := rfl
theorem exec_fronthaulEgress (io : Fin 2) (r : RegionId) (p : Fin 64) (s : State) : exec (.fronthaulEgress io r p) s =
    execFronthaulEgress io r p s := rfl

/-! The burst of a frame (R437) -/

theorem be16_lt (l : List Byte) (i : Nat) : be16 l i < 2 ^ 16 := by
  have high := (l.getD i 0).isLt
  have low := (l.getD (i + 1) 0).isLt
  rw [be16]
  omega
/-- The tag of a token of a burst: data of facet 0, with its head and tail bits. -/
theorem burstTag_bits (head tail : Bool) : bit (mkTag 0 kData false head tail false) 2 = head ∧ bit (mkTag 0 kData false head tail false) 1 = tail := by
  cases head <;> cases tail <;> decide
theorem burstToks_head (x : Word) (l : List Word) : ∃ h, (burstToks (x :: l)).head? = some h ∧ h.head = true ∧ h.payload = x := by
  refine ⟨_, rfl, ?_, rfl⟩
  rw [Token.head]
  exact (burstTag_bits true _).1
theorem burstToks_tail (l : List Word) (k : Token) (last : (burstToks l).getLast? = some k) : k.tail = true := by
  have shape : burstToks l = l.zipIdx.map fun x => ⟨x.1, mkTag 0 kData false (x.2 == 0) (x.2 + 1 == l.length) false⟩ := rfl
  rw [shape, List.getLast?_map, Option.map_eq_some_iff] at last
  obtain ⟨x, last, rfl⟩ := last
  rw [List.getLast?_eq_getElem?, List.getElem?_zipIdx, Option.map_eq_some_iff] at last
  obtain ⟨y, there, rfl⟩ := last
  obtain ⟨short, -⟩ := List.getElem?_eq_some_iff.1 there
  rw [List.length_zipIdx] at short
  rw [Token.tail, (burstTag_bits _ _).2, List.length_zipIdx, beq_iff_eq]
  omega
/-- The header token of a frame's burst: the channel, and the time of arrival (R437). -/
theorem frameBurst_head (fr : EthFrame) : ∃ h, (frameBurst fr).head? = some h ∧ h.head = true ∧
    fld h.payload 0 16 = be16 fr.bytes (typeAt fr.bytes + 6) ∧ fld h.payload 32 32 = fr.time.toNat % 2 ^ 32 := by
  obtain ⟨h, first, head, payload⟩ := burstToks_head _ _
  refine ⟨h, first, head, ?_, ?_⟩ <;> rw [payload, fld_ofNat (by decide)]
  all_goals
    have channel := be16_lt fr.bytes (typeAt fr.bytes + 6)
    have size := (fr.bytes.getD (typeAt fr.bytes + 8) 0).isLt
    have type := (fr.bytes.getD (typeAt fr.bytes + 3) 0).isLt
    generalize be16 fr.bytes (typeAt fr.bytes + 6) = a at *
    generalize (fr.bytes.getD (typeAt fr.bytes + 8) 0).toNat = b at *
    generalize (fr.bytes.getD (typeAt fr.bytes + 3) 0).toNat = c at *
    omega

section
variable {s : State} {io : Fin 2} {fr : EthFrame}
theorem fronthaulIn_flow {e : Nat} {w : Word} (found : (s.io io).flow.find? (fun x => flowMatches x.2 fr) = some (e, w)) : s.fronthaulIn io fr =
    if s.siteFaces io (Fin.ofNat 32 (fld w 35 5)) (fld w 40 6) && decide (s.bufferUse io fr.port + 8 * (frameBurst fr).length ≤ 4194304) then
      s.linkIn io (fld w 35 5) (fld w 40 6) (frameBurst fr)
    else s := by
  rw [State.fronthaulIn, found]
theorem linkIn_inbox (r p : Nat) (l : List Token) : tget ((s.linkIn io r p l).io io).inbox (64 * r + p) [] =
    tget (s.io io).inbox (64 * r + p) [] ++ l := by
  rw [State.linkIn, State.modIo_io_same, tmod, tget_tset_same]
end

/-! The frame of a burst (R438) -/

theorem length_flatMap_bytesOf (n : Nat) {α : Type} (h : α → Nat) (l : List α) : (l.flatMap fun k => bytesOf n (h k)).length = n * l.length := by
  simp only [List.length_flatMap, length_bytesOf, List.map_const', List.sum_replicate, smul_eq_mul, Nat.mul_comm]
theorem templateBytes_length (x : IoDie) (j : Nat) : (x.templateBytes j).length = 32 := by
  rw [IoDie.templateBytes, length_flatMap_bytesOf, List.length_range]
theorem burstFrame_length (x : IoDie) (l : List Token) : (x.burstFrame l).length = 32 + 8 + 8 * (l.length - 1) := by
  unfold IoDie.burstFrame
  dsimp only
  rw [List.length_append, List.length_append, templateBytes_length, length_flatMap_bytesOf, List.length_drop]
  rfl

/-- Settles the second part of O58. -/
theorem fronthaulFrames : FronthaulFrames := by
  refine ⟨fun s io fr => ⟨fun bad => ?_, fun good claims sound => ?_⟩, fun s io r p n => ?_⟩
  · have refused : (fr.fcsGood && flowClaims fr.bytes && ecpriOk fr.bytes) = false := by
      rcases bad with bad | bad | bad <;> rw [bad] <;> simp
    rw [exec_fronthaulFrameReceive, when_of_false refused]
  · have run : exec (.fronthaulFrameReceive io fr) s = .next (s.fronthaulIn io fr) := by
      rw [exec_fronthaulFrameReceive, when_of_true (by rw [good, claims, sound]; rfl)]
    refine ⟨fun none => by rw [run, State.fronthaulIn, none], fun e w found => ?_⟩
    have delivers := fronthaulIn_flow found
    extract_lets r p l fits
    refine ⟨fun room faces => ?_, fun out => ?_⟩
    · obtain ⟨h, first, head, channel, time⟩ := frameBurst_head fr
      rw [if_pos (by rw [faces, decide_eq_true room]; rfl)] at delivers
      rw [delivers] at run
      exact ⟨_, h, run, linkIn_inbox r p l, first, head, channel, time, burstToks_tail _, rfl⟩
    · rw [if_neg (fun both => by
        obtain ⟨faces, room⟩ := Bool.and_eq_true_iff.1 both
        rcases out with out | out
        · exact out (of_decide_eq_true room)
        · exact Bool.false_ne_true (out.symm.trans faces))] at delivers
      rw [run, delivers]
  · extract_lets key l
    intro last
    obtain ⟨short, -⟩ := List.findIdx?_eq_some_iff_getElem.1 last
    have run : exec (.fronthaulEgress io r p) s = when_ s (!bit (tget (s.io io).ttmap (2 * key) 0) 0)
        ((s.modIo io fun x => { x with outbox := tset x.outbox key (l.drop (n + 1)) }).frameOut io (Fin.ofNat 2 (fld (l.headD ⟨0, 0⟩).payload 32 1))
          ((s.io io).burstFrame (l.take (n + 1)))) := by
      have found : (tget (s.io io).outbox (linkKey r p.val) []).findIdx? Token.tail = some n := last
      rw [exec_fronthaulEgress, execFronthaulEgress]
      simp only [found]
      rfl
    refine ⟨fun claimed => run.trans (when_of_false (by rw [claimed]; rfl)), fun free => ?_⟩
    have some_ : l.head? = some (l.headD ⟨0, 0⟩) := by
      cases h : l with
      | nil => rw [h] at short; exact absurd short (Nat.not_lt_zero _)
      | cons k l => rfl
    refine ⟨_, _, _, run.trans (when_of_true (by rw [free]; rfl)), some_, ?_, rfl, ?_, rfl⟩
    · have left (a : State) (q : Fin 2) (b : List Byte) : (a.frameOut io q b).io io = a.io io := rfl
      rw [left, State.modIo_io_same, tget_tset_same]
    · rw [burstFrame_length, List.length_take]
      omega
end Sys2Proof.Machine
end

section
/-! O58, third part. The token transport (R439): data frames, their acknowledgements and what is sent again. -/

namespace Sys2Proof.Machine

theorem exec_ttRetransmit (io : Fin 2) (q : Fin 2048) (s : State) : exec (.ttRetransmit io q) s = execTtRetransmit io q s := rfl
theorem exec_ttDataFrameReceive (io : Fin 2) (fr : EthFrame) (s : State) : exec (.ttDataFrameReceive io fr) s =
    when_ s (fr.fcsGood && (s.io io).ttClaims fr.bytes && decide (0 < ttCount fr.bytes)) (s.ttIn io fr) := rfl
theorem exec_ttAckReceive (io : Fin 2) (fr : EthFrame) (s : State) : exec (.ttAckReceive io fr) s = execTtAckReceive io fr s := rfl

/-! The words of a frame (R439) -/

theorem ofBytes_bytesOf_8 (x : Nat) : BitVec.ofNat 64 (ofBytes (bytesOf 8 x)) = BitVec.ofNat 64 x := by
  apply BitVec.eq_of_toNat_eq
  rw [BitVec.toNat_ofNat, BitVec.toNat_ofNat, ofBytes_bytesOf, show (256 : Nat) ^ 8 = 2 ^ 64 by decide, Nat.mod_mod]
section
variable {pre : List Byte} (whole : pre.length = 32) (dst region ingp count src : Nat) (rst : Bool) (seq : Word) (rest : List Byte)
include whole
/-- The second word of a frame is its SEQ. -/
theorem ttWord_seq : ttWord (pre ++ ttHead dst region ingp count src rst seq ++ rest) 1 = seq := by
  have cut : ((pre ++ ttHead dst region ingp count src rst seq ++ rest).drop (headLen + 8 * 1)).take 8 = bytesOf 8 seq.toNat := by
    rw [ttHead, List.append_assoc, List.append_assoc, ← List.append_assoc, List.drop_left' (by rw [List.length_append, whole, length_bytesOf]; rfl),
      List.take_left' (length_bytesOf ..)]
  rw [ttWord, cut, ofBytes_bytesOf_8, BitVec.ofNat_toNat, BitVec.setWidth_eq]
/-- The first word of a frame counts its tokens. -/
theorem ttCount_frame (few : count < 128) : ttCount (pre ++ ttHead dst region ingp count src rst seq ++ rest) = count := by
  have cut : ((pre ++ ttHead dst region ingp count src rst seq ++ rest).drop (headLen + 8 * 0)).take 8 =
      bytesOf 8 (1 + dst % 2 ^ 16 * 2 ^ 8 + region % 32 * 2 ^ 24 + ingp % 64 * 2 ^ 29 + count * 2 ^ 35 + src % 2 ^ 16 * 2 ^ 42 + rst.toNat * 2 ^ 58) := by
    rw [ttHead, List.append_assoc, List.append_assoc, List.drop_left' (by rw [whole]; rfl), List.take_left' (length_bytesOf ..)]
  have flag : rst.toNat < 2 := by cases rst <;> decide
  rw [ttCount, ttWord, cut, ofBytes_bytesOf_8, fld_ofNat (by decide)]
  omega
end
theorem ttFrame_words (x : IoDie) (rst : Bool) (y : TtFrame) (few : y.toks.length < 128) :
    ttCount (x.ttFrame rst y) = y.toks.length ∧ ttWord (x.ttFrame rst y) 1 = y.seq :=
  ⟨ttCount_frame (templateBytes_length ..) _ _ _ _ _ _ _ _ few, ttWord_seq (templateBytes_length ..) ..⟩

/-! Sending (R439) -/

section
variable (s : State) (io : Fin 2)
theorem setSender_sender (x : IoDie) (q : Nat) (y : TtSend) : (x.setSender q y).sender q = y := tget_tset_same ..
/-- Frames that are sent again leave, and nothing else that is seen here changes. -/
theorem ttOuts (h : TtFrame → List Byte) (l : List TtFrame) : let s' := l.foldl (fun s z => s.ttOut io (h z)) s
    s'.out.length = s.out.length + l.length ∧ s'.io = s.io ∧ s'.mem = s.mem := by
  induction l generalizing s with
  | nil => exact ⟨rfl, rfl, rfl⟩
  | cons z l ih =>
    obtain ⟨out, ios, mem⟩ := ih (s.ttOut io (h z))
    exact ⟨by rw [List.foldl_cons, out, List.length_cons]; exact Nat.succ_add_eq_add_succ _ _, ios, mem⟩
end

/-! Receiving (R439) -/

/-- The acknowledgement of a frame has no tokens and carries the SEQ that is expected. -/
theorem ttAck_words (s : State) (io : Fin 2) {fr : EthFrame} (seq : Word) (long : 32 ≤ fr.bytes.length) :
    ∃ b, s.ttAck io fr seq = { s with out := .frame io fr.port b :: s.out } ∧ ttCount b = 0 ∧ ttWord b 1 = seq := by
  have pre : ((fr.bytes.drop 6).take 6 ++ fr.bytes.take 6 ++ (fr.bytes.drop 12).take (headLen - 12)).length = 32 := by
    simp only [List.length_append, List.length_take, List.length_drop, headLen]
    omega
  have count := ttCount_frame pre (fld (ttWord fr.bytes 0) 42 16) (fld (ttWord fr.bytes 0) 24 5) (fld (ttWord fr.bytes 0) 29 6) 0
    (fld (ttWord fr.bytes 0) 8 16) false seq [] (by decide)
  have number := ttWord_seq pre (fld (ttWord fr.bytes 0) 42 16) (fld (ttWord fr.bytes 0) 24 5) (fld (ttWord fr.bytes 0) 29 6) 0
    (fld (ttWord fr.bytes 0) 8 16) false seq []
  rw [List.append_nil] at count number
  exact ⟨_, rfl, count, number⟩
theorem ttClaims_long {x : IoDie} {l : List Byte} (claims : x.ttClaims l = true) : 32 ≤ l.length := by
  simp only [IoDie.ttClaims, Bool.and_eq_true] at claims
  obtain ⟨⟨⟨-, size⟩, -⟩, -⟩ := claims
  have size : 32 + 16 + 16 * ttCount l ≤ l.length := of_decide_eq_true size
  omega
/-- A receiver that is told a SEQ of a stream expects it. -/
theorem expect_known (x : IoDie) (w seq : Word) : ((x.expect w seq).ttr.find? (ttStream w)).map (·.2.2.2.2) = some seq := by
  have others : (x.ttr.filter fun y => !ttStream w y).find? (ttStream w) = none :=
    List.find?_eq_none.2 fun y among => by simpa using (List.mem_filter.1 among).2
  have own : ttStream w (fld w 42 16, fld w 8 16, fld w 24 5, fld w 29 6, seq) = true := by simp [ttStream]
  rw [IoDie.expect, List.find?_append, others, Option.none_or, List.find?_cons_of_pos own]
  rfl

theorem ttSends (s : State) (io : Fin 2) (q : Nat) : let x := s.io io
    let l := tget x.outbox q []
    let o := x.streamPort q
    let y := x.sender o
    let s' := s.ttPack io q
    ∃ z b port, tget (s'.io io).outbox q [] = l.drop 90 ∧
      ((s'.io io).sender o).next = y.next + 1 ∧ ((s'.io io).sender o).unacked = y.unacked ++ [z] ∧ z.seq = y.next ∧ z.port = q ∧
      z.toks = l.take 90 ∧ z.sent = x.phc.toNat ∧ s'.out = .frame io port b :: s.out ∧ ttCount b = min 90 l.length ∧ ttWord b 1 = y.next ∧
      s'.mem = s.mem := by
  intro x l o y s'
  let z : TtFrame := ⟨y.next, l.take 90, x.phc.toNat, q⟩
  have size : z.toks.length = min 90 l.length := List.length_take
  obtain ⟨count, number⟩ := ttFrame_words x y.rst z (by rw [size]; omega)
  have die : s'.io io = { x.setSender o { y with next := y.next + 1, unacked := y.unacked ++ [z] } with outbox := tset x.outbox q (l.drop 90) } := by
    have left (a : State) (b : List Byte) : (a.ttOut io b).io io = a.io io := rfl
    rw [show s' = s.ttPack io q from rfl, State.ttPack, left, State.modIo_io_same]
  have sender : (s'.io io).sender o = { y with next := y.next + 1, unacked := y.unacked ++ [z] } := by
    rw [die]
    exact setSender_sender ..
  refine ⟨z, x.ttFrame y.rst z, _, ?_, by rw [sender], by rw [sender], rfl, rfl, rfl, rfl, rfl, count.trans size, number, rfl⟩
  rw [die]
  exact tget_tset_same ..
theorem ttResends (s : State) (io : Fin 2) (q : Nat) : let x := s.io io
    let y := x.sender q
    let s' := s.resend io q
    s'.out.length = s.out.length + y.unacked.length ∧
      ((s'.io io).sender q).unacked = (y.unacked.map fun z => { z with sent := x.phc.toNat }) ∧ ((s'.io io).sender q).next = y.next ∧ s'.mem = s.mem := by
  intro x y s'
  obtain ⟨out, ios, mem⟩ := ttOuts s io (x.ttFrame y.rst) y.unacked
  have again : s' = (y.unacked.foldl (fun s z => s.ttOut io (x.ttFrame y.rst z)) s).modIo io fun x' =>
    x'.setSender q { y with unacked := y.unacked.map fun z => { z with sent := x'.phc.toNat } } := rfl
  have die := (y.unacked.foldl (fun s z => s.ttOut io (x.ttFrame y.rst z)) s).modIo_io_same io fun x' =>
    x'.setSender q { y with unacked := y.unacked.map fun z => { z with sent := x'.phc.toNat } }
  rw [← again, ios] at die
  have sender : (s'.io io).sender q = { y with unacked := y.unacked.map fun z => { z with sent := x.phc.toNat } } := by
    rw [die]
    exact setSender_sender ..
  exact ⟨out, by rw [sender], by rw [sender], mem⟩

section
variable (s : State) (io : Fin 2) (fr : EthFrame)
/-- The next frame of a stream is delivered and acknowledged (R439). -/
theorem ttIn_delivers (long : 32 ≤ fr.bytes.length) : let w := ttWord fr.bytes 0
    let seq := ttWord fr.bytes 1
    let key := 64 * fld w 24 5 + fld w 29 6
    let known := ((s.io io).ttr.find? (ttStream w)).map (·.2.2.2.2)
    let inbox := tget (s.io io).inbox key []
    known = some seq ∨ (bit w 58 = true ∧ seq = 0) → s.siteFaces io (Fin.ofNat 32 (fld w 24 5)) (fld w 29 6) = true →
      8 * inbox.length + 8 * ttCount fr.bytes ≤ 4194304 →
      ∃ b, let s' := s.ttIn io fr
        tget (s'.io io).inbox key [] = inbox ++ ttToks fr.bytes ∧
        s'.out = .frame io fr.port b :: s.out ∧ ttCount b = 0 ∧ ttWord b 1 = seq + 1 ∧
        ((s'.io io).ttr.find? (ttStream w)).map (·.2.2.2.2) = some (seq + 1) ∧ { s' with ios := s.ios, out := s.out } = s := by
  intro w seq key known inbox next faces room
  have due : (bit w 58 && seq == 0 || known == some seq) = true := by
    rcases next with next | ⟨first, zero⟩
    · rw [next, beq_self_eq_true, Bool.or_true]
    · rw [first, zero]
      rfl
  have fits : (s.siteFaces io (Fin.ofNat 32 (fld w 24 5)) (fld w 29 6) && decide (8 * inbox.length + 8 * ttCount fr.bytes ≤ 4194304)) = true := by
    rw [faces, decide_eq_true room]
    rfl
  let a := (s.modIo io (·.expect w (seq + 1))).linkIn io (fld w 24 5) (fld w 29 6) (ttToks fr.bytes)
  obtain ⟨b, acked, count, number⟩ := ttAck_words a io (fr := fr) (seq + 1) long
  have took : s.ttIn io fr = a.ttAck io fr (seq + 1) := if_pos (by rw [Bool.and_eq_true]; exact ⟨due, fits⟩)
  have die : a.io io = { (s.io io).expect w (seq + 1) with inbox := tmod (s.io io).inbox key [] (· ++ ttToks fr.bytes) } := by
    have inner : (s.modIo io (·.expect w (seq + 1))).io io = (s.io io).expect w (seq + 1) := State.modIo_io_same ..
    exact (State.modIo_io_same ..).trans (by rw [inner]; rfl)
  have same : (a.ttAck io fr (seq + 1)).io io = a.io io := by rw [acked]; rfl
  refine ⟨b, ?_⟩
  dsimp only
  rw [took, same, die]
  refine ⟨?_, by rw [acked]; rfl, count, number, expect_known .., by rw [acked]; rfl⟩
  exact tget_tset_same ..
/-- Any other frame is acknowledged with the SEQ that the receiver expects (R439). -/
theorem ttIn_other {w seq : Word} (first : w = ttWord fr.bytes 0) (second : seq = ttWord fr.bytes 1)
    (other : ((s.io io).ttr.find? (ttStream w)).map (·.2.2.2.2) ≠ some seq) (going : ¬(bit w 58 = true ∧ seq = 0)) :
    s.ttIn io fr = s.ttAck io fr ((((s.io io).ttr.find? (ttStream w)).map (·.2.2.2.2)).getD 0) := by
  subst first second
  refine if_neg fun takes => ?_
  obtain ⟨due, -⟩ := Bool.and_eq_true_iff.1 takes
  rcases Bool.or_eq_true_iff.1 due with starts | next
  · obtain ⟨starts, zero⟩ := Bool.and_eq_true_iff.1 starts
    exact going ⟨starts, beq_iff_eq.1 zero⟩
  · exact other (beq_iff_eq.1 next)
end

/-- Settles the third part of O58. -/
theorem tokenTransport : TokenTransport := by
  refine ⟨fun s io q => ?_, fun s io fr good claims => ?_⟩
  · extract_lets x l o y
    have send : exec (.ttSend io q) s = when_ s (bit (tget x.ttmap (2 * q.val) 0) 0 && !l.isEmpty &&
        decide (ttBytes y + 16 + 16 * min 90 l.length ≤ 65536)) (s.ttPack io q.val) := rfl
    refine ⟨fun claimed some_ room => ?_, fun idle => ?_, fun z first => ?_⟩
    · have run := send.trans (when_of_true (by rw [claimed, List.isEmpty_eq_false_iff.2 some_, decide_eq_true room]; rfl))
      obtain ⟨z, b, port, sent⟩ := ttSends s io q.val
      exact ⟨_, z, b, port, run, sent⟩
    · refine send.trans (when_of_false ?_)
      rcases idle with idle | idle <;> rw [idle] <;> simp
    · have again : exec (.ttRetransmit io q) s = when_ s (decide (z.sent + 50000 ≤ x.phc.toNat)) (s.resend io q.val) := by
        have first : ((s.io io).sender q.val).unacked.head? = some z := first
        rw [exec_ttRetransmit, execTtRetransmit, first]
      exact ⟨fun early => again.trans (when_of_false (decide_eq_false (Nat.not_le.2 early))), fun late =>
        ⟨_, again.trans (when_of_true (decide_eq_true late)), ttResends s io q.val⟩⟩
  · have long := ttClaims_long claims
    extract_lets w seq key known inbox
    refine ⟨fun data => ?_, fun q z l none named kept fresh => ?_⟩
    · have run : exec (.ttDataFrameReceive io fr) s = .next (s.ttIn io fr) := by
        rw [exec_ttDataFrameReceive, when_of_true (by rw [good, claims, decide_eq_true data]; rfl)]
      refine ⟨fun next faces room => ?_, fun other going => ?_⟩
      · obtain ⟨b, delivered⟩ := ttIn_delivers s io fr long next faces room
        exact ⟨_, b, run, delivered⟩
      · obtain ⟨b, acked, count, number⟩ := ttAck_words s io (fr := fr) (known.getD 0) long
        exact ⟨b, by rw [run, ttIn_other s io fr rfl rfl other going, ← acked], count, number⟩
    · have run : exec (.ttAckReceive io fr) s = .next (s.modIo io fun x =>
          x.setSender q { (s.io io).sender q with unacked := (z :: l).filter (fun z => !seqBelow z.seq seq), rst := false }) := by
        have named : (s.io io).ackedPort (ttWord fr.bytes 0) = some q := named
        have stays : ¬(ttWord fr.bytes 1 = 0 ∧ z.seq ≠ 0) := fun ⟨zero, old⟩ => fresh.elim (· zero) old
        rw [exec_ttAckReceive, execTtAckReceive, named]
        dsimp only
        rw [when_of_true (by rw [good, claims, none]; rfl), State.ttAcked]
        simp only [kept]
        rw [if_neg stays]
      have sender : ((s.modIo io fun x => x.setSender q
          { (s.io io).sender q with unacked := (z :: l).filter (fun z => !seqBelow z.seq seq), rst := false }).io io).sender q =
            { (s.io io).sender q with unacked := (z :: l).filter (fun z => !seqBelow z.seq seq), rst := false } := by
        rw [State.modIo_io_same, setSender_sender]
      exact ⟨_, run, by rw [sender]; rfl, by rw [sender], by rw [sender], rfl⟩
end Sys2Proof.Machine
end

section
/-! O58, last part. The rings of the host at the Ethernet ports (R435, R436). -/

namespace Sys2Proof.Machine

theorem exec_txdoorWrite (io q : Fin 2) (n : BitVec 16) (s : State) : exec (.txdoorWrite io q n) s = .next (s.ringDoor io q n) := rfl
theorem exec_txComplete (io q : Fin 2) (s : State) : exec (.txComplete io q) s = execTxComplete io q s := rfl

/-! What a write leaves to be read -/

/-- A part of what was written is read where it stands. -/
theorem Wrote.bytes {m m' : Memory} {pa : Nat} {l : List Byte} (h : Wrote m m' pa l) {pre part post : List Byte} (parts : l = pre ++ part ++ post) :
    m'.bytes (pa + pre.length) part.length = part := by
  have length (a n : Nat) : (m'.bytes a n).length = n := by
    induction n generalizing a with
    | zero => rfl
    | succ n ih => exact congrArg (· + 1) (ih (a + 1))
  refine List.ext_getElem (length _ _) fun i left right => ?_
  rw [Memory.getElem_bytes, Nat.add_assoc]
  refine h.inside _ _ ?_
  rw [parts, List.append_assoc, List.getElem?_append_right (Nat.le_add_right ..), Nat.add_sub_cancel_left, List.getElem?_append_left right,
    List.getElem?_eq_getElem right]
theorem Wrote.read {m m' : Memory} {pa : Nat} {l : List Byte} (h : Wrote m m' pa l) {pre part post : List Byte} (parts : l = pre ++ part ++ post) :
    m'.read (pa + pre.length) part.length = ofBytes part := by rw [Memory.read, h.bytes parts]

/-! Ring pointers and interrupts (R435) -/

theorem setPtr_ringPtr (x : IoDie) (q : Fin 2) (lo n : Nat) (fits : lo + 16 ≤ 64) : (x.setPtr q lo n).ringPtr q lo = n % 2 ^ 16 := by
  rw [IoDie.ringPtr, IoDie.setPtr, tget_tset_same, fld_setFld_same _ _ _ _ fits]
theorem msixLink_modIo (s : State) (io : Fin 2) {h : IoDie → IoDie} (keeps : ∀ x, (h x).bar4 = x.bar4) (v : Nat) :
    (s.modIo io h).msixLink v = s.msixLink v := by
  have same : ((s.modIo io h).io 0).bar4 = (s.io 0).bar4 := by
    by_cases own : (0 : Fin 2) = io
    · subst own
      rw [State.modIo_io_same, keeps]
    · rw [State.modIo_io_other _ _ _ _ own]
  rw [State.msixLink, IoDie.bar4Byte, same, State.msixLink, IoDie.bar4Byte]
/-- What an interrupt leaves of a change of an I/O die that keeps BAR4. -/
theorem ringMsix_modIo (s : State) (io q : Fin 2) {h : IoDie → IoDie} (keeps : ∀ x, (h x).bar4 = x.bar4) :
    (s.modIo io h).ringMsix io q =
      { s.modIo io h with out := .msix (s.msixLink (74 + 2 * io.val + q.val)) (74 + 2 * io.val + q.val) :: s.out } := by
  rw [State.ringMsix, State.msix, msixLink_modIo s io keeps]
  rfl

/-! Receiving (R436) -/

/-- What a frame leaves in its receive slot: its length, its time of arrival and its bytes. -/
def slotBytes (fr : EthFrame) : List Byte := bytesOf 8 fr.bytes.length ++ bytesOf 8 fr.time.toNat ++ fr.bytes
section
variable (s : State) (io : Fin 2) (fr : EthFrame)
theorem hostRing_run : exec (.hostRingFrameReceive io fr) s =
    when_ s (fr.fcsGood && !flowClaims fr.bytes && !(s.io io).ttClaims fr.bytes && (s.io io).ringOk fr.port && decide (fr.bytes.length ≤ 2032) &&
      s.ringHas ((s.io io).slotPa fr.port 0) &&
      decide (((s.io io).ringPtr fr.port 0 + 2 ^ 16 - (s.io io).ringPtr fr.port 16) % 2 ^ 16 < (s.io io).ringSlots fr.port)) (s.ringIn io fr) := rfl
/-- A frame enters a slot in HBM (R436). -/
theorem ringIn_hbm (hbm : isHbm ((s.io io).slotPa fr.port ((s.io io).ringPtr fr.port 0 % (s.io io).ringSlots fr.port)) = true) :
    let a := s.hostPut ((s.io io).slotPa fr.port ((s.io io).ringPtr fr.port 0 % (s.io io).ringSlots fr.port)) (slotBytes fr) false
    let b := a.modIo io fun x => x.setPtr fr.port 0 ((s.io io).ringPtr fr.port 0 + 1)
    s.ringIn io fr = { b with out := .msix (s.msixLink (74 + 2 * io.val + fr.port.val)) (74 + 2 * io.val + fr.port.val) :: s.out } := by
  intro a b
  have put : s.ringIn io fr = b.ringMsix io fr.port := by
    rw [State.ringIn, State.ringPut, if_pos hbm]
    rfl
  rw [put]
  exact ringMsix_modIo a io fr.port fun _ => rfl
end
/-- The length, the time and the bytes of a frame are read from its slot. -/
theorem slot_read {m m' : Memory} {pa : Nat} {fr : EthFrame} (h : Wrote m m' pa (slotBytes fr)) (short : fr.bytes.length ≤ 2032) :
    m'.read pa 8 = fr.bytes.length ∧ m'.read (pa + 8) 8 = fr.time.toNat ∧
      (∀ i b, fr.bytes[i]? = some b → m'.byte (pa + 16 + i) = b) ∧
      ∀ y, ¬(pa ≤ y ∧ y < pa + 16 + fr.bytes.length) → m'.byte y = m.byte y := by
  have size : (bytesOf 8 fr.bytes.length ++ bytesOf 8 fr.time.toNat).length = 16 := by rw [List.length_append, length_bytesOf, length_bytesOf]
  have total : (slotBytes fr).length = 16 + fr.bytes.length := by rw [slotBytes, List.length_append, size]
  have first := h.read (pre := []) (part := bytesOf 8 fr.bytes.length) (post := bytesOf 8 fr.time.toNat ++ fr.bytes) (List.append_assoc ..)
  have second := h.read (pre := bytesOf 8 fr.bytes.length) (part := bytesOf 8 fr.time.toNat) (post := fr.bytes) rfl
  rw [length_bytesOf, ofBytes_bytesOf] at first second
  rw [length_bytesOf] at second
  refine ⟨first.trans (Nat.mod_eq_of_lt (by omega)), second.trans (Nat.mod_eq_of_lt fr.time.isLt), fun i b at_i => ?_, fun y out => ?_⟩
  · rw [Nat.add_assoc]
    refine h.inside _ _ ?_
    rw [slotBytes, List.getElem?_append_right (by omega), size, Nat.add_sub_cancel_left, at_i]
  · exact h.outside y (by omega)

/-! Sending (R436) -/

theorem ringGet_length (s : State) (pa n : Nat) : (s.ringGet pa n).length = n := by
  have length (m : Memory) (a n : Nat) : (m.bytes a n).length = n := by
    induction n generalizing a with
    | zero => rfl
    | succ n ih => exact congrArg (· + 1) (ih (a + 1))
  unfold State.ringGet
  split
  · simp [State.committedBytes]
  · exact length ..

/-- A door queues as many slots as the ring holds (R436). -/
theorem ringDoor_txq (s : State) (io q : Fin 2) (n : BitVec 16) : let old := tget (s.io io).txq q.val []
    ∃ l, l.length = min n.toNat ((s.io io).ringSlots q - old.length) ∧ tget ((s.ringDoor io q n).io io).txq q.val [] = old ++ l := by
  intro old
  refine ⟨_, ?_, (congrArg (fun x : IoDie => tget x.txq q.val []) (s.modIo_io_same io _)).trans (tget_tset_same ..)⟩
  rw [List.length_map, List.length_range]
/-- The frame of a slot without TSREQ leaves, and no memory changes (R436). -/
theorem transmit_plain (s : State) (io q : Fin 2) (n : Nat) : let x := s.io io
    let pa := x.slotPa q (x.ringSlots q + n)
    let b := s.ringGet (pa + 16) (min 2032 (ofBytes ((s.ringGet pa 16).take 2)))
    let y := (s.frameOut io q b).modIo io fun y => { y.setPtr q 48 (y.ringPtr q 48 + 1) with txq := tmod y.txq q.val [] (·.drop 1) }
    ((s.ringGet pa 16).getD 2 0).getLsbD 0 = false → s.transmit io q n =
      { y with out := .msix (s.msixLink (74 + 2 * io.val + q.val)) (74 + 2 * io.val + q.val) :: .frame io q b :: s.out } := by
  intro x pa b y plain
  have sent : s.transmit io q n = y.ringMsix io q := by
    rw [State.transmit]
    dsimp only
    rw [show ((s.ringGet ((s.io io).slotPa q ((s.io io).ringSlots q + n)) 16).getD 2 0).getLsbD 0 = false from plain, if_neg Bool.false_ne_true]
  rw [sent]
  exact ringMsix_modIo (s.frameOut io q b) io q fun _ => rfl

/-- Settles the last part of O58. -/
theorem hostRings : HostRings := by
  refine ⟨fun s io fr => ?_, fun s io q n => ?_, fun s io q n rest => ?_⟩
  · extract_lets x q free pa
    have run := hostRing_run s io fr
    refine ⟨fun refused => run.trans (when_of_false ?_), fun safe sound good noFlow noStream ok short has hbm room => ?_⟩
    · rcases refused with bad | full
      · rw [bad]
        rfl
      · rw [decide_eq_false full, Bool.and_false]
    · have due : (fr.fcsGood && !flowClaims fr.bytes && !(s.io io).ttClaims fr.bytes && (s.io io).ringOk fr.port && decide (fr.bytes.length ≤ 2032) &&
          s.ringHas ((s.io io).slotPa fr.port 0) &&
          decide (((s.io io).ringPtr fr.port 0 + 2 ^ 16 - (s.io io).ringPtr fr.port 16) % 2 ^ 16 < (s.io io).ringSlots fr.port)) = true := by
        rw [good, noFlow, show (s.io io).ttClaims fr.bytes = false from noStream, show (s.io io).ringOk fr.port = true from ok, decide_eq_true short,
          show s.ringHas ((s.io io).slotPa fr.port 0) = true from has, decide_eq_true room]
        rfl
      have run := run.trans (when_of_true due)
      rw [ringIn_hbm s io fr hbm] at run
      obtain ⟨length, time, bytes, others⟩ := slot_read (plainWrite_wrote safe sound pa (slotBytes fr) false) short
      refine ⟨_, run, ?_, rfl, length, time, bytes, others⟩
      have die : (((s.hostPut pa (slotBytes fr) false).modIo io fun x => x.setPtr fr.port 0 ((s.io io).ringPtr fr.port 0 + 1)).io io) =
          (s.io io).setPtr fr.port 0 ((s.io io).ringPtr fr.port 0 + 1) := State.modIo_io_same ..
      exact (congrArg (IoDie.ringPtr · fr.port 0) die).trans (setPtr_ringPtr _ _ _ _ (by decide))
  · obtain ⟨l, length, queued⟩ := ringDoor_txq s io q n
    refine ⟨_, exec_txdoorWrite io q n s, rfl, ?_, ?_⟩ <;> rw [queued]
    · exact List.take_left
    · rw [List.length_append, length]
  · extract_lets x pa
    intro first ok has plain
    have run : exec (.txComplete io q) s = .next (s.transmit io q n) := by
      have head : (tget (s.io io).txq q.val []).head? = some n := by rw [show tget (s.io io).txq q.val [] = n :: rest from first]; rfl
      rw [exec_txComplete, execTxComplete]
      simp only [head]
      exact when_of_true (by rw [show (s.io io).ringOk q = true from ok, show s.ringHas ((s.io io).slotPa q ((s.io io).ringSlots q + n)) = true from has]; rfl)
    rw [transmit_plain s io q n plain] at run
    have die : ((s.frameOut io q (s.ringGet (pa + 16) (min 2032 (ofBytes ((s.ringGet pa 16).take 2))))).modIo io fun y =>
        { y.setPtr q 48 (y.ringPtr q 48 + 1) with txq := tmod y.txq q.val [] (·.drop 1) }).io io =
        { x.setPtr q 48 (x.ringPtr q 48 + 1) with txq := tmod x.txq q.val [] (·.drop 1) } := State.modIo_io_same ..
    refine ⟨_, _, run, ?_, ?_, rfl, ringGet_length .., rfl⟩
    · refine (congrArg (fun y : IoDie => tget y.txq q.val []) die).trans ?_
      rw [tmod, tget_tset_same, first]
      rfl
    · exact (congrArg (fun y : IoDie => y.ringPtr q 48) die).trans (setPtr_ringPtr x q 48 _ (by decide))

/-- Settles O58. -/
theorem hostLinks : Obligations.HostLinks := ⟨hostAccess, fronthaulFrames, tokenTransport, hostRings⟩
end Sys2Proof.Machine
end
